-- ==== Sys2Proof/Word.lean ====
section
/-!
DEFINITION. The words of the HZT-808: bytes, 64-bit registers, 64-byte lines, and the bit-field of a number.
Bit 0 is the least significant bit and multi-byte fields are little-endian (00_scope, "Notation and units").
-/

namespace Sys2Proof

/-- One byte of memory, of a tile store or of a message. -/
abbrev Byte := BitVec 8

/-- The value of one 64-bit control-window register (R8). -/
abbrev Word := BitVec 64

/-- A 64-byte coherent line (R422). -/
abbrev Line := BitVec 512

/-- Bits [hi:lo] of the number `w`, as the manual writes bit ranges, high to low. -/
def bits (w hi lo : Nat) : Nat := (w >>> lo) % 2 ^ (hi + 1 - lo)

/-- Bit `i` of the number `w`. -/
def bit (w i : Nat) : Bool := w.testBit i

/-- The number whose bits [hi:lo] are the low bits of `v` and whose other bits are zero. -/
def place (hi lo v : Nat) : Nat := (v % 2 ^ (hi + 1 - lo)) <<< lo

/-- The number `v`, saturated at the largest value of `width` bits (the "saturating" counters of every register map). -/
def satTo (width v : Nat) : Nat := min v (2 ^ width - 1)

/-- The low `width` bits of `v` read as a signed number. -/
def signed (width v : Nat) : Int :=
  let x := v % 2 ^ width
  if 2 ^ (width - 1) ≤ x then (x : Int) - (2 ^ width : Nat) else (x : Int)

/-- The `width`-bit two's-complement code of `v`. -/
def unsignedOf (width : Nat) (v : Int) : Nat := (v % ((2 ^ width : Nat) : Int)).toNat

/-- The ceiling of `a / b`. -/
def ceilDiv (a b : Nat) : Nat := (a + b - 1) / b

/-- 1 for true, 0 for false: the code of a one-bit field. -/
def b2n (b : Bool) : Nat := if b then 1 else 0

end Sys2Proof
end

