-- ==== Sys2Proof/Syntax.lean ====
section
/-!
DEFINITION. The commands of the HZT-808: one constructor of `Instr` for each row of spec/opcode_table.json, and the
plain-data operands that they carry. A command is an access of software, a message that arrives, an event on a
contact, or one indivisible step of an engine of the module (95_what_each_step_holds).
-/

namespace Sys2Proof

/-- A matrix cluster CDn.Ckkk: its compute die and its physical index (00_scope, "Names"). -/
structure ClusterId where
  die : Nat
  idx : Nat
  deriving DecidableEq, Repr

/-- Format R of R180. -/
structure FmtR where
  rd : BitVec 5
  rs1 : BitVec 5
  rs2 : BitVec 5
  fn : BitVec 10
  deriving DecidableEq, Repr

/-- Format I of R180. -/
structure FmtI where
  rd : BitVec 5
  rs1 : BitVec 5
  imm : BitVec 15
  deriving DecidableEq, Repr

/-- Format S of R180. -/
structure FmtS where
  rs2 : BitVec 5
  rs1 : BitVec 5
  imm : BitVec 15
  deriving DecidableEq, Repr

/-- Format B of R180. -/
structure FmtB where
  rs1 : BitVec 5
  rs2 : BitVec 5
  off : BitVec 15
  deriving DecidableEq, Repr

/-- Formats U and J of R180. -/
structure FmtU where
  rd : BitVec 5
  imm : BitVec 20
  deriving DecidableEq, Repr

/-- The five 5-bit fields of format M of R180 and of the vector formats VA, VM, VC, VR and VP of R249:
`f24` is bits [24:20], `f19` bits [19:15], `f14` bits [14:10], `f9` bits [9:5] and `f4` bits [4:0]. -/
structure Fmt5 where
  f24 : BitVec 5
  f19 : BitVec 5
  f14 : BitVec 5
  f9 : BitVec 5
  f4 : BitVec 5
  deriving DecidableEq, Repr

/-- A message of `len` bytes: byte i is bits [8i+7:8i] of `w` (the layouts of R380, R638, R682, R707). -/
structure Msg where
  len : Nat
  w : Nat
  deriving DecidableEq, Repr

/-- A Relay wire block (R336): a 32-byte header and 8,192 payload bytes. -/
structure RelayBlock where
  hdr : BitVec 256
  payload : List Byte
  deriving DecidableEq, Repr

/-- A Crimon message (R429): the 16-byte header, and the line or the 8 bytes after it. -/
structure CrMsg where
  hdr : BitVec 128
  data : Line
  deriving DecidableEq, Repr

/-- An Acmet flit (R400): the 12-byte header, 240 payload bytes, and the CRC-32C that stands behind them. -/
structure Flit where
  hdr : BitVec 96
  payload : List Byte
  crc : BitVec 32
  deriving DecidableEq, Repr

/-- The peer found at IDENTIFY (R409): its fabric index, its port, the role of that port, and its PODS. -/
structure PeerId where
  fi : Nat
  port : Nat
  role : Nat
  pods : Nat
  deriving DecidableEq, Repr

/-- What diagnosis finds (R413, R414, R416). -/
inductive PortFault where
  | localEngine
  | beyond
  deriving DecidableEq, Repr

/-- What makes a port retrain (R411), with its code in PORT_RETRAIN. -/
inductive RetrainTrigger where
  | fecLock
  | burst
  | nakRun
  deriving DecidableEq, Repr

/-- What makes a die link retrain (R464), with its code in LINK_RETRAIN. -/
inductive LinkTrigger where
  | laneLock
  | crcBurst
  | laneFailure
  deriving DecidableEq, Repr

/-- A host core's access kind (R460, R461, R556): a speculative access is a prefetch; a reserved one is a load-reserved. -/
inductive HostAccess where
  | load
  | fetch
  | spec
  | reserved
  deriving DecidableEq, Repr

/-- The memory type of a host core's access (R427): cacheable, or NC / IO under Svpbmt. -/
inductive HostMemType where
  | cached
  | uncached
  deriving DecidableEq, Repr

/-- The instants that R617 samples: the converters' input and the delivered power of every rail, and the readings of
the temperature sensors and voltage monitors taken with them (R616, R617, R620, R647). -/
structure PowerReadings where
  inputMv : Nat
  /-- Input voltage averaged over 100 µs, in mV (R620). -/
  inputAvgMv : Nat
  /-- Predicted input power of the next sample in W (R626). -/
  predictedW : Nat
  /-- Per bus converter: input mV, input current in 0.01 A, output W, input W. -/
  converters : List (Nat × Nat × Nat × Nat)
  /-- Per rail: mV, current in 0.1 A, delivered W. -/
  rails : List (Nat × Nat × Nat)
  /-- Sensor number and reading in 1/16 °C. -/
  temps : List (Nat × Nat)
  /-- Voltage monitor and its reading in mV. -/
  volts : List (Nat × Nat)
  deriving DecidableEq, Repr

/-- What the Starter reads of one flash slot (R654, R656): whether every read completed, and the bytes. -/
structure FlashSlot where
  readOk : Bool
  bytes : List Byte
  deriving DecidableEq, Repr

/-- What a start step finds (R666). Step 1 reads the flash; the other steps end well, or fail with the cause and unit
that START_FAILED reports. -/
inductive StartResult where
  | flash (dir0 dir1 : List Byte) (slotA slotB : FlashSlot) (msA msB : Nat)
  | done
  | failed (cause unit : Nat)
  deriving DecidableEq, Repr

/-- An inbound PCIe request after the IOMMU (R559): the translated address, or none where the IOMMU refused it. -/
structure PcieReq where
  requester : Nat
  addr : Option Nat
  write : Bool
  data : List Byte
  len : Nat
  deriving DecidableEq, Repr

/-- What a PCIe link does (R557), with its code in PCIE_LINK. -/
inductive PcieEvent where
  | up (speed width : Nat) (flit : Bool)
  | down
  | dpc
  deriving DecidableEq, Repr

/-- What an engine's codec found in one frame (R599 to R613): the external standards decide it from the stream.
[DESIGN CHOICE, notes/assumptions/78.md] -/
structure FrameResult where
  pool : Nat
  ftype : Nat
  order : Nat
  shown : Bool
  unsupported : Bool
  syntaxError : Bool
  truncated : Bool
  /-- Display order of each reference the stream names that the context does not hold (R611). -/
  missing : List Nat
  refDamaged : Bool
  affected : Nat
  blocks : Nat
  first : Nat
  /-- Bitstream bytes consumed, or for ENCODE the byte count of each block before the guard (R604). -/
  bytes : Nat
  cycles : Nat
  /-- Pool index of the frame's first available reference, which concealed blocks copy (R610); none where it has none, or that one is missing. -/
  ref : Option Nat
  deriving DecidableEq, Repr

/-- An ENCODE frame as the entropy coder meets it (R602 to R606): the bytes of the headers, of each block as first
coded, of each guarded block (at most 4), of the closing syntax (at most 64), and the firmware's QP.
[DESIGN CHOICE, notes/assumptions/78.md] -/
structure EncodeResult where
  headerBytes : Nat
  blockBytes : List Nat
  guardedBytes : Nat
  closingBytes : Nat
  qp : Nat
  pool : Nat
  order : Nat
  cycles : Nat
  deriving DecidableEq, Repr

/-- The result of a self-test (R732). -/
structure TestResult where
  passed : Bool
  pattern : Nat
  deriving DecidableEq, Repr

/-- A PLDM command of R755. -/
inductive PldmCommand where
  | discovery (code : Nat)
  | numericSensor (id : Nat)
  | stateSensor (id : Nat)
  deriving DecidableEq, Repr

/-- How a write comes to a register: its width in bits (R8), and the host core 0–143 that issued it, where one did (R563). -/
structure WriteBy where
  bits : Nat
  core : Option Nat
  deriving DecidableEq, Repr

/-- The commands of spec/opcode_table.json, in its order.
[DESIGN CHOICE, notes/assumptions/81.md] -/
inductive Instr where
  -- Registers, event ring
  | registerWrite (off : Nat) (width : WriteBy) (val : Word)
  | lapCountRead
  | rsFieldWrite (off width : Nat) (val : Word)
  | ringHeadWrite (val : Word)
  | eventRingEnable (val : Word)
  | eventRingDisable (val : Word)
  | heldRecordWrite
  | eventRingOverflow
  -- Lap clock
  | lapMark
  | paceMark
  | lmosReceive (port : Nat) (w : BitVec 128) (arrNs : Int)
  | lapLockAcquired
  | laprefPpsEdge
  | laprefLost (no10M noPps : Bool)
  | dreqReceive (port : Nat) (w : BitVec 128) (turnaround : Nat)
  | drspReceive (port : Nat) (w : BitVec 128) (roundTrip : Nat)
  | lapUpstreamSwitch
  | lapLockLost
  | lapHoldover
  | lapRelocked
  | lapMasterTakeover
  -- Shadow set
  | shdCheck (area : Nat)
  | shdArm (area : Nat)
  | shdWithdraw (area : Nat)
  | shdDiscard (area : Nat)
  | shdApplyNow (area : Nat)
  | shadowSwap
  | svoteReceive (m : Msg)
  | spartReceive (m : Msg)
  | sdecReceive (m : Msg)
  | prevoteCollectorClose (job t level : Nat)
  | prevoteLate (area : Nat)
  -- Matrix clusters
  | kStep (cl : ClusterId)
  | mergeDone (cl : ClusterId)
  | wgqRun (cl : ClusterId)
  | readoutEnd (cl : ClusterId)
  | pushBufferEnter (cl : ClusterId)
  | clusterFault (cl : ClusterId) (cause addr : Nat)
  | clusterRotation (die part : Nat)
  | clusterRotated (die part hold : Nat)
  -- Cluster sequencer: scalar
  | alu (cl : ClusterId) (f : FmtR)
  | addi (cl : ClusterId) (f : FmtI)
  | andi (cl : ClusterId) (f : FmtI)
  | ori (cl : ClusterId) (f : FmtI)
  | xori (cl : ClusterId) (f : FmtI)
  | shli (cl : ClusterId) (f : FmtI)
  | shri (cl : ClusterId) (f : FmtI)
  | sari (cl : ClusterId) (f : FmtI)
  | slti (cl : ClusterId) (f : FmtI)
  | sltiu (cl : ClusterId) (f : FmtI)
  | lui (cl : ClusterId) (f : FmtU)
  | beq (cl : ClusterId) (f : FmtB)
  | bne (cl : ClusterId) (f : FmtB)
  | blt (cl : ClusterId) (f : FmtB)
  | bge (cl : ClusterId) (f : FmtB)
  | bltu (cl : ClusterId) (f : FmtB)
  | bgeu (cl : ClusterId) (f : FmtB)
  | jal (cl : ClusterId) (f : FmtU)
  | jalr (cl : ClusterId) (f : FmtI)
  | ld (cl : ClusterId) (f : FmtI)
  | lw (cl : ClusterId) (f : FmtI)
  | st (cl : ClusterId) (f : FmtS)
  | sw (cl : ClusterId) (f : FmtS)
  | tcpy (cl : ClusterId) (f : Fmt5)
  | srd (cl : ClusterId) (f : FmtI)
  -- Cluster sequencer: matrix, DMA, synchronisation
  | mcfg (cl : ClusterId) (f : Fmt5)
  | mlda (cl : ClusterId) (f : Fmt5)
  | mldb (cl : ClusterId) (f : Fmt5)
  | mma (cl : ClusterId) (f : Fmt5)
  | macc (cl : ClusterId) (f : Fmt5)
  | mdrn (cl : ClusterId) (f : Fmt5)
  | mtie (cl : ClusterId) (f : Fmt5)
  | rpush (cl : ClusterId) (f : Fmt5)
  | dq (cl : ClusterId) (f : Fmt5)
  | dqComplete (cl : ClusterId) (seq : Nat)
  | dwait (cl : ClusterId) (f : Fmt5)
  | fence (cl : ClusterId) (f : Fmt5)
  | halt (cl : ClusterId) (f : Fmt5)
  | bar (cl : ClusterId) (f : FmtI)
  | barrierRelease (die : Nat) (part : Option Nat) (slot number : Nat)
  | wlap (cl : ClusterId) (f : FmtI)
  | wlapComplete (cl : ClusterId)
  | hrdw (cl : ClusterId) (f : Fmt5)
  | hrdwRecord (cl : ClusterId)
  | hrdwOutcomeReturn (cl : ClusterId)
  | evt (cl : ClusterId) (f : FmtI)
  -- Vector engine
  | setvl (cl : ClusterId) (f : FmtI)
  | vld (cl : ClusterId) (f : Fmt5)
  | vlds (cl : ClusterId) (f : Fmt5)
  | vldb (cl : ClusterId) (f : Fmt5)
  | vst (cl : ClusterId) (f : Fmt5)
  | vsts (cl : ClusterId) (f : Fmt5)
  | vfv (cl : ClusterId) (f : Fmt5)
  | vfs (cl : ClusterId) (f : Fmt5)
  | vfu (cl : ClusterId) (f : Fmt5)
  | vsfu (cl : ClusterId) (f : Fmt5)
  | viv (cl : ClusterId) (f : Fmt5)
  | vis (cl : ClusterId) (f : Fmt5)
  | vcmpv (cl : ClusterId) (f : Fmt5)
  | vcmps (cl : ClusterId) (f : Fmt5)
  | vsel (cl : ClusterId) (f : Fmt5)
  | vred (cl : ClusterId) (f : Fmt5)
  | vderiv (cl : ClusterId) (f : Fmt5)
  | vcvt (cl : ClusterId) (f : Fmt5)
  | vsr (cl : ClusterId) (f : Fmt5)
  | vxcvt (cl : ClusterId) (f : Fmt5)
  | vmv (cl : ClusterId) (f : Fmt5)
  | vputs (cl : ClusterId) (f : Fmt5)
  | vgets (cl : ClusterId) (f : Fmt5)
  -- Backward pass
  | seedCastRelease (cl : ClusterId)
  | drainMark (slot : Nat)
  | epochFlip (slot : Nat)
  | epochFlipLate (slot die shard : Nat)
  | epochRelease (slot die shard : Nat)
  | tieUseApply (cl : ClusterId)
  -- Relay and Hurdle
  | relayPushTake (cl : ClusterId)
  | relayBlockReceive (port : Nat) (b : RelayBlock)
  | relayAckReceive (tag : Nat) (ok : Bool)
  | scaleReturnReceive (port : Nat) (b : RelayBlock)
  | relayEngineFail (engine : Nat)
  | hurdleMark (slot : Nat)
  | hurdleContribReceive (m : Msg)
  | hurdlePartialReceive (m : Msg)
  | hurdleCollectorClose (slot level : Nat)
  | hurdleOutcomeReceive (m : Msg)
  | hurdleLate (slot : Nat)
  | hurdleOutcomeApply (slot : Nat)
  -- Acmet
  | laserStatusChange (d : Nat) (inserted latched fault : Bool) (okMask temp power : Nat)
  | portTrainStageDone (port : Nat) (peer : PeerId)
  | portTrainTimeout (port : Nat)
  | portRetrain (port : Nat) (why : RetrainTrigger)
  | portDiagnosis (port : Nat) (fault : PortFault)
  | reserveEngineSwap (io : Nat)
  | replayStateDiscard (port : Nat)
  | flitReceive (port : Nat) (f : Flit)
  | peerWriteReceive (srcFi : Nat) (hdr : BitVec 128) (data : List Byte)
  | peerAckReceive (engine tag : Nat) (ok : Bool)
  | peerLost (engine tag : Nat)
  -- Crimon
  | hostLoad (core addr width : Nat) (kind : HostAccess) (ty : HostMemType)
  | hostStore (core addr width : Nat) (data : Line) (ty : HostMemType) (amo : Bool)
  | hostEvict (agent line : Nat)
  | rdshr (m : CrMsg)
  | rdown (m : CrMsg)
  | upgr (m : CrMsg)
  | rdna (m : CrMsg)
  | regrd (m : CrMsg)
  | regwr (m : CrMsg) (width : Nat)
  | doorbell (m : CrMsg)
  | withdraw (m : CrMsg)
  | snpshr (m : CrMsg)
  | snpinv (m : CrMsg)
  | snpcur (m : CrMsg)
  | snpflush (m : CrMsg)
  | rspi (m : CrMsg) (ns : Nat)
  | rsps (m : CrMsg) (ns : Nat)
  | rspfwd (m : CrMsg) (ns : Nat)
  | rspwbpend (m : CrMsg) (ns : Nat)
  | cmp (m : CrMsg)
  | cmpfault (m : CrMsg)
  | regdata (m : CrMsg)
  | credit (m : CrMsg)
  | data (m : CrMsg)
  | fwddata (m : CrMsg)
  | wbdata (m : CrMsg)
  | wrinvfull (m : CrMsg)
  | tenureEnd (agent line : Nat)
  | snoopTimeout (home line agent : Nat)
  | domainStop
  | biasCmd (val : Word)
  | biasCmdDone (ns : Nat)
  | biasFlip (home frame drainNs : Nat)
  | dieFlitReceive (link seq : Nat) (crcOk : Bool)
  | dieLinkRetrainEnter (link : Nat) (why : LinkTrigger) (failed : Nat × Nat)
  | linkRetrain (link stallNs replayed : Nat)
  | dieLinkFail (link : Nat)
  | withdrawTimeout (agent : Nat)
  -- Translation
  | walkComplete (walk : Nat)
  | faultResumeRetry (record : Nat)
  | faultResumeAbort (record : Nat)
  | faultRecordFree (record : Nat)
  | fqBaseWrite (val : Word)
  | shootdownCmd (val : Word)
  | shootdownComplete (elapsed100ns : Nat)
  | trackerDecay (h : Nat)
  -- Submission and copy
  | sqDoorbell (q : Nat) (val : Word)
  | sqOrderedDoorbell (core q : Nat) (val : Word)
  | submissionFetch (q : Nat)
  | submissionReread (q : Nat)
  | sqResume (q : Nat)
  | sqHalt (q : Nat)
  | queueDisable (q : Nat) (val : Word)
  | cqHeadWrite (q : Nat) (val : Word)
  | commandDispatch (engine : Nat)
  | copy (engine : Nat)
  | peerWrite (engine : Nat)
  | snapshot (engine : Nat)
  | load (q : Nat)
  | programLoaded (slot timeUs : Nat)
  | nop (q : Nat)
  | commandComplete (q : Nat)
  | slotDrainComplete (slot : Nat)
  -- Host complex
  | hostCcReset (fromCore : Option Nat) (die : Nat)
  | hostDieReset (fromCore : Option Nat) (die : Nat)
  | ccWithdrawDone (die us : Nat)
  | ccResetRelease (die : Nat)
  | ccFirstFetch (die us : Nat)
  | hdQuiesceDone (die us : Nat)
  | hdQuiesceTimeout (die : Nat)
  | hdResetRelease (die us : Nat)
  | hdrstAssert (die : Nat)
  | pcieInbound (port : Nat) (r : PcieReq)
  | pcieLink (port : Nat) (e : PcieEvent)
  -- Prism
  | ctxOpen (engine : Nat)
  | ctxClose (engine : Nat)
  | surfBind (engine : Nat)
  | decode (engine : Nat) (r : FrameResult)
  | encode (engine : Nat) (r : EncodeResult)
  | convert (engine : Nat) (cycles : Nat)
  | prismRcTimeout (engine : Nat)
  | prismWatchdog (engine : Nat) (r : FrameResult)
  -- Power and pace
  | powerSample (p : PowerReadings)
  | converterFault (k : Nat)
  | droopDetect (cl : ClusterId)
  | thermalFastHold (sensor reading : Nat)
  | thermalTrip (sensor reading : Nat)
  | pconReceive (m : Msg)
  | ppartReceive (m : Msg)
  | pdecReceive (m : Msg)
  | paceCollectorClose (slot level : Nat)
  | paceVoteLate (slot : Nat)
  | paceChange (slot : Nat)
  -- Reset and start
  | moduleReset
  | standbyPowerUp
  | startStepComplete (step : Nat) (r : StartResult)
  | startLockTimeout
  -- Checkpoints
  | ckptHaltStart (slot : Nat)
  | ckptCaptureStart (slot : Nat)
  | ckconReceive (m : Msg)
  | ckpartReceive (m : Msg)
  | ckdecReceive (m : Msg)
  | ckptCollectorClose (slot level : Nat)
  | ckptVoteTimeout (slot : Nat)
  | ckptMessageReceive (srcFi : Nat) (hdr : BitVec 128) (data : List Byte)
  | ckptAckReceive (slot seg chunk : Nat) (ok : Bool)
  | ckptResume (slot : Nat)
  | ckptForwardEnd (slot src : Nat) (abandoned : Bool) (ms : Nat)
  | verifyAll (slot : Nat)
  | verifyMarked (slot : Nat)
  | verifyDone (slot ms : Nat)
  | selftestWindowOpen (kind die unit : Nat)
  | selftestWindowClose (kind die unit : Nat) (r : TestResult)
  | selftestDeferred (cl : ClusterId)
  -- Management and JTAG
  | mgmtRead (off : Nat)
  | mgmtWrite (off : Nat) (val : Word)
  | i3cSetaasa
  | i3cEntdaa (addr : Nat)
  | pldmCommand (c : PldmCommand)
  | spdmGetVersion
  | spdmGetCapabilities
  | spdmNegotiateAlgorithms
  | spdmGetDigests
  | spdmGetCertificate (offset len : Nat)
  | spdmChallenge (nonce : Nat)
  | spdmGetMeasurements (index : Nat)
  | bypass
  | idcode
  | samplePreload (shiftIn : Nat)
  | extest
  | clamp
  | highz
  | regread (dr : BitVec 72)
  | laprefRestored
  | moduleResetRelease
  | powerRemoval
  | portRetry (port : Nat)
  | droopRecovered (cl : ClusterId) (cycles : Nat)
  | thermalHoldRelease
  deriving DecidableEq, Repr

end Sys2Proof
end

