-- ==== Sys2Proof/Decode.lean ====
section
/-!
DEFINITION. The commands as spec/opcode_table.json spells them in bits. No row of the table gives any bits: a command is an
access, a message or an event, so no word spells one.
-/

namespace Sys2Proof

/-- The command that a word of `nbits` bits spells by the table's bits: none, since no row gives bits. -/
def decodeTableWord (_nbits _w : Nat) : Option Instr := none

end Sys2Proof
end

