-- ==== Sys2Proof/Machine/Codes.lean ====
section
/-!
DEFINITION. Check codes, digests and signatures that the manual names: the CRC-16 of R775, CRC-32C, SHA-256, SHA-384, and
ECDSA P-384 verification (R660). Byte strings are lists, first byte first.
-/

namespace Sys2Proof.Machine

/-- The little-endian bytes of `v`, `n` of them. -/
def leBytes : Nat → Nat → List Byte
  | 0, _ => []
  | n + 1, v => BitVec.ofNat 8 v :: leBytes n (v / 256)

/-- The number of a little-endian byte string. -/
def ofLe : List Byte → Nat
  | [] => 0
  | b :: bs => b.toNat + 256 * ofLe bs

/-- The number of a big-endian byte string. -/
def ofBe (bs : List Byte) : Nat := bs.foldl (fun a b => 256 * a + b.toNat) 0

/-- The big-endian bytes of `v`, `n` of them. -/
def beBytes (n v : Nat) : List Byte := (leBytes n v).reverse

/-- One bit of the CRC-16 of R775, most significant bit first. -/
def crc16Bit (c : Nat) (b : Bool) : Nat :=
  let top := c.testBit 15 != b
  let s := (c <<< 1) % 2 ^ 16
  if top then s ^^^ 0x1021 else s

/-- The `n` low bits of `v`, taken from bit n − 1 down, into the CRC `c`. -/
def crc16Bits : Nat → Nat → Nat → Nat
  | 0, _, c => c
  | n + 1, v, c => crc16Bits n v (crc16Bit c (v.testBit n))

/-- CHECK of a 128-bit ordered set: the CRC-16 over bits [127:16] (R775). -/
def crc16Check (w : Nat) : Nat := crc16Bits 112 (w >>> 16) 0xFFFF

/-- One byte of CRC-32C (reflected, polynomial 0x1EDC6F41), before the final inversion. -/
def crc32cByte (c : Nat) (b : Byte) : Nat :=
  let step (x : Nat) : Nat := if x % 2 = 1 then (x >>> 1) ^^^ 0x82F63B78 else x >>> 1
  step (step (step (step (step (step (step (step (c ^^^ b.toNat))))))))

/-- CRC-32C of a byte string. -/
def crc32c (bs : List Byte) : Nat := (bs.foldl crc32cByte 0xFFFFFFFF) ^^^ 0xFFFFFFFF

/-- Rotate a `w`-bit number right by `n`. -/
def rotr (w x n : Nat) : Nat := (x >>> n) ||| ((x <<< (w - n)) % 2 ^ w)

/-- The constants of SHA-256, part 1. -/
def sha256K0 : List Nat := [
  0x428A2F98, 0x71374491, 0xB5C0FBCF, 0xE9B5DBA5, 0x3956C25B, 0x59F111F1, 0x923F82A4, 0xAB1C5ED5,
  0xD807AA98, 0x12835B01, 0x243185BE, 0x550C7DC3, 0x72BE5D74, 0x80DEB1FE, 0x9BDC06A7, 0xC19BF174,
  0xE49B69C1, 0xEFBE4786, 0x0FC19DC6, 0x240CA1CC, 0x2DE92C6F, 0x4A7484AA, 0x5CB0A9DC, 0x76F988DA,
  0x983E5152, 0xA831C66D, 0xB00327C8, 0xBF597FC7, 0xC6E00BF3, 0xD5A79147, 0x06CA6351, 0x14292967]

/-- The constants of SHA-256, part 2. -/
def sha256K1 : List Nat := [
  0x27B70A85, 0x2E1B2138, 0x4D2C6DFC, 0x53380D13, 0x650A7354, 0x766A0ABB, 0x81C2C92E, 0x92722C85,
  0xA2BFE8A1, 0xA81A664B, 0xC24B8B70, 0xC76C51A3, 0xD192E819, 0xD6990624, 0xF40E3585, 0x106AA070,
  0x19A4C116, 0x1E376C08, 0x2748774C, 0x34B0BCB5, 0x391C0CB3, 0x4ED8AA4A, 0x5B9CCA4F, 0x682E6FF3,
  0x748F82EE, 0x78A5636F, 0x84C87814, 0x8CC70208, 0x90BEFFFA, 0xA4506CEB, 0xBEF9A3F7, 0xC67178F2]

/-- The constants of SHA-256. -/
def sha256K : List Nat := sha256K0 ++ sha256K1

/-- The initial hash value of SHA-256. -/
def sha256H : List Nat := [
  0x6A09E667, 0xBB67AE85, 0x3C6EF372, 0xA54FF53A, 0x510E527F, 0x9B05688C, 0x1F83D9AB, 0x5BE0CD19]

/-- The constants of SHA-384, part 1. -/
def sha512K0 : List Nat := [
  0x428A2F98D728AE22, 0x7137449123EF65CD, 0xB5C0FBCFEC4D3B2F, 0xE9B5DBA58189DBBC,
  0x3956C25BF348B538, 0x59F111F1B605D019, 0x923F82A4AF194F9B, 0xAB1C5ED5DA6D8118,
  0xD807AA98A3030242, 0x12835B0145706FBE, 0x243185BE4EE4B28C, 0x550C7DC3D5FFB4E2,
  0x72BE5D74F27B896F, 0x80DEB1FE3B1696B1, 0x9BDC06A725C71235, 0xC19BF174CF692694,
  0xE49B69C19EF14AD2, 0xEFBE4786384F25E3, 0x0FC19DC68B8CD5B5, 0x240CA1CC77AC9C65]

/-- The constants of SHA-384, part 2. -/
def sha512K1 : List Nat := [
  0x2DE92C6F592B0275, 0x4A7484AA6EA6E483, 0x5CB0A9DCBD41FBD4, 0x76F988DA831153B5,
  0x983E5152EE66DFAB, 0xA831C66D2DB43210, 0xB00327C898FB213F, 0xBF597FC7BEEF0EE4,
  0xC6E00BF33DA88FC2, 0xD5A79147930AA725, 0x06CA6351E003826F, 0x142929670A0E6E70,
  0x27B70A8546D22FFC, 0x2E1B21385C26C926, 0x4D2C6DFC5AC42AED, 0x53380D139D95B3DF,
  0x650A73548BAF63DE, 0x766A0ABB3C77B2A8, 0x81C2C92E47EDAEE6, 0x92722C851482353B]

/-- The constants of SHA-384, part 3. -/
def sha512K2 : List Nat := [
  0xA2BFE8A14CF10364, 0xA81A664BBC423001, 0xC24B8B70D0F89791, 0xC76C51A30654BE30,
  0xD192E819D6EF5218, 0xD69906245565A910, 0xF40E35855771202A, 0x106AA07032BBD1B8,
  0x19A4C116B8D2D0C8, 0x1E376C085141AB53, 0x2748774CDF8EEB99, 0x34B0BCB5E19B48A8,
  0x391C0CB3C5C95A63, 0x4ED8AA4AE3418ACB, 0x5B9CCA4F7763E373, 0x682E6FF3D6B2B8A3,
  0x748F82EE5DEFB2FC, 0x78A5636F43172F60, 0x84C87814A1F0AB72, 0x8CC702081A6439EC]

/-- The constants of SHA-384, part 4. -/
def sha512K3 : List Nat := [
  0x90BEFFFA23631E28, 0xA4506CEBDE82BDE9, 0xBEF9A3F7B2C67915, 0xC67178F2E372532B,
  0xCA273ECEEA26619C, 0xD186B8C721C0C207, 0xEADA7DD6CDE0EB1E, 0xF57D4F7FEE6ED178,
  0x06F067AA72176FBA, 0x0A637DC5A2C898A6, 0x113F9804BEF90DAE, 0x1B710B35131C471B,
  0x28DB77F523047D84, 0x32CAAB7B40C72493, 0x3C9EBE0A15C9BEBC, 0x431D67C49C100D4C,
  0x4CC5D4BECB3E42B6, 0x597F299CFC657E2A, 0x5FCB6FAB3AD6FAEC, 0x6C44198C4A475817]

/-- The constants of SHA-384. -/
def sha512K : List Nat := sha512K0 ++ sha512K1 ++ sha512K2 ++ sha512K3

/-- The initial hash value of SHA-384. -/
def sha384H : List Nat := [
  0xCBBB9D5DC1059ED8, 0x629A292A367CD507, 0x9159015A3070DD17, 0x152FECD8F70E5939,
  0x67332667FFC00B31, 0x8EB44A8768581511, 0xDB0C2E0D64F98FA7, 0x47B5481DBEFA4FA4]

/-- The parameters in which SHA-256 and SHA-384 differ: word width, rounds, rotation counts and block bytes. -/
structure ShaParam where
  w : Nat
  k : List Nat
  h0 : List Nat
  S0 : Nat × Nat × Nat
  S1 : Nat × Nat × Nat
  s0 : Nat × Nat × Nat
  s1 : Nat × Nat × Nat
  block : Nat

/-- SHA-256. -/
def sha256P : ShaParam := ⟨32, sha256K, sha256H, (2, 13, 22), (6, 11, 25), (7, 18, 3), (17, 19, 10), 64⟩
/-- SHA-384 (SHA-512 with its own initial value, truncated). -/
def sha384P : ShaParam := ⟨64, sha512K, sha384H, (28, 34, 39), (14, 18, 41), (1, 8, 7), (19, 61, 6), 128⟩

/-- The message schedule, newest word first, extended by `n` words. -/
def shaExtend (p : ShaParam) : Nat → List Nat → List Nat
  | 0, ws => ws
  | n + 1, ws =>
    let a := ws.getD 15 0
    let b := ws.getD 14 0
    let c := ws.getD 6 0
    let d := ws.getD 1 0
    let g0 := rotr p.w b p.s0.1 ^^^ rotr p.w b p.s0.2.1 ^^^ (b >>> p.s0.2.2)
    let g1 := rotr p.w d p.s1.1 ^^^ rotr p.w d p.s1.2.1 ^^^ (d >>> p.s1.2.2)
    shaExtend p n (((a + g0 + c + g1) % 2 ^ p.w) :: ws)

/-- The eight working variables of a SHA round. -/
structure ShaVars where
  a : Nat
  b : Nat
  c : Nat
  d : Nat
  e : Nat
  f : Nat
  g : Nat
  h : Nat

/-- One round with message word `wk.1` and constant `wk.2`. -/
def shaRound (p : ShaParam) (v : ShaVars) (wk : Nat × Nat) : ShaVars :=
  let s1 := rotr p.w v.e p.S1.1 ^^^ rotr p.w v.e p.S1.2.1 ^^^ rotr p.w v.e p.S1.2.2
  let ch := (v.e &&& v.f) ^^^ ((v.e ^^^ (2 ^ p.w - 1)) &&& v.g)
  let t1 := v.h + s1 + ch + wk.2 + wk.1
  let s0 := rotr p.w v.a p.S0.1 ^^^ rotr p.w v.a p.S0.2.1 ^^^ rotr p.w v.a p.S0.2.2
  let mj := (v.a &&& v.b) ^^^ (v.a &&& v.c) ^^^ (v.b &&& v.c)
  ⟨(t1 + s0 + mj) % 2 ^ p.w, v.a, v.b, v.c, (v.d + t1) % 2 ^ p.w, v.e, v.f, v.g⟩

/-- The words of one block, big-endian, first first; `n` words. -/
def shaWords (p : ShaParam) : Nat → List Byte → List Nat
  | 0, _ => []
  | n + 1, bs => ofBe (bs.take (p.w / 8)) :: shaWords p n (bs.drop (p.w / 8))

/-- The compression of one block into the hash value. -/
def shaBlock (p : ShaParam) (h : List Nat) (blk : List Byte) : List Nat :=
  let ws := (shaExtend p (p.k.length - 16) (shaWords p 16 blk).reverse).reverse
  let g (i : Nat) : Nat := h.getD i 0
  let v := (ws.zip p.k).foldl (shaRound p) ⟨g 0, g 1, g 2, g 3, g 4, g 5, g 6, g 7⟩
  [(g 0 + v.a) % 2 ^ p.w, (g 1 + v.b) % 2 ^ p.w, (g 2 + v.c) % 2 ^ p.w, (g 3 + v.d) % 2 ^ p.w,
    (g 4 + v.e) % 2 ^ p.w, (g 5 + v.f) % 2 ^ p.w, (g 6 + v.g) % 2 ^ p.w, (g 7 + v.h) % 2 ^ p.w]

/-- The hash of `n` whole blocks. -/
def shaBlocks (p : ShaParam) : Nat → List Nat → List Byte → List Nat
  | 0, h, _ => h
  | n + 1, h, bs => shaBlocks p n (shaBlock p h (bs.take p.block)) (bs.drop p.block)

/-- The padded message. -/
def shaPad (p : ShaParam) (bs : List Byte) : List Byte :=
  let lenBytes := p.block / 8
  let zeros := (p.block - (bs.length + 1 + lenBytes) % p.block) % p.block
  bs ++ (0x80 :: List.replicate zeros 0) ++ beBytes lenBytes (8 * bs.length)

/-- The hash value of a byte string as words. -/
def shaHash (p : ShaParam) (bs : List Byte) : List Nat :=
  let m := shaPad p bs
  shaBlocks p (m.length / p.block) p.h0 m

/-- SHA-256, 32 bytes. -/
def sha256 (bs : List Byte) : List Byte := (shaHash sha256P bs).flatMap (beBytes 4)

/-- SHA-384, 48 bytes. -/
def sha384 (bs : List Byte) : List Byte := ((shaHash sha384P bs).take 6).flatMap (beBytes 8)

/-! ECDSA over P-384 (FIPS 186-5), verification only. -/

/-- The field prime of P-384. -/
def p384P : Nat := 2 ^ 384 - 2 ^ 128 - 2 ^ 96 + 2 ^ 32 - 1
/-- The order of P-384's base point. -/
def p384N : Nat := 0xFFFFFFFFFFFFFFFFFFFFFFFFFFFFFFFFFFFFFFFFFFFFFFFFC7634D81F4372DDF581A0DB248B0A77AECEC196ACCC52973
/-- The coefficient b of P-384. -/
def p384B : Nat := 0xB3312FA7E23EE7E4988E056BE3F82D19181D9C6EFE8141120314088F5013875AC656398D8A2ED19D2A85C8EDD3EC2AEF
/-- The base point of P-384. -/
def p384Gx : Nat := 0xAA87CA22BE8B05378EB1C71EF320AD746E1D3B628BA79B9859F741E082542A385502F25DBF55296C3A545E3872760AB7
/-- The base point of P-384. -/
def p384Gy : Nat := 0x3617DE4A96262C6F5D9E98BF9292DC29F8F41DBD289A147CE9DA3113B5F0B8C00A60B1CE1D7E819D7A431D7C90EA0E5F

/-- b^e mod n by squaring, over the low `k` bits of e. -/
def powMod (n : Nat) : Nat → Nat → Nat → Nat
  | 0, _, _ => 1 % n
  | k + 1, b, e =>
    let h := powMod n k b (e / 2)
    let q := (h * h) % n
    if e % 2 = 1 then (q * b) % n else q

/-- The inverse modulo a prime of 384 bits. -/
def invMod (n a : Nat) : Nat := powMod n 384 (a % n) (n - 2)

/-- A point of the curve in affine coordinates; none is the point at infinity. -/
def ecAdd (a b : Option (Nat × Nat)) : Option (Nat × Nat) :=
  match a, b with
  | none, q => q
  | p, none => p
  | some (x1, y1), some (x2, y2) =>
    let p := p384P
    if x1 = x2 && (y1 + y2) % p = 0 then none
    else
      let l := if x1 = x2 then ((3 * x1 * x1 + (p - 3)) * invMod p (2 * y1)) % p
        else ((y2 + (p - y1)) * invMod p (x2 + (p - x1))) % p
      let x3 := (l * l + (p - x1) + (p - x2)) % p
      some (x3, (l * (x1 + (p - x3)) + (p - y1)) % p)

/-- k · P over the low `n` bits of k. -/
def ecMul : Nat → Nat → Option (Nat × Nat) → Option (Nat × Nat)
  | 0, _, _ => none
  | n + 1, k, p =>
    let r := ecMul n (k / 2) (ecAdd p p)
    if k % 2 = 1 then ecAdd r p else r

/-- Does the signature (r, s) of the message verify under the public key (x, y)? (FIPS 186-5, SHA-384.) -/
def ecdsaP384 (msg : List Byte) (x y r s : Nat) : Bool :=
  let p := p384P
  let n := p384N
  let onCurve := decide (x < p) && decide (y < p) && decide ((y * y) % p = (x * x * x + (p - 3) * x + p384B) % p)
  if r = 0 || s = 0 || n ≤ r || n ≤ s || !onCurve then false
  else
    let z := ofBe (sha384 msg)
    let w := invMod n s
    match ecAdd (ecMul 384 ((z * w) % n) (some (p384Gx, p384Gy))) (ecMul 384 ((r * w) % n) (some (x, y))) with
    | none => false
    | some (x1, _) => decide (x1 % n = r)

end Sys2Proof.Machine
end

