-- ==== Sys2Proof/Machine/Numerics.lean ====
section
/-!
DEFINITION. The numbers of the compute path: the element formats of R123, exact values, rounding to nearest even
(R129, R252), stochastic rounding (R154), the random word of R155, and correctly rounded special functions (R260).
A finite value is held exactly as ±m · 2^e; every rounding is one narrowing of an exact value.
-/

namespace Sys2Proof.Machine

/-- A floating-point value: NaN, an infinity, or ±m · 2^e. The sign of a zero is kept. -/
inductive Fp where
  | nan
  | inf (neg : Bool)
  | fin (neg : Bool) (m : Nat) (e : Int)
  deriving DecidableEq, Repr

/-- A binary format: precision with the hidden bit, the exponent of the smallest subnormal, the largest finite
magnitude as m · 2^e, and the width of its code. -/
structure Format where
  prec : Nat
  qmin : Int
  maxM : Nat
  maxE : Int
  width : Nat
  /-- emax of R123: the exponent of the largest normal value. -/
  emax : Int
  deriving DecidableEq, Repr

/-- Binary32 (code 0 of R123). -/
def fmtFp32 : Format := ⟨24, -149, 2 ^ 24 - 1, 104, 32, 127⟩
/-- BF16 (code 1). -/
def fmtBf16 : Format := ⟨8, -133, 2 ^ 8 - 1, 120, 16, 127⟩
/-- E4M3 (code 2), and the Relay wire element (code 7). -/
def fmtE4m3 : Format := ⟨4, -9, 14, 5, 8, 8⟩
/-- E5M2 (code 3). -/
def fmtE5m2 : Format := ⟨3, -16, 7, 13, 8, 15⟩
/-- E2M3 (code 4). -/
def fmtE2m3 : Format := ⟨4, -3, 15, -1, 6, 2⟩
/-- E3M2 (code 5). -/
def fmtE3m2 : Format := ⟨3, -4, 7, 2, 6, 4⟩
/-- E2M1 (code 6). -/
def fmtE2m1 : Format := ⟨2, -1, 3, 1, 4, 2⟩

/-- The format of a format code of R123; codes 8 to 15 are not used. -/
def formatOf (code : Nat) : Format :=
  match code with
  | 0 => fmtFp32 | 1 => fmtBf16 | 2 => fmtE4m3 | 3 => fmtE5m2
  | 4 => fmtE2m3 | 5 => fmtE3m2 | 6 => fmtE2m1 | _ => fmtE4m3

/-- The chunk accumulator's float (R98): 41 significant bits; R99 shows that its exponent range is never left. -/
def chunkPrec : Nat := 41

/-- floor(log2 m) for m > 0. -/
def flog2 (m : Nat) : Int := (Nat.log2 m : Int)

/-- m · 2^e at the quantum 2^q, rounded to nearest with ties to even. -/
def rneQuantum (m : Nat) (e q : Int) : Nat :=
  if q ≤ e then m <<< (e - q).toNat
  else
    let sh := (q - e).toNat
    let n := m >>> sh
    let r := m % 2 ^ sh
    let half := 2 ^ (sh - 1)
    if half < r || (r == half && n % 2 == 1) then n + 1 else n

/-- The quantum of m · 2^e at `prec` significant bits, not below 2^qmin. -/
def quantum (prec : Nat) (qmin : Int) (m : Nat) (e : Int) : Int :=
  max qmin (flog2 m + e - ((prec : Int) - 1))

/-- Bring a rounded magnitude n · 2^q with n = 2^prec back below 2^prec. -/
def renorm (prec : Nat) (n : Nat) (q : Int) : Nat × Int :=
  if n = 2 ^ prec then (2 ^ (prec - 1), q + 1) else (n, q)

/-- Round ±m · 2^e to `f`, to nearest even, as IEEE 754 does: beyond the largest finite value lies infinity. -/
def rneIeee (f : Format) (neg : Bool) (m : Nat) (e : Int) : Fp :=
  if m = 0 then .fin neg 0 f.qmin
  else
    let q := quantum f.prec f.qmin m e
    let r := renorm f.prec (rneQuantum m e q) q
    if f.maxE < r.2 then .inf neg else .fin neg r.1 r.2

/-- Does n · 2^q exceed the largest finite magnitude of `f`? -/
def aboveMax (f : Format) (n : Nat) (q : Int) : Bool :=
  let lo := min q f.maxE
  decide (f.maxM <<< (f.maxE - lo).toNat < n <<< (q - lo).toNat)

/-- Round ±m · 2^e to `f`, to nearest even sats the finite values; a magnitude above the largest finite value becomes
that value (R129). The Bool says that the magnitude exceeded the largest finite value before rounding (R133). -/
def rneSat (f : Format) (neg : Bool) (m : Nat) (e : Int) : Fp × Bool :=
  if m = 0 then (.fin neg 0 f.qmin, false)
  else
    let q := quantum f.prec f.qmin m e
    let r := renorm f.prec (rneQuantum m e q) q
    if aboveMax f r.1 r.2 then (.fin neg f.maxM f.maxE, aboveMax f m e) else (.fin neg r.1 r.2, aboveMax f m e)

/-- Round to the chunk accumulator's 41 bits (R98). -/
def rne52 (neg : Bool) (m : Nat) (e : Int) : Fp :=
  if m = 0 then .fin false 0 0
  else
    let q := flog2 m + e - ((chunkPrec : Int) - 1)
    let r := renorm chunkPrec (rneQuantum m e q) q
    .fin neg r.1 r.2

/-- Stochastic rounding of ±m · 2^e to `f` with the random word `r` (R154): the neighbour beyond the largest finite
binary32 is infinity (R102). An exact value is returned unchanged.
[DEDUCED, notes/assumptions/16.md] -/
def srIeee (f : Format) (r : Nat) (neg : Bool) (m : Nat) (e : Int) : Fp :=
  if m = 0 then .fin false 0 f.qmin
  else
    let q := quantum f.prec f.qmin m e
    let n :=
      if q ≤ e then m <<< (e - q).toNat
      else
        let sh := (q - e).toNat
        let a := m >>> sh
        let frac := m % 2 ^ sh
        if frac = 0 then a else if r < (frac <<< 32) >>> sh then a + 1 else a
    let z := renorm f.prec n q
    if f.maxE < z.2 then .inf neg else .fin neg z.1 z.2

/-- Stochastic rounding to the Relay wire element (R154): a magnitude above 448 returns 448 and is a clip.
[DEDUCED, notes/assumptions/16.md] -/
def srWire (r : Nat) (neg : Bool) (m : Nat) (e : Int) : Fp × Bool :=
  let f := fmtE4m3
  if m = 0 then (.fin false 0 f.qmin, false)
  else if aboveMax f m e then (.fin neg f.maxM f.maxE, true)
  else
    match srIeee f r neg m e with
    | .fin g n q => (.fin g n q, false)
    | v => (v, false)

/-- The value of a signed integer times 2^e. -/
def fpOfInt (v : Int) (e : Int) : Fp := .fin (decide (v < 0)) v.natAbs e

/-- ±m as an integer. -/
def signedMag (neg : Bool) (m : Nat) : Int := if neg then -(m : Int) else (m : Int)

/-- The exact sum of two finite values; an exact zero sum is +0 unless both are −0 (IEEE 754 nearest). -/
def finAdd (n1 : Bool) (m1 : Nat) (e1 : Int) (n2 : Bool) (m2 : Nat) (e2 : Int) : Fp :=
  let lo := min e1 e2
  let v := signedMag n1 (m1 <<< (e1 - lo).toNat) + signedMag n2 (m2 <<< (e2 - lo).toNat)
  if v = 0 then .fin (n1 && n2 && m1 == 0 && m2 == 0) 0 lo else fpOfInt v lo

/-- The exact sum (R253, R103): opposite infinities give NaN. -/
def fpAdd : Fp → Fp → Fp
  | .nan, _ => .nan
  | _, .nan => .nan
  | .inf a, .inf b => if a = b then .inf a else .nan
  | .inf a, .fin _ _ _ => .inf a
  | .fin _ _ _, .inf b => .inf b
  | .fin a m e, .fin b n f => finAdd a m e b n f

/-- The value with its sign inverted. -/
def fpNeg : Fp → Fp
  | .nan => .nan
  | .inf a => .inf (!a)
  | .fin a m e => .fin (!a) m e

/-- The value with its sign cleared. -/
def fpAbs : Fp → Fp
  | .nan => .nan
  | .inf _ => .inf false
  | .fin _ m e => .fin false m e

/-- The exact product; Inf × 0 gives NaN. -/
def fpMul : Fp → Fp → Fp
  | .nan, _ => .nan
  | _, .nan => .nan
  | .inf a, .inf b => .inf (a != b)
  | .inf a, .fin b m _ => if m = 0 then .nan else .inf (a != b)
  | .fin a m _, .inf b => if m = 0 then .nan else .inf (a != b)
  | .fin a m e, .fin b n f => .fin (a != b) (m * n) (e + f)

/-- Is the value zero? -/
def fpZero : Fp → Bool
  | .fin _ m _ => m == 0
  | _ => false

/-- Is the value an infinity or a NaN? -/
def fpNonfinite : Fp → Bool
  | .fin _ _ _ => false
  | _ => true

/-- Is the value a NaN? -/
def fpNan : Fp → Bool
  | .nan => true
  | _ => false

/-- The order of two values that are not NaN, as −1, 0 or 1; zeros of both signs are equal. -/
def fpCmp : Fp → Fp → Int
  | .inf a, .inf b => if a = b then 0 else if a then -1 else 1
  | .inf a, _ => if a then -1 else 1
  | _, .inf b => if b then 1 else -1
  | .fin a m e, .fin b n f =>
    let lo := min e f
    let v := signedMag a (m <<< (e - lo).toNat) - signedMag b (n <<< (f - lo).toNat)
    if v < 0 then -1 else if v = 0 then 0 else 1
  | _, _ => 0

/-- Round an exact value once to `f` (R252). -/
def fpRound (f : Format) : Fp → Fp
  | .nan => .nan
  | .inf a => .inf a
  | .fin a m e => rneIeee f a m e

/-- The code of a value that `f` represents, IEEE style: for FP32, BF16 and E5M2. NaN has its canonical code (R253). A
significand below the hidden bit is first shifted up to it, as far as the exponent allows. -/
def encodeIeee (f : Format) (v : Fp) : Nat :=
  let fb := f.prec - 1
  let eb := f.width - 1 - fb
  let top := (2 ^ eb - 1) <<< fb
  match v with
  | .nan => top + 2 ^ (fb - 1)
  | .inf neg => (if neg then 2 ^ (f.width - 1) else 0) + top
  | .fin neg m0 e0 =>
    let k := if m0 = 0 then 0 else min (fb - Nat.log2 m0) (e0 - f.qmin).toNat
    let m := m0 <<< k
    let e := e0 - (k : Int)
    let mag := if m < 2 ^ fb then m else (((e - f.qmin + 1).toNat) <<< fb) + (m - 2 ^ fb)
    (if neg then 2 ^ (f.width - 1) else 0) + mag

/-- The code of an element of the cast unit: finite, and every zero the all-zero pattern (R131). -/
def encodeElem (f : Format) (v : Fp) : Nat :=
  match v with
  | .fin _ 0 _ => 0
  | v => encodeIeee f v

/-- The finite value of the code `c` (R124). -/
def decodeFin (f : Format) (c : Nat) : Fp :=
  let fb := f.prec - 1
  let neg := c.testBit (f.width - 1)
  let ef := bits c (f.width - 2) fb
  let m := c % 2 ^ fb
  if ef = 0 then .fin neg m f.qmin else .fin neg (2 ^ fb + m) (f.qmin + ef - 1)

/-- The value of the code `c` in format code `code` (R123, R124), its infinities and NaNs included. -/
def decodeElem (code c : Nat) : Fp :=
  let f := formatOf code
  let fb := f.prec - 1
  let neg := c.testBit (f.width - 1)
  let ef := bits c (f.width - 2) fb
  let m := c % 2 ^ fb
  let top := ef == 2 ^ (f.width - 1 - fb) - 1
  match code with
  | 0 | 1 | 3 => if top then (if m = 0 then .inf neg else .nan) else decodeFin f c
  | 2 | 7 => if top && m == 7 then .nan else decodeFin f c
  | _ => decodeFin f c

/-- The binary32 value of a 32-bit code. -/
def fp32 (b : BitVec 32) : Fp := decodeElem 0 b.toNat
/-- The binary32 code of a value that binary32 represents; NaN is 0x7FC0_0000. -/
def toFp32 (v : Fp) : BitVec 32 := BitVec.ofNat 32 (encodeIeee fmtFp32 v)

/-- 2^k as binary32, for k in the normal range (UNSCALE_F32 of R174). -/
def pow2Fp32 (k : Int) : Nat := ((127 + k).toNat % 256) <<< 23

/-! The cast (R128 to R133). -/

/-- What a cast of one block reports: its saturations (SAT and RANGE of R133), its nonzero elements (R161), and whether
it wrote a non-finite value (R134). -/
structure CastStat where
  sat : Nat
  range : Nat
  nz : Nat
  total : Nat
  nonfinite : Bool
  /-- The non-finite value was a scale byte 0xFF. -/
  scaleNan : Bool
  deriving DecidableEq, Repr

/-- Counts of several casts. -/
def CastStat.add (a b : CastStat) : CastStat :=
  ⟨a.sat + b.sat, a.range + b.range, a.nz + b.nz, a.total + b.total, a.nonfinite || b.nonfinite,
    if a.nonfinite then a.scaleNan else b.scaleNan⟩

/-- No cast yet. -/
def CastStat.none : CastStat := ⟨0, 0, 0, 0, false, false⟩

/-- v · 2^g. -/
def fpScale (v : Fp) (g : Int) : Fp :=
  match v with
  | .fin a m e => .fin a m (e + g)
  | v => v

/-- floor(log2 |v|) of a finite nonzero value, as an option. -/
def fpExp : Fp → Option Int
  | .fin _ m e => if m = 0 then none else some (flog2 m + e)
  | _ => none

/-- The largest exponent of a block; none where every value is zero. Only the exponent of amax enters R128. -/
def blockExp (vs : List Fp) : Option Int :=
  vs.foldl (fun a v => match a, fpExp v with
    | none, x => x
    | some y, none => some y
    | some y, some x => some (max y x)) none

/-- Cast one block of values to the MX format code `code` with multiplier 2^g (R128 to R131, R133): the scale byte and
the element codes. -/
def castBlock (code : Nat) (g : Int) (vs : List Fp) : Nat × List Nat × CastStat :=
  let f := formatOf code
  let n := vs.length
  if vs.any fpNonfinite then (255, List.replicate n 0, ⟨0, 0, 0, n, true, true⟩)
  else
    match blockExp vs with
    | none => (0, List.replicate n 0, ⟨0, 0, 0, n, false, false⟩)
    | some ex =>
      let raw := ex + g - f.emax
      let x := max (-127) (min 127 raw)
      let qs := vs.map (fun v => match fpScale v (g - x) with
        | .fin a m e => rneSat f a m e
        | w => (w, false))
      let codes := qs.map (fun q => encodeElem f q.1)
      let sats := (qs.filter (·.2)).length
      let nz := (codes.filter (· ≠ 0)).length
      let st : CastStat :=
        if raw = x then ⟨sats, 0, nz, n, false, false⟩
        else if x = 127 then ⟨0, sats, nz, n, false, false⟩ else ⟨0, 0, nz, n, false, false⟩
      ((x + 127).toNat, codes, st)

/-- Cast one value to BF16 with multiplier 2^g (R132): the code, and what it reports. -/
def castBf16 (g : Int) (v : Fp) : Nat × CastStat :=
  match fpScale v g with
  | .nan => (0x7FC0, ⟨0, 0, 1, 1, true, false⟩)
  | .inf a => (encodeIeee fmtBf16 (.inf a), ⟨0, 0, 1, 1, true, false⟩)
  | .fin a m e =>
    let r := rneIeee fmtBf16 a m e
    let c := match r with
      | .inf b => encodeIeee fmtBf16 (.fin b fmtBf16.maxM fmtBf16.maxE)
      | w => encodeElem fmtBf16 w
    (c, ⟨0, b2n (fpNonfinite r), b2n (decide (c ≠ 0)), 1, false, false⟩)

/-- Cast one value to FP32 (R132): nothing but NaN and the sign of zero changes. -/
def castFp32 (v : Fp) : Nat × CastStat :=
  match v with
  | .nan => (0x7FC00000, ⟨0, 0, 1, 1, true, false⟩)
  | .inf a => (encodeIeee fmtFp32 (.inf a), ⟨0, 0, 1, 1, true, false⟩)
  | .fin a m e =>
    let c := encodeElem fmtFp32 (.fin a m e)
    (c, ⟨0, 0, b2n (decide (c ≠ 0)), 1, false, false⟩)

/-! The random word (R155). -/

/-- One round of Philox4x32 on (c0, c1, c2, c3) with key (k0, k1). -/
def philoxRound (c : Nat × Nat × Nat × Nat) (k0 k1 : Nat) : Nat × Nat × Nat × Nat :=
  let p0 := 0xD2511F53 * c.1
  let p1 := 0xCD9E8D57 * c.2.2.1
  ((p1 >>> 32) ^^^ c.2.1 ^^^ k0, p1 % 2 ^ 32, (p0 >>> 32) ^^^ c.2.2.2 ^^^ k1, p0 % 2 ^ 32)

/-- `n` rounds, with the key schedule of R155. -/
def philoxRounds : Nat → (Nat × Nat × Nat × Nat) → Nat → Nat → (Nat × Nat × Nat × Nat)
  | 0, c, _, _ => c
  | n + 1, c, k0, k1 =>
    philoxRounds n (philoxRound c k0 k1) ((k0 + 0x9E3779B9) % 2 ^ 32) ((k1 + 0xBB67AE85) % 2 ^ 32)

/-- random_word(seed, site, step, tensor, tile, ordinal, e) of R155. -/
def randomWord (seed site step tensor tile ordinal e : Nat) : Nat :=
  let c0 := ((ordinal <<< 19) ||| (site <<< 11) ||| (e / 4)) % 2 ^ 32
  let c1 := ((tensor <<< 12) ||| bits step 43 32) % 2 ^ 32
  let r := philoxRounds 10 (c0, c1, tile % 2 ^ 32, step % 2 ^ 32) (seed % 2 ^ 32) (bits seed 63 32)
  match e % 4 with
  | 0 => r.1
  | 1 => r.2.1
  | 2 => r.2.2.1
  | _ => r.2.2.2

/-! Division, square root and the special functions, correctly rounded (R253, R260). An inexact quotient or root is
carried with a last bit that is 1, below every rounding point. -/

/-- |a| / |b| to `k` bits below the quotient's unit, with a sticky last bit. -/
def divExact (m1 : Nat) (e1 : Int) (m2 : Nat) (e2 : Int) : Nat × Int :=
  let k := 80 + Nat.log2 m2 + 1
  let q := (m1 <<< k) / m2
  let r := (m1 <<< k) % m2
  (2 * q + (if r = 0 then 0 else 1), e1 - e2 - k - 1)

/-- The integer square root, bit by bit from bit `n`. -/
def isqrtBits : Nat → Nat → Nat → Nat
  | 0, _, r => r
  | n + 1, v, r =>
    let t := r + 2 ^ n
    isqrtBits n v (if t * t ≤ v then t else r)

/-- floor(√v). -/
def isqrt (v : Nat) : Nat := isqrtBits (Nat.log2 v / 2 + 1) v 0

/-- √(m · 2^e) with a sticky last bit. -/
def sqrtExact (m : Nat) (e : Int) : Nat × Int :=
  let k : Nat := 320 + (if (e % 2) = 0 then 0 else 1)
  let v := m <<< k
  let r := isqrt v
  (2 * r + (if r * r = v then 0 else 1), (e - k) / 2 - 1)

/-- Fixed-point fraction bits of the special functions. -/
def sfuBits : Nat := 320
/-- ln 2 at 320 fraction bits. -/
def ln2Fix : Nat := 0xb17217f7d1cf79abc9e3b39803f2f6af40f343267298b62d8a0d175b8baafa2be7b876206debac98

/-- Terms of the series of e^r: `t` is the term of index i − 1. -/
def expTerms : Nat → Nat → Int → Int → Int → Int
  | 0, _, _, _, acc => acc
  | n + 1, i, r, t, acc =>
    let t' := (t * r) / (2 ^ sfuBits * i)
    expTerms n (i + 1) r t' (acc + t')

/-- e^(x / 2^320) as (m, e) with about 300 good bits, for |x / 2^320| below 2^10.
[DEDUCED, notes/assumptions/79.md] -/
def expFix (x : Int) : Nat × Int :=
  let n := x / (ln2Fix : Int)
  let r := x - n * (ln2Fix : Int)
  let v := expTerms 90 1 r (2 ^ sfuBits) (2 ^ sfuBits)
  (v.toNat, n - sfuBits)

/-- A finite value in fixed point with 320 fraction bits; exact for exponents from −320. -/
def toFix (neg : Bool) (m : Nat) (e : Int) : Int :=
  let v : Nat := if 0 ≤ e + sfuBits then m <<< (e + sfuBits).toNat else m >>> (-(e + sfuBits)).toNat
  signedMag neg v

/-- Odd powers of z: Σ z^(2i+1) / (2i+1). -/
def atanhTerms : Nat → Nat → Int → Int → Int → Int
  | 0, _, _, _, acc => acc
  | n + 1, i, z2, p, acc =>
    let p' := (p * z2) / 2 ^ sfuBits
    atanhTerms n (i + 2) z2 p' (acc + p' / i)

/-- ln(m · 2^e) for m > 0 at 320 fraction bits: the mantissa is brought to [1, 2) and ln is 2·atanh((f−1)/(f+1)).
[DEDUCED, notes/assumptions/79.md] -/
def lnFix (m : Nat) (e : Int) : Int :=
  let l := Nat.log2 m
  let f : Int := ((m <<< sfuBits) >>> l : Nat)
  let one : Int := 2 ^ sfuBits
  let z := ((f - one) * one) / (f + one)
  let s := atanhTerms 120 3 ((z * z) / one) z z
  2 * s + ((l : Int) + e) * (ln2Fix : Int)

/-- Round a fixed-point number with 320 fraction bits, known to be inexact: its last bit is made 1.
[DEDUCED, notes/assumptions/79.md] -/
def roundFix (f : Format) (v : Int) : Fp := rneIeee f (decide (v < 0)) (2 * v.natAbs + 1) (-(sfuBits : Int) - 1)

/-- The exponent beyond which a special function has reached its limit at every format: |x| at least 2^k. -/
def fpAtLeast (m : Nat) (e : Int) (k : Int) : Bool := decide (m ≠ 0) && decide (k ≤ flog2 m + e)

/-- e^x of a finite x (R260). -/
def expFin (f : Format) (neg : Bool) (m : Nat) (e : Int) : Fp :=
  if m = 0 then rneIeee f false 1 0
  else if fpAtLeast m e 8 then (if neg then .fin false 0 f.qmin else .inf false)
  else
    let r := expFix (toFix neg m e)
    rneIeee f false (2 * r.1 + 1) (r.2 - 1)

/-- 1 / (1 + e^−x) of a finite x.
[DEDUCED, notes/assumptions/79.md] -/
def sigmoidFin (f : Format) (neg : Bool) (m : Nat) (e : Int) : Fp :=
  if m = 0 then rneIeee f false 1 (-1)
  else if fpAtLeast m e 8 then (if neg then .fin false 0 f.qmin else rneIeee f false 1 0)
  else
    let r := expFix (toFix (!neg) m e)
    -- 1 + e^−x at the exponent of r
    let lo := min r.2 0
    let d := (r.1 <<< (r.2 - lo).toNat) + (1 <<< (-lo).toNat)
    let q := divExact 1 0 d lo
    rneIeee f false (2 * q.1 + 1) (q.2 - 1)

/-- tanh x of a finite x: below 2^−60 in magnitude it is x less a value below every rounding point.
[DEDUCED, notes/assumptions/79.md] -/
def tanhFin (f : Format) (neg : Bool) (m : Nat) (e : Int) : Fp :=
  if m = 0 then .fin neg 0 f.qmin
  else if fpAtLeast m e 6 then rneIeee f neg (2 ^ 100 - 1) (-100)
  else if !fpAtLeast m e (-60) then rneIeee f neg (2 ^ 100 * m - 1) (e - 100)
  else
    let r := expFix (toFix false m (e + 1))
    let lo := min r.2 0
    let a := r.1 <<< (r.2 - lo).toNat
    let b := 1 <<< (-lo).toNat
    let q := divExact (a - b) 0 (a + b) 0
    rneIeee f neg q.1 q.2

/-- The special function FN of R260 at x, rounded once to `f`.
[DEDUCED, notes/assumptions/79.md] -/
def sfu (f : Format) (fn : Nat) (x : Fp) : Fp :=
  match fn, x with
  | _, .nan => .nan
  | 0, .inf neg => if neg then .fin false 0 f.qmin else .inf false
  | 0, .fin neg m e => expFin f neg m e
  | 1, .inf neg => if neg then .nan else .inf false
  | 1, .fin neg m e =>
    if m = 0 then .inf true
    else if neg then .nan
    else if lnFix m e = 0 then .fin false 0 f.qmin else roundFix f (lnFix m e)
  | 2, .inf neg => if neg then .nan else .fin false 0 f.qmin
  | 2, .fin neg m e =>
    if m = 0 then .inf neg
    else if neg then .nan
    else
      let r := sqrtExact m e
      let q := divExact 1 0 r.1 r.2
      -- 1/√x of an exact root keeps an exact quotient; an inexact root keeps its sticky bit below every rounding point
      rneIeee f false q.1 q.2
  | 3, .inf neg => .fin neg 0 f.qmin
  | 3, .fin neg m e =>
    if m = 0 then .inf neg
    else
      let q := divExact 1 0 m e
      rneIeee f neg q.1 q.2
  | 4, .inf neg => rneIeee f neg 1 0
  | 4, .fin neg m e => tanhFin f neg m e
  | 5, .inf neg => if neg then .fin false 0 f.qmin else rneIeee f false 1 0
  | 5, .fin neg m e => sigmoidFin f neg m e
  | _, v => v

/-- a / b, rounded once to `f` (R253). -/
def fpDiv (f : Format) : Fp → Fp → Fp
  | .nan, _ => .nan
  | _, .nan => .nan
  | .inf _, .inf _ => .nan
  | .inf a, .fin b _ _ => .inf (a != b)
  | .fin a _ _, .inf b => .fin (a != b) 0 f.qmin
  | .fin a m e, .fin b n g =>
    if n = 0 then (if m = 0 then .nan else .inf (a != b))
    else if m = 0 then .fin (a != b) 0 f.qmin
    else
      let q := divExact m e n g
      rneIeee f (a != b) q.1 q.2

/-- √a, rounded once to `f` (R253). -/
def fpSqrt (f : Format) : Fp → Fp
  | .nan => .nan
  | .inf neg => if neg then .nan else .inf false
  | .fin neg m e =>
    if m = 0 then .fin neg 0 f.qmin
    else if neg then .nan
    else
      let r := sqrtExact m e
      rneIeee f false r.1 r.2

/-- The largest integral value not above x. -/
def fpFloor : Fp → Fp
  | .fin neg m e =>
    if m = 0 then .fin neg 0 e
    else if 0 ≤ e then .fin neg m e
    else
      let sh := (-e).toNat
      let t := m >>> sh
      let up := neg && decide (m % 2 ^ sh ≠ 0)
      let n := if up then t + 1 else t
      .fin neg n 0
  | v => v

/-- x rounded to the nearest integer, ties to even; none for NaN and infinities. -/
def fpToInt : Fp → Option Int
  | .fin neg m e => some (signedMag neg (rneQuantum m e 0))
  | _ => none

end Sys2Proof.Machine
end

