-- ==== Sys2Proof/Config.lean ====
section
/-!
DEFINITION. What one HZT-808 fixes in manufacture, and the free values: the values that the manual leaves open while the
module goes on. Each is a constant without a body, so nothing can be proved of its value (DESIGN CHOICE, notes/assumptions/1.md,
2.md). A free value that may differ at each use takes the step counter `State.free` as its first argument.
-/

namespace Sys2Proof.Config

/-- Part OV-HZT808-1T (true) or OV-HZT808-2T (false): STR_ID.CAP_GIB is "Fixed" (R2, R3). -/
opaque is1T : Bool

/-- STR_ID.STEPPING, "Fixed". -/
opaque stepping : Nat

/-- STR_ID.SERIAL, "Fixed". -/
opaque serial : Nat

/-- STR_FUSE.ROLLBACK_MIN as fused when the module left manufacture; R661 may raise it later. -/
opaque fusedRollback : Nat

/-- STR_FUSE.KEYS, "Fused". -/
opaque fusedKeys : Nat

/-- The SHA-384 key hashes that STR_FUSE.KEYS marks valid (R660 reason 4). -/
opaque fusedKeyHash : Nat → Nat

/-- The clusters marked FAILED by manufacturing test (R665), by die and physical index. -/
opaque factoryFailed : Nat → Nat → Bool

/-- MGMT_ADDR as strapped by the board (R754, STR_PINS). -/
opaque mgmtAddrStrap : Nat

/-- A byte of HBM or of the capacity tier that nothing has written since power-on or module reset (R776). -/
opaque freeByte : Nat → Nat → BitVec 8

/-- A value that the manual leaves undefined after a command that runs: step counter, then which value of the step. -/
opaque freeNat : Nat → Nat → Nat

/-- The hash by which a message chooses its gateway slot (R397): source FI, destination FI, virtual channel, message number. -/
opaque routeHash : Nat → Nat → Nat → Nat → Nat

/-- The bytes of a peer acknowledgement, whose layout the manual does not give (R418 to R420): TAG, accepted. -/
opaque peerAckWord : Nat → Bool → BitVec 128

/-- The bytes of the acknowledgement of a Relay block, whose layout the manual does not give (R353): its tile, accepted. -/
opaque relayAckWord : Nat → Bool → BitVec 128

/-- A byte whose value the manual does not give: of a flit's payload beyond the valid ones (R400), or of the header of a surface (R587):
counter, place. -/
opaque padByte : Nat → Nat → BitVec 8

/-- Is the module of a fabric index a 1T part (R4, R696)? This module's own part is `is1T`. -/
opaque fiIs1T : Nat → Bool

/-- The provisioned identity of the module's SPDM responder (R755, R756): certificate chain bytes by offset. -/
opaque certByte : Nat → BitVec 8

/-- The length in bytes of the certificate chain of slot 0. -/
opaque certLength : Nat

/-- A SPDM signature over a transcript (R755): the signing key never leaves the module. -/
opaque spdmSignature : Nat → Nat → Nat

/-- A measured value that the manual names but gives no number for (R756). -/
opaque measurement : Nat → Nat → Nat

/-- A byte that a Prism engine writes, which the external codec standards decide (R599, R601, R604): the context's parameter block, the
history of the context, the kind and format of the output, and the byte's place in it. -/
opaque codecByte : Nat → Nat → Nat → Nat → BitVec 8

/-- The history of a context after one more command (R601): the parameter block, the history before, the command's own parameters, and the
input bytes; none stands for a byte of a picture that no bound slice holds. -/
opaque codecNext : Nat → Nat → List Nat → List (Option (BitVec 8)) → Nat

/-- What the motion search of an encoder finds before the window bounds it (R597, R598): the parameter block, the history, the block, the
reference; a predictor candidate and a vector, each (x, y) in luma samples. -/
opaque codecMotion : Nat → Nat → Nat → Nat → (Int × Int) × (Int × Int)

end Sys2Proof.Config
end

