-- ==== Sys2Proof/Machine/RegMap.lean ====
section
/-!
DEFINITION. The register maps of the control window: the offset of every register of the manual (namespace Reg), every
field of every register (namespace F), and the table of access codes and reset values that R6, R7 and R9 read.
The chapters' register maps name each register, its offset, its scope, and each field's bits, access and reset.
-/

namespace Sys2Proof.Machine

/-- The access codes of R6. -/
inductive Access where
  | ro | rw | w1c | w1s | wo | rs | rl
  deriving DecidableEq, Repr

/-- Bits [hi:lo] of the register at control-window offset `off`. -/
structure Fld where
  off : Nat
  hi : Nat
  lo : Nat
  deriving DecidableEq, Repr

/-- One row of a register map: its bits, its access code, its reset value, and whether that reset is Image (R662). -/
structure FieldDef where
  hi : Nat
  lo : Nat
  acc : Access
  reset : Nat
  image : Bool
  deriving DecidableEq, Repr

/-- A register map: the registers base + i·stride over up to three indices (count, stride), which index is the job slot
(0 first, 1 second; 9 none: module or die scope), and the rows. -/
structure RegGroup where
  base : Nat
  dims : List (Nat × Nat)
  slotDim : Nat
  fields : List FieldDef
  deriving DecidableEq, Repr

namespace Reg

/-- Offset of STR_SLOT_n. -/
def STR_SLOT (n : Nat) : Nat := 0x400 + n * 0x8
/-- Offset of LAP_COUNT. -/
def LAP_COUNT : Nat := 0x200000
/-- Offset of LAP_PHASE. -/
def LAP_PHASE : Nat := 0x200008
/-- Offset of LAP_STATUS. -/
def LAP_STATUS : Nat := 0x200010
/-- Offset of LAP_CFG. -/
def LAP_CFG : Nat := 0x200018
/-- Offset of LAP_HOLD. -/
def LAP_HOLD : Nat := 0x200020
/-- Offset of LAP_REJECT. -/
def LAP_REJECT : Nat := 0x200028
/-- Offset of LAP_CNT. -/
def LAP_CNT : Nat := 0x200030
/-- Offset of LAP_START. -/
def LAP_START : Nat := 0x200038
/-- Offset of LAP_PPS_CAPTURE. -/
def LAP_PPS_CAPTURE : Nat := 0x200040
/-- Offset of LAP_PORT_DELAY_p. -/
def LAP_PORT_DELAY (p : Nat) : Nat := 0x200100 + p * 0x8
/-- Offset of CDn_ID. -/
def CD_ID (n : Nat) : Nat := 0x1000000 + 0x100000 * n
/-- Offset of CDn_PART_q. -/
def CD_PART (n : Nat) (q : Nat) : Nat := 0x1000100 + 0x100000 * n + q * 0x8
/-- Offset of CDn_ENABLE_w. -/
def CD_ENABLE (n : Nat) (w : Nat) : Nat := 0x1000200 + 0x100000 * n + w * 0x8
/-- Offset of CDn_ECC. -/
def CD_ECC (n : Nat) : Nat := 0x1000300 + 0x100000 * n
/-- Offset of CDn_CL_STATUS. -/
def CL_STATUS (n : Nat) (k : Nat) : Nat := 0x1010000 + 0x100000 * n + 0x800 * k
/-- Offset of CDn_CL_SLOTS. -/
def CL_SLOTS (n : Nat) (k : Nat) : Nat := 0x1010008 + 0x100000 * n + 0x800 * k
/-- Offset of CDn_CL_FAULT. -/
def CL_FAULT (n : Nat) (k : Nat) : Nat := 0x1010010 + 0x100000 * n + 0x800 * k
/-- Offset of CDn_CL_BUSY. -/
def CL_BUSY (n : Nat) (k : Nat) : Nat := 0x1010018 + 0x100000 * n + 0x800 * k
/-- Offset of CDn_CL_STALL. -/
def CL_STALL (n : Nat) (k : Nat) : Nat := 0x1010020 + 0x100000 * n + 0x800 * k
/-- Offset of CDn_CL_ECC. -/
def CL_ECC (n : Nat) (k : Nat) : Nat := 0x1010028 + 0x100000 * n + 0x800 * k
/-- Offset of NUM_RECIPE_s_k. -/
def NUM_RECIPE (s : Nat) (k : Nat) : Nat := 0xA00100 + s * 0x40 + k * 0x8
/-- Offset of NUM_JOB_CFG. -/
def NUM_JOB_CFG (j : Nat) : Nat := 0xA10000 + 0x1000 * j
/-- Offset of NUM_JOB_INIT. -/
def NUM_JOB_INIT (j : Nat) : Nat := 0xA10008 + 0x1000 * j
/-- Offset of NUM_SEED. -/
def NUM_SEED (j : Nat) : Nat := 0xA10010 + 0x1000 * j
/-- Offset of NUM_DARK_CFG. -/
def NUM_DARK_CFG (j : Nat) : Nat := 0xA10018 + 0x1000 * j
/-- Offset of NUM_DARK_BASE. -/
def NUM_DARK_BASE (j : Nat) : Nat := 0xA10020 + 0x1000 * j
/-- Offset of NUM_SCALE. -/
def NUM_SCALE (j : Nat) : Nat := 0xA10040 + 0x1000 * j
/-- Offset of NUM_STEP. -/
def NUM_STEP (j : Nat) : Nat := 0xA10048 + 0x1000 * j
/-- Offset of NUM_FLAGS. -/
def NUM_FLAGS (j : Nat) : Nat := 0xA10050 + 0x1000 * j
/-- Offset of NUM_CNT_CAST. -/
def NUM_CNT_CAST (j : Nat) : Nat := 0xA10058 + 0x1000 * j
/-- Offset of NUM_CNT_SCALE. -/
def NUM_CNT_SCALE (j : Nat) : Nat := 0xA10060 + 0x1000 * j
/-- Offset of NUM_CNT_DARK. -/
def NUM_CNT_DARK (j : Nat) : Nat := 0xA10068 + 0x1000 * j
/-- Offset of CDn_CL_SEQCNT. -/
def CL_SEQCNT (n : Nat) (k : Nat) : Nat := 0x1010030 + 0x100000 * n + 0x800 * k
/-- Offset of CDn_CL_EXC. -/
def CL_EXC (n : Nat) (k : Nat) : Nat := 0x1010038 + 0x100000 * n + 0x800 * k
/-- Offset of CDn_CL_WAIT. -/
def CL_WAIT (n : Nat) (k : Nat) : Nat := 0x1010040 + 0x100000 * n + 0x800 * k
/-- Offset of CDn_CL_RETIRED. -/
def CL_RETIRED (n : Nat) (k : Nat) : Nat := 0x1010048 + 0x100000 * n + 0x800 * k
/-- Offset of CDn_CL_VSTATUS. -/
def CL_VSTATUS (n : Nat) (k : Nat) : Nat := 0x1010050 + 0x100000 * n + 0x800 * k
/-- Offset of CDn_CL_VCNT. -/
def CL_VCNT (n : Nat) (k : Nat) : Nat := 0x1010058 + 0x100000 * n + 0x800 * k
/-- Offset of CDn_BWD_CFG_j. -/
def CD_BWD_CFG (n : Nat) (j : Nat) : Nat := 0x1001000 + 0x100000 * n + 0x100 * j
/-- Offset of CDn_STASH_WIN_j. -/
def CD_STASH_WIN (n : Nat) (j : Nat) : Nat := 0x1001008 + 0x100000 * n + 0x100 * j
/-- Offset of CDn_STASH_POOL_j. -/
def CD_STASH_POOL (n : Nat) (j : Nat) : Nat := 0x1001010 + 0x100000 * n + 0x100 * j
/-- Offset of CDn_STASH_SPILL_j. -/
def CD_STASH_SPILL (n : Nat) (j : Nat) : Nat := 0x1001018 + 0x100000 * n + 0x100 * j
/-- Offset of CDn_STASH_LEDGER_j. -/
def CD_STASH_LEDGER (n : Nat) (j : Nat) : Nat := 0x1001020 + 0x100000 * n + 0x100 * j
/-- Offset of CDn_STASH_STAT_j. -/
def CD_STASH_STAT (n : Nat) (j : Nat) : Nat := 0x1001028 + 0x100000 * n + 0x100 * j
/-- Offset of CDn_STASH_PEAK_j. -/
def CD_STASH_PEAK (n : Nat) (j : Nat) : Nat := 0x1001030 + 0x100000 * n + 0x100 * j
/-- Offset of CDn_BWD_CNT_j. -/
def CD_BWD_CNT (n : Nat) (j : Nat) : Nat := 0x1001038 + 0x100000 * n + 0x100 * j
/-- Offset of CDn_EPOCH_j_h. -/
def CD_EPOCH (n : Nat) (j : Nat) (h : Nat) : Nat := 0x1008000 + 0x100000 * n + 0x800 * j + h * 0x8
/-- Offset of CDn_CL_WGQ. -/
def CL_WGQ (n : Nat) (k : Nat) : Nat := 0x1010060 + 0x100000 * n + 0x800 * k
/-- Offset of RLY_ENG_e. -/
def RLY_ENG (e : Nat) : Nat := 0x800000 + e * 0x8
/-- Offset of RLY_JOB_ID. -/
def RLY_JOB_ID (i : Nat) : Nat := 0x800100 + i * 0x8
/-- Offset of RLY_REJECT. -/
def RLY_REJECT : Nat := 0x800200
/-- Offset of RLY_CFG_j. -/
def RLY_CFG (j : Nat) : Nat := 0x801000 + j * 0x40
/-- Offset of RLY_PLAN_j. -/
def RLY_PLAN (j : Nat) : Nat := 0x801008 + j * 0x40
/-- Offset of RLY_LIST_j. -/
def RLY_LIST (j : Nat) : Nat := 0x801010 + j * 0x40
/-- Offset of RLY_SCALE_j. -/
def RLY_SCALE (j : Nat) : Nat := 0x801018 + j * 0x40
/-- Offset of RLY_CNT_j. -/
def RLY_CNT (j : Nat) : Nat := 0x801020 + j * 0x40
/-- Offset of HRD_SCHED_j. -/
def HRD_SCHED (j : Nat) : Nat := 0x881000 + j * 0x40
/-- Offset of HRD_MARK_j. -/
def HRD_MARK (j : Nat) : Nat := 0x881008 + j * 0x40
/-- Offset of HRD_CONTRIB_j. -/
def HRD_CONTRIB (j : Nat) : Nat := 0x881010 + j * 0x40
/-- Offset of HRD_OUTCOME_j. -/
def HRD_OUTCOME (j : Nat) : Nat := 0x881018 + j * 0x40
/-- Offset of HRD_RESULT_j. -/
def HRD_RESULT (j : Nat) : Nat := 0x881020 + j * 0x40
/-- Offset of HRD_ROLE_j. -/
def HRD_ROLE (j : Nat) : Nat := 0x881028 + j * 0x40
/-- Offset of HRD_FLAGS_j. -/
def HRD_FLAGS (j : Nat) : Nat := 0x881030 + j * 0x40
/-- Offset of HRD_CNT_j. -/
def HRD_CNT (j : Nat) : Nat := 0x881038 + j * 0x40
/-- Offset of ACM_ID. -/
def ACM_ID : Nat := 0x900000
/-- Offset of ACM_CFG. -/
def ACM_CFG : Nat := 0x900008
/-- Offset of ACM_POWER. -/
def ACM_POWER : Nat := 0x900040
/-- Offset of ACM_ROUTE_CNT. -/
def ACM_ROUTE_CNT : Nat := 0x900048
/-- Offset of ACM_LASER_d. -/
def ACM_LASER (d : Nat) : Nat := 0x900100 + d * 0x8
/-- Offset of ACM_PORT_STAT_p. -/
def ACM_PORT_STAT (p : Nat) : Nat := 0x901000 + p * 0x40
/-- Offset of ACM_PORT_FEC_p. -/
def ACM_PORT_FEC (p : Nat) : Nat := 0x901008 + p * 0x40
/-- Offset of ACM_PORT_CNT_p. -/
def ACM_PORT_CNT (p : Nat) : Nat := 0x901010 + p * 0x40
/-- Offset of ACM_PEERWIN_j. -/
def ACM_PEERWIN (j : Nat) : Nat := 0x906000 + j * 0x10
/-- Offset of ACM_JOBMAP_j. -/
def ACM_JOBMAP (j : Nat) : Nat := 0x906008 + j * 0x10
/-- Offset of CRM_STATUS. -/
def CRM_STATUS : Nat := 0x400000
/-- Offset of CRM_STOP. -/
def CRM_STOP : Nat := 0x400008
/-- Offset of CRM_STOP_LAP. -/
def CRM_STOP_LAP : Nat := 0x400010
/-- Offset of CRM_STOP_ADDR. -/
def CRM_STOP_ADDR : Nat := 0x400018
/-- Offset of CRM_CFG. -/
def CRM_CFG : Nat := 0x400020
/-- Offset of CRM_BIAS_CMD. -/
def CRM_BIAS_CMD : Nat := 0x400100
/-- Offset of CRM_BIAS_STAT. -/
def CRM_BIAS_STAT : Nat := 0x400108
/-- Offset of CRM_LOCK_FAULT. -/
def CRM_LOCK_FAULT : Nat := 0x400110
/-- Offset of CRM_AGENT_a. -/
def CRM_AGENT (a : Nat) : Nat := 0x400200 + a * 0x8
/-- Offset of CRM_HOME_h. -/
def CRM_HOME (h : Nat) : Nat := 0x400300 + h * 0x8
/-- Offset of CRM_LINK_l. -/
def CRM_LINK (l : Nat) : Nat := 0x400400 + l * 0x8
/-- Offset of XLT_STATUS. -/
def XLT_STATUS : Nat := 0x500000
/-- Offset of XLT_CNT. -/
def XLT_CNT : Nat := 0x500008
/-- Offset of XLT_FQ_BASE. -/
def XLT_FQ_BASE : Nat := 0x500010
/-- Offset of XLT_FAULT_RESUME. -/
def XLT_FAULT_RESUME : Nat := 0x500020
/-- Offset of XLT_SD_ADDR. -/
def XLT_SD_ADDR : Nat := 0x500030
/-- Offset of XLT_SD_CMD. -/
def XLT_SD_CMD : Nat := 0x500038
/-- Offset of XLT_SD_STAT. -/
def XLT_SD_STAT : Nat := 0x500040
/-- Offset of XLT_SD_LAP. -/
def XLT_SD_LAP : Nat := 0x500048
/-- Offset of XLT_NQ_BASE. -/
def XLT_NQ_BASE : Nat := 0x500050
/-- Offset of XLT_NQ_HEAD. -/
def XLT_NQ_HEAD : Nat := 0x500058
/-- Offset of XLT_TRK_h. -/
def XLT_TRK (h : Nat) : Nat := 0x500060 + h * 0x8
/-- Offset of XLT_CTX_c. -/
def XLT_CTX (c : Nat) : Nat := 0x500100 + c * 0x8
/-- Offset of XLT_REC_r. -/
def XLT_REC (r : Nat) : Nat := 0x500200 + r * 0x10
/-- Offset of XLT_RECENG_r. -/
def XLT_RECENG (r : Nat) : Nat := 0x500208 + r * 0x10
/-- Offset of SQ_DB_q. -/
def SQ_DB (q : Nat) : Nat := 0x600000 + 0x1000 * q
/-- Offset of SQ_ODB_q. -/
def SQ_ODB (q : Nat) : Nat := 0x600008 + 0x1000 * q
/-- Offset of SQ_STAT_q. -/
def SQ_STAT (q : Nat) : Nat := 0x600100 + 0x1000 * q
/-- Offset of SQ_CQH_q. -/
def SQ_CQH (q : Nat) : Nat := 0x600108 + 0x1000 * q
/-- Offset of SQ_CTL_q. -/
def SQ_CTL (q : Nat) : Nat := 0x600110 + 0x1000 * q
/-- Offset of SQ_CNT_q. -/
def SQ_CNT (q : Nat) : Nat := 0x600118 + 0x1000 * q
/-- Offset of CPE_ENG_e. -/
def CPE_ENG (e : Nat) : Nat := 0x700000 + e * 0x8
/-- Offset of CPE_CNT. -/
def CPE_CNT : Nat := 0x700100
/-- Offset of CPE_QRING_q. -/
def CPE_QRING (q : Nat) : Nat := 0x710000 + q * 0x40
/-- Offset of CPE_QCPL_q. -/
def CPE_QCPL (q : Nat) : Nat := 0x710008 + q * 0x40
/-- Offset of CPE_QBIND_q. -/
def CPE_QBIND (q : Nat) : Nat := 0x710010 + q * 0x40
/-- Offset of CPE_QFRAME_q. -/
def CPE_QFRAME (q : Nat) : Nat := 0x710018 + q * 0x40
/-- Offset of CPE_QIRQ_q. -/
def CPE_QIRQ (q : Nat) : Nat := 0x710020 + q * 0x40
/-- Offset of STR_HRST. -/
def STR_HRST : Nat := 0x800
/-- Offset of STR_HOST_h. -/
def STR_HOST (h : Nat) : Nat := 0x810 + h * 0x8
/-- Offset of STR_HOSTVEC_h. -/
def STR_HOSTVEC (h : Nat) : Nat := 0x820 + h * 0x8
/-- Offset of STR_PCIE_p. -/
def STR_PCIE (p : Nat) : Nat := 0x830 + p * 0x8
/-- Offset of PRM_ENG_STAT_e. -/
def PRM_ENG_STAT (e : Nat) : Nat := 0xB00000 + e * 0x40
/-- Offset of PRM_SURF_e. -/
def PRM_SURF (e : Nat) : Nat := 0xB00008 + e * 0x40
/-- Offset of PRM_STATUS_e. -/
def PRM_STATUS (e : Nat) : Nat := 0xB00010 + e * 0x40
/-- Offset of PRM_CNT_e. -/
def PRM_CNT (e : Nat) : Nat := 0xB00018 + e * 0x40
/-- Offset of PRM_BUSY_e. -/
def PRM_BUSY (e : Nat) : Nat := 0xB00020 + e * 0x40
/-- Offset of PRM_FW. -/
def PRM_FW : Nat := 0xB00800
/-- Offset of PRM_CTX_e_c. -/
def PRM_CTX (e : Nat) (c : Nat) : Nat := 0xB10000 + 0x200 * e + c * 0x8
/-- Offset of PCE_CFG. -/
def PCE_CFG : Nat := 0x300000
/-- Offset of PCE_STATUS. -/
def PCE_STATUS : Nat := 0x300008
/-- Offset of PCE_TABLE_p. -/
def PCE_TABLE (p : Nat) : Nat := 0x300100 + p * 0x8
/-- Offset of PCE_SLOT_j. -/
def PCE_SLOT (j : Nat) : Nat := 0x300200 + j * 0x10
/-- Offset of PCE_VOTE_j. -/
def PCE_VOTE (j : Nat) : Nat := 0x300208 + j * 0x10
/-- Offset of PCE_CNT. -/
def PCE_CNT : Nat := 0x300300
/-- Offset of PCE_CORE_c. -/
def PCE_CORE (c : Nat) : Nat := 0x301000 + c * 0x8
/-- Offset of MON_TEMP_s. -/
def MON_TEMP (s : Nat) : Nat := 0x380000 + s * 0x8
/-- Offset of MON_VMON_v. -/
def MON_VMON (v : Nat) : Nat := 0x382000 + v * 0x8
/-- Offset of MON_RAIL_r. -/
def MON_RAIL (r : Nat) : Nat := 0x382400 + r * 0x8
/-- Offset of MON_BUS_k. -/
def MON_BUS (k : Nat) : Nat := 0x382800 + k * 0x8
/-- Offset of MON_INPUT. -/
def MON_INPUT : Nat := 0x382840
/-- Offset of MON_TRIP. -/
def MON_TRIP : Nat := 0x382900
/-- Offset of CDn_CL_PWR. -/
def CL_PWR (n : Nat) (k : Nat) : Nat := 0x1010068 + 0x100000 * n + 0x800 * k
/-- Offset of STR_ID. -/
def STR_ID : Nat := 0x0
/-- Offset of STR_START. -/
def STR_START : Nat := 0x8
/-- Offset of STR_IMAGE. -/
def STR_IMAGE : Nat := 0x10
/-- Offset of STR_BUILD. -/
def STR_BUILD : Nat := 0x18
/-- Offset of STR_ROLE. -/
def STR_ROLE : Nat := 0x20
/-- Offset of STR_FUSE. -/
def STR_FUSE : Nat := 0x28
/-- Offset of STR_RING. -/
def STR_RING : Nat := 0x100
/-- Offset of STR_RING_HEAD. -/
def STR_RING_HEAD : Nat := 0x108
/-- Offset of STR_RING_IRQ. -/
def STR_RING_IRQ : Nat := 0x110
/-- Offset of STR_RING_CNT. -/
def STR_RING_CNT : Nat := 0x118
/-- Offset of SHD_CTL. -/
def SHD_CTL : Nat := 0x100000
/-- Offset of SHD_ARM_T. -/
def SHD_ARM_T : Nat := 0x100008
/-- Offset of SHD_PEEK_ADDR. -/
def SHD_PEEK_ADDR : Nat := 0x100010
/-- Offset of SHD_PEEK_DATA. -/
def SHD_PEEK_DATA : Nat := 0x100018
/-- Offset of SHD_CNT. -/
def SHD_CNT : Nat := 0x100020
/-- Offset of SHD_STAT_a. -/
def SHD_STAT (a : Nat) : Nat := 0x100100 + a * 0x8
/-- Offset of SHD_SLOT_n. -/
def SHD_SLOT (n : Nat) : Nat := 0x100400 + n * 0x8
/-- Offset of SHD_MEMB_n. -/
def SHD_MEMB (n : Nat) : Nat := 0x100480 + n * 0x8
/-- Offset of SHD_VOTE_j. -/
def SHD_VOTE (j : Nat) : Nat := 0x100500 + j * 0x8
/-- Offset of SHD_DIGEST_j. -/
def SHD_DIGEST (j : Nat) : Nat := 0x100580 + j * 0x8
/-- Offset of RES_CFG. -/
def RES_CFG : Nat := 0xC00000
/-- Offset of RES_TEST_CNT. -/
def RES_TEST_CNT : Nat := 0xC00008
/-- Offset of RES_CKPT_CFG_j. -/
def RES_CKPT_CFG (j : Nat) : Nat := 0xC10000 + 0x100 * j
/-- Offset of RES_CKPT_CTL_j. -/
def RES_CKPT_CTL (j : Nat) : Nat := 0xC10008 + 0x100 * j
/-- Offset of RES_REG_j. -/
def RES_REG (j : Nat) : Nat := 0xC10010 + 0x100 * j
/-- Offset of RES_PART_j. -/
def RES_PART (j : Nat) : Nat := 0xC10018 + 0x100 * j
/-- Offset of RES_HALT_j. -/
def RES_HALT (j : Nat) : Nat := 0xC10020 + 0x100 * j
/-- Offset of RES_RESUME_j. -/
def RES_RESUME (j : Nat) : Nat := 0xC10028 + 0x100 * j
/-- Offset of RES_CKPT_STAT_j. -/
def RES_CKPT_STAT (j : Nat) : Nat := 0xC10030 + 0x100 * j
/-- Offset of RES_MDIGEST_j_w. -/
def RES_MDIGEST (j : Nat) (w : Nat) : Nat := 0xC10040 + 0x100 * j + w * 0x8
/-- Offset of RES_VERIFY_j. -/
def RES_VERIFY (j : Nat) : Nat := 0xC10060 + 0x100 * j
/-- Offset of RES_VBASE_j. -/
def RES_VBASE (j : Nat) : Nat := 0xC10068 + 0x100 * j
/-- Offset of RES_VDIG_j_w. -/
def RES_VDIG (j : Nat) (w : Nat) : Nat := 0xC10070 + 0x100 * j + w * 0x8
/-- Offset of RES_CNT_j. -/
def RES_CNT (j : Nat) : Nat := 0xC10090 + 0x100 * j
/-- Offset of STR_PINS. -/
def STR_PINS : Nat := 0x900

end Reg

namespace F

def STR_SLOT_ACTIVE (n : Nat) : Fld := ⟨Reg.STR_SLOT n, 63, 63⟩
def STR_SLOT_STATE (n : Nat) : Fld := ⟨Reg.STR_SLOT n, 62, 60⟩
def STR_SLOT_JOB_ID (n : Nat) : Fld := ⟨Reg.STR_SLOT n, 55, 44⟩
def STR_SLOT_PACE (n : Nat) : Fld := ⟨Reg.STR_SLOT n, 43, 40⟩
def STR_SLOT_PARTITIONS (n : Nat) : Fld := ⟨Reg.STR_SLOT n, 31, 0⟩
def LAP_COUNT_COUNT : Fld := ⟨Reg.LAP_COUNT, 63, 0⟩
def LAP_PHASE_PHASE : Fld := ⟨Reg.LAP_PHASE, 9, 0⟩
def LAP_STATUS_STATE : Fld := ⟨Reg.LAP_STATUS, 63, 61⟩
def LAP_STATUS_ROLE : Fld := ⟨Reg.LAP_STATUS, 60, 59⟩
def LAP_STATUS_REF10M : Fld := ⟨Reg.LAP_STATUS, 58, 58⟩
def LAP_STATUS_PPS : Fld := ⟨Reg.LAP_STATUS, 57, 57⟩
def LAP_STATUS_REFD : Fld := ⟨Reg.LAP_STATUS, 56, 56⟩
def LAP_STATUS_EPOCH : Fld := ⟨Reg.LAP_STATUS, 55, 40⟩
def LAP_STATUS_MASTER : Fld := ⟨Reg.LAP_STATUS, 39, 27⟩
def LAP_STATUS_HOPS : Fld := ⟨Reg.LAP_STATUS, 26, 23⟩
def LAP_STATUS_UPSTREAM : Fld := ⟨Reg.LAP_STATUS, 22, 17⟩
def LAP_STATUS_PHASE_ERR : Fld := ⟨Reg.LAP_STATUS, 7, 0⟩
def LAP_CFG_ROLE : Fld := ⟨Reg.LAP_CFG, 63, 62⟩
def LAP_CFG_REF_EN : Fld := ⟨Reg.LAP_CFG, 61, 61⟩
def LAP_HOLD_HOLD_LAPS : Fld := ⟨Reg.LAP_HOLD, 31, 0⟩
def LAP_REJECT_REASON : Fld := ⟨Reg.LAP_REJECT, 63, 60⟩
def LAP_REJECT_KIND : Fld := ⟨Reg.LAP_REJECT, 59, 56⟩
def LAP_REJECT_JOB : Fld := ⟨Reg.LAP_REJECT, 55, 44⟩
def LAP_REJECT_TARGET : Fld := ⟨Reg.LAP_REJECT, 39, 0⟩
def LAP_CNT_LOCK_LOSS : Fld := ⟨Reg.LAP_CNT, 63, 48⟩
def LAP_CNT_ARM_REJECT : Fld := ⟨Reg.LAP_CNT, 47, 32⟩
def LAP_CNT_UP_SWITCH : Fld := ⟨Reg.LAP_CNT, 31, 16⟩
def LAP_CNT_TAKEOVER : Fld := ⟨Reg.LAP_CNT, 15, 0⟩
def LAP_START_START : Fld := ⟨Reg.LAP_START, 63, 0⟩
def LAP_PPS_CAPTURE_LAP : Fld := ⟨Reg.LAP_PPS_CAPTURE, 63, 10⟩
def LAP_PPS_CAPTURE_PHASE : Fld := ⟨Reg.LAP_PPS_CAPTURE, 9, 0⟩
def LAP_PORT_DELAY_VALID (p : Nat) : Fld := ⟨Reg.LAP_PORT_DELAY p, 63, 63⟩
def LAP_PORT_DELAY_DELAY (p : Nat) : Fld := ⟨Reg.LAP_PORT_DELAY p, 19, 0⟩
def CD_ID_DIE (n : Nat) : Fld := ⟨Reg.CD_ID n, 63, 60⟩
def CD_ID_PHYS (n : Nat) : Fld := ⟨Reg.CD_ID n, 59, 51⟩
def CD_ID_PER_PART (n : Nat) : Fld := ⟨Reg.CD_ID n, 50, 44⟩
def CD_PART_AVAIL (n : Nat) (q : Nat) : Fld := ⟨Reg.CD_PART n q, 63, 63⟩
def CD_PART_HELD (n : Nat) (q : Nat) : Fld := ⟨Reg.CD_PART n q, 62, 62⟩
def CD_PART_SLOT (n : Nat) (q : Nat) : Fld := ⟨Reg.CD_PART n q, 61, 58⟩
def CD_PART_HEALTHY (n : Nat) (q : Nat) : Fld := ⟨Reg.CD_PART n q, 57, 51⟩
def CD_PART_SPARE (n : Nat) (q : Nat) : Fld := ⟨Reg.CD_PART n q, 50, 48⟩
def CD_PART_PACE (n : Nat) (q : Nat) : Fld := ⟨Reg.CD_PART n q, 47, 44⟩
def CD_ENABLE_ACTIVE (n : Nat) (w : Nat) : Fld := ⟨Reg.CD_ENABLE n w, 63, 0⟩
def CD_ECC_TS_CE (n : Nat) : Fld := ⟨Reg.CD_ECC n, 63, 48⟩
def CD_ECC_ACC_CE (n : Nat) : Fld := ⟨Reg.CD_ECC n, 47, 32⟩
def CD_ECC_UE (n : Nat) : Fld := ⟨Reg.CD_ECC n, 31, 16⟩
def CD_ECC_FAULTS (n : Nat) : Fld := ⟨Reg.CD_ECC n, 15, 0⟩
def CL_STATUS_ROLE (n : Nat) (k : Nat) : Fld := ⟨Reg.CL_STATUS n k, 63, 61⟩
def CL_STATUS_LOGICAL (n : Nat) (k : Nat) : Fld := ⟨Reg.CL_STATUS n k, 60, 54⟩
def CL_STATUS_RUN (n : Nat) (k : Nat) : Fld := ⟨Reg.CL_STATUS n k, 53, 51⟩
def CL_STATUS_NF (n : Nat) (k : Nat) : Fld := ⟨Reg.CL_STATUS n k, 50, 50⟩
def CL_STATUS_MERGING (n : Nat) (k : Nat) : Fld := ⟨Reg.CL_STATUS n k, 49, 49⟩
def CL_STATUS_PC (n : Nat) (k : Nat) : Fld := ⟨Reg.CL_STATUS n k, 31, 0⟩
def CL_SLOTS_STATE (n : Nat) (k : Nat) : Fld := ⟨Reg.CL_SLOTS n k, 31, 0⟩
def CL_FAULT_CODE (n : Nat) (k : Nat) : Fld := ⟨Reg.CL_FAULT n k, 63, 48⟩
def CL_FAULT_CAUSE (n : Nat) (k : Nat) : Fld := ⟨Reg.CL_FAULT n k, 47, 40⟩
def CL_FAULT_ADDR (n : Nat) (k : Nat) : Fld := ⟨Reg.CL_FAULT n k, 20, 0⟩
def CL_BUSY_BUSY (n : Nat) (k : Nat) : Fld := ⟨Reg.CL_BUSY n k, 63, 0⟩
def CL_STALL_OPERAND (n : Nat) (k : Nat) : Fld := ⟨Reg.CL_STALL n k, 63, 32⟩
def CL_STALL_MERGE (n : Nat) (k : Nat) : Fld := ⟨Reg.CL_STALL n k, 31, 0⟩
def CL_ECC_TS_CE (n : Nat) (k : Nat) : Fld := ⟨Reg.CL_ECC n k, 63, 48⟩
def CL_ECC_ACC_CE (n : Nat) (k : Nat) : Fld := ⟨Reg.CL_ECC n k, 47, 32⟩
def NUM_RECIPE_FMT (s : Nat) (k : Nat) : Fld := ⟨Reg.NUM_RECIPE s k, 63, 60⟩
def NUM_RECIPE_FMT_EDGE (s : Nat) (k : Nat) : Fld := ⟨Reg.NUM_RECIPE s k, 59, 56⟩
def NUM_RECIPE_WIRE (s : Nat) (k : Nat) : Fld := ⟨Reg.NUM_RECIPE s k, 55, 52⟩
def NUM_RECIPE_TWIN_OK (s : Nat) (k : Nat) : Fld := ⟨Reg.NUM_RECIPE s k, 51, 51⟩
def NUM_RECIPE_TWIN_DEF (s : Nat) (k : Nat) : Fld := ⟨Reg.NUM_RECIPE s k, 50, 50⟩
def NUM_RECIPE_SEED_OK (s : Nat) (k : Nat) : Fld := ⟨Reg.NUM_RECIPE s k, 49, 49⟩
def NUM_RECIPE_MON (s : Nat) (k : Nat) : Fld := ⟨Reg.NUM_RECIPE s k, 48, 48⟩
def NUM_RECIPE_MULT (s : Nat) (k : Nat) : Fld := ⟨Reg.NUM_RECIPE s k, 47, 47⟩
def NUM_JOB_CFG_RECIPE_SET (j : Nat) : Fld := ⟨Reg.NUM_JOB_CFG j, 63, 62⟩
def NUM_JOB_CFG_AUTO_RAISE (j : Nat) : Fld := ⟨Reg.NUM_JOB_CFG j, 61, 61⟩
def NUM_JOB_CFG_PCM_CAP (j : Nat) : Fld := ⟨Reg.NUM_JOB_CFG j, 60, 56⟩
def NUM_JOB_CFG_LS_MIN (j : Nat) : Fld := ⟨Reg.NUM_JOB_CFG j, 55, 48⟩
def NUM_JOB_CFG_LS_MAX (j : Nat) : Fld := ⟨Reg.NUM_JOB_CFG j, 47, 40⟩
def NUM_JOB_CFG_GROWTH (j : Nat) : Fld := ⟨Reg.NUM_JOB_CFG j, 39, 24⟩
def NUM_JOB_CFG_DARK_N (j : Nat) : Fld := ⟨Reg.NUM_JOB_CFG j, 23, 14⟩
def NUM_JOB_INIT_LS_INIT (j : Nat) : Fld := ⟨Reg.NUM_JOB_INIT j, 63, 56⟩
def NUM_JOB_INIT_PCM_G_INIT (j : Nat) : Fld := ⟨Reg.NUM_JOB_INIT j, 55, 51⟩
def NUM_JOB_INIT_PCM_WG_INIT (j : Nat) : Fld := ⟨Reg.NUM_JOB_INIT j, 50, 46⟩
def NUM_JOB_INIT_STEP_INIT (j : Nat) : Fld := ⟨Reg.NUM_JOB_INIT j, 43, 0⟩
def NUM_SEED_SEED (j : Nat) : Fld := ⟨Reg.NUM_SEED j, 63, 0⟩
def NUM_DARK_CFG_DARK_PPM (j : Nat) : Fld := ⟨Reg.NUM_DARK_CFG j, 63, 44⟩
def NUM_DARK_CFG_ENTRIES (j : Nat) : Fld := ⟨Reg.NUM_DARK_CFG j, 43, 28⟩
def NUM_DARK_BASE_BASE (j : Nat) : Fld := ⟨Reg.NUM_DARK_BASE j, 45, 5⟩
def NUM_SCALE_LS (j : Nat) : Fld := ⟨Reg.NUM_SCALE j, 63, 56⟩
def NUM_SCALE_LS_PREV (j : Nat) : Fld := ⟨Reg.NUM_SCALE j, 55, 48⟩
def NUM_SCALE_PCM_G (j : Nat) : Fld := ⟨Reg.NUM_SCALE j, 47, 43⟩
def NUM_SCALE_PCM_WG (j : Nat) : Fld := ⟨Reg.NUM_SCALE j, 42, 38⟩
def NUM_SCALE_PCM_G_PREV (j : Nat) : Fld := ⟨Reg.NUM_SCALE j, 37, 33⟩
def NUM_SCALE_PCM_WG_PREV (j : Nat) : Fld := ⟨Reg.NUM_SCALE j, 32, 28⟩
def NUM_SCALE_PEND_G (j : Nat) : Fld := ⟨Reg.NUM_SCALE j, 27, 27⟩
def NUM_SCALE_PEND_WG (j : Nat) : Fld := ⟨Reg.NUM_SCALE j, 26, 26⟩
def NUM_SCALE_CLEAN (j : Nat) : Fld := ⟨Reg.NUM_SCALE j, 15, 0⟩
def NUM_STEP_STEP (j : Nat) : Fld := ⟨Reg.NUM_STEP j, 43, 0⟩
def NUM_FLAGS_OVF (j : Nat) : Fld := ⟨Reg.NUM_FLAGS j, 63, 63⟩
def NUM_FLAGS_NF (j : Nat) : Fld := ⟨Reg.NUM_FLAGS j, 62, 62⟩
def NUM_FLAGS_ALARM_G (j : Nat) : Fld := ⟨Reg.NUM_FLAGS j, 61, 61⟩
def NUM_FLAGS_ALARM_WG (j : Nat) : Fld := ⟨Reg.NUM_FLAGS j, 60, 60⟩
def NUM_CNT_CAST_SAT (j : Nat) : Fld := ⟨Reg.NUM_CNT_CAST j, 63, 32⟩
def NUM_CNT_CAST_RANGE (j : Nat) : Fld := ⟨Reg.NUM_CNT_CAST j, 31, 0⟩
def NUM_CNT_SCALE_SKIPS (j : Nat) : Fld := ⟨Reg.NUM_CNT_SCALE j, 63, 48⟩
def NUM_CNT_SCALE_LOWERED (j : Nat) : Fld := ⟨Reg.NUM_CNT_SCALE j, 47, 32⟩
def NUM_CNT_SCALE_RAISED (j : Nat) : Fld := ⟨Reg.NUM_CNT_SCALE j, 31, 16⟩
def NUM_CNT_SCALE_FLOOR (j : Nat) : Fld := ⟨Reg.NUM_CNT_SCALE j, 15, 0⟩
def NUM_CNT_DARK_ALARMS (j : Nat) : Fld := ⟨Reg.NUM_CNT_DARK j, 63, 32⟩
def NUM_CNT_DARK_MULT_RAISES (j : Nat) : Fld := ⟨Reg.NUM_CNT_DARK j, 31, 16⟩
def NUM_CNT_DARK_SUPPRESSED (j : Nat) : Fld := ⟨Reg.NUM_CNT_DARK j, 15, 0⟩
def CL_SEQCNT_LATE (n : Nat) (k : Nat) : Fld := ⟨Reg.CL_SEQCNT n k, 63, 48⟩
def CL_SEQCNT_EVT_DROP (n : Nat) (k : Nat) : Fld := ⟨Reg.CL_SEQCNT n k, 47, 32⟩
def CL_SEQCNT_HRDW_MISS (n : Nat) (k : Nat) : Fld := ⟨Reg.CL_SEQCNT n k, 31, 16⟩
def CL_EXC_INSN (n : Nat) (k : Nat) : Fld := ⟨Reg.CL_EXC n k, 63, 32⟩
def CL_EXC_PC (n : Nat) (k : Nat) : Fld := ⟨Reg.CL_EXC n k, 31, 0⟩
def CL_WAIT_KIND (n : Nat) (k : Nat) : Fld := ⟨Reg.CL_WAIT n k, 63, 61⟩
def CL_WAIT_WHICH (n : Nat) (k : Nat) : Fld := ⟨Reg.CL_WAIT n k, 60, 56⟩
def CL_WAIT_TARGET (n : Nat) (k : Nat) : Fld := ⟨Reg.CL_WAIT n k, 39, 0⟩
def CL_RETIRED_COUNT (n : Nat) (k : Nat) : Fld := ⟨Reg.CL_RETIRED n k, 63, 0⟩
def CL_VSTATUS_VL (n : Nat) (k : Nat) : Fld := ⟨Reg.CL_VSTATUS n k, 63, 55⟩
def CL_VSTATUS_SEW (n : Nat) (k : Nat) : Fld := ⟨Reg.CL_VSTATUS n k, 54, 53⟩
def CL_VSTATUS_KIND (n : Nat) (k : Nat) : Fld := ⟨Reg.CL_VSTATUS n k, 52, 51⟩
def CL_VSTATUS_NV (n : Nat) (k : Nat) : Fld := ⟨Reg.CL_VSTATUS n k, 50, 50⟩
def CL_VSTATUS_DZ (n : Nat) (k : Nat) : Fld := ⟨Reg.CL_VSTATUS n k, 49, 49⟩
def CL_VSTATUS_OF (n : Nat) (k : Nat) : Fld := ⟨Reg.CL_VSTATUS n k, 48, 48⟩
def CL_VSTATUS_NFW (n : Nat) (k : Nat) : Fld := ⟨Reg.CL_VSTATUS n k, 47, 47⟩
def CL_VSTATUS_QUEUE (n : Nat) (k : Nat) : Fld := ⟨Reg.CL_VSTATUS n k, 46, 42⟩
def CL_VCNT_ISSUED (n : Nat) (k : Nat) : Fld := ⟨Reg.CL_VCNT n k, 63, 32⟩
def CL_VCNT_BANKWAIT (n : Nat) (k : Nat) : Fld := ⟨Reg.CL_VCNT n k, 31, 16⟩
def CD_BWD_CFG_POLICY (n : Nat) (j : Nat) : Fld := ⟨Reg.CD_BWD_CFG n j, 63, 62⟩
def CD_BWD_CFG_LIFE (n : Nat) (j : Nat) : Fld := ⟨Reg.CD_BWD_CFG n j, 61, 61⟩
def CD_BWD_CFG_REGION_MIB (n : Nat) (j : Nat) : Fld := ⟨Reg.CD_BWD_CFG n j, 60, 44⟩
def CD_BWD_CFG_SPILL_GIB (n : Nat) (j : Nat) : Fld := ⟨Reg.CD_BWD_CFG n j, 43, 32⟩
def CD_BWD_CFG_FLIP_OFFSET (n : Nat) (j : Nat) : Fld := ⟨Reg.CD_BWD_CFG n j, 19, 0⟩
def CD_STASH_WIN_SIZE (n : Nat) (j : Nat) : Fld := ⟨Reg.CD_STASH_WIN n j, 63, 48⟩
def CD_STASH_WIN_BASE (n : Nat) (j : Nat) : Fld := ⟨Reg.CD_STASH_WIN n j, 47, 21⟩
def CD_STASH_POOL_POOL (n : Nat) (j : Nat) : Fld := ⟨Reg.CD_STASH_POOL n j, 45, 21⟩
def CD_STASH_SPILL_SPILL (n : Nat) (j : Nat) : Fld := ⟨Reg.CD_STASH_SPILL n j, 45, 21⟩
def CD_STASH_LEDGER_LEDGER (n : Nat) (j : Nat) : Fld := ⟨Reg.CD_STASH_LEDGER n j, 45, 17⟩
def CD_STASH_STAT_STATE (n : Nat) (j : Nat) : Fld := ⟨Reg.CD_STASH_STAT n j, 63, 62⟩
def CD_STASH_STAT_HIGH (n : Nat) (j : Nat) : Fld := ⟨Reg.CD_STASH_STAT n j, 61, 61⟩
def CD_STASH_STAT_HBM_PAGES (n : Nat) (j : Nat) : Fld := ⟨Reg.CD_STASH_STAT n j, 60, 36⟩
def CD_STASH_STAT_SPILL_MIB (n : Nat) (j : Nat) : Fld := ⟨Reg.CD_STASH_STAT n j, 35, 15⟩
def CD_STASH_PEAK_PEAK (n : Nat) (j : Nat) : Fld := ⟨Reg.CD_STASH_PEAK n j, 63, 39⟩
def CD_STASH_PEAK_OVF_DESC (n : Nat) (j : Nat) : Fld := ⟨Reg.CD_STASH_PEAK n j, 31, 16⟩
def CD_STASH_PEAK_HIGH_DESC (n : Nat) (j : Nat) : Fld := ⟨Reg.CD_STASH_PEAK n j, 15, 0⟩
def CD_BWD_CNT_DRAIN_LATE (n : Nat) (j : Nat) : Fld := ⟨Reg.CD_BWD_CNT n j, 63, 48⟩
def CD_BWD_CNT_EPOCH_STALL (n : Nat) (j : Nat) : Fld := ⟨Reg.CD_BWD_CNT n j, 47, 32⟩
def CD_BWD_CNT_OVERFLOW (n : Nat) (j : Nat) : Fld := ⟨Reg.CD_BWD_CNT n j, 31, 16⟩
def CD_BWD_CNT_UNBOUND (n : Nat) (j : Nat) : Fld := ⟨Reg.CD_BWD_CNT n j, 15, 0⟩
def CD_EPOCH_STATE0 (n : Nat) (j : Nat) (h : Nat) : Fld := ⟨Reg.CD_EPOCH n j h, 63, 62⟩
def CD_EPOCH_STATE1 (n : Nat) (j : Nat) (h : Nat) : Fld := ⟨Reg.CD_EPOCH n j h, 61, 60⟩
def CD_EPOCH_WAIT (n : Nat) (j : Nat) (h : Nat) : Fld := ⟨Reg.CD_EPOCH n j h, 59, 59⟩
def CD_EPOCH_HOLDERS (n : Nat) (j : Nat) (h : Nat) : Fld := ⟨Reg.CD_EPOCH n j h, 58, 50⟩
def CD_EPOCH_REFS (n : Nat) (j : Nat) (h : Nat) : Fld := ⟨Reg.CD_EPOCH n j h, 49, 40⟩
def CD_EPOCH_USED (n : Nat) (j : Nat) (h : Nat) : Fld := ⟨Reg.CD_EPOCH n j h, 39, 39⟩
def CD_EPOCH_EPOCH (n : Nat) (j : Nat) (h : Nat) : Fld := ⟨Reg.CD_EPOCH n j h, 31, 0⟩
def CL_WGQ_ENTRIES (n : Nat) (k : Nat) : Fld := ⟨Reg.CL_WGQ n k, 63, 57⟩
def CL_WGQ_HEAD (n : Nat) (k : Nat) : Fld := ⟨Reg.CL_WGQ n k, 56, 55⟩
def CL_WGQ_YIELDS (n : Nat) (k : Nat) : Fld := ⟨Reg.CL_WGQ n k, 47, 32⟩
def CL_WGQ_DEFERRED (n : Nat) (k : Nat) : Fld := ⟨Reg.CL_WGQ n k, 31, 0⟩
def RLY_ENG_ROLE (e : Nat) : Fld := ⟨Reg.RLY_ENG e, 63, 62⟩
def RLY_ENG_LOGICAL (e : Nat) : Fld := ⟨Reg.RLY_ENG e, 61, 57⟩
def RLY_ENG_CTX1 (e : Nat) : Fld := ⟨Reg.RLY_ENG e, 56, 52⟩
def RLY_ENG_CTX2 (e : Nat) : Fld := ⟨Reg.RLY_ENG e, 51, 47⟩
def RLY_ENG_CTX3 (e : Nat) : Fld := ⟨Reg.RLY_ENG e, 46, 42⟩
def RLY_ENG_BLOCKS (e : Nat) : Fld := ⟨Reg.RLY_ENG e, 31, 0⟩
def RLY_JOB_ID_IDS (i : Nat) : Fld := ⟨Reg.RLY_JOB_ID i, 63, 0⟩
def RLY_REJECT_COUNT : Fld := ⟨Reg.RLY_REJECT, 63, 32⟩
def RLY_REJECT_LAST_JOB : Fld := ⟨Reg.RLY_REJECT, 31, 20⟩
def RLY_REJECT_LAST_PORT : Fld := ⟨Reg.RLY_REJECT, 19, 14⟩
def RLY_CFG_INIT_EXP (j : Nat) : Fld := ⟨Reg.RLY_CFG j, 63, 56⟩
def RLY_CFG_PLAN_ENTRIES (j : Nat) : Fld := ⟨Reg.RLY_CFG j, 55, 43⟩
def RLY_CFG_SCALE_ENTRIES (j : Nat) : Fld := ⟨Reg.RLY_CFG j, 42, 15⟩
def RLY_PLAN_PLAN (j : Nat) : Fld := ⟨Reg.RLY_PLAN j, 45, 5⟩
def RLY_LIST_LIST (j : Nat) : Fld := ⟨Reg.RLY_LIST j, 45, 15⟩
def RLY_SCALE_SCALE (j : Nat) : Fld := ⟨Reg.RLY_SCALE j, 45, 12⟩
def RLY_CNT_CLIPS (j : Nat) : Fld := ⟨Reg.RLY_CNT j, 63, 40⟩
def RLY_CNT_CRC_RESEND (j : Nat) : Fld := ⟨Reg.RLY_CNT j, 39, 24⟩
def RLY_CNT_INCOMPLETE (j : Nat) : Fld := ⟨Reg.RLY_CNT j, 23, 8⟩
def RLY_CNT_STEP_REJ (j : Nat) : Fld := ⟨Reg.RLY_CNT j, 7, 0⟩
def HRD_SCHED_HURDLE_OFFSET (j : Nat) : Fld := ⟨Reg.HRD_SCHED j, 63, 32⟩
def HRD_SCHED_DRAIN_LEAD (j : Nat) : Fld := ⟨Reg.HRD_SCHED j, 31, 12⟩
def HRD_MARK_H (j : Nat) : Fld := ⟨Reg.HRD_MARK j, 63, 0⟩
def HRD_CONTRIB_WORD (j : Nat) : Fld := ⟨Reg.HRD_CONTRIB j, 63, 0⟩
def HRD_OUTCOME_WORD (j : Nat) : Fld := ⟨Reg.HRD_OUTCOME j, 63, 0⟩
def HRD_RESULT_KIND (j : Nat) : Fld := ⟨Reg.HRD_RESULT j, 63, 62⟩
def HRD_RESULT_LATE (j : Nat) : Fld := ⟨Reg.HRD_RESULT j, 61, 61⟩
def HRD_RESULT_DELTA (j : Nat) : Fld := ⟨Reg.HRD_RESULT j, 60, 59⟩
def HRD_RESULT_ABSENT (j : Nat) : Fld := ⟨Reg.HRD_RESULT j, 58, 45⟩
def HRD_RESULT_FIRST_ABSENT (j : Nat) : Fld := ⟨Reg.HRD_RESULT j, 44, 32⟩
def HRD_RESULT_ARRIVAL (j : Nat) : Fld := ⟨Reg.HRD_RESULT j, 31, 0⟩
def HRD_ROLE_MODIDX (j : Nat) : Fld := ⟨Reg.HRD_ROLE j, 63, 51⟩
def HRD_ROLE_MEMBERS (j : Nat) : Fld := ⟨Reg.HRD_ROLE j, 50, 37⟩
def HRD_ROLE_LEVELS (j : Nat) : Fld := ⟨Reg.HRD_ROLE j, 36, 35⟩
def HRD_ROLE_COL1 (j : Nat) : Fld := ⟨Reg.HRD_ROLE j, 34, 34⟩
def HRD_ROLE_COL2 (j : Nat) : Fld := ⟨Reg.HRD_ROLE j, 33, 33⟩
def HRD_ROLE_ROOT (j : Nat) : Fld := ⟨Reg.HRD_ROLE j, 32, 32⟩
def HRD_ROLE_MIRROR (j : Nat) : Fld := ⟨Reg.HRD_ROLE j, 31, 31⟩
def HRD_FLAGS_CLIP (j : Nat) : Fld := ⟨Reg.HRD_FLAGS j, 63, 63⟩
def HRD_FLAGS_ABORT (j : Nat) : Fld := ⟨Reg.HRD_FLAGS j, 62, 62⟩
def HRD_CNT_COMMITS (j : Nat) : Fld := ⟨Reg.HRD_CNT j, 63, 32⟩
def HRD_CNT_SKIPS (j : Nat) : Fld := ⟨Reg.HRD_CNT j, 31, 16⟩
def HRD_CNT_HALTS (j : Nat) : Fld := ⟨Reg.HRD_CNT j, 15, 10⟩
def HRD_CNT_LATE (j : Nat) : Fld := ⟨Reg.HRD_CNT j, 9, 5⟩
def HRD_CNT_BAD_MSG (j : Nat) : Fld := ⟨Reg.HRD_CNT j, 4, 0⟩
def ACM_ID_POD : Fld := ⟨Reg.ACM_ID, 63, 56⟩
def ACM_ID_POS : Fld := ⟨Reg.ACM_ID, 55, 51⟩
def ACM_ID_LINKS : Fld := ⟨Reg.ACM_ID, 50, 42⟩
def ACM_ID_PORTS_UP : Fld := ⟨Reg.ACM_ID, 41, 36⟩
def ACM_ID_RESERVE_FREE : Fld := ⟨Reg.ACM_ID, 35, 32⟩
def ACM_CFG_FI : Fld := ⟨Reg.ACM_CFG, 63, 51⟩
def ACM_CFG_PODS : Fld := ⟨Reg.ACM_CFG, 50, 42⟩
def ACM_POWER_OPTICS_W : Fld := ⟨Reg.ACM_POWER, 63, 48⟩
def ACM_POWER_LASER_W : Fld := ⟨Reg.ACM_POWER, 47, 32⟩
def ACM_ROUTE_CNT_DROP : Fld := ⟨Reg.ACM_ROUTE_CNT, 63, 32⟩
def ACM_ROUTE_CNT_DETOUR : Fld := ⟨Reg.ACM_ROUTE_CNT, 31, 16⟩
def ACM_LASER_PRESENT (d : Nat) : Fld := ⟨Reg.ACM_LASER d, 63, 63⟩
def ACM_LASER_READY (d : Nat) : Fld := ⟨Reg.ACM_LASER d, 62, 62⟩
def ACM_LASER_FAULT (d : Nat) : Fld := ⟨Reg.ACM_LASER d, 61, 61⟩
def ACM_LASER_OK (d : Nat) : Fld := ⟨Reg.ACM_LASER d, 60, 53⟩
def ACM_LASER_TEMP (d : Nat) : Fld := ⟨Reg.ACM_LASER d, 52, 45⟩
def ACM_LASER_POWER (d : Nat) : Fld := ⟨Reg.ACM_LASER d, 44, 33⟩
def ACM_PORT_STAT_STATE (p : Nat) : Fld := ⟨Reg.ACM_PORT_STAT p, 63, 60⟩
def ACM_PORT_STAT_ROLE (p : Nat) : Fld := ⟨Reg.ACM_PORT_STAT p, 59, 58⟩
def ACM_PORT_STAT_INDEX (p : Nat) : Fld := ⟨Reg.ACM_PORT_STAT p, 57, 53⟩
def ACM_PORT_STAT_ENGINE (p : Nat) : Fld := ⟨Reg.ACM_PORT_STAT p, 52, 48⟩
def ACM_PORT_STAT_CAUSE (p : Nat) : Fld := ⟨Reg.ACM_PORT_STAT p, 47, 44⟩
def ACM_PORT_STAT_PEER_FI (p : Nat) : Fld := ⟨Reg.ACM_PORT_STAT p, 43, 31⟩
def ACM_PORT_STAT_PEER_PORT (p : Nat) : Fld := ⟨Reg.ACM_PORT_STAT p, 30, 25⟩
def ACM_PORT_STAT_SWAPPED (p : Nat) : Fld := ⟨Reg.ACM_PORT_STAT p, 24, 24⟩
def ACM_PORT_FEC_CORRECTED (p : Nat) : Fld := ⟨Reg.ACM_PORT_FEC p, 63, 32⟩
def ACM_PORT_FEC_UNCORR (p : Nat) : Fld := ⟨Reg.ACM_PORT_FEC p, 31, 16⟩
def ACM_PORT_FEC_BER_E (p : Nat) : Fld := ⟨Reg.ACM_PORT_FEC p, 15, 8⟩
def ACM_PORT_CNT_REPLAY (p : Nat) : Fld := ⟨Reg.ACM_PORT_CNT p, 63, 48⟩
def ACM_PORT_CNT_CRC_ERR (p : Nat) : Fld := ⟨Reg.ACM_PORT_CNT p, 47, 32⟩
def ACM_PORT_CNT_RETRAIN (p : Nat) : Fld := ⟨Reg.ACM_PORT_CNT p, 31, 24⟩
def ACM_PORT_CNT_LMOS_ERR (p : Nat) : Fld := ⟨Reg.ACM_PORT_CNT p, 23, 16⟩
def ACM_PORT_CNT_DOWN (p : Nat) : Fld := ⟨Reg.ACM_PORT_CNT p, 15, 8⟩
def ACM_PORT_CNT_MISMATCH (p : Nat) : Fld := ⟨Reg.ACM_PORT_CNT p, 7, 0⟩
def ACM_PEERWIN_SIZE (j : Nat) : Fld := ⟨Reg.ACM_PEERWIN j, 63, 48⟩
def ACM_PEERWIN_BASE (j : Nat) : Fld := ⟨Reg.ACM_PEERWIN j, 45, 21⟩
def ACM_JOBMAP_BASE (j : Nat) : Fld := ⟨Reg.ACM_JOBMAP j, 45, 14⟩
def CRM_STATUS_DOMAIN : Fld := ⟨Reg.CRM_STATUS, 63, 62⟩
def CRM_STATUS_RETRAINING : Fld := ⟨Reg.CRM_STATUS, 61, 36⟩
def CRM_STOP_VALID : Fld := ⟨Reg.CRM_STOP, 63, 63⟩
def CRM_STOP_CAUSE : Fld := ⟨Reg.CRM_STOP, 62, 59⟩
def CRM_STOP_DETAIL : Fld := ⟨Reg.CRM_STOP, 58, 51⟩
def CRM_STOP_AGENT : Fld := ⟨Reg.CRM_STOP, 50, 35⟩
def CRM_STOP_LAP_LAP : Fld := ⟨Reg.CRM_STOP_LAP, 63, 0⟩
def CRM_STOP_ADDR_LINE : Fld := ⟨Reg.CRM_STOP_ADDR, 45, 6⟩
def CRM_CFG_LOCK_EN : Fld := ⟨Reg.CRM_CFG, 63, 63⟩
def CRM_BIAS_CMD_BIAS : Fld := ⟨Reg.CRM_BIAS_CMD, 63, 62⟩
def CRM_BIAS_CMD_COUNT : Fld := ⟨Reg.CRM_BIAS_CMD, 61, 53⟩
def CRM_BIAS_CMD_FRAME : Fld := ⟨Reg.CRM_BIAS_CMD, 45, 12⟩
def CRM_BIAS_STAT_BUSY : Fld := ⟨Reg.CRM_BIAS_STAT, 63, 63⟩
def CRM_BIAS_STAT_RESULT : Fld := ⟨Reg.CRM_BIAS_STAT, 62, 60⟩
def CRM_BIAS_STAT_DONE : Fld := ⟨Reg.CRM_BIAS_STAT, 59, 50⟩
def CRM_BIAS_STAT_UNDONE : Fld := ⟨Reg.CRM_BIAS_STAT, 49, 40⟩
def CRM_LOCK_FAULT_CORE : Fld := ⟨Reg.CRM_LOCK_FAULT, 63, 56⟩
def CRM_LOCK_FAULT_FRAME : Fld := ⟨Reg.CRM_LOCK_FAULT, 45, 12⟩
def CRM_LOCK_FAULT_COUNT : Fld := ⟨Reg.CRM_LOCK_FAULT, 11, 0⟩
def CRM_AGENT_STATE (a : Nat) : Fld := ⟨Reg.CRM_AGENT a, 63, 62⟩
def CRM_AGENT_MISSES (a : Nat) : Fld := ⟨Reg.CRM_AGENT a, 61, 60⟩
def CRM_AGENT_MISS_TOTAL (a : Nat) : Fld := ⟨Reg.CRM_AGENT a, 59, 44⟩
def CRM_AGENT_WORST_NS (a : Nat) : Fld := ⟨Reg.CRM_AGENT a, 43, 32⟩
def CRM_AGENT_SNOOPS (a : Nat) : Fld := ⟨Reg.CRM_AGENT a, 31, 0⟩
def CRM_HOME_DIR_CE (h : Nat) : Fld := ⟨Reg.CRM_HOME h, 63, 48⟩
def CRM_HOME_BIAS_CE (h : Nat) : Fld := ⟨Reg.CRM_HOME h, 47, 32⟩
def CRM_HOME_FLIPS (h : Nat) : Fld := ⟨Reg.CRM_HOME h, 31, 16⟩
def CRM_HOME_FLIP_MAX_NS (h : Nat) : Fld := ⟨Reg.CRM_HOME h, 15, 0⟩
def CRM_LINK_STATE (l : Nat) : Fld := ⟨Reg.CRM_LINK l, 63, 62⟩
def CRM_LINK_RETRAINS (l : Nat) : Fld := ⟨Reg.CRM_LINK l, 61, 48⟩
def CRM_LINK_LAST_STALL_NS (l : Nat) : Fld := ⟨Reg.CRM_LINK l, 47, 36⟩
def CRM_LINK_REPLAYS (l : Nat) : Fld := ⟨Reg.CRM_LINK l, 35, 20⟩
def CRM_LINK_SPARES (l : Nat) : Fld := ⟨Reg.CRM_LINK l, 19, 18⟩
def XLT_STATUS_WALKERS : Fld := ⟨Reg.XLT_STATUS, 63, 57⟩
def XLT_STATUS_RECORDS : Fld := ⟨Reg.XLT_STATUS, 56, 50⟩
def XLT_STATUS_SD_QUEUED : Fld := ⟨Reg.XLT_STATUS, 49, 46⟩
def XLT_STATUS_REC_FULL : Fld := ⟨Reg.XLT_STATUS, 45, 45⟩
def XLT_CNT_WALKS : Fld := ⟨Reg.XLT_CNT, 63, 40⟩
def XLT_CNT_FAULTS : Fld := ⟨Reg.XLT_CNT, 39, 24⟩
def XLT_CNT_COALESCED : Fld := ⟨Reg.XLT_CNT, 23, 12⟩
def XLT_CNT_BIAS_STALE : Fld := ⟨Reg.XLT_CNT, 11, 0⟩
def XLT_FQ_BASE_BASE : Fld := ⟨Reg.XLT_FQ_BASE, 45, 11⟩
def XLT_FAULT_RESUME_ACTION : Fld := ⟨Reg.XLT_FAULT_RESUME, 63, 62⟩
def XLT_FAULT_RESUME_RECORD : Fld := ⟨Reg.XLT_FAULT_RESUME, 5, 0⟩
def XLT_SD_ADDR_CTX : Fld := ⟨Reg.XLT_SD_ADDR, 63, 59⟩
def XLT_SD_ADDR_VA : Fld := ⟨Reg.XLT_SD_ADDR, 47, 12⟩
def XLT_SD_CMD_NOTIFY : Fld := ⟨Reg.XLT_SD_CMD, 63, 63⟩
def XLT_SD_CMD_TOKEN : Fld := ⟨Reg.XLT_SD_CMD, 62, 48⟩
def XLT_SD_CMD_PAGES : Fld := ⟨Reg.XLT_SD_CMD, 35, 0⟩
def XLT_SD_STAT_QUEUED : Fld := ⟨Reg.XLT_SD_STAT, 63, 60⟩
def XLT_SD_STAT_RESULT : Fld := ⟨Reg.XLT_SD_STAT, 59, 58⟩
def XLT_SD_STAT_DONE_TOKEN : Fld := ⟨Reg.XLT_SD_STAT, 57, 43⟩
def XLT_SD_STAT_COUNT : Fld := ⟨Reg.XLT_SD_STAT, 42, 27⟩
def XLT_SD_STAT_WORST : Fld := ⟨Reg.XLT_SD_STAT, 26, 11⟩
def XLT_SD_LAP_LAP : Fld := ⟨Reg.XLT_SD_LAP, 63, 0⟩
def XLT_NQ_BASE_BASE : Fld := ⟨Reg.XLT_NQ_BASE, 45, 12⟩
def XLT_NQ_BASE_LOG2 : Fld := ⟨Reg.XLT_NQ_BASE, 4, 0⟩
def XLT_NQ_HEAD_HEAD : Fld := ⟨Reg.XLT_NQ_HEAD, 15, 0⟩
def XLT_TRK_THRESH (h : Nat) : Fld := ⟨Reg.XLT_TRK h, 63, 48⟩
def XLT_TRK_DECAY (h : Nat) : Fld := ⟨Reg.XLT_TRK h, 47, 44⟩
def XLT_TRK_USED (h : Nat) : Fld := ⟨Reg.XLT_TRK h, 43, 27⟩
def XLT_TRK_NOTES (h : Nat) : Fld := ⟨Reg.XLT_TRK h, 26, 11⟩
def XLT_TRK_NOTE_DROP (h : Nat) : Fld := ⟨Reg.XLT_TRK h, 10, 0⟩
def XLT_CTX_EN (c : Nat) : Fld := ⟨Reg.XLT_CTX c, 63, 63⟩
def XLT_CTX_MODE (c : Nat) : Fld := ⟨Reg.XLT_CTX c, 62, 62⟩
def XLT_CTX_ROOT (c : Nat) : Fld := ⟨Reg.XLT_CTX c, 45, 12⟩
def XLT_REC_STATE (r : Nat) : Fld := ⟨Reg.XLT_REC r, 63, 62⟩
def XLT_REC_CTX (r : Nat) : Fld := ⟨Reg.XLT_REC r, 61, 57⟩
def XLT_REC_CAUSE (r : Nat) : Fld := ⟨Reg.XLT_REC r, 56, 53⟩
def XLT_REC_W (r : Nat) : Fld := ⟨Reg.XLT_REC r, 52, 52⟩
def XLT_REC_VA (r : Nat) : Fld := ⟨Reg.XLT_REC r, 47, 12⟩
def XLT_REC_COUNT (r : Nat) : Fld := ⟨Reg.XLT_REC r, 11, 0⟩
def XLT_RECENG_ENGINES (r : Nat) : Fld := ⟨Reg.XLT_RECENG r, 63, 0⟩
def SQ_DB_TAIL (q : Nat) : Fld := ⟨Reg.SQ_DB q, 15, 0⟩
def SQ_ODB_TAIL (q : Nat) : Fld := ⟨Reg.SQ_ODB q, 15, 0⟩
def SQ_STAT_STATE (q : Nat) : Fld := ⟨Reg.SQ_STAT q, 63, 61⟩
def SQ_STAT_REASON (q : Nat) : Fld := ⟨Reg.SQ_STAT q, 60, 57⟩
def SQ_STAT_SPHASE (q : Nat) : Fld := ⟨Reg.SQ_STAT q, 56, 56⟩
def SQ_STAT_CPHASE (q : Nat) : Fld := ⟨Reg.SQ_STAT q, 55, 55⟩
def SQ_STAT_INFLIGHT (q : Nat) : Fld := ⟨Reg.SQ_STAT q, 44, 32⟩
def SQ_STAT_HEAD (q : Nat) : Fld := ⟨Reg.SQ_STAT q, 15, 0⟩
def SQ_CQH_HEAD (q : Nat) : Fld := ⟨Reg.SQ_CQH q, 15, 0⟩
def SQ_CTL_HALT (q : Nat) : Fld := ⟨Reg.SQ_CTL q, 1, 1⟩
def SQ_CTL_RESUME (q : Nat) : Fld := ⟨Reg.SQ_CTL q, 0, 0⟩
def SQ_CNT_COMPLETED (q : Nat) : Fld := ⟨Reg.SQ_CNT q, 63, 32⟩
def SQ_CNT_ERRORS (q : Nat) : Fld := ⟨Reg.SQ_CNT q, 31, 20⟩
def SQ_CNT_STALE (q : Nat) : Fld := ⟨Reg.SQ_CNT q, 19, 16⟩
def SQ_CNT_REREADS (q : Nat) : Fld := ⟨Reg.SQ_CNT q, 15, 8⟩
def SQ_CNT_DB_IGNORED (q : Nat) : Fld := ⟨Reg.SQ_CNT q, 7, 0⟩
def CPE_ENG_STATE (e : Nat) : Fld := ⟨Reg.CPE_ENG e, 63, 62⟩
def CPE_ENG_QUEUE (e : Nat) : Fld := ⟨Reg.CPE_ENG e, 61, 54⟩
def CPE_ENG_ENTRY (e : Nat) : Fld := ⟨Reg.CPE_ENG e, 53, 42⟩
def CPE_ENG_GBYTES (e : Nat) : Fld := ⟨Reg.CPE_ENG e, 31, 0⟩
def CPE_CNT_PEER_REJECT : Fld := ⟨Reg.CPE_CNT, 63, 48⟩
def CPE_CNT_PEER_LOST : Fld := ⟨Reg.CPE_CNT, 47, 32⟩
def CPE_CNT_SNAPSHOTS : Fld := ⟨Reg.CPE_CNT, 31, 16⟩
def CPE_CNT_TIER_MISMATCH : Fld := ⟨Reg.CPE_CNT, 15, 0⟩
def CPE_QRING_EN (q : Nat) : Fld := ⟨Reg.CPE_QRING q, 63, 63⟩
def CPE_QRING_LOG2 (q : Nat) : Fld := ⟨Reg.CPE_QRING q, 62, 59⟩
def CPE_QRING_BASE (q : Nat) : Fld := ⟨Reg.CPE_QRING q, 45, 12⟩
def CPE_QCPL_BASE (q : Nat) : Fld := ⟨Reg.CPE_QCPL q, 45, 12⟩
def CPE_QBIND_CLASS (q : Nat) : Fld := ⟨Reg.CPE_QBIND q, 63, 62⟩
def CPE_QBIND_CTX (q : Nat) : Fld := ⟨Reg.CPE_QBIND q, 61, 57⟩
def CPE_QBIND_ENGINES (q : Nat) : Fld := ⟨Reg.CPE_QBIND q, 47, 32⟩
def CPE_QFRAME_BASE (q : Nat) : Fld := ⟨Reg.CPE_QFRAME q, 45, 13⟩
def CPE_QIRQ_EN (q : Nat) : Fld := ⟨Reg.CPE_QIRQ q, 63, 63⟩
def CPE_QIRQ_HART (q : Nat) : Fld := ⟨Reg.CPE_QIRQ q, 62, 55⟩
def CPE_QIRQ_FILE (q : Nat) : Fld := ⟨Reg.CPE_QIRQ q, 54, 49⟩
def CPE_QIRQ_EIID (q : Nat) : Fld := ⟨Reg.CPE_QIRQ q, 10, 0⟩
def STR_HRST_KIND : Fld := ⟨Reg.STR_HRST, 63, 62⟩
def STR_HRST_DIE : Fld := ⟨Reg.STR_HRST, 61, 61⟩
def STR_HOST_STATE (h : Nat) : Fld := ⟨Reg.STR_HOST h, 63, 61⟩
def STR_HOST_REFUSAL (h : Nat) : Fld := ⟨Reg.STR_HOST h, 60, 58⟩
def STR_HOST_CC_RESETS (h : Nat) : Fld := ⟨Reg.STR_HOST h, 57, 42⟩
def STR_HOST_HD_RESETS (h : Nat) : Fld := ⟨Reg.STR_HOST h, 41, 34⟩
def STR_HOST_IRQ_DROP (h : Nat) : Fld := ⟨Reg.STR_HOST h, 33, 18⟩
def STR_HOST_RANGE_FAULT (h : Nat) : Fld := ⟨Reg.STR_HOST h, 17, 2⟩
def STR_HOSTVEC_VEC (h : Nat) : Fld := ⟨Reg.STR_HOSTVEC h, 45, 2⟩
def STR_PCIE_UP (p : Nat) : Fld := ⟨Reg.STR_PCIE p, 63, 63⟩
def STR_PCIE_SPEED (p : Nat) : Fld := ⟨Reg.STR_PCIE p, 62, 59⟩
def STR_PCIE_WIDTH (p : Nat) : Fld := ⟨Reg.STR_PCIE p, 58, 54⟩
def STR_PCIE_FLIT (p : Nat) : Fld := ⟨Reg.STR_PCIE p, 53, 53⟩
def STR_PCIE_LOCK_ABORT (p : Nat) : Fld := ⟨Reg.STR_PCIE p, 52, 37⟩
def STR_PCIE_DPC (p : Nat) : Fld := ⟨Reg.STR_PCIE p, 36, 21⟩
def PRM_ENG_STAT_STATE (e : Nat) : Fld := ⟨Reg.PRM_ENG_STAT e, 63, 61⟩
def PRM_ENG_STAT_CTX (e : Nat) : Fld := ⟨Reg.PRM_ENG_STAT e, 60, 55⟩
def PRM_ENG_STAT_OPEN (e : Nat) : Fld := ⟨Reg.PRM_ENG_STAT e, 54, 48⟩
def PRM_ENG_STAT_FRAMES (e : Nat) : Fld := ⟨Reg.PRM_ENG_STAT e, 31, 0⟩
def PRM_SURF_SURFACES (e : Nat) : Fld := ⟨Reg.PRM_SURF e, 63, 53⟩
def PRM_SURF_BASE (e : Nat) : Fld := ⟨Reg.PRM_SURF e, 45, 12⟩
def PRM_STATUS_BASE (e : Nat) : Fld := ⟨Reg.PRM_STATUS e, 45, 18⟩
def PRM_CNT_DAMAGED (e : Nat) : Fld := ⟨Reg.PRM_CNT e, 63, 48⟩
def PRM_CNT_REF_SUB (e : Nat) : Fld := ⟨Reg.PRM_CNT e, 47, 36⟩
def PRM_CNT_GUARD (e : Nat) : Fld := ⟨Reg.PRM_CNT e, 35, 24⟩
def PRM_CNT_CLIPPED (e : Nat) : Fld := ⟨Reg.PRM_CNT e, 23, 12⟩
def PRM_CNT_RC_TIMEOUT (e : Nat) : Fld := ⟨Reg.PRM_CNT e, 11, 0⟩
def PRM_BUSY_CYCLES (e : Nat) : Fld := ⟨Reg.PRM_BUSY e, 63, 0⟩
def PRM_FW_VERSION : Fld := ⟨Reg.PRM_FW, 63, 32⟩
def PRM_CTX_OPEN (e : Nat) (c : Nat) : Fld := ⟨Reg.PRM_CTX e c, 63, 63⟩
def PRM_CTX_DIR (e : Nat) (c : Nat) : Fld := ⟨Reg.PRM_CTX e c, 62, 61⟩
def PRM_CTX_CODEC (e : Nat) (c : Nat) : Fld := ⟨Reg.PRM_CTX e c, 60, 59⟩
def PRM_CTX_TCTX (e : Nat) (c : Nat) : Fld := ⟨Reg.PRM_CTX e c, 58, 54⟩
def PRM_CTX_WIDTH (e : Nat) (c : Nat) : Fld := ⟨Reg.PRM_CTX e c, 53, 40⟩
def PRM_CTX_HEIGHT (e : Nat) (c : Nat) : Fld := ⟨Reg.PRM_CTX e c, 39, 26⟩
def PRM_CTX_COMMANDS (e : Nat) (c : Nat) : Fld := ⟨Reg.PRM_CTX e c, 25, 0⟩
def PCE_CFG_LIMIT_W : Fld := ⟨Reg.PCE_CFG, 63, 48⟩
def PCE_CFG_PEAK_W : Fld := ⟨Reg.PCE_CFG, 47, 32⟩
def PCE_CFG_RAMP : Fld := ⟨Reg.PCE_CFG, 31, 20⟩
def PCE_CFG_THROTTLE_C : Fld := ⟨Reg.PCE_CFG, 19, 13⟩
def PCE_CFG_STRETCH_PPM : Fld := ⟨Reg.PCE_CFG, 12, 0⟩
def PCE_STATUS_SUS_W : Fld := ⟨Reg.PCE_STATUS, 63, 48⟩
def PCE_STATUS_PEAK_MAX_W : Fld := ⟨Reg.PCE_STATUS, 47, 32⟩
def PCE_STATUS_G : Fld := ⟨Reg.PCE_STATUS, 31, 27⟩
def PCE_STATUS_CONV_FAILED : Fld := ⟨Reg.PCE_STATUS, 26, 24⟩
def PCE_STATUS_CEILING : Fld := ⟨Reg.PCE_STATUS, 23, 20⟩
def PCE_STATUS_EFF_LIMIT_W : Fld := ⟨Reg.PCE_STATUS, 19, 4⟩
def PCE_TABLE_FREQ_MHZ (p : Nat) : Fld := ⟨Reg.PCE_TABLE p, 63, 52⟩
def PCE_TABLE_VNOM_MV (p : Nat) : Fld := ⟨Reg.PCE_TABLE p, 51, 42⟩
def PCE_TABLE_W (p : Nat) : Fld := ⟨Reg.PCE_TABLE p, 41, 31⟩
def PCE_SLOT_START (j : Nat) : Fld := ⟨Reg.PCE_SLOT j, 63, 60⟩
def PCE_SLOT_FASTEST (j : Nat) : Fld := ⟨Reg.PCE_SLOT j, 59, 56⟩
def PCE_SLOT_LIVE (j : Nat) : Fld := ⟨Reg.PCE_SLOT j, 55, 52⟩
def PCE_SLOT_PROPOSED (j : Nat) : Fld := ⟨Reg.PCE_SLOT j, 51, 48⟩
def PCE_SLOT_CAUSE (j : Nat) : Fld := ⟨Reg.PCE_SLOT j, 47, 46⟩
def PCE_SLOT_LOCAL_PPM (j : Nat) : Fld := ⟨Reg.PCE_SLOT j, 45, 32⟩
def PCE_SLOT_BUDGET_W (j : Nat) : Fld := ⟨Reg.PCE_SLOT j, 31, 16⟩
def PCE_SLOT_SLOT_W (j : Nat) : Fld := ⟨Reg.PCE_SLOT j, 15, 0⟩
def PCE_VOTE_DECIDED (j : Nat) : Fld := ⟨Reg.PCE_VOTE j, 63, 60⟩
def PCE_VOTE_FIRST (j : Nat) : Fld := ⟨Reg.PCE_VOTE j, 59, 47⟩
def PCE_VOTE_ABSENT (j : Nat) : Fld := ⟨Reg.PCE_VOTE j, 46, 46⟩
def PCE_VOTE_LATE (j : Nat) : Fld := ⟨Reg.PCE_VOTE j, 45, 45⟩
def PCE_VOTE_ARRIVAL (j : Nat) : Fld := ⟨Reg.PCE_VOTE j, 31, 0⟩
def PCE_CNT_CHANGES : Fld := ⟨Reg.PCE_CNT, 63, 48⟩
def PCE_CNT_VOTE_LATE : Fld := ⟨Reg.PCE_CNT, 47, 32⟩
def PCE_CNT_THROTTLE_US : Fld := ⟨Reg.PCE_CNT, 31, 0⟩
def PCE_CORE_TARGET (c : Nat) : Fld := ⟨Reg.PCE_CORE c, 63, 59⟩
def PCE_CORE_LIVE (c : Nat) : Fld := ⟨Reg.PCE_CORE c, 58, 54⟩
def PCE_CORE_THERMAL (c : Nat) : Fld := ⟨Reg.PCE_CORE c, 53, 53⟩
def MON_TEMP_TEMP (s : Nat) : Fld := ⟨Reg.MON_TEMP s, 63, 52⟩
def MON_TEMP_MAX (s : Nat) : Fld := ⟨Reg.MON_TEMP s, 51, 40⟩
def MON_VMON_MV (v : Nat) : Fld := ⟨Reg.MON_VMON v, 63, 52⟩
def MON_VMON_MIN_MV (v : Nat) : Fld := ⟨Reg.MON_VMON v, 51, 40⟩
def MON_RAIL_MV (r : Nat) : Fld := ⟨Reg.MON_RAIL r, 63, 52⟩
def MON_RAIL_DA (r : Nat) : Fld := ⟨Reg.MON_RAIL r, 51, 36⟩
def MON_RAIL_W (r : Nat) : Fld := ⟨Reg.MON_RAIL r, 35, 20⟩
def MON_BUS_OK (k : Nat) : Fld := ⟨Reg.MON_BUS k, 63, 63⟩
def MON_BUS_IN_MV (k : Nat) : Fld := ⟨Reg.MON_BUS k, 62, 47⟩
def MON_BUS_IN_CA (k : Nat) : Fld := ⟨Reg.MON_BUS k, 46, 33⟩
def MON_BUS_OUT_W (k : Nat) : Fld := ⟨Reg.MON_BUS k, 32, 17⟩
def MON_INPUT_MV : Fld := ⟨Reg.MON_INPUT, 63, 48⟩
def MON_INPUT_CA : Fld := ⟨Reg.MON_INPUT, 47, 32⟩
def MON_INPUT_W : Fld := ⟨Reg.MON_INPUT, 31, 16⟩
def MON_TRIP_VALID : Fld := ⟨Reg.MON_TRIP, 63, 63⟩
def MON_TRIP_CAUSE : Fld := ⟨Reg.MON_TRIP, 62, 61⟩
def MON_TRIP_SENSOR : Fld := ⟨Reg.MON_TRIP, 60, 51⟩
def MON_TRIP_READING : Fld := ⟨Reg.MON_TRIP, 50, 39⟩
def MON_TRIP_LAP : Fld := ⟨Reg.MON_TRIP, 38, 0⟩
def CL_PWR_DROOPS (n : Nat) (k : Nat) : Fld := ⟨Reg.CL_PWR n k, 63, 48⟩
def CL_PWR_STRETCH (n : Nat) (k : Nat) : Fld := ⟨Reg.CL_PWR n k, 47, 16⟩
def CL_PWR_RO_MHZ (n : Nat) (k : Nat) : Fld := ⟨Reg.CL_PWR n k, 15, 0⟩
def STR_ID_CAP_GIB : Fld := ⟨Reg.STR_ID, 63, 52⟩
def STR_ID_STEPPING : Fld := ⟨Reg.STR_ID, 51, 48⟩
def STR_ID_SERIAL : Fld := ⟨Reg.STR_ID, 47, 0⟩
def STR_START_STATE : Fld := ⟨Reg.STR_START, 63, 60⟩
def STR_START_FAIL_STEP : Fld := ⟨Reg.STR_START, 59, 56⟩
def STR_START_CAUSE : Fld := ⟨Reg.STR_START, 55, 48⟩
def STR_START_UNIT : Fld := ⟨Reg.STR_START, 47, 32⟩
def STR_START_READY_MS : Fld := ⟨Reg.STR_START, 31, 16⟩
def STR_IMAGE_SLOT : Fld := ⟨Reg.STR_IMAGE, 63, 63⟩
def STR_IMAGE_FALLBACK : Fld := ⟨Reg.STR_IMAGE, 62, 62⟩
def STR_IMAGE_KEY : Fld := ⟨Reg.STR_IMAGE, 61, 60⟩
def STR_IMAGE_ROLLBACK : Fld := ⟨Reg.STR_IMAGE, 31, 0⟩
def STR_BUILD_BUILD : Fld := ⟨Reg.STR_BUILD, 63, 0⟩
def STR_ROLE_CLASS : Fld := ⟨Reg.STR_ROLE, 63, 62⟩
def STR_ROLE_MAX_MODULES : Fld := ⟨Reg.STR_ROLE, 61, 48⟩
def STR_ROLE_PCIE0 : Fld := ⟨Reg.STR_ROLE, 47, 46⟩
def STR_ROLE_PCIE1 : Fld := ⟨Reg.STR_ROLE, 45, 44⟩
def STR_FUSE_ROLLBACK_MIN : Fld := ⟨Reg.STR_FUSE, 63, 32⟩
def STR_FUSE_KEYS : Fld := ⟨Reg.STR_FUSE, 31, 28⟩
def STR_RING_EN : Fld := ⟨Reg.STR_RING, 63, 63⟩
def STR_RING_LOG2 : Fld := ⟨Reg.STR_RING, 62, 58⟩
def STR_RING_BASE : Fld := ⟨Reg.STR_RING, 45, 12⟩
def STR_RING_HEAD_HEAD : Fld := ⟨Reg.STR_RING_HEAD, 15, 0⟩
def STR_RING_IRQ_EN : Fld := ⟨Reg.STR_RING_IRQ, 63, 63⟩
def STR_RING_IRQ_HART : Fld := ⟨Reg.STR_RING_IRQ, 62, 55⟩
def STR_RING_IRQ_FILE : Fld := ⟨Reg.STR_RING_IRQ, 54, 49⟩
def STR_RING_IRQ_MINSEV : Fld := ⟨Reg.STR_RING_IRQ, 48, 46⟩
def STR_RING_IRQ_EIID : Fld := ⟨Reg.STR_RING_IRQ, 10, 0⟩
def STR_RING_CNT_WRITTEN : Fld := ⟨Reg.STR_RING_CNT, 63, 32⟩
def STR_RING_CNT_DROPPED : Fld := ⟨Reg.STR_RING_CNT, 31, 16⟩
def STR_RING_CNT_HELD : Fld := ⟨Reg.STR_RING_CNT, 15, 8⟩
def STR_RING_CNT_FATAL_DROP : Fld := ⟨Reg.STR_RING_CNT, 7, 0⟩
def SHD_CTL_OP : Fld := ⟨Reg.SHD_CTL, 63, 61⟩
def SHD_CTL_AREA : Fld := ⟨Reg.SHD_CTL, 60, 56⟩
def SHD_ARM_T_T : Fld := ⟨Reg.SHD_ARM_T, 63, 0⟩
def SHD_PEEK_ADDR_OFFSET : Fld := ⟨Reg.SHD_PEEK_ADDR, 27, 3⟩
def SHD_PEEK_DATA_STAGED : Fld := ⟨Reg.SHD_PEEK_DATA, 63, 0⟩
def SHD_CNT_SWAPS : Fld := ⟨Reg.SHD_CNT, 63, 48⟩
def SHD_CNT_CHECK_FAIL : Fld := ⟨Reg.SHD_CNT, 47, 32⟩
def SHD_CNT_VOTE_FAIL : Fld := ⟨Reg.SHD_CNT, 31, 16⟩
def SHD_CNT_WRITE_IGN : Fld := ⟨Reg.SHD_CNT, 15, 0⟩
def SHD_STAT_STATE (a : Nat) : Fld := ⟨Reg.SHD_STAT a, 63, 61⟩
def SHD_STAT_JOB (a : Nat) : Fld := ⟨Reg.SHD_STAT a, 60, 60⟩
def SHD_STAT_RESULT (a : Nat) : Fld := ⟨Reg.SHD_STAT a, 59, 53⟩
def SHD_STAT_TARGET (a : Nat) : Fld := ⟨Reg.SHD_STAT a, 39, 0⟩
def SHD_SLOT_REQUEST (n : Nat) : Fld := ⟨Reg.SHD_SLOT n, 63, 61⟩
def SHD_SLOT_JOB_ID (n : Nat) : Fld := ⟨Reg.SHD_SLOT n, 55, 44⟩
def SHD_SLOT_PARTITIONS (n : Nat) : Fld := ⟨Reg.SHD_SLOT n, 31, 0⟩
def SHD_MEMB_MEMBERS (n : Nat) : Fld := ⟨Reg.SHD_MEMB n, 63, 50⟩
def SHD_MEMB_MODIDX (n : Nat) : Fld := ⟨Reg.SHD_MEMB n, 49, 37⟩
def SHD_VOTE_PASS (j : Nat) : Fld := ⟨Reg.SHD_VOTE j, 63, 63⟩
def SHD_VOTE_FAIL (j : Nat) : Fld := ⟨Reg.SHD_VOTE j, 62, 56⟩
def SHD_VOTE_FIRST_FAIL (j : Nat) : Fld := ⟨Reg.SHD_VOTE j, 55, 43⟩
def SHD_VOTE_LO_IDX (j : Nat) : Fld := ⟨Reg.SHD_VOTE j, 42, 30⟩
def SHD_VOTE_HI_IDX (j : Nat) : Fld := ⟨Reg.SHD_VOTE j, 29, 17⟩
def SHD_VOTE_ABSENT (j : Nat) : Fld := ⟨Reg.SHD_VOTE j, 16, 3⟩
def SHD_DIGEST_DIGEST (j : Nat) : Fld := ⟨Reg.SHD_DIGEST j, 63, 0⟩
def RES_CFG_SPARE : Fld := ⟨Reg.RES_CFG, 63, 63⟩
def RES_CFG_ROTATE_EVERY : Fld := ⟨Reg.RES_CFG, 62, 47⟩
def RES_CFG_TEST_PERIOD : Fld := ⟨Reg.RES_CFG, 46, 35⟩
def RES_CFG_FWD_GBS : Fld := ⟨Reg.RES_CFG, 34, 27⟩
def RES_TEST_CNT_PASSED : Fld := ⟨Reg.RES_TEST_CNT, 63, 48⟩
def RES_TEST_CNT_FAILED : Fld := ⟨Reg.RES_TEST_CNT, 47, 32⟩
def RES_TEST_CNT_DEFERRED : Fld := ⟨Reg.RES_TEST_CNT, 31, 16⟩
def RES_TEST_CNT_IN_HALT : Fld := ⟨Reg.RES_TEST_CNT, 15, 0⟩
def RES_CKPT_CFG_EVERY (j : Nat) : Fld := ⟨Reg.RES_CKPT_CFG j, 63, 48⟩
def RES_CKPT_CFG_COPY1 (j : Nat) : Fld := ⟨Reg.RES_CKPT_CFG j, 47, 35⟩
def RES_CKPT_CFG_COPY2 (j : Nat) : Fld := ⟨Reg.RES_CKPT_CFG j, 34, 22⟩
def RES_CKPT_CTL_REQ (j : Nat) : Fld := ⟨Reg.RES_CKPT_CTL j, 63, 63⟩
def RES_CKPT_CTL_DRAINED1 (j : Nat) : Fld := ⟨Reg.RES_CKPT_CTL j, 62, 62⟩
def RES_CKPT_CTL_DRAINED2 (j : Nat) : Fld := ⟨Reg.RES_CKPT_CTL j, 61, 61⟩
def RES_REG_ENTRIES (j : Nat) : Fld := ⟨Reg.RES_REG j, 63, 53⟩
def RES_REG_BASE (j : Nat) : Fld := ⟨Reg.RES_REG j, 45, 5⟩
def RES_PART_SIZE_GIB (j : Nat) : Fld := ⟨Reg.RES_PART j, 63, 53⟩
def RES_PART_BASE (j : Nat) : Fld := ⟨Reg.RES_PART j, 45, 21⟩
def RES_HALT_K (j : Nat) : Fld := ⟨Reg.RES_HALT j, 63, 0⟩
def RES_RESUME_Z (j : Nat) : Fld := ⟨Reg.RES_RESUME j, 63, 0⟩
def RES_CKPT_STAT_STATE (j : Nat) : Fld := ⟨Reg.RES_CKPT_STAT j, 63, 61⟩
def RES_CKPT_STAT_SEGS (j : Nat) : Fld := ⟨Reg.RES_CKPT_STAT j, 60, 47⟩
def RES_CKPT_STAT_SEGS_TOTAL (j : Nat) : Fld := ⟨Reg.RES_CKPT_STAT j, 46, 33⟩
def RES_CKPT_STAT_G (j : Nat) : Fld := ⟨Reg.RES_CKPT_STAT j, 32, 13⟩
def RES_CKPT_STAT_FIRST (j : Nat) : Fld := ⟨Reg.RES_CKPT_STAT j, 12, 0⟩
def RES_MDIGEST_DIGEST (j : Nat) (w : Nat) : Fld := ⟨Reg.RES_MDIGEST j w, 63, 0⟩
def RES_VERIFY_OP (j : Nat) : Fld := ⟨Reg.RES_VERIFY j, 63, 62⟩
def RES_VERIFY_STATE (j : Nat) : Fld := ⟨Reg.RES_VERIFY j, 61, 60⟩
def RES_VERIFY_CAUSE (j : Nat) : Fld := ⟨Reg.RES_VERIFY j, 59, 58⟩
def RES_VERIFY_RESTORE (j : Nat) : Fld := ⟨Reg.RES_VERIFY j, 57, 57⟩
def RES_VERIFY_BAD (j : Nat) : Fld := ⟨Reg.RES_VERIFY j, 56, 43⟩
def RES_VERIFY_FIRST_BAD (j : Nat) : Fld := ⟨Reg.RES_VERIFY j, 42, 29⟩
def RES_VBASE_BASE (j : Nat) : Fld := ⟨Reg.RES_VBASE j, 45, 12⟩
def RES_VDIG_DIGEST (j : Nat) (w : Nat) : Fld := ⟨Reg.RES_VDIG j w, 63, 0⟩
def RES_CNT_HALTS (j : Nat) : Fld := ⟨Reg.RES_CNT j, 63, 48⟩
def RES_CNT_INCOMPLETE (j : Nat) : Fld := ⟨Reg.RES_CNT j, 47, 32⟩
def RES_CNT_MISMATCH (j : Nat) : Fld := ⟨Reg.RES_CNT j, 31, 16⟩
def RES_CNT_FORWARDED (j : Nat) : Fld := ⟨Reg.RES_CNT j, 15, 0⟩
def STR_PINS_PWRGD : Fld := ⟨Reg.STR_PINS, 63, 63⟩
def STR_PINS_THERMTRIP : Fld := ⟨Reg.STR_PINS, 62, 62⟩
def STR_PINS_STOP : Fld := ⟨Reg.STR_PINS, 61, 61⟩
def STR_PINS_XSPI_OWN : Fld := ⟨Reg.STR_PINS, 60, 60⟩
def STR_PINS_HDRST : Fld := ⟨Reg.STR_PINS, 59, 58⟩
def STR_PINS_MGMT_ADDR : Fld := ⟨Reg.STR_PINS, 57, 56⟩
def STR_PINS_I3C_DA : Fld := ⟨Reg.STR_PINS, 55, 49⟩
def STR_PINS_PERST : Fld := ⟨Reg.STR_PINS, 48, 41⟩
def STR_PINS_BAY_LATCH : Fld := ⟨Reg.STR_PINS, 40, 37⟩
def STR_PINS_TAP_RESET : Fld := ⟨Reg.STR_PINS, 36, 36⟩

end F

/-- The register maps, part 1 of 8. -/
def regTable0 : List RegGroup := [
  -- STR_SLOT
  ⟨0x400, [(16, 0x8)], 0, [⟨63, 63, .ro, 0, false⟩, ⟨62, 60, .ro, 0, false⟩, ⟨55, 44, .ro, 0, false⟩, ⟨43, 40, .rl, 0, false⟩, ⟨31, 0, .ro, 0, false⟩]⟩,
  -- LAP_COUNT
  ⟨0x200000, [], 9, [⟨63, 0, .ro, 0, false⟩]⟩,
  -- LAP_PHASE
  ⟨0x200008, [], 9, [⟨9, 0, .ro, 0, false⟩]⟩,
  -- LAP_STATUS
  ⟨0x200010, [], 9, [⟨63, 61, .ro, 0, false⟩, ⟨60, 59, .ro, 0, false⟩, ⟨58, 58, .ro, 0, false⟩, ⟨57, 57, .ro, 0, false⟩, ⟨56, 56, .ro, 0, false⟩, ⟨55, 40, .ro, 0, false⟩, ⟨39, 27, .ro, 0, false⟩, ⟨26, 23, .ro, 0, false⟩, ⟨22, 17, .ro, 63, false⟩, ⟨7, 0, .rl, 0, false⟩]⟩,
  -- LAP_CFG
  ⟨0x200018, [], 9, [⟨63, 62, .rs, 0, true⟩, ⟨61, 61, .rs, 0, true⟩]⟩,
  -- LAP_HOLD
  ⟨0x200020, [], 9, [⟨31, 0, .rl, 0, false⟩]⟩,
  -- LAP_REJECT
  ⟨0x200028, [], 9, [⟨63, 60, .ro, 0, false⟩, ⟨59, 56, .ro, 0, false⟩, ⟨55, 44, .ro, 0, false⟩, ⟨39, 0, .ro, 0, false⟩]⟩,
  -- LAP_CNT
  ⟨0x200030, [], 9, [⟨63, 48, .ro, 0, false⟩, ⟨47, 32, .ro, 0, false⟩, ⟨31, 16, .ro, 0, false⟩, ⟨15, 0, .ro, 0, false⟩]⟩,
  -- LAP_START
  ⟨0x200038, [], 9, [⟨63, 0, .rw, 0, false⟩]⟩,
  -- LAP_PPS_CAPTURE
  ⟨0x200040, [], 9, [⟨63, 10, .ro, 0, false⟩, ⟨9, 0, .ro, 0, false⟩]⟩,
  -- LAP_PORT_DELAY
  ⟨0x200100, [(52, 0x8)], 9, [⟨63, 63, .ro, 0, false⟩, ⟨19, 0, .ro, 0, false⟩]⟩,
  -- CD_ID
  ⟨0x1000000, [(8, 0x100000)], 9, [⟨63, 60, .ro, 0, false⟩, ⟨59, 51, .ro, 288, false⟩, ⟨50, 44, .ro, 68, false⟩]⟩,
  -- CD_PART
  ⟨0x1000100, [(8, 0x100000), (4, 0x8)], 9, [⟨63, 63, .ro, 1, false⟩, ⟨62, 62, .ro, 0, false⟩, ⟨61, 58, .ro, 0, false⟩, ⟨57, 51, .ro, 72, false⟩, ⟨50, 48, .ro, 4, false⟩, ⟨47, 44, .rl, 0, false⟩]⟩,
  -- CD_ENABLE
  ⟨0x1000200, [(8, 0x100000), (5, 0x8)], 9, [⟨63, 0, .rl, 0, true⟩]⟩,
  -- CD_ECC
  ⟨0x1000300, [(8, 0x100000)], 9, [⟨63, 48, .ro, 0, false⟩, ⟨47, 32, .ro, 0, false⟩, ⟨31, 16, .ro, 0, false⟩, ⟨15, 0, .ro, 0, false⟩]⟩,
  -- CL_STATUS
  ⟨0x1010000, [(8, 0x100000), (288, 0x800)], 9, [⟨63, 61, .ro, 0, true⟩, ⟨60, 54, .ro, 0, true⟩, ⟨53, 51, .rl, 0, false⟩, ⟨50, 50, .ro, 0, false⟩, ⟨49, 49, .ro, 0, false⟩, ⟨31, 0, .rl, 0, false⟩]⟩,
  -- CL_SLOTS
  ⟨0x1010008, [(8, 0x100000), (288, 0x800)], 9, [⟨31, 0, .rl, 0, false⟩]⟩,
  -- CL_FAULT
  ⟨0x1010010, [(8, 0x100000), (288, 0x800)], 9, [⟨63, 48, .ro, 0, false⟩, ⟨47, 40, .ro, 0, false⟩, ⟨20, 0, .ro, 0, false⟩]⟩,
  -- CL_BUSY
  ⟨0x1010018, [(8, 0x100000), (288, 0x800)], 9, [⟨63, 0, .rl, 0, false⟩]⟩,
  -- CL_STALL
  ⟨0x1010020, [(8, 0x100000), (288, 0x800)], 9, [⟨63, 32, .rl, 0, false⟩, ⟨31, 0, .rl, 0, false⟩]⟩,
  -- CL_ECC
  ⟨0x1010028, [(8, 0x100000), (288, 0x800)], 9, [⟨63, 48, .ro, 0, false⟩, ⟨47, 32, .ro, 0, false⟩]⟩,
  -- NUM_RECIPE
  ⟨0xA00100, [(3, 0x40), (6, 0x8)], 9, [⟨63, 60, .ro, 0, false⟩, ⟨59, 56, .ro, 0, false⟩, ⟨55, 52, .ro, 0, false⟩, ⟨51, 51, .ro, 0, false⟩, ⟨50, 50, .ro, 0, false⟩, ⟨49, 49, .ro, 0, false⟩, ⟨48, 48, .ro, 0, false⟩, ⟨47, 47, .ro, 0, false⟩]⟩,
  -- NUM_JOB_CFG
  ⟨0xA10000, [(16, 0x1000)], 0, [⟨63, 62, .rs, 0, true⟩, ⟨61, 61, .rs, 1, true⟩, ⟨60, 56, .rs, 8, true⟩, ⟨55, 48, .rs, 0, true⟩, ⟨47, 40, .rs, 32, true⟩, ⟨39, 24, .rs, 2000, true⟩, ⟨23, 14, .rs, 64, true⟩]⟩,
  -- NUM_JOB_INIT
  ⟨0xA10008, [(16, 0x1000)], 0, [⟨63, 56, .rs, 16, true⟩, ⟨55, 51, .rs, 0, false⟩, ⟨50, 46, .rs, 0, false⟩, ⟨43, 0, .rs, 0, false⟩]⟩]

/-- The register maps, part 2 of 8. -/
def regTable1 : List RegGroup := [
  -- NUM_SEED
  ⟨0xA10010, [(16, 0x1000)], 0, [⟨63, 0, .rs, 0, false⟩]⟩,
  -- NUM_DARK_CFG
  ⟨0xA10018, [(16, 0x1000)], 0, [⟨63, 44, .rs, 1000, true⟩, ⟨43, 28, .rs, 0, false⟩]⟩,
  -- NUM_DARK_BASE
  ⟨0xA10020, [(16, 0x1000)], 0, [⟨45, 5, .rs, 0, false⟩]⟩,
  -- NUM_SCALE
  ⟨0xA10040, [(16, 0x1000)], 0, [⟨63, 56, .rl, 0, false⟩, ⟨55, 48, .rl, 0, false⟩, ⟨47, 43, .rl, 0, false⟩, ⟨42, 38, .rl, 0, false⟩, ⟨37, 33, .rl, 0, false⟩, ⟨32, 28, .rl, 0, false⟩, ⟨27, 27, .rl, 0, false⟩, ⟨26, 26, .rl, 0, false⟩, ⟨15, 0, .rl, 0, false⟩]⟩,
  -- NUM_STEP
  ⟨0xA10048, [(16, 0x1000)], 0, [⟨43, 0, .rl, 0, false⟩]⟩,
  -- NUM_FLAGS
  ⟨0xA10050, [(16, 0x1000)], 0, [⟨63, 63, .ro, 0, false⟩, ⟨62, 62, .ro, 0, false⟩, ⟨61, 61, .ro, 0, false⟩, ⟨60, 60, .ro, 0, false⟩]⟩,
  -- NUM_CNT_CAST
  ⟨0xA10058, [(16, 0x1000)], 0, [⟨63, 32, .ro, 0, false⟩, ⟨31, 0, .ro, 0, false⟩]⟩,
  -- NUM_CNT_SCALE
  ⟨0xA10060, [(16, 0x1000)], 0, [⟨63, 48, .ro, 0, false⟩, ⟨47, 32, .ro, 0, false⟩, ⟨31, 16, .ro, 0, false⟩, ⟨15, 0, .ro, 0, false⟩]⟩,
  -- NUM_CNT_DARK
  ⟨0xA10068, [(16, 0x1000)], 0, [⟨63, 32, .ro, 0, false⟩, ⟨31, 16, .ro, 0, false⟩, ⟨15, 0, .ro, 0, false⟩]⟩,
  -- CL_SEQCNT
  ⟨0x1010030, [(8, 0x100000), (288, 0x800)], 9, [⟨63, 48, .ro, 0, false⟩, ⟨47, 32, .ro, 0, false⟩, ⟨31, 16, .ro, 0, false⟩]⟩,
  -- CL_EXC
  ⟨0x1010038, [(8, 0x100000), (288, 0x800)], 9, [⟨63, 32, .ro, 0, false⟩, ⟨31, 0, .ro, 0, false⟩]⟩,
  -- CL_WAIT
  ⟨0x1010040, [(8, 0x100000), (288, 0x800)], 9, [⟨63, 61, .rl, 0, false⟩, ⟨60, 56, .rl, 0, false⟩, ⟨39, 0, .rl, 0, false⟩]⟩,
  -- CL_RETIRED
  ⟨0x1010048, [(8, 0x100000), (288, 0x800)], 9, [⟨63, 0, .rl, 0, false⟩]⟩,
  -- CL_VSTATUS
  ⟨0x1010050, [(8, 0x100000), (288, 0x800)], 9, [⟨63, 55, .rl, 0, false⟩, ⟨54, 53, .rl, 2, false⟩, ⟨52, 51, .rl, 0, false⟩, ⟨50, 50, .rl, 0, false⟩, ⟨49, 49, .rl, 0, false⟩, ⟨48, 48, .rl, 0, false⟩, ⟨47, 47, .rl, 0, false⟩, ⟨46, 42, .rl, 0, false⟩]⟩,
  -- CL_VCNT
  ⟨0x1010058, [(8, 0x100000), (288, 0x800)], 9, [⟨63, 32, .rl, 0, false⟩, ⟨31, 16, .rl, 0, false⟩]⟩,
  -- CD_BWD_CFG
  ⟨0x1001000, [(8, 0x100000), (16, 0x100)], 1, [⟨63, 62, .rs, 0, true⟩, ⟨61, 61, .rs, 0, true⟩, ⟨60, 44, .rs, 0, true⟩, ⟨43, 32, .rs, 0, false⟩, ⟨19, 0, .rs, 0, true⟩]⟩,
  -- CD_STASH_WIN
  ⟨0x1001008, [(8, 0x100000), (16, 0x100)], 1, [⟨63, 48, .rs, 0, false⟩, ⟨47, 21, .rs, 0, false⟩]⟩,
  -- CD_STASH_POOL
  ⟨0x1001010, [(8, 0x100000), (16, 0x100)], 1, [⟨45, 21, .rs, 0, false⟩]⟩,
  -- CD_STASH_SPILL
  ⟨0x1001018, [(8, 0x100000), (16, 0x100)], 1, [⟨45, 21, .rs, 0, false⟩]⟩,
  -- CD_STASH_LEDGER
  ⟨0x1001020, [(8, 0x100000), (16, 0x100)], 1, [⟨45, 17, .rs, 0, false⟩]⟩,
  -- CD_STASH_STAT
  ⟨0x1001028, [(8, 0x100000), (16, 0x100)], 1, [⟨63, 62, .rl, 0, false⟩, ⟨61, 61, .rl, 0, false⟩, ⟨60, 36, .rl, 0, false⟩, ⟨35, 15, .rl, 0, false⟩]⟩,
  -- CD_STASH_PEAK
  ⟨0x1001030, [(8, 0x100000), (16, 0x100)], 1, [⟨63, 39, .rl, 0, false⟩, ⟨31, 16, .rl, 0, false⟩, ⟨15, 0, .rl, 0, false⟩]⟩,
  -- CD_BWD_CNT
  ⟨0x1001038, [(8, 0x100000), (16, 0x100)], 1, [⟨63, 48, .ro, 0, false⟩, ⟨47, 32, .ro, 0, false⟩, ⟨31, 16, .ro, 0, false⟩, ⟨15, 0, .ro, 0, false⟩]⟩,
  -- CD_EPOCH
  ⟨0x1008000, [(8, 0x100000), (16, 0x800), (256, 0x8)], 1, [⟨63, 62, .rl, 0, false⟩, ⟨61, 60, .rl, 0, false⟩, ⟨59, 59, .rl, 0, false⟩, ⟨58, 50, .rl, 0, false⟩, ⟨49, 40, .rl, 0, false⟩, ⟨39, 39, .ro, 0, false⟩, ⟨31, 0, .rl, 0, false⟩]⟩]

/-- The register maps, part 3 of 8. -/
def regTable2 : List RegGroup := [
  -- CL_WGQ
  ⟨0x1010060, [(8, 0x100000), (288, 0x800)], 9, [⟨63, 57, .rl, 0, false⟩, ⟨56, 55, .rl, 0, false⟩, ⟨47, 32, .rl, 0, false⟩, ⟨31, 0, .rl, 0, false⟩]⟩,
  -- RLY_ENG
  ⟨0x800000, [(20, 0x8)], 9, [⟨63, 62, .ro, 0, true⟩, ⟨61, 57, .ro, 0, true⟩, ⟨56, 52, .rl, 0, false⟩, ⟨51, 47, .rl, 0, false⟩, ⟨46, 42, .rl, 0, false⟩, ⟨31, 0, .rl, 0, false⟩]⟩,
  -- RLY_JOB_ID
  ⟨0x800100, [(4, 0x8)], 9, [⟨63, 0, .ro, 0, false⟩]⟩,
  -- RLY_REJECT
  ⟨0x800200, [], 9, [⟨63, 32, .ro, 0, false⟩, ⟨31, 20, .ro, 0, false⟩, ⟨19, 14, .ro, 0, false⟩]⟩,
  -- RLY_CFG
  ⟨0x801000, [(16, 0x40)], 0, [⟨63, 56, .rs, 0, false⟩, ⟨55, 43, .rs, 0, false⟩, ⟨42, 15, .rs, 0, false⟩]⟩,
  -- RLY_PLAN
  ⟨0x801008, [(16, 0x40)], 0, [⟨45, 5, .rs, 0, false⟩]⟩,
  -- RLY_LIST
  ⟨0x801010, [(16, 0x40)], 0, [⟨45, 15, .rs, 0, false⟩]⟩,
  -- RLY_SCALE
  ⟨0x801018, [(16, 0x40)], 0, [⟨45, 12, .rs, 0, false⟩]⟩,
  -- RLY_CNT
  ⟨0x801020, [(16, 0x40)], 0, [⟨63, 40, .ro, 0, false⟩, ⟨39, 24, .ro, 0, false⟩, ⟨23, 8, .ro, 0, false⟩, ⟨7, 0, .ro, 0, false⟩]⟩,
  -- HRD_SCHED
  ⟨0x881000, [(16, 0x40)], 0, [⟨63, 32, .rs, 0, true⟩, ⟨31, 12, .rs, 0, true⟩]⟩,
  -- HRD_MARK
  ⟨0x881008, [(16, 0x40)], 0, [⟨63, 0, .rl, 0, false⟩]⟩,
  -- HRD_CONTRIB
  ⟨0x881010, [(16, 0x40)], 0, [⟨63, 0, .rl, 0, false⟩]⟩,
  -- HRD_OUTCOME
  ⟨0x881018, [(16, 0x40)], 0, [⟨63, 0, .rl, 0, false⟩]⟩,
  -- HRD_RESULT
  ⟨0x881020, [(16, 0x40)], 0, [⟨63, 62, .rl, 0, false⟩, ⟨61, 61, .rl, 0, false⟩, ⟨60, 59, .rl, 0, false⟩, ⟨58, 45, .rl, 0, false⟩, ⟨44, 32, .rl, 8191, false⟩, ⟨31, 0, .rl, 0, false⟩]⟩,
  -- HRD_ROLE
  ⟨0x881028, [(16, 0x40)], 0, [⟨63, 51, .ro, 0, false⟩, ⟨50, 37, .ro, 0, false⟩, ⟨36, 35, .ro, 0, false⟩, ⟨34, 34, .ro, 0, false⟩, ⟨33, 33, .ro, 0, false⟩, ⟨32, 32, .ro, 0, false⟩, ⟨31, 31, .ro, 0, false⟩]⟩,
  -- HRD_FLAGS
  ⟨0x881030, [(16, 0x40)], 0, [⟨63, 63, .ro, 0, false⟩, ⟨62, 62, .ro, 0, false⟩]⟩,
  -- HRD_CNT
  ⟨0x881038, [(16, 0x40)], 0, [⟨63, 32, .ro, 0, false⟩, ⟨31, 16, .ro, 0, false⟩, ⟨15, 10, .ro, 0, false⟩, ⟨9, 5, .ro, 0, false⟩, ⟨4, 0, .ro, 0, false⟩]⟩,
  -- ACM_ID
  ⟨0x900000, [], 9, [⟨63, 56, .ro, 0, true⟩, ⟨55, 51, .ro, 0, true⟩, ⟨50, 42, .ro, 0, true⟩, ⟨41, 36, .rl, 0, false⟩, ⟨35, 32, .rl, 5, false⟩]⟩,
  -- ACM_CFG
  ⟨0x900008, [], 9, [⟨63, 51, .rs, 0, true⟩, ⟨50, 42, .rs, 0, true⟩]⟩,
  -- ACM_POWER
  ⟨0x900040, [], 9, [⟨63, 48, .rl, 0, false⟩, ⟨47, 32, .rl, 0, false⟩]⟩,
  -- ACM_ROUTE_CNT
  ⟨0x900048, [], 9, [⟨63, 32, .ro, 0, false⟩, ⟨31, 16, .ro, 0, false⟩]⟩,
  -- ACM_LASER
  ⟨0x900100, [(4, 0x8)], 9, [⟨63, 63, .rl, 0, false⟩, ⟨62, 62, .rl, 0, false⟩, ⟨61, 61, .rl, 0, false⟩, ⟨60, 53, .rl, 0, false⟩, ⟨52, 45, .rl, 0, false⟩, ⟨44, 33, .rl, 0, false⟩]⟩,
  -- ACM_PORT_STAT
  ⟨0x901000, [(52, 0x40)], 9, [⟨63, 60, .rl, 1, false⟩, ⟨59, 58, .ro, 0, false⟩, ⟨57, 53, .ro, 0, false⟩, ⟨52, 48, .ro, 0, false⟩, ⟨47, 44, .ro, 0, false⟩, ⟨43, 31, .ro, 0, false⟩, ⟨30, 25, .ro, 0, false⟩, ⟨24, 24, .ro, 0, false⟩]⟩,
  -- ACM_PORT_FEC
  ⟨0x901008, [(52, 0x40)], 9, [⟨63, 32, .rl, 0, false⟩, ⟨31, 16, .rl, 0, false⟩, ⟨15, 8, .rl, 0, false⟩]⟩]

/-- The register maps, part 4 of 8. -/
def regTable3 : List RegGroup := [
  -- ACM_PORT_CNT
  ⟨0x901010, [(52, 0x40)], 9, [⟨63, 48, .ro, 0, false⟩, ⟨47, 32, .ro, 0, false⟩, ⟨31, 24, .ro, 0, false⟩, ⟨23, 16, .ro, 0, false⟩, ⟨15, 8, .ro, 0, false⟩, ⟨7, 0, .ro, 0, false⟩]⟩,
  -- ACM_PEERWIN
  ⟨0x906000, [(16, 0x10)], 0, [⟨63, 48, .rs, 0, false⟩, ⟨45, 21, .rs, 0, false⟩]⟩,
  -- ACM_JOBMAP
  ⟨0x906008, [(16, 0x10)], 0, [⟨45, 14, .rs, 0, false⟩]⟩,
  -- CRM_STATUS
  ⟨0x400000, [], 9, [⟨63, 62, .ro, 0, false⟩, ⟨61, 36, .rl, 0, false⟩]⟩,
  -- CRM_STOP
  ⟨0x400008, [], 9, [⟨63, 63, .w1c, 0, false⟩, ⟨62, 59, .ro, 0, false⟩, ⟨58, 51, .ro, 0, false⟩, ⟨50, 35, .ro, 0, false⟩]⟩,
  -- CRM_STOP_LAP
  ⟨0x400010, [], 9, [⟨63, 0, .ro, 0, false⟩]⟩,
  -- CRM_STOP_ADDR
  ⟨0x400018, [], 9, [⟨45, 6, .ro, 0, false⟩]⟩,
  -- CRM_CFG
  ⟨0x400020, [], 9, [⟨63, 63, .rs, 0, true⟩]⟩,
  -- CRM_BIAS_CMD
  ⟨0x400100, [], 9, [⟨63, 62, .wo, 0, false⟩, ⟨61, 53, .wo, 0, false⟩, ⟨45, 12, .wo, 0, false⟩]⟩,
  -- CRM_BIAS_STAT
  ⟨0x400108, [], 9, [⟨63, 63, .ro, 0, false⟩, ⟨62, 60, .ro, 0, false⟩, ⟨59, 50, .ro, 0, false⟩, ⟨49, 40, .ro, 0, false⟩]⟩,
  -- CRM_LOCK_FAULT
  ⟨0x400110, [], 9, [⟨63, 56, .ro, 0, false⟩, ⟨45, 12, .ro, 0, false⟩, ⟨11, 0, .ro, 0, false⟩]⟩,
  -- CRM_AGENT
  ⟨0x400200, [(2, 0x8)], 9, [⟨63, 62, .rl, 0, false⟩, ⟨61, 60, .rl, 0, false⟩, ⟨59, 44, .ro, 0, false⟩, ⟨43, 32, .ro, 0, false⟩, ⟨31, 0, .rl, 0, false⟩]⟩,
  -- CRM_HOME
  ⟨0x400300, [(10, 0x8)], 9, [⟨63, 48, .ro, 0, false⟩, ⟨47, 32, .ro, 0, false⟩, ⟨31, 16, .ro, 0, false⟩, ⟨15, 0, .ro, 0, false⟩]⟩,
  -- CRM_LINK
  ⟨0x400400, [(26, 0x8)], 9, [⟨63, 62, .rl, 0, false⟩, ⟨61, 48, .ro, 0, false⟩, ⟨47, 36, .ro, 0, false⟩, ⟨35, 20, .ro, 0, false⟩, ⟨19, 18, .ro, 2, false⟩]⟩,
  -- XLT_STATUS
  ⟨0x500000, [], 9, [⟨63, 57, .rl, 0, false⟩, ⟨56, 50, .rl, 0, false⟩, ⟨49, 46, .rl, 0, false⟩, ⟨45, 45, .rl, 0, false⟩]⟩,
  -- XLT_CNT
  ⟨0x500008, [], 9, [⟨63, 40, .ro, 0, false⟩, ⟨39, 24, .ro, 0, false⟩, ⟨23, 12, .ro, 0, false⟩, ⟨11, 0, .ro, 0, false⟩]⟩,
  -- XLT_FQ_BASE
  ⟨0x500010, [], 9, [⟨45, 11, .rw, 0, false⟩]⟩,
  -- XLT_FAULT_RESUME
  ⟨0x500020, [], 9, [⟨63, 62, .wo, 0, false⟩, ⟨5, 0, .wo, 0, false⟩]⟩,
  -- XLT_SD_ADDR
  ⟨0x500030, [], 9, [⟨63, 59, .rw, 0, false⟩, ⟨47, 12, .rw, 0, false⟩]⟩,
  -- XLT_SD_CMD
  ⟨0x500038, [], 9, [⟨63, 63, .wo, 0, false⟩, ⟨62, 48, .wo, 0, false⟩, ⟨35, 0, .wo, 0, false⟩]⟩,
  -- XLT_SD_STAT
  ⟨0x500040, [], 9, [⟨63, 60, .rl, 0, false⟩, ⟨59, 58, .ro, 0, false⟩, ⟨57, 43, .ro, 0, false⟩, ⟨42, 27, .ro, 0, false⟩, ⟨26, 11, .ro, 0, false⟩]⟩,
  -- XLT_SD_LAP
  ⟨0x500048, [], 9, [⟨63, 0, .ro, 0, false⟩]⟩,
  -- XLT_NQ_BASE
  ⟨0x500050, [], 9, [⟨45, 12, .rw, 0, false⟩, ⟨4, 0, .rw, 6, false⟩]⟩,
  -- XLT_NQ_HEAD
  ⟨0x500058, [], 9, [⟨15, 0, .rw, 0, false⟩]⟩]

/-- The register maps, part 5 of 8. -/
def regTable4 : List RegGroup := [
  -- XLT_TRK
  ⟨0x500060, [(2, 0x8)], 9, [⟨63, 48, .rs, 1024, true⟩, ⟨47, 44, .rs, 4, true⟩, ⟨43, 27, .rl, 0, false⟩, ⟨26, 11, .ro, 0, false⟩, ⟨10, 0, .ro, 0, false⟩]⟩,
  -- XLT_CTX
  ⟨0x500100, [(17, 0x8)], 0, [⟨63, 63, .rs, 0, false⟩, ⟨62, 62, .rs, 0, true⟩, ⟨45, 12, .rs, 0, false⟩]⟩,
  -- XLT_REC
  ⟨0x500200, [(64, 0x10)], 9, [⟨63, 62, .rl, 0, false⟩, ⟨61, 57, .rl, 0, false⟩, ⟨56, 53, .rl, 0, false⟩, ⟨52, 52, .rl, 0, false⟩, ⟨47, 12, .rl, 0, false⟩, ⟨11, 0, .rl, 0, false⟩]⟩,
  -- XLT_RECENG
  ⟨0x500208, [(64, 0x10)], 9, [⟨63, 0, .rl, 0, false⟩]⟩,
  -- SQ_DB
  ⟨0x600000, [(256, 0x1000)], 9, [⟨15, 0, .wo, 0, false⟩]⟩,
  -- SQ_ODB
  ⟨0x600008, [(256, 0x1000)], 9, [⟨15, 0, .wo, 0, false⟩]⟩,
  -- SQ_STAT
  ⟨0x600100, [(256, 0x1000)], 9, [⟨63, 61, .ro, 0, false⟩, ⟨60, 57, .ro, 0, false⟩, ⟨56, 56, .ro, 1, false⟩, ⟨55, 55, .ro, 1, false⟩, ⟨44, 32, .rl, 0, false⟩, ⟨15, 0, .ro, 0, false⟩]⟩,
  -- SQ_CQH
  ⟨0x600108, [(256, 0x1000)], 9, [⟨15, 0, .rw, 0, false⟩]⟩,
  -- SQ_CTL
  ⟨0x600110, [(256, 0x1000)], 9, [⟨1, 1, .wo, 0, false⟩, ⟨0, 0, .wo, 0, false⟩]⟩,
  -- SQ_CNT
  ⟨0x600118, [(256, 0x1000)], 9, [⟨63, 32, .ro, 0, false⟩, ⟨31, 20, .ro, 0, false⟩, ⟨19, 16, .ro, 0, false⟩, ⟨15, 8, .ro, 0, false⟩, ⟨7, 0, .ro, 0, false⟩]⟩,
  -- CPE_ENG
  ⟨0x700000, [(24, 0x8)], 9, [⟨63, 62, .rl, 0, false⟩, ⟨61, 54, .rl, 0, false⟩, ⟨53, 42, .rl, 0, false⟩, ⟨31, 0, .ro, 0, false⟩]⟩,
  -- CPE_CNT
  ⟨0x700100, [], 9, [⟨63, 48, .ro, 0, false⟩, ⟨47, 32, .ro, 0, false⟩, ⟨31, 16, .ro, 0, false⟩, ⟨15, 0, .ro, 0, false⟩]⟩,
  -- CPE_QRING
  ⟨0x710000, [(256, 0x40)], 9, [⟨63, 63, .rw, 0, false⟩, ⟨62, 59, .rw, 6, false⟩, ⟨45, 12, .rw, 0, false⟩]⟩,
  -- CPE_QCPL
  ⟨0x710008, [(256, 0x40)], 9, [⟨45, 12, .rw, 0, false⟩]⟩,
  -- CPE_QBIND
  ⟨0x710010, [(256, 0x40)], 9, [⟨63, 62, .rw, 0, false⟩, ⟨61, 57, .rw, 16, false⟩, ⟨47, 32, .rw, 0, false⟩]⟩,
  -- CPE_QFRAME
  ⟨0x710018, [(256, 0x40)], 9, [⟨45, 13, .rw, 0, false⟩]⟩,
  -- CPE_QIRQ
  ⟨0x710020, [(256, 0x40)], 9, [⟨63, 63, .rw, 0, false⟩, ⟨62, 55, .rw, 0, false⟩, ⟨54, 49, .rw, 0, false⟩, ⟨10, 0, .rw, 0, false⟩]⟩,
  -- STR_HRST
  ⟨0x800, [], 9, [⟨63, 62, .wo, 0, false⟩, ⟨61, 61, .wo, 0, false⟩]⟩,
  -- STR_HOST
  ⟨0x810, [(2, 0x8)], 9, [⟨63, 61, .rl, 0, false⟩, ⟨60, 58, .ro, 0, false⟩, ⟨57, 42, .ro, 0, false⟩, ⟨41, 34, .ro, 0, false⟩, ⟨33, 18, .ro, 0, false⟩, ⟨17, 2, .ro, 0, false⟩]⟩,
  -- STR_HOSTVEC
  ⟨0x820, [(2, 0x8)], 9, [⟨45, 2, .rw, 0, true⟩]⟩,
  -- STR_PCIE
  ⟨0x830, [(2, 0x8)], 9, [⟨63, 63, .rl, 0, false⟩, ⟨62, 59, .rl, 0, false⟩, ⟨58, 54, .rl, 0, false⟩, ⟨53, 53, .rl, 0, false⟩, ⟨52, 37, .ro, 0, false⟩, ⟨36, 21, .ro, 0, false⟩]⟩,
  -- PRM_ENG_STAT
  ⟨0xB00000, [(16, 0x40)], 9, [⟨63, 61, .rl, 0, false⟩, ⟨60, 55, .rl, 0, false⟩, ⟨54, 48, .rl, 0, false⟩, ⟨31, 0, .ro, 0, false⟩]⟩,
  -- PRM_SURF
  ⟨0xB00008, [(16, 0x40)], 9, [⟨63, 53, .rw, 0, false⟩, ⟨45, 12, .rw, 0, false⟩]⟩,
  -- PRM_STATUS
  ⟨0xB00010, [(16, 0x40)], 9, [⟨45, 18, .rw, 0, false⟩]⟩]

/-- The register maps, part 6 of 8. -/
def regTable5 : List RegGroup := [
  -- PRM_CNT
  ⟨0xB00018, [(16, 0x40)], 9, [⟨63, 48, .ro, 0, false⟩, ⟨47, 36, .ro, 0, false⟩, ⟨35, 24, .ro, 0, false⟩, ⟨23, 12, .ro, 0, false⟩, ⟨11, 0, .ro, 0, false⟩]⟩,
  -- PRM_BUSY
  ⟨0xB00020, [(16, 0x40)], 9, [⟨63, 0, .rl, 0, false⟩]⟩,
  -- PRM_FW
  ⟨0xB00800, [], 9, [⟨63, 32, .ro, 0, true⟩]⟩,
  -- PRM_CTX
  ⟨0xB10000, [(16, 0x200), (64, 0x8)], 9, [⟨63, 63, .rl, 0, false⟩, ⟨62, 61, .rl, 0, false⟩, ⟨60, 59, .rl, 0, false⟩, ⟨58, 54, .rl, 0, false⟩, ⟨53, 40, .rl, 0, false⟩, ⟨39, 26, .rl, 0, false⟩, ⟨25, 0, .rl, 0, false⟩]⟩,
  -- PCE_CFG
  ⟨0x300000, [], 9, [⟨63, 48, .rs, 6400, true⟩, ⟨47, 32, .rs, 7600, true⟩, ⟨31, 20, .rs, 150, true⟩, ⟨19, 13, .rs, 95, true⟩, ⟨12, 0, .rs, 1000, true⟩]⟩,
  -- PCE_STATUS
  ⟨0x300008, [], 9, [⟨63, 48, .rl, 0, false⟩, ⟨47, 32, .rl, 0, false⟩, ⟨31, 27, .rl, 16, false⟩, ⟨26, 24, .rl, 0, false⟩, ⟨23, 20, .rl, 0, false⟩, ⟨19, 4, .rl, 6400, false⟩]⟩,
  -- PCE_TABLE
  ⟨0x300100, [(9, 0x8)], 9, [⟨63, 52, .ro, 0, true⟩, ⟨51, 42, .ro, 0, true⟩, ⟨41, 31, .ro, 0, true⟩]⟩,
  -- PCE_SLOT
  ⟨0x300200, [(16, 0x10)], 0, [⟨63, 60, .rs, 0, true⟩, ⟨59, 56, .rs, 0, false⟩, ⟨55, 52, .rl, 0, false⟩, ⟨51, 48, .rl, 0, false⟩, ⟨47, 46, .rl, 0, false⟩, ⟨45, 32, .rl, 0, false⟩, ⟨31, 16, .rl, 0, false⟩, ⟨15, 0, .rl, 0, false⟩]⟩,
  -- PCE_VOTE
  ⟨0x300208, [(16, 0x10)], 0, [⟨63, 60, .rl, 0, false⟩, ⟨59, 47, .rl, 0, false⟩, ⟨46, 46, .rl, 0, false⟩, ⟨45, 45, .rl, 0, false⟩, ⟨31, 0, .rl, 0, false⟩]⟩,
  -- PCE_CNT
  ⟨0x300300, [], 9, [⟨63, 48, .ro, 0, false⟩, ⟨47, 32, .ro, 0, false⟩, ⟨31, 0, .ro, 0, false⟩]⟩,
  -- PCE_CORE
  ⟨0x301000, [(144, 0x8)], 9, [⟨63, 59, .rw, 0, true⟩, ⟨58, 54, .rl, 0, true⟩, ⟨53, 53, .rl, 0, false⟩]⟩,
  -- MON_TEMP
  ⟨0x380000, [(640, 0x8)], 9, [⟨63, 52, .rl, 0, false⟩, ⟨51, 40, .rl, 0, false⟩]⟩,
  -- MON_VMON
  ⟨0x382000, [(96, 0x8)], 9, [⟨63, 52, .rl, 0, false⟩, ⟨51, 40, .rl, 0, false⟩]⟩,
  -- MON_RAIL
  ⟨0x382400, [(74, 0x8)], 9, [⟨63, 52, .rl, 0, false⟩, ⟨51, 36, .rl, 0, false⟩, ⟨35, 20, .rl, 0, false⟩]⟩,
  -- MON_BUS
  ⟨0x382800, [(8, 0x8)], 9, [⟨63, 63, .rl, 1, false⟩, ⟨62, 47, .rl, 0, false⟩, ⟨46, 33, .rl, 0, false⟩, ⟨32, 17, .rl, 0, false⟩]⟩,
  -- MON_INPUT
  ⟨0x382840, [], 9, [⟨63, 48, .rl, 0, false⟩, ⟨47, 32, .rl, 0, false⟩, ⟨31, 16, .rl, 0, false⟩]⟩,
  -- MON_TRIP
  ⟨0x382900, [], 9, [⟨63, 63, .w1c, 0, false⟩, ⟨62, 61, .ro, 0, false⟩, ⟨60, 51, .ro, 0, false⟩, ⟨50, 39, .ro, 0, false⟩, ⟨38, 0, .ro, 0, false⟩]⟩,
  -- CL_PWR
  ⟨0x1010068, [(8, 0x100000), (288, 0x800)], 9, [⟨63, 48, .ro, 0, false⟩, ⟨47, 16, .rl, 0, false⟩, ⟨15, 0, .rl, 0, false⟩]⟩,
  -- STR_ID
  ⟨0x0, [], 9, [⟨63, 52, .ro, 0, false⟩, ⟨51, 48, .ro, 0, false⟩, ⟨47, 0, .ro, 0, false⟩]⟩,
  -- STR_START
  ⟨0x8, [], 9, [⟨63, 60, .ro, 0, false⟩, ⟨59, 56, .ro, 0, false⟩, ⟨55, 48, .ro, 0, false⟩, ⟨47, 32, .ro, 0, false⟩, ⟨31, 16, .ro, 0, false⟩]⟩,
  -- STR_IMAGE
  ⟨0x10, [], 9, [⟨63, 63, .ro, 0, false⟩, ⟨62, 62, .ro, 0, false⟩, ⟨61, 60, .ro, 0, false⟩, ⟨31, 0, .ro, 0, false⟩]⟩,
  -- STR_BUILD
  ⟨0x18, [], 9, [⟨63, 0, .ro, 0, false⟩]⟩,
  -- STR_ROLE
  ⟨0x20, [], 9, [⟨63, 62, .ro, 0, true⟩, ⟨61, 48, .ro, 0, false⟩, ⟨47, 46, .ro, 0, true⟩, ⟨45, 44, .ro, 0, true⟩]⟩,
  -- STR_FUSE
  ⟨0x28, [], 9, [⟨63, 32, .ro, 0, false⟩, ⟨31, 28, .ro, 0, false⟩]⟩]

/-- The register maps, part 7 of 8. -/
def regTable6 : List RegGroup := [
  -- STR_RING
  ⟨0x100, [], 9, [⟨63, 63, .rw, 0, false⟩, ⟨62, 58, .rw, 12, false⟩, ⟨45, 12, .rw, 0, false⟩]⟩,
  -- STR_RING_HEAD
  ⟨0x108, [], 9, [⟨15, 0, .rw, 0, false⟩]⟩,
  -- STR_RING_IRQ
  ⟨0x110, [], 9, [⟨63, 63, .rw, 0, false⟩, ⟨62, 55, .rw, 0, false⟩, ⟨54, 49, .rw, 0, false⟩, ⟨48, 46, .rw, 2, false⟩, ⟨10, 0, .rw, 0, false⟩]⟩,
  -- STR_RING_CNT
  ⟨0x118, [], 9, [⟨63, 32, .ro, 0, false⟩, ⟨31, 16, .ro, 0, false⟩, ⟨15, 8, .ro, 0, false⟩, ⟨7, 0, .ro, 0, false⟩]⟩,
  -- SHD_CTL
  ⟨0x100000, [], 9, [⟨63, 61, .wo, 0, false⟩, ⟨60, 56, .wo, 0, false⟩]⟩,
  -- SHD_ARM_T
  ⟨0x100008, [], 9, [⟨63, 0, .rw, 0, false⟩]⟩,
  -- SHD_PEEK_ADDR
  ⟨0x100010, [], 9, [⟨27, 3, .rw, 0, false⟩]⟩,
  -- SHD_PEEK_DATA
  ⟨0x100018, [], 9, [⟨63, 0, .ro, 0, false⟩]⟩,
  -- SHD_CNT
  ⟨0x100020, [], 9, [⟨63, 48, .ro, 0, false⟩, ⟨47, 32, .ro, 0, false⟩, ⟨31, 16, .ro, 0, false⟩, ⟨15, 0, .ro, 0, false⟩]⟩,
  -- SHD_STAT
  ⟨0x100100, [(17, 0x8)], 9, [⟨63, 61, .ro, 0, false⟩, ⟨60, 60, .ro, 0, false⟩, ⟨59, 53, .ro, 0, false⟩, ⟨39, 0, .ro, 0, false⟩]⟩,
  -- SHD_SLOT
  ⟨0x100400, [(16, 0x8)], 0, [⟨63, 61, .rs, 0, false⟩, ⟨55, 44, .rs, 0, false⟩, ⟨31, 0, .rs, 0, false⟩]⟩,
  -- SHD_MEMB
  ⟨0x100480, [(16, 0x8)], 0, [⟨63, 50, .rs, 0, false⟩, ⟨49, 37, .rs, 0, false⟩]⟩,
  -- SHD_VOTE
  ⟨0x100500, [(16, 0x8)], 0, [⟨63, 63, .rl, 0, false⟩, ⟨62, 56, .rl, 0, false⟩, ⟨55, 43, .rl, 8191, false⟩, ⟨42, 30, .rl, 0, false⟩, ⟨29, 17, .rl, 0, false⟩, ⟨16, 3, .rl, 0, false⟩]⟩,
  -- SHD_DIGEST
  ⟨0x100580, [(16, 0x8)], 0, [⟨63, 0, .rl, 0, false⟩]⟩,
  -- RES_CFG
  ⟨0xC00000, [], 9, [⟨63, 63, .rs, 0, true⟩, ⟨62, 47, .rs, 256, true⟩, ⟨46, 35, .rs, 256, true⟩, ⟨34, 27, .rs, 25, true⟩]⟩,
  -- RES_TEST_CNT
  ⟨0xC00008, [], 9, [⟨63, 48, .ro, 0, false⟩, ⟨47, 32, .ro, 0, false⟩, ⟨31, 16, .ro, 0, false⟩, ⟨15, 0, .ro, 0, false⟩]⟩,
  -- RES_CKPT_CFG
  ⟨0xC10000, [(16, 0x100)], 0, [⟨63, 48, .rs, 0, true⟩, ⟨47, 35, .rs, 0, false⟩, ⟨34, 22, .rs, 8191, false⟩]⟩,
  -- RES_CKPT_CTL
  ⟨0xC10008, [(16, 0x100)], 0, [⟨63, 63, .w1s, 0, false⟩, ⟨62, 62, .w1s, 0, false⟩, ⟨61, 61, .w1s, 0, false⟩]⟩,
  -- RES_REG
  ⟨0xC10010, [(16, 0x100)], 0, [⟨63, 53, .rs, 0, false⟩, ⟨45, 5, .rs, 0, false⟩]⟩,
  -- RES_PART
  ⟨0xC10018, [(16, 0x100)], 0, [⟨63, 53, .rs, 0, false⟩, ⟨45, 21, .rs, 0, false⟩]⟩,
  -- RES_HALT
  ⟨0xC10020, [(16, 0x100)], 0, [⟨63, 0, .rl, 0, false⟩]⟩,
  -- RES_RESUME
  ⟨0xC10028, [(16, 0x100)], 0, [⟨63, 0, .rl, 0, false⟩]⟩,
  -- RES_CKPT_STAT
  ⟨0xC10030, [(16, 0x100)], 0, [⟨63, 61, .rl, 0, false⟩, ⟨60, 47, .rl, 0, false⟩, ⟨46, 33, .rl, 0, false⟩, ⟨32, 13, .rl, 0, false⟩, ⟨12, 0, .rl, 0, false⟩]⟩,
  -- RES_MDIGEST
  ⟨0xC10040, [(16, 0x100), (4, 0x8)], 0, [⟨63, 0, .ro, 0, false⟩]⟩]

/-- The register maps, part 8 of 8. -/
def regTable7 : List RegGroup := [
  -- RES_VERIFY
  ⟨0xC10060, [(16, 0x100)], 0, [⟨63, 62, .wo, 0, false⟩, ⟨61, 60, .ro, 0, false⟩, ⟨59, 58, .ro, 0, false⟩, ⟨57, 57, .ro, 0, false⟩, ⟨56, 43, .ro, 0, false⟩, ⟨42, 29, .ro, 0, false⟩]⟩,
  -- RES_VBASE
  ⟨0xC10068, [(16, 0x100)], 0, [⟨45, 12, .rw, 0, false⟩]⟩,
  -- RES_VDIG
  ⟨0xC10070, [(16, 0x100), (4, 0x8)], 0, [⟨63, 0, .rw, 0, false⟩]⟩,
  -- RES_CNT
  ⟨0xC10090, [(16, 0x100)], 0, [⟨63, 48, .ro, 0, false⟩, ⟨47, 32, .ro, 0, false⟩, ⟨31, 16, .ro, 0, false⟩, ⟨15, 0, .ro, 0, false⟩]⟩,
  -- STR_PINS
  ⟨0x900, [], 9, [⟨63, 63, .ro, 0, false⟩, ⟨62, 62, .ro, 0, false⟩, ⟨61, 61, .ro, 0, false⟩, ⟨60, 60, .ro, 1, false⟩, ⟨59, 58, .ro, 3, false⟩, ⟨57, 56, .ro, 0, false⟩, ⟨55, 49, .ro, 0, false⟩, ⟨48, 41, .ro, 0, false⟩, ⟨40, 37, .ro, 0, false⟩, ⟨36, 36, .ro, 1, false⟩]⟩]

/-- Every register map of the manual. -/
def regTable : List RegGroup :=
  regTable0 ++ regTable1 ++ regTable2 ++ regTable3 ++ regTable4 ++ regTable5 ++ regTable6 ++ regTable7

/-- The indices of the register of `dims` that lies `d` bytes above the group's base, or none. -/
def dimIndex : List (Nat × Nat) → Nat → Option (List Nat)
  | [], d => if d = 0 then some [] else none
  | (n, s) :: ds, d =>
    if d / s < n then (dimIndex ds (d % s)).map (d / s :: ·) else none

/-- The indices under which `g` holds the offset, or none. -/
def RegGroup.index (g : RegGroup) (off : Nat) : Option (List Nat) :=
  if g.base ≤ off then dimIndex g.dims (off - g.base) else none

/-- The register map and the indices of the register at `off`; none where the offset holds no register (R9). -/
def findReg (off : Nat) : List RegGroup → Option (RegGroup × List Nat)
  | [] => none
  | g :: gs => match g.index off with
    | some is => some (g, is)
    | none => findReg off gs

/-- The rows of the register at `off`; none of them where no register lies there. -/
def fieldsAt (off : Nat) : List FieldDef :=
  match findReg off regTable with
  | some (g, _) => g.fields
  | none => []

/-- The value of bits selected by a set of rows: bit i is 1 when some row of `fs` that `p` accepts holds it. -/
def maskOf (p : FieldDef → Bool) (fs : List FieldDef) : Nat :=
  fs.foldl (fun m f => if p f then m ||| place f.hi f.lo (2 ^ 64 - 1) else m) 0

/-- Mask of the bits of the register at `off` with access code `a` (R6). -/
def accMask (a : Access) (off : Nat) : Word := BitVec.ofNat 64 (maskOf (fun f => f.acc == a) (fieldsAt off))

/-- Mask of the Image fields of the register at `off` (R662). -/
def imageMask (off : Nat) : Word := BitVec.ofNat 64 (maskOf (·.image) (fieldsAt off))

/-- The shadow-set area of the register at `off` (R671): its slot for a job-scope register, else 16. -/
def areaOf (off : Nat) : Nat :=
  match findReg off regTable with
  | some (g, is) => min 16 ((is[g.slotDim]?).getD 16)
  | none => 16

/-- Role and index of port `p` = 13d + k, and its own engine k (R389). A reserve port has no index: 0 (DESIGN CHOICE, notes/assumptions/5.md). -/
def portFixed (p : Nat) : Nat :=
  let d := p / 13
  let k := p % 13
  let pods := if d = 3 then 7 else 8
  let role := if k < pods then 0 else if k < pods + 4 then 1 else 2
  let index := if k < pods then 8 * d + k else if k < pods + 4 then 4 * d + (k - pods) else 0
  place 59 58 role ||| place 57 53 index ||| place 52 48 k

/-- The recipe entry for set s (0 STANDARD, 1 LEAN, 2 WIDE) and kind k (0 W, 1 A, 2 G, 3 WG, 4 M, 5 O) of R141. -/
def recipeWord (s k : Nat) : Nat :=
  let row (fmt edge wire twinOk twinDef seed mon mult : Nat) : Nat :=
    place 63 60 fmt ||| place 59 56 edge ||| place 55 52 wire ||| place 51 51 twinOk ||| place 50 50 twinDef
      ||| place 49 49 seed ||| place 48 48 mon ||| place 47 47 mult
  match s, k with
  | 0, 0 => row 2 2 0 1 1 0 0 0
  | 0, 1 => row 2 2 0 1 1 0 0 0
  | 0, 2 => row 2 2 0 1 1 1 1 1
  | 1, 0 => row 6 2 0 1 1 0 0 0
  | 1, 1 => row 6 2 0 1 1 0 0 0
  | 1, 2 => row 6 2 0 1 1 1 1 1
  | 2, 0 => row 1 1 0 0 0 0 0 0
  | 2, 1 => row 1 1 0 0 0 0 0 0
  | 2, 2 => row 1 1 0 0 0 1 1 1
  | _, 3 => row 0 0 7 0 0 0 1 1
  | _, _ => row 0 0 0 0 0 0 0 0

/-- The reset word of the register at `off`: the rows' reset values, and the values the map calls Fixed or Fused.
[DESIGN CHOICE, notes/assumptions/1.md] [DESIGN CHOICE, notes/assumptions/5.md] -/
def resetWord (off : Nat) : Word :=
  match findReg off regTable with
  | none => 0
  | some (g, is) =>
    let base := g.fields.foldl (fun m f => m ||| place f.hi f.lo f.reset) 0
    let i0 := (is[0]?).getD 0
    let i1 := (is[1]?).getD 0
    let fixed :=
      if g.base = Reg.STR_ID then
        place 63 52 (if Config.is1T then 1024 else 2048) ||| place 51 48 Config.stepping ||| place 47 0 Config.serial
      else if g.base = Reg.STR_FUSE then place 63 32 Config.fusedRollback ||| place 31 28 Config.fusedKeys
      else if g.base = Reg.STR_ROLE then place 61 48 256
      else if g.base = Reg.STR_PINS then place 57 56 Config.mgmtAddrStrap
      else if g.base = Reg.CD_ID 0 then place 63 60 i0
      else if g.base = Reg.NUM_RECIPE 0 0 then recipeWord i0 i1
      else if g.base = Reg.ACM_PORT_STAT 0 then portFixed i0
      else 0
    BitVec.ofNat 64 (base ||| fixed)

end Sys2Proof.Machine
end

