-- ==== Sys2Proof/Machine/Sparse.lean ====
section
/-!
DEFINITION. Sparse data by key: a list of (key, value) pairs in rising order of keys, listing no pair whose value is what
an unlisted key reads as. Equal contents are then equal lists. Registers, memory, and every numbered unit are held so.
-/

namespace Sys2Proof.Machine

/-- Numbered things, of which only those that differ from their default stand in the list. -/
abbrev Sparse (α : Type) := List (Nat × α)

/-- The value at key `k`; `d` gives what an unlisted key reads as. -/
def sget {α : Type} (d : Nat → α) : Sparse α → Nat → α
  | [], k => d k
  | (j, v) :: m, k => if j = k then v else sget d m k

/-- The pairs whose key is not `k`. -/
def serase {α : Type} (m : Sparse α) (k : Nat) : Sparse α := m.filter (fun p => p.1 ≠ k)

/-- The pair (k, v) put before the first larger key. -/
def sinsert {α : Type} : Sparse α → Nat → α → Sparse α
  | [], k, v => [(k, v)]
  | (j, w) :: m, k, v => if k < j then (k, v) :: (j, w) :: m else (j, w) :: sinsert m k v

/-- Set key `k` to `v`: a value equal to the default leaves the list. -/
def sset {α : Type} [DecidableEq α] (d : Nat → α) (m : Sparse α) (k : Nat) (v : α) : Sparse α :=
  if v = d k then serase m k else sinsert (serase m k) k v

/-- The canonical form: keys strictly rise, and no listed value is the default. -/
def swf {α : Type} [DecidableEq α] (d : Nat → α) (m : Sparse α) : Bool :=
  decide ((m.map (·.1)).Pairwise (· < ·)) && m.all (fun p => decide (p.2 ≠ d p.1))

/-- A listed byte, or none where nothing has written the address. -/
def cellGet : List (Nat × Byte) → Nat → Option Byte
  | [], _ => none
  | (j, v) :: m, k => if j = k then some v else cellGet m k

/-- Write one byte. -/
def cellSet (m : List (Nat × Byte)) (a : Nat) (v : Byte) : List (Nat × Byte) := sinsert (serase m a) a v

/-- Forget one byte: it reads again as never written. -/
def cellErase (m : List (Nat × Byte)) (a : Nat) : List (Nat × Byte) := serase m a

/-- The canonical form of memory: addresses strictly rise. No listed byte equals what an unlisted address reads as,
because an unlisted address holds no byte at all. -/
def Memory.wf (m : List (Nat × Byte)) : Bool := decide ((m.map (·.1)).Pairwise (· < ·))

end Sys2Proof.Machine
end

