-- ==== Sys2Proof/Machine/State.lean ====
section
/-!
DEFINITION. The state of the module as plain data, and State.reset. Every register of the manual stands in `regs` under
its control-window offset; what no register shows stands in a field of its own, grouped by unit.
-/

namespace Sys2Proof.Machine

/-- One event record of R11, before it is laid out as 32 bytes. -/
structure Rec where
  lap : Nat
  jv : Bool
  lk : Bool
  seq : Nat
  sev : Nat
  job : Nat
  src : Nat
  code : Nat
  payload : Nat
  deriving DecidableEq, Repr

/-- What leaves the module: on a port, on a wire of the package, to a host core, to the board. The log is append-only;
it is the model's record of the sends that the manual requires.
[DEDUCED, notes/assumptions/9.md] -/
inductive Out where
  /-- A request on a die link for a replay from a flit (R463). -/
  | dieReplay (link seq : Nat)
  /-- A lap-mark, delay-request or delay-response ordered set on a port (R60, R65, R408). -/
  | orderedSet (port : Nat) (w : BitVec 128)
  /-- What a port sends of itself in IDENTIFY: FI, port, role and PODS (R409). -/
  | identify (port fi ownPort role pods : Nat)
  /-- A flit of a port's link layer (R400): every message of this module, and every acknowledgement, NAK and credit, leaves as flits. -/
  | flit (port : Nat) (f : Flit)
  /-- A Crimon message on the package fabric (R429). -/
  | crimon (m : CrMsg)
  /-- A message-signalled interrupt to a hart (R531 and STR_RING_IRQ). -/
  | irq (hart file eiid : Nat)
  /-- The data, or the access fault with its cause, that a host core receives (R460, R477). -/
  | coreData (core : Nat) (data : Line)
  | coreFault (core cause : Nat)
  /-- A reset or a start of a core complex, a host die, or core 72h (R564, R568, R666). -/
  | coreStart (core vec : Nat)
  /-- A PCIe completion: the data, or an abort (R559, R560). -/
  | pcieData (port : Nat) (data : List Byte)
  | pcieAbort (port : Nat)
  /-- An Unsupported Request completion of an inbound PCIe read (R560). -/
  | pcieUnsupported (port : Nat)
  /-- A value read over the management path or by JTAG REGREAD (R758, R765). -/
  | mgmtResponse (status : Nat) (v : Word)
  | jtagData (v : Nat)
  /-- A PLDM platform event, with the in-band interrupt (R757), and a PLDM or SPDM response. -/
  | pldmEvent (code : Nat)
  | pldmResponse (code : Nat) (v : Nat)
  | spdm (code : Nat) (v : Nat)
  /-- A contact driven by the module (R744 to R752): its number in `Contact` order and its level. -/
  | contact (pin : Nat) (level : Bool)
  deriving DecidableEq, Repr

/-- The event ring's state that no register shows (R14 to R19, R670, R778). -/
structure RingSt where
  /-- Next entry the module writes. -/
  tail : Nat
  /-- PHASE of the pass through the ring under way. -/
  phase : Bool
  /-- Records written and not yet consumed. -/
  count : Nat
  /-- SEQ of the next record. -/
  seq : Nat
  /-- The holding store, at most 64 records. -/
  held : List Rec
  /-- Records dropped and not yet reported by EVENT_RING_OVERFLOW, and LAP of the first of them. -/
  lost : Nat
  lostLap : Nat
  deriving DecidableEq, Repr

/-- A scheduled event that has been armed (R78): its kind code, what it is armed for (a shadow-set area, a slot, a
partition 4n + m, or a reserve unit), its lap, and whether it is job-scoped. -/
structure Arm where
  kind : Nat
  who : Nat
  t : Nat
  job : Bool
  deriving DecidableEq, Repr

/-- A valid mark delivered by a port at the present lap mark (R63, R64). -/
structure MarkIn where
  port : Nat
  epoch : Nat
  hops : Nat
  master : Nat
  lap : Nat
  refd : Bool
  err : Int
  deriving DecidableEq, Repr

/-- The lap clock's state that no register shows. -/
structure LapSt where
  /-- Valid marks since the last lap mark. -/
  marks : List MarkIn
  /-- The valid marks of the last lap mark (R64, R69). -/
  last : List MarkIn
  /-- Consecutive laps with the phase error within ±5 ns (R56, R73). -/
  okLaps : Nat
  /-- Laps from the mark of the last valid LMOS, of any port and of the upstream, to the present mark (R69, R70). -/
  quiet : Nat
  quietUp : Nat
  /-- The same for a valid LMOS of the current epoch (R75). -/
  quietEpoch : Nat
  /-- HOPS at the last lap mark at which the module was LOCKED in the epoch that it follows; none where it was not (R64). -/
  lockHops : Option Nat
  /-- The highest EPOCH accepted (R62, R781). -/
  topEpoch : Nat
  /-- Lap marks since module reset, which records carry until the clock first locks (R11), and whether it has. -/
  sinceReset : Nat
  everLocked : Bool
  /-- The mark of this lap was not sent, since a swap due at it takes the role MASTER away (R781). -/
  withheld : Bool
  /-- The count of the upstream has been adopted (R56). -/
  adopted : Bool
  /-- LAP of the last accepted LMOS. -/
  lastLap : Nat
  /-- The module originates marks (a master that has left UNLOCKED, a standby that took over). -/
  originates : Bool
  /-- Laps for which TAKEOVER is still set in the marks it originates (R61). -/
  takeoverLeft : Nat
  /-- A relock error above 16 laps holds the module in HOLDOVER until module reset (R74). -/
  stuck : Bool
  /-- LAP_HOLDOVER was written in this holdover (R72). -/
  reported : Bool
  /-- Laps spent RELOCKING. -/
  relockLaps : Nat
  /-- A higher epoch has demoted this master; it stops at the next lap mark (R780). -/
  demoted : Bool
  /-- The clock has left UNLOCKED at least once since reset (R55). -/
  started : Bool
  /-- Ports whose delay was measured and is shown VALID at the next lap mark (R65). -/
  measured : List Nat
  /-- Ports with a delay request outstanding. -/
  asked : List Nat
  /-- 10 MHz and PPS as last reported (R59). -/
  ref10M : Bool
  refPps : Bool
  /-- PPS edges since the discipline began: they fall alternately at phase 0 and phase 512 (R58). -/
  ppsOdd : Bool
  deriving DecidableEq, Repr

/-- A vote in the collectors of this module: kind 0 pre-vote, 1 pace, 2 Hurdle, 3 checkpoint; its job and its lap; the
messages of the children and of the module itself that each level holds; and the levels already closed. -/
structure VoteSt where
  kind : Nat
  job : Nat
  t : Nat
  msgs : List (Nat × Msg)
  closed : List Nat
  deriving DecidableEq, Repr

/-! Clusters (03 to 07). -/

/-- The array configuration that MCFG sets (R189). -/
structure MCfg where
  fmtA : Nat
  fmtB : Nat
  chunk : Nat
  tensor : Nat
  tile : Nat
  deriving DecidableEq, Repr

/-- One operand record in an operand buffer or in the load queue: the bytes that the operand path read, their format
and whether they are in transposed order (R92, R93, R191). -/
structure OpRec where
  isB : Bool
  fmt : Nat
  trans : Bool
  bytes : List Byte
  /-- Position in program order of the load. -/
  ord : Nat
  deriving DecidableEq, Repr

/-- An MMA, MACC or MCFG in the array queue, or a deferred MMA in the WGQ (R178, R192 to R196, R282, R283). An MCFG asks for
no K-step, and its slot is 16, which is none. -/
structure ArrEnt where
  slot : Nat
  /-- K-steps asked for, and done. -/
  ksteps : Nat
  done : Nat
  /-- MMA ends its accumulation; MACC does not (R193). -/
  ends : Bool
  /-- The configuration in force at issue (R189). -/
  cfg : MCfg
  /-- Position in program order, and the program step under R224. -/
  ord : Nat
  pstep : Nat
  /-- A deferred product's panels and their orders (R195), and its state code of R283. -/
  aBase : Nat
  bBase : Nat
  aTrans : Bool
  bTrans : Bool
  wstate : Nat
  deriving DecidableEq, Repr

/-- The identity of the chunk in the accumulators or in the merge latches: what keys its merge (R101, R104). -/
structure ChunkId where
  slot : Nat
  cfg : MCfg
  pstep : Nat
  ord : Nat
  deriving DecidableEq, Repr

/-- An MDRN (kind 0), MTIE (1) or RPUSH (2) in the readout queue (R178, R198, R201, R203). -/
structure ReadEnt where
  kind : Nat
  slot : Nat
  rel : Bool
  /-- S[RS1] and S[RS2] as read at issue, and FL[1], FL[2] of MDRN. -/
  a : Word
  b : Word
  x : Bool
  t : Bool
  /-- Position in program order, and the program step under R224. -/
  ord : Nat
  pstep : Nat
  /-- The use was applied, or the push buffer entered. -/
  done : Bool
  /-- MULT and the exponents are taken when the readout ends; the tie tile of an MTIE (R320). -/
  tile : Nat
  deriving DecidableEq, Repr

/-- A VCVT that waits in the cast unit (R145, R179, R270): its source values, its target and its addresses. -/
structure CastJob where
  vals : List Nat
  srcCode : Nat
  explicit : Bool
  desc : Nat
  eaddr : Nat
  saddr : Nat
  ord : Nat
  pstep : Nat
  deriving DecidableEq, Repr

/-- A vector instruction in the vector queue (R278): VL and VTYPE, whether it goes to the cast unit, whether it is a load or
store, and its position in program order. -/
structure VEnt where
  vl : Nat
  vtype : Nat
  cast : Bool
  loadStore : Bool
  ord : Nat
  deriving DecidableEq, Repr

/-- A tile in the push buffer (R112, R203). -/
structure PushEnt where
  vals : Sparse (BitVec 32)
  tensor : Nat
  tile : Nat
  pstep : Nat
  /-- The tile is the sum of a tie group, pushed by its home (R321). -/
  tie : Bool
  deriving DecidableEq, Repr

/-- An outstanding DQ (R204 to R214). -/
structure DqEnt where
  seq : Nat
  desc : Nat
  write : Bool
  e : Bool
  ts : Nat
  len : Nat
  off : Nat
  rows : Nat
  stride : Nat
  mc : Nat
  pmask : Nat
  lo : Nat
  hi : Nat
  /-- It is the k-th multicast DQ that this cluster issued for its target set (R211). -/
  joinNo : Nat
  /-- It waits: for a weight version (R310, R311), or held in a fault record (R208). -/
  waitsEpoch : Bool
  held : Option (Nat × Bool)
  /-- It holds a reference on its version (R207). -/
  ref : Bool
  /-- A stash write that is dropped whole (R303). -/
  dropped : Bool
  /-- The program step under R224. -/
  pstep : Nat
  deriving DecidableEq, Repr

/-- What a sequencer waits for at the instruction in PC (CDn_CL_WAIT). -/
inductive SeqWait where
  | none
  | wlap (rd t : Nat)
  | bar (part : Bool) (num : Nat)
  | dwait (seq : Nat) (all : Bool)
  | hrdw (rd : Nat) (step : Nat)
  deriving DecidableEq, Repr

/-- An HRDW issued and not yet recorded (R221). -/
structure HrdwSt where
  bits : Nat
  pstep : Nat
  ord : Nat
  deriving DecidableEq, Repr

/-- One slot of the accumulator buffer: its 8,192 binary32 elements, the merges since it left FREE (R156), and the tile of
its first merge (R320). Its state code stands in CDn_CL_SLOTS. -/
structure AccSlot where
  vals : Sparse (BitVec 32)
  merges : Nat
  tile : Nat
  deriving DecidableEq, Repr

/-- What a matrix cluster holds beyond its registers (R82, R170, R242). -/
structure ClusterSt where
  /-- S1 to S31 (R170, R171), LWAIT and HCON (R174, R221). -/
  sregs : Sparse Word
  lwait : Word
  hcon : Word
  /-- CSTAT.LATE (R175). -/
  late : Bool
  /-- The image in the instruction store, and the entry PC (R172, R173, R235). -/
  code : List Byte
  entry : Nat
  /-- Program step (R224), and the position of the next instruction in program order. -/
  pstep : Nat
  icount : Nat
  /-- DQSEQ, the number of the last DQ issued (R204). -/
  dqseq : Nat
  /-- The array configuration of the last MCFG issued, none before (R189). -/
  cfg : Option MCfg
  /-- The operand buffers and the load queue (R178, R191). -/
  aBuf : List OpRec
  bBuf : List OpRec
  loadQ : List OpRec
  /-- The array queue, the deferred weight-gradient queue, the readout queue and the casts in the cast unit (R178, R282, R198, R270). -/
  arrQ : List ArrEnt
  wgq : List ArrEnt
  readQ : List ReadEnt
  castQ : List CastJob
  /-- Vector instructions that wait in the vector queue behind the cast unit (R278). -/
  vq : List VEnt
  /-- Tiles in the push buffer (R112). -/
  push : List PushEnt
  /-- Outstanding DQs (R204). -/
  dqs : List DqEnt
  /-- Multicast DQs issued so far, by target set (R211). -/
  joins : List (Nat × Nat)
  /-- The chunk accumulators, the K-steps in the chunk, and what the chunk belongs to (R98). -/
  acc : Sparse Fp
  chunkK : Nat
  chunk : Option ChunkId
  /-- The chunk has ended and waits for the merge latches (R105). -/
  chunkEnded : Bool
  /-- The slot of an accumulation begun by MACC and still open, in program order (R193, R194). -/
  openSlot : Option Nat
  /-- The drain mark passed and the WGQ has not been empty since (R288). -/
  drainPrio : Bool
  /-- The array has run a MACC and its accumulation has not ended. -/
  arrOpen : Bool
  /-- The merge latches: the chunk in them and its values (R101, R105). -/
  latch : Option ChunkId
  latchVals : Sparse Fp
  /-- The 16 accumulator slots (R107). -/
  slots : Sparse AccSlot
  /-- The tile store (R82). -/
  tile : Sparse Byte
  /-- V0 to V31, VL, VTYPE and VFLAGS (R242 to R244, R266). -/
  vregs : Sparse (BitVec 2048)
  vl : Nat
  vtype : Nat
  vflags : Nat
  /-- What the instruction in PC waits for. -/
  wait : SeqWait
  /-- The HRDW that is issued and not yet recorded (R221). -/
  hrdw : Option HrdwSt
  /-- NF of the even and of the odd step (R104, R783). -/
  nfEven : Bool
  nfOdd : Bool
  /-- The lap of the last PROGRAM_EVENT below JOB_FATAL, or none (R228). -/
  evtLap : Option Nat
  /-- The cluster is held before its next issue by a checkpoint halt (R702). -/
  held : Bool
  /-- The cluster's last self-test passed, and the lap of it (R121, R734). -/
  tested : Bool
  lastTest : Nat
  /-- The logical index that the cluster carried when it became FAILED, until a reserve takes it over (R116); else 127. -/
  lostIdx : Nat
  deriving DecidableEq, Repr

/-- A cluster that has run nothing: every store at zero (R173, R243). VTYPE 2 is SEW 32, KIND float.
[DESIGN CHOICE, notes/assumptions/5.md] -/
def ClusterSt.init : ClusterSt where
  sregs := []
  lwait := 0
  hcon := 0
  late := false
  code := []
  entry := 0
  pstep := 0
  icount := 0
  dqseq := 0
  cfg := none
  aBuf := []
  bBuf := []
  loadQ := []
  arrQ := []
  wgq := []
  readQ := []
  castQ := []
  vq := []
  push := []
  dqs := []
  joins := []
  acc := []
  chunkK := 0
  chunk := none
  chunkEnded := false
  openSlot := none
  arrOpen := false
  drainPrio := false
  latch := none
  latchVals := []
  slots := []
  tile := []
  vregs := []
  vl := 0
  vtype := 2
  vflags := 0
  wait := .none
  hrdw := none
  nfEven := false
  nfOdd := false
  evtLap := none
  held := false
  tested := true
  lastTest := 0
  lostIdx := 127

/-- One bound stash page (R295): its virtual page, the frame it is bound to, its pool (true: spill), and the step of the
window that bound it. -/
structure StashPage where
  vpage : Nat
  frame : Nat
  spill : Bool
  step : Nat
  deriving DecidableEq, Repr

/-- The stash of one slot on one die. -/
structure StashSt where
  pages : List StashPage
  /-- This window has had an overflowing write (R303), and its STASH_UNBOUND_READ (R297). -/
  overflowed : Bool
  unboundSeen : Bool
  /-- Most HBM pages bound in the present window. -/
  peak : Nat
  deriving DecidableEq, Repr

/-- A weight shard beyond CDn_EPOCH_j_h: the clusters that hold its RETIRED version, whether a Hurdle mark has passed
since it retired (R313), whether EPOCH_STALL was written in this update (R311), and the flip lap that it missed (R315). -/
structure ShardSt where
  holders : List Nat
  markSince : Bool
  stalled : Bool
  late : Option Nat
  deriving DecidableEq, Repr

/-- One tile of a tied-weight group (R202, R321): uses applied in the step in hand, and steps completed. -/
structure TieSt where
  uses : Nat
  steps : Nat
  deriving DecidableEq, Repr

/-- A DMA descriptor of the loaded program (R236). A frame is none where its valid bit is 0. -/
structure DmaDesc where
  va0 : Nat
  va1 : Nat
  length : Nat
  flags : Nat
  tensor : Nat
  shard : Nat
  frames0 : List (Option Nat)
  frames1 : List (Option Nat)
  /-- A stash descriptor: its die (R292). -/
  stash : Option Nat
  /-- Byte offset of the descriptor in the container, where its PAGES and FRAMES stand (R236). -/
  offset : Nat
  deriving DecidableEq, Repr

/-- A tied-weight group (R318). -/
structure TieGroup where
  group : Nat
  home : Nat
  uses : Nat
  tiles : Nat
  sum : Nat
  members : List Nat
  deriving DecidableEq, Repr

/-- The step program loaded for a slot (R234 to R238). -/
structure Program where
  /-- The physical frames that hold the container. -/
  container : List Nat
  /-- Tensor descriptors, DMA descriptors and tied-weight groups (R236, R318), and the number of images and of frames. -/
  tensors : List Word
  dma : List DmaDesc
  ties : List TieGroup
  images : Nat
  frames : Nat
  deriving DecidableEq, Repr

/-! Crimon, translation, queues (10 to 13). -/

/-- A line in the caches of host die `agent`: 1 S, 2 E, 3 M; an unlisted line is I (R434). -/
structure CacheLine where
  agent : Nat
  line : Nat
  st : Nat
  data : Line
  deriving DecidableEq, Repr

/-- The directory entry of a line (R435): UNCACHED has neither. -/
structure DirSt where
  owner : Option Nat
  sharers : List Nat
  deriving DecidableEq, Repr

/-- A transaction at a home (R425, R435): 0 waits for an earlier one of its line, 1 is held for a bias flip, 2 waits for
the agents in `await`, 3 waits for the data of a forward's WbData. -/
structure Txn where
  home : Nat
  line : Nat
  op : Nat
  src : Nat
  txn : Nat
  host : Bool
  spec : Bool
  data : Line
  st : Nat
  await : List Nat
  deriving DecidableEq, Repr

/-- A write of a unit of the module that waits at a busy home (R425): its address and bytes, and the open transactions, as (home, SRC, TXN),
that came before it. -/
structure MemWrite where
  addr : Nat
  data : List Byte
  behind : List (Nat × Nat × Nat)
  deriving DecidableEq, Repr

/-- An ordered doorbell that a core’s port holds (R447): its core, queue and value, and the number of the core’s next write, before which
every write must have completed. -/
structure OdbSt where
  core : Nat
  q : Nat
  val : Nat
  before : Nat
  deriving DecidableEq, Repr

/-- A request that a caching agent has open (R432): the access that waits for it. `store` 0 none, 1 store, 2 uncached, 3 uncached with its
WbData under way. -/
structure Req where
  agent : Nat
  line : Nat
  op : Nat
  txn : Nat
  core : Nat
  addr : Nat
  width : Nat
  kind : HostAccess
  store : Nat
  data : Line
  /-- The home, or the owner, has sent its fill. -/
  granted : Bool
  /-- The dirty line that its owner has given up and that is on its way here (R434). -/
  flight : Option Line
  /-- A snoop has left the line shared after the home had granted its Upgr: the grant no longer holds (R434, R435). -/
  stale : Bool
  /-- Its number among the writes of the host cores, in order of issue (R447). -/
  no : Nat
  deriving DecidableEq, Repr

/-- A stop of the coherence domain that has been detected (R470), and whether DOMAIN_STOP has completed it. -/
structure StopSt where
  cause : Nat
  detail : Nat
  agent : Nat
  line : Nat
  lap : Nat
  latched : Bool
  /-- The home of the ring line cannot be reached (R472). -/
  cut : Bool
  deriving DecidableEq, Repr

/-- An entry of a host die's hot-page tracker (R505 to R507). -/
structure TrkEnt where
  h : Nat
  frame : Nat
  ctx : Nat
  vpage : Nat
  count : Nat
  adv : Nat
  explicit : Bool
  noted : Bool
  deriving DecidableEq, Repr

/-- A bias command in progress (R454 to R459). -/
structure BiasSt where
  bias : Nat
  frame : Nat
  count : Nat
  /-- Pages that flipped back to SHARED (R459). -/
  undone : List Nat
  deriving DecidableEq, Repr

/-- A walk of one region of a submission command (R488, R489): its pages, the next page, and the fault record that holds it,
with whether that record is being resumed. Side 0 is the source list, 1 the destination list. -/
structure WalkSt where
  id : Nat
  q : Nat
  entry : Nat
  side : Nat
  ctx : Nat
  vpage : Nat
  pages : Nat
  write : Bool
  next : Nat
  held : Option (Nat × Bool)
  noRec : Bool
  /-- It holds a walker slot (R489). -/
  slot : Bool
  deriving DecidableEq, Repr

/-- A shootdown accepted and not complete (R500, R501). -/
structure SdSt where
  token : Nat
  notify : Bool
  ctx : Nat
  vpage : Nat
  pages : Nat
  invalidated : Nat
  waited : Nat
  /-- The lap of acceptance. -/
  since : Nat
  deriving DecidableEq, Repr

/-- A command that the submission unit accepted: 0 its regions are being translated, 1 ready, 2 started, 3 ended (R523,
R534, R528). A SNAPSHOT that waits for its flip has `wait`; the version it took is (die, slot, shard, version). Its entry counts on by 65,536 with each
disabling of its queue, so that a command which outlives one is told from a later one in the same entry. -/
structure CmdSt where
  entry : Nat
  w : Nat
  stage : Nat
  status : Nat
  detail : Nat
  wait : Bool
  ver : Option (Nat × Nat × Nat × Nat)
  /-- The epoch of the version it took (R532), and the pages of its destination whose walk was asked for (R488). -/
  epoch : Nat
  pages : Nat
  deriving DecidableEq, Repr

/-- A submission queue beyond its registers: the most recent TAIL, re-reads of a stale head, its commands in ring order,
ended commands in completion order, the next completion entry and how many are not consumed. -/
structure QueueSt where
  tail : Nat
  rereads : Nat
  stale : Bool
  cmds : List CmdSt
  done : List CmdSt
  ctail : Nat
  ccount : Nat
  halted : Bool
  heldLaps : Nat
  /-- Times that the queue has been disabled (R517). -/
  gen : Nat
  deriving DecidableEq, Repr

/-- A queue that is not in use.
[DESIGN CHOICE, notes/assumptions/5.md] -/
def QueueSt.init : QueueSt := ⟨0, 0, false, [], [], 0, 0, false, 0, 0⟩

/-- An engine that runs a queue's command (R534): messages sent and not acknowledged as (TAG, index), the next message of a
peer write, its failure, and STATE of the slot of the queue's context when it took the command (R542, R545). -/
structure EngSt where
  q : Nat
  entry : Nat
  msgs : List (Nat × Nat)
  next : Nat
  failed : Option (Nat × Nat)
  slotSt : Nat
  deriving DecidableEq, Repr

/-- A rotation under way in partition 4n + m (R119 to R121, R734): outgoing and incoming physical index, the step, and
whether the hold has begun. -/
structure RotSt where
  out : Nat
  inn : Nat
  step : Nat
  holding : Bool
  deriving DecidableEq, Repr


/-- A motion vector of an encoded frame (R597, R598): block, reference, the predictor used and the vector, in luma samples. -/
structure Motion where
  block : Nat
  ref : Nat
  pred : Int × Int
  mv : Int × Int
  deriving DecidableEq, Repr

/-- An open stream context of a Prism engine (R577, R593, R614): the translation context that owns it, its parameter block,
commands completed, frames started, the last QP, and the display order of the most recent undamaged picture. -/
structure CtxSt where
  tctx : Nat
  par : Nat
  count : Nat
  frames : Nat
  qp : Option Nat
  lastGood : Option Nat
  anyFrame : Bool
  /-- What the parameters, the inputs and the sequence of the context's commands have come to (R601). -/
  hist : Nat
  /-- The vectors of the last frame it encoded. -/
  vectors : List Motion
  deriving DecidableEq, Repr

/-- A bound slice of a surface (R588): its number, first virtual page, bytes, byte offset in the first page, and frames. -/
structure SliceSt where
  slice : Nat
  va : Nat
  len : Nat
  frames : List (Option Nat)
  deriving DecidableEq, Repr

/-- A surface of a Prism engine (R589): its owner and geometry, and its slices. -/
structure SurfSt where
  tctx : Nat
  fmt : Nat
  width : Nat
  height : Nat
  pitch : Nat
  slices : List SliceSt
  deriving DecidableEq, Repr



/-- A node of a Relay tree that this module serves (R346 to R350, R356): its tile and level, the input blocks it holds, and
whether its output has been made. -/
structure RNode where
  tile : Nat
  level : Nat
  inputs : List RelayBlock
  done : Bool
  deriving DecidableEq, Repr

/-- A Relay block that is sent and not acknowledged (R353): the number of the send, the member it goes to, what it is (0 a
sum to a node, 1 a sum to an owner, 2 a scale return), its tile and level, and the block. -/
structure RSent where
  tag : Nat
  dest : Nat
  kind : Nat
  tile : Nat
  level : Nat
  block : RelayBlock
  deriving DecidableEq, Repr

/-- The Relay state of a slot for the step in progress (R335, R341, R353 to R356): its nodes, its blocks sent, the tiles that
wait for a scale return, the tiles pushed, the failed attempts of each block by sender, tile, level and first record, the nodes
(tile and level) that have had every input, and the logical engines whose physical engine failed in the step (R360). -/
structure RelaySt where
  nodes : List RNode
  sent : List RSent
  expect : List Nat
  pushed : List Nat
  tries : List ((Nat × Nat × Nat × Nat) × Nat)
  made : List (Nat × Nat)
  dead : List Nat
  deriving DecidableEq, Repr

/-- A request for a tile context that waits (R356, R357): its slot, tile and level, and what asks: a block, with the port on which it came (none for
one of this module), or the head of a cluster's push buffer. -/
structure RelayAsk where
  slot : Nat
  tile : Nat
  level : Nat
  block : Option (Option Nat × RelayBlock)
  cl : Option ClusterId
  deriving DecidableEq, Repr

/-- A copy area of a slot's partner region (R697, R716, R719, R720): the source whose copy arrives or has arrived, whether a new
copy has begun since the last halt began, and whether the holder forwards it. -/
structure CopySt where
  src : Option Nat
  begun : Bool
  forwarding : Bool
  deriving DecidableEq, Repr

/-- An entry of a registration table (R693). -/
structure RegEnt where
  base0 : Nat
  base1 : Nat
  len : Nat
  flags : Nat
  shard : Nat
  deriving DecidableEq, Repr

/-- The checkpoint state of a slot (R701 to R726). -/
structure CkptSt where
  /-- This member's END, and the decision held. -/
  endLap : Nat
  dec : Option Msg
  /-- The member has sent its END; it streams its segments; its copy is complete; what keeps it from being so. -/
  sent : Bool
  capturing : Bool
  complete : Bool
  cause : Option Nat
  /-- The registration entries at K, each with the base of the version read, and the digests of the segments (R712, R721). -/
  regions : List RegEnt
  digests : List Nat
  /-- Chunks acknowledged as (segment, chunk), and chunks of the manifest. -/
  acked : List (Nat × Nat)
  mfAcked : List Nat
  /-- The manifest has been sent. -/
  mfSent : Bool
  /-- The copy areas of the slot's partner region. -/
  area1 : CopySt
  area2 : CopySt
  /-- The verify in progress: 1 all, 2 marked segments, 0 none; CLEAN, PEND_G and PEND_WG kept for the swap (R726). -/
  vop : Nat
  kept : Option (Nat × Nat × Nat)
  deriving DecidableEq, Repr

/-- A slot that has halted for no checkpoint.
[DESIGN CHOICE, notes/assumptions/5.md] -/
def CkptSt.init : CkptSt :=
  ⟨0, none, false, false, false, none, [], [], [], [], false, ⟨none, false, false⟩, ⟨none, false, false⟩, 0, none⟩

/-- A flit that waits at the port on which it leaves: the flit, the message it belongs to (64 and more for the module's own, else the
port on which it came), and for a flit in transit that port and the class of the buffer it holds there, 4 shared (R401, R405). -/
structure QFlit where
  flit : Flit
  mid : Nat
  held : Option (Nat × Nat)
  deriving DecidableEq, Repr

/-- A port's state that no register shows (R401 to R417). -/
structure PortSt where
  /-- Next SEQ expected and next sent; flits sent and not acknowledged. -/
  rx : Nat
  tx : Nat
  replay : List Flit
  /-- NAKs sent in a row, and NAKs received in a row with the number they ask for. -/
  naks : Nat
  nakIn : Nat × Nat
  /-- Failed training attempts; the port waits for its next attempt; it is in RETRAIN, or in the CREDIT that follows. -/
  tries : Nat
  retry : Bool
  retraining : Bool
  /-- The lap of the diagnosis that waits for a reserve engine; the lap at which a swapped port entered RETRAIN; the failed engine. -/
  swapWait : Option Nat
  swapFrom : Option Nat
  failedEng : Option Nat
  /-- Sequence number of its last delay request. -/
  dreq : Nat
  /-- The lap at which it left UP. -/
  left : Option Nat
  /-- Credits held for each virtual channel and class (8 · VC + CSTAGE). -/
  credits : Sparse Nat
  /-- Flits that wait to leave; for each virtual channel the message under way, plus 1; turns of channels 0 and 1. -/
  queue : List QFlit
  busy : Sparse Nat
  turn : Nat
  /-- For each virtual channel the port, plus 1, on which the message that arrives here goes on. -/
  via : Sparse Nat
  deriving DecidableEq, Repr

/-- A port that has carried nothing.
[DESIGN CHOICE, notes/assumptions/5.md] -/
def PortSt.init : PortSt := ⟨0, 0, [], 0, (0, 0), 0, false, false, none, none, none, 0, none, [], [], [], 0, []⟩

/-- A self-test window that is open (R730): kind, die, unit, and for a cluster the role it returns to. -/
structure TestSt where
  kind : Nat
  die : Nat
  unit : Nat
  role : Nat
  deriving DecidableEq, Repr

/-- What power and temperature measurement holds (R617 to R648). -/
structure PowerSt where
  /-- Input power in W, input voltage in mV and input current in 0.01 A of past samples, newest first: 4,193 at most (R626). -/
  samples : List (Nat × Nat × Nat)
  /-- Delivered energy of each rail in the interval, and energy of the input and of all rails, in W·µs (R619). -/
  railE : Sparse Nat
  inE : Nat
  outE : Nat
  /-- Samples in the interval, and its highest 1 ms average. -/
  count : Nat
  peak : Nat
  /-- Highest reading of each sensor, and lowest voltage of each monitor, in the interval. -/
  tMax : Sparse Nat
  vMin : Sparse Nat
  /-- Sensors that keep a fast hold, the level it holds, and the slots it holds (R647). -/
  hot : List Nat
  cap : Nat
  capped : List Nat
  /-- The clusters' clocks are stretched for one sample; the limiter's g; the ceiling that limited it last (R627, R629). -/
  stretched : Bool
  g : Nat
  why : Nat
  /-- Least g and the ceilings of the interval; throttled samples of it and of the one before. -/
  gMin : Nat
  ceil : Nat
  thr : Nat
  thrPrev : Nat
  /-- Input voltage of the last sample, averaged over 100 µs. -/
  lastMv : Nat
  /-- Clusters whose clock a droop stretches (R645). -/
  droops : List Nat
  /-- The pace mark whose work has been done. -/
  mark : Option Nat
  deriving DecidableEq, Repr

/-- No reading taken.
[DESIGN CHOICE, notes/assumptions/5.md] -/
def PowerSt.init : PowerSt :=
  ⟨[], [], 0, 0, 0, 0, [], [], [], 16, [], false, 16, 0, 16, 0, 0, 0, 0, [], none⟩

/-- The TAP (R763 to R765): the instruction, the value that Capture-DR loads after a REGREAD, and the boundary register. -/
structure JtagSt where
  ir : Nat
  capture : Nat
  bsr : Nat
  deriving DecidableEq, Repr

/-- What a job slot holds beyond its registers. -/
structure SlotSt where
  /-- The stopped job still owes its last contribution, with ABORT (R51). -/
  owesVote : Bool
  /-- The loaded step program (R238). -/
  prog : Option Program
  /-- The submission queue whose LOAD is in progress (R239). -/
  loadQ : Option Nat
  /-- OVF, cast NF and RANGE of the even and of the odd step (R134, R783). -/
  ovfEven : Bool
  ovfOdd : Bool
  nfEven : Bool
  nfOdd : Bool
  rangeEven : Nat
  rangeOdd : Nat
  /-- NONFINITE_ACCUM was written for the even, for the odd step (R104). -/
  accEven : Bool
  accOdd : Bool
  /-- Consecutive skips at LS_MIN (SCALE_FLOOR). -/
  floorRun : Nat
  /-- RLAP, CSTAT.OUTCOME and CSTAT.RESOLVED (R174, R175). -/
  rlap : Nat
  outcome : Bool
  resolved : Bool
  /-- The flip lap of the last committed step (R309). -/
  flipLap : Option Nat
  /-- EPOCH_FLIP has passed for that flip lap. -/
  flipDone : Bool
  /-- The Hurdle mark of the step in progress has passed (R222). -/
  marked : Bool
  /-- The drain mark of the step in progress has passed (R288). -/
  drained : Bool
  /-- STEP at the entry to RUNNING, and NUM_SEED as adopted there (R152). -/
  startStep : Nat
  seed : Nat
  /-- The fault record that holds the load, and whether it is being resumed (R548). -/
  loadHeld : Option (Nat × Bool)
  /-- The load waits for a walker slot, or has one (R489). -/
  loadAsk : Bool
  loadSlot : Bool
  /-- The load has passed every step but its record (R238). -/
  loadDone : Bool
  /-- The step for which WLAP_LATE was written (R219). -/
  lateStep : Option Nat
  /-- The Hurdle outcome held for C (R370, R375), and the lap at which one arrived after H + 16 (R377). -/
  outMsg : Option Msg
  outLate : Option Nat
  /-- The PDEC held for the next pace mark (R641). -/
  paceMsg : Option Msg
  /-- CLIP of the even and of the odd step (R333, R783). -/
  clipEven : Bool
  clipOdd : Bool
  /-- RELAY_INCOMPLETE was written for the step in hand. -/
  incomplete : Bool
  /-- The Relay work of the step in progress. -/
  relay : RelaySt
  /-- Checkpoint and verify state. -/
  ck : CkptSt
  /-- The pace mark of the vote in hand (R638). -/
  paceAt : Option Nat
  /-- Droop-stretched cycles and throttled cycles of the slot in the interval (R635, R646). -/
  droop : Nat
  throttled : Nat
  deriving DecidableEq, Repr

/-- A slot that holds no job.
[DESIGN CHOICE, notes/assumptions/5.md] -/
def SlotSt.init : SlotSt where
  owesVote := false
  prog := none
  loadQ := none
  ovfEven := false
  ovfOdd := false
  nfEven := false
  nfOdd := false
  rangeEven := 0
  rangeOdd := 0
  accEven := false
  accOdd := false
  floorRun := 0
  rlap := 0
  outcome := false
  resolved := false
  flipLap := none
  flipDone := false
  marked := false
  drained := false
  startStep := 0
  seed := 0
  loadHeld := none
  loadAsk := false
  loadSlot := false
  loadDone := false
  lateStep := none
  outMsg := none
  outLate := none
  paceMsg := none
  clipEven := false
  clipOdd := false
  incomplete := false
  relay := ⟨[], [], [], [], [], [], []⟩
  ck := CkptSt.init
  paceAt := none
  droop := 0
  throttled := 0


/-- The state of the module. -/
structure State where
  /-- Commands that wait, first in, first out. -/
  pending : List Instr
  /-- The model's own step counter, to which free values are applied (DESIGN CHOICE, notes/assumptions/2.md). -/
  free : Nat
  /-- The live control-window registers by offset. -/
  regs : Sparse Word
  /-- The values that RL fields show: the registers at the most recent lap mark (R10). -/
  latched : Sparse Word
  /-- The staged values of registers with RS fields, where they differ from live (R672). -/
  staged : Sparse Word
  /-- HBM and the capacity tier: every byte written since power-on or module reset (R776). -/
  mem : List Host.Cell
  /-- What has left the module. -/
  out : List Out
  /-- The event ring beside its registers. -/
  ring : RingSt
  /-- The lap clock beside its registers. -/
  lap : LapSt
  /-- Armed scheduled events (R78), at most 64. -/
  arms : List Arm
  /-- Votes in the collectors of this module (R364, R638, R682, R707). -/
  votes : List VoteSt
  /-- Homes (8 HD0, 9 HD1) that a host-die reset holds out of reach (R571, R573). -/
  hdAway : List Nat
  /-- Physical clusters: CDn.Ckkk under 288 n + kkk. -/
  clusters : Sparse ClusterSt
  /-- The stash of slot j on die n, under 16 n + j. -/
  stash : Sparse StashSt
  /-- Weight shard h of slot j homed on die n, under (16 n + j) · 256 + h. -/
  shards : Sparse ShardSt
  /-- Tile t of tied-weight group g of slot j, under (8 j + g) · 2048 + t. -/
  ties : Sparse TieSt
  /-- Job slots 0 to 15. -/
  slots : Sparse SlotSt
  /-- Lines that the two caching agents hold (R423, R434). -/
  lines : List CacheLine
  /-- Core and line: the line lies in the core’s private L2 too, oldest first (R552, R553). -/
  l2 : List (Nat × Nat)
  /-- Interrupts that have reached an interrupt file: EIIDs by 64 · hart + file (R531, R555). -/
  imsic : Sparse (List Nat)
  /-- Inbound PCIe requests that flow control or a busy home holds, by root port, in order (R559, R567). -/
  pcieHeld : List (Nat × PcieReq)
  /-- WbData sent and not yet taken by its home: agent, line, data (R437). -/
  wbs : List (Nat × Nat × Line)
  /-- TXN of the WbData of an eviction that its home has not yet taken: agent, line, TXN (R429). -/
  wbTxns : List (Nat × Nat × Nat)
  /-- Directory entries by line number (R435). -/
  dirs : Sparse DirSt
  /-- Bias of each page frame; 0 SHARED (R451). -/
  bias : Sparse Nat
  /-- Transactions at the homes, in order of arrival (R425). -/
  txns : List Txn
  /-- Requests that the caching agents have open (R432). -/
  reqs : List Req
  /-- TXN of the next request. -/
  reqNo : Nat
  /-- Requests of device origin that are open at a home: SRC, TXN and line (R429, R469). -/
  devReqs : List (Nat × Nat × Nat)
  /-- Writes of the module's units that wait at busy homes, in order (R425). -/
  memQ : List MemWrite
  /-- SnpFlush sent and not answered: agent and line (R443, R455, R569). -/
  flushes : List (Nat × Nat)
  /-- Agent and line in tenure (R439), and the snoops held for it or for a fill (R433). -/
  tenures : List (Nat × Nat)
  heldSnps : List (Nat × CrMsg)
  /-- Home and agent: the home has received the agent’s Withdraw (R467). -/
  gone : List (Nat × Nat)
  /-- Agents that withdraw and have not yet sent their Withdraw (R467). -/
  leaving : List Nat
  /-- Credits returned, by sender and receiver: SRC · 65536 + DST (R430). -/
  credits : Sparse Nat
  /-- Bit errors that stand in the homes' protected arrays (R438, R453): key 3x + k, k 0 the directory entry of line x, 1 the directory
  cache at line x, 2 the bias of page x; 1 a single-bit error, 2 an uncorrectable one. Nothing in the module makes one: they arise from
  outside (notes/assumptions/33.md). -/
  eccErrs : Sparse Nat
  /-- Spare lanes that a die link has used in each direction (R464). -/
  laneUse : Sparse (Nat × Nat)
  /-- Trigger of each die link’s retrain in progress (R464). -/
  linkWhy : Sparse Nat
  /-- Next flit that each die link expects (R463). -/
  linkSeq : Sparse Nat
  /-- A detected stop of the coherence domain (R470). -/
  stop : Option StopSt
  /-- The bias command in progress (R454). -/
  biasCmd : Option BiasSt
  /-- Hot-page tracker entries of both host dies (R505). -/
  tracker : List TrkEnt
  /-- Notification ring: next entry, phase, entries not consumed (R509). -/
  nqTail : Nat
  nqPhase : Bool
  nqCount : Nat
  /-- Walks of submission regions, in the order they were asked for. -/
  walks : List WalkSt
  /-- The stream that was last granted a walker slot: a queue, or 256 and more for the load of a slot (R489). -/
  walkTurn : Nat
  /-- The lap, plus one, at which the counts of each host die’s tracker were last halved (R506). -/
  decayed : Sparse Nat
  /-- Number of the next walk (R488). -/
  walkNo : Nat
  /-- Fault queue: next entry and phase (R494). -/
  fqTail : Nat
  fqPhase : Bool
  /-- Shootdowns accepted, in order (R502). -/
  sds : List SdSt
  /-- Submission queues 0 to 255. -/
  queues : Sparse QueueSt
  /-- Busy engines: 0 to 15 tier, 16 to 23 peer, 24 to 39 Prism. -/
  engs : List (Nat × EngSt)
  /-- Queue that each engine served last (R534). -/
  rrobin : Sparse Nat
  /-- Prism contexts 64 e + c that are open. -/
  ctxs : Sparse (Option CtxSt)
  /-- Prism surfaces 1,024 e + s that are bound. -/
  surfs : Sparse (Option SurfSt)
  /-- Engines 0 to 39 whose started command waits in a fault record: engine, record, whether it is being resumed (R498). -/
  engHeld : List (Nat × Nat × Bool)
  /-- Bytes that each copy engine has moved (CPE_ENG_e.GBYTES). -/
  moved : Sparse Nat
  /-- TAG of the next peer message. -/
  peerTag : Nat
  /-- Ordered doorbells that the cores’ ports hold (R447). -/
  odbs : List OdbSt
  /-- Accesses of host cores that wait for a request of their own agent, in order of issue, with their numbers (R432, R447). -/
  hostWaits : List (Nat × Instr)
  /-- Number of the next write of a host core (R447). -/
  wrNo : Nat
  /-- Occurrences since the last record, and the records written since the last pace mark, of the conditions that write one record per pace mark: condition · 1024 + unit. -/
  since : Sparse Nat
  told : List Nat
  /-- Host die in a reset: 1 core complex, 2 host die, and the requester’s acceptance is past. -/
  hostPhase : Sparse Nat
  /-- Rotation of each partition (R734). -/
  rots : Sparse (Option RotSt)
  /-- RS fields that each slot takes when it becomes EMPTY (R664). -/
  template : Sparse Word
  /-- Acmet ports 0 to 51. -/
  ports : Sparse PortSt
  /-- Self-test windows that are open (R730). -/
  tests : List TestSt
  /-- Clusters that are due for a kind-5 test (R735). -/
  deferred : List Nat
  /-- Power and temperature measurement. -/
  power : PowerSt
  /-- Bit j: a DEGRADED record has been written since the last Hurdle mark of slot j (R361). -/
  degr : Nat
  /-- Number of the next Relay send. -/
  relayTag : Nat
  /-- Relay blocks that wait for a tile context, in order of request (R356). -/
  asks : List RelayAsk
  /-- Number of the next message that leaves on Acmet (R397), and messages that management discarded (R407). -/
  msgNo : Nat
  mgmtDrops : Nat
  /-- Failed Relay engines that wait for a resolve lap to be replaced (R360), and whether one found no reserve. -/
  engSwap : List Nat
  relayDead : Bool
  /-- MRST_N is asserted; the rails are in regulation; a power-off is not yet reported by POWER_TRIP (R649, R744 to R747). -/
  mrst : Bool
  rails : Bool
  tripped : Bool
  /-- The management standby domain answers (MGMT_RDY, R741). -/
  standby : Bool
  /-- The TAP. -/
  jtag : JtagSt
  /-- SPDM connection: 1 version given, 2 capabilities, 3 algorithms negotiated (R755). -/
  spdm : Nat
  /-- The accepted image, until the start sequence has used it (R656, R666). -/
  image : List Byte
  /-- DIGEST of the accepted image (R756). -/
  imgDigest : Nat
  deriving DecidableEq, Repr

/-- The reasons a command ends in a fault. -/
inductive Fault where
  /-- An address that no home serves (R27). No command raises it: each access to a hole has the effect that R27, R477 and R478 give
  it. Safe: no run ends in it. -/
  | noSuchAddress
  deriving DecidableEq, Repr

/-- The reasons a command is refused. -/
inductive Refusal where
  /-- A command without a meaning in this model. Raised by Machine/Dispatch.lean only. Safe. -/
  | notModelled (mnemonic : String)
  deriving DecidableEq, Repr

/-- The outcome of one command. -/
abbrev Res := Host.Outcome State Fault Refusal

/-- The module right after module reset, before the start sequence: every register at the reset value of its map, memory
with nothing listed, no command waiting. Values the manual does not state are named in notes/assumptions/5.md (DESIGN CHOICE), among
them that LAPREF, its 10 MHz and its PPS, counts as present until LAPREF_LOST comes (R58). -/
def State.reset : State where
  pending := []
  free := 0
  regs := []
  latched := []
  staged := []
  mem := []
  out := []
  ring := ⟨0, true, 0, 0, [], 0, 0⟩
  lap := ⟨[], [], 0, 0, 0, 0, none, 0, 0, false, false, false, 0, false, 0, false, false, 0, false, false, [], [], true, true, false⟩
  arms := []
  votes := []
  hdAway := []
  clusters := []
  stash := []
  shards := []
  ties := []
  slots := []
  lines := []
  l2 := []
  imsic := []
  pcieHeld := []
  wbs := []
  wbTxns := []
  dirs := []
  bias := []
  txns := []
  reqs := []
  reqNo := 0
  devReqs := []
  memQ := []
  flushes := []
  tenures := []
  heldSnps := []
  gone := []
  leaving := []
  credits := []
  eccErrs := []
  laneUse := []
  linkWhy := []
  linkSeq := []
  stop := none
  biasCmd := none
  tracker := []
  nqTail := 0
  nqPhase := true
  nqCount := 0
  walks := []
  walkTurn := 271
  decayed := []
  walkNo := 0
  fqTail := 0
  fqPhase := true
  sds := []
  queues := []
  engs := []
  rrobin := []
  ctxs := []
  surfs := []
  engHeld := []
  moved := []
  peerTag := 0
  odbs := []
  hostWaits := []
  wrNo := 0
  since := []
  told := []
  hostPhase := []
  rots := []
  template := []
  ports := []
  tests := []
  deferred := []
  power := PowerSt.init
  degr := 0
  relayTag := 0
  asks := []
  msgNo := 0
  mgmtDrops := 0
  engSwap := []
  relayDead := false
  mrst := false
  rails := false
  tripped := false
  standby := true
  jtag := ⟨0, 0, 0⟩
  spdm := 0
  image := []
  imgDigest := 0

end Sys2Proof.Machine
end

