-- ==== Sys2Proof/Machine/Ops.lean ====
section
/-!
DEFINITION. The named operations over registers, memory, event records, job slots and armed events, each the one place
where the manual's rule about it is coded. Every meaning is written over these.
-/

namespace Sys2Proof

open Sys2Proof.Machine

/-! Messages. -/

/-- Byte `i` of a message. -/
def Msg.byte (m : Msg) (i : Nat) : Nat := bits m.w (8 * i + 7) (8 * i)
/-- `n` little-endian bytes from byte `i`. -/
def Msg.le (m : Msg) (i n : Nat) : Nat := bits m.w (8 * (i + n) - 1) (8 * i)
/-- A message from its fields: byte offset, byte count, value. -/
def msgOf (len : Nat) (fs : List (Nat × Nat × Nat)) : Msg :=
  ⟨len, fs.foldl (fun a f => a ||| ((f.2.2 % 2 ^ (8 * f.2.1)) <<< (8 * f.1))) 0⟩
/-- The bytes of a message. -/
def Msg.bytes (m : Msg) : List Byte := leBytes m.len m.w
/-- A message with CRC-32C of its other bytes in the four bytes at `at_`. -/
def Msg.withCrc (m : Msg) (at_ : Nat) : Msg :=
  let other := m.bytes.take at_ ++ m.bytes.drop (at_ + 4)
  ⟨m.len, m.w ||| (crc32c other <<< (8 * at_))⟩
/-- Is the CRC of a message good? -/
def Msg.crcGood (m : Msg) (at_ : Nat) : Bool :=
  m.le at_ 4 == crc32c (m.bytes.take at_ ++ m.bytes.drop (at_ + 4))

end Sys2Proof

namespace Sys2Proof.Machine

/-- SRC: die and unit (R12). -/
def srcOf (die unit : Nat) : Nat := (die <<< 11) ||| (unit % 2048)
/-- SRC of a module-level unit.
[DEDUCED, notes/assumptions/83.md] -/
def srcModule (unit : Nat) : Nat := srcOf 31 unit

/-! Registers (R6 to R10). -/

/-- `w` with the low bits of `v` in bits [hi:lo]. -/
def putBits (w : Word) (hi lo v : Nat) : Word :=
  (w &&& ~~~ BitVec.ofNat 64 (place hi lo (2 ^ 64 - 1))) ||| BitVec.ofNat 64 (place hi lo v)

/-- The bits of `w` that `mask` selects come from `v`. -/
def mergeMask (mask w v : Word) : Word := (w &&& ~~~ mask) ||| (v &&& mask)

/-- The live 64-bit value stored at an offset. -/
def State.reg (s : State) (off : Nat) : Word := sget resetWord s.regs off

/-- Store the live value at an offset. -/
def State.setReg (s : State) (off : Nat) (v : Word) : State := { s with regs := sset resetWord s.regs off v }

/-- The live value of a field. -/
def State.rd (s : State) (f : Fld) : Nat := bits (s.reg f.off).toNat f.hi f.lo

/-- Set the live value of a field. -/
def State.wr (s : State) (f : Fld) (v : Nat) : State := s.setReg f.off (putBits (s.reg f.off) f.hi f.lo v)

/-- The width of a field. -/
def Fld.width (f : Fld) : Nat := f.hi + 1 - f.lo

/-- Add to a saturating counter. -/
def State.add (s : State) (f : Fld) (n : Nat) : State := s.wr f (satTo f.width (s.rd f + n))

/-- Count one in a saturating counter. -/
def State.inc (s : State) (f : Fld) : State := s.add f 1

/-- A signed field. -/
def State.rdInt (s : State) (f : Fld) : Int := signed f.width (s.rd f)

/-- Set a signed field. -/
def State.wrInt (s : State) (f : Fld) (v : Int) : State := s.wr f (unsignedOf f.width v)

/-- Set one bit field. -/
def State.wrB (s : State) (f : Fld) (b : Bool) : State := s.wr f (b2n b)

/-- The live word of a register with RS fields: SHD_SLOT_n mirrors STR_SLOT_n (its RS fields read the live state). -/
def State.liveWord (s : State) (off : Nat) : Word :=
  if Reg.SHD_SLOT 0 ≤ off && off < Reg.SHD_SLOT 16 && off % 8 = 0 then
    let n := (off - Reg.SHD_SLOT 0) / 8
    BitVec.ofNat 64 (place 63 61 (s.rd (F.STR_SLOT_STATE n)) ||| place 55 44 (s.rd (F.STR_SLOT_JOB_ID n))
      ||| place 31 0 (s.rd (F.STR_SLOT_PARTITIONS n)))
  else s.reg off

/-- The staged value of a register: its live value where nothing differs (R672).
[DEDUCED, notes/assumptions/74.md] -/
def State.stagedWord (s : State) (off : Nat) : Word := sget s.liveWord s.staged off

/-- A staged field.
[DEDUCED, notes/assumptions/74.md] -/
def State.srd (s : State) (f : Fld) : Nat := bits (s.stagedWord f.off).toNat f.hi f.lo

/-- Set the staged value of a register; a value equal to live leaves nothing staged.
[DEDUCED, notes/assumptions/74.md] -/
def State.stage (s : State) (off : Nat) (v : Word) : State := { s with staged := sset s.liveWord s.staged off v }

/-- What a read of the control window returns (R6, R9, R10): WO bits zero, RL bits as latched at the last lap mark, every
other field live. SHD_PEEK_DATA shows the staged RS fields of the register that SHD_PEEK_ADDR names. -/
def State.readWord (s : State) (off : Nat) : Word :=
  if off = Reg.SHD_PEEK_DATA then
    let a := s.rd F.SHD_PEEK_ADDR_OFFSET * 8
    mergeMask (accMask .rs a) (mergeMask (accMask .rl a) (s.liveWord a) (sget resetWord s.latched a) &&& ~~~ accMask .wo a)
      (s.stagedWord a)
  else
    mergeMask (accMask .rl off) (s.liveWord off) (sget resetWord s.latched off) &&& ~~~ accMask .wo off

/-- The values that RL fields show become the live ones: at a lap mark, after every event it applies (R10).
[DEDUCED, notes/assumptions/73.md] -/
def State.latch (s : State) : State := { s with latched := s.regs }

/-- The frequency that core c is to run at: its TARGET, at most 3.4 GHz (R554). -/
def State.coreGoal (s : State) (c : Nat) : Nat := min (s.rd (F.PCE_CORE_TARGET c)) 26

/-! Sub-states by number. -/

/-- What slot j holds. -/
def State.slot (s : State) (j : Nat) : SlotSt := sget (fun _ => SlotSt.init) s.slots j
/-- Set what slot j holds. -/
def State.setSlot (s : State) (j : Nat) (v : SlotSt) : State :=
  { s with slots := sset (fun _ => SlotSt.init) s.slots j v }

/-- The number of a cluster in `State.clusters`. -/
def clKey (cl : ClusterId) : Nat := 288 * cl.die + cl.idx
/-- What a cluster holds. -/
def State.cluster (s : State) (cl : ClusterId) : ClusterSt := sget (fun _ => ClusterSt.init) s.clusters (clKey cl)
/-- Set what a cluster holds. -/
def State.setCluster (s : State) (cl : ClusterId) (v : ClusterSt) : State :=
  { s with clusters := sset (fun _ => ClusterSt.init) s.clusters (clKey cl) v }

/-- The next step of the free-value counter.
[DESIGN CHOICE, notes/assumptions/2.md] -/
def State.tick (s : State) : State := { s with free := s.free + 1 }

/-- A value that the manual leaves open: the `k`-th of this command (DESIGN CHOICE, notes/assumptions/2.md).
[DESIGN CHOICE, notes/assumptions/36.md] -/
def State.freeNat (s : State) (k : Nat) : Nat := Config.freeNat s.free k

/-- Send something out of the module.
[DEDUCED, notes/assumptions/9.md] -/
def State.send (s : State) (o : Out) : State := { s with out := s.out ++ [o] }

/-! Memory. -/

/-- Is a request for a line open whose fill is on its way? -/
def Req.filling (r : Req) (line : Nat) : Bool := r.line == line && r.granted && (r.op == 1 || (r.op == 2 && r.store != 3))

/-- The dirty value of a line that a caching agent holds in M, or that is on its way home in a WbData or to its next owner in a FwdData
(R434, R437). -/
def State.dirty (s : State) (line : Nat) : Option Line :=
  match s.lines.find? (fun c => c.line == line && c.st == 3), s.wbs.find? (fun w => w.2.1 == line) with
  | some c, _ => some c.data
  | none, some w => some w.2.2
  | none, none => s.reqs.findSome? (fun r => if r.filling line then r.flight else none)

/-- Byte i of a line. -/
def lineByte (d : Line) (i : Nat) : Byte := d.extractLsb' (8 * i) 8

/-- The byte that memory itself holds; one never written has an unspecified value (R776).
[DESIGN CHOICE, notes/assumptions/2.md] -/
def State.rawByte (s : State) (a : Nat) : Byte :=
  match cellGet s.mem a with
  | some v => v
  | none => Config.freeByte s.free a

/-- The byte at a physical address as every agent sees it (R426, R448): a dirty copy in a cache comes before memory.
[DESIGN CHOICE, notes/assumptions/2.md] [DEDUCED, notes/assumptions/80.md] -/
def State.memByte (s : State) (a : Nat) : Byte :=
  match s.dirty (a / 64) with
  | some d => lineByte d (a % 64)
  | none => s.rawByte a

/-- Write one byte of memory itself. -/
def State.rawSet (s : State) (a : Nat) (v : Byte) : State := { s with mem := cellSet s.mem a v }

/-- Write bytes of memory itself. -/
def State.rawBytes (s : State) (a : Nat) : List Byte → State
  | [] => s
  | b :: bs => (s.rawSet a b).rawBytes (a + 1) bs

/-- The 64 bytes of a line. -/
def lineBytes (d : Line) : List Byte := (List.range 64).map (lineByte d)

/-- Every cached copy of a line leaves the caches, a dirty value reaching memory first (R426, R449). A write comes here only once no WbData and no
fill of the line is on its way.
[DEDUCED, notes/assumptions/80.md] -/
def State.uncache (s : State) (line : Nat) : State :=
  if s.lines.any (fun c => c.line == line) then
    let s1 := match s.dirty line with
      | some d => s.rawBytes (64 * line) (lineBytes d)
      | none => s
    { s1 with
      lines := s1.lines.filter (fun c => c.line ≠ line)
      l2 := s1.l2.filter (fun p => p.2 ≠ line)
      dirs := sset (fun _ => (⟨none, []⟩ : DirSt)) s1.dirs line ⟨none, []⟩ }
  else s

/-- Write a byte of memory: no cached copy of its line remains (R426, R449).
[DEDUCED, notes/assumptions/80.md] -/
def State.setByte (s : State) (a : Nat) (v : Byte) : State := (s.uncache (a / 64)).rawSet a v

/-- `n` bytes from address `a`. -/
def State.memBytes (s : State) (a n : Nat) : List Byte := (List.range n).map (fun i => s.memByte (a + i))

/-- Write bytes from address `a` on. -/
def State.setBytes (s : State) (a : Nat) : List Byte → State
  | [] => s
  | b :: bs => (s.setByte a b).setBytes (a + 1) bs

/-- A little-endian number of `n` bytes. -/
def State.memNat (s : State) (a n : Nat) : Nat := ofLe (s.memBytes a n)

/-- Write a little-endian number of `n` bytes. -/
def State.setNat (s : State) (a n v : Nat) : State := s.setBytes a (leBytes n v)

/-- Populated bytes of each host die's capacity tier (R475). -/
def capBytes : Nat := 2 ^ 30 * (if Config.is1T then 512 else 1024)
/-- Bytes of the bias table at the top of a host die's populated tier (R475). -/
def capBias : Nat := 2 ^ 20 * (if Config.is1T then 32 else 64)

/-- The home of a populated physical address: 0–7 for CD0–CD7, 8 and 9 for HD0 and HD1 (R22, R23, R475). -/
def homeOf (a : Nat) : Option Nat :=
  if a < 16 * 2 ^ 36 then
    if a % 2 ^ 36 < 48 * 2 ^ 30 then some (a / 2 ^ 37) else none
  else if a / 2 ^ 40 = 1 then (if a % 2 ^ 40 < capBytes then some 8 else none)
  else if a / 2 ^ 40 = 2 then (if a % 2 ^ 40 < capBytes then some 9 else none)
  else none

/-- Does the address lie in a bias table (R452, R475)? -/
def inBiasTable (a : Nat) : Bool :=
  if a < 16 * 2 ^ 36 then decide (0xBFFD00000 ≤ a % 2 ^ 36) && decide (a % 2 ^ 36 < 48 * 2 ^ 30)
  else (a / 2 ^ 40 == 1 || a / 2 ^ 40 == 2) && decide (capBytes - capBias ≤ a % 2 ^ 40) && decide (a % 2 ^ 40 < capBytes)

/-- A frame (address bits [45:12]) is mappable when it is populated and outside every bias table (R478). -/
def mappable (frame : Nat) : Bool := (homeOf (4096 * frame)).isSome && !inBiasTable (4096 * frame)

/-- Does the area of `n` bytes at `a` lie wholly in mappable frames of HBM (R777)? Mappable HBM is one range per stack.
[DESIGN CHOICE, notes/assumptions/48.md] -/
def wholeHbm (a n : Nat) : Bool :=
  decide (0 < n) && decide (a + n ≤ 16 * 2 ^ 36) && decide (a / 2 ^ 36 = (a + n - 1) / 2 ^ 36)
    && decide ((a + n - 1) % 2 ^ 36 < 0xBFFD00000)

/-- Does the area lie wholly in mappable frames of die n's two HBM stacks?
[DESIGN CHOICE, notes/assumptions/48.md] -/
def wholeDieHbm (n a len : Nat) : Bool :=
  -- the two stacks of a die are not adjacent: an area lies in one of them
  wholeHbm a len && decide (a / 2 ^ 37 = n)

/-- Does the area lie wholly in mappable frames of the capacity tier (R777)? -/
def wholeCap (a n : Nat) : Bool :=
  decide (0 < n) && (a / 2 ^ 40 == 1 || a / 2 ^ 40 == 2) && decide (a / 2 ^ 40 = (a + n - 1) / 2 ^ 40)
    && decide ((a + n - 1) % 2 ^ 40 < capBytes - capBias)

/-- Does the area lie wholly in mappable frames of one tier?
[DEDUCED, notes/assumptions/92.md] -/
def wholeMem (a n : Nat) : Bool := wholeHbm a n || wholeCap a n

/-! The lap clock. -/

/-- The lap count. -/
def State.now (s : State) : Nat := s.rd F.LAP_COUNT_COUNT

/-- The lap clock is LOCKED. LK and START_READY follow STATE 2 (DEDUCED, notes/assumptions/11.md). -/
def State.locked (s : State) : Bool := s.rd F.LAP_STATUS_STATE == 2

/-- The LAP of a record: before the clock first locks, the laps since module reset (R11). -/
def State.recLap (s : State) : Nat := if s.lap.everLocked then s.now else s.lap.sinceReset

/-- Has the coherence domain stopped (R470)?
[DEDUCED, notes/assumptions/8.md] -/
def State.stopped (s : State) : Bool := s.stop.isSome

/-! Contacts (R743 to R748). -/

/-- Contacts by number in `Out.contact`: 0 PWRGD, 1 THERMTRIP_N, 2 STOP_N, 3 XSPI_OWN, 4 MGMT_RDY. A bit of STR_PINS shows the
level of PWRGD and XSPI_OWN, and the assertion of the two open-drain contacts. -/
def State.pin (s : State) (f : Fld) (contact : Nat) (v : Bool) : State :=
  if (s.rd f == 1) = v then s
  else (s.wrB f v).send (.contact contact (if contact = 1 || contact = 2 then !v else v))

/-- Assert STOP_N, with its platform event (R748, R757).
[DEDUCED, notes/assumptions/67.md] [DEDUCED, notes/assumptions/75.md] -/
def State.assertStop (s : State) : State := (s.pin F.STR_PINS_STOP 2 true).send (.pldmEvent 0x0403)

/-- A condition of R469 is detected: the stop network runs, and nothing completes from now on (R470, R471).
[DEDUCED, notes/assumptions/8.md] [DESIGN CHOICE, notes/assumptions/33.md] -/
def State.stopDetect (s : State) (cause detail agent line : Nat) : State :=
  if s.stopped then s
  else ({ s with stop := some ⟨cause, detail, agent, line, s.now, false, false⟩ }).assertStop

/-! Accesses of engines at the homes (R425 to R427, R435, R448, R449). -/

/-- The lines of `n` bytes at `a`. -/
def linesOf (a n : Nat) : List Nat := (List.range ((a % 64 + n + 63) / 64)).map (a / 64 + ·)

/-- Does a waiting write touch a line? -/
def MemWrite.meets (w : MemWrite) (line : Nat) : Bool := decide (w.addr / 64 ≤ line) && decide (line ≤ (w.addr + w.data.length - 1) / 64)

/-- Does an open transaction hold up an access to a line: one of the line itself, or one of its page that waits for a flip (R425, R457)? -/
def Txn.blocks (t : Txn) (line : Nat) : Bool := t.line == line || (t.st == 1 && t.line / 64 == line / 64)

/-- Must an owner that would have to answer a snoop of a line wait for its fill, its grant or its tenure, or is its WbData under way (R426, R433,
R437, R439)? -/
def State.lineMoving (s : State) (line : Nat) : Bool :=
  s.reqs.any (fun r => r.filling line || (r.op == 3 && r.granted && r.line == line)) || s.tenures.any (fun t => t.2 == line) || s.wbs.any (fun w => w.2.1 == line)

/-- Is the home busy with a line: a transaction of it is open, an access to its page waits for a flip, a write that came before waits, or its
owner cannot answer yet (R425, R433, R437, R439, R457)? -/
def State.lineBusy (s : State) (line : Nat) : Bool :=
  s.txns.any (fun t => t.blocks line) || s.memQ.any (fun w => w.meets line) || s.lineMoving line

/-- The bias code of the page of a line. -/
def State.biasOf (s : State) (line : Nat) : Nat := sget (fun _ => 0) s.bias (line / 64)

/-- A home reads a protected array for a line: a single-bit error is corrected and counted, an uncorrectable one stops the domain (R438,
R453, R469).
[DESIGN CHOICE, notes/assumptions/33.md] -/
def State.eccRead (s : State) (h line k : Nat) : State :=
  let key := 3 * (if k = 2 then line / 64 else line) + k
  match sget (fun _ => 0) s.eccErrs key with
  | 0 => s
  | 1 => ({ s with eccErrs := sset (fun _ => 0) s.eccErrs key 0 }).inc (if k = 2 then F.CRM_HOME_BIAS_CE h else F.CRM_HOME_DIR_CE h)
  | _ => s.stopDetect 4 k (srcOf h 0) line

/-- What the home of a line reads for an access: the bias, and for a SHARED page the directory and its cache. -/
def State.eccReads (s : State) (h line : Nat) : State :=
  let s1 := s.eccRead h line 2
  if s.biasOf line ≠ 0 || s1.stopped then s1
  else
    let s2 := s1.eccRead h line 1
    if s2.stopped then s2 else s2.eccRead h line 0

/-- The snoops of an engine's access to a line of a SHARED page: SnpCur to its owner for a read, SnpInv to every holder for a write, which leaves the
line UNCACHED; an owner that has dropped the line in silence is corrected (R435, R436). -/
def State.engineSnoops (s : State) (write : Bool) (line : Nat) : State :=
  let d : DirSt := sget (fun _ => (⟨none, []⟩ : DirSt)) s.dirs line
  let who := d.owner.toList ++ (if write then d.sharers else [])
  if s.biasOf line ≠ 0 || who.isEmpty then s
  else
    let s1 := who.foldl (fun (s : State) a => s.inc (F.CRM_AGENT_SNOOPS a)) s
    let kept : DirSt := if write then ⟨none, []⟩ else if s.lines.any (fun c => c.line == line) then d else ⟨none, d.sharers⟩
    { s1 with dirs := sset (fun _ => (⟨none, []⟩ : DirSt)) s1.dirs line kept }

/-- An engine reads and writes lines of memory at one instant: a bias code of 3 stops the domain, and the snoops it causes are counted (R27,
R453).
[DEDUCED, notes/assumptions/80.md] -/
def State.accessNow (s : State) (rs ws : List Nat) : State :=
  match (rs ++ ws).find? (fun l => s.biasOf l == 3) with
  | some l => s.stopDetect 4 2 (srcOf ((homeOf (64 * l)).getD 31) 0) l
  | none =>
    let s1 := (rs ++ ws).dedup.foldl (fun (s : State) l => if s.stopped then s else s.eccReads ((homeOf (64 * l)).getD 31) l) s
    ws.dedup.foldl (fun (s : State) l => s.engineSnoops true l) (rs.dedup.foldl (fun (s : State) l => s.engineSnoops false l) s1)

/-- The same for a command that moves the lines: it waits while the home of one of them is busy with it (R425).
[DEDUCED, notes/assumptions/80.md] -/
def State.access (s : State) (rs ws : List Nat) (k : State → Res) : Res :=
  if (rs ++ ws).any s.lineBusy then .next s
  else
    let s1 := s.accessNow rs ws
    if s1.stopped then .next s1 else k s1

/-- A unit of the module writes bytes of memory (R27, R425, R449, R470): at once where the homes of their lines are free, else when what came
before has completed; nothing after a stop.
[DEDUCED, notes/assumptions/80.md] -/
def State.write (s : State) (a : Nat) (data : List Byte) : State :=
  let ls := linesOf a data.length
  if s.stopped || data.isEmpty then s
  else if ls.any s.lineBusy then
    { s with memQ := s.memQ ++ [⟨a, data, (s.txns.filter (fun t => ls.any t.blocks)).map (fun t => (t.home, t.src, t.txn))⟩] }
  else
    let s1 := s.accessNow [] ls
    if s1.stopped then s1 else s1.setBytes a data

/-- The same for a little-endian number of `n` bytes. -/
def State.writeNat (s : State) (a n v : Nat) : State := s.write a (leBytes n v)

/-- A unit of the module reads `n` bytes: what the homes read and snoop for it (R27, R448, R453). The value is `unitNat`, or `memBytes`.
[DEDUCED, notes/assumptions/80.md] -/
def State.reads (s : State) (a n : Nat) : State := if s.stopped || n = 0 then s else s.accessNow (linesOf a n) []

/-- A byte as the unit sees it that has a write of it waiting: its own newest value. -/
def State.unitByte (s : State) (a : Nat) : Byte :=
  match s.memQ.reverse.findSome? (fun w => if w.addr ≤ a then w.data[a - w.addr]? else none) with
  | some b => b
  | none => s.memByte a

/-- A little-endian number of `n` bytes, seen so. -/
def State.unitNat (s : State) (a n : Nat) : Nat := ofLe ((List.range n).map (fun i => s.unitByte (a + i)))

/-- The waiting writes whose homes are free now are made, in order. -/
def State.drainMem (s : State) : State :=
  s.memQ.foldl (fun (s : State) w =>
    let ls := linesOf w.addr w.data.length
    let held := ls.any (fun l => s.txns.any (fun t => t.blocks l && w.behind.contains (t.home, t.src, t.txn)) || s.memQ.any (fun x => x.meets l) || s.lineMoving l)
    if s.stopped || held then { s with memQ := s.memQ ++ [w] }
    else
      let s1 := s.accessNow [] ls
      if s1.stopped then s1 else s1.setBytes w.addr w.data) { s with memQ := [] }

/-! Event records (R11 to R19, R670, R778). -/

/-- An event as a chapter's event table gives it. -/
structure Ev where
  sev : Nat
  code : Nat
  src : Nat
  job : Option Nat
  payload : Nat
  deriving DecidableEq, Repr

/-- The 32 bytes of a record with ring phase `ph` (R11). -/
def Rec.toNat (r : Rec) (ph : Bool) : Nat :=
  let w1 := place 63 63 (b2n ph) ||| place 62 62 (b2n r.jv) ||| place 61 61 (b2n r.lk) ||| place 60 48 r.seq
    ||| place 47 44 r.sev ||| place 43 32 r.job ||| place 31 16 r.src ||| place 15 0 r.code
  (r.lap % 2 ^ 64) ||| (w1 <<< 64) ||| ((r.payload % 2 ^ 128) <<< 128)

/-- The ring's size in entries. -/
def State.ringSize (s : State) : Nat := 2 ^ s.rd F.STR_RING_LOG2

/-- Entries that hold no unconsumed record. -/
def State.ringFree (s : State) : Nat := s.ringSize - s.ring.count

/-- Is the ring's memory out of reach: its home a host die in a host-die reset, or cut off by the stop (R472, R573)? -/
def State.ringAway (s : State) : Bool :=
  (match s.stop with | some x => x.cut | none => false) ||
  (match homeOf (4096 * s.rd F.STR_RING_BASE) with
  | some h => s.hdAway.contains h
  | none => false)

/-- Deliver an interrupt to a hart; one of a host die in reset is dropped and counted (R531, R567). Harts are 0 to 143. -/
def State.irq (s : State) (hart file eiid : Nat) : State :=
  let h := hart / 72
  let st := s.rd (F.STR_HOST_STATE h)
  let k := 64 * hart + file
  let there := sget (fun _ => []) s.imsic k
  if decide (hart < 144) && (st = 1 || st = 2 || st = 3) then s.inc (F.STR_HOST_IRQ_DROP h)
  else ({ s with imsic := sset (fun _ => []) s.imsic k (if there.contains eiid then there else there ++ [eiid]) } : State).send (.irq hart file eiid)

/-- Write one record into the ring, then make it visible by its PHASE; the module interrupts where STR_RING_IRQ asks
(R15, R16). The record's bytes are one indivisible step here. A write after a stop goes directly to the home (R472). -/
def State.ringWrite (s : State) (r : Rec) : State :=
  let base := 4096 * s.rd F.STR_RING_BASE
  let bytes := leBytes 32 (r.toNat s.ring.phase)
  let s0 := s.write (base + 32 * s.ring.tail) bytes
  let s1 := if s0.stop.isSome then s0.rawBytes (base + 32 * s.ring.tail) bytes else s0
  let wrap := decide (s.ring.tail + 1 = s.ringSize)
  let s2 := { s1 with ring := { s1.ring with
    tail := if wrap then 0 else s.ring.tail + 1
    phase := if wrap then !s.ring.phase else s.ring.phase
    count := s.ring.count + 1 } }
  let s3 := s2.inc F.STR_RING_CNT_WRITTEN
  if s.rd F.STR_RING_IRQ_EN = 1 && decide (s.rd F.STR_RING_IRQ_MINSEV ≤ r.sev) then
    s3.irq (s.rd F.STR_RING_IRQ_HART) (s.rd F.STR_RING_IRQ_FILE) (s.rd F.STR_RING_IRQ_EIID)
  else s3

/-- Count a dropped record (R17, R18, R19). -/
def State.ringDrop (s : State) (r : Rec) : State :=
  let s1 := { s with ring := { s.ring with
    lost := s.ring.lost + 1
    lostLap := if s.ring.lost = 0 then r.lap else s.ring.lostLap } }
  let s2 := s1.inc F.STR_RING_CNT_DROPPED
  if 3 ≤ r.sev then s2.inc F.STR_RING_CNT_FATAL_DROP else s2

/-- Hold a record in the store of 64, or drop it (R18, R573, R670). -/
def State.ringHold (s : State) (r : Rec) : State :=
  if s.ring.held.length < 64 then
    ({ s with ring := { s.ring with held := s.ring.held ++ [r] } }).wr F.STR_RING_CNT_HELD (s.ring.held.length + 1)
  else s.ringDrop r

/-- Where a detected record goes (R17 to R19, R573, R670). While the ring is disabled or its memory is away, every record is held,
also one of lower severity while an overflow record is pending.
[DEDUCED, notes/assumptions/97.md] -/
def State.ringPut (s : State) (r : Rec) : State :=
  if s.rd F.STR_RING_EN = 0 || s.ringAway then s.ringHold r
  else if 3 ≤ r.sev then
    if 0 < s.ringFree then s.ringWrite r else s.ringHold r
  else if 0 < s.ring.lost then s.ringDrop r
  else if 16 < s.ringFree then s.ringWrite r
  else s.ringDrop r

/-- Detect a condition: the record takes the next SEQ and goes to the ring (R14). A DOMAIN_FATAL record also sends a
platform event message (R757).
[DEDUCED, notes/assumptions/11.md] -/
def State.emit (s : State) (e : Ev) : State :=
  let r : Rec := ⟨s.recLap, e.job.isSome, s.locked, s.ring.seq, e.sev, e.job.getD 0, e.src, e.code, e.payload⟩
  let s1 := { s with
    ring := { s.ring with seq := (s.ring.seq + 1) % 8192 }
    degr := if e.sev = 2 then 0xFFFF else s.degr }
  let s2 := s1.ringPut r
  if e.sev = 4 then s2.send (.pldmEvent e.code) else s2

/-- Key of condition `c` of unit `u` in `State.since` and `State.told`. -/
def noteKey (c u : Nat) : Nat := 1024 * c + u

/-- A condition that writes its record at the first occurrence after each pace mark, with the occurrences since the last
record. -/
def State.noteOnce (s : State) (c u n : Nat) (e : Nat → Ev) : State :=
  let k := noteKey c u
  let cnt := sget (fun _ => 0) s.since k + n
  if s.told.contains k then { s with since := sset (fun _ => 0) s.since k cnt }
  else ({ s with since := sset (fun _ => 0) s.since k 0, told := s.told ++ [k] }).emit (e cnt)

/-! Submission queues (R512 to R532). -/

/-- A queue beyond its registers. -/
def State.queue (s : State) (q : Nat) : QueueSt := sget (fun _ => QueueSt.init) s.queues q

/-- Entries of a queue's rings. -/
def State.qSize (s : State) (q : Nat) : Nat := 2 ^ s.rd (F.CPE_QRING_LOG2 q)

/-- STATE of a queue, from what it holds (SQ_STAT_q). -/
def State.qState (s : State) (q : Nat) (v : QueueSt) : Nat :=
  if s.rd (F.CPE_QRING_EN q) = 0 then 0
  else if v.halted then 3
  else if !v.done.isEmpty && decide (s.qSize q ≤ v.ccount) then 4
  else if s.walks.any (fun w => w.q == q && (w.held.isSome || w.noRec)) then 5
  else if v.cmds.isEmpty && v.done.isEmpty && s.rd (F.SQ_STAT_HEAD q) == v.tail then 1
  else 2

/-- Set what a queue holds, and the registers that show it. -/
def State.setQueue (s : State) (q : Nat) (v : QueueSt) : State :=
  let s1 := { s with queues := sset (fun _ => QueueSt.init) s.queues q v }
  (s1.wr (F.SQ_STAT_STATE q) (s1.qState q v)).wr (F.SQ_STAT_INFLIGHT q) (v.cmds.length + v.done.length)

/-- A command ends with a status: it waits for its completion record, in order of completion (R528); the walks of its
regions end with it. After a stop no command ends (R551). -/
def State.endCmd (s : State) (q entry status detail : Nat) : State :=
  let v := s.queue q
  match v.cmds.find? (fun c => c.entry == entry), s.stopped with
  | none, _ | _, true => s
  | some c, false =>
    ({ s with walks := s.walks.filter (fun w => !(w.q == q && w.entry == entry)) }).setQueue q
      { v with
        cmds := v.cmds.filter (fun c => c.entry ≠ entry)
        done := v.done ++ [{ c with stage := 3, status := status, detail := detail, wait := false, ver := none }] }

/-- An engine, if it runs a command.
[DESIGN CHOICE, notes/assumptions/27.md] -/
def State.eng (s : State) (e : Nat) : Option EngSt := (s.engs.find? (fun p => p.1 == e)).map (·.2)

/-- An engine is free again. -/
def State.freeEng (s : State) (e : Nat) : State :=
  let s1 := { s with engs := s.engs.filter (fun p => p.1 ≠ e) }
  if e < 24 then ((s1.wr (F.CPE_ENG_STATE e) 0).wr (F.CPE_ENG_QUEUE e) 0).wr (F.CPE_ENG_ENTRY e) 0
  else s1.wr (F.PRM_ENG_STAT_STATE (e - 24)) 0

/-- Set what an engine runs. -/
def State.setEng (s : State) (e : Nat) (v : EngSt) : State :=
  { s with engs := s.engs.filter (fun p => p.1 ≠ e) ++ [(e, v)] }

/-- An engine's command ends, with the reference of a SNAPSHOT (R546), and the engine is free. After a stop neither happens (R551). -/
def State.finish (s : State) (e : Nat) (x : EngSt) (status detail : Nat) : State :=
  if s.stopped then s
  else
    let s0 := { s with engHeld := s.engHeld.filter (fun p => p.1 ≠ e) }
    let s1 := match ((s.queue x.q).cmds.find? (fun c => c.entry == x.entry)).bind (·.ver) with
      | some (n, j, h, _) => s0.wr (F.CD_EPOCH_REFS n j h) (s.rd (F.CD_EPOCH_REFS n j h) - 1)
      | none => s0
    (s1.endCmd x.q x.entry status detail).freeEng e

/-- A command ends, with the engine that runs it, if one does (R498, R535, R540). -/
def State.endWork (s : State) (q entry status detail : Nat) : State :=
  match s.engs.find? (fun p => p.2.q == q && p.2.entry == entry) with
  | some p => s.finish p.1 p.2 status detail
  | none => s.endCmd q entry status detail

/-- A SNAPSHOT that waits for its flip lap ends with SLOT_STATE when the slot leaves RUNNING (R547). -/
def State.endWaiting (s : State) (j new : Nat) : State :=
  s.engs.foldl (fun (s : State) p =>
    if s.rd (F.CPE_QBIND_CTX p.2.q) = j && ((s.queue p.2.q).cmds.any (fun c => c.entry == p.2.entry && c.wait)) then
      s.finish p.1 p.2 8 new
    else s) s

/-! Job slots. -/

/-- STATE of slot j: 0 EMPTY, 1 LOADING, 2 RUNNING, 3 HALTED, 4 FAULTED, 5 DRAINING. -/
def State.slotState (s : State) (j : Nat) : Nat := s.rd (F.STR_SLOT_STATE j)

/-- The job ID that slot j holds. -/
def State.jobOf (s : State) (j : Nat) : Option Nat :=
  if s.rd (F.STR_SLOT_ACTIVE j) = 1 then some (s.rd (F.STR_SLOT_JOB_ID j)) else none

/-- The slot that holds a job ID. -/
def State.slotOfJob (s : State) (job : Nat) : Option Nat := (List.range 16).find? (fun j => s.jobOf j = some job)

/-- The job ID of the slot of a translation context; none for context 16. -/
def State.ctxJobOf (s : State) (c : Nat) : Option Nat := if c < 16 then s.jobOf c else none

/-- The completion interrupt of a queue (R531). -/
def State.queueIrq (s : State) (q : Nat) : State :=
  if s.rd (F.CPE_QIRQ_EN q) = 1 then s.irq (s.rd (F.CPE_QIRQ_HART q)) (s.rd (F.CPE_QIRQ_FILE q)) (s.rd (F.CPE_QIRQ_EIID q))
  else s

/-- A queue halts: 1 STALE, 2 SLOT_FAULTED, 3 SOFTWARE (R524, R526, R550). -/
def State.haltQueue (s : State) (q reason : Nat) : State :=
  let v := s.queue q
  let s1 := (s.wr (F.SQ_STAT_REASON q) reason).setQueue q { v with halted := true }
  (s1.emit ⟨1, 0x0602, srcModule q, s1.ctxJobOf (s.rd (F.CPE_QBIND_CTX q)),
    place 7 0 q ||| place 11 8 reason ||| place 23 12 (s.rd (F.SQ_STAT_HEAD q)) ||| place 36 24 (v.cmds.length + v.done.length)⟩).queueIrq q

/-- The enabled queues bound to a context. -/
def State.queuesOf (s : State) (c : Nat) : List Nat :=
  (List.range 256).filter (fun q => s.rd (F.CPE_QRING_EN q) == 1 && s.rd (F.CPE_QBIND_CTX q) == c)

/-- Close a Prism context. -/
def State.closeCtx (s : State) (x : Nat) : State :=
  let e := x / 64
  let s1 := ({ s with ctxs := sset (fun _ => none) s.ctxs x none }).setReg (Reg.PRM_CTX e (x % 64)) 0
  s1.wr (F.PRM_ENG_STAT_OPEN e) (s1.ctxs.filter (fun p => p.1 / 64 == e)).length

/-- Every context and surface of the translation contexts and engines in question is closed or unbound, and the commands that
this abandons end without a record (R581). -/
def State.closePrism (s : State) (tctx : Nat → Bool) (eng : Nat → Bool) : State :=
  let s1 := s.ctxs.foldl (fun (s : State) p => match p.2 with
    | some c => if tctx c.tctx && eng (p.1 / 64) then s.closeCtx p.1 else s
    | none => s) s
  let s2 := { s1 with
    surfs := s1.surfs.filter (fun p => match p.2 with | some u => !(tctx u.tctx && eng (p.1 / 1024)) | none => true)
    engHeld := s1.engHeld.filter (fun p => !(decide (24 ≤ p.1) && eng (p.1 - 24) && (match s1.eng p.1 with
      | some x => tctx (s1.rd (F.CPE_QBIND_CTX x.q)) | none => true))) }
  (List.range 256).foldl (fun (s : State) q =>
    if s.rd (F.CPE_QBIND_CLASS q) = 2 && tctx (s.rd (F.CPE_QBIND_CTX q)) then
      let gone (c : CmdSt) : Bool := eng (if bits c.w 62 56 = 0x22 then bits c.w 13 0 / 1024 else bits c.w 9 0 / 64)
      let v := s.queue q
      let s1 := (s.engs.filter (fun p => p.2.q == q && decide (24 ≤ p.1) && eng (p.1 - 24))).foldl
        (fun (s : State) p => s.freeEng p.1) s
      ({ s1 with walks := s1.walks.filter (fun w => !(w.q == q && v.cmds.any (fun c => c.entry == w.entry && gone c))) }).setQueue q
        { v with cmds := v.cmds.filter (fun c => !gone c) }
    else s) s2

/-- Move a slot to another STATE and record the change (R42).
[DEDUCED, notes/assumptions/54.md] [DEDUCED, notes/assumptions/83.md] -/
def State.setSlotState (s : State) (j new : Nat) : State :=
  let old := s.slotState j
  if old = new then s
  else
    let s0 := s.wr (F.STR_SLOT_STATE j) new
    let s1 := if old = 2 then s0.endWaiting j new else s0
    s1.emit ⟨0, 0x0130, srcModule 0, some (s.rd (F.STR_SLOT_JOB_ID j)),
      place 3 0 j ||| place 6 4 old ||| place 10 8 new ||| place 63 32 (s1.rd (F.STR_SLOT_PARTITIONS j))⟩

/-- The module index of this module in the job of slot j, and the job's members. -/
def State.modIdx (s : State) (j : Nat) : Nat := s.rd (F.HRD_ROLE_MODIDX j)
def State.members (s : State) (j : Nat) : Nat := s.rd (F.HRD_ROLE_MEMBERS j)

/-- The partitions 4n + m that slot j holds, ascending. -/
def State.partsOf (s : State) (j : Nat) : List Nat :=
  (List.range 32).filter (fun p => bit (s.rd (F.STR_SLOT_PARTITIONS j)) p)

/-- The slot that holds partition p. -/
def State.slotOfPart (s : State) (p : Nat) : Option Nat :=
  (List.range 16).find? (fun j => bit (s.rd (F.STR_SLOT_PARTITIONS j)) p)

/-- The physical clusters of partition 4n + m (R33). -/
def partClusters (p : Nat) : List ClusterId := (List.range 72).map (fun i => ⟨p / 4, 72 * (p % 4) + i⟩)

/-- The partition of a cluster. -/
def clPart (cl : ClusterId) : Nat := 4 * cl.die + cl.idx / 72

/-- The slot whose job a cluster serves. -/
def State.slotOfCl (s : State) (cl : ClusterId) : Option Nat := s.slotOfPart (clPart cl)

/-- ROLE: 0 ACTIVE, 1 RESERVE, 2 TESTING, 3 FAILED, 4 ROTATING. -/
def State.role (s : State) (cl : ClusterId) : Nat := s.rd (F.CL_STATUS_ROLE cl.die cl.idx)
/-- RUN: 0 IDLE, 1 RUNNING, 2 WAIT_LAP, 3 WAIT_BAR, 4 WAIT_DMA, 5 HALTED, 6 FAULT, 7 WAIT_HURDLE. -/
def State.run (s : State) (cl : ClusterId) : Nat := s.rd (F.CL_STATUS_RUN cl.die cl.idx)
/-- Set RUN. -/
def State.setRun (s : State) (cl : ClusterId) (v : Nat) : State := s.wr (F.CL_STATUS_RUN cl.die cl.idx) v
/-- Is the cluster in service: ACTIVE, or ROTATING and still at work? -/
def State.inService (s : State) (cl : ClusterId) : Bool := s.role cl == 0 || s.role cl == 4

/-- The clusters in service for slot j's job on this module. -/
def State.clustersOf (s : State) (j : Nat) : List ClusterId :=
  (s.partsOf j).flatMap (fun p => (partClusters p).filter s.inService)

/-- Logical index of a cluster. -/
def State.logical (s : State) (cl : ClusterId) : Nat := s.rd (F.CL_STATUS_LOGICAL cl.die cl.idx)

/-- The ordinal of partition p among those that slot j holds (R174). -/
def State.partOrd (s : State) (j p : Nat) : Nat := ((s.partsOf j).filter (· < p)).length

/-- The cluster that carries logical index `l` of partition p. -/
def State.byLogical (s : State) (p l : Nat) : Option ClusterId :=
  (partClusters p).find? (fun c => s.inService c && s.logical c == l)

/-- The job's clusters in service on a die, by partition ordinal and logical index (R319). -/
def State.dieClusters (s : State) (j die : Nat) : List ClusterId :=
  ((s.partsOf j).filter (fun p => p / 4 == die)).flatMap
    (fun p => (List.range 68).filterMap (fun l => s.byLogical p l))

/-- STEP of slot j (R157). -/
def State.step (s : State) (j : Nat) : Nat := s.rd (F.NUM_STEP_STEP j)

/-! Arming (R78 to R81). -/

/-- The reason an arm of `kind` at lap `t` is rejected, in the order of R79; `aligned` is the rule of its kind, `lead` the laps that it
must leave (16 under R78, 64 for a job-scoped swap under R675).
[DEDUCED, notes/assumptions/19.md] -/
def State.armReason (s : State) (t : Nat) (aligned : Bool) (lead : Nat := 16) : Option Nat :=
  let l := s.now
  if s.rd F.LAP_STATUS_STATE ≤ 1 then some 4
  else if t ≤ l then some 0
  else if t < l + lead then some 1
  else if 2 ^ 32 + l < t then some 5
  else if !aligned then some 2
  else if 64 ≤ s.arms.length then some 3
  else none

/-- Latch a rejected arm in LAP_REJECT and count it (R79); the caller writes ARM_REJECTED.
[DEDUCED, notes/assumptions/19.md] -/
def State.latchReject (s : State) (reason kind t job : Nat) : State :=
  ((((s.wr F.LAP_REJECT_REASON reason).wr F.LAP_REJECT_KIND kind).wr F.LAP_REJECT_JOB job).wr
    F.LAP_REJECT_TARGET t).inc F.LAP_CNT_ARM_REJECT

/-- Enter an accepted arm.
[DEDUCED, notes/assumptions/42.md] -/
def State.addArm (s : State) (a : Arm) : State := { s with arms := s.arms ++ [a] }

/-- Remove the arms of `kind` for `who`. -/
def State.dropArms (s : State) (kind who : Nat) : State :=
  { s with arms := s.arms.filter (fun a => !(a.kind == kind && a.who == who)) }

/-- The arm of `kind` for `who` that is due at the present lap.
[DESIGN CHOICE, notes/assumptions/7.md] [DEDUCED, notes/assumptions/73.md] -/
def State.due (s : State) (kind who : Nat) : Option Arm :=
  s.arms.find? (fun a => a.kind == kind && a.who == who && a.t == s.now)

/-- The place of a kind of scheduled event in the order of R47; the weight-epoch flip has place 4. -/
def armPlace (kind : Nat) : Nat :=
  match kind with
  | 2 => 1
  | 0 => 2
  | 1 => 3
  | 3 => 5
  | 4 => 6
  | _ => 7

/-- Is an armed event of this lap still to be applied? A job that has stopped applies none, and a job-scoped swap is applied only
once its vote has passed (R51, R688).
[DEDUCED, notes/assumptions/73.md] -/
def State.pendingArm (s : State) (a : Arm) : Bool :=
  a.t == s.now && !(a.job && s.slotState a.who == 4) && !(a.kind == 0 && a.job && s.rd (F.SHD_STAT_STATE a.who) != 3)

/-- Does the flip of slot j fall on this lap, and is it still to be applied? -/
def State.pendingFlip (s : State) (j : Nat) : Bool :=
  s.slotState j == 2 && !(s.slot j).flipDone && (s.slot j).flipLap == some s.now

/-- Is slot j's resume from a halt due at this lap, in the place of kind 3, and still to be applied (R709)? -/
def State.pendingResume (s : State) (j : Nat) : Bool :=
  s.slotState j == 3 && (s.slot j).ck.dec.isSome && s.rd (F.RES_RESUME_Z j) == s.now

/-- Has every event of this lap mark that R47 places before `place` been applied? A command that applies an event waits for this.
[DEDUCED, notes/assumptions/73.md] -/
def State.turn (s : State) (place : Nat) : Bool :=
  !(s.arms.any (fun a => decide (armPlace a.kind < place) && s.pendingArm a))
    && (decide (place ≤ 4) || !((List.range 16).any s.pendingFlip)) && (decide (place ≤ 5) || !((List.range 16).any s.pendingResume))

/-- The event of R79's record: [3:0] reason, [7:4] kind, [71:8] T.
[DEDUCED, notes/assumptions/19.md] -/
def armRejected (sev reason kind t : Nat) (job : Option Nat) : Ev :=
  ⟨sev, 0x0205, srcModule 0, job, place 3 0 reason ||| place 7 4 kind ||| ((t % 2 ^ 64) <<< 8)⟩

/-- The next state.
[DESIGN CHOICE, notes/assumptions/7.md] -/
abbrev ok (s : State) : Res := .next s

end Sys2Proof.Machine
end

