-- ==== Sys2Proof/Machine/JobStop.lean ====
section
/-!
DEFINITION. What stops with a job: a cluster that abandons its work (R231, R782), the holders and references it gives up
(R207, R312), and a slot that moves to FAULTED with its JOB_FATAL record (R51).
-/

namespace Sys2Proof.Machine

/-- Number of a weight shard in `State.shards`: shard h of slot j homed on die n. -/
def shardKey (n j h : Nat) : Nat := (16 * n + j) * 256 + h

/-- The hidden state of a shard that nothing has touched. -/
def shardInit : ShardSt := ⟨[], false, false, none⟩

/-- A weight shard's hidden state. -/
def State.shard (s : State) (n j h : Nat) : ShardSt := sget (fun _ => shardInit) s.shards (shardKey n j h)

/-- Set it, and show its holders in CDn_EPOCH_j_h.HOLDERS. -/
def State.setShard (s : State) (n j h : Nat) (v : ShardSt) : State :=
  ({ s with shards := sset (fun _ => shardInit) s.shards (shardKey n j h) v }).wr (F.CD_EPOCH_HOLDERS n j h) v.holders.length

/-- The shards that have hidden state, as (die, slot, index). -/
def State.shardList (s : State) : List (Nat × Nat × Nat) :=
  s.shards.map (fun p => (p.1 / 4096, (p.1 / 256) % 16, p.1 % 256))

/-- A cluster stops holding RETIRED versions (R312). -/
def State.dropHolder (s : State) (cl : ClusterId) : State :=
  s.shardList.foldl (fun (s : State) k =>
    let v := s.shard k.1 k.2.1 k.2.2
    if v.holders.contains (clKey cl) then
      s.setShard k.1 k.2.1 k.2.2 { v with holders := v.holders.filter (· ≠ clKey cl) }
    else s) s

/-- The descriptor of a DQ in the program of slot j. -/
def State.descOf (s : State) (j desc : Nat) : Option DmaDesc :=
  match (s.slot j).prog with
  | some p => p.dma[desc]?
  | none => none

/-- A DQ gives up its reference on a weight version (R207). -/
def State.dropRef (s : State) (j : Nat) (d : DqEnt) : State :=
  match d.ref, s.descOf j d.desc with
  | true, some x =>
    let n := bits x.shard 10 8
    let h := bits x.shard 7 0
    s.wr (F.CD_EPOCH_REFS n j h) (s.rd (F.CD_EPOCH_REFS n j h) - 1)
  | _, _ => s

/-- The registers that show a cluster's queues: CDn_CL_WGQ.ENTRIES and HEAD, CDn_CL_STATUS.MERGING and CDn_CL_VSTATUS.QUEUE. -/
def State.showCl (s : State) (cl : ClusterId) : State :=
  let c := s.cluster cl
  let head := match c.wgq with | [] => 0 | e :: _ => e.wstate
  (((s.wr (F.CL_WGQ_ENTRIES cl.die cl.idx) c.wgq.length).wr (F.CL_WGQ_HEAD cl.die cl.idx) head).wrB
    (F.CL_STATUS_MERGING cl.die cl.idx) c.latch.isSome).wr (F.CL_VSTATUS_QUEUE cl.die cl.idx) c.vq.length

/-- Set what a cluster holds, and the registers that show it. -/
def State.putCl (s : State) (cl : ClusterId) (c : ClusterSt) : State := (s.setCluster cl c).showCl cl

/-- State code of slot k in CDn_CL_SLOTS: 0 FREE, 1 OPEN, 2 READOUT, 3 TIE (R107). -/
def State.slotCode (s : State) (cl : ClusterId) (k : Nat) : Nat :=
  bits (s.rd (F.CL_SLOTS_STATE cl.die cl.idx)) (2 * k + 1) (2 * k)
/-- Set it.
[DEDUCED, notes/assumptions/18.md] -/
def State.setSlotCode (s : State) (cl : ClusterId) (k v : Nat) : State :=
  let w := s.rd (F.CL_SLOTS_STATE cl.die cl.idx)
  s.wr (F.CL_SLOTS_STATE cl.die cl.idx) (w - (bits w (2 * k + 1) (2 * k)) <<< (2 * k) + (v % 4) <<< (2 * k))

/-- Every queued operation of a cluster is abandoned (R231, R782): bytes that a DQ delivered stay, its reference goes, and
slots that a readout held keep their tiles.
[DEDUCED, notes/assumptions/18.md] -/
def State.abandonCl (s : State) (cl : ClusterId) : State :=
  let c := s.cluster cl
  let s1 := match s.slotOfCl cl with
    | some j => c.dqs.foldl (fun (s : State) d => s.dropRef j d) s
    | none => s
  let s2 := (List.range 16).foldl (fun (s : State) k => if s.slotCode cl k = 2 then s.setSlotCode cl k 1 else s) s1
  (s2.dropHolder cl).putCl cl { c with
    aBuf := [], bBuf := [], loadQ := [], arrQ := [], wgq := [], readQ := [], castQ := [], vq := [], push := [], dqs := [],
    acc := [], chunkK := 0, chunk := none, chunkEnded := false, openSlot := none, arrOpen := false, drainPrio := false, latch := none, latchVals := [],
    hrdw := none }

/-- The clusters of a stopping job that are not already HALTED or FAULT stop HALTED (R232, R782).
[DEDUCED, notes/assumptions/18.md] -/
def State.haltClusters (s : State) (j : Nat) : State :=
  (s.clustersOf j).foldl (fun (s : State) cl =>
    if s.run cl = 5 || s.run cl = 6 then s else (s.setRun cl 5).abandonCl cl) s

/-! Rotations (R119 to R121, R734). -/

/-- The rotation chosen for partition p. -/
def State.rot (s : State) (p : Nat) : Option RotSt := sget (fun _ => none) s.rots p
/-- Set it. -/
def State.setRot (s : State) (p : Nat) (r : Option RotSt) : State := { s with rots := sset (fun _ => none) s.rots p r }

/-- Is the cluster the outgoing one of a rotation whose hold has begun (R120)? -/
def State.rotHeld (s : State) (cl : ClusterId) : Bool :=
  match s.rot (clPart cl) with
  | some r => r.holding && r.out == cl.idx
  | none => false

/-- CLUSTER_ROTATED (0x0C22). -/
def State.rotRecord (s : State) (p : Nat) (r : RotSt) (hold : Nat) (declined : Option Nat) : State :=
  let n := p / 4
  let logical := s.rd (F.CL_STATUS_LOGICAL n (if declined.isSome then r.out else r.inn))
  let j := s.slotOfPart p
  s.emit ⟨if declined.isSome then 1 else 0, 0x0C22, srcOf n r.out, j.bind s.jobOf,
    place 8 0 r.out ||| place 17 9 r.inn ||| place 24 18 logical ||| place 31 25 hold
      ||| place 32 32 (b2n declined.isSome) ||| place 34 33 (declined.getD 0)⟩

/-- A rotation is declined: the outgoing cluster carries on as ACTIVE (R121, R734). -/
def State.rotDecline (s : State) (p : Nat) (r : RotSt) (reason : Nat) : State :=
  let s1 := if s.rd (F.CL_STATUS_ROLE (p / 4) r.out) = 4 then s.wr (F.CL_STATUS_ROLE (p / 4) r.out) 0 else s
  (s1.setRot p none).rotRecord p r 0 (some reason)

/-- The rotations of slot j's partitions whose hold has not begun are abandoned: the step that chose them does not commit on
this module (R121, R734).
[DEDUCED, notes/assumptions/43.md] -/
def State.dropRots (s : State) (j : Nat) : State :=
  (s.partsOf j).foldl (fun (s : State) (p : Nat) => match s.rot p with
    | some r => if r.holding then s else (s.dropArms 4 p).rotDecline p r 3
    | none => s) s

/-- Halt the submission queues that a stopped slot's work came from, also those that have halted for another reason (R550), and end the slot's media
contexts (R581). -/
def State.stopEngines (s : State) (j : Nat) : State :=
  let s1 := (s.queuesOf j).foldl (fun (s : State) q => if s.qState q (s.queue q) = 3 && s.rd (F.SQ_STAT_REASON q) = 2 then s else s.haltQueue q 2) s
  s1.closePrism (· == j) (fun _ => true)

/-- A LOAD in progress for slot j ends, since the slot is no longer LOADING: LOAD_FAILED with reason 9 (R238, R239).
[DEDUCED, notes/assumptions/52.md] -/
def State.dropLoad (s : State) (j : Nat) : State :=
  match (s.slot j).loadQ with
  | none => s
  | some q =>
    let s1 := s.setSlot j { s.slot j with loadQ := none, loadHeld := none, loadDone := false, loadAsk := false, loadSlot := false, prog := none }
    match (s.queue q).cmds.find? (fun c => c.stage == 2 && bits c.w 62 56 == 0x10 && bits c.w 131 128 == j) with
    | some c => s1.endCmd q c.entry 9 9
    | none => s1

/-- The job of slot j stops on this module (R51, R782): its clusters stop, its slot reads FAULTED, and where it was RUNNING
or HALTED it owes one last contribution with ABORT, if it can compute the next Hurdle mark: not between a mark and its outcome,
and from a COMMIT with CKPT to the end of the halt only once Z is known (R704).
[DEDUCED, notes/assumptions/76.md] [DEDUCED, notes/assumptions/87.md] [DEDUCED, notes/assumptions/93.md] -/
def State.stopJob (s : State) (j : Nat) (owes : Bool) : State :=
  if s.slotState j = 4 || s.slotState j = 0 then s
  else
    let voting := !(s.slot j).marked && ((s.slotState j == 2 && !(s.arms.any (fun a => a.kind == 3 && a.who == j)))
      || (s.slotState j == 3 && (s.slot j).ck.dec.isSome))
    let s1 := ((s.haltClusters j).setSlotState j 4).dropRots j
    let s2 := s1.setSlot j { s1.slot j with owesVote := owes && voting }
    (s2.dropLoad j).stopEngines j

/-- Write a JOB_FATAL record and stop the job of slot j in the same lap (R51). -/
def State.failJob (s : State) (j : Nat) (e : Ev) : State := (s.emit e).stopJob j true

end Sys2Proof.Machine
end

