-- ==== Sys2Proof/Machine/Translation.lean ====
section
/-!
DEFINITION. Mirror tables and the walker (R479 to R492), fault records and the fault queue (R493 to R497), the hot-page
tracker and its notifications (R505 to R509), and WALK_COMPLETE.
-/

namespace Sys2Proof.Machine

/-! Walks. -/

/-- A page's walk: the level-0 entry, or the cause, level and entry of the fault (R492). -/
inductive WalkOut where
  | entry (e : Nat)
  | fault (cause level entry : Nat)
  deriving DecidableEq, Repr

/-- The job ID that the walker asks of an entry in context c; none in context 16 (R486). -/
def State.ctxJob (s : State) (c : Nat) : Option Nat := if c < 16 then some (s.rd (F.STR_SLOT_JOB_ID c)) else none

/-- Is a context enabled? Contexts are 0 to 16. -/
def State.ctxOn (s : State) (c : Nat) : Bool := decide (c ≤ 16) && s.rd (F.XLT_CTX_EN c) == 1

/-- The FRAME of an entry. -/
def entryFrame (e : Nat) : Nat := bits e 45 12

/-- The checks of a level-0 entry, in the order of R492. -/
def State.walkLeaf (s : State) (c : Nat) (write : Bool) (e : Nat) : WalkOut :=
  if !bit e 0 then .fault 0 0 e
  else if bits e 11 3 ≠ 0 || bits e 62 61 = 3 || bits e 47 46 = 3 then .fault 4 0 e
  else if (match s.ctxJob c with | some j => j != bits e 59 48 | none => false) then .fault 2 0 e
  else if !mappable (entryFrame e) then .fault 3 0 e
  else if (if write then !bit e 2 else !bit e 1) then .fault 1 0 e
  else .entry e

/-- The checks of the entry of a stash page: the job's ID alone, for its frame is never used (R293).
[DEDUCED, notes/assumptions/22.md] -/
def State.stashLeaf (s : State) (c e : Nat) : WalkOut :=
  if !bit e 0 then .fault 0 0 e
  else if (match s.ctxJob c with | some j => j != bits e 59 48 | none => false) then .fault 2 0 e
  else .entry e

/-- The walk from the table in `frame` at the head of `levels` down, to what `leaf` makes of the level-0 entry. -/
def State.walkFrom (s : State) (vpage : Nat) (leaf : Nat → WalkOut) : List Nat → Nat → WalkOut
  | [], frame => leaf (s.memNat (4096 * frame + 8 * (vpage % 512)) 8)
  | l :: ls, frame =>
    let e := s.memNat (4096 * frame + 8 * ((vpage >>> (9 * l)) % 512)) 8
    if !bit e 0 then .fault 0 l e
    else if bits e 63 46 ≠ 0 || bits e 11 1 ≠ 0 then .fault 4 l e
    else if !mappable (entryFrame e) then .fault 3 l e
    else s.walkFrom vpage leaf ls (entryFrame e)

/-- Walk one virtual page of a context to its level-0 entry. Tables are read as every agent sees them (R482). -/
def State.walkTo (s : State) (c vpage : Nat) (leaf : Nat → WalkOut) : WalkOut :=
  if !s.ctxOn c then .fault 5 3 0
  else
    let root := s.rd (F.XLT_CTX_ROOT c)
    if !mappable root then .fault 3 3 0 else s.walkFrom vpage leaf [3, 2, 1] root

/-- Walk one virtual page of a context (R479, R492). -/
def State.walkPage (s : State) (c vpage : Nat) (write : Bool) : WalkOut := s.walkTo c vpage (s.walkLeaf c write)

/-- Addresses of the entries that a walk reads, from the table in `frame` down. -/
def State.pathFrom (s : State) (vpage : Nat) : List Nat → Nat → List Nat
  | [], frame => [4096 * frame + 8 * (vpage % 512)]
  | l :: ls, frame =>
    let a := 4096 * frame + 8 * ((vpage >>> (9 * l)) % 512)
    let e := s.memNat a 8
    if !bit e 0 || bits e 63 46 ≠ 0 || bits e 11 1 ≠ 0 || !mappable (entryFrame e) then [a] else a :: s.pathFrom vpage ls (entryFrame e)

/-- The lines of the tables that the walk of a page reads (R482). -/
def State.walkLines (s : State) (c vpage : Nat) : List Nat :=
  let root := s.rd (F.XLT_CTX_ROOT c)
  if !s.ctxOn c || !mappable root then [] else (s.pathFrom vpage [3, 2, 1] root).map (· / 64)

/-- Must a walk wait: is the home of one of its table lines busy (R425)? -/
def State.walkBusy (s : State) (c vpage : Nat) : Bool := (s.walkLines c vpage).any s.lineBusy

/-! The hot-page tracker (R505 to R509). -/

/-- Host die of a capacity-tier frame. -/
def frameHd (frame : Nat) : Option Nat :=
  match homeOf (4096 * frame) with
  | some h => if h < 8 then none else some (h - 8)
  | none => none

/-- The threshold of a tracker entry (R507). -/
def State.trkThresh (s : State) (t : TrkEnt) : Nat :=
  if t.explicit then 1
  else if t.adv = 1 then s.rd (F.XLT_TRK_THRESH t.h) / 4
  else s.rd (F.XLT_TRK_THRESH t.h)

/-- Show how many entries a die's tracker uses. -/
def State.showTrk (s : State) (h : Nat) : State :=
  s.wr (F.XLT_TRK_USED h) (s.tracker.filter (fun t => t.h == h)).length

/-- The entry that a full tracker gives up: the lowest count, the lowest-numbered among equals (R508). -/
def trkVictim : List TrkEnt → Nat → Option TrkEnt
  | [], _ => none
  | t :: ts, h =>
    match trkVictim ts h with
    | none => if t.h = h then some t else none
    | some v => if t.h = h && t.count ≤ v.count then some t else some v

/-- A walk enters a capacity-tier frame in the tracker, or refreshes its entry (R505, R508). -/
def State.trkEnter (s : State) (c vpage e : Nat) : State :=
  let counter := s.rd (F.XLT_CTX_MODE c) == 1
  let adv := bits e 47 46
  let wants := !bit e 60 && (if counter then bit e 63 && adv != 2 else adv == 1)
  match frameHd (entryFrame e) with
  | none => s
  | some h =>
    if !wants then s
    else
      let f := entryFrame e
      if s.tracker.any (fun t => t.h == h && t.frame == f) then
        { s with tracker := s.tracker.map (fun t => if t.h == h && t.frame == f then
            { t with ctx := c, vpage := vpage, adv := adv, explicit := !counter } else t) }
      else
        let new : TrkEnt := ⟨h, f, c, vpage, 0, adv, !counter, false⟩
        if (s.tracker.filter (fun t => t.h == h)).length < 65536 then
          ({ s with tracker := s.tracker ++ [new] }).showTrk h
        else
          match trkVictim s.tracker h with
          | some v => { s with tracker := s.tracker.map (fun t => if t == v then new else t) }
          | none => s

/-- Write a notification, or drop it where its entry is not consumed (R509). -/
def State.notify (s : State) (t : TrkEnt) : State :=
  let size := 2 ^ s.rd F.XLT_NQ_BASE_LOG2
  if size ≤ s.nqCount then
    (s.inc (F.XLT_TRK_NOTE_DROP t.h)).noteOnce 2 t.h 1 (fun n => ⟨1, 0x0506, srcOf (8 + t.h) 0, none, place 31 0 n⟩)
  else
    let a := 4096 * s.rd F.XLT_NQ_BASE_BASE + 16 * s.nqTail
    let w1 := place 63 48 t.count ||| place 47 46 t.adv ||| place 45 12 t.frame
    let w0 := place 63 63 (b2n s.nqPhase) ||| place 62 58 t.ctx ||| place 57 56 (b2n t.explicit) ||| place 47 12 t.vpage
    let s1 := (s.writeNat (a + 8) 8 w1).writeNat a 8 w0
    let wrap := decide (s.nqTail + 1 = size)
    ({ s1 with
      nqTail := if wrap then 0 else s.nqTail + 1
      nqPhase := if wrap then !s.nqPhase else s.nqPhase
      nqCount := s.nqCount + 1 }).inc (F.XLT_TRK_NOTES t.h)

/-- `n` 64-byte device-origin accesses to the frame of address `a` (R506, R507). -/
def State.touch (s : State) (a n : Nat) : State :=
  let f := a / 4096
  match s.tracker.find? (fun t => t.frame == f) with
  | none => s
  | some t =>
    let t1 := { t with count := satTo 16 (t.count + n) }
    let hit := !t.noted && decide (s.trkThresh t ≤ t1.count)
    let t2 := { t1 with noted := t.noted || hit }
    let s1 := { s with tracker := s.tracker.map (fun x => if x == t then t2 else x) }
    if hit then s1.notify t2 else s1

/-- TRACKER_DECAY: every 2^DECAY pace marks, counted from lap 0, every count of a die's tracker is halved; an entry below half its threshold
may notify again (R506, R507).
[DEDUCED, notes/assumptions/34.md] -/
def execTrackerDecay (h : Nat) (s : State) : Res :=
  if s.now % (4096 * 2 ^ s.rd (F.XLT_TRK_DECAY h)) ≠ 0 || sget (fun _ => 0) s.decayed h = s.now + 1 then ok s
  else ok { s with
    decayed := sset (fun _ => 0) s.decayed h (s.now + 1)
    tracker := s.tracker.map (fun t =>
    if t.h = h then
      let n := t.count / 2
      { t with count := n, noted := t.noted && decide (s.trkThresh t ≤ 2 * n) }
    else t) }

/-- The bias that a leaf names is compared with that of its page (R485). -/
def State.biasCheck (s : State) (e : Nat) : State :=
  let f := entryFrame e
  let b := sget (fun _ => 0) s.bias f
  if bits e 62 61 = b then s
  else (s.inc F.XLT_CNT_BIAS_STALE).noteOnce 1 0 1 (fun n =>
    ⟨1, 0x0505, srcModule 0, none, place 33 0 f ||| place 35 34 (bits e 62 61) ||| place 37 36 b ||| place 53 38 (satTo 16 n)⟩)

/-- A walk with all that it does: it reads its tables with RdNA (R482), compares the bias of every page whose level-0 entry it has read, also of one
that its job or the access is refused (R485), and the walk of a page that succeeds enters the tracker where `track` asks for it (R505). -/
def State.walkWith (s : State) (c vpage : Nat) (leaf : Nat → WalkOut) (track : Bool) : State × WalkOut :=
  let o := s.walkTo c vpage leaf
  let ls := s.walkLines c vpage
  let s1 := if s.stopped || ls.isEmpty then s else s.accessNow ls []
  match o with
  | .entry e => ((if track then (s1.biasCheck e).trkEnter c vpage e else if mappable (entryFrame e) then s1.biasCheck e else s1), o)
  | .fault cause 0 e => ((if (cause = 1 || cause = 2) && mappable (entryFrame e) then s1.biasCheck e else s1), o)
  | .fault _ _ _ => (s1, o)

/-- The walk of one page for a frame list. -/
def State.walkAt (s : State) (c vpage : Nat) (write : Bool) : State × WalkOut := s.walkWith c vpage (s.walkLeaf c write) true

/-! Fault records (R493 to R497). -/

/-- STATE of record r: 0 FREE, 1 OPEN, 2 RESUMING. -/
def State.recState (s : State) (r : Nat) : Nat := s.rd (F.XLT_REC_STATE r)

/-- XLT_STATUS shows the records in use. -/
def State.showRecs (s : State) : State :=
  let n := ((List.range 64).filter (fun r => s.recState r ≠ 0)).length
  (s.wr F.XLT_STATUS_RECORDS n).wrB F.XLT_STATUS_REC_FULL (n == 64)

/-- One entry of the fault queue: bytes 0x08 to 0x1F before byte 0x00 (R494).
[DEDUCED, notes/assumptions/21.md] -/
def State.fqWrite (s : State) (r c vpage : Nat) (write : Bool) (cause level entry engine : Nat) : State :=
  let a := 2048 * s.rd F.XLT_FQ_BASE_BASE + 32 * s.fqTail
  let w0 := place 63 63 (b2n s.fqPhase) ||| place 62 57 r ||| place 56 52 c ||| place 51 48 cause ||| place 47 12 vpage
    ||| place 11 11 (b2n write) ||| place 10 9 level
  let s1 := (((s.writeNat (a + 8) 8 (2 ^ engine)).writeNat (a + 16) 8 s.now).writeNat (a + 24) 8 entry).writeNat a 8 w0
  { s1 with fqTail := (s.fqTail + 1) % 64, fqPhase := if s.fqTail = 63 then !s.fqPhase else s.fqPhase }

/-- Bits set in a 64-bit bitmap. -/
def popcount (w : Nat) : Nat := ((List.range 64).filter (fun i => w.testBit i)).length

/-- A faulting walk joins the OPEN record of its page, or takes a free record; none where all 64 are in use (R493, R495,
R497).
[DEDUCED, notes/assumptions/21.md] [DEDUCED, notes/assumptions/91.md] -/
def State.raiseFault (s : State) (c vpage : Nat) (write : Bool) (cause level entry engine : Nat) : State × Option Nat :=
  let s := s.inc F.XLT_CNT_FAULTS
  match (List.range 64).find? (fun r => s.recState r == 1 && s.rd (F.XLT_REC_CTX r) == c && s.rd (F.XLT_REC_VA r) == vpage) with
  | some r =>
    let old := s.rd (F.XLT_RECENG_ENGINES r)
    let new := old ||| 2 ^ engine
    let s1 := (((s.wr (F.XLT_RECENG_ENGINES r) new).wrB (F.XLT_REC_W r) (s.rd (F.XLT_REC_W r) == 1 || write)).inc
      (F.XLT_REC_COUNT r)).inc F.XLT_CNT_COALESCED
    let s2 := if popcount old = 1 && popcount new = 2 then
        s1.emit ⟨1, 0x0502, srcModule 0, s1.ctxJobOf c,
          place 5 0 r ||| place 69 6 new ||| place 85 70 (s1.rd (F.XLT_REC_COUNT r))⟩
      else s1
    (s2, some r)
  | none =>
    match (List.range 64).find? (fun r => s.recState r == 0) with
    | none => (s, none)
    | some r =>
      let s1 := ((((s.wr (F.XLT_REC_STATE r) 1).wr (F.XLT_REC_CTX r) c).wr (F.XLT_REC_CAUSE r) cause).wrB
        (F.XLT_REC_W r) write).wr (F.XLT_REC_VA r) vpage
      let s2 := ((s1.wr (F.XLT_REC_COUNT r) 1).wr (F.XLT_RECENG_ENGINES r) (2 ^ engine)).fqWrite r c vpage write cause
        level entry engine
      let s3 := s2.emit ⟨1, 0x0501, srcModule 0, s2.ctxJobOf c,
        place 5 0 r ||| place 9 6 cause ||| place 10 10 (b2n write) ||| place 15 11 c ||| place 51 16 vpage
          ||| place 57 52 engine ||| place 59 58 level⟩
      (s3.showRecs, some r)

/-! Walks of submission regions (R488 to R490). -/

/-- The value of a frame-list entry (R487). -/
def frameWord (frame : Nat) : Nat := place 63 63 1 ||| place 45 12 frame

/-- Address of frame-list entry k of a side of a submission entry (R515). -/
def State.frameAddr (s : State) (q entry side k : Nat) : Nat :=
  8192 * s.rd (F.CPE_QFRAME_BASE q) + 0x2000 * (entry % 65536) + 4096 * side + 8 * k

/-- The frame in a frame-list entry; none where it is not valid. -/
def frameOfWord (w : Nat) : Option Nat := if bit w 63 then some (bits w 45 12) else none

/-- The frames of a region as its list holds them. -/
def State.frameList (s : State) (q entry side n : Nat) : List (Option Nat) :=
  (List.range n).map (fun k => frameOfWord (s.unitNat (s.frameAddr q entry side k) 8))

/-- Walk the pages of a region in order and write one frame-list entry per page, from page `i` on; the pages left, and the
fault of the first page that faults. -/
def State.walkPages (s : State) (w : WalkSt) : Nat → Nat → State × Option (Nat × Nat × Nat × Nat)
  | 0, _ => (s, none)
  | n + 1, i =>
    match s.walkAt w.ctx (w.vpage + i) w.write with
    | (s1, .fault cause level entry) => (s1, some (i, cause, level, entry))
    | (s1, .entry e) => (s1.writeNat (s.frameAddr w.q w.entry w.side i) 8 (frameWord (entryFrame e))).walkPages w n (i + 1)

/-- Is work held on a fault: in a record that is not being replayed, or, as record 64, until one of the 64 becomes FREE (R496, R497)? -/
def State.heldOff (s : State) (h : Option (Nat × Bool)) : Bool :=
  match h with
  | some (r, go) => !go && !(r == 64 && s.rd F.XLT_STATUS_REC_FULL == 0)
  | none => false

/-- May a walk read tables: no fault holds it, and no earlier descriptor of its stream is held on one (R490, R497)?
[DESIGN CHOICE, notes/assumptions/7.md] -/
def State.walkFree (s : State) (w : WalkSt) : Bool :=
  let before := (s.walks.filter (fun x => x.q == w.q)).takeWhile (fun x => x.id ≠ w.id)
  !(before.any (fun x => x.entry ≠ w.entry && ((match x.held with | some (_, r) => !r | none => false) || x.noRec)))
    && (match w.held with | some (_, r) => r | none => true)
    && (!w.noRec || s.rd F.XLT_STATUS_REC_FULL == 0)

/-- May a walk end now: it holds a walker slot and reads tables? -/
def State.walkReady (s : State) (w : WalkSt) : Bool := w.slot && s.walkFree w

/-- Does a walk wait for a walker slot that its stream may have: no more than 8 at once (R489)? -/
def State.walkWants (s : State) (w : WalkSt) : Bool :=
  !w.slot && s.walkFree w && decide ((s.walks.filter (fun x => x.q == w.q && x.slot)).length < 8)

/-- How far a stream is from its turn. -/
def State.turnOf (s : State) (q : Nat) : Nat := (q + 543 - s.walkTurn) % 272

/-- The walk that gets the next free slot: the oldest waiting one of the stream whose turn it is. -/
def State.nextWalk (s : State) : Option WalkSt :=
  (s.walks.filter s.walkWants).foldl (fun (b : Option WalkSt) w =>
    match b with
    | some x => if s.turnOf w.q < s.turnOf x.q then some w else some x
    | none => some w) none

/-- The slot whose load gets the next free walker slot, among those that wait for one: a load is a stream of its own (R489). -/
def State.nextLoad (s : State) : Option Nat :=
  ((List.range 16).filter (fun j => (s.slot j).loadAsk && !(s.slot j).loadSlot)).foldl (fun (b : Option Nat) j =>
    match b with
    | some x => if s.turnOf (256 + j) < s.turnOf (256 + x) then some j else some x
    | none => some j) none

/-- Walker slots in use (R489). -/
def State.slotsUsed (s : State) : Nat :=
  (s.walks.filter (fun w => w.slot)).length + ((List.range 16).filter (fun j => (s.slot j).loadSlot)).length

/-- Grant free walker slots, up to `n` of them, to the waiting streams in turn (R489). -/
def State.grantWalks : Nat → State → State
  | 0, s => s
  | n + 1, s =>
    if 64 ≤ s.slotsUsed then s
    else
      let walk (w : WalkSt) : State := State.grantWalks n { s with
        walks := s.walks.map (fun x => if x.id = w.id then { x with slot := true } else x)
        walkTurn := w.q }
      let load (j : Nat) : State := State.grantWalks n { s.setSlot j { s.slot j with loadSlot := true } with walkTurn := 256 + j }
      match s.nextWalk, s.nextLoad with
      | none, none => s
      | some w, none => walk w
      | none, some j => load j
      | some w, some j => if s.turnOf w.q < s.turnOf (256 + j) then walk w else load j

/-- A walk that may not read tables gives up its walker slot (R489, R490), free slots are granted, and XLT_STATUS.WALKERS shows those in use. -/
def State.showWalkers (s : State) : State :=
  let s0 := { s with walks := s.walks.map (fun w => if s.walkFree w then w else { w with slot := false }) }
  let s1 := State.grantWalks 64 s0
  s1.wr F.XLT_STATUS_WALKERS s1.slotsUsed

/-- The Prism engine that a command's context or surface belongs to (R577). -/
def prismTarget (w : Nat) : Nat := if bits w 62 56 = 0x22 then bits w 13 0 / 1024 else bits w 9 0 / 64

/-- The engine that a submission fault names: for a Prism command the engine of its context or surface (R577), for another the lowest-numbered engine
that the queue may use for it (R492, R534; DEDUCED, notes/assumptions/21.md). -/
def State.faultEngine (s : State) (q : Nat) (cw : Nat) : Nat :=
  let en := s.rd (F.CPE_QBIND_ENGINES q)
  let low (n : Nat) : Nat := ((List.range n).find? (fun i => bit en i)).getD 0
  match s.rd (F.CPE_QBIND_CLASS q) with
  | 0 => if bit cw 0 then 8 + low 8 else low 8
  | 1 => 16 + low 8
  | 2 => 24 + prismTarget cw % 16
  | _ => 48

/-- Replace a walk. -/
def State.putWalk (s : State) (w : WalkSt) : State :=
  { s with walks := s.walks.map (fun x => if x.id = w.id then w else x) }

/-- DIR of a copy or snapshot asks for HBM (0) or the capacity tier (1): is a frame elsewhere (R535)? -/
def tierWrong (dir frame : Nat) : Bool :=
  match homeOf (4096 * frame) with
  | some h => if dir = 0 then decide (8 ≤ h) else decide (h < 8)
  | none => true

/-- The first destination page of a copy or snapshot that lies outside the tier that DIR names. -/
def State.tierFault (s : State) (w : WalkSt) (cw : Nat) : Option Nat :=
  let op := bits cw 62 56
  if w.side = 1 && (op = 1 || op = 3) then
    ((s.frameList w.q w.entry 1 w.pages).zipIdx.find? (fun p =>
      match p.1 with | some f => tierWrong (bits cw 0 0) f | none => false)).map (·.2)
  else none

/-- A command whose regions are all translated is ready (R488, R534). -/
def State.readyCmd (s : State) (q entry : Nat) : State :=
  if s.walks.any (fun w => w.q == q && w.entry == entry) then s
  else
    let v := s.queue q
    s.setQueue q { v with cmds := v.cmds.map (fun c => if c.entry = entry && c.stage = 0 then { c with stage := 1 } else c) }

/-- WALK_COMPLETE: a region's walk ends, its frames written, or it faults (R488, R492 to R497, R535). -/
def execWalkComplete (id : Nat) (s : State) : Res :=
  let s := s.showWalkers
  match s.walks.find? (fun w => w.id == id) with
  | none => ok s
  | some w =>
    if s.stopped || !s.walkReady w || s.walkBusy w.ctx (w.vpage + (if w.held.isSome then 0 else w.next)) then ok s
    else
      match (s.queue w.q).cmds.find? (fun c => c.entry == w.entry) with
      | none => ok s
      | some c =>
        let start := if w.held.isSome then 0 else w.next
        match s.walkPages w (w.pages - start) start with
        | (s1, some (i, cause, level, entry)) =>
          if s1.stopped then ok s1 else
          let (s2, r) := s1.raiseFault w.ctx (w.vpage + i) w.write cause level entry (s1.faultEngine w.q c.w)
          let w1 := { w with next := i, held := r.map (fun r => (r, false)), noRec := r.isNone, slot := false }
          let s3 := (s2.putWalk w1).showWalkers
          ok (s3.setQueue w.q (s3.queue w.q))
        | (s1, none) =>
          if s1.stopped then ok s1 else
          let s2 := ({ s1 with walks := s1.walks.filter (fun x => x.id ≠ id) }).inc F.XLT_CNT_WALKS
          match s2.tierFault w c.w with
          | some k => ok (((s2.endWork w.q w.entry 4 k).inc F.CPE_CNT_TIER_MISMATCH).showWalkers)
          | none => ok ((s2.readyCmd w.q w.entry).showWalkers)

/-- FAULT_RECORD_FREE: a record that is being resumed becomes FREE once every engine in it has been replayed (R496).
[DEDUCED, notes/assumptions/91.md] -/
def State.recHeld (s : State) (r : Nat) : Bool :=
  s.walks.any (fun w => match w.held with | some (x, _) => x == r | none => false)
    || s.clusters.any (fun p => p.2.dqs.any (fun d => match d.held with | some (x, _) => x == r | none => false))
    || s.engHeld.any (fun p => p.2.1 == r)
    || s.slots.any (fun p => match p.2.loadHeld with | some (x, _) => x == r | none => false)

/-- FAULT_RECORD_FREE. -/
def execFaultRecordFree (r : Nat) (s : State) : Res :=
  if r < 64 && s.recState r = 2 && !s.recHeld r then
    ok (((s.setReg (Reg.XLT_REC r) 0).setReg (Reg.XLT_RECENG r) 0).showRecs.showWalkers)
  else ok s

end Sys2Proof.Machine
end

