-- ==== Sys2Proof/Machine/Epochs.lean ====
section
/-!
DEFINITION. Weight epochs (R307 to R317): the state of a shard's two versions, who holds the RETIRED one, and the flip.
-/

namespace Sys2Proof.Machine

/-- STATE of version v of shard h of slot j homed on die n: 0 FREE, 1 FILLING, 2 LIVE, 3 RETIRED (R308). -/
def State.verState (s : State) (n j h v : Nat) : Nat :=
  if v = 0 then s.rd (F.CD_EPOCH_STATE0 n j h) else s.rd (F.CD_EPOCH_STATE1 n j h)
/-- Set it. -/
def State.setVer (s : State) (n j h v st : Nat) : State :=
  if v = 0 then s.wr (F.CD_EPOCH_STATE0 n j h) st else s.wr (F.CD_EPOCH_STATE1 n j h) st

/-- The version in a state, if one is. -/
def State.verIn (s : State) (n j h st : Nat) : Option Nat :=
  if s.verState n j h 0 = st then some 0 else if s.verState n j h 1 = st then some 1 else none

/-- Home die and index of a descriptor's shard (R307). -/
def shardOf (d : DmaDesc) : Nat × Nat := (bits d.shard 10 8, bits d.shard 7 0)
/-- EPOCHED. -/
def DmaDesc.epoched (d : DmaDesc) : Bool := bit d.flags 2

/-- The outstanding DQs of slot j's clusters, with the descriptors they name. -/
def State.dqsOf (s : State) (j : Nat) : List (DqEnt × DmaDesc) :=
  (s.clustersOf j).flatMap (fun c => (s.cluster c).dqs.filterMap (fun d => (s.descOf j d.desc).map (fun x => (d, x))))

/-- Does a DQ name version v of shard h homed on die n? -/
def namesVer (n h v : Nat) (p : DqEnt × DmaDesc) : Bool :=
  p.2.epoched && shardOf p.2 == (n, h) && b2n p.1.e == v

/-- References outstanding to a version: of DQs (R207), and of snapshots (R546). -/
def State.refsTo (s : State) (n j h v : Nat) : Nat :=
  ((s.dqsOf j).filter (fun p => p.1.ref && namesVer n h v p)).length
    + (s.queues.flatMap (fun q => q.2.cmds.filter (fun c => c.ver == some (n, j, h, v)))).length

/-- Take one more reference on a shard. -/
def State.addRef (s : State) (n j h : Nat) : State := s.inc (F.CD_EPOCH_REFS n j h)

/-- Is the present lap before the slot's current flip lap (R310, R311)? Before the first commit no flip lap has passed.
[DEDUCED, notes/assumptions/14.md] -/
def State.beforeFlip (s : State) (j : Nat) : Bool :=
  match (s.slot j).flipLap with
  | some f => decide (s.now < f)
  | none => true

/-- What an EPOCHED DQ does when it issues: raise EPOCH, wait, or proceed, with the shard's new state. -/
inductive EpochOut where
  | raise
  | wait (s : State)
  | go (s : State)

/-- A cluster becomes a holder of the RETIRED version. -/
def State.hold (s : State) (cl : ClusterId) (n j h : Nat) : State :=
  let v := s.shard n j h
  if v.holders.contains (clKey cl) then s else s.setShard n j h { v with holders := v.holders ++ [clKey cl] }
/-- A cluster stops holding it (R312). -/
def State.unhold (s : State) (cl : ClusterId) (n j h : Nat) : State :=
  let v := s.shard n j h
  s.setShard n j h { v with holders := v.holders.filter (· ≠ clKey cl) }

/-- An EPOCHED read of version v (R310).
[DEDUCED, notes/assumptions/14.md] -/
def State.epochRead (s : State) (cl : ClusterId) (j n h v : Nat) : EpochOut :=
  let before := s.beforeFlip j
  match s.verState n j h v with
  | 2 => .go (s.unhold cl n j h)
  | 3 =>
    if s.rd (F.CD_EPOCH_WAIT n j h) = 0 || before then .go (s.hold cl n j h)
    else if (s.shard n j h).holders.contains (clKey cl) then .go s
    else .wait s
  | 1 => if before then .raise else .wait s
  | _ => .raise

/-- EPOCH_STALL at the first wait of an update (R311). -/
def State.epochStall (s : State) (j n h : Nat) : State :=
  let v := s.shard n j h
  let s1 := s.wr (F.CD_EPOCH_WAIT n j h) 1
  if v.stalled then s1
  else
    let refs := s.rd (F.CD_EPOCH_REFS n j h)
    let ep := (s.rd (F.CD_EPOCH_EPOCH n j h) + (2 ^ 32 - 1)) % 2 ^ 32
    ((s1.setShard n j h { v with stalled := true }).inc (F.CD_BWD_CNT_EPOCH_STALL n j)).emit
      ⟨2, 0x0C04, srcOf n j, s.jobOf j, place 7 0 h ||| place 39 8 ep ||| place 48 40 v.holders.length
        ||| place 58 49 refs ||| place 102 59 (s.step j)⟩

/-- An EPOCHED write of version v (R311).
[DEDUCED, notes/assumptions/14.md] -/
def State.epochWrite (s : State) (j n h v : Nat) : EpochOut :=
  if !s.beforeFlip j then .raise
  else
    match s.verState n j h v with
    | 1 => .go s
    | 0 => .go (s.setVer n j h v 1)
    | 3 => .wait (s.epochStall j n h)
    | _ => .raise

/-- Waiting DQs of a job that name version v go on, each with its reference. -/
def State.wakeDqs (s : State) (j n h v : Nat) (write : Bool) : State :=
  (s.clustersOf j).foldl (fun (s : State) cl =>
    let c := s.cluster cl
    let isOne (d : DqEnt) : Bool := d.waitsEpoch && d.write == write &&
      (match s.descOf j d.desc with | some x => namesVer n h v (d, x) | none => false)
    let k := (c.dqs.filter isOne).length
    (s.setCluster cl { c with dqs := c.dqs.map (fun d => if isOne d then { d with waitsEpoch := false, ref := true } else d) }).add
      (F.CD_EPOCH_REFS n j h) k) s

/-- EPOCH_RELEASE: the RETIRED version of a shard becomes FREE, or FILLING where a write waits (R313). -/
def execEpochRelease (j n h : Nat) (s : State) : Res :=
  match s.verIn n j h 3 with
  | none => ok s
  | some v =>
    let sh := s.shard n j h
    if !sh.markSince || !sh.holders.isEmpty || s.refsTo n j h v ≠ 0 then ok s
    else if s.rd (F.CD_EPOCH_WAIT n j h) = 1 then
      ok (((s.setVer n j h v 1).wr (F.CD_EPOCH_WAIT n j h) 0).wakeDqs j n h v true)
    else ok (s.setVer n j h v 0)

/-- May a shard flip: it has a FILLING version whose writes have all completed, and no write waits (R314)? -/
def State.canFlip (s : State) (j n h : Nat) : Bool :=
  match s.verIn n j h 1 with
  | none => false
  | some v => s.rd (F.CD_EPOCH_WAIT n j h) == 0 && !((s.dqsOf j).any (fun p => p.1.write && namesVer n h v p))

/-- The shards that the loaded program of slot j names, by home die and index. -/
def State.usedShards (s : State) (j : Nat) : List (Nat × Nat) :=
  match (s.slot j).prog with
  | none => []
  | some p => ((p.dma.filter DmaDesc.epoched).map shardOf).dedup

/-- SNAPSHOTs of slot j that wait for the flip of a shard take the version that has become LIVE, each with its reference (R545, R546). One whose
descriptor is not an EPOCHED one of the program goes on, and is refused when its engine runs it. -/
def State.wakeSnaps (s : State) (j n h : Nat) : State :=
  let takes (c : CmdSt) : Bool := c.wait && (match s.descOf j (bits c.w 143 128) with | some d => d.epoched && shardOf d == (n, h) | none => false)
  match s.verIn n j h 2 with
  | none => s
  | some v =>
    let mine (q : Nat × QueueSt) : Bool := s.rd (F.CPE_QBIND_CTX q.1) == j
    let k := ((s.queues.filter mine).flatMap (fun q => q.2.cmds.filter takes)).length
    ({ s with queues := s.queues.map (fun q => if mine q then (q.1, { q.2 with cmds := q.2.cmds.map (fun c =>
        if takes c then { c with wait := false, ver := some (n, j, h, v), epoch := s.rd (F.CD_EPOCH_EPOCH n j h) } else c) }) else q) }).add
      (F.CD_EPOCH_REFS n j h) k

/-- The flip of one shard: FILLING becomes LIVE with the next epoch number, LIVE becomes RETIRED; reads that wait for the new
LIVE version go on (R310, R314). -/
def State.flipShard (s : State) (j n h : Nat) : State :=
  match s.verIn n j h 1 with
  | none => s
  | some v =>
    let s1 := ((s.setVer n j h (1 - v) 3).setVer n j h v 2).wr (F.CD_EPOCH_EPOCH n j h) (s.rd (F.CD_EPOCH_EPOCH n j h) + 1)
    ((s1.setShard n j h { s1.shard n j h with markSince := false, stalled := false, late := none }).wakeDqs j n h v false).wakeSnaps j n h

/-- The flip of a shard that missed flip lap `f`, with EPOCH_FLIP_LATE (R315). -/
def State.flipLate (s : State) (j n h f : Nat) : State :=
  let s1 := s.flipShard j n h
  s1.emit ⟨1, 0x0C08, srcOf n j, s.jobOf j,
    place 7 0 h ||| place 39 8 (s1.rd (F.CD_EPOCH_EPOCH n j h)) ||| place 71 40 (s.now - f)⟩

/-- One shard at the flip lap `f`: it flips, late where it missed an earlier flip lap; one with a fill that cannot flip becomes
late (R314, R315). -/
def State.flipOne (s : State) (j f : Nat) (onTime : Bool) (k : Nat × Nat) : State :=
  let n := k.1
  let h := k.2
  let sh := s.shard n j h
  if onTime && s.canFlip j n h then
    match sh.late with
    | some f0 => s.flipLate j n h f0
    | none => s.flipShard j n h
  else if (s.verIn n j h 1).isSome || s.rd (F.CD_EPOCH_WAIT n j h) = 1 then
    s.setShard n j h { sh with late := some (sh.late.getD f) }
  else if onTime then s.wakeSnaps j n h
  else s

/-- EPOCH_FLIP: at the flip lap every shard that can flips; the others flip late (R314, R315). A flip lap that has passed is not
applied late: every shard with a fill then flips under R315 (R48). -/
def execEpochFlip (j : Nat) (s : State) : Res :=
  match (s.slot j).flipLap with
  | none => ok s
  | some f =>
    if s.now < f || (s.slot j).flipDone || s.slotState j ≠ 2 || !s.turn 4 then ok s
    else
      let s1 := s.setSlot j { s.slot j with flipDone := true }
      let s2 := (s.usedShards j).foldl (fun (s : State) k => s.flipOne j f (s.now == f) k) s1
      ok s2.latch

/-- EPOCH_FLIP_LATE: a shard that could not flip at its flip lap flips at the first later lap mark at which it can (R315). -/
def execEpochFlipLate (j n h : Nat) (s : State) : Res :=
  match (s.shard n j h).late with
  | some f => if f < s.now && s.canFlip j n h && s.turn 4 then ok (s.flipLate j n h f).latch else ok s
  | none => ok s

end Sys2Proof.Machine
end

