-- ==== Sys2Proof/Machine/Fabric.lean ====
section
/-!
DEFINITION. How a message leaves on Acmet (09): the flits it is cut into, its routes over pod ports and gateway slots, and the
credits, replay buffer and transmit priority of the port it leaves on. The blocks that send messages stand after this file; ports,
training and what arrives stand in Machine/Acmet.lean.
-/

namespace Sys2Proof
open Sys2Proof.Machine

/-- Fields of a flit header (R400). -/
def Flit.f (x : Flit) (hi lo : Nat) : Nat := bits x.hdr.toNat hi lo
/-- Replace a field. -/
def Flit.put (x : Flit) (hi lo v : Nat) : Flit :=
  { x with hdr := BitVec.ofNat 96 ((x.hdr.toNat - (bits x.hdr.toNat hi lo) <<< lo) ||| place hi lo v) }
/-- The class of the buffer that it consumed: its stage's reserved share, or the shared pool, 4 (R406). -/
def Flit.bufferClass (x : Flit) : Nat := if x.f 17 17 = 1 then x.f 89 88 else 4
/-- The CRC-32C over bytes 0x00 to 0xFB. -/
def Flit.sum (x : Flit) : Nat := crc32c (leBytes 12 x.hdr.toNat ++ x.payload)
/-- Is the CRC of a flit good? -/
def Flit.crcOk (x : Flit) : Bool := x.crc.toNat == x.sum
/-- A flit with its CRC. -/
def Flit.seal (x : Flit) : Flit := { x with crc := BitVec.ofNat 32 x.sum }

end Sys2Proof

namespace Sys2Proof.Machine
open Sys2Proof

/-! Ports and wiring (R389, R392, R393). -/

/-- A port beyond its registers. -/
def State.port (s : State) (p : Nat) : PortSt := sget (fun _ => PortSt.init) s.ports p
/-- Set it. -/
def State.setPort (s : State) (p : Nat) (v : PortSt) : State := { s with ports := sset (fun _ => PortSt.init) s.ports p v }

/-- STATE of a port (R409). -/
def State.portState (s : State) (p : Nat) : Nat := s.rd (F.ACM_PORT_STAT_STATE p)

/-- Is Acmet port p in UP? -/
def State.portUp (s : State) (p : Nat) : Bool := s.rd (F.ACM_PORT_STAT_STATE p) == 7

/-- Global links of each pod pair (R393). -/
def podLinks (pods : Nat) : Nat := if pods ≤ 1 then 0 else 510 / (pods - 1)

/-- The port of pod index i, and of global index g (R389). -/
def podPort (i : Nat) : Nat := 13 * (i / 8) + i % 8
/-- Global. -/
def globalPort (g : Nat) : Nat := if g < 12 then 13 * (g / 4) + 8 + g % 4 else 46 + (g - 12)

/-- The pod port towards position b from position a (R392). -/
def podPortTo (a b : Nat) : Nat := podPort ((b + 31 - a) % 32)

/-- The FI of module `m` of slot j's job, from its member table; none where its entry is not valid (R421).
[DEDUCED, notes/assumptions/90.md] -/
def State.memberFi (s : State) (j m : Nat) : Option Nat :=
  let w := s.memNat (2 ^ 14 * s.rd (F.ACM_JOBMAP_BASE j) + 2 * m) 2
  if bit w 15 then some (w % 2 ^ 13) else none

/-! The link layer: what leaves a port (R400 to R407). -/

/-- Credits of a full receive buffer: 8 · VC + class, class 4 shared (R405). -/
def creditsOf (k : Nat) : Nat :=
  match k / 8, k % 8 with
  | 0, 4 => 1536
  | 1, 4 => 768
  | 2, 4 => 0
  | 3, 4 => 0
  | 3, _ => 8
  | _, _ => 16

/-- The credit that a flit of stage k on a channel would use (R406): a shared one first. -/
def PortSt.creditFor (v : PortSt) (vc stage : Nat) : Option Nat :=
  if 0 < sget creditsOf v.credits (8 * vc + 4) then some 4
  else if 0 < sget creditsOf v.credits (8 * vc + stage) then some stage else none

/-- Flits of the 2,048-flit replay buffer (R402). -/
def replayRoom : Nat := 2048

/-- The flit of a virtual channel that may leave next, and the credit it uses: the next of the message under way, else the first of
the stages that have a credit, so that no stage waits for the buffers of another (R401, R406, R407). -/
def PortSt.ready (v : PortSt) (vc : Nat) : Option (QFlit × Nat) :=
  let mine := v.queue.filter (fun q => q.flit.f 91 90 == vc)
  let cands : List QFlit := match sget (fun _ => 0) v.busy vc with
    | 0 => mine
    | m + 1 => (mine.filter (fun q => q.mid == m)).take 1
  cands.findSome? (fun (q : QFlit) => (v.creditFor vc (q.flit.f 89 88)).map (fun c => (q, c)))

/-- The next flit of the port by transmit priority: channel 2, then 3, then 0 and 1 by weights 3 and 1 (R405). -/
def PortSt.pick (v : PortSt) : Option (QFlit × Nat) :=
  (if v.turn % 4 = 3 then [2, 3, 1, 0] else [2, 3, 0, 1]).findSome? v.ready

/-- A control flit of a port: the number that it expects, as an acknowledgement or a NAK, and credits that it returns (R400, R403, R406). The replay
buffer holds none, and none takes a sequence number.
[DESIGN CHOICE, notes/assumptions/61.md] -/
def State.control (s : State) (p : Nat) (nak : Bool) (vc cls n : Nat) : State :=
  let v := s.port p
  let x : Flit := ⟨BitVec.ofNat 96 (place 95 92 5 ||| place 87 76 v.tx ||| place 75 64 v.rx ||| place 63 63 (b2n nak) ||| place 62 61 vc
    ||| place 60 58 cls ||| place 57 52 n), (List.range 240).map (Config.padByte s.free), 0⟩
  s.send (.flit p x.seal)

/-- Return one credit of a class. -/
def State.giveCredit (s : State) (p vc cls : Nat) : State := s.control p false vc cls 1

/-- A flit leaves on a port: it takes the port's sequence number, a credit and a place in the replay buffer; the buffer that a flit in
transit held is free again (R400 to R402, R405, R406).
[DESIGN CHOICE, notes/assumptions/61.md] -/
def State.launch (s : State) (p : Nat) (q : QFlit) (cls : Nat) : State :=
  let v := s.port p
  let x := q.flit
  let vc := x.f 91 90
  let y := (((((x.put 87 76 v.tx).put 75 64 v.rx).put 63 63 0).put 62 52 0).put 17 17 (if cls = 4 then 0 else 1)).seal
  let s1 := (s.setPort p { v with
    tx := (v.tx + 1) % 4096, replay := v.replay ++ [y], queue := v.queue.erase q
    busy := if x.f 95 92 = 1 then sset (fun _ => 0) v.busy vc (q.mid + 1)
      else if x.f 95 92 = 2 then v.busy else sset (fun _ => 0) v.busy vc 0
    turn := if vc ≤ 1 then v.turn + 1 else v.turn
    credits := sset creditsOf v.credits (8 * vc + cls) (sget creditsOf v.credits (8 * vc + cls) - 1) }).send (.flit p y)
  match q.held with
  | some (r, c) => s1.giveCredit r vc c
  | none => s1

/-- At most `n` flits leave a port in UP, while there are credits and the replay buffer has room. -/
def State.launchAll : Nat → State → Nat → State
  | 0, s, _ => s
  | n + 1, s, p =>
    if !s.portUp p || decide (replayRoom ≤ (s.port p).replay.length) then s
    else match (s.port p).pick with
      | none => s
      | some (q, c) => (s.launch p q c).launchAll n p

/-- Whatever may leave a port leaves. -/
def State.drain (s : State) (p : Nat) : State := s.launchAll (s.port p).queue.length p

/-- Flits wait at the port on which they leave. -/
def State.enqueue (s : State) (p : Nat) (qs : List QFlit) : State :=
  (s.setPort p { s.port p with queue := (s.port p).queue ++ qs }).drain p

/-- Flits without a route are dropped, with one record a pace mark (R399). -/
def State.routeDrop (s : State) (dest vc n : Nat) : State :=
  (s.add F.ACM_ROUTE_CNT_DROP n).noteOnce 12 0 n (fun k =>
    ⟨1, 0x0807, srcModule 0, none, place 12 0 dest ||| place 14 13 vc ||| place 46 15 k⟩)

/-! Routes (R395 to R399). -/

/-- The position of this module in its pod. -/
def State.pos (s : State) : Nat := s.rd F.ACM_CFG_FI % 32

/-- The ways to position `b` of this pod, best first: the direct port, then the detours by ascending position through a module whose
ports to both ends are UP. Whether another module's own port is UP is not known here: it is free. The flag marks a detour (R395, R398).
[DESIGN CHOICE, notes/assumptions/61.md] -/
def State.podWays (s : State) (b : Nat) : List (Nat × Bool) :=
  let a := s.pos
  if a = b then []
  else
    (if s.portUp (podPortTo a b) then [(podPortTo a b, false)] else [])
      ++ ((List.range 32).filter (fun c => c != a && c != b && s.portUp (podPortTo a c) && s.freeNat (32 + c) % 2 == 1)).map
        (fun c => (podPortTo a c, true))

/-- Gateway slots of this pod towards pod q (R393, R396). -/
def gateways (pods pod q : Nat) : List Nat :=
  let l := podLinks pods
  let dl := (q + pods - pod) % pods
  (List.range l).map (fun i => l * (dl - 1) + i)

/-- Is gateway slot u in service? Whether the global port of another module is UP is not known here: it is free (R397).
[DESIGN CHOICE, notes/assumptions/61.md] -/
def State.slotUp (s : State) (u : Nat) : Bool :=
  if u / 16 = s.pos then s.portUp (globalPort (u % 16)) else s.freeNat (64 + u) % 2 == 1

/-- The ways to gateway slot u, best first: this module's own global port, or the pod ports towards the gateway. -/
def State.slotWays (s : State) (u : Nat) : List (Nat × Bool) :=
  if u / 16 = s.pos then [(globalPort (u % 16), false)] else s.podWays (u / 16)

/-- The routes of a message of this module to FI `dest`, first and second: in its pod the direct port and the detours; to another pod the in-service
gateway slot that the hash of R397 chooses, and the next slot that a way over another port of this module reaches, so that the two share no link here
(R373, R397). None stands for a slot that cannot be reached.
[DESIGN CHOICE, notes/assumptions/61.md] -/
def State.ways (s : State) (vc dest : Nat) : List (Option (Nat × Bool)) :=
  let fi := s.rd F.ACM_CFG_FI
  let pods := s.rd F.ACM_CFG_PODS
  if dest / 32 = fi / 32 then (s.podWays (dest % 32)).map some
  else if pods ≤ dest / 32 then []
  else
    let gs := (gateways pods (fi / 32) (dest / 32)).filter s.slotUp
    let h := Config.routeHash fi dest vc s.msgNo % gs.length
    match gs.drop h ++ gs.take h with
    | [] => []
    | u :: rest =>
      let first := (s.slotWays u).head?
      let second := rest.findSome? (fun v => (s.slotWays v).find? (fun w => first.all (fun f => f.1 != w.1)))
      first :: second.toList.map some

/-! Messages of this module (R400, R401, R418, R421). -/

/-- The flits of a message: 240 payload bytes each, the last one filled up with bytes that the manual leaves open.
[DESIGN CHOICE, notes/assumptions/61.md] -/
def flitsOf (free vc src dest : Nat) (bytes : List Byte) : List Flit :=
  let n := max 1 (ceilDiv bytes.length 240)
  (List.range n).map (fun i =>
    let d := (bytes.drop (240 * i)).take 240
    let t := if n = 1 then 4 else if i = 0 then 1 else if i + 1 = n then 3 else 2
    ⟨BitVec.ofNat 96 (place 95 92 t ||| place 91 90 vc ||| place 51 39 dest ||| place 38 26 src ||| place 25 18 d.length),
      d ++ (List.range (240 - d.length)).map (fun k => Config.padByte free (240 * i + d.length + k)), 0⟩)

/-- A message to FI `dest` leaves on each of its `routes`; on a route that does not exist the flits are dropped. A second route is
taken only where there is one.
[DESIGN CHOICE, notes/assumptions/61.md] -/
def State.sendOn (s : State) (ws : List (Option (Nat × Bool))) (vc dest routes : Nat) (bytes : List Byte) : State :=
  let fs := flitsOf s.free vc (s.rd F.ACM_CFG_FI) dest bytes
  let chosen := match ws with | [] => [none] | _ => ws.take routes
  ((chosen.zipIdx.foldl (fun (s : State) (w : Option (Nat × Bool) × Nat) => match w.1 with
    | none => s.routeDrop dest vc fs.length
    | some (p, detour) =>
      (if detour then s.inc F.ACM_ROUTE_CNT_DETOUR else s).enqueue p (fs.map (fun x => ⟨x, 256 + 2 * s.msgNo + w.2, none⟩))) s) |>
    fun (t : State) => { t with msgNo := t.msgNo + 1 }).tick

/-- A message to FI `dest` on a virtual channel, over one route or two. -/
def State.sendMsg (s : State) (vc dest routes : Nat) (bytes : List Byte) : State := s.sendOn (s.ways vc dest) vc dest routes bytes

/-- A message to a member of slot j's job, at the FI that the member table gives (R421); to a member without a valid entry none
leaves.
[DEDUCED, notes/assumptions/90.md] -/
def State.sendMember (s : State) (j vc member routes : Nat) (bytes : List Byte) : State :=
  match s.memberFi j member with
  | some fi => s.sendMsg vc fi routes bytes
  | none => s

/-- A Relay block of member `member` is acknowledged, or asked for again, by a message on channel 0 (R353, R395, R396); its layout is open.
[DESIGN CHOICE, notes/assumptions/61.md] -/
def State.relayReply (s : State) (j member tile : Nat) (good : Bool) : State :=
  s.sendMember j 0 member 1 (leBytes 16 (Config.relayAckWord tile good).toNat)

/-- A checkpoint message to a holder: in the pod it is spread over the UP pod ports, in turn, and crosses the module at the far end; the
direct port is taken only where it is the only one. A holder in another pod is reached by R396 (R714).
[DESIGN CHOICE, notes/assumptions/62.md] -/
def State.sendSpread (s : State) (dest : Nat) (bytes : List Byte) : State :=
  if dest / 32 ≠ s.rd F.ACM_CFG_FI / 32 then s.sendMsg 1 dest 1 bytes
  else
    let a := s.pos
    let ps := ((List.range 32).filter (fun c => c != a && c != dest % 32 && s.portUp (podPortTo a c))).map (podPortTo a)
    match ps[s.msgNo % ps.length]? with
    | some p => s.sendOn [some (p, false)] 1 dest 1 bytes
    | none => s.sendMsg 1 dest 1 bytes

/-- The acknowledgement of a peer or checkpoint message goes back to its source on channel 1 (R405, R420, R716); its layout is open.
[DESIGN CHOICE, notes/assumptions/61.md] -/
def State.sendAck (s : State) (fi tag : Nat) (good : Bool) : State :=
  s.sendMsg 1 fi 1 (leBytes 16 (Config.peerAckWord tag good).toNat)

end Sys2Proof.Machine
end

