-- ==== Sys2Proof/Machine/Operands.lean ====
section
/-!
DEFINITION. How the sequencer issues one instruction (R176, R181, R184, R186, R231, R784), the instruction words of R180,
and the operand forms: S registers, immediates, and tile-store bytes with their interlock (R179).
-/

namespace Sys2Proof.Machine

/-! Instruction words (R180). -/

/-- The word of format R (R180). -/
def wordR (op : Nat) (f : FmtR) : Nat :=
  place 31 25 op ||| place 24 20 f.rd.toNat ||| place 19 15 f.rs1.toNat ||| place 14 10 f.rs2.toNat ||| place 9 0 f.fn.toNat
/-- The word of format I (R180). -/
def wordI (op : Nat) (f : FmtI) : Nat :=
  place 31 25 op ||| place 24 20 f.rd.toNat ||| place 19 15 f.rs1.toNat ||| place 14 0 f.imm.toNat
/-- The word of format S (R180). -/
def wordS (op : Nat) (f : FmtS) : Nat :=
  place 31 25 op ||| place 24 20 f.rs2.toNat ||| place 19 15 f.rs1.toNat ||| place 14 0 f.imm.toNat
/-- The word of format B (R180). -/
def wordB (op : Nat) (f : FmtB) : Nat :=
  place 31 25 op ||| place 24 20 f.rs1.toNat ||| place 19 15 f.rs2.toNat ||| place 14 0 f.off.toNat
/-- The word of formats U and J (R180). -/
def wordU (op : Nat) (f : FmtU) : Nat := place 31 25 op ||| place 24 20 f.rd.toNat ||| place 19 0 f.imm.toNat
/-- The word of format M and of the vector formats (R180, R249). -/
def word5 (op : Nat) (f : Fmt5) : Nat :=
  place 31 25 op ||| place 24 20 f.f24.toNat ||| place 19 15 f.f19.toNat ||| place 14 10 f.f14.toNat
    ||| place 9 5 f.f9.toNat ||| place 4 0 f.f4.toNat

/-- The fields of a 32-bit word under format R (R180). -/
def splitR (w : Nat) : FmtR := ⟨BitVec.ofNat 5 (bits w 24 20), BitVec.ofNat 5 (bits w 19 15), BitVec.ofNat 5 (bits w 14 10), BitVec.ofNat 10 (bits w 9 0)⟩
/-- Format I. -/
def splitI (w : Nat) : FmtI := ⟨BitVec.ofNat 5 (bits w 24 20), BitVec.ofNat 5 (bits w 19 15), BitVec.ofNat 15 (bits w 14 0)⟩
/-- Format S. -/
def splitS (w : Nat) : FmtS := ⟨BitVec.ofNat 5 (bits w 24 20), BitVec.ofNat 5 (bits w 19 15), BitVec.ofNat 15 (bits w 14 0)⟩
/-- Format B. -/
def splitB (w : Nat) : FmtB := ⟨BitVec.ofNat 5 (bits w 24 20), BitVec.ofNat 5 (bits w 19 15), BitVec.ofNat 15 (bits w 14 0)⟩
/-- Formats U and J. -/
def splitU (w : Nat) : FmtU := ⟨BitVec.ofNat 5 (bits w 24 20), BitVec.ofNat 20 (bits w 19 0)⟩
/-- Format M and the vector formats. -/
def split5 (w : Nat) : Fmt5 :=
  ⟨BitVec.ofNat 5 (bits w 24 20), BitVec.ofNat 5 (bits w 19 15), BitVec.ofNat 5 (bits w 14 10), BitVec.ofNat 5 (bits w 9 5), BitVec.ofNat 5 (bits w 4 0)⟩

/-- The instruction that a 32-bit word encodes for a cluster's sequencer, by the opcode tables of R182 and R250; none for an
illegal opcode. -/
def insnOf (cl : ClusterId) (w : Nat) : Option Instr :=
  match bits w 31 25 with
  | 0x01 => some (.alu cl (splitR w))
  | 0x02 => some (.addi cl (splitI w))
  | 0x03 => some (.andi cl (splitI w))
  | 0x04 => some (.ori cl (splitI w))
  | 0x05 => some (.xori cl (splitI w))
  | 0x06 => some (.shli cl (splitI w))
  | 0x07 => some (.shri cl (splitI w))
  | 0x08 => some (.sari cl (splitI w))
  | 0x09 => some (.slti cl (splitI w))
  | 0x0A => some (.sltiu cl (splitI w))
  | 0x0B => some (.lui cl (splitU w))
  | 0x10 => some (.beq cl (splitB w))
  | 0x11 => some (.bne cl (splitB w))
  | 0x12 => some (.blt cl (splitB w))
  | 0x13 => some (.bge cl (splitB w))
  | 0x14 => some (.bltu cl (splitB w))
  | 0x15 => some (.bgeu cl (splitB w))
  | 0x16 => some (.jal cl (splitU w))
  | 0x17 => some (.jalr cl (splitI w))
  | 0x20 => some (.ld cl (splitI w))
  | 0x21 => some (.lw cl (splitI w))
  | 0x22 => some (.st cl (splitS w))
  | 0x23 => some (.sw cl (splitS w))
  | 0x24 => some (.tcpy cl (split5 w))
  | 0x28 => some (.srd cl (splitI w))
  | 0x30 => some (.mcfg cl (split5 w))
  | 0x31 => some (.mlda cl (split5 w))
  | 0x32 => some (.mldb cl (split5 w))
  | 0x33 => some (.mma cl (split5 w))
  | 0x34 => some (.macc cl (split5 w))
  | 0x35 => some (.mdrn cl (split5 w))
  | 0x36 => some (.mtie cl (split5 w))
  | 0x37 => some (.rpush cl (split5 w))
  | 0x38 => some (.dq cl (split5 w))
  | 0x39 => some (.dwait cl (split5 w))
  | 0x3A => some (.fence cl (split5 w))
  | 0x3B => some (.halt cl (split5 w))
  | 0x3C => some (.bar cl (splitI w))
  | 0x3D => some (.wlap cl (splitI w))
  | 0x3E => some (.hrdw cl (split5 w))
  | 0x3F => some (.evt cl (splitI w))
  | 0x40 => some (.setvl cl (splitI w))
  | 0x41 => some (.vld cl (split5 w))
  | 0x42 => some (.vlds cl (split5 w))
  | 0x43 => some (.vldb cl (split5 w))
  | 0x44 => some (.vst cl (split5 w))
  | 0x45 => some (.vsts cl (split5 w))
  | 0x48 => some (.vfv cl (split5 w))
  | 0x49 => some (.vfs cl (split5 w))
  | 0x4A => some (.vfu cl (split5 w))
  | 0x4B => some (.vsfu cl (split5 w))
  | 0x4C => some (.viv cl (split5 w))
  | 0x4D => some (.vis cl (split5 w))
  | 0x50 => some (.vcmpv cl (split5 w))
  | 0x51 => some (.vcmps cl (split5 w))
  | 0x52 => some (.vsel cl (split5 w))
  | 0x54 => some (.vred cl (split5 w))
  | 0x58 => some (.vderiv cl (split5 w))
  | 0x5C => some (.vcvt cl (split5 w))
  | 0x5D => some (.vsr cl (split5 w))
  | 0x5E => some (.vxcvt cl (split5 w))
  | 0x60 => some (.vmv cl (split5 w))
  | 0x64 => some (.vputs cl (split5 w))
  | 0x65 => some (.vgets cl (split5 w))
  | _ => none

/-- The 32-bit word of a sequencer instruction (R180, R182, R250); none for a command of any other kind. -/
def insnWord : Instr → Option Nat
  | .alu _ f => some (wordR 0x01 f)
  | .addi _ f => some (wordI 0x02 f)
  | .andi _ f => some (wordI 0x03 f)
  | .ori _ f => some (wordI 0x04 f)
  | .xori _ f => some (wordI 0x05 f)
  | .shli _ f => some (wordI 0x06 f)
  | .shri _ f => some (wordI 0x07 f)
  | .sari _ f => some (wordI 0x08 f)
  | .slti _ f => some (wordI 0x09 f)
  | .sltiu _ f => some (wordI 0x0A f)
  | .lui _ f => some (wordU 0x0B f)
  | .beq _ f => some (wordB 0x10 f)
  | .bne _ f => some (wordB 0x11 f)
  | .blt _ f => some (wordB 0x12 f)
  | .bge _ f => some (wordB 0x13 f)
  | .bltu _ f => some (wordB 0x14 f)
  | .bgeu _ f => some (wordB 0x15 f)
  | .jal _ f => some (wordU 0x16 f)
  | .jalr _ f => some (wordI 0x17 f)
  | .ld _ f => some (wordI 0x20 f)
  | .lw _ f => some (wordI 0x21 f)
  | .st _ f => some (wordS 0x22 f)
  | .sw _ f => some (wordS 0x23 f)
  | .tcpy _ f => some (word5 0x24 f)
  | .srd _ f => some (wordI 0x28 f)
  | .mcfg _ f => some (word5 0x30 f)
  | .mlda _ f => some (word5 0x31 f)
  | .mldb _ f => some (word5 0x32 f)
  | .mma _ f => some (word5 0x33 f)
  | .macc _ f => some (word5 0x34 f)
  | .mdrn _ f => some (word5 0x35 f)
  | .mtie _ f => some (word5 0x36 f)
  | .rpush _ f => some (word5 0x37 f)
  | .dq _ f => some (word5 0x38 f)
  | .dwait _ f => some (word5 0x39 f)
  | .fence _ f => some (word5 0x3A f)
  | .halt _ f => some (word5 0x3B f)
  | .bar _ f => some (wordI 0x3C f)
  | .wlap _ f => some (wordI 0x3D f)
  | .hrdw _ f => some (word5 0x3E f)
  | .evt _ f => some (wordI 0x3F f)
  | .setvl _ f => some (wordI 0x40 f)
  | .vld _ f => some (word5 0x41 f)
  | .vlds _ f => some (word5 0x42 f)
  | .vldb _ f => some (word5 0x43 f)
  | .vst _ f => some (word5 0x44 f)
  | .vsts _ f => some (word5 0x45 f)
  | .vfv _ f => some (word5 0x48 f)
  | .vfs _ f => some (word5 0x49 f)
  | .vfu _ f => some (word5 0x4A f)
  | .vsfu _ f => some (word5 0x4B f)
  | .viv _ f => some (word5 0x4C f)
  | .vis _ f => some (word5 0x4D f)
  | .vcmpv _ f => some (word5 0x50 f)
  | .vcmps _ f => some (word5 0x51 f)
  | .vsel _ f => some (word5 0x52 f)
  | .vred _ f => some (word5 0x54 f)
  | .vderiv _ f => some (word5 0x58 f)
  | .vcvt _ f => some (word5 0x5C f)
  | .vsr _ f => some (word5 0x5D f)
  | .vxcvt _ f => some (word5 0x5E f)
  | .vmv _ f => some (word5 0x60 f)
  | .vputs _ f => some (word5 0x64 f)
  | .vgets _ f => some (word5 0x65 f)
  | _ => none

/-! S registers (R170, R171). -/

/-- S[r]; S0 reads as zero. -/
def ClusterSt.sreg (c : ClusterSt) (r : BitVec 5) : Word := if r = 0 then 0 else sget (fun _ => 0) c.sregs r.toNat
/-- Write S[r]; a write to S0 is discarded. -/
def ClusterSt.setS (c : ClusterSt) (r : BitVec 5) (v : Word) : ClusterSt :=
  if r = 0 then c else { c with sregs := sset (fun _ => 0) c.sregs r.toNat v }
/-- S[r] as a number. -/
def ClusterSt.sn (c : ClusterSt) (r : BitVec 5) : Nat := (c.sreg r).toNat

/-! The issue of one instruction. -/

/-- What the instruction at PC does when it issues: it raises an exception with its cause and ADDR (R233, R281); it waits;
it retires and PC moves on; or it retires and PC moves to a target. -/
inductive Issue where
  | exc (cause addr : Nat)
  | wait (s : State)
  | ret (s : State)
  | jump (s : State) (target : Nat)

/-- PC of a cluster. -/
def State.pc (s : State) (cl : ClusterId) : Nat := s.rd (F.CL_STATUS_PC cl.die cl.idx)

/-- Raise an exception (R231, R232): the instruction does not retire, the sequencer stops in FAULT, the cluster's queued
work is abandoned, SEQ_EXCEPTION is written, and the job stops.
[DEDUCED, notes/assumptions/15.md] -/
def State.raise (s : State) (cl : ClusterId) (word cause addr : Nat) : State :=
  let pc := s.pc cl
  let s1 := ((s.wr (F.CL_FAULT_CODE cl.die cl.idx) 0x0C30).wr (F.CL_FAULT_CAUSE cl.die cl.idx) cause).wr
    (F.CL_FAULT_ADDR cl.die cl.idx) addr
  let s2 := (s1.wr (F.CL_EXC_INSN cl.die cl.idx) word).wr (F.CL_EXC_PC cl.die cl.idx) pc
  let s3 := (s2.setRun cl 6).abandonCl cl
  let j := s3.slotOfCl cl
  let e : Ev := ⟨3, 0x0C30, srcOf cl.die cl.idx, j.bind s3.jobOf,
    place 7 0 cause ||| place 21 8 (pc / 4) ||| place 53 22 word ||| place 74 54 addr ||| place 81 75 (s3.logical cl)⟩
  match j with
  | some j => s3.failJob j e
  | none => s3.emit e

/-- Cause codes of R233 and R281.
[DEDUCED, notes/assumptions/15.md] -/
def excIllegal : Issue := .exc 16 0
def excFetch : Nat := 17

/-- Show what the sequencer waits for in CDn_CL_WAIT.
[DEDUCED, notes/assumptions/85.md] -/
def State.showWait (s : State) (cl : ClusterId) (kind which target : Nat) : State :=
  ((s.wr (F.CL_WAIT_KIND cl.die cl.idx) kind).wr (F.CL_WAIT_WHICH cl.die cl.idx) which).wr
    (F.CL_WAIT_TARGET cl.die cl.idx) target

/-- The wait for a full queue is over: CDn_CL_WAIT shows none (R176). -/
def State.endQueueWait (s : State) (cl : ClusterId) : State :=
  if s.rd (F.CL_WAIT_KIND cl.die cl.idx) = 5 then s.showWait cl 0 0 0 else s

/-- FETCH at the target that a fetch names (R186, R784). No instruction word stands there: CDn_CL_EXC.INSN takes a free value.
[DEDUCED, notes/assumptions/84.md] -/
def State.raiseFetch (s : State) (cl : ClusterId) (target : Nat) : State :=
  (s.tick).raise cl (s.freeNat 0 % 2 ^ 32) excFetch target

/-- Retire: PC takes its new value and the instruction is counted; a target outside the image, or not a multiple of 4, raises
FETCH at fetch (R186, R784). CDn_CL_STATUS.PC shows the low 32 bits of the target. -/
def State.retire (s : State) (cl : ClusterId) (target : Nat) : State :=
  let s1 := (s.endQueueWait cl).wr (F.CL_STATUS_PC cl.die cl.idx) (target % 2 ^ 32)
  let s2 := s1.wr (F.CL_RETIRED_COUNT cl.die cl.idx) (s1.rd (F.CL_RETIRED_COUNT cl.die cl.idx) + 1)
  let c := s2.cluster cl
  let s2 := s2.setCluster cl { c with icount := c.icount + 1 }
  if (target % 4 = 0 && target < c.code.length) || s2.run cl ≠ 1 then s2 else s2.raiseFetch cl target

/-- May the sequencer issue: RUNNING, and not held by a checkpoint halt or a rotation (R120, R702)?
[DESIGN CHOICE, notes/assumptions/6.md] [DESIGN CHOICE, notes/assumptions/7.md] -/
def State.canIssue (s : State) (cl : ClusterId) : Bool :=
  s.run cl == 1 && !(s.cluster cl).held && !s.rotHeld cl

/-- The 32-bit word at PC in the cluster's image (R172, R180); none where PC names no instruction of it. -/
def State.fetched (s : State) (cl : ClusterId) : Option Nat :=
  let pc := s.pc cl
  let code := (s.cluster cl).code
  if pc % 4 = 0 && pc + 4 ≤ code.length then some (ofLe ((code.drop pc).take 4)) else none

/-- Is `word` the instruction that the sequencer issues next? -/
def State.issues (s : State) (cl : ClusterId) (word : Nat) : Bool := s.canIssue cl && s.fetched cl == some word

/-- Is `i` the instruction that the sequencer issues next: may it issue, and does the word of `i` stand at PC? -/
def State.ready (s : State) (cl : ClusterId) (i : Instr) : Bool := s.canIssue cl && (insnWord i).isSome && s.fetched cl == insnWord i

/-- Issue the instruction `word` of cluster `cl`, whose effect is `body`. The sequencer fetches the word at PC: where none
stands there it raises FETCH, and where its opcode is illegal, ILLEGAL (R181, R182, R186, R250, R784). The command is the issue
of the word that stands there; a cluster that may not issue, or that fetched another word, leaves everything as it is.
[DESIGN CHOICE, notes/assumptions/6.md] -/
def State.issue (s : State) (cl : ClusterId) (word : Nat) (body : ClusterSt → Issue) : Res :=
  if s.canIssue cl then
    match s.fetched cl with
    | none => ok (s.raiseFetch cl (s.pc cl))
    | some w =>
      if (insnOf cl w).isNone then ok (s.raise cl w 16 0)
      else if w ≠ word then ok s
      else
        match body (s.cluster cl) with
        | .exc cause addr => ok (s.raise cl word cause addr)
        | .wait s' => ok s'
        | .ret s' => ok (s'.retire cl (s.pc cl + 4))
        | .jump s' t => ok (s'.retire cl t)
  else ok s

/-- Retire with one S register written. -/
def State.retS (s : State) (cl : ClusterId) (rd : BitVec 5) (v : Word) : Issue :=
  .ret (s.setCluster cl ((s.cluster cl).setS rd v))

/-- Wait at issue for a full queue (R176): KIND 5, and the queue's code. -/
def State.waitQueue (s : State) (cl : ClusterId) (q : Nat) : Issue := .wait (s.showWait cl 5 q 0)

/-! The tile store (R87, R88, R179, R286). -/

/-- Bytes of the tile store. -/
def tileSize : Nat := 0x180000

/-- A tile-store byte; never written, it is zero (R173). -/
def ClusterSt.tbyte (c : ClusterSt) (a : Nat) : Byte := sget (fun _ => 0) c.tile a
/-- `n` tile-store bytes. -/
def ClusterSt.tbytes (c : ClusterSt) (a n : Nat) : List Byte := (List.range n).map (fun i => c.tbyte (a + i))
/-- A little-endian number in the tile store. -/
def ClusterSt.tnat (c : ClusterSt) (a n : Nat) : Nat := ofLe (c.tbytes a n)
/-- Write tile-store bytes. -/
def ClusterSt.setT (c : ClusterSt) (a : Nat) : List Byte → ClusterSt
  | [] => c
  | b :: bs => ({ c with tile := sset (fun _ => 0) c.tile a b }).setT (a + 1) bs

/-- Do two byte ranges meet in a 64-byte line (R179)? -/
def lineOverlap (a n b m : Nat) : Bool :=
  decide (0 < n) && decide (0 < m) && decide (a / 64 ≤ (b + m - 1) / 64) && decide (b / 64 ≤ (a + n - 1) / 64)

/-- Bytes of an operand record of a format (R92). -/
def recBytes (fmt : Nat) (isB : Bool) : Nat :=
  match fmt, isB with
  | 2, false => 2112 | 3, false => 2112 | 4, false => 1600 | 5, false => 1600 | 6, false => 1088 | 1, false => 4096
  | 2, true => 4224 | 3, true => 4224 | 4, true => 3200 | 5, true => 3200 | 6, true => 2176 | 1, true => 8192
  | _, _ => 0

/-- Bytes of a drained row-blocked or column-blocked copy of a target format (R199). -/
def drainBytes (fmt : Nat) : Nat :=
  match fmt with
  | 0 => 32768 | 1 => 16384 | 6 => 4352 | 4 => 6400 | 5 => 6400 | _ => 8448

/-- The target of a cast (R139, R141, R198, R272): format code, twin, and kind, EDGE and DARK_INDEX of its descriptor. -/
structure CastTarget where
  fmt : Nat
  twin : Bool
  byDesc : Bool
  kind : Nat
  seed : Bool
  tensor : Nat
  dark : Nat
  deriving DecidableEq, Repr

/-- The target that a cast names; none where DESC lies beyond the tensor table (R200, R273). -/
def State.castTarget (s : State) (j : Nat) (explicit : Bool) (descOrFmt : Nat) : Option CastTarget :=
  if explicit then some ⟨descOrFmt % 16, false, false, 0, false, 0, 0⟩
  else
    match (s.slot j).prog.bind (fun p => p.tensors[descOrFmt]?) with
    | none => none
    | some d =>
      let d := d.toNat
      let kind := bits d 43 41
      let w := (s.reg (Reg.NUM_RECIPE (s.rd (F.NUM_JOB_CFG_RECIPE_SET j)) kind)).toNat
      let fmt := if bit d 40 then bits w 59 56 else bits w 63 60
      some ⟨fmt, bit d 39, true, kind, bit d 38, bits d 63 44, bits d 15 0⟩

/-- The tile-store ranges that a waiting MDRN will write: (start, bytes). -/
def State.drainRanges (s : State) (j : Nat) (r : ReadEnt) : List (Nat × Nat) :=
  if r.kind = 0 then
    match s.castTarget j r.x (if r.x then bits r.b.toNat 3 0 else bits r.b.toNat 15 0) with
    | none => []
    | some t =>
      let n := drainBytes t.fmt
      (bits r.a.toNat 20 0, n) :: (if t.twin then [(bits r.a.toNat 52 32, n)] else [])
  else []

/-- Bytes per block of 32 elements of an MX format (R271). -/
def blockBytes (fmt : Nat) : Nat := match fmt with | 6 => 16 | 4 => 24 | 5 => 24 | _ => 32

/-- The tile-store ranges that a waiting VCVT will write. -/
def State.castRanges (s : State) (j : Nat) (q : CastJob) : List (Nat × Nat) :=
  match s.castTarget j q.explicit q.desc with
  | none => []
  | some t =>
    if t.fmt = 1 then [(q.eaddr, 2 * q.vals.length)]
    else [(q.eaddr, q.vals.length / 32 * blockBytes t.fmt), (q.saddr, q.vals.length / 32)]

/-- The panel bytes that a deferred product has not yet read (R286). -/
def panelRanges (e : ArrEnt) : List (Nat × Nat) :=
  let a := recBytes e.cfg.fmtA false
  let b := recBytes e.cfg.fmtB true
  [(e.aBase + a * e.done, a * (e.ksteps - e.done)), (e.bBase + b * e.done, b * (e.ksteps - e.done))]

/-- Must a local access to [a, a + n) wait (R179, R286): for a drain or cast before it that still writes there, or, for a
write, for a deferred product before it that still reads there? -/
def State.interlocked (s : State) (cl : ClusterId) (a n : Nat) (write : Bool) : Bool :=
  let c := s.cluster cl
  match s.slotOfCl cl with
  | none => false
  | some j =>
    (c.readQ.any (fun r => (s.drainRanges j r).any (fun p => lineOverlap a n p.1 p.2)))
    || (c.castQ.any (fun q => (s.castRanges j q).any (fun p => lineOverlap a n p.1 p.2)))
    || (write && c.wgq.any (fun e => (panelRanges e).any (fun p => lineOverlap a n p.1 p.2)))

end Sys2Proof.Machine
end

