-- ==== Sys2Proof/Machine/CastUnit.lean ====
section
/-!
DEFINITION. The cast unit (R128 to R139): what a cast writes to the tile store, what it counts (R133, R161), the flags it
sets by step (R134, R135, R783), and the casts that wait for a resolve lap (R145).
-/

namespace Sys2Proof.Machine

/-- Codes of `w` bits, packed little-endian (R126). -/
def packCodes (w : Nat) (cs : List Nat) : List Byte :=
  let v := cs.foldr (fun c a => (c % 2 ^ w) + (a <<< w)) 0
  leBytes ((w * cs.length + 7) / 8) v

/-- Is the program step the even bank's (R783)? -/
def evenStep (pstep : Nat) : Bool := pstep % 2 == 0

/-- NUM_FLAGS shows the bank of the step in progress (R783). -/
def State.showFlags (s : State) (j : Nat) : State :=
  let sl := s.slot j
  let ev := evenStep (s.step j)
  (s.wrB (F.NUM_FLAGS_OVF j) (if ev then sl.ovfEven else sl.ovfOdd)).wrB (F.NUM_FLAGS_NF j)
    (if ev then sl.nfEven else sl.nfOdd)

/-- CDn_CL_STATUS.NF shows the bank of the step in progress (R104, R783). -/
def State.showNf (s : State) (cl : ClusterId) (j : Nat) : State :=
  let c := s.cluster cl
  s.wrB (F.CL_STATUS_NF cl.die cl.idx) (if evenStep (s.step j) then c.nfEven else c.nfOdd)

/-- RANGE elements in a bank. -/
def SlotSt.range (sl : SlotSt) (ev : Bool) : Nat := if ev then sl.rangeEven else sl.rangeOdd

/-- A RANGE saturation of a gradient sets OVF for its step, and the first of the step writes CAST_RANGE (R134).
[DEDUCED, notes/assumptions/83.md] -/
def State.castRange (s : State) (j pstep tensor kindLess2 n : Nat) : State :=
  if n = 0 then s
  else
    let ev := evenStep pstep
    let sl := s.slot j
    let first := sl.range ev == 0
    let sl1 := if ev then { sl with ovfEven := true, rangeEven := sl.rangeEven + n }
      else { sl with ovfOdd := true, rangeOdd := sl.rangeOdd + n }
    let s1 := (s.setSlot j sl1).showFlags j
    if first then
      s1.emit ⟨1, 0x0905, srcModule 0, s.jobOf j,
        place 19 0 tensor ||| place 21 20 kindLess2 ||| place 53 22 (satTo 32 n)⟩
    else s1

/-- A cast that writes a non-finite value sets NF for its step, and the first of the step writes NONFINITE_CAST (R134,
R135). An explicit cast names no tensor: the record's tensor and kind are free values then.
[DESIGN CHOICE, notes/assumptions/17.md] [DEDUCED, notes/assumptions/83.md] -/
def State.castNf (s : State) (cl : ClusterId) (j pstep : Nat) (t : CastTarget) (scaleNan : Bool) : State :=
  let ev := evenStep pstep
  let sl := s.slot j
  let first := !(if ev then sl.nfEven else sl.nfOdd)
  let sl1 := if ev then { sl with nfEven := true } else { sl with nfOdd := true }
  let s1 := (s.setSlot j sl1).showFlags j
  if first then
    let tensor := if t.byDesc then t.tensor else s.freeNat 20
    let kind := if t.byDesc then t.kind else s.freeNat 21
    s1.emit ⟨1, 0x0908, srcOf cl.die cl.idx, s.jobOf j, place 19 0 tensor ||| place 22 20 kind ||| place 23 23 (b2n scaleNan)⟩
  else s1

/-- Physical address of a dark-tensor table entry (R162). -/
def State.darkAddr (s : State) (j idx : Nat) : Nat := s.rd (F.NUM_DARK_BASE_BASE j) * 32 + 32 * idx

/-- Add a cast's counts to the bank of its step in the tensor's table entry (R161, R166), each saturating. Software zeroes
the table (R163), so the module names the entry's tensor and kind (0 G, 1 WG) as it counts (R162; DEDUCED, notes/assumptions/95.md). -/
def State.darkCount (s : State) (j pstep idx tensor kind nz total : Nat) : State :=
  let e := s.darkAddr j idx
  let a := e + 8 + (if evenStep pstep then 4 else 0)
  let s0 := s.writeNat (e + 4) 4 (place 31 12 tensor ||| place 11 11 kind)
  let s1 := s0.writeNat a 4 (satTo 32 (s.unitNat a 4 + nz))
  s1.writeNat (a + 8) 4 (satTo 32 (s.unitNat (a + 8) 4 + total))

/-- What a whole cast reports: NUM_CNT_CAST, the step's flags, and the monitor's counts of a G tensor, which for a twin
cast are those of the row-blocked copy (R133, R134, R161).
[DESIGN CHOICE, notes/assumptions/17.md] -/
def State.castReport (s : State) (cl : ClusterId) (j pstep : Nat) (t : CastTarget) (all row : CastStat) : State :=
  let s1 := (s.add (F.NUM_CNT_CAST_SAT j) all.sat).add (F.NUM_CNT_CAST_RANGE j) all.range
  let s2 := if t.byDesc && t.kind == 2 then s1.castRange j pstep t.tensor 0 all.range else s1
  let s3 := if all.nonfinite then s2.castNf cl j pstep t all.scaleNan else s2
  if t.byDesc && t.kind == 2 then s3.darkCount j pstep t.dark t.tensor 0 row.nz row.total else s3

/-- The multiplier exponent of a cast (R145): a SEED cast carries LS + PCM_G in force now, every other cast none. -/
def State.castMult (s : State) (j : Nat) (t : CastTarget) : Int :=
  if t.byDesc && t.seed then s.rdInt (F.NUM_SCALE_LS j) + (s.rd (F.NUM_SCALE_PCM_G j) : Int) else 0

/-- Must a cast wait in the cast unit: a SEED cast of a program step later than the step in progress (R145)? -/
def State.castWaits (s : State) (j pstep : Nat) (t : CastTarget) : Bool := t.byDesc && t.seed && decide (s.step j < pstep)

/-- Cast blocks to an MX format: the codes of every block, the scale bytes, and the report. -/
def castBlocks (fmt : Nat) (g : Int) (bs : List (List Fp)) : List (List Nat) × List Nat × CastStat :=
  let rs := bs.map (castBlock fmt g)
  (rs.map (·.2.1), rs.map (·.1), rs.foldl (fun a r => a.add r.2.2) CastStat.none)

/-- The record bytes of `rows` blocks of 32 elements: normal order, or transposed element order (R93, R198), then the
scale bytes. -/
def recordBytes (w : Nat) (trans : Bool) (codes : List (List Nat)) (scales : List Nat) : List Byte :=
  let flat := if trans then (List.range 32).flatMap (fun k => codes.map (fun r => r.getD k 0)) else codes.flatten
  packCodes w flat ++ scales.map (fun x => BitVec.ofNat 8 x)

/-- Element (row, col) of a 64 × 128 tile. -/
def tileAt (vals : Sparse (BitVec 32)) (row col : Nat) : Fp := fp32 (sget (fun _ => 0) vals (128 * row + col))

/-- The bytes and the report of the row-blocked or only copy of a drained tile (R199). -/
def drainRow (vals : Sparse (BitVec 32)) (fmt : Nat) (g : Int) (trans : Bool) : List Byte × CastStat :=
  if fmt = 0 then
    let rs := (List.range 8192).map (fun e => castFp32 (fp32 (sget (fun _ => 0) vals e)))
    (rs.flatMap (fun r => leBytes 4 r.1), rs.foldl (fun a r => a.add r.2) CastStat.none)
  else
    let recs := (List.range 4).map (fun b =>
      let rows := (List.range 64).map (fun i => (List.range 32).map (fun k => tileAt vals i (32 * b + k)))
      if fmt = 1 then
        let cs := rows.map (fun r => r.map (castBf16 g))
        (recordBytes 16 trans (cs.map (fun r => r.map (·.1))) [],
          cs.foldl (fun a r => r.foldl (fun a x => a.add x.2) a) CastStat.none)
      else
        let q := castBlocks fmt g rows
        (recordBytes (formatOf fmt).width trans q.1 q.2.1, q.2.2))
    (recs.flatMap (·.1), recs.foldl (fun a r => a.add r.2) CastStat.none)

/-- The bytes and the report of the column-blocked copy of a twin cast (R136, R199). -/
def drainCol (vals : Sparse (BitVec 32)) (fmt : Nat) (g : Int) (trans : Bool) : List Byte × CastStat :=
  let recs := (List.range 2).map (fun b =>
    let cols := (List.range 128).map (fun c => (List.range 32).map (fun k => tileAt vals (32 * b + k) c))
    let q := castBlocks fmt g cols
    (recordBytes (formatOf fmt).width trans q.1 q.2.1, q.2.2))
  (recs.flatMap (·.1), recs.foldl (fun a r => a.add r.2) CastStat.none)

/-- Drain a tile by target `t`: the copies go to the tile store, and the cast is reported (R198, R199). -/
def State.drainTile (s : State) (cl : ClusterId) (j : Nat) (r : ReadEnt) (t : CastTarget) (vals : Sparse (BitVec 32)) : State :=
  let g := s.castMult j t
  let row := drainRow vals t.fmt g r.t
  let c1 := (s.cluster cl).setT (bits r.a.toNat 20 0) row.1
  if t.twin then
    let col := drainCol vals t.fmt g r.t
    let c2 := c1.setT (bits r.a.toNat 52 32) col.1
    (s.setCluster cl c2).castReport cl j r.pstep t (row.2.add col.2) row.2
  else (s.setCluster cl c1).castReport cl j r.pstep t row.2 row.2

/-- Lists cut into blocks of 32. -/
def blocks32 : Nat → List Fp → List (List Fp)
  | 0, _ => []
  | n + 1, vs => vs.take 32 :: blocks32 n (vs.drop 32)

/-- Perform a VCVT (R270 to R272). -/
def State.castVec (s : State) (cl : ClusterId) (j : Nat) (q : CastJob) : State :=
  match s.castTarget j q.explicit q.desc with
  | none => s
  | some t =>
    let g := s.castMult j t
    let vs := q.vals.map (decodeElem q.srcCode)
    if t.fmt = 1 then
      let cs := vs.map (castBf16 g)
      let st := cs.foldl (fun a x => a.add x.2) CastStat.none
      (s.setCluster cl ((s.cluster cl).setT q.eaddr (cs.flatMap (fun x => leBytes 2 x.1)))).castReport cl j q.pstep t st st
    else
      let b := castBlocks t.fmt g (blocks32 (vs.length / 32) vs)
      let c1 := (s.cluster cl).setT q.eaddr (b.1.flatMap (packCodes (formatOf t.fmt).width))
      let c2 := c1.setT q.saddr (b.2.1.map (fun x => BitVec.ofNat 8 x))
      (s.setCluster cl c2).castReport cl j q.pstep t b.2.2 b.2.2

/-- May the head of the cast queue proceed: no drain before it waits, and no resolve lap (R145, R179)? -/
def State.castReady (s : State) (cl : ClusterId) (j : Nat) (q : CastJob) : Bool :=
  !((s.cluster cl).readQ.any (fun r => r.kind == 0 && decide (r.ord < q.ord)))
    && (match s.castTarget j q.explicit q.desc with | some t => !s.castWaits j q.pstep t | none => true)

/-- Perform the casts at the head of the cast queue that may proceed, in order. -/
def State.runCasts (s : State) (cl : ClusterId) (j : Nat) : List CastJob → State
  | [] => s
  | q :: qs =>
    if s.castReady cl j q then
      let s1 := s.castVec cl j q
      (s1.setCluster cl { s1.cluster cl with castQ := qs }).runCasts cl j qs
    else s

/-! The vector queue (R278). -/

/-- A vector instruction leaves the queue: CDn_CL_VSTATUS shows its VL and VTYPE, and CDn_CL_VCNT counts it. Bank waits are
timing: BANKWAIT takes a free count for loads and stores.
[DESIGN CHOICE, notes/assumptions/12.md] -/
def State.vleave (s : State) (cl : ClusterId) (v : VEnt) : State :=
  let s1 := ((s.wr (F.CL_VSTATUS_VL cl.die cl.idx) v.vl).wr (F.CL_VSTATUS_SEW cl.die cl.idx) (v.vtype % 4)).wr
    (F.CL_VSTATUS_KIND cl.die cl.idx) (v.vtype / 4)
  let s2 := s1.inc (F.CL_VCNT_ISSUED cl.die cl.idx)
  if v.loadStore then (s2.tick).add (F.CL_VCNT_BANKWAIT cl.die cl.idx) (s2.freeNat 0) else s2

/-- Does a vector instruction that issues now wait in the queue: an earlier one waits there, or it is a cast and the cast unit
still holds one (R178, R278)? Every other one leaves as it enters.
[DESIGN CHOICE, notes/assumptions/12.md] -/
def ClusterSt.vqueued (c : ClusterSt) (cast : Bool) : Bool := !c.vq.isEmpty || (cast && !c.castQ.isEmpty)

/-- The instructions at the head of the vector queue leave it in order, up to a cast that finds the cast unit occupied.
[DESIGN CHOICE, notes/assumptions/12.md] -/
def State.vadvance (s : State) (cl : ClusterId) : List VEnt → State
  | [] => s.putCl cl { s.cluster cl with vq := [] }
  | v :: vs =>
    if v.cast && decide (((v :: vs).filter (·.cast)).length < (s.cluster cl).castQ.length) then
      s.putCl cl { s.cluster cl with vq := v :: vs }
    else (s.vleave cl v).vadvance cl vs

/-- The casts that may proceed do, and the vector queue moves on behind them. -/
def State.castRun (s : State) (cl : ClusterId) (j : Nat) : State :=
  let s1 := s.runCasts cl j (s.cluster cl).castQ
  s1.vadvance cl (s1.cluster cl).vq

/-- SEED_CAST_RELEASE: at the resolve lap the waiting casts proceed, with the exponents in force from then (R145). -/
def execSeedCastRelease (cl : ClusterId) (s : State) : Res :=
  match s.slotOfCl cl with
  | some j => ok (s.castRun cl j)
  | none => ok s

end Sys2Proof.Machine
end

