-- ==== Sys2Proof/Machine/Matrix.lean ====
section
/-!
DEFINITION. The matrix array, the accumulator buffer and the queues in front of them: MCFG to RPUSH (R189 to R203), one
K-step (R86, R97 to R100), a merge (R101 to R106), the readouts (R109 to R112), the WGQ (R282 to R288) and tied weights
(R318 to R321).
-/

namespace Sys2Proof.Machine

/-- The seed of slot j's job, as adopted when the slot entered RUNNING (R152). -/
def State.seed (s : State) (j : Nat) : Nat := (s.slot j).seed

/-- The accumulator slot k. -/
def ClusterSt.aslot (c : ClusterSt) (k : Nat) : AccSlot := sget (fun _ => (⟨[], 0, 0⟩ : AccSlot)) c.slots k
/-- Set it. -/
def ClusterSt.setA (c : ClusterSt) (k : Nat) (v : AccSlot) : ClusterSt :=
  { c with slots := sset (fun _ => (⟨[], 0, 0⟩ : AccSlot)) c.slots k v }

/-! Configuration and operands. -/

/-- The format family of R84 and R85; 0 where a format has none. -/
def family (fmt : Nat) : Nat := match fmt with | 1 => 1 | 2 => 2 | 3 => 2 | 4 => 3 | 5 => 3 | 6 => 4 | _ => 0

/-- An MCFG behind products in the array queue (R178). -/
def mcfgEnt (g : MCfg) (ord pstep : Nat) : ArrEnt := ⟨16, 0, 0, false, g, ord, pstep, 0, 0, false, false, 0⟩

/-- The MCFGs that the array has reached leave its queue. -/
def passMcfg (q : List ArrEnt) : List ArrEnt := q.dropWhile (fun e => e.ksteps == 0)

/-- MCFG (R189, R190). It stands in the array queue behind earlier products, and waits at issue while that is full (R176, R178).
[DEDUCED, notes/assumptions/15.md] -/
def execMcfg (cl : ClusterId) (f : Fmt5) (s : State) : Res :=
  s.issue cl (word5 0x30 f) fun c =>
    let a := c.sn f.f19
    let b := c.sn f.f14
    let fa := bits a 63 60
    let fb := bits a 59 56
    let ch := bits a 55 48
    if f.f24 ≠ 0 || f.f9 ≠ 0 || f.f4 ≠ 0 || bits a 47 0 ≠ 0 || bits b 43 32 ≠ 0 then excIllegal
    else if family fa = 0 || family fa ≠ family fb || ch = 0 || 128 < ch || c.openSlot.isSome then .exc 21 0
    else if 8 ≤ c.arrQ.length then s.waitQueue cl 1
    else
      let g : MCfg := ⟨fa, fb, ch, bits b 63 44, bits b 31 0⟩
      .ret (s.setCluster cl { c with cfg := some g, arrQ := passMcfg (c.arrQ ++ [mcfgEnt g c.icount c.pstep]) })

/-- Move load-queue entries into free operand buffers, in order (R86, R191). -/
def fillBufs (c : ClusterSt) : List OpRec → ClusterSt
  | [] => { c with loadQ := [] }
  | r :: rs =>
    if r.isB then
      if c.bBuf.length < 2 then fillBufs { c with bBuf := c.bBuf ++ [r] } rs else { c with loadQ := r :: rs }
    else if c.aBuf.length < 2 then fillBufs { c with aBuf := c.aBuf ++ [r] } rs
    else { c with loadQ := r :: rs }

/-- MLDA and MLDB. The record is read in program order (R179): its bytes are taken when the load issues. -/
def loadRecord (cl : ClusterId) (opc : Nat) (isB : Bool) (f : Fmt5) (s : State) : Res :=
  s.issue cl (word5 opc f) fun c =>
    let a := c.sn f.f19
    if f.f24 ≠ 0 || f.f14 ≠ 0 || f.f9 ≠ 0 || 2 ≤ f.f4.toNat then excIllegal
    else
      match c.cfg with
      | none => .exc 21 0
      | some g =>
        let fmt := if isB then g.fmtB else g.fmtA
        let n := recBytes fmt isB
        if a % 64 ≠ 0 then .exc 19 a
        else if tileSize < a + n then .exc 18 (max a tileSize)
        else if s.interlocked cl a n false then .wait s
        else if 8 ≤ c.loadQ.length then s.waitQueue cl 0
        else
          let r : OpRec := ⟨isB, fmt, bit f.f4.toNat 0, c.tbytes a n, c.icount⟩
          .ret (s.setCluster cl (fillBufs c (c.loadQ ++ [r])))

/-- MLDA. -/
def execMlda (cl : ClusterId) (f : Fmt5) (s : State) : Res := loadRecord cl 0x31 false f s
/-- MLDB. -/
def execMldb (cl : ClusterId) (f : Fmt5) (s : State) : Res := loadRecord cl 0x32 true f s

/-! MMA and MACC (R192 to R197). -/

/-- Does the WGQ hold an entry that targets slot k? -/
def ClusterSt.wgqHas (c : ClusterSt) (k : Nat) : Bool := c.wgq.any (fun e => e.slot == k)

/-- The first panel that reaches the end of the tile store, as ADDR gives it. -/
def panelOver (g : MCfg) (ks a b : Nat) : Option Nat :=
  if tileSize < a + ks * recBytes g.fmtA false then some (max a tileSize)
  else if tileSize < b + ks * recBytes g.fmtB true then some (max b tileSize)
  else none

/-- A product into the array queue. -/
def issueProduct (cl : ClusterId) (opc : Nat) (ends : Bool) (f : Fmt5) (s : State) : Res :=
  s.issue cl (word5 opc f) fun c =>
    let k := f.f24.toNat % 16
    let ks := c.sn f.f19
    let fl := f.f4.toNat
    if 16 ≤ f.f24.toNat || 8 ≤ fl || (!ends && fl ≠ 0) then excIllegal
    else if ends && bit fl 0 then
      let a := c.sn f.f14
      let b := c.sn f.f9
      if ks = 0 || 65535 < ks then excIllegal
      else
        match c.cfg with
        | none => .exc 21 0
        | some g =>
          if a % 64 ≠ 0 then .exc 19 a
          else if b % 64 ≠ 0 then .exc 19 b
          else
            match panelOver g ks a b with
            | some x => .exc 18 x
            | none =>
              if s.slotCode cl k = 3 || (c.openSlot.isSome && c.openSlot ≠ some k) then .exc 20 k
              else if 64 ≤ c.wgq.length then s.waitQueue cl 2
              else
                .ret (s.putCl cl { c with wgq := c.wgq ++
                  [⟨k, ks, 0, true, g, c.icount, c.pstep, a, b, bit fl 1, bit fl 2, 1⟩] })
    else if f.f14 ≠ 0 || f.f9 ≠ 0 || fl ≠ 0 || ks = 0 || 65535 < ks then excIllegal
    else
      match c.cfg with
      | none => .exc 21 0
      | some g =>
        if s.slotCode cl k = 3 || (c.openSlot.isSome && c.openSlot ≠ some k) || c.wgqHas k then .exc 20 k
        else if 8 ≤ c.arrQ.length then s.waitQueue cl 1
        else
          .ret (s.setCluster cl { c with
            arrQ := c.arrQ ++ [⟨k, ks, 0, ends, g, c.icount, c.pstep, 0, 0, false, false, 0⟩]
            openSlot := if ends then none else some k })

/-- MMA, deferred when D is set.
[DEDUCED, notes/assumptions/15.md] -/
def execMma (cl : ClusterId) (f : Fmt5) (s : State) : Res := issueProduct cl 0x33 true f s
/-- MACC. -/
def execMacc (cl : ClusterId) (f : Fmt5) (s : State) : Res := issueProduct cl 0x34 false f s

/-! Readouts (R198 to R203). -/

/-- Is work on slot k, issued before position `ord`, still to merge (R110, R197)? -/
def ClusterSt.mergePending (c : ClusterSt) (k ord : Nat) : Bool :=
  c.arrQ.any (fun e => e.slot == k && decide (e.ord < ord)) || c.wgq.any (fun e => e.slot == k && decide (e.ord < ord))
    || (match c.chunk with | some x => x.slot == k && decide (x.ord < ord) | none => false)
    || (match c.latch with | some x => x.slot == k && decide (x.ord < ord) | none => false)

/-- The head of the readout queue takes its slot once no earlier merge is due: the slot reads READOUT (R107, R110). -/
def State.startReadout (s : State) (cl : ClusterId) : State :=
  let c := s.cluster cl
  match c.readQ with
  | [] => s
  | r :: _ => if c.mergePending r.slot r.ord || s.slotCode cl r.slot = 3 then s else s.setSlotCode cl r.slot 2

/-- Enter the readout queue of 8. -/
def State.enterReadout (s : State) (cl : ClusterId) (c : ClusterSt) (r : ReadEnt) : Issue :=
  if 8 ≤ c.readQ.length then s.waitQueue cl 3
  else .ret ((s.setCluster cl { c with readQ := c.readQ ++ [r] }).startReadout cl)

/-- Is slot k a TIE slot, or the slot of an open accumulation (R111, R194)? -/
def State.slotBarred (s : State) (cl : ClusterId) (c : ClusterSt) (k : Nat) : Bool :=
  s.slotCode cl k == 3 || c.openSlot == some k

/-- MDRN (R198 to R200). The order of its checks is that of R784. [DEDUCED, notes/assumptions/15.md]
With an explicit FMT there is no descriptor index: ADDR of a DESC exception holds S[RS2][15:0] all the same (R200, R233).
[DESIGN CHOICE, notes/assumptions/17.md] -/
def execMdrn (cl : ClusterId) (f : Fmt5) (s : State) : Res :=
  s.issue cl (word5 0x35 f) fun c =>
    let k := f.f24.toNat % 16
    let fl := f.f4.toNat
    let a := c.sn f.f19
    let b := c.sn f.f14
    let j := (s.slotOfCl cl).getD 0
    let x := bit fl 1
    if 16 ≤ f.f24.toNat || f.f9 ≠ 0 || 8 ≤ fl then excIllegal
    else
      match s.castTarget j x (if x then bits b 3 0 else bits b 15 0) with
      | none => .exc 22 (bits b 15 0)
      | some t =>
        let row := bits a 20 0
        let col := bits a 52 32
        let n := drainBytes t.fmt
        if 7 ≤ t.fmt || (t.twin && t.fmt ≤ 1) then .exc 22 (bits b 15 0)
        else if row % 64 ≠ 0 then .exc 19 row
        else if t.twin && col % 64 ≠ 0 then .exc 19 col
        else if tileSize < row + n then .exc 18 (max row tileSize)
        else if t.twin && tileSize < col + n then .exc 18 (max col tileSize)
        else if s.slotBarred cl c k then .exc 20 k
        else s.enterReadout cl c ⟨0, k, bit fl 0, c.sreg f.f19, c.sreg f.f14, x, bit fl 2, c.icount, c.pstep, false, 0⟩

/-- The declared group of an MTIE and its use number, where the job declares them. -/
def State.tieGroup (s : State) (j g use : Nat) : Option TieGroup :=
  match (s.slot j).prog with
  | none => none
  | some p => p.ties.find? (fun x => x.group == g && decide (use < x.uses))

/-- MTIE (R197, R201, R202). -/
def execMtie (cl : ClusterId) (f : Fmt5) (s : State) : Res :=
  s.issue cl (word5 0x36 f) fun c =>
    let k := f.f24.toNat % 16
    let a := c.sn f.f19
    let j := (s.slotOfCl cl).getD 0
    if 16 ≤ f.f24.toNat || f.f14 ≠ 0 || f.f9 ≠ 0 || 2 ≤ f.f4.toNat then excIllegal
    else if c.openSlot = some k || c.wgqHas k then .exc 20 k
    else if (s.tieGroup j (bits a 2 0) (bits a 13 8)).isNone then .exc 26 a
    else s.enterReadout cl c ⟨1, k, bit f.f4.toNat 0, c.sreg f.f19, 0, false, false, c.icount, c.pstep, false, 0⟩

/-- RPUSH (R203). -/
def execRpush (cl : ClusterId) (f : Fmt5) (s : State) : Res :=
  s.issue cl (word5 0x37 f) fun c =>
    let k := f.f24.toNat % 16
    if 16 ≤ f.f24.toNat || f.f14 ≠ 0 || f.f9 ≠ 0 || 2 ≤ f.f4.toNat then excIllegal
    else if s.slotBarred cl c k then .exc 20 k
    else s.enterReadout cl c ⟨2, k, bit f.f4.toNat 0, c.sreg f.f19, 0, false, false, c.icount, c.pstep, false, 0⟩

/-! One K-step (R86, R97 to R100, R103). -/

/-- Operand element (r, k) of a record: r is its row or column. -/
def OpRec.elem (o : OpRec) (v r k : Nat) : Fp :=
  let w := (formatOf o.fmt).width
  let n := if o.isB then 128 else 64
  let i := if o.trans then k * n + r else 32 * r + k
  decodeElem o.fmt ((v >>> (w * i)) % 2 ^ w)

/-- Block-scale exponent of row or column r; none where the scale is NaN. BF16 has no scales. -/
def OpRec.scale (o : OpRec) (r : Nat) : Option Int :=
  if o.fmt = 1 then some 0
  else
    let n := if o.isB then 128 else 64
    let x := ((o.bytes[n * 32 * (formatOf o.fmt).width / 8 + r]?).getD 0).toNat
    if x = 255 then none else some ((x : Int) - 127)

/-- The exact K-step sum of one element (R97, R103). -/
def kSum (as bs : List Fp) (xa xb : Option Int) : Fp :=
  match xa, xb with
  | some x, some y => fpScale ((as.zip bs).foldl (fun t p => fpAdd t (fpMul p.1 p.2)) (.fin false 0 0)) (x + y)
  | _, _ => .nan

/-- C ← RNE52(C + S) (R98, R103). -/
def chunkAdd (c sum : Fp) : Fp :=
  match fpAdd c sum with
  | .fin a m e => rne52 a m e
  | v => v

/-- The chunk accumulators after one K-step. -/
def kStepAcc (acc : Sparse Fp) (a b : OpRec) : Sparse Fp :=
  let va := ofLe a.bytes
  let vb := ofLe b.bytes
  let rows := (List.range 64).map (fun i => ((List.range 32).map (a.elem va i), a.scale i))
  let cols := (List.range 128).map (fun j => ((List.range 32).map (b.elem vb j), b.scale j))
  (((rows.flatMap (fun r => cols.map (fun c => kSum r.1 c.1 r.2 c.2))).zipIdx).map
    (fun p => (p.2, chunkAdd (sget (fun _ => .fin false 0 0) acc p.2) p.1))).filter (fun p => p.2 ≠ .fin false 0 0)

/-- Array cycles of a K-step (R84). -/
def kCycles (fmt : Nat) : Nat := match fmt with | 1 => 128 | 6 => 16 | _ => 32

/-- The chunk has taken its last K-step: its values go to the merge latches if these are free; else the array waits (R105). -/
def endChunk (c : ClusterSt) : ClusterSt :=
  match c.latch with
  | none => { c with latch := c.chunk, latchVals := c.acc, acc := [], chunkK := 0, chunk := none, chunkEnded := false }
  | some _ => { c with chunkEnded := true }

/-- A K-step of entry `e` on records a and b: the accumulators, the chunk and its end (R193). A chunk that several
instructions feed is keyed by the step, tensor and tile of the last of them (R101).
[DESIGN CHOICE, notes/assumptions/100.md] -/
def kStepCl (c : ClusterSt) (e : ArrEnt) (a b : OpRec) : ClusterSt :=
  let c1 := { c with acc := kStepAcc c.acc a b, chunkK := c.chunkK + 1, chunk := some ⟨e.slot, e.cfg, e.pstep, e.ord⟩ }
  if c.chunkK + 1 = e.cfg.chunk || (e.ends && e.done + 1 = e.ksteps) then endChunk c1 else c1

/-- The operand that a product configured for format `fmt` reads out of a buffered record (R85, R189): both operands of a
product have the formats of its own configuration. A record loaded under another configuration is read in the product's
format if the two lay records out alike; else its bytes are free values.
[DESIGN CHOICE, notes/assumptions/101.md] -/
def State.operand (s : State) (fmt : Nat) (o : OpRec) : OpRec :=
  let n := recBytes fmt o.isB
  if recBytes o.fmt o.isB = n then { o with fmt := fmt }
  else { o with fmt := fmt, bytes := (List.range n).map (fun i => Config.freeByte s.free (2 * i + b2n o.isB)) }

/-- Count the array's cycles. -/
def State.addBusy (s : State) (cl : ClusterId) (n : Nat) : State :=
  s.wr (F.CL_BUSY_BUSY cl.die cl.idx) (s.rd (F.CL_BUSY_BUSY cl.die cl.idx) + n)

/-- Does a drain issued before position `ord` still write to one of the ranges? -/
def State.drainBefore (s : State) (cl : ClusterId) (j ord : Nat) (rs : List (Nat × Nat)) : Bool :=
  let c := s.cluster cl
  (c.readQ.any (fun r => decide (r.ord < ord) && (s.drainRanges j r).any (fun p => rs.any (fun q => lineOverlap p.1 p.2 q.1 q.2))))
    || (c.castQ.any (fun r => decide (r.ord < ord) && (s.castRanges j r).any (fun p => rs.any (fun q => lineOverlap p.1 p.2 q.1 q.2))))

/-- A K-step of the running deferred product: it reads its own panels, and at a chunk's end it yields when non-deferred
work is queued before the drain mark (R195, R285, R288).
[DEDUCED, notes/assumptions/88.md] -/
def State.kStepWgq (s : State) (cl : ClusterId) (j : Nat) (e : ArrEnt) (rest : List ArrEnt) : State :=
  let c := s.cluster cl
  let na := recBytes e.cfg.fmtA false
  let nb := recBytes e.cfg.fmtB true
  let pa := e.aBase + na * e.done
  let pb := e.bBase + nb * e.done
  if s.drainBefore cl j e.ord [(pa, na), (pb, nb)] then s
  else
    let c1 := kStepCl c e ⟨false, e.cfg.fmtA, e.aTrans, c.tbytes pa na, e.ord⟩
      ⟨true, e.cfg.fmtB, e.bTrans, c.tbytes pb nb, e.ord⟩
    let ended := c1.chunkK == 0 || c1.chunkEnded
    let yields := ended && !c.drainPrio && (!c.arrQ.isEmpty || !c.loadQ.isEmpty) && decide (e.done + 1 ≠ e.ksteps)
    let e1 := { e with done := e.done + 1, wstate := if yields then 3 else 2 }
    let q := if e.done + 1 = e.ksteps then rest else e1 :: rest
    let s1 := (s.putCl cl { c1 with wgq := q, drainPrio := c.drainPrio && !q.isEmpty }).addBusy cl (kCycles e.cfg.fmtA)
    let s2 := s1.add (F.CL_WGQ_DEFERRED cl.die cl.idx) (kCycles e.cfg.fmtA)
    if yields then s2.inc (F.CL_WGQ_YIELDS cl.die cl.idx) else s2

/-- Before the drain mark a deferred product starts or resumes a chunk only while the array queue and the load queue are empty
and no operand buffer holds a record (R284). -/
def ClusterSt.arrayFree (c : ClusterSt) : Bool := c.arrQ.isEmpty && c.loadQ.isEmpty && c.aBuf.isEmpty && c.bBuf.isEmpty

/-- K_STEP: the array does one K-step of the running deferred product, else of the head of the array queue once both operand
buffers hold it (R86). A running head that may not start its next chunk yields (R284, R285). While a chunk waits for the merge
latches the array does nothing (R105).
[DEDUCED, notes/assumptions/88.md] -/
def execKStep (cl : ClusterId) (s : State) : Res :=
  let c := s.cluster cl
  match s.slotOfCl cl with
  | none => ok s
  | some j =>
    if s.rotHeld cl || c.chunkEnded then ok s
    else
      match c.wgq with
      | e :: rest =>
        if e.wstate = 2 && (c.chunk.isSome || c.drainPrio || c.arrayFree) then ok (s.kStepWgq cl j e rest)
        else if e.wstate = 2 then
          let c1 := { c with wgq := { e with wstate := 3 } :: rest }
          ok (kStepArr ((s.putCl cl c1).inc (F.CL_WGQ_YIELDS cl.die cl.idx)) c1)
        else ok (kStepArr s c)
      | [] => ok (kStepArr s c)
where
  /-- A K-step of the head of the array queue. From the drain mark on, one that has not started waits for the WGQ (R288). A
  K-step that finds no operand is counted in CDn_CL_STALL; how many cycles it waits is a matter of time, and a free value here. -/
  kStepArr (s : State) (c : ClusterSt) : State :=
    match c.arrQ with
    | [] => s
    | e :: rest =>
      if c.drainPrio && !c.wgq.isEmpty && e.done == 0 && !c.arrOpen then s
      else match c.aBuf, c.bBuf with
      | a :: as, b :: bs =>
        let c1 := kStepCl c e (s.operand e.cfg.fmtA a) (s.operand e.cfg.fmtB b)
        let s := if a.fmt = e.cfg.fmtA && b.fmt = e.cfg.fmtB then s else s.tick
        let fin := decide (e.done + 1 = e.ksteps)
        let c2 := { c1 with
          aBuf := as, bBuf := bs
          arrQ := if fin then passMcfg rest else { e with done := e.done + 1 } :: rest
          arrOpen := if fin then !e.ends else c.arrOpen }
        (s.putCl cl (fillBufs c2 c2.loadQ)).addBusy cl (kCycles e.cfg.fmtA)
      | _, _ => (s.tick).add (F.CL_STALL_OPERAND cl.die cl.idx) (s.freeNat 0)

/-- WGQ_RUN: the head entry starts, or resumes, when it may take the array (R284, R288, R196).
[DEDUCED, notes/assumptions/88.md] -/
def execWgqRun (cl : ClusterId) (s : State) : Res :=
  let c := s.cluster cl
  match c.wgq, s.slotOfCl cl with
  | e :: rest, some _ =>
    let idle := c.chunk.isNone && !c.chunkEnded && !c.arrOpen
    let noneStarted := match c.arrQ with | [] => true | h :: _ => h.done == 0
    let may := if c.drainPrio then idle && noneStarted
      else idle && c.arrayFree && c.openSlot.isNone
    if (e.wstate = 1 || e.wstate = 3) && may && !s.rotHeld cl then
      ok (s.putCl cl { c with wgq := { e with wstate := 2 } :: rest })
    else ok s
  | _, _ => ok s

/-! A merge (R101 to R106, R108). -/

/-- F ← SR32(F + C) for one element, with its random word (R101, R102). -/
def mergeElem (seed : Nat) (k : ChunkId) (ordinal e : Nat) (f : BitVec 32) (c : Fp) : BitVec 32 :=
  match fpAdd (fp32 f) c with
  | .fin a m x => toFp32 (srIeee fmtFp32 (randomWord seed 0 k.pstep k.cfg.tensor k.cfg.tile ordinal e) a m x)
  | v => toFp32 v

/-- All 8,192 elements of a merge; elements at +0 are not listed. -/
def mergeTile (seed : Nat) (k : ChunkId) (ordinal : Nat) (vals : Sparse (BitVec 32)) (ch : Sparse Fp) : Sparse (BitVec 32) :=
  ((List.range 8192).map (fun e =>
    (e, mergeElem seed k ordinal e (sget (fun _ => 0) vals e) (sget (fun _ => .fin false 0 0) ch e)))).filter (fun p => p.2 ≠ 0)

/-- A merge wrote Inf or NaN: the cluster's NF of the step, and NONFINITE_ACCUM once per step of the job (R104). -/
def State.accNf (s : State) (cl : ClusterId) (j pstep slot : Nat) (nan : Bool) : State :=
  let ev := evenStep pstep
  let c := s.cluster cl
  let s1 := (s.setCluster cl (if ev then { c with nfEven := true } else { c with nfOdd := true })).showNf cl j
  let sl := s1.slot j
  if (if ev then sl.accEven else sl.accOdd) then s1
  else
    (s1.setSlot j (if ev then { sl with accEven := true } else { sl with accOdd := true })).emit
      ⟨1, 0x0C24, srcOf cl.die cl.idx, s.jobOf j, place 8 0 cl.idx ||| place 12 9 slot ||| place 13 13 (b2n nan)⟩

/-- MERGE_DONE: the chunk in the merge latches is merged into its slot, after every readout of that slot issued before it
(R110); a chunk that waited takes the latches, and the cycles that it waited, a free value, are counted (R105). NONFINITE_ACCUM
shows the class of the lowest non-finite element (R104).
[DESIGN CHOICE, notes/assumptions/99.md] -/
def execMergeDone (cl : ClusterId) (s : State) : Res :=
  let c := s.cluster cl
  match c.latch, s.slotOfCl cl with
  | some k, some j =>
    if c.readQ.any (fun r => r.slot == k.slot && decide (r.ord < k.ord)) then ok s
    else
      let a := c.aslot k.slot
      let vals := mergeTile (s.seed j) k (a.merges % 8192) a.vals c.latchVals
      let a1 : AccSlot := ⟨vals, a.merges + 1, if a.merges = 0 then k.cfg.tile else a.tile⟩
      let c1 := { c.setA k.slot a1 with latch := none, latchVals := [] }
      let c2 := if c.chunkEnded then endChunk c1 else c1
      let s0 := if c.chunkEnded then (s.tick).add (F.CL_STALL_MERGE cl.die cl.idx) (s.freeNat 0) else s
      let s1 := s0.putCl cl c2
      let s2 := if s1.slotCode cl k.slot = 0 then s1.setSlotCode cl k.slot 1 else s1
      let bad := vals.find? (fun p => fpNonfinite (fp32 p.2))
      let s3 := match bad with
        | some p => s2.accNf cl j k.pstep k.slot (fpNan (fp32 p.2))
        | none => s2
      ok (s3.startReadout cl)
  | _, _ => ok s

/-! Ends of readouts (R109 to R112), tie uses (R202, R321). -/

/-- Release the slot, or leave its tile OPEN, and go on with the next readout and the casts behind it. A TIE slot that an MTIE
names stays TIE (R107, R111, against R109).
[DESIGN CHOICE, notes/assumptions/99.md] -/
def State.endReadout (s : State) (cl : ClusterId) (j : Nat) (r : ReadEnt) (rest : List ReadEnt) : State :=
  let c := s.cluster cl
  let c1 := { (if r.rel then c.setA r.slot ⟨[], 0, 0⟩ else c) with readQ := rest }
  let code := if s.slotCode cl r.slot = 3 then 3 else if r.rel then 0 else 1
  (((s.setCluster cl c1).setSlotCode cl r.slot code).startReadout cl).castRun cl j

/-- READOUT_END: the readout at the head of its queue ends (R109). An MDRN writes its records now, after earlier merges of the
slot, earlier casts, earlier deferred reads of those lines, and, for a SEED cast, its resolve lap (R110, R145, R179, R286). -/
def execReadoutEnd (cl : ClusterId) (s : State) : Res :=
  let c := s.cluster cl
  match c.readQ, s.slotOfCl cl with
  | r :: rest, some j =>
    if c.mergePending r.slot r.ord then ok s
    else if r.kind ≠ 0 then (if r.done then ok (s.endReadout cl j r rest) else ok s)
    else
      match s.castTarget j r.x (if r.x then bits r.b.toNat 3 0 else bits r.b.toNat 15 0) with
      | none => ok (s.endReadout cl j r rest)
      | some t =>
        let earlierCast := c.castQ.any (fun q => decide (q.ord < r.ord))
        let panels := c.wgq.any (fun e => decide (e.ord < r.ord) && (panelRanges e).any (fun p =>
          (s.drainRanges j r).any (fun q => lineOverlap p.1 p.2 q.1 q.2)))
        if earlierCast || panels || s.castWaits j r.pstep t then ok s
        else ok ((s.drainTile cl j r t (c.aslot r.slot).vals).endReadout cl j r rest)
  | _, _ => ok s

/-- PUSH_BUFFER_ENTER: the RPUSH at the head of the readout queue copies its slot into a free push-buffer entry (R112). -/
def execPushBufferEnter (cl : ClusterId) (s : State) : Res :=
  let c := s.cluster cl
  match c.readQ with
  | r :: rest =>
    if r.kind = 2 && !r.done && c.push.length < 2 && !c.mergePending r.slot r.ord then
      let p : PushEnt := ⟨(c.aslot r.slot).vals, bits r.a.toNat 63 44, bits r.a.toNat 31 0, r.pstep, false⟩
      ok (s.setCluster cl { c with push := c.push ++ [p], readQ := { r with done := true } :: rest })
    else ok s
  | [] => ok s

/-- Slots that the tie groups homed on a die with numbers below `g` take (R319), N clusters. -/
def tieBelow (ties : List TieGroup) (die g n : Nat) : Nat :=
  ((ties.filter (fun x => x.home == die && decide (x.group < g))).map (fun x => ceilDiv x.tiles n)).sum

/-- The cluster and the slot that hold tile t of a group (R319). -/
def State.tiePlace (s : State) (j : Nat) (ties : List TieGroup) (g : TieGroup) (t : Nat) : Option (ClusterId × Nat) :=
  let home := s.dieClusters j g.home
  let n := home.length
  (home[t % n]?).map (fun c => (c, 15 - tieBelow ties g.home g.group n - t / n))

/-- Binary32 addition with round to nearest even, element by element (R201). -/
def addTiles (a b : Sparse (BitVec 32)) : Sparse (BitVec 32) :=
  ((List.range 8192).map (fun e =>
    (e, toFp32 (fpRound fmtFp32 (fpAdd (fp32 (sget (fun _ => 0) a e)) (fp32 (sget (fun _ => 0) b e))))))).filter (fun p => p.2 ≠ 0)

/-- The tied-weight tile's state. -/
def State.tie (s : State) (j g t : Nat) : TieSt := sget (fun _ => (⟨0, 0⟩ : TieSt)) s.ties (2048 * (8 * j + g) + t)

/-- TIE_USE_APPLY: the home adds the MTIE at the head of the sender's readout queue when it is the next use of the tile's step
(R202); the last use pushes the tie slot and returns it to +0, TIE as before (R321). -/
def execTieUseApply (cl : ClusterId) (s : State) : Res :=
  let c := s.cluster cl
  match c.readQ, s.slotOfCl cl with
  | r :: rest, some j =>
    let a := r.a.toNat
    let use := bits a 13 8
    match s.tieGroup j (bits a 2 0) use, (s.slot j).prog with
    | some g, some p =>
      let src := c.aslot r.slot
      let st := s.tie j g.group src.tile
      match s.tiePlace j p.ties g src.tile with
      | some (home, k) =>
        let h := s.cluster home
        let last := decide (use + 1 = g.uses)
        if r.kind = 1 && !r.done && !c.mergePending r.slot r.ord && decide (src.tile < g.tiles)
            && st.uses == use && r.pstep == (s.slot j).startStep + st.steps && (!last || decide (h.push.length < 2)) then
          let s1 := s.setCluster cl { c with readQ := { r with done := true } :: rest }
          let h1 := s1.cluster home
          let sum := addTiles (h1.aslot k).vals src.vals
          let st1 : TieSt := if last then ⟨0, st.steps + 1⟩ else ⟨use + 1, st.steps⟩
          let s2 := { s1 with ties := sset (fun _ => (⟨0, 0⟩ : TieSt)) s1.ties (2048 * (8 * j + g.group) + src.tile) st1 }
          let h2 := if last then
              { h1.setA k ⟨[], 0, 0⟩ with push := h1.push ++ [⟨sum, g.sum, src.tile, r.pstep, true⟩] }
            else h1.setA k ⟨sum, 0, 0⟩
          ok (s2.setCluster home h2)
        else ok s
      | none => ok s
    | _, _ => ok s
  | _, _ => ok s

end Sys2Proof.Machine
end

