-- ==== Sys2Proof/Machine/Sequencer.lean ====
section
/-!
DEFINITION. The scalar instructions of the cluster sequencer (R183 to R188), the special registers (R174, R175) and the
synchronisation instructions (R216 to R230).
-/

namespace Sys2Proof.Machine

/-! Arithmetic (R183, R184). -/

/-- Leading zeros of a 64-bit number. -/
def clz64 (v : Nat) : Nat := if v = 0 then 64 else 63 - Nat.log2 v
/-- Set bits of a 64-bit number. -/
def popc64 (v : Nat) : Nat := ((List.range 64).filter (fun i => v.testBit i)).length
/-- 1 or 0 as a register value. -/
def boolWord (b : Bool) : Word := if b then 1 else 0

/-- The ALU operation FN (R183); none where FN is not defined. -/
def aluFn (fn : Nat) (a b : Word) : Option Word :=
  let sh := b.toNat % 64
  match fn with
  | 0 => some (a + b)
  | 1 => some (a - b)
  | 2 => some (a &&& b)
  | 3 => some (a ||| b)
  | 4 => some (a ^^^ b)
  | 5 => some (a <<< sh)
  | 6 => some (a >>> sh)
  | 7 => some (a.sshiftRight sh)
  | 8 => some (a * b)
  | 9 => some (BitVec.ofNat 64 ((a.toNat * b.toNat) >>> 64))
  | 10 => some (boolWord (a.slt b))
  | 11 => some (boolWord (a.ult b))
  | 12 => some (if a.slt b then a else b)
  | 13 => some (if b.slt a then a else b)
  | 14 => some (if a.ult b then a else b)
  | 15 => some (if b.ult a then a else b)
  | 16 => some (BitVec.ofNat 64 (clz64 a.toNat))
  | 17 => some (BitVec.ofNat 64 (popc64 a.toNat))
  | _ => none

/-- ALU (R183): FN 16 and 17 do not use RS2, which must then be zero (R181). -/
def execAlu (cl : ClusterId) (f : FmtR) (s : State) : Res :=
  s.issue cl (wordR 0x01 f) fun c =>
    match aluFn f.fn.toNat (c.sreg f.rs1) (c.sreg f.rs2) with
    | none => excIllegal
    | some v => if 16 ≤ f.fn.toNat && f.rs2 ≠ 0 then excIllegal else s.retS cl f.rd v

/-- An immediate instruction of format I whose result is `op` of S[RS1] and IMM. -/
def immOp (cl : ClusterId) (opc : Nat) (f : FmtI) (s : State) (op : Word → BitVec 15 → Word) : Res :=
  s.issue cl (wordI opc f) fun c => s.retS cl f.rd (op (c.sreg f.rs1) f.imm)

/-- A shift by IMM[5:0]; IMM[14:6] must be zero (R184). -/
def shiftOp (cl : ClusterId) (opc : Nat) (f : FmtI) (s : State) (op : Word → Nat → Word) : Res :=
  s.issue cl (wordI opc f) fun c =>
    if 64 ≤ f.imm.toNat then excIllegal else s.retS cl f.rd (op (c.sreg f.rs1) f.imm.toNat)

/-- ADDI: IMM is sign-extended. -/
def execAddi (cl : ClusterId) (f : FmtI) (s : State) : Res :=
  immOp cl 0x02 f s fun a i => a + i.signExtend 64
/-- ANDI: IMM is zero-extended. -/
def execAndi (cl : ClusterId) (f : FmtI) (s : State) : Res :=
  immOp cl 0x03 f s fun a i => a &&& i.zeroExtend 64
/-- ORI: IMM is zero-extended. -/
def execOri (cl : ClusterId) (f : FmtI) (s : State) : Res :=
  immOp cl 0x04 f s fun a i => a ||| i.zeroExtend 64
/-- XORI: IMM is zero-extended. -/
def execXori (cl : ClusterId) (f : FmtI) (s : State) : Res :=
  immOp cl 0x05 f s fun a i => a ^^^ i.zeroExtend 64
/-- SHLI. -/
def execShli (cl : ClusterId) (f : FmtI) (s : State) : Res := shiftOp cl 0x06 f s fun a n => a <<< n
/-- SHRI. -/
def execShri (cl : ClusterId) (f : FmtI) (s : State) : Res := shiftOp cl 0x07 f s fun a n => a >>> n
/-- SARI. -/
def execSari (cl : ClusterId) (f : FmtI) (s : State) : Res := shiftOp cl 0x08 f s fun a n => a.sshiftRight n
/-- SLTI: IMM is sign-extended, the comparison signed. -/
def execSlti (cl : ClusterId) (f : FmtI) (s : State) : Res :=
  immOp cl 0x09 f s fun a i => boolWord (a.slt (i.signExtend 64))
/-- SLTIU: IMM is zero-extended, the comparison unsigned. -/
def execSltiu (cl : ClusterId) (f : FmtI) (s : State) : Res :=
  immOp cl 0x0A f s fun a i => boolWord (a.ult (i.zeroExtend 64))
/-- LUI: IMM sign-extended and shifted left by 12. -/
def execLui (cl : ClusterId) (f : FmtU) (s : State) : Res :=
  s.issue cl (wordU 0x0B f) fun _ => s.retS cl f.rd (f.imm.signExtend 64 <<< 12)

/-! Branches and jumps (R185, R186). -/

/-- PC + 4 · OFF, OFF sign-extended. -/
def branchTarget (pc : Nat) (off : Int) : Nat := (((pc : Int) + 4 * off) % 2 ^ 64).toNat

/-- A conditional branch. -/
def branchOp (cl : ClusterId) (opc : Nat) (f : FmtB) (s : State) (cond : Word → Word → Bool) : Res :=
  s.issue cl (wordB opc f) fun c =>
    if cond (c.sreg f.rs1) (c.sreg f.rs2) then .jump s (branchTarget (s.pc cl) f.off.toInt) else .ret s

/-- BEQ. -/
def execBeq (cl : ClusterId) (f : FmtB) (s : State) : Res := branchOp cl 0x10 f s fun a b => a == b
/-- BNE. -/
def execBne (cl : ClusterId) (f : FmtB) (s : State) : Res := branchOp cl 0x11 f s fun a b => a != b
/-- BLT. -/
def execBlt (cl : ClusterId) (f : FmtB) (s : State) : Res := branchOp cl 0x12 f s fun a b => a.slt b
/-- BGE. -/
def execBge (cl : ClusterId) (f : FmtB) (s : State) : Res := branchOp cl 0x13 f s fun a b => !a.slt b
/-- BLTU. -/
def execBltu (cl : ClusterId) (f : FmtB) (s : State) : Res := branchOp cl 0x14 f s fun a b => a.ult b
/-- BGEU. -/
def execBgeu (cl : ClusterId) (f : FmtB) (s : State) : Res := branchOp cl 0x15 f s fun a b => !a.ult b

/-- JAL: PC + 4 to S[RD], PC + 4 · OFF to PC. -/
def execJal (cl : ClusterId) (f : FmtU) (s : State) : Res :=
  s.issue cl (wordU 0x16 f) fun c =>
    .jump (s.setCluster cl (c.setS f.rd (BitVec.ofNat 64 (s.pc cl + 4)))) (branchTarget (s.pc cl) f.imm.toInt)

/-- JALR: PC + 4 to S[RD], S[RS1] + IMM to PC; S[RS1] is read before S[RD] is written. -/
def execJalr (cl : ClusterId) (f : FmtI) (s : State) : Res :=
  s.issue cl (wordI 0x17 f) fun c =>
    .jump (s.setCluster cl (c.setS f.rd (BitVec.ofNat 64 (s.pc cl + 4)))) (c.sreg f.rs1 + f.imm.signExtend 64).toNat

/-! Tile-store access (R187, R188). -/

/-- The address S[RS1] + IMM. -/
def memAddr (c : ClusterSt) (rs1 : BitVec 5) (imm : BitVec 15) : Nat := (c.sreg rs1 + imm.signExtend 64).toNat

/-- Load `n` bytes, zero-extended. -/
def loadOp (cl : ClusterId) (opc n : Nat) (f : FmtI) (s : State) : Res :=
  s.issue cl (wordI opc f) fun c =>
    let a := memAddr c f.rs1 f.imm
    if a % n ≠ 0 then .exc 19 a
    else if tileSize ≤ a then .exc 18 a
    else if s.interlocked cl a n false then .wait s
    else s.retS cl f.rd (BitVec.ofNat 64 (c.tnat a n))

/-- Store the low `n` bytes of S[RS2]. -/
def storeOp (cl : ClusterId) (opc n : Nat) (f : FmtS) (s : State) : Res :=
  s.issue cl (wordS opc f) fun c =>
    let a := memAddr c f.rs1 f.imm
    if a % n ≠ 0 then .exc 19 a
    else if tileSize ≤ a then .exc 18 a
    else if s.interlocked cl a n true then .wait s
    else .ret (s.setCluster cl (c.setT a (leBytes n (c.sn f.rs2))))

/-- LD. -/
def execLd (cl : ClusterId) (f : FmtI) (s : State) : Res := loadOp cl 0x20 8 f s
/-- LW. -/
def execLw (cl : ClusterId) (f : FmtI) (s : State) : Res := loadOp cl 0x21 4 f s
/-- ST. -/
def execSt (cl : ClusterId) (f : FmtS) (s : State) : Res := storeOp cl 0x22 8 f s
/-- SW. -/
def execSw (cl : ClusterId) (f : FmtS) (s : State) : Res := storeOp cl 0x23 4 f s

/-- TCPY: S[RS3] bytes from S[RS2] to S[RS1] (R188, R784). A range of no byte reaches 0x18_0000 where its start lies above it.
[DESIGN CHOICE, notes/assumptions/99.md] -/
def execTcpy (cl : ClusterId) (f : Fmt5) (s : State) : Res :=
  s.issue cl (word5 0x24 f) fun c =>
    let d := c.sn f.f19
    let a := c.sn f.f14
    let n := c.sn f.f9
    if f.f24 ≠ 0 || f.f4 ≠ 0 then excIllegal
    else if d % 64 ≠ 0 then .exc 19 d
    else if a % 64 ≠ 0 then .exc 19 a
    else if n % 64 ≠ 0 then .exc 19 n
    else if tileSize < d + n then .exc 18 (max d tileSize)
    else if tileSize < a + n then .exc 18 (max a tileSize)
    else if n ≠ 0 && decide (d < a + n) && decide (a < d + n) then .exc 18 (max d a)
    else if s.interlocked cl d n true || s.interlocked cl a n false then .wait s
    else .ret (s.setCluster cl (c.setT d (c.tbytes a n)))

/-! Special registers (R174, R175). -/

/-- UNSCALE (R147, R174). -/
def State.unscale (s : State) (j : Nat) : Int :=
  s.rdInt (F.NUM_SCALE_LS_PREV j) + (s.rd (F.NUM_SCALE_PCM_G_PREV j) : Int) + (s.rd (F.NUM_SCALE_PCM_WG_PREV j) : Int)

/-- CSTAT (R175). -/
def State.cstat (s : State) (cl : ClusterId) (j : Nat) : Nat :=
  place 63 63 (b2n (s.slot j).outcome) ||| place 62 62 (b2n (s.cluster cl).late)
    ||| place 61 61 (s.rd (F.CL_STATUS_NF cl.die cl.idx)) ||| place 60 60 (s.rd (F.NUM_FLAGS_OVF j))
    ||| place 59 59 (b2n (s.slot j).resolved)

/-- The value of special register `n` (R174); none where it names none. PHASE and CYCLE count time inside a lap, which the
commands do not carry: they are free values (DESIGN CHOICE, notes/assumptions/3.md). -/
def State.special (s : State) (cl : ClusterId) (j n : Nat) : Option Nat :=
  let c := s.cluster cl
  match n with
  | 0x000 => some (s.cstat cl j)
  | 0x001 => some c.lwait.toNat
  | 0x002 => some c.hcon.toNat
  | 0x003 => some s.now
  | 0x004 => some (s.freeNat 0 % 1024)
  | 0x005 => some (s.freeNat 1)
  | 0x006 => some c.dqseq
  | 0x008 => some (s.rd (F.STR_SLOT_JOB_ID j))
  | 0x009 => some (place 6 0 (s.logical cl) ||| place 12 8 (s.partOrd j (clPart cl)) ||| place 21 16 (s.partsOf j).length)
  | 0x00A => some (place 12 0 (s.modIdx j) ||| place 29 16 (s.members j))
  | 0x010 => some (s.step j)
  | 0x011 => some (s.slot j).rlap
  | 0x012 => some (unsignedOf 8 (s.unscale j))
  | 0x013 => some (pow2Fp32 (-(s.unscale j)))
  | 0x014 => some (s.rd (F.HRD_MARK_H j))
  | 0x015 => some (s.rd (F.HRD_MARK_H j) - s.rd (F.HRD_SCHED_DRAIN_LEAD j))
  | 0x016 => some (s.rd (F.STR_SLOT_PACE j))
  | 0x017 => some (c.pstep % 2 ^ 44)
  | _ => none

/-- SRD: S[RD] takes special register IMM; RS1 is not used. -/
def execSrd (cl : ClusterId) (f : FmtI) (s : State) : Res :=
  s.issue cl (wordI 0x28 f) fun _ =>
    match s.special cl ((s.slotOfCl cl).getD 0) f.imm.toNat with
    | none => excIllegal
    | some v => if f.rs1 ≠ 0 then excIllegal else (s.tick).retS cl f.rd (BitVec.ofNat 64 v)

/-! Completion of earlier work (R221, R230). -/

/-- Has every matrix, readout, cast and vector operation issued before program position `ord` completed, its WGQ entries among
them (R221, R230)? -/
def ClusterSt.opsDone (c : ClusterSt) (ord : Nat) : Bool :=
  !(c.loadQ.any (·.ord < ord)) && !(c.arrQ.any (·.ord < ord)) && !(c.wgq.any (·.ord < ord)) && !(c.readQ.any (·.ord < ord))
    && !(c.castQ.any (·.ord < ord)) && !(c.vq.any (·.ord < ord))
    && (match c.latch with | some k => !(decide (k.ord < ord)) | none => true)
    && (match c.chunk with | some k => !(decide (k.ord < ord)) || !c.chunkEnded | none => true)

/-- May an HRDW issued at program position `ord` record: the work before it is complete, the WGQ holds no entry at all, and
the Relay path has taken every push (R221)? -/
def ClusterSt.workDone (c : ClusterSt) (ord : Nat) : Bool := c.opsDone ord && c.wgq.isEmpty && c.push.isEmpty

/-- Has every earlier instruction of the cluster completed, every DQ and the recording of an HRDW among them (R230)? An RPUSH
has completed when its tile stands in the push buffer, a MACC when its K-steps are done. -/
def ClusterSt.allDone (c : ClusterSt) : Bool := c.opsDone c.icount && c.dqs.isEmpty && c.hrdw.isNone

/-! Barriers (R216, R217). -/

/-- BAR: the sequencer reaches the barrier and waits in RUN 3. -/
def execBar (cl : ClusterId) (f : FmtI) (s : State) : Res :=
  s.issue cl (wordI 0x3C f) fun c =>
    if 32 ≤ f.imm.toNat || f.rd ≠ 0 || f.rs1 ≠ 0 then excIllegal
    else
      let part := bit f.imm.toNat 4
      let num := f.imm.toNat % 16
      .wait (((s.setCluster cl { c with wait := .bar part num }).showWait cl 2 (f.imm.toNat) 0).setRun cl 3)

/-- Leave a wait: RUN reads RUNNING, CDn_CL_WAIT shows none, and the instruction retires.
[DESIGN CHOICE, notes/assumptions/3.md] -/
def State.endWait (s : State) (cl : ClusterId) : State :=
  let c := s.cluster cl
  (((s.setCluster cl { c with wait := .none }).showWait cl 0 0 0).setRun cl 1).retire cl (s.pc cl + 4)

/-- Does the cluster wait at barrier `num` of the scope? -/
def State.atBar (s : State) (cl : ClusterId) (part : Bool) (num : Nat) : Bool :=
  s.run cl == 3 && (s.cluster cl).wait == .bar part num

/-- The participants of a barrier of slot j: its ACTIVE clusters on the die, or in the partition (R216). -/
def State.barMembers (s : State) (die : Nat) (part : Option Nat) (j : Nat) : List ClusterId :=
  (s.clustersOf j).filter (fun c => c.die == die && (match part with | some q => c.idx / 72 == q | none => true))

/-- BARRIER_RELEASE: once every participant waits at it, all leave together (R217). Where the first to leave raises FETCH, the
job stops and the others stay HALTED (R232). -/
def execBarrierRelease (die : Nat) (part : Option Nat) (j num : Nat) (s : State) : Res :=
  let ms := s.barMembers die part j
  if !ms.isEmpty && ms.all (fun c => s.atBar c part.isSome num) then
    ok (ms.foldl (fun (s : State) c => if s.atBar c part.isSome num then s.endWait c else s) s)
  else ok s

/-! WLAP (R218 to R220). -/

/-- WLAP_LATE (R219), once per step of the job on the module. -/
def State.wlapLate (s : State) (cl : ClusterId) (laps : Nat) : State :=
  match s.slotOfCl cl with
  | none => s
  | some j =>
    let s1 := s.inc (F.CL_SEQCNT_LATE cl.die cl.idx)
    let st := s.step j
    if (s1.slot j).lateStep = some st then s1
    else
      (s1.setSlot j { s1.slot j with lateStep := some st }).emit
        ⟨1, 0x0C34, srcOf cl.die cl.idx, s.jobOf j, place 31 0 laps ||| place 75 32 st ||| place 82 76 (s.logical cl)⟩

/-- WLAP: wait for lap T = S[RS1] + IMM. -/
def execWlap (cl : ClusterId) (f : FmtI) (s : State) : Res :=
  s.issue cl (wordI 0x3D f) fun c =>
    let t := memAddr c f.rs1 f.imm
    let now := s.now
    if 2 ^ 32 + now < t then .exc 25 t
    else
      let c1 := { c with lwait := BitVec.ofNat 64 t }
      if t ≤ now then
        .ret ((s.setCluster cl ({ c1 with late := true }.setS f.rd (BitVec.ofNat 64 (now - t)))).wlapLate cl (now - t))
      else
        .wait (((s.setCluster cl { c1 with wait := .wlap f.rd.toNat t }).showWait cl 1 0 t).setRun cl 2)

/-- WLAP_COMPLETE: in the first cycle after the mark at which the count reaches T; 0 when on time (R218). A hold keeps the
cluster from its next issue, not from this (R120, R702).
[DESIGN CHOICE, notes/assumptions/3.md] -/
def execWlapComplete (cl : ClusterId) (s : State) : Res :=
  let c := s.cluster cl
  match c.wait with
  | .wlap rd t =>
    if s.run cl = 2 && t ≤ s.now then
      let s1 := s.setCluster cl ({ c with late := decide (t < s.now) }.setS (BitVec.ofNat 5 rd) (BitVec.ofNat 64 (s.now - t)))
      ok ((if t < s.now then s1.wlapLate cl (s.now - t) else s1).endWait cl)
    else ok s
  | _ => ok s

/-! HRDW (R221 to R225). -/

/-- HRDW: S[RS1][1:0] are recorded once the work before it is complete; the program step moves on at issue.
[DEDUCED, notes/assumptions/85.md] -/
def execHrdw (cl : ClusterId) (f : Fmt5) (s : State) : Res :=
  s.issue cl (word5 0x3E f) fun c =>
    let wait := bit f.f4.toNat 0
    if f.f14 ≠ 0 || f.f9 ≠ 0 || 2 ≤ f.f4.toNat || (!wait && f.f24 ≠ 0) then excIllegal
    else if c.hrdw.isSome then .wait s
    else
      let c1 := { c with hrdw := some ⟨c.sn f.f19 % 4, c.pstep, c.icount⟩, pstep := c.pstep + 1 }
      if wait then
        .wait (((s.setCluster cl { c1 with wait := .hrdw f.f24.toNat c.pstep }).showWait cl 4 0 0).setRun cl 7)
      else .ret (s.setCluster cl c1)

/-- Has every tile of the tie slots that this cluster is home to completed the step (R322)? -/
def State.tiesDone (s : State) (cl : ClusterId) (j pstep : Nat) : Bool :=
  match (s.slot j).prog with
  | none => true
  | some p =>
    let home := s.dieClusters j cl.die
    let n := home.length
    let ord := (home.takeWhile (fun c => c ≠ cl)).length
    p.ties.all (fun g => g.home ≠ cl.die ||
      (List.range g.tiles).all (fun t => t % n ≠ ord ||
        decide (pstep < (s.slot j).startStep + (sget (fun _ => (⟨0, 0⟩ : TieSt)) s.ties (2048 * (8 * j + g.group) + t)).steps)))

/-- HRDW_RECORD: the bits are ORed into HCON with PRESENT and the step they count towards (R221 to R223, R322); the
cluster stops holding RETIRED versions (R312). -/
def execHrdwRecord (cl : ClusterId) (s : State) : Res :=
  let c := s.cluster cl
  match c.hrdw, s.slotOfCl cl with
  | some h, some j =>
    if c.workDone h.ord && s.tiesDone cl j h.pstep then
      let old := c.hcon.toNat
      let step := s.step j + b2n (s.slot j).marked
      let con := place 63 63 1 ||| place 59 16 step ||| (old % 4 ||| h.bits)
      ok ((s.setCluster cl { c with hrdw := none, hcon := BitVec.ofNat 64 con }).dropHolder cl)
    else ok s
  | _, _ => ok s

/-- HRDW_OUTCOME_RETURN: after the resolve lap of its step, with every event of that lap applied, 1 for a commit, 0 for a skip (R225). An outcome that
halts the job leaves the sequencer in the wait. -/
def execHrdwOutcomeReturn (cl : ClusterId) (s : State) : Res :=
  let c := s.cluster cl
  match c.wait, s.slotOfCl cl with
  | .hrdw rd st, some j =>
    let sl := s.slot j
    if s.run cl = 7 && c.hrdw.isNone && sl.resolved && decide (st < s.step j) && s.slotState j = 2
        && (sl.rlap != s.now || s.turn 8) then
      ok ((s.setCluster cl (c.setS (BitVec.ofNat 5 rd) (boolWord sl.outcome))).endWait cl)
    else ok s
  | _, _ => ok s

/-! EVT, FENCE and HALT (R227 to R230). -/

/-- EVT: PROGRAM_EVENT with code IMM[7:0], severity IMM[10:8] and value S[RS1]. -/
def execEvt (cl : ClusterId) (f : FmtI) (s : State) : Res :=
  s.issue cl (wordI 0x3F f) fun c =>
    let sev := bits f.imm.toNat 10 8
    if 2 ^ 11 ≤ f.imm.toNat || f.rd ≠ 0 then excIllegal
    else if 4 ≤ sev then .exc 27 sev
    else
      let j := s.slotOfCl cl
      let e : Ev := ⟨sev, 0x0C38, srcOf cl.die cl.idx, j.bind s.jobOf,
        place 7 0 f.imm.toNat ||| place 71 8 (c.sn f.rs1) ||| place 78 72 (s.logical cl) ||| place 92 79 (s.pc cl / 4)⟩
      if sev = 3 then
        match j with
        | some j => .ret (s.failJob j e)
        | none => .ret (s.emit e)
      else if c.evtLap = some s.now then .ret (s.inc (F.CL_SEQCNT_EVT_DROP cl.die cl.idx))
      else .ret ((s.setCluster cl { c with evtLap := some s.now }).emit e)

/-- FENCE: wait until every earlier instruction has completed. Every field but OP is unused. -/
def execFence (cl : ClusterId) (f : Fmt5) (s : State) : Res :=
  s.issue cl (word5 0x3A f) fun c =>
    if f.f24 ≠ 0 || f.f19 ≠ 0 || f.f14 ≠ 0 || f.f9 ≠ 0 || f.f4 ≠ 0 then excIllegal
    else if c.allDone then .ret s else .wait s

/-- HALT: as FENCE, then the sequencer stops HALTED and holds no RETIRED version (R230, R312). -/
def execHalt (cl : ClusterId) (f : Fmt5) (s : State) : Res :=
  s.issue cl (word5 0x3B f) fun c =>
    if f.f24 ≠ 0 || f.f19 ≠ 0 || f.f14 ≠ 0 || f.f9 ≠ 0 || f.f4 ≠ 0 then excIllegal
    else if c.allDone then
      .wait (((((s.endQueueWait cl).wr (F.CL_RETIRED_COUNT cl.die cl.idx) (s.rd (F.CL_RETIRED_COUNT cl.die cl.idx) + 1)).setRun cl 5)).dropHolder cl)
    else .wait s

end Sys2Proof.Machine
end

