-- ==== Sys2Proof/Machine/Dma.lean ====
section
/-!
DEFINITION. The cluster DMA port: DQ and its completion (R204 to R214), multicast joins (R209 to R212), the activation stash
(R292 to R305), DWAIT (R215), and the cluster events of R115 to R121 and R785.
-/

namespace Sys2Proof.Machine

/-! The activation stash. -/

/-- Number of a stash in `State.stash`. -/
def stashKey (n j : Nat) : Nat := 16 * n + j
/-- A stash that holds nothing. -/
def stashInit : StashSt := ⟨[], false, false, 0⟩
/-- The stash of slot j on die n. -/
def State.stashOf (s : State) (n j : Nat) : StashSt := sget (fun _ => stashInit) s.stash (stashKey n j)

/-- Pages bound in the HBM pool or in the spill pool. -/
def StashSt.bound (v : StashSt) (spill : Bool) : Nat := (v.pages.filter (fun p => p.spill == spill)).length

/-- Set a stash, and show it in CDn_STASH_STAT_j. -/
def State.setStash (s : State) (n j : Nat) (v : StashSt) : State :=
  let v := { v with peak := max v.peak (v.bound false) }
  ((({ s with stash := sset (fun _ => stashInit) s.stash (stashKey n j) v }).wr (F.CD_STASH_STAT_HBM_PAGES n j)
    (v.bound false)).wr (F.CD_STASH_STAT_SPILL_MIB n j) (ceilDiv (v.bound true) 256))

/-- Pages of the HBM pool.
[DEDUCED, notes/assumptions/23.md] -/
def State.poolPages (s : State) (n j : Nat) : Nat := s.rd (F.CD_BWD_CFG_REGION_MIB n j) * 256
/-- Pages of the spill pool.
[DEDUCED, notes/assumptions/23.md] -/
def State.spillPages (s : State) (n j : Nat) : Nat := 2 ^ 18 * s.rd (F.CD_BWD_CFG_SPILL_GIB n j)

/-- First frame of a pool. -/
def State.poolFrame (s : State) (n j : Nat) (spill : Bool) : Nat :=
  512 * (if spill then s.rd (F.CD_STASH_SPILL_SPILL n j) else s.rd (F.CD_STASH_POOL_POOL n j))

/-- The lowest frame of a pool that no page is bound to, from `i` on. -/
def freeFrame (base : Nat) (pages : List StashPage) : Nat → Nat → Nat
  | 0, i => base + i
  | n + 1, i => if pages.any (fun p => p.frame == base + i) then freeFrame base pages n (i + 1) else base + i

/-- Bind new pages to free frames of a pool. -/
def bindPages (base step : Nat) (spill : Bool) (v : StashSt) : List Nat → StashSt
  | [] => v
  | p :: ps =>
    let f := freeFrame base v.pages v.pages.length 0
    bindPages base step spill { v with pages := v.pages ++ [⟨p, f, spill, step⟩] } ps

/-- Address of a ledger byte (R299).
[DEDUCED, notes/assumptions/46.md] -/
def State.ledgerAddr (s : State) (n j desc : Nat) : Nat :=
  2 ^ 17 * s.rd (F.CD_STASH_LEDGER_LEDGER n j) + 65536 * (s.step j % 2) + desc

/-- Raise a ledger byte to a state; it is never lowered within a window (R300).
[DESIGN CHOICE, notes/assumptions/13.md] -/
def State.raiseLedger (s : State) (n j desc v : Nat) : State :=
  let a := s.ledgerAddr n j desc
  if (s.unitByte a).toNat < v then s.write a [BitVec.ofNat 8 v] else s

/-- STASH_HIGH_WATER, when the bound HBM pages first reach the mark within the window (R302).
[DEDUCED, notes/assumptions/23.md] -/
def State.highWater (s : State) (n j desc : Nat) : State :=
  let b := (s.stashOf n j).bound false
  let pool := s.poolPages n j
  if s.rd (F.CD_STASH_STAT_HIGH n j) = 0 && decide (ceilDiv (9 * pool) 10 ≤ b) then
    ((s.wr (F.CD_STASH_STAT_HIGH n j) 1).wr (F.CD_STASH_PEAK_HIGH_DESC n j) desc).emit
      ⟨1, 0x0C01, srcOf n j, s.jobOf j,
        place 24 0 b ||| place 49 25 pool ||| place 65 50 desc ||| place 109 66 (s.step j)⟩
  else s

/-- Bind the new pages of a write to the HBM pool, or to the spill pool, and raise the ledger.
[DESIGN CHOICE, notes/assumptions/13.md] -/
def State.stashBind (s : State) (n j desc : Nat) (new : List Nat) (spill : Bool) : State :=
  let v := bindPages (s.poolFrame n j spill) (s.step j) spill (s.stashOf n j) new
  ((s.setStash n j v).raiseLedger n j desc (if spill then 2 else 1)).highWater n j desc

/-- The first overflowing write of a window: it is recorded in CDn_STASH_PEAK_j and counted, and the state follows the policy
(R303). -/
def State.stashOverflow (s : State) (n j desc tensor : Nat) : State :=
  let v := s.stashOf n j
  if v.overflowed then s
  else
    let pol := s.rd (F.CD_BWD_CFG_POLICY n j)
    let s1 := ((s.setStash n j { v with overflowed := true }).inc (F.CD_BWD_CNT_OVERFLOW n j)).wr
      (F.CD_STASH_PEAK_OVF_DESC n j) desc
    let s2 := s1.wr (F.CD_STASH_STAT_STATE n j) (pol + 1)
    let what := place 15 0 desc ||| place 35 16 tensor ||| place 79 36 (s.step j)
    match pol with
    | 0 => s2.emit ⟨2, 0x0C02, srcOf n j, s.jobOf j, what ||| place 100 80 ((s.spillPages n j - v.bound true) / 256)⟩
    | 1 => s2.emit ⟨2, 0x0C03, srcOf n j, s.jobOf j, what⟩
    | _ => s2

/-- What a stash write does when it issues: bound, dropped whole, or the job stops (R295, R303, R304). -/
inductive StashOut where
  | stored (s : State)
  | dropped (s : State)
  | stopped (s : State)

/-- STASH_EXHAUSTED (R303, R304). -/
def State.stashExhausted (s : State) (n j desc tensor cause : Nat) : State :=
  (s.wr (F.CD_STASH_STAT_STATE n j) 3).failJob j
    ⟨3, 0x0C07, srcOf n j, s.jobOf j, place 0 0 cause ||| place 16 1 desc ||| place 36 17 tensor ||| place 80 37 (s.step j)⟩

/-- A stash write to virtual pages `pages` through a descriptor. -/
def State.stashWrite (s : State) (n j desc tensor : Nat) (pages : List Nat) : StashOut :=
  let v := s.stashOf n j
  let new := pages.dedup.filter (fun p => !v.pages.any (fun q => q.vpage == p))
  let fits := decide (v.bound false + new.length ≤ s.poolPages n j)
  if !v.overflowed && fits then .stored (s.stashBind n j desc new false)
  else
    let s1 := s.stashOverflow n j desc tensor
    match s.rd (F.CD_BWD_CFG_POLICY n j) with
    | 0 =>
      if fits then .stored (s1.stashBind n j desc new false)
      else if v.bound true + new.length ≤ s.spillPages n j then .stored (s1.stashBind n j desc new true)
      else .stopped (s1.stashExhausted n j desc tensor 1)
    | 1 => .dropped (s1.raiseLedger n j desc 3)
    | _ => .stopped (s1.stashExhausted n j desc tensor 0)

/-- A stash read: unbound pages are counted, and reported once per window (R297). -/
def State.stashRead (s : State) (cl : ClusterId) (n j desc : Nat) (pages : List Nat) : State :=
  let v := s.stashOf n j
  let un := (pages.dedup.filter (fun p => !v.pages.any (fun q => q.vpage == p))).length
  if un = 0 then s
  else
    let s1 := s.add (F.CD_BWD_CNT_UNBOUND n j) un
    if v.unboundSeen then s1
    else
      (s1.setStash n j { v with unboundSeen := true }).emit
        ⟨1, 0x0C09, srcOf n cl.idx, s.jobOf j, place 15 0 desc ||| place 59 16 (s.step j) ||| place 66 60 (s.logical cl)⟩

/-- The window ends: pages bound in steps before `lim` are released, a bank of the ledger is zeroed, and the new window
starts (R296, R299, R300).
[DEDUCED, notes/assumptions/46.md] -/
def State.stashRelease (s : State) (n j lim bank : Nat) : State :=
  let v := s.stashOf n j
  let s1 := (s.wr (F.CD_STASH_PEAK_PEAK n j) v.peak).setStash n j
    ⟨v.pages.filter (fun p => decide (lim ≤ p.step)), false, false, 0⟩
  let s2 := ((s1.wr (F.CD_STASH_STAT_STATE n j) 0).wr (F.CD_STASH_STAT_HIGH n j) 0)
  let base := 2 ^ 17 * s.rd (F.CD_STASH_LEDGER_LEDGER n j) + 65536 * bank
  s2.write base (List.replicate 65536 0)

/-! Regions (R205, R236). -/

/-- Byte offsets in the region of the rows of a DQ. -/
def DqEnt.rowOffs (d : DqEnt) : List Nat := (List.range d.rows).map (fun r => d.off + r * d.stride)

/-- Virtual base of the region that a DQ uses (R207). -/
def dqVa (x : DmaDesc) (e : Bool) : Nat := if x.epoched && e then x.va1 else x.va0

/-- Index, within the region's frame list, of the pages that a DQ touches. -/
def dqPages (x : DmaDesc) (d : DqEnt) : List Nat :=
  (d.rowOffs.flatMap (fun o =>
    let lo := (dqVa x d.e % 4096 + o) / 4096
    let hi := (dqVa x d.e % 4096 + o + d.len - 1) / 4096
    (List.range (hi + 1 - lo)).map (fun i => lo + i))).dedup

/-- The frame list of the region. -/
def dqFrames (x : DmaDesc) (e : Bool) : List (Option Nat) := if x.epoched && e then x.frames1 else x.frames0

/-- Physical address of byte `o` of the program container of slot j. -/
def Program.addr (p : Program) (o : Nat) : Nat := 4096 * (p.container[o / 4096]?.getD 0) + o % 4096

/-- Set entry k of a region's frame list, in the module and in the container in memory (R236). -/
def State.setFrame (s : State) (j desc : Nat) (e : Bool) (k : Nat) (f : Option Nat) : State :=
  match (s.slot j).prog with
  | none => s
  | some p =>
    match p.dma[desc]? with
    | none => s
    | some x =>
      let two := x.epoched && e
      let x1 := if two then { x with frames1 := x.frames1.set k f } else { x with frames0 := x.frames0.set k f }
      let a := p.addr (x.offset + 64 + (if two then 4096 else 0) + 8 * k)
      (s.setSlot j { s.slot j with prog := some { p with dma := p.dma.set desc x1 } }).writeNat a 8
        (match f with | some f => frameWord f | none => 0)

/-- Make every page that a DQ needs valid, walking each invalid one again (R208, R501); the fault of the first that
faults. -/
def State.dqWalk (s : State) (j : Nat) (d : DqEnt) (va : Nat) : List Nat → State × Option (Nat × Nat × Nat × Nat)
  | [] => (s, none)
  | k :: ks =>
    match (s.descOf j d.desc).bind (fun x => (dqFrames x d.e)[k]?.getD none) with
    | some _ => s.dqWalk j d va ks
    | none =>
      match s.walkAt j (va / 4096 + k) d.write with
      | (s1, .fault c l e) => (s1, some (va / 4096 + k, c, l, e))
      | (s1, .entry e) => (s1.setFrame j d.desc (d.e) k (some (entryFrame e))).dqWalk j d va ks

/-- Physical address of byte `o` of a region, or none for an unbound stash page. -/
def State.dqAddr (s : State) (n j : Nat) (x : DmaDesc) (e : Bool) (o : Nat) : Option Nat :=
  let v := dqVa x e % 4096 + o
  match x.stash with
  | some _ =>
    ((s.stashOf n j).pages.find? (fun p => p.vpage == (x.va0 + o) / 4096)).map (fun p => 4096 * p.frame + (x.va0 + o) % 4096)
  | none => ((dqFrames x e)[v / 4096]?.getD none).map (fun f => 4096 * f + v % 4096)

/-- The 64-byte lines of a DQ, by region offset, in tile-store order. -/
def DqEnt.lines (d : DqEnt) : List Nat :=
  d.rowOffs.flatMap (fun o => (List.range (d.len / 64)).map (fun i => o + 64 * i))

/-- The lines of memory that a DQ accesses. -/
def State.dqLines (s : State) (n j : Nat) (x : DmaDesc) (d : DqEnt) : List Nat :=
  d.lines.filterMap (fun o => (s.dqAddr n j x d.e o).map (· / 64))

/-- The bytes that a read returns; an unbound stash page reads as zeros (R297). -/
def State.dqBytes (s : State) (n j : Nat) (x : DmaDesc) (d : DqEnt) : List Byte :=
  d.lines.flatMap (fun o => match s.dqAddr n j x d.e o with
    | some a => s.memBytes a 64
    | none => List.replicate 64 0)

/-- Write a DQ's tile-store bytes to the region, line by line. -/
def State.dqStore (s : State) (cl : ClusterId) (j : Nat) (x : DmaDesc) (d : DqEnt) : State :=
  (d.lines.zipIdx).foldl (fun (s : State) p =>
    match s.dqAddr cl.die j x d.e p.1 with
    | some a => s.setBytes a ((s.cluster cl).tbytes (d.ts + 64 * p.2) 64)
    | none => s) s

/-- Count a DQ's line accesses in the hot-page tracker (R506). -/
def State.dqTouch (s : State) (n j : Nat) (x : DmaDesc) (d : DqEnt) : State :=
  d.lines.foldl (fun (s : State) o => match s.dqAddr n j x d.e o with | some a => s.touch a 1 | none => s) s

/-! DQ (R204 to R213). -/

/-- The targets of a multicast, or none where it breaks R209. -/
def State.mcTargets (s : State) (cl : ClusterId) (j mc pmask lo hi : Nat) : Option (List ClusterId) :=
  let ts : List (Option ClusterId) :=
    if mc = 1 then (List.range (hi + 1 - lo)).map (fun i => s.byLogical (clPart cl) (lo + i))
    else ((List.range 4).filter (fun m => bit pmask m)).map (fun m =>
      if s.slotOfPart (4 * cl.die + m) = some j then s.byLogical (4 * cl.die + m) lo else none)
  if ts.all Option.isSome && ts.any (fun t => t == some cl) then some (ts.filterMap id) else none

/-- A target set as a number: bit 128 m + l for logical index l of partition m of the die (R209, R211). -/
def State.targetSet (s : State) (ts : List ClusterId) : Nat :=
  ts.foldl (fun a c => a ||| 2 ^ (128 * (c.idx / 72) + s.logical c)) 0

/-- The operands that every target must give alike (R210). -/
def sameJoin (a b : DqEnt) : Bool :=
  a.desc == b.desc && a.off == b.off && a.len == b.len && a.rows == b.rows && a.stride == b.stride && a.e == b.e
    && a.mc == b.mc && a.pmask == b.pmask && a.lo == b.lo && a.hi == b.hi

/-- The joined DQ of another target: the same target set and the same number in it (R211). -/
def State.joinOf (s : State) (t : ClusterId) (cl : ClusterId) (j : Nat) (d : DqEnt) : Option DqEnt :=
  (s.cluster t).dqs.find? (fun x => x.mc ≠ 0 && x.joinNo == d.joinNo &&
    (match s.mcTargets cl j d.mc d.pmask d.lo d.hi, s.mcTargets t j x.mc x.pmask x.lo x.hi with
      | some a, some b => s.targetSet a == s.targetSet b
      | _, _ => false))

/-- Does a joined DQ differ from that of a target that issued earlier (R212)? -/
def State.joinDiffers (s : State) (cl : ClusterId) (j : Nat) (d : DqEnt) (ts : List ClusterId) : Bool :=
  ts.any (fun t => t ≠ cl && (match s.joinOf t cl j d with | some x => !sameJoin x d | none => false))

/-- A DQ enters the port: its number goes to S[RD], and its entry waits for completion.
[DESIGN CHOICE, notes/assumptions/13.md] -/
def State.enterDq (s : State) (cl : ClusterId) (rd : BitVec 5) (d : DqEnt) (joins : List (Nat × Nat)) (out : Bool) : Issue :=
  let c := s.cluster cl
  let c1 := { c with dqseq := d.seq, joins := joins, dqs := if out then c.dqs ++ [d] else c.dqs }
  .ret (s.setCluster cl (c1.setS rd (BitVec.ofNat 64 d.seq)))

/-- The descriptor and stash part of a DQ that has passed its checks (R294 to R304, R310, R311). -/
def State.startDq (s : State) (cl : ClusterId) (j : Nat) (rd : BitVec 5) (x : DmaDesc) (d : DqEnt)
    (joins : List (Nat × Nat)) : Issue :=
  if x.epoched then
    let n := (shardOf x).1
    let h := (shardOf x).2
    match (if d.write then s.epochWrite j n h (b2n d.e) else s.epochRead cl j n h (b2n d.e)) with
    | .raise => .exc 31 d.desc
    | .wait s1 => s1.enterDq cl rd { d with waitsEpoch := true } joins true
    | .go s1 => (s1.addRef n j h).enterDq cl rd { d with ref := true } joins true
  else
    match x.stash with
    | none => s.enterDq cl rd d joins true
    | some n =>
      let pages := (dqPages x d).map (fun k => x.va0 / 4096 + k)
      if d.write then
        match s.stashWrite n j d.desc x.tensor pages with
        | .stored s1 => s1.enterDq cl rd d joins true
        | .dropped s1 => s1.enterDq cl rd d joins false
        | .stopped s1 => .wait s1
      else (s.stashRead cl n j d.desc pages).enterDq cl rd d joins true

/-- DQ (R204 to R213, R294, R310, R311). Checks in the order of R784; a seventeenth outstanding DQ waits.
[DESIGN CHOICE, notes/assumptions/13.md] [DEDUCED, notes/assumptions/15.md] -/
def execDq (cl : ClusterId) (f : Fmt5) (s : State) : Res :=
  s.issue cl (word5 0x38 f) fun c =>
    let fl := f.f4.toNat
    let r1 := c.sn f.f19
    let r2 := c.sn f.f14
    let r3 := c.sn f.f9
    let two := bit fl 2
    let mc := bits r3 63 62
    let j := (s.slotOfCl cl).getD 0
    let d : DqEnt := {
      seq := c.dqseq + 1, desc := bits r1 63 48, write := bit fl 0, e := bit fl 1, ts := bits r1 20 0
      len := bits r2 62 42, off := bits r2 20 0
      rows := if two then bits r3 43 32 + 1 else 1
      stride := if two then bits r3 20 0 else 0
      mc := mc, pmask := bits r3 61 58, lo := bits r3 57 51, hi := bits r3 50 44
      joinNo := 0, waitsEpoch := false, held := none, ref := false, dropped := false, pstep := c.pstep }
    if 8 ≤ fl || bits r1 47 21 ≠ 0 || bits r2 41 21 ≠ 0 || bits r3 31 21 ≠ 0 then excIllegal
    else
      match s.descOf j d.desc with
      | none => .exc 22 d.desc
      | some x =>
        let badDir := if d.write then !bit x.flags 1 else !bit x.flags 0
        let badStash := match x.stash with | some n => n != cl.die | none => false
        let last := d.off + (d.rows - 1) * d.stride + d.len
        if x.length < last || badDir || (d.e && !x.epoched) || mc = 3 || (mc ≠ 0 && d.write) || badStash then
          .exc 22 d.desc
        else if d.ts % 64 ≠ 0 then .exc 19 d.ts
        else if d.len % 64 ≠ 0 || d.len = 0 then .exc 19 d.len
        else if d.off % 64 ≠ 0 then .exc 19 d.off
        else if d.stride % 64 ≠ 0 then .exc 19 d.stride
        else if tileSize < d.ts + d.rows * d.len then .exc 18 (max d.ts tileSize)
        else if epochBars s cl j x d then .exc 31 d.desc
        else if mc = 0 then
          if 16 ≤ c.dqs.length then s.waitQueue cl 4 else s.startDq cl j f.f24 x d c.joins
        else
          match s.mcTargets cl j mc d.pmask d.lo d.hi with
          | none => .exc 23 d.desc
          | some ts =>
            let key := s.targetSet ts
            let k := ((c.joins.find? (fun p => p.1 == key)).map (·.2)).getD 0
            let d1 := { d with joinNo := k }
            if s.joinDiffers cl j d1 ts then .exc 23 d.desc
            else if 16 ≤ c.dqs.length then s.waitQueue cl 4
            else s.startDq cl j f.f24 x d1 ((c.joins.filter (fun p => p.1 ≠ key)) ++ [(key, k + 1)])
where
  /-- EPOCH comes before MULTICAST in R784. -/
  epochBars (s : State) (cl : ClusterId) (j : Nat) (x : DmaDesc) (d : DqEnt) : Bool :=
    x.epoched && (match (if d.write then s.epochWrite j (shardOf x).1 (shardOf x).2 (b2n d.e)
        else s.epochRead cl j (shardOf x).1 (shardOf x).2 (b2n d.e)) with
      | .raise => true
      | _ => false)

/-! Completion and DWAIT (R214, R215). -/

/-- Has the DQ that a DWAIT names completed, or every DQ up to it? -/
def ClusterSt.dqDone (c : ClusterSt) (seq : Nat) (all : Bool) : Bool :=
  if all then !(c.dqs.any (fun d => decide (d.seq ≤ seq))) else !(c.dqs.any (fun d => d.seq == seq))

/-- A DWAIT whose DQs have completed resumes (R215). -/
def State.wakeDwait (s : State) (cl : ClusterId) : State :=
  match (s.cluster cl).wait with
  | .dwait seq all => if s.run cl = 4 && (s.cluster cl).dqDone seq all then s.endWait cl else s
  | _ => s

/-- DWAIT (R215): wait for the DQ numbered in S[RS1], or with ALL for every DQ before it. CDn_CL_WAIT.WHICH of the wait is 0: the spec
gives a DQ no slot number.
[DESIGN CHOICE, notes/assumptions/13.md] -/
def execDwait (cl : ClusterId) (f : Fmt5) (s : State) : Res :=
  s.issue cl (word5 0x39 f) fun c =>
    let all := bit f.f4.toNat 0
    let v := if all then c.dqseq else c.sn f.f19
    if f.f24 ≠ 0 || f.f14 ≠ 0 || f.f9 ≠ 0 || 2 ≤ f.f4.toNat then excIllegal
    else if c.dqseq < v then .exc 24 (v % 2 ^ 21)
    else if (v = 0 && !all) || c.dqDone v all then .ret s
    else .wait (((s.setCluster cl { c with wait := .dwait v all }).showWait cl 3 0 (v % 2 ^ 40)).setRun cl 4)

/-- Take a completed DQ out of its cluster. -/
def State.endDq (s : State) (cl : ClusterId) (j : Nat) (d : DqEnt) : State :=
  let c := s.cluster cl
  ((s.dropRef j d).setCluster cl { c with dqs := c.dqs.filter (fun x => x.seq ≠ d.seq) }).wakeDwait cl

/-- Deliver the bytes of a read to one target's tile store. -/
def State.deliver (s : State) (t : ClusterId) (ts : Nat) (bs : List Byte) : State :=
  s.setCluster t ((s.cluster t).setT ts bs)

/-- The clusters and DQs that complete with this one: itself, or every target of its multicast once all have issued (R211). -/
def State.dqGroup (s : State) (cl : ClusterId) (j : Nat) (d : DqEnt) : Option (List (ClusterId × DqEnt)) :=
  if d.mc = 0 then some [(cl, d)]
  else
    match s.mcTargets cl j d.mc d.pmask d.lo d.hi with
    | none => some [(cl, d)]
    | some ts =>
      let g := ts.map (fun t => (t, if t = cl then some d else s.joinOf t cl j d))
      if g.all (fun p => p.2.isSome) then some (g.filterMap (fun p => p.2.map (fun x => (p.1, x)))) else none

/-- DQ_COMPLETE: every byte stands at its destination (R208, R211, R214). A page whose entry a shootdown made invalid is
walked again first; a fault holds the DQ in a fault record.
[DESIGN CHOICE, notes/assumptions/13.md] -/
def execDqComplete (cl : ClusterId) (seq : Nat) (s : State) : Res :=
  match (s.cluster cl).dqs.find? (fun d => d.seq == seq), s.slotOfCl cl with
  | some d, some j =>
    match s.descOf j d.desc with
    | none => ok s
    | some x =>
      let heldNow := s.heldOff d.held
      if s.stopped || d.waitsEpoch || heldNow then ok s
      else
        match s.dqGroup cl j d with
        | none => ok s
        | some g =>
          let walked := if x.stash.isSome then (s, none) else s.dqWalk j d (dqVa x d.e) (dqPages x d)
          match walked with
          | (s1, some (vp, cause, level, entry)) =>
            if s1.stopped then ok s1 else
            let (s2, r) := s1.raiseFault j vp d.write cause level entry (40 + cl.die)
            let c := s2.cluster cl
            ok (s2.setCluster cl { c with dqs := c.dqs.map (fun y =>
              if y.seq = seq then { y with held := some (r.getD 64, false) } else y) })
          | (s1, none) =>
            match s1.descOf j d.desc with
            | none => ok s1
            | some x1 =>
              let ls := s1.dqLines cl.die j x1 d
              s1.access (if d.write then [] else ls) (if d.write then ls else []) fun s1 =>
                let s2 := s1.dqTouch cl.die j x1 d
                let s3 := if d.write then s2.dqStore cl j x1 d
                  else
                    let bs := s2.dqBytes cl.die j x1 d
                    g.foldl (fun (s : State) p => s.deliver p.1 p.2.ts bs) s2
                ok (g.foldl (fun (s : State) p => s.endDq p.1 j p.2) s3)
  | _, _ => ok s

/-! Cluster faults and rotations (R115 to R121, R785). -/

/-- Clusters of partition p with a role. -/
def State.countRole (s : State) (p role : Nat) : Nat := ((partClusters p).filter (fun c => s.role c == role)).length

/-- CDn_PART_q and CDn_ENABLE_w show the partition's clusters. -/
def State.showPart (s : State) (p : Nat) : State :=
  let n := p / 4
  let q := p % 4
  let spare := ((partClusters p).filter (fun c => s.role c == 1 && (s.cluster c).tested)).length
  let s1 := ((s.wr (F.CD_PART_HEALTHY n q) (72 - s.countRole p 3)).wr (F.CD_PART_SPARE n q) spare).wrB
    (F.CD_PART_AVAIL n q) (decide (s.countRole p 3 ≤ 4))
  (partClusters p).foldl (fun (s : State) c =>
    let w := s.rd (F.CD_ENABLE_ACTIVE n (c.idx / 64))
    let b := 2 ^ (c.idx % 64)
    let on := s.inService c
    s.wr (F.CD_ENABLE_ACTIVE n (c.idx / 64)) (if on then w ||| b else if w.testBit (c.idx % 64) then w - b else w)) s1

/-- PARTITION_UNAVAILABLE, once, when a partition has fewer than 68 clusters that are not FAILED (R117). -/
def State.partCheck (s : State) (p : Nat) : State :=
  let before := s.rd (F.CD_PART_AVAIL (p / 4) (p % 4))
  let s1 := s.showPart p
  if before = 1 && s1.rd (F.CD_PART_AVAIL (p / 4) (p % 4)) = 0 then
    s1.emit ⟨2, 0x0C23, srcOf (p / 4) (p % 4), none, place 1 0 (p % 4) ||| place 8 2 (s1.rd (F.CD_PART_HEALTHY (p / 4) (p % 4)))⟩
  else s1

/-- A cluster becomes FAILED with CLUSTER_FAULT (R116): its record stops the job it was ACTIVE in. -/
def State.failCluster (s : State) (cl : ClusterId) (cause addr : Nat) : State :=
  let j := s.slotOfCl cl
  let active := s.inService cl && (match j with | some j => s.slotState j ≠ 0 | none => false)
  let e : Ev := ⟨if active then 3 else 1, 0x0C20, srcOf cl.die cl.idx, if active then j.bind s.jobOf else none,
    place 7 0 cause ||| place 28 8 addr ||| place 35 29 (s.logical cl)⟩
  let s1 := ((s.wr (F.CL_FAULT_CODE cl.die cl.idx) 0x0C20).wr (F.CL_FAULT_CAUSE cl.die cl.idx) cause).wr
    (F.CL_FAULT_ADDR cl.die cl.idx) addr
  let s2 := if cause = 5 then s1.inc (F.CD_ECC_FAULTS cl.die) else (s1.inc (F.CD_ECC_FAULTS cl.die)).inc (F.CD_ECC_UE cl.die)
  let s3 := if active then ((s2.setRun cl 6).abandonCl cl) else s2
  let s4 := match active, j with
    | true, some j => s3.failJob j e
    | _, _ => s3.emit e
  let s5 := if s.inService cl then s4.setCluster cl { s4.cluster cl with lostIdx := s.logical cl } else s4
  ((s5.wr (F.CL_STATUS_ROLE cl.die cl.idx) 3).wr (F.CL_STATUS_LOGICAL cl.die cl.idx) 127).partCheck (clPart cl)

/-- An error in a cluster (R91, R116). Causes 1 to 5 are uncorrectable, and raise CLUSTER_FAULT; a FAILED cluster stays FAILED.
As the command's cause, 6 and 7 stand for a corrected single-bit error of the tile store and of the accumulator buffer, which is
counted and has no other effect.
[DESIGN CHOICE, notes/assumptions/99.md] -/
def execClusterFault (cl : ClusterId) (cause addr : Nat) (s : State) : Res :=
  if cause = 6 then ok ((s.inc (F.CL_ECC_TS_CE cl.die cl.idx)).inc (F.CD_ECC_TS_CE cl.die))
  else if cause = 7 then ok ((s.inc (F.CL_ECC_ACC_CE cl.die cl.idx)).inc (F.CD_ECC_ACC_CE cl.die))
  else if s.role cl = 3 then ok s
  else ok (s.failCluster cl cause addr)

/-- The better of two by a key, the earlier one among equals.
[DEDUCED, notes/assumptions/43.md] -/
def bestBy (key : ClusterId → Nat) : List ClusterId → Option ClusterId
  | [] => none
  | c :: cs =>
    match bestBy key cs with
    | none => some c
    | some d => if key c ≤ key d then some c else some d

/-- Choose the pair of a partition at the drain mark and start the pre-copy (R119, R734): the ACTIVE cluster with the oldest
last self-test and the RESERVE cluster with the most recent pass, the lowest index among equals.
[DEDUCED, notes/assumptions/43.md] -/
def State.rotStart (s : State) (j p : Nat) : State :=
  let out := bestBy (fun c => (s.cluster c).lastTest) ((partClusters p).filter (fun c => s.role c == 0))
  let inn := bestBy (fun c => 2 ^ 64 - (s.cluster c).lastTest)
    ((partClusters p).filter (fun c => s.role c == 1 && (s.cluster c).tested))
  match out, inn with
  | some o, some i => (s.wr (F.CL_STATUS_ROLE o.die o.idx) 4).setRot p (some ⟨o.idx, i.idx, s.step j, false⟩)
  | _, _ => s

/-- At the drain mark of step s with ROTATE_EVERY nonzero and s mod ROTATE_EVERY zero (R734).
[DEDUCED, notes/assumptions/43.md] -/
def State.rotMark (s : State) (j : Nat) : State :=
  let e := s.rd F.RES_CFG_ROTATE_EVERY
  if e ≠ 0 && s.step j % e = 0 then (s.partsOf j).foldl (fun (s : State) p => s.rotStart j p) s else s

/-- Is the cluster's array idle (R121): no product is in it, the head of the WGQ does not run, and the merge latches are free?
[DESIGN CHOICE, notes/assumptions/99.md] -/
def ClusterSt.arrayIdle (c : ClusterSt) : Bool :=
  c.arrQ.isEmpty && c.chunk.isNone && c.latch.isNone && !c.arrOpen && (match c.wgq with | e :: _ => e.wstate != 2 | [] => true)

/-- CLUSTER_ROTATION: at the armed commit lap the hold begins, or the rotation is declined (R120, R121). Whether the pre-copy
is complete depends on the bank cycles that were idle: a free value. Of several reasons to decline the first of R121's order shows.
[DEDUCED, notes/assumptions/43.md] [DESIGN CHOICE, notes/assumptions/99.md] -/
def execClusterRotation (n q : Nat) (s : State) : Res :=
  let p := 4 * n + q
  match s.rot p, s.due 4 p with
  | some r, some _ =>
    if !s.turn 6 || s.stopped then ok s else
    let s0 := (s.dropArms 4 p).tick
    let o : ClusterId := ⟨n, r.out⟩
    let i : ClusterId := ⟨n, r.inn⟩
    if s.freeNat 0 % 2 = 1 then ok (s0.rotDecline p r 0).latch
    else if !(s.cluster o).arrayIdle then ok (s0.rotDecline p r 1).latch
    else if s.role i ≠ 1 || !(s.cluster i).tested then ok (s0.rotDecline p r 2).latch
    else ok (s0.setRot p (some { r with holding := true })).latch
  | _, _ => ok s

/-- The registers that move with the logical index at a rotation (R785), by offset in the cluster block; CDn_CL_STATUS moves
only its RUN, NF, MERGING and PC fields. -/
def State.moveRegs (s : State) (o i : ClusterId) : State :=
  let base (c : ClusterId) : Nat := Reg.CL_STATUS c.die c.idx
  let whole := [Reg.CL_SLOTS o.die o.idx, Reg.CL_BUSY o.die o.idx, Reg.CL_STALL o.die o.idx, Reg.CL_SEQCNT o.die o.idx,
    Reg.CL_EXC o.die o.idx, Reg.CL_WAIT o.die o.idx, Reg.CL_RETIRED o.die o.idx, Reg.CL_VSTATUS o.die o.idx,
    Reg.CL_VCNT o.die o.idx, Reg.CL_WGQ o.die o.idx]
  let s1 := whole.foldl (fun (s : State) (off : Nat) =>
    (s.setReg (off - base o + base i) (s.reg off)).setReg off (resetWord off)) s
  let mv (s : State) (f : ClusterId → Fld) : State := (s.wr (f i) (s.rd (f o))).wr (f o) 0
  mv (mv (mv (mv s1 (fun c => F.CL_STATUS_RUN c.die c.idx)) (fun c => F.CL_STATUS_NF c.die c.idx))
    (fun c => F.CL_STATUS_MERGING c.die c.idx)) (fun c => F.CL_STATUS_PC c.die c.idx)

/-- CLUSTER_ROTATED: once the vector and readout work of the outgoing cluster has drained, the state and the logical index stand
at the incoming cluster (R120, R785). A cluster that failed during the hold stays FAILED (R116), and nothing moves: the rotation shows as declined, with
the reason of an incoming cluster that is not fit, 2, for R121 gives none.
[DESIGN CHOICE, notes/assumptions/104.md] -/
def execClusterRotated (n q hold : Nat) (s : State) : Res :=
  let p := 4 * n + q
  match s.rot p with
  | none => ok s
  | some r =>
    let o : ClusterId := ⟨n, r.out⟩
    let i : ClusterId := ⟨n, r.inn⟩
    let co := s.cluster o
    let ci := s.cluster i
    if !r.holding then ok s
    else if s.role o ≠ 4 || s.role i ≠ 1 then ok (s.rotDecline p r 2)
    else if !co.readQ.isEmpty || !co.castQ.isEmpty then ok s
    else
      let s1 := (s.setCluster i { co with tested := ci.tested, lastTest := ci.lastTest, lostIdx := ci.lostIdx }).setCluster o
        { ClusterSt.init with tested := co.tested, lastTest := co.lastTest, lostIdx := co.lostIdx }
      let l := s.logical o
      let s2 := (((s1.wr (F.CL_STATUS_LOGICAL n r.inn) l).wr (F.CL_STATUS_LOGICAL n r.out) 127).wr
        (F.CL_STATUS_ROLE n r.inn) 0).wr (F.CL_STATUS_ROLE n r.out) 1
      let s3 := s2.shardList.foldl (fun (s : State) k =>
        let v := s.shard k.1 k.2.1 k.2.2
        s.setShard k.1 k.2.1 k.2.2 { v with holders := v.holders.map (fun x => if x = clKey o then clKey i else x) }) s2
      ok (((((s3.moveRegs o i).setRot p none).showPart p)).rotRecord p r (min hold 64) none)

/-- DRAIN_MARK: from the drain mark of slot j's step, WGQ heads come first; clusters that still hold WGQ entries are reported
once (R288); the Resilience block chooses its rotations (R734). -/
def execDrainMark (j : Nat) (s : State) : Res :=
  let d := s.rd (F.HRD_MARK_H j) - s.rd (F.HRD_SCHED_DRAIN_LEAD j)
  if s.slotState j = 2 && !(s.slot j).drained && d ≤ s.now then
    let s1 := s.setSlot j { s.slot j with drained := true }
    let late := (s.clustersOf j).filter (fun c => !(s.cluster c).wgq.isEmpty)
    let s1 := s1.rotMark j
    let s2 := late.foldl (fun (s : State) c => s.setCluster c { s.cluster c with drainPrio := true }) s1
    match late with
    | [] => ok s2
    | c :: _ =>
      ok ((s2.inc (F.CD_BWD_CNT_DRAIN_LATE c.die j)).emit ⟨2, 0x0C06, srcOf c.die c.idx, s.jobOf j,
        place 8 0 c.idx ||| place 15 9 (s.cluster c).wgq.length ||| place 24 16 (satTo 9 late.length) ||| place 68 25 (s.step j)⟩)
  else ok s

end Sys2Proof.Machine
end

