-- ==== Sys2Proof/Machine/Load.lean ====
section
/-!
DEFINITION. Step-program containers (R234 to R240, R292, R293, R307, R318, R323): what a container holds, the checks of a
load in their order, translation of its regions, and what a load leaves in the clusters.
-/

namespace Sys2Proof.Machine

/-! Reading a container. -/

/-- `n` bytes from offset `o` of a container whose pages stand in `fr`, as a little-endian number. -/
def State.cnat (s : State) (fr : List Nat) (o n : Nat) : Nat :=
  ofLe ((List.range n).map (fun i => s.memByte (4096 * (fr[(o + i) / 4096]?.getD 0) + (o + i) % 4096)))

/-- Bytes of a container. -/
def State.cbytes (s : State) (fr : List Nat) (o n : Nat) : List Byte :=
  (List.range n).map (fun i => s.memByte (4096 * (fr[(o + i) / 4096]?.getD 0) + (o + i) % 4096))

/-- A section of the section table: type, offset, size, count. -/
structure Sec where
  ty : Nat
  off : Nat
  size : Nat
  cnt : Nat
  deriving DecidableEq, Repr

/-- The used entries of the section table, with the entry's own offset. -/
def State.secTable (s : State) (fr : List Nat) : List (Nat × Sec) :=
  ((List.range 8).map (fun i =>
    let e := 0x20 + 16 * i
    (e, (⟨s.cnat fr (e + 12) 2, s.cnat fr e 8, s.cnat fr (e + 8) 4, s.cnat fr (e + 14) 2⟩ : Sec)))).filter (fun p => p.2.ty ≠ 0)

/-- The section of a type. -/
def secOf (t : List (Nat × Sec)) (ty : Nat) : Option Sec := (t.find? (fun p => p.2.ty == ty)).map (·.2)

/-- Pages that `n` bytes at `va` lie in. -/
def pagesOf (va n : Nat) : Nat := (va + n - 1) / 4096 - va / 4096 + 1

/-- The container offset of each DMA descriptor: the 8-byte offsets count from the start of the section
(DEDUCED, notes/assumptions/22.md). -/
def State.dmaOffs (s : State) (fr : List Nat) (t : List (Nat × Sec)) : List Nat :=
  match secOf t 4 with
  | none => []
  | some x => (List.range x.cnt).map (fun k => x.off + s.cnat fr (x.off + 8 * k) 8)

/-- The ranges that DIGEST takes as zero: PAGES and FRAMES of every DMA descriptor (R234). -/
def State.digestHoles (s : State) (fr : List Nat) (offs : List Nat) : List (Nat × Nat) :=
  offs.flatMap (fun d => [(d + 0x14, 2), (d + 64, if bit (s.cnat fr (d + 0x16) 2) 2 then 8192 else 4096)])

/-- The digest of a container (R234). -/
def State.contDigest (s : State) (fr : List Nat) (size : Nat) (offs : List Nat) : List Byte :=
  let holes := s.digestHoles fr offs
  sha256 ((List.range (size - 0x100)).map (fun i =>
    let o := 0x100 + i
    if holes.any (fun h => decide (h.1 ≤ o) && decide (o < h.1 + h.2)) then 0
    else s.memByte (4096 * (fr[o / 4096]?.getD 0) + o % 4096)))

/-! Checks (R235 to R239, R143, R323). -/

/-- Why a load is refused: PROGRAM_REJECT with its reason and offset, RECIPE_REJECT with its reason and tensor, or TIE_REJECT
with its reason, group, tensor and offset. -/
inductive LoadErr where
  | prog (reason off : Nat)
  | recipe (reason tensor : Nat)
  | tie (reason group tensor off : Nat)
  deriving DecidableEq, Repr

/-- An error if a condition holds. -/
def errIf (b : Bool) (e : LoadErr) : Option LoadErr := if b then some e else none

/-- The first error of a list of checks. -/
def firstErr : List (Option LoadErr) → Option LoadErr
  | [] => none
  | some e :: _ => some e
  | none :: es => firstErr es

/-- PARTS, RECIPE, the zero bytes of the header and the section table (R238 steps 2 and 3, R235). -/
def State.headErr (s : State) (j : Nat) (fr : List Nat) (size : Nat) (t : List (Nat × Sec)) : Option LoadErr :=
  let parts := s.cnat fr 0x0C 4
  let rv := s.cnat fr 0x18 8
  firstErr ([
    errIf (parts ≠ (s.partsOf j).length) (.prog 3 0x0C),
    errIf (rv % 4 ≠ s.rd (F.NUM_JOB_CFG_RECIPE_SET j)) (.prog 4 0x18),
    errIf (s.cnat fr 0x0A 2 ≠ 0) (.prog 5 0x0A),
    errIf (4 ≤ rv) (.prog 5 0x18),
    errIf (s.cnat fr 0xA0 64 ≠ 0) (.prog 5 0xA0)]
    ++ t.map (fun p => errIf (decide (6 < p.2.ty) || p.2.off % 64 != 0 || decide (p.2.off < 0x100)
        || decide (size < p.2.off + p.2.size) || decide (1 < (t.filter (fun q => q.2.ty == p.2.ty)).length)) (.prog 5 p.1))
    ++ [errIf ((secOf t 1).isNone || (secOf t 2).isNone || (secOf t 3).isNone) (.prog 5 0x20)])

/-- Image k of CODE: its offset in the section and its length. -/
def State.imageAt (s : State) (fr : List Nat) (x : Sec) (k : Nat) : Nat × Nat :=
  (s.cnat fr (x.off + 8 * k) 4, s.cnat fr (x.off + 8 * k + 4) 4)

/-- The TSINIT images: offset of the header, tile-store address, length. Each header is 64-byte aligned. -/
def State.tsImages (s : State) (fr : List Nat) (base : Nat) : Nat → Nat → List (Nat × Nat × Nat)
  | 0, _ => []
  | n + 1, p =>
    let len := s.cnat fr (base + p + 4) 4
    (p, s.cnat fr (base + p) 4, len) :: s.tsImages fr base n ((p + 16 + len + 63) / 64 * 64)

/-- The TSINIT images of a container. -/
def State.tsOf (s : State) (fr : List Nat) (t : List (Nat × Sec)) : List (Nat × Nat × Nat) :=
  match secOf t 6 with
  | none => []
  | some x => s.tsImages fr x.off x.cnt 0

/-- CODE, TSINIT and MAP (R235, R238 step 3). -/
def State.mapErr (s : State) (fr : List Nat) (parts : Nat) (t : List (Nat × Sec)) : Option LoadErr :=
  match secOf t 1, secOf t 2 with
  | some c, some m =>
    let ts := s.tsOf fr t
    let tsec := (secOf t 6).getD ⟨6, 0, 0, 0⟩
    firstErr ([errIf (c.cnt = 0 || decide (4096 < c.cnt) || decide (c.size < 8 * c.cnt)) (.prog 5 c.off)]
      ++ (List.range c.cnt).map (fun k =>
        let im := s.imageAt fr c k
        errIf (decide (65536 < im.2) || im.2 % 4 != 0 || decide (c.size < im.1 + im.2)) (.prog 6 (c.off + 8 * k)))
      ++ ts.map (fun p => errIf (decide (tsec.size < p.1 + 16 + p.2.2) || decide (tileSize < p.2.1 + p.2.2)
        || s.cnat fr (tsec.off + p.1 + 8) 8 != 0) (.prog 6 (tsec.off + p.1)))
      ++ [errIf (m.cnt ≠ 68 * parts || decide (m.size < 8 * m.cnt)) (.prog 5 m.off)]
      ++ (List.range m.cnt).map (fun k =>
        let e := s.cnat fr (m.off + 8 * k) 8
        let img := bits e 15 0
        let ti := bits e 47 32
        errIf (bits e 31 30 != 0 || bits e 63 48 != 0 || decide (c.cnt ≤ img)
          || decide ((s.imageAt fr c img).2 ≤ 4 * bits e 29 16) || (ti != 0xFFFF && decide (ts.length ≤ ti)))
          (.prog 6 (m.off + 8 * k))))
  | _, _ => none

/-- The die whose stash window of slot j holds a region wholly (R292). -/
def State.stashDie (s : State) (j va len : Nat) : Option Nat :=
  (List.range 8).find? (fun n =>
    let b := 2 ^ 21 * s.rd (F.CD_STASH_WIN_BASE n j)
    let z := 2 ^ 30 * s.rd (F.CD_STASH_WIN_SIZE n j)
    decide (b ≤ va) && decide (va + len ≤ b + z))

/-- The DMA descriptor at a container offset, its frames still invalid (R236, R292).
[DEDUCED, notes/assumptions/22.md] -/
def State.dmaAt (s : State) (j : Nat) (fr : List Nat) (d : Nat) : DmaDesc :=
  let va0 := s.cnat fr d 8
  let len := s.cnat fr (d + 0x10) 4
  let flags := s.cnat fr (d + 0x16) 2
  let va1 := s.cnat fr (d + 8) 8
  ⟨va0, va1, len, flags, s.cnat fr (d + 0x18) 4, s.cnat fr (d + 0x1C) 4,
    List.replicate (pagesOf va0 len) none, if bit flags 2 then List.replicate (pagesOf va1 len) none else [],
    s.stashDie j va0 len, d⟩

/-- DMA descriptors (R236, R237, R292, R307). -/
def State.dmaErr (s : State) (j : Nat) (fr : List Nat) (t : List (Nat × Sec)) (offs : List Nat) : Option LoadErr :=
  match secOf t 4 with
  | none => none
  | some x =>
    firstErr (errIf (decide (x.size < 8 * x.cnt)) (.prog 5 x.off) :: offs.map (fun d =>
      let y := s.dmaAt j fr d
      let ep := y.epoched
      let badVa (v : Nat) : Bool := v % 64 != 0 || decide (2 ^ 48 ≤ v) || decide (512 < pagesOf v y.length)
      errIf (decide (x.off + x.size < d + 64 + 4096 * (1 + b2n ep)) || decide (8 ≤ y.flags) || decide (2 ^ 20 ≤ y.tensor)
        || s.cnat fr (d + 0x20) 32 != 0 || y.length % 64 != 0 || decide (y.length < 64) || decide (2 ^ 21 < y.length)
        || badVa y.va0 || (if ep then badVa y.va1 || decide (2 ^ 11 ≤ y.shard) else y.va1 != 0 || y.shard != 0)
        || (ep && y.stash.isSome)) (.prog 7 d)))

/-- The first broken rule of one tensor descriptor, in the order of R143; `before` are the earlier descriptors.
[DEDUCED, notes/assumptions/95.md] -/
def State.tensorErr (s : State) (j : Nat) (before : List Nat) (e : Nat) : Option LoadErr :=
  let kind := bits e 43 41
  let rec_ := (s.reg (Reg.NUM_RECIPE (s.rd (F.NUM_JOB_CFG_RECIPE_SET j)) kind)).toNat
  let t := bits e 63 44
  let mon (x : Nat) : Bool := bits x 43 41 == 2 || bits x 43 41 == 3
  firstErr [
    errIf (decide (6 ≤ kind)) (.recipe 5 t),
    errIf (bits e 37 16 ≠ 0) (.recipe 6 t),
    errIf (bit e 39 && !bit rec_ 51) (.recipe 0 t),
    errIf (bit e 38 && !bit rec_ 49) (.recipe 1 t),
    errIf (bit e 38 && decide (8 ≤ (before.filter (fun x => bit x 38)).length)) (.recipe 2 t),
    errIf (mon e && (decide (s.rd (F.NUM_DARK_CFG_ENTRIES j) ≤ bits e 15 0)
      || before.any (fun x => mon x && bits x 15 0 == bits e 15 0))) (.recipe 3 t),
    errIf (before.any (fun x => bits x 63 44 == t)) (.recipe 4 t)]

/-- Tensor descriptors in table order (R143). -/
def State.tensorsErr (s : State) (j : Nat) : List Nat → List Nat → Option LoadErr
  | _, [] => none
  | before, e :: es =>
    match s.tensorErr j before e with
    | some x => some x
    | none => s.tensorsErr j (before ++ [e]) es

/-- The tie declarations of a container, with the offset of each entry (R318). -/
def State.tieEntries (s : State) (fr : List Nat) (t : List (Nat × Sec)) : List (Nat × TieGroup) :=
  match secOf t 5 with
  | none => []
  | some x => (List.range x.cnt).map (fun i =>
    let o := x.off + 64 * i
    (o, ⟨s.cnat fr o 1, s.cnat fr (o + 1) 1, s.cnat fr (o + 2) 2, s.cnat fr (o + 4) 4, s.cnat fr (o + 8) 4 % 2 ^ 20,
      (List.range (min 12 (s.cnat fr (o + 12) 2))).map (fun k => s.cnat fr (o + 16 + 4 * k) 4 % 2 ^ 20)⟩))

/-- Slots that a die reserves as TIE in every cluster: T of R319. -/
def State.tieSlots (s : State) (j : Nat) (ties : List TieGroup) (die : Nat) : Nat :=
  tieBelow ties die 256 (s.dieClusters j die).length

/-- Kind of a tensor in the table. -/
def kindOf (ts : List Nat) (tensor : Nat) : Option Nat := (ts.find? (fun e => bits e 63 44 == tensor)).map (fun e => bits e 43 41)

/-- Do two EPOCHED descriptors overlap in virtual range (R323 reason 3)? -/
def epOverlap (a b : DmaDesc) : Bool :=
  let ra := [(a.va0, a.length), (a.va1, a.length)]
  let rb := [(b.va0, b.length), (b.va1, b.length)]
  ra.any (fun p => rb.any (fun q => decide (p.1 < q.1 + q.2) && decide (q.1 < p.1 + p.2)))

/-- Two different W tensors whose EPOCHED descriptors overlap without a common group: the later descriptor. -/
def untied (tens : List Nat) (ties : List TieGroup) : List DmaDesc → Option DmaDesc
  | [] => none
  | d :: ds =>
    match ds.find? (fun e => d.epoched && e.epoched && d.tensor != e.tensor && kindOf tens d.tensor == some 0
        && kindOf tens e.tensor == some 0 && epOverlap d e
        && !(ties.any (fun g => g.members.contains d.tensor && g.members.contains e.tensor))) with
    | some e => some e
    | none => untied tens ties ds

/-- Tie declarations (R323). -/
def State.tieErr (s : State) (j : Nat) (fr : List Nat) (t : List (Nat × Sec)) (tens : List Nat) (dma : List DmaDesc) :
    Option LoadErr :=
  let es := s.tieEntries fr t
  let gs := es.map (·.2)
  let at_ (r : Nat) (p : Nat × TieGroup) (tensor : Nat) : LoadErr := .tie r (p.2.group % 8) tensor p.1
  let repeated (p : Nat × TieGroup) : Bool := decide (1 < (gs.filter (fun g => g.group == p.2.group)).length)
  firstErr (es.map (fun p => errIf (decide (8 < gs.length) || decide (8 ≤ p.2.group) || repeated p) (at_ 0 p p.2.sum))
    ++ es.map (fun p =>
      let mem := s.cnat fr (p.1 + 12) 2
      errIf (p.2.tiles = 0 || decide (2048 < p.2.tiles) || decide (p.2.uses < 2) || decide (64 < p.2.uses)
        || mem = 0 || decide (12 < mem)) (at_ 1 p p.2.sum))
    ++ es.map (fun p => errIf ((s.dieClusters j p.2.home).isEmpty || decide (8 < s.tieSlots j gs p.2.home)) (at_ 2 p p.2.sum))
    ++ [(untied tens gs dma).map (fun d => .tie 3 0 d.tensor d.offset)]
    ++ es.map (fun p => (p.2.members.find? (fun m => kindOf tens m != some 0)).map (fun m => at_ 4 p m))
    ++ es.map (fun p => errIf (kindOf tens p.2.sum != some 3) (at_ 4 p p.2.sum)))

/-! The load itself. -/

/-- What one attempt at a load comes to. -/
inductive LoadOut where
  /-- A check refuses it. -/
  | refused (s : State) (e : LoadErr)
  /-- A walk faults: context, page, whether for a write, cause, level and entry. -/
  | fault (s : State) (ctx vpage : Nat) (write : Bool) (cause level entry : Nat)
  /-- Every step but the record is done; the program's frames are counted. -/
  | done (s : State)
  /-- The home of a line that it reads is busy: the attempt is made again. -/
  | busy
  /-- A read has stopped the coherence domain. -/
  | stop (s : State)

/-- Walk `n` pages of a context; their frames, or the fault of the first that faults. -/
def State.walkList (s : State) (ctx vpage : Nat) (write : Bool) : Nat → State × (List Nat ⊕ (Nat × Nat × Nat × Nat))
  | 0 => (s, .inl [])
  | n + 1 =>
    match s.walkAt ctx vpage write with
    | (s1, .fault c l e) => (s1, .inr (vpage, c, l, e))
    | (s1, .entry e) =>
      match s1.walkList ctx (vpage + 1) write n with
      | (s2, .inr x) => (s2, .inr x)
      | (s2, .inl fs) => (s2, .inl (entryFrame e :: fs))

/-- The first of `n` pages of a stash region whose entry does not carry the job's ID, with its cause, level and entry (R293). -/
def State.stashIds (s : State) (j vpage : Nat) : Nat → State × Option (Nat × Nat × Nat × Nat)
  | 0 => (s, none)
  | n + 1 =>
    match s.walkWith j vpage (s.stashLeaf j) false with
    | (s1, .fault c l e) => (s1, some (vpage, c, l, e))
    | (s1, .entry _) => s1.stashIds j (vpage + 1) n

/-- Walk the regions of a program's DMA descriptors: as a read where FLAGS[0] is set or neither flag is, and as a write where
FLAGS[1] is set (R236). Of a stash descriptor only the job's ID is checked, and its frames stay invalid (R293). -/
def State.walkDescs (s : State) (j : Nat) : List DmaDesc → State × (List DmaDesc ⊕ (Bool × Nat × Nat × Nat × Nat))
  | [] => (s, .inl [])
  | d :: ds =>
    let rest (s : State) (d : DmaDesc) : State × (List DmaDesc ⊕ (Bool × Nat × Nat × Nat × Nat)) :=
      match s.walkDescs j ds with
      | (s1, .inr x) => (s1, .inr x)
      | (s1, .inl more) => (s1, .inl (d :: more))
    if d.stash.isSome then
      match s.stashIds j (d.va0 / 4096) (pagesOf d.va0 d.length) with
      | (s1, some x) => (s1, .inr (bit d.flags 1 && !bit d.flags 0, x))
      | (s1, none) => rest s1 d
    else
    let ways := (if bit d.flags 0 || !bit d.flags 1 then [false] else []) ++ (if bit d.flags 1 then [true] else [])
    let one (s : State) (va : Nat) : State × (List Nat ⊕ (Bool × Nat × Nat × Nat × Nat)) :=
      ways.foldl (fun (acc : State × (List Nat ⊕ (Bool × Nat × Nat × Nat × Nat))) w => match acc with
        | (s, .inr x) => (s, .inr x)
        | (s, .inl _) => match s.walkList j (va / 4096) w (pagesOf va d.length) with
          | (s1, .inr x) => (s1, .inr (w, x))
          | (s1, .inl r) => (s1, .inl r)) (s, .inl [])
    match one s d.va0 with
    | (s1, .inr x) => (s1, .inr x)
    | (s1, .inl f0) =>
      match (if d.epoched then one s1 d.va1 else (s1, .inl [])) with
      | (s2, .inr x) => (s2, .inr x)
      | (s2, .inl f1) => rest s2 { d with frames0 := f0.map some, frames1 := f1.map some }

/-- Write PAGES and FRAMES of a descriptor in place (R236). -/
def State.writeFrames (s : State) (p : Program) (d : DmaDesc) : State :=
  let put (s : State) (o n v : Nat) : State :=
    (List.range n).foldl (fun (s : State) i => s.write (p.addr (o + i)) [BitVec.ofNat 8 (v >>> (8 * i))]) s
  let area (s : State) (o : Nat) (fs : List (Option Nat)) : State :=
    (List.range 512).foldl (fun (s : State) k =>
      put s (o + 8 * k) 8 (match fs[k]?.getD none with | some f => frameWord f | none => 0)) s
  let s1 := area (put s (d.offset + 0x14) 2 d.frames0.length) (d.offset + 64) d.frames0
  if d.epoched then area s1 (d.offset + 64 + 4096) d.frames1 else s1

/-- Put a cluster's image, its entry and its TSINIT bytes into place; every other byte and every slot is cleared, and the tie
slots read TIE (R235, R238 step 5, R319). -/
def State.loadCluster (s : State) (fr : List Nat) (t : List (Nat × Sec)) (ord : Nat) (cl : ClusterId) (tie : Nat) : State :=
  match secOf t 1, secOf t 2 with
  | some c, some m =>
    let e := s.cnat fr (m.off + 8 * ord) 8
    let im := s.imageAt fr c (bits e 15 0)
    let ti := bits e 47 32
    let old := s.cluster cl
    let c1 := { ClusterSt.init with
      code := s.cbytes fr (c.off + im.1) im.2, entry := 4 * bits e 29 16, tested := old.tested, lastTest := old.lastTest }
    let c2 := match (if ti = 0xFFFF then none else (s.tsOf fr t)[ti]?), secOf t 6 with
      | some p, some x => c1.setT p.2.1 (s.cbytes fr (x.off + p.1 + 16) p.2.2)
      | _, _ => c1
    let code := (List.range 16).foldl (fun a k => if 16 - tie ≤ k then a + 3 * 4 ^ k else a) 0
    (s.setCluster cl c2).wr (F.CL_SLOTS_STATE cl.die cl.idx) code
  | _, _ => s

/-- The job's clusters with their ordinals: partition ordinal × 68 + logical index (R235). -/
def State.ordinals (s : State) (j : Nat) : List (Nat × ClusterId) :=
  ((s.partsOf j).zipIdx).flatMap (fun p => (List.range 68).filterMap (fun l => (s.byLogical p.1 l).map (fun c => (68 * p.2 + l, c))))

/-- The loader reads the container whose pages stand in `fr`: the homes read for it (R27, R448), and the tracker counts its lines (R506). -/
def State.readCont (s : State) (fr : List Nat) (size : Nat) : State :=
  let ls := (List.range (ceilDiv size 64)).map (fun i => 64 * fr[i / 64]?.getD 0 + i % 64)
  ls.foldl (fun (s : State) (l : Nat) => s.touch (64 * l) 1) (s.accessNow ls [])

/-- Is the home of a table line or of a line of the container busy? -/
def State.contBusy (s : State) (va size : Nat) (fr : List Nat) : Bool :=
  (List.range (pagesOf va size)).any (fun i => s.walkBusy 16 (va / 4096 + i))
    || (List.range (ceilDiv size 64)).any (fun i => s.lineBusy (64 * fr[i / 64]?.getD 0 + i % 64))

/-- One attempt at the load of the container at `va` into slot j (R238, R548). -/
def State.tryLoad (s : State) (j va : Nat) : LoadOut :=
  match s.walkList 16 (va / 4096) false 1 with
  | (s0, .inr (vp, c, l, e)) => .fault s0 16 vp false c l e
  | (s0, .inl fr0) =>
    let size := s0.cnat fr0 0x10 8
    if s.contBusy va 256 fr0 then .busy
    else if s0.stopped then .stop s0
    else if s0.cnat fr0 0 8 ≠ 0x0000504554535A48 || s0.cnat fr0 8 2 ≠ 1 then .refused s0 (.prog 0 0)
    else if size % 64 ≠ 0 || size < 0x100 || 2 ^ 28 < size then .refused s0 (.prog 1 0x10)
    else
      match s0.walkList 16 (va / 4096) false (pagesOf va size) with
      | (s1, .inr (vp, c, l, e)) => .fault s1 16 vp false c l e
      | (s1, .inl fr) =>
        let s1 := s1.readCont fr size
        if s.contBusy va size fr then .busy
        else if s1.stopped then .stop s1 else
        let t := s1.secTable fr
        let offs := s1.dmaOffs fr t
        if s1.contDigest fr size offs ≠ s1.cbytes fr 0xE0 32 then .refused s1 (.prog 2 0xE0)
        else
          let tens := match secOf t 3 with
            | some x => (List.range x.cnt).map (fun k => s1.cnat fr (x.off + 8 * k) 8)
            | none => []
          let tsec := (secOf t 3).getD ⟨3, 0, 0, 0⟩
          let dma := offs.map (s1.dmaAt j fr)
          match firstErr [s1.headErr j fr size t, s1.mapErr fr (s1.cnat fr 0x0C 4) t, s1.dmaErr j fr t offs,
              errIf (decide (tsec.size < 8 * tsec.cnt)) (.prog 5 tsec.off), s1.tensorsErr j [] tens,
              s1.tieErr j fr t tens dma] with
          | some e => .refused s1 e
          | none =>
            match s1.walkDescs j dma with
            | (s2, .inr (w, vp, c, l, e)) => .fault s2 j vp w c l e
            | (s2, .inl dma1) =>
              if s2.stopped then .stop s2 else
              let images := ((secOf t 1).map (·.cnt)).getD 0
              let frames := (dma1.map (fun d => (d.frames0.filter Option.isSome).length + (d.frames1.filter Option.isSome).length)).sum
              let ties := (s2.tieEntries fr t).map (·.2)
              let p : Program := ⟨fr, tens.map (BitVec.ofNat 64), dma1, ties, images, frames⟩
              let s3 := dma1.foldl (fun (s : State) d => s.writeFrames p d) s2
              let s4 := (s3.ordinals j).foldl (fun (s : State) o =>
                s.loadCluster fr t o.1 o.2 (s.tieSlots j ties o.2.die)) s3
              let s5 := ((dma1.filter DmaDesc.epoched).map shardOf).foldl (fun (s : State) k =>
                s.wr (F.CD_EPOCH_USED k.1 j k.2) 1) s4
              .done (s5.setSlot j { s5.slot j with prog := some p })

/-- The next command of a queue to start: the first that has not started, once it is ready and its FENCE holds (R534, R539). -/
def QueueSt.nextCmd (v : QueueSt) : Option CmdSt :=
  match v.cmds.find? (fun c => decide (c.stage < 2)) with
  | none => none
  | some c =>
    let earlier := v.cmds.takeWhile (fun x => x.entry ≠ c.entry)
    if c.stage = 1 && (!bit c.w 54 || earlier.isEmpty) then some c else none

/-- OP of a command. -/
def CmdSt.op (c : CmdSt) : Nat := bits c.w 62 56

/-- Replace a command of a queue. -/
def State.putCmd (s : State) (q : Nat) (c : CmdSt) : State :=
  let v := s.queue q
  s.setQueue q { v with cmds := v.cmds.map (fun x => if x.entry = c.entry then c else x) }

/-- A refused load: its record, the slot, and LOAD_FAILED (R239, R532).
[DEDUCED, notes/assumptions/52.md] [DEDUCED, notes/assumptions/87.md] -/
def State.refuseLoad (s : State) (q entry j : Nat) (e : LoadErr) : State :=
  let s0 := s.setSlot j { s.slot j with loadQ := none, loadHeld := none, loadDone := false, loadAsk := false, loadSlot := false, prog := none }
  let job := s.jobOf j
  match e with
  | .prog reason off =>
    (s0.failJob j ⟨3, 0x0C31, srcModule j, job, place 7 0 reason ||| place 71 8 off⟩).endCmd q entry 9 reason
  | .recipe reason t =>
    (s0.failJob j ⟨3, 0x0907, srcModule 0, job, place 19 0 t ||| place 23 20 reason⟩).endCmd q entry 9 (0x100 + reason)
  | .tie reason g t off =>
    (s0.failJob j ⟨3, 0x0C05, srcModule j, job,
      place 3 0 reason ||| place 6 4 g ||| place 26 7 t ||| place 90 27 off⟩).endCmd q entry 9 (0x200 + reason)

/-- One attempt, and what follows from it; the walker slot of the load is free after it.
[DEDUCED, notes/assumptions/52.md] -/
def State.runLoad (s : State) (q : Nat) (c : CmdSt) (j : Nat) : State :=
  let free (s : State) : State := (s.setSlot j { s.slot j with loadAsk := false, loadSlot := false }).showWalkers
  let s0 := s.setSlot j { s.slot j with loadHeld := none }
  match s0.tryLoad j (bits c.w 111 64) with
  | .busy => s
  | .stop s1 => s1
  | .refused s1 e => free (s1.refuseLoad q c.entry j e)
  | .fault s1 ctx vp w cause level entry =>
    if s1.stopped then s1
    else
      let (s2, r) := s1.raiseFault ctx vp w cause level entry 48
      free (s2.setSlot j { s2.slot j with loadHeld := some (r.getD 64, false) })
  | .done s1 => free (s1.setSlot j { s1.slot j with loadDone := true })

/-- The load of slot j goes on where it has a walker slot, or gets one now in its turn; else it waits for one (R489).
[DEDUCED, notes/assumptions/26.md] -/
def State.goLoad (s : State) (q : Nat) (c : CmdSt) (j : Nat) : State :=
  let s1 := if (s.slot j).loadSlot then s else (s.setSlot j { s.slot j with loadAsk := true }).showWalkers
  if (s1.slot j).loadSlot then s1.runLoad q c j else s1

/-- LOAD: the program loader takes the next command of a CONTROL queue bound to context 16, or goes on with the load it holds
(R238, R239, R548). Its walks are done in one step.
[DEDUCED, notes/assumptions/26.md] -/
def execLoad (q : Nat) (s : State) : Res :=
  if s.stopped then ok s
  else
    let going := (List.range 16).find? (fun j => (s.slot j).loadQ == some q && !(s.slot j).loadDone &&
      !s.heldOff (s.slot j).loadHeld)
    match going with
    | some j =>
      if s.slotState j ≠ 1 then ok s
      else match (s.queue q).cmds.find? (fun c => c.stage == 2 && c.op == 0x10 && bits c.w 131 128 == j) with
      | some c => ok (s.goLoad q c j)
      | none => ok s
    | none =>
      match (s.queue q).nextCmd with
      | none => ok s
      | some c =>
        if c.op ≠ 0x10 then ok s
        else
          let j := bits c.w 131 128
          let s1 := s.putCmd q { c with stage := 2 }
          if s.slotState j ≠ 1 || (s.slot j).loadQ.isSome then
            ok ((s1.emit ⟨1, 0x0C31, srcModule j, s.jobOf j, place 7 0 9⟩).endCmd q c.entry 9 9)
          else ok ((s1.setSlot j { s1.slot j with loadQ := some q, loadDone := false }).goLoad q c j)

/-- PROGRAM_LOADED: the loader writes the record and the command completes with OK (R238 step 6, R240, R548). -/
def execProgramLoaded (j timeUs : Nat) (s : State) : Res :=
  let sl := s.slot j
  match sl.loadQ, sl.prog with
  | some q, some p =>
    if !sl.loadDone || s.stopped || s.slotState j ≠ 1 then ok s
    else
      let s1 := (s.setSlot j { sl with loadQ := none, loadDone := false }).emit
        ⟨0, 0x0C32, srcModule j, s.jobOf j,
          place 31 0 timeUs ||| place 47 32 p.images ||| place 63 48 p.dma.length ||| place 95 64 p.frames⟩
      match (s1.queue q).cmds.find? (fun c => c.stage == 2 && c.op == 0x10 && bits c.w 131 128 == j) with
      | some c => ok (s1.endCmd q c.entry 0 0)
      | none => ok s1
  | _, _ => ok s

end Sys2Proof.Machine
end

