-- ==== Sys2Proof/Machine/Submission.lean ====
section
/-!
DEFINITION. Submission queues (R512 to R532), the copy engines (R533 to R547), fault records resumed (R496 to R498) and the
descriptor shootdown (R499 to R504).
-/

namespace Sys2Proof.Machine

/-! Doorbells and binding (R517, R521, R526, R529). -/

/-- A doorbell reaches the submission unit (R521). -/
def State.ringDoorbell (s : State) (q val : Nat) : State :=
  let tail := val % 65536
  if s.rd (F.CPE_QRING_EN q) = 0 || s.qSize q ≤ tail then s.inc (F.SQ_CNT_DB_IGNORED q)
  else s.setQueue q { s.queue q with tail := tail }

/-- SQ_DOORBELL. -/
def execSqDoorbell (q : Nat) (val : Word) (s : State) : Res :=
  if s.stopped then ok s else ok (s.ringDoorbell q val.toNat)

/-- Is a write of an ordered doorbell's core, earlier than it, not complete (R447): one whose request is open, or one that waits to send its own? -/
def State.odbWaits (s : State) (o : OdbSt) : Bool :=
  s.reqs.any (fun r => r.core == o.core && decide (r.store ≠ 0) && decide (r.no < o.before))
    || s.hostWaits.any (fun p => decide (p.1 < o.before) && (match p.2 with | .hostStore c _ _ _ _ _ => c == o.core | _ => false))

/-- An ordered doorbell, before whose write every write of its core numbered below `no` was issued: the core's port holds it until those have
completed (R447). -/
def State.holdDoorbell (s : State) (core q val no : Nat) : State :=
  let o : OdbSt := ⟨core, q, val, no⟩
  if s.odbWaits o || s.odbs.any (fun x => x.core == core) then { s with odbs := s.odbs ++ [o] } else s.ringDoorbell q val

/-- SQ_ORDERED_DOORBELL: the core's port holds it until every earlier write of the core has completed (R447).
[DEDUCED, notes/assumptions/70.md] -/
def execSqOrderedDoorbell (core q : Nat) (val : Word) (s : State) : Res :=
  if s.stopped then ok s else ok (s.holdDoorbell core q val.toNat s.wrNo)

/-- The ordered doorbells whose earlier writes have completed go on as plain doorbells, those of a core in order. -/
def State.passOdbs (s : State) : State :=
  s.odbs.foldl (fun (s : State) o =>
    if s.odbWaits o || s.odbs.any (fun x => x.core == o.core) then { s with odbs := s.odbs ++ [o] } else s.ringDoorbell o.q o.val) { s with odbs := [] }

/-- SQ_RESUME: fetching goes on at HEAD; ignored unless HALTED (R526). -/
def execSqResume (q : Nat) (s : State) : Res :=
  let v := s.queue q
  if v.halted && s.rd (F.CPE_QRING_EN q) = 1 then
    ok ((s.wr (F.SQ_STAT_REASON q) 0).setQueue q { v with halted := false, rereads := 0, stale := false })
  else ok s

/-- SQ_HALT: fetching stops after the entries already accepted, with reason SOFTWARE (R526). -/
def execSqHalt (q : Nat) (s : State) : Res :=
  if s.rd (F.CPE_QRING_EN q) = 1 && !(s.queue q).halted then ok (s.haltQueue q 3) else ok s

/-- QUEUE_DISABLE: a write that clears EN of CPE_QRING_q takes effect only while the queue is IDLE or HALTED; commands not
started are abandoned, HEAD is 0 and both phases are 1 (R517). -/
def execQueueDisable (q : Nat) (val : Word) (s : State) : Res :=
  let st := s.qState q (s.queue q)
  if bit val.toNat 63 || !(st == 1 || st == 3) then ok s
  else
    let v := s.queue q
    let keep := v.cmds.filter (fun c => decide (2 ≤ c.stage))
    let s1 := { s with walks := s.walks.filter (fun w => !(w.q == q && !(keep.any (fun c => c.entry == w.entry)))) }
    let s2 := s1.setReg (Reg.CPE_QRING q) (mergeMask (accMask .rw (Reg.CPE_QRING q)) (s.reg (Reg.CPE_QRING q)) val)
    let s3 := ((s2.wr (F.SQ_STAT_HEAD q) 0).wr (F.SQ_STAT_SPHASE q) 1).wr (F.SQ_STAT_CPHASE q) 1
    ok ((s3.wr (F.SQ_STAT_REASON q) 0).setQueue q { QueueSt.init with cmds := keep, done := v.done, gen := v.gen + 1 })

/-- CQ_HEAD_WRITE: software has consumed completion entries up to the new HEAD (R529). -/
def execCqHeadWrite (q : Nat) (val : Word) (s : State) : Res :=
  let v := s.queue q
  let size := s.qSize q
  let h := val.toNat % 65536
  ok ((s.wr (F.SQ_CQH_HEAD q) h).setQueue q { v with ccount := (v.ctail + size - h % size) % size })

/-! Commands (R513, R518 to R520, R592). -/

/-- A mask of bit ranges. -/
def rangesMask (l : List (Nat × Nat)) : Nat := l.foldl (fun a p => a ||| place p.1 p.2 (2 ^ (p.1 + 1 - p.2) - 1)) 0

/-- The bits that a command may set, by OP; none for an invalid OP (R519, R592). -/
def opFields (op : Nat) (first : Bool) : Option (List (Nat × Nat)) :=
  let hdr := [(63, 54), (47, 32)]
  match op with
  | 0x01 => some (hdr ++ [(0, 0), (111, 64), (175, 128), (223, 192)])
  | 0x02 => some (hdr ++ [(111, 64), (173, 128), (223, 192), (236, 224)])
  | 0x03 => some (hdr ++ [(1, 0), (111, 64), (143, 128)])
  | 0x10 => some (hdr ++ [(111, 64), (131, 128)])
  | 0x3F => some hdr
  | 0x20 => some (hdr ++ [(9, 0), (111, 64)])
  | 0x21 => some (hdr ++ [(9, 0)])
  | 0x22 => some (hdr ++ [(20, 0), (111, 64), (159, 128)] ++ (if first then [(167, 160), (239, 192)] else []))
  | 0x23 => some (hdr ++ [(9, 0), (77, 64), (159, 128), (191, 160), (205, 192)])
  | 0x24 => some (hdr ++ [(10, 0), (77, 64), (159, 128), (173, 160), (223, 192), (255, 224)])
  | 0x25 => some (hdr ++ [(9, 0), (77, 64), (173, 160)])
  | _ => none

/-- May a queue of a class carry an operation (R513)? -/
def classOp (cls op : Nat) : Bool :=
  op == 0x3F || (match cls with
    | 0 => op == 1 || op == 3
    | 1 => op == 2
    | 2 => decide (0x20 ≤ op) && decide (op ≤ 0x25)
    | _ => op == 0x10)

/-- Does a region not lie within 512 pages (R520)? -/
def regionBad (va len : Nat) : Bool := decide (512 < pagesOf va len)

/-- The status of a command that is refused with no byte transferred (R513, R520, R536, R548).
[DEDUCED, notes/assumptions/25.md] [DEDUCED, notes/assumptions/26.md] -/
def State.cmdStatus (s : State) (q w : Nat) : Option Nat :=
  let op := bits w 62 56
  match opFields op (bit w 20) with
  | none => some 2
  | some fs =>
    let a := bits w 111 64
    let b := bits w 175 128
    let len := bits w 223 192
    if !classOp (s.rd (F.CPE_QBIND_CLASS q)) op || w &&& rangesMask fs ≠ w then some 2
    else
      match op with
      | 0x01 =>
        if a % 64 ≠ 0 || b % 64 ≠ 0 || len % 64 ≠ 0 then some 3
        else if len < 64 || 2 ^ 21 < len || regionBad a len || regionBad b len then some 2
        else if a < b + len && b < a + len then some 5
        else none
      | 0x02 =>
        if a % 64 ≠ 0 || b % 64 ≠ 0 || len % 64 ≠ 0 then some 3
        else if len < 64 || 2 ^ 21 < len || regionBad a len then some 2
        else none
      | 0x03 =>
        if a % 64 ≠ 0 then some 3
        else
          match s.descOf (s.rd (F.CPE_QBIND_CTX q)) (bits w 143 128) with
          | some d => if regionBad a d.length || regionBad d.va0 d.length || (d.epoched && regionBad d.va1 d.length) then some 2 else none
          | none => none
      | 0x10 => if s.rd (F.CPE_QBIND_CTX q) ≠ 16 then some 2 else if a % 4096 ≠ 0 then some 3 else none
      | 0x20 => if a % 64 ≠ 0 then some 3 else none
      | 0x22 =>
        let n := bits w 159 128
        if a % 64 ≠ 0 || n % 64 ≠ 0 then some 3 else if n < 64 || 2 ^ 21 < n || regionBad a n then some 2 else none
      | _ => none

/-- The VA regions of a command: side, address, bytes, and whether it is walked for a write (R488). A surface slice is walked
for a write (DESIGN CHOICE, notes/assumptions/24.md). -/
def State.cmdRegions (s : State) (q w : Nat) : List (Nat × Nat × Nat × Bool) :=
  let a := bits w 111 64
  let len := bits w 223 192
  match bits w 62 56 with
  | 0x01 => [(0, a, len, false), (1, bits w 175 128, len, true)]
  | 0x02 => [(0, a, len, false)]
  | 0x03 =>
    match s.descOf (s.rd (F.CPE_QBIND_CTX q)) (bits w 143 128) with
    | some d => if d.epoched then [(1, a, d.length, true)] else []
    | none => []
  | 0x20 => [(0, a, 256, false)]
  | 0x22 => [(0, a, bits w 159 128, true)]
  | _ => []

/-- Ask for the walk of a region of a submission entry. -/
def State.addWalk (s : State) (q entry side va len : Nat) (write : Bool) : State :=
  { s with
    walks := s.walks ++ [⟨s.walkNo, q, entry, side, s.rd (F.CPE_QBIND_CTX q), va / 4096, pagesOf va len, write, 0, none, false, false⟩]
    walkNo := s.walkNo + 1 }

/-- Accept the entry at HEAD (R523): HEAD moves on, and the command is refused, or its regions are walked. -/
def State.acceptCmd (s : State) (q w : Nat) : State :=
  let head := s.rd (F.SQ_STAT_HEAD q)
  let wrap := decide (head + 1 = s.qSize q)
  let s1 := s.wr (F.SQ_STAT_HEAD q) (if wrap then 0 else head + 1)
  let s2 := if wrap then s1.wr (F.SQ_STAT_SPHASE q) (1 - s.rd (F.SQ_STAT_SPHASE q)) else s1
  let v := s.queue q
  let entry := head + 65536 * v.gen
  let rs := s.cmdRegions q w
  let c : CmdSt := ⟨entry, w, 1, 0, 0, false, none, 0, ((rs.filter (fun r => r.1 == 1)).map (fun r => pagesOf r.2.1 r.2.2.1)).sum⟩
  match s.cmdStatus q w with
  | some st => (s2.setQueue q { v with cmds := v.cmds ++ [c], stale := false, rereads := 0 }).endCmd q entry st 0
  | none =>
    let s3 := s2.setQueue q { v with
      cmds := v.cmds ++ [{ c with stage := if rs.isEmpty then 1 else 0 }], stale := false, rereads := 0 }
    (rs.foldl (fun (s : State) r => s.addWalk q entry r.1 r.2.1 r.2.2.1 r.2.2.2) s3).showWalkers

/-- The line of the entry at HEAD, which is read with RdNA. -/
def State.headLine (s : State) (q : Nat) : Nat := 64 * s.rd (F.CPE_QRING_BASE q) + s.rd (F.SQ_STAT_HEAD q)

/-- The 64 bytes of that entry. -/
def State.headEntry (s : State) (q : Nat) : Nat := s.memNat (64 * s.headLine q) 64

/-- May the submission unit fetch from a queue (R523, R529, R549)? -/
def State.canFetch (s : State) (q : Nat) : Bool :=
  let v := s.queue q
  let c := s.rd (F.CPE_QBIND_CTX q)
  let st := s.qState q v
  !s.stopped && st != 0 && st != 3 && st != 4 && s.rd (F.SQ_STAT_HEAD q) != v.tail
    && !(decide (c < 16) && s.slotState c == 5)

/-- SUBMISSION_FETCH: the next entry in ring order is read; its PHASE must match (R523). -/
def execSubmissionFetch (q : Nat) (s : State) : Res :=
  let v := s.queue q
  if !s.canFetch q || v.stale then ok s
  else
    s.access [s.headLine q] [] fun s =>
    let w := s.headEntry q
    if bit w 63 = (s.rd (F.SQ_STAT_SPHASE q) == 1) then ok (s.acceptCmd q w).tick
    else ok (s.setQueue q { v with stale := true, rereads := 0 }).tick

/-- SUBMISSION_REREAD: a stale entry is read again; the eighth stale re-read halts the queue (R524). -/
def execSubmissionReread (q : Nat) (s : State) : Res :=
  let v := s.queue q
  if !s.canFetch q || !v.stale then ok s
  else
    s.access [s.headLine q] [] fun s =>
    let s1 := s.inc (F.SQ_CNT_REREADS q)
    let w := s.headEntry q
    if bit w 63 = (s.rd (F.SQ_STAT_SPHASE q) == 1) then ok (s1.acceptCmd q w).tick
    else if v.rereads + 1 < 8 then ok (s1.setQueue q { v with rereads := v.rereads + 1 }).tick
    else
      let s2 := ((s1.setQueue q { v with rereads := 8 }).inc (F.SQ_CNT_STALE q)).emit
        ⟨1, 0x0601, srcModule q, s.ctxJobOf (s.rd (F.CPE_QBIND_CTX q)),
          place 7 0 q ||| place 19 8 (s.rd (F.SQ_STAT_HEAD q)) ||| place 20 20 (s.rd (F.SQ_STAT_SPHASE q)) ||| place 24 21 8⟩
      ok (s2.haltQueue q 1).tick

/-! Dispatch (R533, R534, R539, R579). -/

/-- May engine e (0 to 15 tier, 16 to 23 peer, 24 to 39 Prism) take command c of queue q? -/
def State.mayTake (s : State) (e q : Nat) (c : CmdSt) : Bool :=
  let en := s.rd (F.CPE_QBIND_ENGINES q)
  match s.rd (F.CPE_QBIND_CLASS q) with
  | 0 => decide (e < 16) && bit en (e % 8) && (bits c.w 0 0 == e / 8)
  | 1 => decide (16 ≤ e) && decide (e < 24) && bit en (e - 16)
  | 2 => decide (24 ≤ e) && decide (e < 40) && bit en (e - 24) && prismTarget c.w == e - 24
  | _ => false

/-- The command that engine e may take from queue q. -/
def State.offer (s : State) (e q : Nat) : Option CmdSt :=
  let v := s.queue q
  if s.rd (F.CPE_QRING_EN q) = 0 || (v.halted && s.rd (F.SQ_STAT_REASON q) = 2) then none
  else
    match v.nextCmd with
    | some c => if c.op ≠ 0x3F && s.mayTake e q c then some c else none
    | none => none

/-- Host die of an engine, if it stands on one (R533).
[DESIGN CHOICE, notes/assumptions/27.md] -/
def engineHome (e : Nat) : Option Nat :=
  if e < 16 then some (8 + (e / 4) % 2) else if e < 24 then none else some (8 + (e - 24) / 8)

/-- STATE code of a Prism engine that runs an operation (PRM_ENG_STAT_e). -/
def prismState (op : Nat) : Nat := match op with | 0x22 => 6 | 0x23 => 1 | 0x24 => 2 | 0x25 => 3 | _ => 4

/-- COMMAND_DISPATCH: a free engine takes the next ready command, serving its queues in round-robin order (R534). -/
def execCommandDispatch (e : Nat) (s : State) : Res :=
  let away := match engineHome e with | some h => s.hdAway.contains h | none => false
  if s.stopped || 40 ≤ e || (s.eng e).isSome || away then ok s
  else
    let last := sget (fun _ => 255) s.rrobin e
    let order := (List.range 256).map (fun i => (last + 1 + i) % 256)
    match order.find? (fun q => (s.offer e q).isSome) with
    | none => ok s
    | some q =>
      match s.offer e q with
      | none => ok s
      | some c =>
        let ctx := s.rd (F.CPE_QBIND_CTX q)
        let s1 := (s.putCmd q { c with stage := 2 }).setEng e ⟨q, c.entry, [], 0, none, if ctx < 16 then s.slotState ctx else 0⟩
        let s2 := { s1 with rrobin := sset (fun _ => 255) s1.rrobin e q }
        if e < 24 then
          ok (((s2.wr (F.CPE_ENG_STATE e) 1).wr (F.CPE_ENG_QUEUE e) q).wr (F.CPE_ENG_ENTRY e) c.entry)
        else
          ok ((s2.wr (F.PRM_ENG_STAT_STATE (e - 24)) (prismState c.op)).wr (F.PRM_ENG_STAT_CTX (e - 24)) (bits c.w 5 0))

/-- The command that an engine runs.
[DESIGN CHOICE, notes/assumptions/7.md] [DESIGN CHOICE, notes/assumptions/27.md] -/
def State.engCmd (s : State) (e : Nat) : Option (EngSt × CmdSt) :=
  match s.eng e with
  | none => none
  | some x => ((s.queue x.q).cmds.find? (fun c => c.entry == x.entry)).map (fun c => (x, c))

/-- Does a region of the command wait for a walk? -/
def State.walking (s : State) (x : EngSt) : Bool := s.walks.any (fun w => w.q == x.q && w.entry == x.entry)

/-- Physical address of byte `o` of a region whose frames are listed. -/
def frameByte (fs : List (Option Nat)) (va o : Nat) : Nat :=
  4096 * ((fs[(va % 4096 + o) / 4096]?.getD none).getD 0) + (va % 4096 + o) % 4096

/-- Count bytes that a copy engine moved. -/
def State.countMoved (s : State) (e n : Nat) : State :=
  let m := sget (fun _ => 0) s.moved e + n
  ({ s with moved := sset (fun _ => 0) s.moved e m }).wr (F.CPE_ENG_GBYTES e) (satTo 32 (m / 2 ^ 30))

/-- Copy `n` lines, each read with RdNA and written once with WrInvFull (R537).
[DESIGN CHOICE, notes/assumptions/28.md] -/
def State.copyLines (s : State) (src dst : Nat → Nat) (n : Nat) : State :=
  (List.range n).foldl (fun (s : State) i =>
    let a := src (64 * i)
    let b := dst (64 * i)
    ((s.setBytes b (s.memBytes a 64)).touch a 1).touch b 1) s

/-- COPY (R535 to R537): every destination line receives the value of its source line.
[DESIGN CHOICE, notes/assumptions/28.md] -/
def execCopy (e : Nat) (s : State) : Res :=
  match s.engCmd e with
  | some (x, c) =>
    if c.op ≠ 1 || s.stopped || s.walking x || c.stage ≠ 2 then ok s
    else
      let a := bits c.w 111 64
      let b := bits c.w 175 128
      let len := bits c.w 223 192
      let fa := s.frameList x.q x.entry 0 (pagesOf a len)
      let fb := s.frameList x.q x.entry 1 (pagesOf b len)
      let lines (fs : Nat → Nat) : List Nat := (List.range (len / 64)).map (fun i => fs (64 * i) / 64)
      s.access (lines (frameByte fa a)) (lines (frameByte fb b)) fun s =>
        let s1 := (s.copyLines (frameByte fa a) (frameByte fb b) (len / 64)).tick
        ok ((s1.countMoved e len).finish e x 0 0)
  | none => ok s

/-! Peer writes (R542 to R544). -/

/-- The messages of a peer write: offset and bytes, none crossing a 64 KiB boundary of the destination (R542). -/
def peerCuts (dst : Nat) : Nat → Nat → Nat → List (Nat × Nat)
  | 0, _, _ => []
  | fuel + 1, o, len =>
    if len ≤ o then []
    else
      let n := min (len - o) (65536 - (dst + o) % 65536)
      (o, n) :: peerCuts dst fuel (o + n) len

/-- The header of a peer message (R419). -/
def peerHdr (job dst len tag : Nat) : BitVec 128 :=
  BitVec.ofNat 128 (place 127 120 0x50 ||| place 119 108 job ||| place 107 62 dst ||| place 61 45 len ||| place 31 0 tag)

/-- PEER_WRITE: the engine sends the next message of its command; the slot must have been LOADING, RUNNING, HALTED or DRAINING when it
took the command, which then runs to completion (R542, R550).
[DESIGN CHOICE, notes/assumptions/28.md] -/
def execPeerWrite (e : Nat) (s : State) : Res :=
  match s.engCmd e with
  | some (x, c) =>
    if c.op ≠ 2 || s.stopped || s.walking x || c.stage ≠ 2 then ok s
    else
      let j := s.rd (F.CPE_QBIND_CTX x.q)
      if x.slotSt = 0 || x.slotSt = 4 then ok (s.finish e x 8 x.slotSt)
      else
        let a := bits c.w 111 64
        let dst := bits c.w 173 128
        let len := bits c.w 223 192
        let cuts := peerCuts dst 34 0 len
        match cuts[x.next]? with
        | none => ok s
        | some (o, n) =>
          let fs := s.frameList x.q x.entry 0 (pagesOf a len)
          let src (i : Nat) : Nat := frameByte fs a (o + 64 * i)
          s.access ((List.range (n / 64)).map (fun i => src i / 64)) [] fun s =>
            let data := (List.range (n / 64)).flatMap (fun i => s.memBytes (src i) 64)
            let s := (List.range (n / 64)).foldl (fun (s : State) i => s.touch (src i) 1) s
            let tag := s.peerTag % 2 ^ 32
            let s1 := s.sendMember j 1 (bits c.w 236 224) 1 (leBytes 16 (peerHdr (s.rd (F.STR_SLOT_JOB_ID j)) (dst + o) n tag).toNat ++ data)
            let s2 := { s1 with peerTag := (tag + 1) % 2 ^ 32 }
            ok ((s2.setEng e { x with msgs := x.msgs ++ [(tag, x.next)], next := x.next + 1 }).countMoved e n).tick
  | none => ok s

/-- A peer command ends with PEER_REJECT or PEER_LOST (R543). -/
def State.peerFail (s : State) (e : Nat) (x : EngSt) (c : CmdSt) (status tag index : Nat) : State :=
  let s1 := if status = 6 then s.inc F.CPE_CNT_PEER_REJECT else s.inc F.CPE_CNT_PEER_LOST
  (s1.emit ⟨2, 0x0604, srcOf (10 + (e - 16) / 2) e, s.ctxJobOf (s.rd (F.CPE_QBIND_CTX x.q)),
    place 4 0 e ||| place 17 5 (bits c.w 236 224) ||| place 21 18 status ||| place 53 22 tag⟩).finish e x status index

/-- PEER_ACK_RECEIVE: the engine takes an acknowledgement; the last one completes the command (R543, R528). -/
def execPeerAckReceive (e tag : Nat) (good : Bool) (s : State) : Res :=
  match s.engCmd e with
  | some (x, c) =>
    match x.msgs.find? (fun m => m.1 == tag) with
    | none => ok s
    | some m =>
      if s.stopped || c.op ≠ 2 then ok s
      else if !good then ok (s.peerFail e x c 6 tag m.2)
      else
        let x1 := { x with msgs := x.msgs.filter (fun m => m.1 ≠ tag) }
        let total := (peerCuts (bits c.w 173 128) 34 0 (bits c.w 223 192)).length
        if x1.msgs.isEmpty && x1.next = total then ok (s.finish e x 0 0) else ok (s.setEng e x1)
  | none => ok s

/-- PEER_LOST: a message was not acknowledged within 2 ms of sending (R543). -/
def execPeerLost (e tag : Nat) (s : State) : Res :=
  match s.engCmd e with
  | some (x, c) =>
    match x.msgs.find? (fun m => m.1 == tag) with
    | none => ok s
    | some m => if s.stopped || c.op ≠ 2 then ok s else ok (s.peerFail e x c 7 tag m.2)
  | none => ok s

/-! Snapshots (R545 to R547). -/

/-- Make the pages of a region's frame list valid from entry k on, walking each invalid one (R501). -/
def State.snapWalk (s : State) (j desc : Nat) (e : Bool) (va : Nat) : List Nat → State × Option (Nat × Nat × Nat × Nat)
  | [] => (s, none)
  | k :: ks =>
    match (s.descOf j desc).bind (fun x => (dqFrames x e)[k]?.getD none) with
    | some _ => s.snapWalk j desc e va ks
    | none =>
      match s.walkAt j (va / 4096 + k) false with
      | (s1, .fault c l en) => (s1, some (va / 4096 + k, c, l, en))
      | (s1, .entry en) => (s1.setFrame j desc e k (some (entryFrame en))).snapWalk j desc e va ks

/-- The copy of a SNAPSHOT that has taken its version (R546): a page without a frame is walked again first, and a fault holds the engine. The
reference is given back at completion. A destination that was not translated for as many pages, since another program or none was loaded at
submission, is translated first (R488, R520).
[DESIGN CHOICE, notes/assumptions/28.md] -/
def State.snapRun (s : State) (e : Nat) (x : EngSt) (c : CmdSt) (k : Nat × Nat × Nat × Nat) : Res :=
  let (n, j, h, v) := k
  let desc := bits c.w 143 128
  let b := bits c.w 111 64
  match s.descOf j desc with
  | none => ok (s.finish e x 10 desc)
  | some d =>
    let va := dqVa d (v == 1)
    if c.pages < pagesOf b d.length then
      if regionBad b d.length || regionBad va d.length then ok (s.finish e x 2 0)
      else ok ((s.putCmd x.q { c with pages := pagesOf b d.length }).addWalk x.q x.entry 1 b d.length true).showWalkers
    else
    match s.snapWalk j desc (v == 1) va (List.range (pagesOf va d.length)) with
    | (s1, some (vp, cause, level, en)) =>
      if s1.stopped then ok s1 else
      let (s2, r) := s1.raiseFault j vp false cause level en e
      ok (({ s2 with engHeld := s2.engHeld.filter (fun p => p.1 ≠ e) ++ [(e, r.getD 64, false)] } : State).wr (F.CPE_ENG_STATE e) 2)
    | (s1, none) =>
      let fs := match s1.descOf j desc with | some d => dqFrames d (v == 1) | none => []
      let fb := s1.frameList x.q x.entry 1 (pagesOf b d.length)
      let lines (fs : Nat → Nat) : List Nat := (List.range (d.length / 64)).map (fun i => fs (64 * i) / 64)
      s1.access (lines (frameByte fs va)) (lines (frameByte fb b)) fun s1 =>
        let s2 := (s1.copyLines (frameByte fs va) (frameByte fb b) (d.length / 64)).tick
        let s3 := ((s2.countMoved e d.length).inc F.CPE_CNT_SNAPSHOTS).emit
          ⟨0, 0x0605, srcOf (8 + (e / 4) % 2) e, s.jobOf j, place 7 0 h ||| place 10 8 n ||| place 42 11 c.epoch ||| place 58 43 desc⟩
        ok (s3.finish e x 0 (c.epoch % 65536))

/-- SNAPSHOT: copy the LIVE version of an EPOCHED descriptor's shard, after the next flip where WAIT_FLIP is set (R545 to R547). From the
moment it takes its version it holds a reference. The slot must have been RUNNING when the engine took the command, which then runs to completion
(R550). -/
def execSnapshot (e : Nat) (s : State) : Res :=
  match s.engCmd e with
  | some (x, c) =>
    if c.op ≠ 3 || s.stopped || s.walking x || c.stage ≠ 2 || c.wait then ok s
    else if s.engHeld.any (fun p => p.1 == e && s.heldOff (some p.2)) then ok s
    else
      match c.ver with
      | some k => s.snapRun e x c k
      | none =>
        let j := s.rd (F.CPE_QBIND_CTX x.q)
        let desc := bits c.w 143 128
        if x.slotSt ≠ 2 then ok (s.finish e x 8 x.slotSt)
        else
          match s.descOf j desc with
          | none => ok (s.finish e x 10 desc)
          | some d =>
            if !d.epoched then ok (s.finish e x 10 desc)
            else if bit c.w 1 then
              if s.slotState j = 2 then ok (s.putCmd x.q { c with wait := true }) else ok (s.finish e x 8 (s.slotState j))
            else
              let n := (shardOf d).1
              let h := (shardOf d).2
              match s.verIn n j h 2 with
              | none => ok (s.finish e x 10 desc)
              | some v =>
                let c1 := { c with ver := some (n, j, h, v), epoch := s.rd (F.CD_EPOCH_EPOCH n j h) }
                ((s.addRef n j h).putCmd x.q c1).snapRun e x c1 (n, j, h, v)
  | none => ok s

/-! NOP and completion (R520, R527 to R532). -/

/-- NOP completes as soon as it is started. -/
def execNop (q : Nat) (s : State) : Res :=
  match (s.queue q).nextCmd with
  | some c => if c.op = 0x3F && !s.stopped then ok (s.endCmd q c.entry 0 0) else ok s
  | none => ok s

/-- COMMAND_COMPLETE: the next ended command's record is written, or held while its entry is not consumed (R527 to R532). -/
def execCommandComplete (q : Nat) (s : State) : Res :=
  let v := s.queue q
  match v.done with
  | [] => ok s
  | c :: rest =>
    let job := s.ctxJobOf (s.rd (F.CPE_QBIND_CTX q))
    if s.stopped then ok s
    else if s.qSize q ≤ v.ccount then
      let k := noteKey 4 q
      if s.told.contains k then ok (s.setQueue q v)
      else
        ok ((({ s with told := s.told ++ [k] }).emit
          ⟨1, 0x0606, srcModule q, job, place 7 0 q ||| place 39 8 v.heldLaps⟩).setQueue q { v with heldLaps := 0 })
    else
      let a := 4096 * s.rd (F.CPE_QCPL_BASE q) + 16 * v.ctail
      s.access [] [a / 64] fun s =>
      let w0 := place 63 63 (s.rd (F.SQ_STAT_CPHASE q)) ||| place 62 56 c.op ||| place 55 48 c.status
        ||| place 47 32 (bits c.w 47 32) ||| place 31 16 c.entry ||| place 15 0 c.detail
      let s1 := (s.setNat (a + 8) 8 s.now).setNat a 8 w0
      let wrap := decide (v.ctail + 1 = s.qSize q)
      let s2 := if wrap then s1.wr (F.SQ_STAT_CPHASE q) (1 - s.rd (F.SQ_STAT_CPHASE q)) else s1
      let s3 := (s2.inc (F.SQ_CNT_COMPLETED q)).setQueue q
        { v with done := rest, ctail := if wrap then 0 else v.ctail + 1, ccount := v.ccount + 1 }
      let s4 := if c.status = 0 then s3
        else
          let s := s3.inc (F.SQ_CNT_ERRORS q)
          let k := noteKey 3 q
          if s.told.contains k then s
          else ({ s with told := s.told ++ [k] }).emit
            ⟨1, 0x0603, srcModule q, job, place 7 0 q ||| place 15 8 c.status ||| place 27 16 c.entry
              ||| place 43 28 (bits c.w 47 32) ||| place 59 44 c.detail⟩
      ok (if bit c.w 55 then s4.queueIrq q else s4)

/-! Fault records resumed (R496 to R498). -/

/-- FAULT_RESUME_RETRY: every held region of every engine in the record is walked again (R496, R498).
[DEDUCED, notes/assumptions/91.md] -/
def execFaultResumeRetry (r : Nat) (s : State) : Res :=
  if 64 ≤ r || s.recState r ≠ 1 then ok s
  else
    let re (h : Option (Nat × Bool)) : Option (Nat × Bool) := h.map (fun p => if p.1 = r then (r, true) else p)
    let s1 := s.wr (F.XLT_REC_STATE r) 2
    ok ({ s1 with
      walks := s1.walks.map (fun w => { w with held := re w.held })
      clusters := s1.clusters.map (fun p => (p.1, { p.2 with dqs := p.2.dqs.map (fun d => { d with held := re d.held }) }))
      slots := s1.slots.map (fun p => (p.1, { p.2 with loadHeld := re p.2.loadHeld }))
      engHeld := s1.engHeld.map (fun p => if p.2.1 = r then (p.1, r, true) else p) } : State).showWalkers

/-- FAULT_RESUME_ABORT: the held work of every engine in the record ends (R498). -/
def execFaultResumeAbort (r : Nat) (s : State) : Res :=
  if 64 ≤ r || s.recState r ≠ 1 || s.stopped then ok s
  else
    let isR (h : Option (Nat × Bool)) : Bool := match h with | some (x, _) => x == r | none => false
    let engines := s.rd (F.XLT_RECENG_ENGINES r)
    let ctx := s.rd (F.XLT_REC_CTX r)
    let dma := bits engines 47 40 ≠ 0
    let e : Ev := ⟨if dma then 3 else 1, 0x0504, srcModule 0, s.ctxJobOf ctx,
      place 5 0 r ||| place 69 6 engines ||| place 73 70 (s.rd (F.XLT_REC_CAUSE r))⟩
    let s1 := s.wr (F.XLT_REC_STATE r) 2
    let s2 := if dma && ctx < 16 then s1.failJob ctx e else s1.emit e
    let s3 := (s.walks.filter (fun w => isR w.held)).foldl (fun (s : State) w => s.endWork w.q w.entry 1 r) s2
    let s4 := (s.engHeld.filter (fun p => p.2.1 == r)).foldl (fun (s : State) p =>
      match s.eng p.1 with | some x => s.finish p.1 x 1 r | none => s) s3
    let s5 := (List.range 16).foldl (fun (s : State) j =>
      if isR (s.slot j).loadHeld then
        match (s.slot j).loadQ with
        | some q =>
          match (s.queue q).cmds.find? (fun c => c.stage == 2 && c.op == 0x10 && bits c.w 131 128 == j) with
          | some c => s.refuseLoad q c.entry j (.prog 8 0)
          | none => s
        | none => s
      else s) s4
    ok ({ s5 with
      clusters := s5.clusters.map (fun p => (p.1, { p.2 with dqs := p.2.dqs.filter (fun d => !isR d.held) })) } : State).showWalkers

/-- FQ_BASE_WRITE: the fault queue starts again at entry 0 with PHASE 1 (R494). -/
def execFqBaseWrite (val : Word) (s : State) : Res :=
  ok { s.setReg Reg.XLT_FQ_BASE (mergeMask (accMask .rw Reg.XLT_FQ_BASE) (s.reg Reg.XLT_FQ_BASE) val) with
    fqTail := 0, fqPhase := true }

/-! Shootdown (R500 to R503). -/

/-- Is a page in the range of a shootdown? -/
def SdSt.covers (d : SdSt) (ctx vpage : Nat) : Bool :=
  d.ctx == ctx && decide (d.vpage ≤ vpage) && decide (vpage < d.vpage + d.pages)

/-- Does the range cover a page of a region? -/
def SdSt.meets (d : SdSt) (ctx va len : Nat) : Bool :=
  d.ctx == ctx && decide (0 < len) && decide (d.vpage ≤ (va + len - 1) / 4096) && decide (va / 4096 < d.vpage + d.pages)

/-- Walks in progress whose page lies in the range start again (R501 step 1). -/
def State.sdWalks (s : State) (d : SdSt) : State :=
  { s with walks := s.walks.map (fun w => if d.meets w.ctx (4096 * w.vpage) (4096 * w.pages) then { w with next := 0 } else w) }

/-- Frame-list entries of submission commands in the range become invalid, and their regions are walked again (R501 steps 2
and 3); the number of commands not yet started that this touches, and of started ones. -/
def State.sdQueues (s : State) (d : SdSt) : State × Nat × Nat :=
  (s.queuesOf d.ctx).foldl (fun acc q =>
    (s.queue q).cmds.foldl (fun (acc : State × Nat × Nat) c =>
      let hit := (s.cmdRegions q c.w).filter (fun r => d.meets d.ctx r.2.1 r.2.2.1)
      if hit.isEmpty then acc
      else
        let s1 := hit.foldl (fun (s : State) r =>
          let s1 := (List.range (pagesOf r.2.1 r.2.2.1)).foldl (fun (s : State) k =>
            if d.covers d.ctx (r.2.1 / 4096 + k) then s.writeNat (s.frameAddr q c.entry r.1 k) 8 0 else s) s
          if s1.walks.any (fun w => w.q == q && w.entry == c.entry && w.side == r.1) then s1
            else s1.addWalk q c.entry r.1 r.2.1 r.2.2.1 r.2.2.2) acc.1
        (if c.stage = 1 then s1.putCmd q { c with stage := 0 } else s1, acc.2.1 + b2n (c.stage ≠ 2), acc.2.2 + b2n (c.stage == 2))) acc) (s, 0, 0)

/-- Entries of the loaded program's descriptors in the range become invalid (R501 step 2). -/
def State.sdProgram (s : State) (d : SdSt) : State × Nat :=
  if 16 ≤ d.ctx then (s, 0)
  else
    match (s.slot d.ctx).prog with
    | none => (s, 0)
    | some p =>
      (p.dma.zipIdx).foldl (fun (acc : State × Nat) x =>
        let regions := if x.1.stash.isSome then [] else (false, x.1.va0) :: (if x.1.epoched then [(true, x.1.va1)] else [])
        let hit := regions.filter (fun r => d.meets d.ctx r.2 x.1.length)
        (hit.foldl (fun (s : State) r => (List.range (pagesOf r.2 x.1.length)).foldl (fun (s : State) k =>
          if d.covers d.ctx (r.2 / 4096 + k) then s.setFrame d.ctx x.2 r.1 k none else s) s) acc.1, acc.2 + b2n (!hit.isEmpty))) (s, 0)

/-- Physical address of entry k of a slice’s frame list in the surface table of Prism engine e (R587): a header padded to
4 KiB, then 256 KiB of frame lists, per surface. -/
def State.surfEntry (s : State) (e su slice k : Nat) : Nat :=
  4096 * s.rd (F.PRM_SURF_BASE e) + su * (4096 + 262144) + 4096 + 4096 * slice + 8 * k

/-- Write a slice’s frame list into the surface table. -/
def State.putSlice (s : State) (e su : Nat) (x : SliceSt) : State :=
  x.frames.zipIdx.foldl (fun (s : State) f =>
    s.writeNat (s.surfEntry e su x.slice f.2) 8 (match f.1 with | some fr => frameWord fr | none => 0)) s

/-- Entries of bound surface slices in the range become invalid (R586). -/
def State.sdSurfs (s : State) (d : SdSt) : State × Nat :=
  let inR (u : SurfSt) (x : SliceSt) : Bool := d.meets u.tctx x.va x.len
  s.surfs.foldl (fun (acc : State × Nat) p =>
    match p.2 with
    | none => acc
    | some u =>
      let cut (x : SliceSt) : SliceSt := if inR u x then
          { x with frames := (x.frames.zipIdx).map (fun f => if d.covers u.tctx (x.va / 4096 + f.2) then none else f.1) }
        else x
      let hit := u.slices.filter (inR u)
      let s1 := { acc.1 with surfs := sset (fun _ => none) acc.1.surfs p.1 (some { u with slices := u.slices.map cut }) }
      (hit.foldl (fun (s : State) x => s.putSlice (p.1 / 1024) (p.1 % 1024) (cut x)) s1, acc.2 + hit.length)) (s, 0)

/-- DQs in flight on a page of the range. -/
def State.sdDqs (s : State) (d : SdSt) : Nat :=
  if d.ctx < 16 then ((s.dqsOf d.ctx).filter (fun p => p.2.stash.isNone && (dqPages p.2 p.1).any (fun k =>
    d.covers d.ctx (dqVa p.2 p.1.e / 4096 + k)))).length else 0

/-- A shootdown is accepted and its first three steps are done (R501, R503). -/
def State.shootdown (s : State) (d : SdSt) : State :=
  let n := s.sdDqs d
  let (s1, a, w) := (s.sdWalks d).sdQueues d
  let (s2, b) := s1.sdProgram d
  let (s3, c) := s2.sdSurfs d
  let s4 := { s3 with
    tracker := s3.tracker.filter (fun t => !d.covers t.ctx t.vpage)
    sds := s3.sds ++ [{ d with invalidated := a + b + c, waited := w + n }] }
  (((s4.wr F.XLT_STATUS_SD_QUEUED s4.sds.length).wr F.XLT_SD_STAT_QUEUED s4.sds.length).showTrk 0).showTrk 1

/-- A shootdown that is commanded: accepted, or refused with its RESULT (R500). -/
def State.commandSd (s : State) (d : SdSt) : State :=
  if 8 ≤ s.sds.length then s.wr F.XLT_SD_STAT_RESULT 1
  else if 2 ^ 36 < d.vpage + d.pages then s.wr F.XLT_SD_STAT_RESULT 2
  else if !s.ctxOn d.ctx then s.wr F.XLT_SD_STAT_RESULT 3
  else ((s.shootdown d).wr F.XLT_SD_STAT_RESULT 0).showWalkers

/-- SHOOTDOWN_CMD: XLT_SD_ADDR gives the context and first page (R500). -/
def execShootdownCmd (val : Word) (s : State) : Res :=
  let w := val.toNat
  if s.stopped then ok s
  else ok (s.commandSd ⟨bits w 62 48, bit w 63, s.rd F.XLT_SD_ADDR_CTX, s.rd F.XLT_SD_ADDR_VA, bits w 35 0 + 1, 0, 0, s.now⟩)

/-- SHOOTDOWN_COMPLETE: the completion lap of the oldest shootdown (R501 step 4, R502). -/
def execShootdownComplete (elapsed : Nat) (s : State) : Res :=
  match s.sds with
  | [] => ok s
  | d :: rest =>
    if s.stopped || s.now ≤ d.since then ok s
    else
      let s1 := { s with sds := rest }
      let s2 := ((s1.wr F.XLT_STATUS_SD_QUEUED rest.length).wr F.XLT_SD_STAT_QUEUED rest.length).wr F.XLT_SD_LAP_LAP s.now
      let s3 := ((s2.wr F.XLT_SD_STAT_DONE_TOKEN d.token).inc F.XLT_SD_STAT_COUNT).wr F.XLT_SD_STAT_WORST
        (max (s.rd F.XLT_SD_STAT_WORST) (satTo 16 elapsed))
      ok (if d.notify then
          s3.emit ⟨if 200 < elapsed then 1 else 0, 0x0503, srcModule 0, s.ctxJobOf d.ctx,
            place 14 0 d.token ||| place 19 15 d.ctx ||| place 39 20 (satTo 20 elapsed) ||| place 55 40 (satTo 16 d.invalidated)
              ||| place 71 56 (satTo 16 d.waited)⟩
        else s3)

end Sys2Proof.Machine
end

