-- ==== Sys2Proof/Machine/Crimon.lean ====
section
/-!
DEFINITION. Crimon (R422 to R474): messages, the homes and their directory, the two caching agents, bias, die links and the
stop of the coherence domain. Engines of the module read and write at one instant between transactions (Machine/Ops.lean).
-/

namespace Sys2Proof

open Sys2Proof.Machine

/-! The header of R429. -/

/-- CLASS. -/
def CrMsg.cls (m : CrMsg) : Nat := bits m.hdr.toNat 127 126
/-- OP. -/
def CrMsg.op (m : CrMsg) : Nat := bits m.hdr.toNat 125 120
/-- SRC. -/
def CrMsg.src (m : CrMsg) : Nat := bits m.hdr.toNat 119 104
/-- DST. -/
def CrMsg.dst (m : CrMsg) : Nat := bits m.hdr.toNat 103 88
/-- TXN. -/
def CrMsg.txn (m : CrMsg) : Nat := bits m.hdr.toNat 87 76
/-- REQR. -/
def CrMsg.reqr (m : CrMsg) : Nat := bits m.hdr.toNat 75 60
/-- STATE. -/
def CrMsg.state (m : CrMsg) : Nat := bits m.hdr.toNat 59 58
/-- HOST. -/
def CrMsg.host (m : CrMsg) : Bool := bit m.hdr.toNat 57
/-- SPEC. -/
def CrMsg.spec (m : CrMsg) : Bool := bit m.hdr.toNat 56
/-- FWD. -/
def CrMsg.fwd (m : CrMsg) : Bool := bit m.hdr.toNat 55
/-- ADDR: a line, a control-window offset in units of 8 bytes, or a queue. -/
def CrMsg.addr (m : CrMsg) : Nat := bits m.hdr.toNat 39 0
/-- The 8 bytes that a register message carries. -/
def CrMsg.word (m : CrMsg) : Word := m.data.extractLsb' 0 64

end Sys2Proof

namespace Sys2Proof.Machine

/-- The class of a message code; none for a code that R430 does not list. -/
def opClass (op : Nat) : Option Nat :=
  if 1 ≤ op && op ≤ 8 then some 0
  else if 0x10 ≤ op && op ≤ 0x13 then some 1
  else if (0x20 ≤ op && op ≤ 0x23) || (0x28 ≤ op && op ≤ 0x2B) then some 2
  else if 0x30 ≤ op && op ≤ 0x33 then some 3
  else none

/-- A message from its fields. -/
def crMsg (op src dst txn reqr st : Nat) (host spec fwd : Bool) (addr : Nat) (data : Line) : CrMsg :=
  ⟨BitVec.ofNat 128 (place 127 126 ((opClass op).getD 0) ||| place 125 120 op ||| place 119 104 src ||| place 103 88 dst
    ||| place 87 76 txn ||| place 75 60 reqr ||| place 59 58 st ||| place 57 57 (b2n host) ||| place 56 56 (b2n spec)
    ||| place 55 55 (b2n fwd) ||| place 39 0 addr), data⟩

/-- SRC of caching agent a (HD0, HD1), and of home h. -/
def agentSrc (a : Nat) : Nat := srcOf (8 + a) 0
/-- SRC of home h. -/
def homeSrc (h : Nat) : Nat := srcOf h 0
/-- The caching agent of an SRC: unit 0 of a host die; its copy and Prism engines have units of their own and keep no line (R424). -/
def agentOf (src : Nat) : Option Nat := if src = agentSrc 0 then some 0 else if src = agentSrc 1 then some 1 else none

/-- A message of a command: an unknown OP or one in the wrong class stops the domain (R469 cause 3); a message of another OP
is another command's. -/
def State.receive (s : State) (m : CrMsg) (op : Nat) (k : Res) : Res :=
  if s.stopped then ok s
  else
    match opClass m.op with
    | none => ok (s.stopDetect 3 1 m.src m.addr)
    | some c => if c ≠ m.cls then ok (s.stopDetect 3 2 m.src m.addr) else if m.op ≠ op then ok s else k

/-! Lines, directory and bias. -/

/-- The line that a caching agent holds. -/
def State.held (s : State) (a line : Nat) : Option CacheLine := s.lines.find? (fun c => c.agent == a && c.line == line)
/-- Set, or with `st` 0 drop, an agent's line; a dropped line leaves the L2 caches that the system cache includes (R553). -/
def State.setLine (s : State) (a line st : Nat) (d : Line) : State :=
  let rest := s.lines.filter (fun c => !(c.agent == a && c.line == line))
  { s with
    lines := if st = 0 then rest else rest ++ [⟨a, line, st, d⟩]
    l2 := if st = 0 then s.l2.filter (fun p => !(p.1 / 72 == a && p.2 == line)) else s.l2 }

/-- Lines of a core's private L2: 2 MiB (R552). -/
def l2Lines : Nat := 32768

/-- A core's access brings a line into its L2, in place of its oldest one where the L2 is full; a store takes it out of the die's other L2 caches
(R552, R553). Which line of a full L2 makes place is the model's choice.
[DESIGN CHOICE, notes/assumptions/81.md] -/
def State.useL2 (s : State) (core line : Nat) (store : Bool) : State :=
  let rest := s.l2.filter (fun p => !(p.2 == line && (p.1 == core || (store && p.1 / 72 == core / 72))))
  let own := rest.filter (fun p => p.1 == core)
  { s with l2 := (if own.length < l2Lines then rest else rest.erase (own.headD (0, 0))) ++ [(core, line)] }

/-- The directory entry of a line. -/
def State.dir (s : State) (line : Nat) : DirSt := sget (fun _ => (⟨none, []⟩ : DirSt)) s.dirs line
/-- Set it. -/
def State.setDir (s : State) (line : Nat) (d : DirSt) : State :=
  { s with dirs := sset (fun _ => (⟨none, []⟩ : DirSt)) s.dirs line d }

/-- The bias of the page of a line.
[DESIGN CHOICE, notes/assumptions/33.md] -/
def State.lineBias (s : State) (line : Nat) : Nat := sget (fun _ => 0) s.bias (line / 64)

/-- The value of a line in memory. -/
def State.rawLine (s : State) (line : Nat) : Line := BitVec.ofNat 512 (ofLe ((List.range 64).map (fun i => s.rawByte (64 * line + i))))
/-- Write a line to memory. -/
def State.setRawLine (s : State) (line : Nat) (d : Line) : State := s.rawBytes (64 * line) (lineBytes d)

/-- `n` bytes of `src` from byte `o` on, in place of those of `d`. -/
def mergeLine (d src : Line) (o n : Nat) : Line :=
  let mask : Line := BitVec.ofNat 512 ((2 ^ (8 * n) - 1) <<< (8 * o))
  (d &&& ~~~mask) ||| (src &&& mask)

/-! The home. -/

/-- Mark the agent's request as granted: what answers it is on the way. An Upgr that the home answers with the line is a RdOwn from then
on: a fill is on the way for it (R433, R436). -/
def State.grant (s : State) (src txn : Nat) (line : Bool) : State :=
  match agentOf src with
  | none => s
  | some a => { s with reqs := s.reqs.map (fun (r : Req) => if r.agent = a && r.txn = txn then
      { r with granted := true, op := if line && r.op = 3 then 2 else r.op } else r) }

/-- The caching agent whose request a transaction is: one of host origin, since a host die's copy and Prism engines ask as devices (R424). -/
def Txn.agent (t : Txn) : Option Nat := if t.host then agentOf t.src else none

/-- Send Data, with the state granted (R435). -/
def State.sendData (s : State) (t : Txn) (st : Nat) : State :=
  let s1 := s.send (.crimon (crMsg 0x30 (homeSrc t.home) t.src t.txn t.src st t.host t.spec false t.line (s.rawLine t.line)))
  if t.host then s1.grant t.src t.txn true else s1
/-- Send Cmp, with the state granted to an Upgr. -/
def State.sendCmp (s : State) (t : Txn) (st : Nat) : State :=
  let s1 := s.send (.crimon (crMsg 0x28 (homeSrc t.home) t.src t.txn t.src st t.host t.spec false t.line 0))
  if t.host then s1.grant t.src t.txn false else s1

/-- Replace a transaction. -/
def State.putTxn (s : State) (t : Txn) : State :=
  { s with txns := s.txns.map (fun x => if x.home = t.home && x.src = t.src && x.txn = t.txn then t else x) }
/-- Close a transaction. -/
def State.closeTxn (s : State) (t : Txn) : State :=
  { s with txns := s.txns.filter (fun x => !(x.home == t.home && x.src == t.src && x.txn == t.txn)) }

/-- Snoop agents, and wait for them. -/
def State.snoop (s : State) (t : Txn) (op : Nat) (fwd : Bool) (agents : List Nat) : State :=
  agents.foldl (fun (s : State) a =>
    s.send (.crimon (crMsg op (homeSrc t.home) (agentSrc a) t.txn t.src 0 t.host false fwd t.line 0)))
    (s.putTxn { t with st := 2, await := agents })

/-- Answer an access of host origin with CmpFault: it is not performed. -/
def State.faultTxn (s : State) (t : Txn) : State :=
  (s.send (.crimon (crMsg 0x29 (homeSrc t.home) t.src t.txn t.src 0 true t.spec false t.line 0))).closeTxn t

/-- A demand access of host origin to a DEVICE_LOCKED page (R460): CmpFault, CRM_LOCK_FAULT and BIAS_LOCK_FAULT. -/
def State.lockFault (s : State) (t : Txn) : State :=
  let r := s.reqs.find? (fun r => some r.agent == t.agent && r.txn == t.txn)
  let core := match r with | some r => r.core | none => s.freeNat 0 % 144
  let acc := match r with
    | some r => if r.store ≠ 0 then 1 else if r.kind = .fetch then 2 else 0
    | none => if t.op = 2 || t.op = 3 then 1 else 0
  let f := t.line / 64
  let s1 := ((s.wr F.CRM_LOCK_FAULT_CORE core).wr F.CRM_LOCK_FAULT_FRAME f).inc F.CRM_LOCK_FAULT_COUNT
  let s2 := s1.noteOnce 6 0 1 (fun n => ⟨1, 0x0405, srcOf t.home 0, none,
    place 33 0 f ||| place 41 34 core ||| place 43 42 acc ||| place 59 44 (satTo 16 n)⟩)
  s2.faultTxn t

/-- Has the home received an agent's Withdraw (R467)? -/
def State.isGone (s : State) (h a : Nat) : Bool := s.gone.contains (h, a)

/-- Serve a request by the directory (R435, R436): the requester's own entry, and a withdrawn agent's, count as none. -/
def State.serveDir (s : State) (t : Txn) : State :=
  let me := t.agent
  let d := s.dir t.line
  let there (a : Nat) : Bool := some a != me && !s.isGone t.home a
  let owner := match d.owner with | some a => if there a then some a else none | none => none
  let others := d.sharers.filter there
  let own (s : State) : State := match me with | some a => s.setDir t.line ⟨some a, []⟩ | none => s
  let op := if t.op = 3 && !(match me with | some a => d.sharers.contains a | none => false) then 2 else t.op
  match op with
  | 0x01 =>
    match owner with
    | some o => s.snoop t 0x10 false [o]
    | none =>
      if others.isEmpty then ((own s).sendData t 2).closeTxn t
      else
        let s1 := match me with | some a => s.setDir t.line ⟨none, others ++ [a]⟩ | none => s
        (s1.sendData t 1).closeTxn t
  | 0x02 =>
    match owner with
    | some o => s.snoop t 0x11 true [o]
    | none => if others.isEmpty then ((own s).sendData t 2).closeTxn t else s.snoop t 0x11 false others
  | 0x03 => if others.isEmpty then ((own s).sendCmp t 2).closeTxn t else s.snoop t 0x11 false others
  | 0x04 =>
    match owner with
    | some o => s.snoop t 0x12 false [o]
    | none => (s.sendData t 0).closeTxn t
  | _ =>
    match owner with
    | some o => s.snoop t 0x11 false [o]
    | none =>
      if others.isEmpty then (((s.setRawLine t.line t.data).setDir t.line ⟨none, []⟩).sendCmp t 0).closeTxn t
      else s.snoop t 0x11 false others

/-- Start a request at its home: the page's bias first (R451, R457, R460, R461), then the directory.
[DESIGN CHOICE, notes/assumptions/33.md] -/
def State.serve (s : State) (t : Txn) : State :=
  let b := s.lineBias t.line
  let s := if b = 3 then s else s.eccReads t.home t.line
  if s.stopped then s
  else if b = 3 then s.stopDetect 4 2 (homeSrc t.home) t.line
  else if b = 0 then s.serveDir t
  else if !t.host then
    if t.op = 0x33 then ((s.setRawLine t.line t.data).sendCmp t 0).closeTxn t else (s.sendData t 0).closeTxn t
  else if t.spec then
    { s.closeTxn t with reqs := s.reqs.filter (fun r => !(some r.agent == t.agent && r.txn == t.txn)) }
  else if b = 2 then s.lockFault t
  else s.putTxn { t with st := 1 }

/-- Did a waiting write of a unit of the module come before a transaction? -/
def MemWrite.before (w : MemWrite) (t : Txn) : Bool := !w.behind.contains (t.home, t.src, t.txn)

/-- May a waiting request start: no earlier one of its line is open, none earlier of its page is held for a flip, and no earlier write of the line
by a unit waits (R425, R457)? -/
def startable (ts : List Txn) (q : List MemWrite) (t : Txn) : Bool :=
  let before := ts.takeWhile (fun x => !(x.home == t.home && x.src == t.src && x.txn == t.txn))
  t.st == 0 && !(before.any (fun x => x.blocks t.line)) && !(q.any (fun w => w.meets t.line && w.before t))

/-- Start every request that may start, in order of arrival. -/
def State.startPass (s : State) : State :=
  s.txns.foldl (fun (s : State) t =>
    if s.stopped then s
    else
      match s.txns.find? (fun x => x.home == t.home && x.src == t.src && x.txn == t.txn) with
      | some x => if startable s.txns s.memQ x then s.serve x else s
      | none => s) s

/-- Start every request, and make every waiting write, that may start: each write made may free requests that came after it. -/
def State.startAll (s : State) : State :=
  (List.range (s.memQ.length + 1)).foldl (fun (s : State) _ => s.drainMem.startPass) s

/-! Pages that flip, and the writes that a flip waits for (R455 to R459). -/

/-- A page flips to SHARED for a host access: the home counts it, a bias command at work on it leaves it SHARED, and the first flip after a
pace mark is recorded (R457 to R459). -/
def State.flipPage (s : State) (home frame drainNs : Nat) : State :=
  let s1 : State := { s with
    bias := sset (fun _ => 0) s.bias frame 0
    biasCmd := s.biasCmd.map (fun (b : BiasSt) => if b.frame ≤ frame && frame ≤ b.frame + b.count && !b.undone.contains frame then
      { b with undone := b.undone ++ [frame] } else b) }
  let s2 := (s1.inc (F.CRM_HOME_FLIPS home)).wr (F.CRM_HOME_FLIP_MAX_NS home)
    (max (s.rd (F.CRM_HOME_FLIP_MAX_NS home)) (satTo 16 drainNs))
  s2.noteOnce 5 home 1 (fun n => ⟨1, 0x0404, srcOf home 0, none,
    place 33 0 frame ||| place 49 34 (satTo 16 n) ||| place 65 50 (satTo 16 drainNs)⟩)

/-- Does a waiting write of a unit touch a page? -/
def MemWrite.inPage (w : MemWrite) (frame : Nat) : Bool :=
  decide (w.addr / 4096 ≤ frame) && decide (frame ≤ (w.addr + w.data.length - 1) / 4096)

/-- Is a device write to a page open at its home (R455, R457)? -/
def State.pageWrites (s : State) (frame : Nat) : Bool :=
  s.txns.any (fun x => x.op == 0x33 && !x.host && x.line / 64 == frame) || s.memQ.any (fun w => w.inPage frame)

/-! Accesses of the host cores (R427, R432, R434). -/

/-- The address of the control window (R29). -/
def windowBase : Nat := 0xF00000000000

/-- Does a core of a host die retire instructions: its complex is not stopped for a reset, and after a release only core 72h acts until it has
fetched (R564)?
[DESIGN CHOICE, notes/assumptions/103.md] -/
def State.coreRuns (s : State) (core : Nat) : Bool :=
  let st := s.rd (F.STR_HOST_STATE (core / 72))
  decide (core < 144) && !s.stopped && !s.tripped && !s.mrst && (st == 0 || (st == 4 && core % 72 == 0))

/-- Why an access of a host core to memory is not performed: an unpopulated address or a bias table (R477), or a home in a
host-die reset (R571). -/
def State.hostBars (s : State) (addr : Nat) : Option Bool :=
  match homeOf addr with
  | none => some false
  | some h => if inBiasTable addr then some false else if s.hdAway.contains h then some true else none

/-- Count an access of host origin that a host-die reset turns away (R571). -/
def State.rangeFault (s : State) (addr : Nat) : State :=
  match homeOf addr with
  | some h => s.inc (F.STR_HOST_RANGE_FAULT (h - 8))
  | none => s

/-- An access fault at a core; one of R571 is counted. -/
def State.accessFault (s : State) (core cause addr : Nat) (away : Bool) : State :=
  let s1 := s.send (.coreFault core cause)
  if away then s1.rangeFault addr else s1

/-- A transaction number that no open transaction of the agent has (R429): the next one that is free; none where all 4,096 are in use. -/
def State.freeTxn (s : State) (a : Nat) : Option Nat :=
  ((List.range 4096).map (fun i => (s.reqNo + i) % 4096)).find? (fun n =>
    !s.reqs.any (fun r => r.agent == a && r.txn == n) && !s.wbTxns.any (fun w => w.1 == a && w.2.2 == n))

/-- Lines of a host die's system cache: 128 MiB, inclusive of the L2 caches (R423, R553). -/
def cacheLines : Nat := 2 ^ 21

/-- Does an open request of an agent have a place of its own for the line it brings: a fill that is kept, or the answer to an Upgr whose line a
snoop has taken (R432)? -/
def State.hasPlace (s : State) (r : Req) : Bool :=
  r.op == 1 || (r.op == 2 && r.store == 1) || (r.op == 3 && (s.held r.agent r.line).isNone)

/-- Is there a place for one more fill of the agent: neither a line it holds, nor an open fill, nor a WbData under way takes it (R432)? -/
def State.placeFree (s : State) (a : Nat) : Bool :=
  decide ((s.lines.filter (·.agent == a)).length + (s.reqs.filter (fun r => r.agent == a && s.hasPlace r)).length
    + (s.wbs.filter (·.1 == a)).length < cacheLines)

/-- Must an access of the agent to a line wait: a request of its own for the line is open, or its WbData of the line is not yet taken?
One request brings the line, and the accesses that wait for it go on when it has closed.
[DESIGN CHOICE, notes/assumptions/33.md] -/
def State.lineWaits (s : State) (a line : Nat) : Bool :=
  s.reqs.any (fun r => r.agent == a && r.line == line && (r.op == 1 || r.op == 2 || r.op == 3)) || s.wbs.any (fun w => w.1 == a && w.2.1 == line)

/-- The SRC of the home of an address. -/
def homeSrcOf (addr : Nat) : Nat := match homeOf addr with | some h => homeSrc h | none => 0

/-- Send a request of a caching agent and hold it open, for the access with number `no`. -/
def State.post (s : State) (txn op core addr width : Nat) (kind : HostAccess) (store : Nat) (data : Line) (no : Nat) : State :=
  let a := core / 72
  let line := addr / 64
  ({ s with reqs := s.reqs ++ [(⟨a, line, op, txn, core, addr, width, kind, store, data, false, none, false, no⟩ : Req)] }).send
    (.crimon (crMsg op (agentSrc a) (homeSrcOf addr) txn (agentSrc a) 0 true (kind == HostAccess.spec) false line data))

/-- An access of a core waits in its agent, with its number. -/
def State.accessWaits (s : State) (no : Nat) (i : Instr) : State := { s with hostWaits := s.hostWaits ++ [(no, i)] }

/-- With a transaction number for the agent; without one, the access waits. -/
def State.withTxn (s : State) (a no : Nat) (i : Instr) (k : Nat → State → State) : State :=
  match s.freeTxn a with
  | some n => k n { s with reqNo := (n + 1) % 4096 }
  | none => s.accessWaits no i

/-- An access of a host core sends its request, once it need not wait and, where the line is to be kept, has reserved its place (R429, R432,
R434). -/
def State.request (s : State) (no : Nat) (i : Instr) (op core addr width : Nat) (kind : HostAccess) (store : Nat) (data : Line) : State :=
  let a := core / 72
  let keeps := op = 1 || (op = 2 && store = 1)
  if s.lineWaits a (addr / 64) || (keeps && !s.placeFree a) then s.accessWaits no i
  else s.withTxn a no i fun n t => t.post n op core addr width kind store data no

/-- A load, fetch or prefetch of a host core (R427, R434, R460, R461, R477, R556).
[DEDUCED, notes/assumptions/8.md] -/
def State.hostLoad (s : State) (no core addr width : Nat) (kind : HostAccess) (ty : HostMemType) : State :=
  let cause := if kind = .fetch then 1 else 5
  let i := Instr.hostLoad core addr width kind ty
  if windowBase ≤ addr && addr < windowBase + 2 ^ 28 then
    if kind = .fetch then s.send (.coreFault core 1)
    else if kind = .reserved then s.send (.coreFault core 5)
    else if kind = .spec then s
    else
      let off := (addr - windowBase) / 8
      s.withTxn (core / 72) no i fun n t => ({ t with
        reqs := t.reqs ++ [(⟨core / 72, off, 5, n, core, addr, width, kind, 0, 0, true, none, false, no⟩ : Req)] } : State).send
          (.crimon (crMsg 5 (agentSrc (core / 72)) 0 n (agentSrc (core / 72)) 0 true false false off 0))
  else
    match s.hostBars addr with
    | some away => if kind = .spec then s else s.accessFault core cause addr away
    | none =>
      match ty with
      | .uncached => s.request no i 4 core addr width kind 0 0
      | .cached =>
        match s.held (core / 72) (addr / 64) with
        | some c => if kind = .spec then s else (s.useL2 core (addr / 64) false).send (.coreData core c.data)
        | none => s.request no i 1 core addr width kind 0 0

/-- A store, or with `amo` an AMO or store-conditional, of a host core, its bytes at their place in the line (R427, R434, R446, R477, R556). The
module ignores a write of less than 64 bits to the control window (R8).
[DEDUCED, notes/assumptions/8.md] -/
def State.hostStore (s : State) (no core addr width : Nat) (data : Line) (ty : HostMemType) (amo : Bool) : State :=
  let a := core / 72
  let i := Instr.hostStore core addr width data ty amo
  if windowBase ≤ addr && addr < windowBase + 2 ^ 28 then
    if amo then s.send (.coreFault core 7)
    else if width < 8 then s
    else
      let off := addr - windowBase
      let v : Line := BitVec.ofNat 512 (data.toNat >>> (8 * (addr % 64)))
      if 0x600000 ≤ off && off < 0x700000 && off % 0x1000 = 0 then
        s.withTxn a no i fun n t =>
          t.send (.crimon (crMsg 7 (agentSrc a) (agentSrc a) n (agentSrc a) 0 true false false ((off - 0x600000) / 0x1000) v))
      else if 0x600000 ≤ off && off < 0x700000 && off % 0x1000 = 8 then
        s.holdDoorbell core ((off - 0x600000) / 0x1000) (v.extractLsb' 0 64).toNat no
      else s.withTxn a no i fun n t => t.send (.crimon (crMsg 6 (agentSrc a) 0 n (agentSrc a) 0 true false false (off / 8) v))
  else
    match s.hostBars addr with
    | some away => s.accessFault core 7 addr away
    | none =>
      let line := addr / 64
      match ty with
      | .uncached =>
        if addr % 64 = 0 && width = 64 then s.request no i 0x33 core addr width .load 2 data
        else s.request no i 2 core addr width .load 2 data
      | .cached =>
        match s.held a line with
        | some c =>
          if 2 ≤ c.st && !s.lineWaits a line then (s.setLine a line 3 (mergeLine c.data data (addr % 64) width)).useL2 core line true
          else s.request no i 3 core addr width .load 1 data
        | none => s.request no i 2 core addr width .load 1 data

/-- The accesses that wait in the caching agents try again, in order of issue; those of an agent that withdraws go on waiting. -/
def State.retryHost (s : State) : State :=
  let away (core : Nat) : Bool := s.rd (F.CRM_AGENT_STATE (core / 72)) != 0
  s.hostWaits.foldl (fun (s : State) p => match p.2 with
    | .hostLoad core addr width kind ty =>
      if away core then s.accessWaits p.1 p.2 else s.hostLoad p.1 core addr width kind ty
    | .hostStore core addr width data ty amo =>
      if away core then s.accessWaits p.1 p.2 else s.hostStore p.1 core addr width data ty amo
    | _ => s) { s with hostWaits := [] }

/-! Inbound requests of the root ports (R559, R560). -/

/-- The cache complex of die p takes a line for an inbound request, as for an access of its own cores (R435, R559): other copies go, or become S,
a dirty one reaching memory first. The request is served at one instant, and a complex that has no place keeps no copy.
[DESIGN CHOICE, notes/assumptions/33.md] -/
def State.pcieTake (s : State) (p line : Nat) (write : Bool) : State :=
  let mine := s.held p line
  if mine.any (fun c => !write || decide (2 ≤ c.st)) then s
  else
    let h := (homeOf (64 * line)).getD 0
    let s1 := s.eccRead h line 1
    let s2 := if s1.stopped then s1 else s1.eccRead h line 0
    let o := 1 - p
    let d := s2.dir line
    let there := (d.owner == some o || d.sharers.contains o) && !s2.isGone h o
    let s3 := if there && (write || d.owner == some o) then s2.inc (F.CRM_AGENT_SNOOPS o) else s2
    let s4 := match s3.held o line with
      | some c =>
        let t := if c.st = 3 then s3.setRawLine line c.data else s3
        if write then t.setLine o line 0 0 else t.setLine o line 1 c.data
      | none => s3
    let shared := !write && there && (d.owner != some o || (s4.held o line).isSome)
    if s2.stopped then s2
    else if mine.isSome || s4.placeFree p then
      (s4.setLine p line (if shared then 1 else 2) (s4.rawLine line)).setDir line (if shared then ⟨none, [o, p]⟩ else ⟨some p, []⟩)
    else s4.setDir line (if shared then ⟨none, [o]⟩ else ⟨none, []⟩)

/-- An inbound write changes the lines taken for it. -/
def State.pcieStore (s : State) (p a : Nat) (data : List Byte) : State :=
  (linesOf a data.length).foldl (fun (s : State) l =>
    let o := if l = a / 64 then a % 64 else 0
    let part := (data.drop (64 * l + o - a)).take (64 - o)
    match s.held p l with
    | some c => s.setLine p l 3 (mergeLine c.data (BitVec.ofNat 512 (ofLe part <<< (8 * o))) o part.length)
    | none => s.rawBytes (64 * l + o) part) s

/-- An inbound request after the IOMMU (R559, R560): it waits while a reset of its die holds it by flow control (R567), while a home is busy with
one of its lines, and behind an earlier one of its port.
[DESIGN CHOICE, notes/assumptions/103.md] -/
def State.inbound (s : State) (p : Nat) (r : PcieReq) : State :=
  let st := s.rd (F.STR_HOST_STATE p)
  let held : State := { s with pcieHeld := s.pcieHeld ++ [(p, r)] }
  let abort (s : State) : State := if r.write then s else s.send (.pcieAbort p)
  let unsupported : State := if r.write then s else s.send (.pcieUnsupported p)
  if st = 1 || st = 2 || st = 3 || s.pcieHeld.any (fun x => x.1 == p) then held
  else
    match r.addr with
    | none => unsupported
    | some a =>
      let len := if r.write then r.data.length else r.len
      let last := a + len - 1
      let lines := linesOf a len
      if windowBase ≤ last || s.hostBars a == some false || s.hostBars last == some false then unsupported
      else
        match [a, last].find? (fun x => s.hostBars x == some true) with
        | some x => abort (s.rangeFault x)
        | none =>
          if lines.any s.lineBusy || lines.any (fun l => s.biasOf l == 1 && s.pageWrites (l / 64)) then held
          else
            let frames := (lines.map (· / 64)).dedup
            let bias (f : Nat) : Nat := sget (fun _ => 0) s.bias f
            let s0 := (lines.filter (fun l => (s.held p l).isNone)).foldl (fun (s : State) l =>
              if s.stopped then s else s.eccRead ((homeOf (64 * l)).getD 0) l 2) s
            if s0.stopped then s0
            else
              match frames.find? (fun f => bias f == 2), frames.find? (fun f => bias f == 3) with
              | some f, _ =>
                (abort (s0.inc (F.STR_PCIE_LOCK_ABORT p))).noteOnce 7 p 1 (fun cnt =>
                  ⟨1, 0x0143, srcOf (10 + 2 * p) 32, none,
                    place 0 0 p ||| place 16 1 r.requester ||| place 50 17 f ||| place 66 51 (satTo 16 cnt)⟩)
              | none, some f => s0.stopDetect 4 2 (homeSrcOf (4096 * f)) (64 * f)
              | none, none =>
                let s1 := frames.foldl (fun (s : State) f =>
                  if bias f = 1 then s.flipPage ((homeOf (4096 * f)).getD 0) f (s.freeNat 0) else s) s0
                let s2 := lines.foldl (fun (s : State) l => if s.stopped then s else s.pcieTake p l r.write) s1
                if s2.stopped then s2
                else if r.write then (s2.pcieStore p a r.data).tick
                else (s2.send (.pcieData p (s2.memBytes a len))).tick

/-- The inbound requests that are held try again, in order. -/
def State.servePcie (s : State) : State :=
  s.pcieHeld.foldl (fun (s : State) x => if s.stopped then s else s.inbound x.1 x.2) { s with pcieHeld := [] }

/-- What waited for a transaction that has closed goes on: accesses of the cores, inbound requests, and the ordered doorbells whose earlier writes
have completed (R447). -/
def State.settle (s : State) : State := if s.stopped then s else s.retryHost.servePcie.passOdbs

/-- HOST_LOAD. -/
def execHostLoad (core addr width : Nat) (kind : HostAccess) (ty : HostMemType) (s : State) : Res :=
  if s.coreRuns core then ok (s.hostLoad s.wrNo core addr width kind ty) else ok s

/-- HOST_STORE: it takes the next number among the writes of the cores (R447). -/
def execHostStore (core addr width : Nat) (data : Line) (ty : HostMemType) (amo : Bool) (s : State) : Res :=
  if s.coreRuns core then ok (({ s with wrNo := s.wrNo + 1 } : State).hostStore s.wrNo core addr width data ty amo) else ok s

/-! Requests at the homes. -/

/-- A request arrives at its home (R425); a TXN already open stops the domain, and so does a request for an address that no home serves,
which R477 and R478 let no agent form. R469 lists no DETAIL for it: that value is free (R469). An access of host origin that was on its way when
the home's host-die reset began is answered with CmpFault, so that its core takes the access fault (R571).
[DESIGN CHOICE, notes/assumptions/33.md] -/
def State.arrive (s : State) (m : CrMsg) : Res :=
  match homeOf (64 * m.addr) with
  | none => ok (s.stopDetect 3 (s.freeNat 0 % 256) m.src m.addr).tick
  | some h =>
    if s.txns.any (fun t => t.src == m.src && t.txn == m.txn) then ok (s.stopDetect 3 7 m.src m.addr)
    else
      let t : Txn := ⟨h, m.addr, m.op, m.src, m.txn, m.host, m.spec, m.data, 0, []⟩
      if m.host && s.hdAway.contains h then ok ((s.rangeFault (64 * m.addr)).faultTxn t)
      else
        let s1 := if t.agent.isSome then s else { s with devReqs := s.devReqs ++ [(m.src, m.txn, m.addr)] }
        let s2 := if m.host then s1 else s1.touch (64 * m.addr) 1
        ok ({ s2 with txns := s2.txns ++ [t] } : State).startAll.settle.tick

/-- RDSHR. -/
def execRdshr (m : CrMsg) (s : State) : Res := s.receive m 0x01 (s.arrive m)
/-- RDOWN. -/
def execRdown (m : CrMsg) (s : State) : Res := s.receive m 0x02 (s.arrive m)
/-- UPGR. -/
def execUpgr (m : CrMsg) (s : State) : Res := s.receive m 0x03 (s.arrive m)
/-- RDNA (R448). -/
def execRdna (m : CrMsg) (s : State) : Res := s.receive m 0x04 (s.arrive m)
/-- WRINVFULL (R449, R450). -/
def execWrinvfull (m : CrMsg) (s : State) : Res := s.receive m 0x33 (s.arrive m)

/-- The open transaction of a line that waits for an agent. -/
def State.waiting (s : State) (line a : Nat) : Option Txn := s.txns.find? (fun t => t.line == line && t.st == 2 && t.await.contains a)

/-- The response time of a snoop (R441, R442): a third miss of an agent between two pace marks stops the domain. -/
def State.respTime (s : State) (a h line ns : Nat) : State :=
  let s1 := s.wr (F.CRM_AGENT_WORST_NS a) (max (s.rd (F.CRM_AGENT_WORST_NS a)) (satTo 12 ns))
  if ns ≤ 96 then s1
  else
    let n := s.rd (F.CRM_AGENT_MISSES a) + 1
    let s2 := ((s1.wr (F.CRM_AGENT_MISSES a) (min n 3)).inc (F.CRM_AGENT_MISS_TOTAL a)).emit
      ⟨2, 0x0402, srcOf (8 + a) 0, none,
        place 0 0 a ||| place 4 1 h ||| place 16 5 (satTo 12 ns) ||| place 18 17 n ||| place 58 19 line⟩
    if 3 ≤ n then s2.stopDetect 1 0 (agentSrc a) line else s2

/-- An agent keeps no copy of a line. -/
def State.dirDrop (s : State) (line a : Nat) : State :=
  let d := s.dir line
  s.setDir line ⟨if d.owner = some a then none else d.owner, d.sharers.filter (· ≠ a)⟩

/-- Is a WbData of an agent for a line under way? -/
def State.wbComes (s : State) (a line : Nat) : Bool := s.wbs.any (fun w => w.1 == a && w.2.1 == line)

/-- One awaited agent has answered; when all have, the request is served again by the directory as it now stands. -/
def State.answered (s : State) (t : Txn) (a : Nat) : State :=
  let left := t.await.filter (· ≠ a)
  if left.isEmpty then (s.putTxn { t with st := 0, await := [] }).startAll else s.putTxn { t with await := left }

/-- A SnpFlush is answered: no copy remains, and a dirty value is on its way in a WbData, until which the agent stays the owner (R434, R437). -/
def State.flushed (s : State) (a line : Nat) : State :=
  let s1 := { s with flushes := s.flushes.filter (fun f => f ≠ (a, line)) }
  if s1.wbComes a line then s1 else s1.dirDrop line a

/-- A response of agent SRC: what it does to the transaction that waits for it, named by its requester and TXN (R435 to R437), or to the SnpFlush
that it answers (R455).
[DESIGN CHOICE, notes/assumptions/3.md] -/
def State.respond (s : State) (m : CrMsg) (ns : Nat) (k : Txn → Nat → State → State) : Res :=
  match agentOf m.src, homeOf (64 * m.addr) with
  | _, none | none, _ => ok (s.stopDetect 3 3 m.src m.addr)
  | some a, some h =>
    let s1 := s.respTime a h m.addr ns
    match s.waiting m.addr a, (m.op == 0x20 || m.op == 0x23) && s.flushes.contains (a, m.addr) with
    | some t, flush =>
      if m.reqr = t.src && m.txn = t.txn then ok (if s1.stopped then s1 else (k t a s1).settle).tick
      else if flush then ok (if s1.stopped then s1 else s1.flushed a m.addr)
      else ok (s.stopDetect 3 3 m.src m.addr)
    | none, true => ok (if s1.stopped then s1 else s1.flushed a m.addr)
    | none, false => ok (s.stopDetect 3 3 m.src m.addr)

/-- RSPI: no copy remains; an entry whose agent answers so is corrected (R436). -/
def execRspi (m : CrMsg) (ns : Nat) (s : State) : Res :=
  s.receive m 0x20 (s.respond m ns fun t a s => (s.dirDrop t.line a).answered t a)

/-- RSPS: an S copy remains; after a RdNA the directory entry stays as it is (R435). -/
def execRsps (m : CrMsg) (ns : Nat) (s : State) : Res :=
  s.receive m 0x21 (s.respond m ns fun t a s =>
    if t.op = 4 then ((s.sendData t 0).closeTxn t).startAll
    else (s.setDir t.line ⟨none, (s.dir t.line).sharers.filter (· ≠ a) ++ [a]⟩).answered t a)

/-- The directory after a forward (R435): both share after a read, the requester owns after a RdOwn. -/
def State.forwarded (s : State) (t : Txn) (a : Nat) : State :=
  match t.op, t.agent with
  | 0x01, some r => s.setDir t.line ⟨none, [a, r].dedup⟩
  | 0x04, _ => s
  | _, some r => s.setDir t.line ⟨some r, []⟩
  | _, none => s

/-- RSPFWD: the line was forwarded. A WbData of the forward that is still on its way keeps the transaction open (R435). -/
def execRspfwd (m : CrMsg) (ns : Nat) (s : State) : Res :=
  s.receive m 0x22 (s.respond m ns fun t a s =>
    if s.wbComes a t.line then (s.putTxn { t with st := 3, await := [a] })
    else ((s.forwarded t a).closeTxn t).startAll)

/-- RSPWBPEND: the home takes the line's value from the WbData that is on its way, or has been taken already (R437). -/
def execRspwbpend (m : CrMsg) (ns : Nat) (s : State) : Res :=
  s.receive m 0x23 (s.respond m ns fun t a s =>
    if s.wbComes a t.line then s.putTxn { t with st := 4, await := [a] }
    else (s.dirDrop t.line a).answered t a)

/-- SNOOP_TIMEOUT: a response, also one to a SnpFlush, has not reached the home within 1 µs (R443). -/
def execSnoopTimeout (home line a : Nat) (s : State) : Res :=
  if (s.waiting line a).any (fun t => t.home == home) || (s.flushes.contains (a, line) && homeOf (64 * line) == some home) then
    ok (s.stopDetect 2 0 (agentSrc a) line)
  else ok s

/-! The caching agents. -/

/-- An agent sends a line home in a WbData. -/
def State.sendWb (s : State) (a line txn : Nat) (d : Line) : State :=
  ({ s with wbs := s.wbs ++ [(a, line, d)] }).send
    (.crimon (crMsg 0x32 (agentSrc a) (homeSrcOf (64 * line)) txn (agentSrc a) 0 true false false line d))

/-- An agent writes back a line that it holds in M, once it has a TXN for it (R434). -/
def State.writeBack (s : State) (a line : Nat) (d : Line) : State :=
  match s.freeTxn a with
  | none => s
  | some n => ({ s.setLine a line 0 0 with wbTxns := s.wbTxns ++ [(a, line, n)], reqNo := (n + 1) % 4096 } : State).sendWb a line n d

/-- An agent that withdraws writes back its M lines and drops every other, none within its tenure; once nothing of it is open any more it sends
Withdraw to every home (R439, R467, R564). -/
def State.withdrawOn (s : State) (a : Nat) : State :=
  if s.stopped || !s.leaving.contains a then s
  else
    let free (c : CacheLine) : Bool := c.agent == a && !s.tenures.contains (a, c.line)
    let s1 := (s.lines.filter free).foldl (fun (s : State) c =>
      if c.st = 3 then s.writeBack a c.line c.data else s.setLine a c.line 0 0) s
    if s1.lines.any (fun c => c.agent == a) || s1.reqs.any (fun r => r.agent == a) || s1.wbs.any (fun w => w.1 == a)
        || s1.heldSnps.any (fun p => p.1 == a) then s1
    else
      (List.range 10).foldl (fun (s : State) h =>
        s.send (.crimon (crMsg 8 (agentSrc a) (homeSrc h) 0 (agentSrc a) 0 true false false 0 0)))
        { s1 with leaving := s1.leaving.filter (· ≠ a) }

/-- WBDATA from the owner (R435): the line is written; one that a forward or a snoop waits for closes it. -/
def execWbdata (m : CrMsg) (s : State) : Res :=
  s.receive m 0x32 (
    match agentOf m.src, homeOf (64 * m.addr) with
    | _, none | none, _ => ok (s.stopDetect 3 5 m.src m.addr)
    | some a, some _ =>
      if (s.dir m.addr).owner ≠ some a then ok (s.stopDetect 3 5 m.src m.addr)
      else
        let s1 := ({ s with
          wbs := s.wbs.filter (fun w => !(w.1 == a && w.2.1 == m.addr))
          reqs := s.reqs.filter (fun r => !(r.agent == a && r.line == m.addr && r.op == 2 && r.store == 3))
          wbTxns := s.wbTxns.filter (fun w => !(w.1 == a && w.2.1 == m.addr)) } : State).setRawLine m.addr m.data
        let s2 := match s.txns.find? (fun t => t.line == m.addr && decide (2 ≤ t.st) && t.await.contains a) with
          | some t =>
            if t.st = 3 then ((s1.forwarded t a).closeTxn t).startAll
            else if t.st = 4 then (s1.dirDrop m.addr a).answered t a
            else s1
          | none => (s1.setDir m.addr ⟨none, []⟩).startAll
        ok (s2.settle.withdrawOn a).tick)

/-- An agent answers a snoop (R434, R437). A snoop that leaves S, while an Upgr that the home has granted is on its way back, voids the grant: the
store will ask again (R426). -/
def State.answerSnoop (s : State) (a : Nat) (m : CrMsg) : State :=
  let line := m.addr
  let rsp (s : State) (op st : Nat) : State :=
    s.send (.crimon (crMsg op (agentSrc a) m.src m.txn m.reqr st m.host false false line 0))
  let fwd (s : State) (st : Nat) (d : Line) : State :=
    let s0 := s.send (.crimon (crMsg 0x31 (agentSrc a) m.reqr m.txn m.reqr st m.host false false line d))
    let s1 := if m.host then s0.grant m.reqr m.txn true else s0
    if st = 3 then { s1 with reqs := s1.reqs.map (fun r => if some r.agent = agentOf m.reqr && r.txn = m.txn then { r with flight := some d } else r) }
    else s1
  let wb (s : State) (d : Line) : State :=
    { s with wbs := s.wbs ++ [(a, line, d)] }.send (.crimon (crMsg 0x32 (agentSrc a) m.src m.txn m.reqr 0 m.host false false line d))
  let kept (s : State) : State := { s with reqs := s.reqs.map (fun (r : Req) =>
    if r.agent = a && r.line = line && r.op = 3 && r.granted then { r with stale := true } else r) }
  let s := s.inc (F.CRM_AGENT_SNOOPS a)
  if s.wbComes a line then rsp s 0x23 0
  else
    match s.held a line with
    | none => rsp s 0x20 0
    | some c =>
      match m.op with
      | 0x10 =>
        if c.st = 1 then rsp (kept s) 0x21 1
        else
          let s1 := fwd s 1 c.data
          let s2 := if c.st = 3 then wb s1 c.data else s1
          rsp (s2.setLine a line 1 c.data) 0x22 1
      | 0x11 =>
        let s1 := s.setLine a line 0 0
        if m.fwd && 2 ≤ c.st then rsp (fwd s1 c.st c.data) 0x22 0 else rsp s1 0x20 0
      | 0x12 => if c.st = 1 then rsp (kept s) 0x21 1 else rsp (fwd s 0 c.data) 0x22 c.st
      | _ =>
        let s1 := s.setLine a line 0 0
        rsp (if c.st = 3 then wb s1 c.data else s1) 0x20 0

/-- A snoop arrives: it is held while a fill of its line is on the way, and for the line's tenure; an answer that brings no line, such as
the Cmp of an Upgr, holds none (R433, R439). -/
def State.snoopArrives (s : State) (m : CrMsg) : Res :=
  match agentOf m.dst with
  | none => ok s
  | some a =>
    if s.tenures.contains (a, m.addr) || s.reqs.any (fun r => r.agent == a && r.filling m.addr) then
      ok { s with heldSnps := s.heldSnps ++ [(a, m)] }
    else ok ((s.answerSnoop a m).withdrawOn a)

/-- SNPSHR. -/
def execSnpshr (m : CrMsg) (s : State) : Res := s.receive m 0x10 (s.snoopArrives m)
/-- SNPINV. -/
def execSnpinv (m : CrMsg) (s : State) : Res := s.receive m 0x11 (s.snoopArrives m)
/-- SNPCUR. -/
def execSnpcur (m : CrMsg) (s : State) : Res := s.receive m 0x12 (s.snoopArrives m)
/-- SNPFLUSH. -/
def execSnpflush (m : CrMsg) (s : State) : Res := s.receive m 0x13 (s.snoopArrives m)

/-- The snoops that an agent holds for a line are answered. -/
def State.answerHeld (s : State) (a line : Nat) : State :=
  (s.heldSnps.filter (fun p => p.1 == a && p.2.addr == line)).foldl (fun (s : State) p => s.answerSnoop a p.2)
    { s with heldSnps := s.heldSnps.filter (fun p => !(p.1 == a && p.2.addr == line)) }

/-- TENURE_END: the held snoops of the line are answered (R439, R441), and what waited for the tenure goes on. -/
def execTenureEnd (a line : Nat) (s : State) : Res :=
  if s.stopped || !s.tenures.contains (a, line) then ok s
  else
    let s1 := ({ s with tenures := s.tenures.filter (fun t => t ≠ (a, line)) } : State).answerHeld a line
    ok ((s1.withdrawOn a).startAll.settle).tick

/-- HOST_EVICT: M is written back; S and E leave silently (R434). A line within its tenure is held (R439). -/
def execHostEvict (a line : Nat) (s : State) : Res :=
  if s.stopped || s.tenures.contains (a, line) then ok s
  else
    match s.held a line with
    | none => ok s
    | some c => ok (if c.st = 3 then s.writeBack a line c.data else s.setLine a line 0 0).settle

/-- Close an agent's request. -/
def State.closeReq (s : State) (r : Req) : State :=
  { s with reqs := s.reqs.filter (fun x => !(x.agent == r.agent && x.txn == r.txn)) }

/-- Have the cores of a die stopped for a core-complex reset, so that no instruction waits for what its open transactions return (R564)? -/
def State.coresOff (s : State) (a : Nat) : Bool := s.rd (F.STR_HOST_STATE a) == 1

/-- The fill of a request arrives: the line enters the cache and the oldest access that waited for it retires within the
tenure (R432, R439, R440). A narrower uncached store stays open until the home has taken its WbData (R427). A complex that a reset has stopped keeps
no fill: a dirty one goes home in a WbData, any other is discarded (R564).
[DEDUCED, notes/assumptions/80.md] -/
def State.fill (s : State) (r : Req) (st : Nat) (d : Line) : State :=
  let merged := mergeLine d r.data (r.addr % 64) r.width
  let s1 := s.closeReq r
  if r.store = 2 then
    ({ s with reqs := s.reqs.map (fun (x : Req) => if x.agent = r.agent && x.txn = r.txn then { x with store := 3 } else x) }.sendWb
      r.agent r.line r.txn merged).answerHeld r.agent r.line
  else if s.coresOff r.agent then
    (if st = 3 && r.op ≠ 4 then ({ s1 with wbTxns := s1.wbTxns ++ [(r.agent, r.line, r.txn)] } : State).sendWb r.agent r.line r.txn d
      else s1).answerHeld r.agent r.line
  else if r.op = 4 then s1.send (.coreData r.core d)
  else
    let s2 := { s1 with tenures := s1.tenures.filter (fun t => t ≠ (r.agent, r.line)) ++ [(r.agent, r.line)] }
    if r.store = 1 then (s2.setLine r.agent r.line 3 merged).useL2 r.core r.line true
    else
      let s3 := s2.setLine r.agent r.line st d
      if r.kind = .spec then s3 else (s3.useL2 r.core r.line false).send (.coreData r.core d)

/-- What arrives for a requester that is no caching agent closes its request (R424, R430); one that it has not asked for stops the domain. -/
def State.deviceTakes (s : State) (m : CrMsg) (detail : Nat) : Res :=
  if s.devReqs.contains (m.dst, m.txn, m.addr) then ok { s with devReqs := s.devReqs.erase (m.dst, m.txn, m.addr) }
  else ok (s.stopDetect 3 detail m.src m.addr)

/-- The caching agent that a message is for: one of host origin (R424). -/
def forAgent (m : CrMsg) : Option Nat := if m.host then agentOf m.dst else none

/-- Line data for a requester (R431): it must answer a request that is open. -/
def State.dataArrives (s : State) (m : CrMsg) : Res :=
  match forAgent m with
  | none => s.deviceTakes m 4
  | some a =>
    match s.reqs.find? (fun r => r.agent == a && r.txn == m.txn && r.line == m.addr && r.op != 5 && r.store != 3) with
    | some r => ok (((s.fill r m.state m.data).withdrawOn a).startAll.settle).tick
    | none => ok (s.stopDetect 3 4 m.src m.addr)

/-- DATA. -/
def execData (m : CrMsg) (s : State) : Res := s.receive m 0x30 (s.dataArrives m)
/-- FWDDATA. -/
def execFwddata (m : CrMsg) (s : State) : Res := s.receive m 0x31 (s.dataArrives m)

/-- CMP: an Upgr gains E and its store retires; where a snoop has taken the line meanwhile, or has had its S copy answered for, the store asks
again under the place it has. An uncached whole-line store is complete. No store of a complex that a reset has stopped retires (R564). -/
def execCmp (m : CrMsg) (s : State) : Res :=
  s.receive m 0x28 (
    match forAgent m with
    | none => s.deviceTakes m 3
    | some a =>
      match s.reqs.find? (fun r => r.agent == a && r.txn == m.txn && r.line == m.addr && (r.op == 3 || r.op == 0x33)) with
      | none => ok (s.stopDetect 3 3 m.src m.addr)
      | some r =>
        let s1 := s.closeReq r
        let s2 :=
          if r.op = 0x33 || s.coresOff a then s1
          else
            match s.held a r.line with
            | some c =>
              if r.stale then s1.post r.txn 3 r.core r.addr r.width r.kind r.store r.data r.no
              else (s1.setLine a r.line 3 (mergeLine c.data r.data (r.addr % 64) r.width)).useL2 r.core r.line true
            | none => s1.post r.txn 2 r.core r.addr r.width r.kind r.store r.data r.no
        ok ((s2.withdrawOn a).startAll.settle).tick)

/-- CMPFAULT: the access is not performed and its core takes an access fault (R460). -/
def execCmpfault (m : CrMsg) (s : State) : Res :=
  s.receive m 0x29 (
    match forAgent m with
    | none => s.deviceTakes m 3
    | some a =>
      match s.reqs.find? (fun r => r.agent == a && r.txn == m.txn && r.store != 3) with
      | none => ok (s.stopDetect 3 3 m.src m.addr)
      | some r =>
        let s1 := s.closeReq r
        let s2 := if s.coresOff a then s1 else s1.send (.coreFault r.core (if r.store ≠ 0 then 7 else if r.kind = .fetch then 1 else 5))
        ok (s2.withdrawOn a).settle)

/-- REGDATA: the value of a register reaches the core that read it (R445). -/
def execRegdata (m : CrMsg) (s : State) : Res :=
  s.receive m 0x2A (
    match agentOf m.dst with
    | none => ok s
    | some a =>
      match s.reqs.find? (fun r => r.agent == a && r.txn == m.txn && r.op == 5) with
      | none => ok (s.stopDetect 3 3 m.src m.addr)
      | some r =>
        let s1 := s.closeReq r
        ok ((if s.coresOff a then s1 else s1.send (.coreData r.core m.data)).withdrawOn a).settle)

/-- The messages that a home or an agent has sent to another one. -/
def State.sentTo (s : State) (src dst : Nat) : Nat :=
  (s.out.filter (fun o => match o with | .crimon m => m.src == src && m.dst == dst | _ => false)).length

/-- CREDIT: returned credits are taken in (R428, R431). A home or an agent that gets back more credits than it has sent messages stops the domain:
credit overflow (R469). The manual gives no number of credits.
[DESIGN CHOICE, notes/assumptions/29.md] -/
def execCredit (m : CrMsg) (s : State) : Res :=
  s.receive m 0x2B (
    let k := 65536 * m.src + m.dst
    let n := sget (fun _ => 0) s.credits k + 1
    let ours := (agentOf m.dst).isSome || (List.range 10).any (fun h => homeSrc h == m.dst)
    if ours && decide (s.sentTo m.dst m.src < n) then ok (s.stopDetect 3 6 m.src 0)
    else ok { s with credits := sset (fun _ => 0) s.credits k n })

/-- DOORBELL: the doorbell sink takes it (R446), and the submission unit treats it under R521. -/
def execDoorbell (m : CrMsg) (s : State) : Res :=
  s.receive m 0x07 (if m.addr < 256 then ok (s.ringDoorbell m.addr m.word.toNat) else ok s)

/-! Withdrawal (R467, R468). -/

/-- WITHDRAW: from its receipt the home answers snoops for the agent itself with RspI: no entry of the home names it any more, and what waited for
its answers goes on. One that arrives when its withdrawal has been abandoned is void (R570).
[DESIGN CHOICE, notes/assumptions/103.md] -/
def execWithdraw (m : CrMsg) (s : State) : Res :=
  s.receive m 0x08 (
    match agentOf m.src with
    | none => ok s
    | some a =>
      let h := m.dst / 2048
      if s.rd (F.CRM_AGENT_STATE a) = 0 then ok s
      else
        let s1 := { s with
          gone := s.gone.filter (fun g => g ≠ (h, a)) ++ [(h, a)]
          flushes := s.flushes.filter (fun f => !(f.1 == a && homeOf (64 * f.2) == some h)) }
        let s2 := (s1.dirs.filter (fun p => homeOf (64 * p.1) == some h)).foldl (fun (s : State) p => s.dirDrop p.1 a) s1
        let s3 := (s2.txns.filter (fun t => t.home == h && t.await.contains a)).foldl (fun (s : State) t =>
          if t.st = 3 then ((s.forwarded t a).closeTxn t).startAll else s.answered t a) s2
        ok (if (List.range 10).all (fun h => s3.gone.contains (h, a)) then s3.wr (F.CRM_AGENT_STATE a) 2 else s3).settle.tick)

/-- WITHDRAW_TIMEOUT: a withdrawal not complete at every home within 1 ms stops the domain (R468, R566). -/
def execWithdrawTimeout (a : Nat) (s : State) : Res :=
  if s.rd (F.CRM_AGENT_STATE a) = 1 then ok (s.stopDetect 6 0 (agentSrc a) 0) else ok s

/-- A withdrawal begins (R467). -/
def State.withdraw (s : State) (a : Nat) : State :=
  ({ s.wr (F.CRM_AGENT_STATE a) 1 with leaving := s.leaving.filter (· ≠ a) ++ [a] } : State).withdrawOn a

/-- An agent rejoins with every line in I (R468). -/
def State.rejoin (s : State) (a : Nat) : State :=
  ({ s with gone := s.gone.filter (fun g => g.2 ≠ a), leaving := s.leaving.filter (· ≠ a) }).wr (F.CRM_AGENT_STATE a) 0

/-! Bias commands and flips (R454 to R459). -/

/-- SnpFlush for every line of some pages that the directory shows cached, to each agent that it names and that is not snooped already (R455,
R569). -/
def State.flushPages (s : State) (lines : Nat → Bool) : State :=
  s.dirs.foldl (fun (s : State) p =>
    if lines p.1 then
      let h := (homeOf (64 * p.1)).getD 0
      ((p.2.owner.toList ++ p.2.sharers).filter (fun a => !s.isGone h a && !s.flushes.contains (a, p.1))).foldl (fun (s : State) a =>
        ({ s with flushes := s.flushes ++ [(a, p.1)] } : State).send
          (.crimon (crMsg 0x13 (homeSrc h) (agentSrc a) 0 (homeSrc h) 0 true false false p.1 0))) s
    else s) s

/-- May a host copy of one of some lines remain, or come: the directory names an agent, a SnpFlush is not answered, a WbData or a fill is under way,
or a request of host origin is being served? -/
def State.hostCopies (s : State) (lines : Nat → Bool) : Bool :=
  s.dirs.any (fun p => lines p.1 && (p.2.owner.isSome || !p.2.sharers.isEmpty)) || s.flushes.any (fun f => lines f.2)
    || s.wbs.any (fun w => lines w.2.1) || s.lines.any (fun c => lines c.line) || s.reqs.any (fun r => r.filling r.line && lines r.line)
    || s.txns.any (fun t => t.host && decide (2 ≤ t.st) && lines t.line)

/-- BIAS_CMD: accepted, or refused with its RESULT (R456); SnpFlush goes out for the cached lines of a page that leaves
SHARED (R455).
[DESIGN CHOICE, notes/assumptions/33.md] -/
def execBiasCmd (val : Word) (s : State) : Res :=
  let w := val.toNat
  let b := bits w 63 62
  let n := bits w 61 53
  let f := bits w 45 12
  if s.stopped then ok s
  else if s.rd F.CRM_BIAS_STAT_BUSY = 1 then ok (s.wr F.CRM_BIAS_STAT_RESULT 2)
  else if homeOf (4096 * f) = none || homeOf (4096 * f) ≠ homeOf (4096 * (f + n)) then ok (s.wr F.CRM_BIAS_STAT_RESULT 1)
  else if b = 2 && s.rd F.CRM_CFG_LOCK_EN = 0 then ok (s.wr F.CRM_BIAS_STAT_RESULT 3)
  else
    let s1 := ({ s with biasCmd := some ⟨b, f, n, []⟩ }.wr F.CRM_BIAS_STAT_BUSY 1).wr F.CRM_BIAS_STAT_RESULT 0
    ok (if b = 0 then s1 else s1.flushPages (fun l => decide (f ≤ l / 64) && decide (l / 64 ≤ f + n)))

/-- BIAS_CMD_DONE: the biases are set and the record is written, once no host copy remains of a page that leaves SHARED, or every device
write to a page that becomes SHARED has completed; lines that host caches have taken since are flushed too. Pages that flipped meanwhile
stay SHARED (R455, R459).
[DESIGN CHOICE, notes/assumptions/33.md] -/
def execBiasCmdDone (ns : Nat) (s : State) : Res :=
  match s.biasCmd with
  | none => ok s
  | some b =>
    if s.stopped then ok s
    else
      let frames := ((List.range (b.count + 1)).map (b.frame + ·)).filter (fun f => !b.undone.contains f)
      let inside (l : Nat) : Bool := frames.contains (l / 64)
      if b.bias = 0 && frames.any s.pageWrites then ok s
      else if b.bias ≠ 0 && s.hostCopies inside then ok (s.flushPages inside)
      else
      let s2 := frames.foldl (fun (s : State) f => { s with bias := sset (fun _ => 0) s.bias f b.bias }) s
      let s3 := (({ s2 with biasCmd := none }.wr F.CRM_BIAS_STAT_BUSY 0).wr F.CRM_BIAS_STAT_DONE frames.length).wr
        F.CRM_BIAS_STAT_UNDONE b.undone.length
      ok (s3.emit ⟨0, 0x0406, srcModule 0, none, place 12 3 frames.length ||| place 22 13 b.undone.length ||| place 54 23 ns⟩)

/-- BIAS_FLIP: once every device write to the page accepted before has completed, a held host access flips it to SHARED and is
served (R457, R458). -/
def execBiasFlip (home frame drainNs : Nat) (s : State) : Res :=
  match s.txns.find? (fun t => t.home == home && t.st == 1 && t.line / 64 == frame) with
  | none => ok s
  | some t =>
    let before := s.txns.takeWhile (fun x => !(x.home == t.home && x.src == t.src && x.txn == t.txn))
    if s.stopped || before.any (fun x => x.op == 0x33 && x.line / 64 == frame) || s.memQ.any (fun w => w.inPage frame && w.before t) then ok s
    else
      let s1 := { s.flipPage home frame drainNs with
        txns := s.txns.map (fun (x : Txn) => if x.st = 1 && x.line / 64 = frame then { x with st := 0 } else x) }
      ok s1.startAll.settle.tick

/-! Die links (R463 to R466). -/

/-- DIE_FLIT_RECEIVE: only the next expected flit with a good CRC is accepted; any other asks for a replay (R463). -/
def execDieFlitReceive (l seq : Nat) (crcOk : Bool) (s : State) : Res :=
  let want := sget (fun _ => 0) s.linkSeq l
  if 26 ≤ l || s.rd (F.CRM_LINK_STATE l) ≠ 0 then ok s
  else if crcOk && seq = want then ok { s with linkSeq := sset (fun _ => 0) s.linkSeq l ((want + 1) % 4096) }
  else ok ((s.inc (F.CRM_LINK_REPLAYS l)).send (.dieReplay l want))

/-- Show which links retrain. -/
def State.showRetrain (s : State) : State :=
  s.wr F.CRM_STATUS_RETRAINING (((List.range 26).filter (fun l => s.rd (F.CRM_LINK_STATE l) == 1)).map (fun l => 2 ^ l)).sum

/-- A die link fails (R466). -/
def State.linkFail (s : State) (l : Nat) : State :=
  ((s.wr (F.CRM_LINK_STATE l) 2).showRetrain).stopDetect 5 l (srcOf 31 l) 0

/-- Code of a link's retrain trigger. -/
def linkTrigger (w : LinkTrigger) : Nat := match w with | .laneLock => 0 | .crcBurst => 1 | .laneFailure => 2

/-- DIE_LINK_RETRAIN_ENTER: in each direction a spare lane stands in for each failed lane; a link that finds none fails (R464, R466). -/
def execDieLinkRetrainEnter (l : Nat) (why : LinkTrigger) (failed : Nat × Nat) (s : State) : Res :=
  if 26 ≤ l || s.rd (F.CRM_LINK_STATE l) ≠ 0 then ok s
  else
    let u := sget (fun _ => ((0, 0) : Nat × Nat)) s.laneUse l
    let v := (u.1 + failed.1, u.2 + failed.2)
    let s1 := { s with
      linkWhy := sset (fun _ => 0) s.linkWhy l (linkTrigger why)
      laneUse := sset (fun _ => ((0, 0) : Nat × Nat)) s.laneUse l v }.inc (F.CRM_LINK_RETRAINS l)
    let s2 := s1.wr (F.CRM_LINK_SPARES l) (2 - max v.1 v.2)
    if 2 < max v.1 v.2 then ok (s2.linkFail l) else ok ((s2.wr (F.CRM_LINK_STATE l) 1).showRetrain)

/-- LINK_RETRAIN: the link returns to UP and the record is written; every flit in flight is delivered once (R464, R465). CRM_LINK_l counts
replays, however many flits one repeats.
[DESIGN CHOICE, notes/assumptions/33.md] -/
def execLinkRetrain (l stallNs replayed : Nat) (s : State) : Res :=
  if 26 ≤ l || s.rd (F.CRM_LINK_STATE l) ≠ 1 then ok s
  else
    let s1 := (((s.wr (F.CRM_LINK_STATE l) 0).showRetrain).wr (F.CRM_LINK_LAST_STALL_NS l) (satTo 12 stallNs)).add
      (F.CRM_LINK_REPLAYS l) (if replayed = 0 then 0 else 1)
    ok (s1.emit ⟨1, 0x0401, srcOf 31 l, none,
      place 4 0 l ||| place 6 5 (sget (fun _ => 0) s.linkWhy l) ||| place 18 7 (satTo 12 stallNs)
        ||| place 34 19 (satTo 16 replayed) ||| place 36 35 (s.rd (F.CRM_LINK_SPARES l))⟩)

/-- DIE_LINK_FAIL: a link that has left UP is not UP again within 3 µs (R466). -/
def execDieLinkFail (l : Nat) (s : State) : Res :=
  if 26 ≤ l || s.rd (F.CRM_LINK_STATE l) ≠ 1 then ok s else ok (s.linkFail l)

/-! DOMAIN_STOP (R471 to R473). -/

/-- Every cluster of the module. -/
def allClusters : List ClusterId := (List.range 8).flatMap (fun n => (List.range 288).map (fun k => ⟨n, k⟩))

/-- Can the home of the ring line not be reached: it is the die that a forced reset has taken, or, which is free, a failed link cuts it off
(R472, R575)?
[DESIGN CHOICE, notes/assumptions/33.md] -/
def State.ringCut (s : State) (x : StopSt) : Bool :=
  (x.cause == 5 && s.freeNat 0 % 2 == 1) || (x.cause == 7 && homeOf (4096 * s.rd F.STR_RING_BASE) == some (8 + x.detail))

/-- The records that wait at the busy home of the ring are in the ring before DOMAIN_STOP (R472). -/
def State.ringFlush (s : State) : State :=
  let base := 4096 * s.rd F.STR_RING_BASE
  let (ring, rest) := s.memQ.partition (fun w => decide (base ≤ w.addr) && decide (w.addr < base + 32 * s.ringSize))
  ring.foldl (fun (s : State) w => s.rawBytes w.addr w.data) { s with memQ := rest }

/-- DOMAIN_STOP: clusters halt, every slot faults, CRM_STOP is latched and the record is written (R472). Every job that was RUNNING owes a vote
(R473).
[DEDUCED, notes/assumptions/8.md] [DEDUCED, notes/assumptions/54.md] -/
def execDomainStop (s : State) : Res :=
  match s.stop with
  | none => ok s
  | some x =>
    if x.latched then ok s
    else
      let slots := (List.range 16).filter (fun j => s.slotState j == 2)
      let running := (slots.map (fun j => 2 ^ j)).sum
      let cut := s.ringCut x
      let s0 := if cut then s else s.ringFlush
      let s1 := { s0 with stop := some { x with latched := true, cut := cut } }.wr F.CRM_STATUS_DOMAIN 1
      let s2 := ((s1.wr F.CRM_STOP_VALID 1).wr F.CRM_STOP_CAUSE x.cause).wr F.CRM_STOP_DETAIL x.detail
      let s3 := ((s2.wr F.CRM_STOP_AGENT x.agent).wr F.CRM_STOP_LAP_LAP x.lap).wr F.CRM_STOP_ADDR_LINE x.line
      let s4 := s3.emit ⟨4, 0x0403, srcModule 0, none,
        place 3 0 x.cause ||| place 11 4 x.detail ||| place 27 12 x.agent ||| place 67 28 x.line ||| place 83 68 running⟩
      let s5 := allClusters.foldl (fun (s : State) c =>
        if s.run c = 6 || s.run c = 5 then s else (s.setRun c 5).abandonCl c) s4
      let s6 := (List.range 16).foldl (fun (s : State) j =>
        if s.slotState j = 0 then (s.setSlotState j 4).stopEngines j else s.stopJob j true) s5
      ok (slots.foldl (fun (s : State) j => s.setSlot j { s.slot j with owesVote := true }) s6).tick

end Sys2Proof.Machine
end

