-- ==== Sys2Proof/Machine/Host.lean ====
section
/-!
DEFINITION. The host complex (13): core-complex and host-die resets with their phases (R562 to R575), and the PCIe root
ports (R557 to R560).
-/

namespace Sys2Proof.Machine

/-- HOST_RESET of die h: kind 1 core complex, 2 host die; its phase and the µs since acceptance. -/
def hostReset (h kind phase us : Nat) : Ev :=
  ⟨0, 0x0140, srcOf (8 + h) 0, none, place 0 0 h ||| place 2 1 kind ||| place 4 3 phase ||| place 36 5 us⟩

/-- A refused reset: REFUSAL and HOST_RESET_REFUSED.
[DEDUCED, notes/assumptions/30.md] -/
def State.refuseReset (s : State) (h kind reason slot : Nat) : State :=
  (s.wr (F.STR_HOST_REFUSAL h) reason).emit
    ⟨1, 0x0141, srcOf (8 + h) 0, none, place 0 0 h ||| place 2 1 kind ||| place 5 3 reason ||| place 9 6 slot⟩

/-- The first slot that R568 names: LOADING, RUNNING, HALTED or DRAINING. -/
def State.activeSlot (s : State) : Option Nat :=
  (List.range 16).find? (fun j => s.slotState j == 1 || s.slotState j == 2 || s.slotState j == 3 || s.slotState j == 5)

/-- Why a host reset is refused (R562, R563, R568), and the slot that it reports; the order of the tests is the model's
(DEDUCED, notes/assumptions/30.md). -/
def State.resetRefusal (s : State) (fromCore : Option Nat) (h kind : Nat) : Option (Nat × Nat) :=
  let st := s.rd (F.STR_HOST_STATE h)
  if s.stopped then some (4, 0)
  else if st = 1 || st = 2 || st = 3 then some (3, 0)
  else if fromCore.any (fun c => c / 72 == h) then some (5, 0)
  else if kind = 2 then s.activeSlot.map (fun j => (1, j))
  else none

/-- The cores of die h stop for good: the accesses of theirs that have not been sent, and the ordered doorbells that their ports hold, are gone
(R564).
[DESIGN CHOICE, notes/assumptions/103.md] -/
def State.dropCores (s : State) (h : Nat) : State :=
  let ofDie (i : Instr) : Bool := match i with
    | .hostLoad core _ _ _ _ | .hostStore core _ _ _ _ _ => core / 72 == h
    | _ => false
  { s with
    hostWaits := s.hostWaits.filter (fun p => !ofDie p.2)
    odbs := s.odbs.filter (fun d => d.core / 72 ≠ h) }

/-- The reset of a core complex clears its L2 caches and the interrupt files of its harts. -/
def State.clearComplex (s : State) (h : Nat) : State :=
  { s with
    l2 := s.l2.filter (fun p => p.1 / 72 ≠ h)
    imsic := s.imsic.filter (fun p => p.1 / 64 / 72 ≠ h) }

/-- HOST_CC_RESET: KIND 1 of STR_HRST. The die's cores stop, its transactions complete and its agent withdraws (R564). -/
def execHostCcReset (fromCore : Option Nat) (die : Nat) (s : State) : Res :=
  let h := die % 2
  match s.resetRefusal fromCore h 1 with
  | some (reason, slot) => ok (s.refuseReset h 1 reason slot)
  | none =>
    let s1 := ({ s with hostPhase := sset (fun _ => 0) s.hostPhase h 1 }).wr (F.STR_HOST_STATE h) 1
    ok (((s1.dropCores h).emit (hostReset h 1 0 0)).withdraw h)

/-- The agent of die h has withdrawn from every home and no home holds a transaction of it (R467). -/
def State.withdrawn (s : State) (h : Nat) : Bool :=
  (List.range 10).all (fun x => s.gone.contains (x, h)) && !s.txns.any (fun t => t.agent == some h)

/-- CC_WITHDRAW_DONE: the withdrawal is complete `us` after acceptance, and the reset is held (R564). -/
def execCcWithdrawDone (die us : Nat) (s : State) : Res :=
  let h := die % 2
  if s.rd (F.STR_HOST_STATE h) = 1 && s.withdrawn h && !s.stopped then
    ok (((s.clearComplex h).wr (F.STR_HOST_STATE h) 3).emit (hostReset h 1 1 us))
  else ok s

/-- The reset vector of core 72h (R564). -/
def State.hostVec (s : State) (h : Nat) : Nat := 4 * s.rd (F.STR_HOSTVEC_VEC h)

/-- CC_RESET_RELEASE: core 72h fetches from STR_HOSTVEC_h with every line in I (R468, R564), and the inbound requests that were held are served
(R567). -/
def execCcResetRelease (die : Nat) (s : State) : Res :=
  let h := die % 2
  if s.rd (F.STR_HOST_STATE h) = 3 && sget (fun _ => 0) s.hostPhase h = 1 && !s.stopped then
    ok ((((s.rejoin h).wr (F.STR_HOST_STATE h) 4).inc (F.STR_HOST_CC_RESETS h)).send (.coreStart (72 * h) (s.hostVec h))).servePcie
  else ok s

/-- CC_FIRST_FETCH: the last record confirms that the release took effect (R564, R566). -/
def execCcFirstFetch (die us : Nat) (s : State) : Res :=
  let h := die % 2
  if s.rd (F.STR_HOST_STATE h) = 4 then
    ok ((({ s with hostPhase := sset (fun _ => 0) s.hostPhase h 0 }).wr (F.STR_HOST_STATE h) 0).emit (hostReset h 1 2 us))
  else ok s

/-- PCIE_LINK of root port p: event 0 up, 1 down, 2 DPC. -/
def State.pcieRecord (s : State) (p event speed width : Nat) : State :=
  s.emit ⟨if event = 2 then 2 else 1, 0x0142, srcOf (10 + 2 * p) 32, none,
    place 0 0 p ||| place 2 1 event ||| place 6 3 speed ||| place 11 7 width⟩

/-- The link of root port p goes down, or into DPC containment; requests that it holds go with it. -/
def State.pcieDown (s : State) (p : Nat) (dpc : Bool) : State :=
  let speed := s.rd (F.STR_PCIE_SPEED p)
  let width := s.rd (F.STR_PCIE_WIDTH p)
  let s0 := { s with pcieHeld := s.pcieHeld.filter (fun x => x.1 ≠ p) }
  let s1 := (((s0.wr (F.STR_PCIE_UP p) 0).wr (F.STR_PCIE_SPEED p) 0).wr (F.STR_PCIE_WIDTH p) 0).wr (F.STR_PCIE_FLIT p) 0
  if dpc then (s1.inc (F.STR_PCIE_DPC p)).pcieRecord p 2 speed width else s1.pcieRecord p 1 speed width

/-- May a link of root port p train so: at 2.5 to 64 GT/s, 64 GT/s in FLIT mode, and to a width that the port's bifurcation leaves it (R557,
STR_ROLE)? -/
def State.pcieTrains (s : State) (p speed width : Nat) (flit : Bool) : Bool :=
  let split := if p = 0 then s.rd F.STR_ROLE_PCIE0 else s.rd F.STR_ROLE_PCIE1
  decide (1 ≤ speed) && decide (speed ≤ 6) && (flit || speed != 6) && [1, 2, 4, 8, 16].contains width && decide (width * 2 ^ split ≤ 16)

/-- Is root port p in the containment of a host-die reset of its die (R574)? -/
def State.contained (s : State) (p : Nat) : Bool := sget (fun _ => 0) s.hostPhase p == 2

/-- PCIE_LINK: a root-port link trains, goes down, or enters DPC containment (R557); none trains during the containment of a host-die reset
(R574). -/
def execPcieLink (port : Nat) (e : PcieEvent) (s : State) : Res :=
  let p := port % 2
  match e with
  | .up speed width flit =>
    if s.contained p || !s.pcieTrains p speed width flit then ok s
    else ok (((((s.wr (F.STR_PCIE_UP p) 1).wr (F.STR_PCIE_SPEED p) speed).wr (F.STR_PCIE_WIDTH p) width).wrB
      (F.STR_PCIE_FLIT p) flit).pcieRecord p 0 speed width)
  | .down => ok (s.pcieDown p false)
  | .dpc => ok (s.pcieDown p true)

/-- HOST_DIE_RESET: KIND 2 of STR_HRST. Every enabled queue reads HALTED with reason SOFTWARE, and the root port enters DPC containment; the agent
withdraws once every started command has ended (R569, R574). -/
def execHostDieReset (fromCore : Option Nat) (die : Nat) (s : State) : Res :=
  let h := die % 2
  match s.resetRefusal fromCore h 2 with
  | some (reason, slot) => ok (s.refuseReset h 2 reason slot)
  | none =>
    let s1 := ({ s with hostPhase := sset (fun _ => 0) s.hostPhase h 2 }).wr (F.STR_HOST_STATE h) 2
    let s2 := (List.range 256).foldl (fun (s : State) q =>
      if s.rd (F.CPE_QRING_EN q) = 0 then s
      else if (s.queue q).halted then s.wr (F.SQ_STAT_REASON q) 3
      else s.haltQueue q 3) s1
    let s3 := (s2.emit (hostReset h 2 0 0)).pcieDown h true
    ok (if s3.engs.isEmpty then s3.withdraw h else s3)

/-- Is a line homed on host die h? -/
def dieLine (h l : Nat) : Bool := homeOf (64 * l) == some (8 + h)

/-- The registers of a Prism engine return to their reset values with its host die (14). -/
def State.resetPrism (s : State) (e : Nat) : State :=
  [Reg.PRM_ENG_STAT e, Reg.PRM_SURF e, Reg.PRM_STATUS e, Reg.PRM_CNT e, Reg.PRM_BUSY e].foldl
    (fun (s : State) off => s.setReg off (resetWord off)) s

/-- Step 5 of the quiesce and the reset of the die: its engines' contexts, its tracker and its core complex are cleared (R569, R581). The content of
the capacity tier, the bias table and the doorbell sink's submission state in the queues stay (R572). -/
def State.resetDie (s : State) (h us : Nat) : State :=
  let s1 := ((s.closePrism (fun _ => true) (fun e => e / 8 == h)).dropCores h).clearComplex h
  let s2 := { s1 with
    tracker := s1.tracker.filter (fun t => t.h ≠ h)
    dirs := s1.dirs.filter (fun p => !dieLine h p.1) }
  let s3 := ((List.range 8).foldl (fun (s : State) i => s.resetPrism (8 * h + i)) s2).showTrk h
  (s3.wr (F.STR_HOST_STATE h) 3).emit (hostReset h 2 1 us)

/-- HD_QUIESCE_DONE: the quiesce goes as far as it can (R569): once every started command has ended the agent withdraws; once it has withdrawn, the
homes of the die turn accesses of host origin away and flush the lines that the other die holds (R571); once every directory entry of the die reads
UNCACHED and nothing is open at its home, the die is held in reset.
[DESIGN CHOICE, notes/assumptions/103.md] -/
def execHdQuiesceDone (die us : Nat) (s : State) : Res :=
  let h := die % 2
  if s.rd (F.STR_HOST_STATE h) ≠ 2 || s.stopped || !s.engs.isEmpty then ok s
  else if s.rd (F.CRM_AGENT_STATE h) = 0 then ok (s.withdraw h)
  else if !s.withdrawn h then ok s
  else
    let s1 := (if s.hdAway.contains (8 + h) then s else { s with hdAway := s.hdAway ++ [8 + h] }).flushPages (dieLine h)
    if s1.hostCopies (dieLine h) || s1.txns.any (fun t => t.home == 8 + h) || s1.memQ.any (fun w => (linesOf w.addr w.data.length).any (dieLine h)) then
      ok s1
    else ok (s1.resetDie h us)

/-- HD_QUIESCE_TIMEOUT: the quiesce is abandoned and nothing is reset; the queues stay HALTED, and the cores and the root port go on (R570). -/
def execHdQuiesceTimeout (die : Nat) (s : State) : Res :=
  let h := die % 2
  if s.rd (F.STR_HOST_STATE h) = 2 && !s.stopped then
    let s1 := { s with
      hostPhase := sset (fun _ => 0) s.hostPhase h 0
      hdAway := s.hdAway.filter (· ≠ 8 + h) }
    ok (((s1.rejoin h).wr (F.STR_HOST_STATE h) 0).refuseReset h 2 2 0).settle
  else ok s

/-- HD_RESET_RELEASE: the homes return with every line UNCACHED and every bias as it stood, core 72h fetches, and the root port leaves containment
(R572, R574). -/
def execHdResetRelease (die us : Nat) (s : State) : Res :=
  let h := die % 2
  if s.rd (F.STR_HOST_STATE h) = 3 && sget (fun _ => 0) s.hostPhase h = 2 && !s.stopped then
    let s1 := { s with
      hostPhase := sset (fun _ => 0) s.hostPhase h 0
      hdAway := s.hdAway.filter (· ≠ 8 + h) }
    let s2 := ((s1.rejoin h).wr (F.STR_HOST_STATE h) 0).inc (F.STR_HOST_HD_RESETS h)
    ok ((s2.send (.coreStart (72 * h) (s.hostVec h))).emit (hostReset h 2 2 us))
  else ok s

/-- Is host die h held in reset: by MRST_N, without its rails, before the start sequence brings its cores up, or by its own host-die reset (R749)?
[DESIGN CHOICE, notes/assumptions/103.md] -/
def State.dieHeld (s : State) (h : Nat) : Bool :=
  s.mrst || !s.rails || decide (s.rd F.STR_START_STATE ≤ 4)
    || (s.rd (F.STR_HOST_STATE h) == 3 && sget (fun _ => 0) s.hostPhase h == 2)

/-- HDRST_ASSERT: HDRSTh_N, outside a reset that the module holds, stops the domain with cause 7 (R575, R749). -/
def execHdrstAssert (die : Nat) (s : State) : Res :=
  let h := die % 2
  if s.dieHeld h then ok s
  else
    let s1 := s.wr F.STR_PINS_HDRST (s.rd F.STR_PINS_HDRST &&& (3 - 2 ^ h))
    ok (s1.stopDetect 7 h 0 0)

/-- PCIE_INBOUND: a request after the IOMMU (R559, R560); none arrives on a link that is down. During a reset of its die it is held by flow control
(R567). -/
def execPcieInbound (port : Nat) (r : PcieReq) (s : State) : Res :=
  let p := port % 2
  if s.stopped || s.rd (F.STR_PCIE_UP p) = 0 then ok s else ok (s.inbound p r)

end Sys2Proof.Machine
end

