-- ==== Sys2Proof/Machine/Prism.lean ====
section
/-!
DEFINITION. The Prism media engines (14): contexts, surfaces, the frame commands with their checks and statuses, the budget
guard, and the frame status ring. Engine operand e is Prism engine e, which is engine 24 + e of the submission unit. The
codec standards decide the pixels and bitstream bytes, which are free functions of what R601 names; what they find in a frame is an
operand.
-/

namespace Sys2Proof.Machine

/-- Context 64e + c. -/
def State.ctx (s : State) (x : Nat) : Option CtxSt := sget (fun _ => none) s.ctxs x

/-- Set a context, with the registers that show it (PRM_CTX_e_c, PRM_ENG_STAT_e.OPEN). -/
def State.setCtx (s : State) (x : Nat) (c : CtxSt) : State :=
  let e := x / 64
  let i := x % 64
  let s1 := { s with ctxs := sset (fun _ => none) s.ctxs x (some c) }
  let s2 := (((((((s1.wr (F.PRM_CTX_OPEN e i) 1).wr (F.PRM_CTX_DIR e i) (bits c.par 15 8)).wr
    (F.PRM_CTX_CODEC e i) (bits c.par 7 0)).wr (F.PRM_CTX_TCTX e i) c.tctx).wr
    (F.PRM_CTX_WIDTH e i) (bits c.par 47 32)).wr (F.PRM_CTX_HEIGHT e i) (bits c.par 63 48)).wr
    (F.PRM_CTX_COMMANDS e i) c.count)
  s2.wr (F.PRM_ENG_STAT_OPEN e) (s2.ctxs.filter (fun p => p.1 / 64 == e)).length

/-! The parameter block (R593). -/

/-- Byte `i` of the block, and `n` bytes from byte `i`. -/
def parB (par i : Nat) : Nat := bits par (8 * i + 7) (8 * i)
/-- `n` little-endian bytes of the block. -/
def parN (par i n : Nat) : Nat := bits par (8 * (i + n) - 1) (8 * i)
/-- WIDTH, HEIGHT. -/
def parW (par : Nat) : Nat := parN par 4 2
/-- HEIGHT. -/
def parH (par : Nat) : Nat := parN par 6 2
/-- OUT_W. -/
def parOutW (par : Nat) : Nat := parN par 0x48 2
/-- OUT_H. -/
def parOutH (par : Nat) : Nat := parN par 0x4A 2
/-- Pool surface i. -/
def parPool (par i : Nat) : Nat := parN par (0x10 + 2 * i) 2
/-- N64 of a size. -/
def n64 (w h : Nat) : Nat := ceilDiv w 64 * ceilDiv h 64

/-- Levels of HEVC as 10 × level: code, largest picture and sample rate (the standard’s table; PRESUMED, notes/assumptions/31.md). -/
def hevcLevels : List (Nat × Nat × Nat) :=
  [(10, 36864, 552960), (20, 122880, 3686400), (21, 245760, 7372800), (30, 552960, 16588800), (31, 983040, 33177600),
    (40, 2228224, 66846720), (41, 2228224, 133693440), (50, 8912896, 267386880), (51, 8912896, 534773760),
    (52, 8912896, 1069547520), (60, 35651584, 1069547520), (61, 35651584, 2139095040)]
/-- Levels of AV1 by seq_level_idx.
[PRESUMED, notes/assumptions/31.md] -/
def av1Levels : List (Nat × Nat × Nat) :=
  [(0, 147456, 4423680), (1, 278784, 8363520), (4, 665856, 19975680), (5, 1065024, 31950720), (8, 2359296, 70778880),
    (9, 2359296, 141557760), (12, 8912896, 267386880), (13, 8912896, 534773760), (14, 8912896, 1069547520),
    (15, 8912896, 1069547520), (16, 35651584, 1069547520)]
/-- Levels of H.264 as 10 × level, in luma samples (256 in a macroblock).
[PRESUMED, notes/assumptions/31.md] -/
def avcLevels : List (Nat × Nat × Nat) :=
  [(10, 99 * 256, 1485 * 256), (11, 396 * 256, 3000 * 256), (12, 396 * 256, 6000 * 256), (13, 396 * 256, 11880 * 256),
    (20, 396 * 256, 11880 * 256), (21, 792 * 256, 19800 * 256), (22, 1620 * 256, 20250 * 256), (30, 1620 * 256, 40500 * 256),
    (31, 3600 * 256, 108000 * 256), (32, 5120 * 256, 216000 * 256), (40, 8192 * 256, 245760 * 256),
    (41, 8192 * 256, 245760 * 256), (42, 8704 * 256, 522240 * 256), (50, 22080 * 256, 589824 * 256),
    (51, 36864 * 256, 983040 * 256), (52, 36864 * 256, 2073600 * 256)]

/-- LEVEL suits WIDTH, HEIGHT and FPS (R594).
[PRESUMED, notes/assumptions/31.md] -/
def levelOk (par : Nat) : Bool :=
  let t := match parB par 0 with | 0 => hevcLevels | 1 => av1Levels | _ => avcLevels
  let area := parW par * parH par
  match t.find? (fun l => l.1 == parB par 3) with
  | none => false
  | some l => decide (area ≤ l.2.1) && decide (area * parN par 0x58 4 ≤ l.2.2 * parN par 0x5C 4)

/-- A ratio from `a` to `b` lies within 1/8 to 8.
[PRESUMED, notes/assumptions/31.md] -/
def ratioOk (a b : Nat) : Bool := decide (a ≤ 8 * b) && decide (b ≤ 8 * a) && decide (0 < b)

/-- Every field of a parameter block lies in its range and the combination is supported (R582, R583, R593, R594). An odd 4:2:0
size is checked here for the coded picture of an encode (PRESUMED, notes/assumptions/31.md). -/
def parOk (par : Nat) : Bool :=
  let codec := parB par 0
  let dir := parB par 1
  let w := parW par
  let h := parH par
  let cropX := parN par 0x40 2
  let cropY := parN par 0x42 2
  let cropW := parN par 0x44 2
  let cropH := parN par 0x46 2
  let whole := cropX == 0 && cropY == 0 && cropW == 0 && cropH == 0
  let turn := parB par 0x4C % 2 == 1
  let qMax := if codec = 0 then 51 else 255
  let inW := if whole then w else cropW
  let inH := if whole then h else cropH
  let common := decide (codec ≤ 2) && decide (dir ≤ 2) && (parB par 2 == 8 || parB par 2 == 10)
    && decide (1 ≤ parB par 8) && decide (parB par 8 ≤ 17) && decide (parB par 0xA ≤ 1) && decide (parB par 0xB ≤ 3)
    && decide (parB par 0x4C ≤ 3) && decide (parB par 0x4D ≤ 1) && decide (parB par 0x4E ≤ 2) && decide (parB par 0x4F ≤ 3)
    && (whole || (decide (0 < cropW) && decide (0 < cropH)))
  let outOk := if turn then ratioOk inH (parOutW par) && ratioOk inW (parOutH par)
    else ratioOk inW (parOutW par) && ratioOk inH (parOutH par)
  common && (match dir with
    | 0 => decide (16 ≤ w) && decide (w ≤ 8192) && decide (16 ≤ h) && decide (h ≤ 8192) && levelOk par
        && !(codec == 2 && parB par 2 == 10)
        && (whole || (decide (cropX + cropW ≤ w) && decide (cropY + cropH ≤ h))) && outOk
    | 1 => codec != 2 && decide (128 ≤ w) && decide (w ≤ 4096) && decide (128 ≤ h) && decide (h ≤ 2304) && levelOk par
        && w % 2 == 0 && h % 2 == 0 && decide (1 ≤ parB par 9) && decide (parB par 9 ≤ 2) && decide (parB par 0x50 ≤ 1)
        && decide (parB par 0x51 ≤ qMax) && decide (parB par 0x52 ≤ qMax) && decide (parB par 0x53 ≤ qMax)
        && decide (parB par 0x54 ≤ qMax) && (whole || (ratioOk cropW w && ratioOk cropH h))
    | _ => (whole || (decide (cropX + cropW ≤ w) && decide (cropY + cropH ≤ h))) && outOk)

/-! Surfaces (R586 to R591). -/

/-- Surface number t, if it is bound and belongs to a translation context.
[DESIGN CHOICE, notes/assumptions/106.md] -/
def State.surf (s : State) (tctx t : Nat) : Option SurfSt :=
  match sget (fun _ => none) s.surfs t with
  | some u => if u.tctx = tctx then some u else none
  | none => none

/-- Physical address of byte `o` of a surface, where a bound slice holds it. -/
def SurfSt.addr (u : SurfSt) (o : Nat) : Option Nat :=
  match u.slices.find? (fun x => x.slice == o / 2 ^ 21) with
  | none => none
  | some x =>
    let i := o % 2 ^ 21
    if x.len ≤ i then none
    else ((x.frames[(x.va % 4096 + i) / 4096]?).getD none).map (fun f => 4096 * f + (x.va + i) % 4096)

/-- Bytes bound from the start of a surface without a gap. -/
def SurfSt.bytes (u : SurfSt) : Nat :=
  (List.range 64).foldl (fun (a : Nat) k =>
    if a = 2 ^ 21 * k then (match u.slices.find? (fun x => x.slice == k) with | some x => a + x.len | none => a) else a) 0

/-- Every invalid entry of a surface’s slices is walked before the engine uses it (R586); the first fault, if any. -/
def State.surfWalk (s : State) (t : Nat) : State × Option (Nat × Nat × Nat × Nat) :=
  match sget (fun _ => none) s.surfs t with
  | none => (s, none)
  | some u =>
    let todo := u.slices.flatMap (fun x => (x.frames.zipIdx.filter (fun f => f.1.isNone)).map (fun f => (x.slice, f.2, x.va / 4096 + f.2)))
    todo.foldl (fun (acc : State × Option (Nat × Nat × Nat × Nat)) p =>
      match acc.2 with
      | some _ => acc
      | none =>
        match acc.1.walkAt u.tctx p.2.2 true with
        | (s0, .fault c l en) => (s0, some (p.2.2, c, l, en))
        | (s1, .entry en) =>
          match sget (fun _ => none) s1.surfs t with
          | none => (s1, none)
          | some v =>
            let set (x : SliceSt) : SliceSt :=
              if x.slice = p.1 then { x with frames := x.frames.set p.2.1 (some (entryFrame en)) } else x
            let s2 := { s1 with surfs := sset (fun _ => none) s1.surfs t (some { v with slices := v.slices.map set }) }
            (s2.writeNat (s2.surfEntry (t / 1024) (t % 1024) p.1 p.2.1) 8 (frameWord (entryFrame en)), none)) (s, none)

/-- Walk the surfaces that a command uses; a fault holds the engine in its fault record (R492, R586). -/
def State.surfReady (s : State) (k : Nat) (x : EngSt) (ts : List Nat) : State × Bool :=
  ts.foldl (fun (acc : State × Bool) t =>
    if !acc.2 then acc
    else
      match acc.1.surfWalk t with
      | (s1, none) => (s1, true)
      | (s1, some (vp, cause, level, en)) =>
        let (s2, r) := s1.raiseFault (s1.rd (F.CPE_QBIND_CTX x.q)) vp true cause level en k
        (({ s2 with engHeld := s2.engHeld.filter (fun p => p.1 ≠ k) ++ [(k, r.getD 64, false)] } : State).wr (F.PRM_ENG_STAT_STATE (k - 24)) 5, false)) (s, true)

/-- The same when the watchdog ends the frame: a fault holds nothing, and what it leaves unwalked stays so (R586, R608). -/
def State.surfTry (s : State) (ts : List Nat) : State := ts.foldl (fun (s : State) t => (s.surfWalk t).1) s

/-- Write `n` bytes of a surface from byte `o` on. A write outside the bound slices is dropped (R590); drops are counted by 64-byte line.
[DEDUCED, notes/assumptions/32.md] -/
def State.surfWrite (s : State) (u : SurfSt) (o n : Nat) (src : Nat → Byte) : State × Nat :=
  (List.range n).foldl (fun (acc : State × Nat) i =>
    let first := i == 0 || (o + i) % 64 == 0
    match u.addr (o + i) with
    | some a =>
      let s1 := acc.1.setByte a (src i)
      (if first then s1.touch a 1 else s1, acc.2)
    | none => (acc.1, if first then acc.2 + 1 else acc.2)) (s, 0)

/-- The lines of memory that runs of a surface, (offset, length), lie in; those that no bound slice holds left out. -/
def SurfSt.linesAt (u : SurfSt) (runs : List (Nat × Nat)) : List Nat :=
  runs.flatMap (fun r => (linesOf r.1 r.2).filterMap (fun l => (u.addr (64 * l)).map (· / 64)))

/-- Byte `i` of the access unit at `off`, of `len` bytes, in a bitstream: beyond it, or beyond the bound slices, zero (R591). -/
def State.streamByte (s : State) (u : SurfSt) (off len i : Nat) : Byte :=
  if i < len then (match u.addr (off + i) with | some a => s.memByte a | none => 0) else 0

/-- The runs of bytes (offset, length) that a picture of w × h samples takes in a surface of a format (R589). -/
def planeRuns (u : SurfSt) (w h : Nat) : List (Nat × Nat) :=
  let ha := ceilDiv u.height 64 * 64
  let rows (base n len : Nat) : List (Nat × Nat) := (List.range n).map (fun y => (base + u.pitch * y, len))
  match u.fmt with
  | 1 => rows 0 h w ++ rows (u.pitch * ha) (ceilDiv h 2) (2 * ceilDiv w 2)
  | 2 => rows 0 h (2 * w) ++ rows (u.pitch * ha) (ceilDiv h 2) (4 * ceilDiv w 2)
  | 3 => rows 0 h w ++ rows (u.pitch * u.height) h w ++ rows (2 * u.pitch * u.height) h w
  | _ => rows 0 h (2 * w) ++ rows (u.pitch * u.height) h (2 * w) ++ rows (2 * u.pitch * u.height) h (2 * w)

/-- The bytes of a picture in a surface, in plane order; none where no bound slice holds the byte. -/
def State.pictureBytes (s : State) (u : SurfSt) : List (Option Byte) :=
  (planeRuns u u.width u.height).flatMap (fun r => (List.range r.2).map (fun i => (u.addr (r.1 + i)).map s.memByte))

/-- The same bytes counted in the hot-page tracker. -/
def State.touchLines (s : State) (ls : List Nat) : State := ls.foldl (fun (s : State) l => s.touch (64 * l) 1) s

/-- Byte `i` of run `k` of an output picture: for a mid-grey one in a 4:2:0 format the middle of the range (R610), luma only without the
full-range flag; for any other the codec's.
[DESIGN CHOICE, notes/assumptions/78.md] -/
def outByte (c : CtxSt) (fmt : Nat) (grey luma : Bool) (k i : Nat) : Byte :=
  if grey && (fmt == 1 || fmt == 2) && (!luma || !bit (parB c.par 0xB) 1) then (if fmt = 1 || i % 2 = 1 then 128 else 0)
  else Config.codecByte c.par c.hist (2 + fmt) (2 ^ 27 * k + i)

/-- Write a scaled picture of w × h samples, of the context as it now stands, into its output surface (R600, R601).
[DEDUCED, notes/assumptions/32.md] -/
def State.putPicture (s : State) (c : CtxSt) (t w h : Nat) (grey : Bool) : State × Nat :=
  match s.surf c.tctx t with
  | none => (s, 0)
  | some u =>
    ((planeRuns u w h).zipIdx).foldl (fun (acc : State × Nat) r =>
      let (s1, d) := acc.1.surfWrite u r.1.1 r.1.2 (fun i => outByte c u.fmt grey (decide (r.2 < h)) r.2 i)
      (s1, acc.2 + d)) (s, 0)

/-- The bytes of a reconstruction. -/
def poolBytes (par : Nat) : Nat := n64 (parW par) (parH par) * (if parB par 2 = 8 then 6400 else 12544)

/-- Keep a reconstruction in a pool surface, in the engine’s own layout (R589, R599).
[DESIGN CHOICE, notes/assumptions/78.md] -/
def State.putPool (s : State) (c : CtxSt) (pool : Nat) : State × Nat :=
  match s.surf c.tctx (parPool c.par pool) with
  | none => (s, 0)
  | some u => s.surfWrite u 0 (poolBytes c.par) (Config.codecByte c.par c.hist 0)

/-- A frame concealed whole copies the reconstruction of its reference (R584, R610), byte for byte, since both lie in the engine's layout. -/
def State.copyPool (s : State) (c : CtxSt) (ref pool : Nat) : State × Nat :=
  match s.surf c.tctx (parPool c.par ref), s.surf c.tctx (parPool c.par pool) with
  | some r, some u => s.surfWrite u 0 (poolBytes c.par) (fun i => match r.addr i with | some a => s.memByte a | none => 0)
  | _, _ => (s, 0)

/-- Write the bitstream of an encoded frame.
[DESIGN CHOICE, notes/assumptions/78.md] -/
def State.putStream (s : State) (c : CtxSt) (t off n : Nat) : State × Nat :=
  match s.surf c.tctx t with
  | none => (s, 0)
  | some u => s.surfWrite u off n (Config.codecByte c.par c.hist 1)

/-- The lines that a command reads of an input picture or bitstream and writes of its outputs, each a surface and runs of it. -/
def State.surfLines (s : State) (tctx : Nat) (parts : List (Nat × (SurfSt → List (Nat × Nat)))) : List Nat :=
  parts.flatMap (fun p => match s.surf tctx p.1 with | some u => u.linesAt (p.2 u) | none => [])

/-- Is surface t of engine e a picture of a 4:2:0 or RGB format of at least w × h samples? -/
def State.pictureOk (s : State) (tctx e t w h : Nat) : Bool :=
  match s.surf tctx t with
  | some u => t / 1024 == e && decide (1 ≤ u.fmt) && decide (u.fmt ≤ 4) && decide (w ≤ u.width) && decide (h ≤ u.height)
  | none => false

/-- Is surface t of engine e a bitstream? -/
def State.streamOk (s : State) (tctx e t : Nat) : Bool :=
  match s.surf tctx t with
  | some u => t / 1024 == e && u.fmt == 0
  | none => false

/-- Would a 4:2:0 output be of odd size (R594)? -/
def State.oddOut (s : State) (tctx t w h : Nat) : Bool :=
  match s.surf tctx t with
  | some u => (u.fmt == 1 || u.fmt == 2) && (w % 2 == 1 || h % 2 == 1)
  | none => false

/-! Contexts (R577, R592 to R595). -/

/-- The command of operation `op` that Prism engine e has started and may run now.
[DESIGN CHOICE, notes/assumptions/27.md] -/
def State.prismCmd (s : State) (e op : Nat) : Option (EngSt × CmdSt) :=
  match s.engCmd (24 + e) with
  | some (x, c) =>
    if c.op ≠ op || s.stopped || s.walking x || c.stage ≠ 2 || s.engHeld.any (fun p => p.1 == 24 + e && s.heldOff (some p.2)) then none
    else some (x, c)
  | none => none

/-- CTX_OPEN: the engine copies the parameter block, and opens the context or says why not (R593, R594). -/
def execCtxOpen (e : Nat) (s : State) : Res :=
  match s.prismCmd e 0x20 with
  | none => ok s
  | some (x, c) =>
    let k := bits c.w 9 0
    let tctx := s.rd (F.CPE_QBIND_CTX x.q)
    let va := bits c.w 111 64
    let fs := s.frameList x.q x.entry 0 (pagesOf va 256)
    let par := ofLe ((List.range 256).map (fun i => s.memByte (frameByte fs va i)))
    let ls := ((List.range 256).map (fun i => frameByte fs va i / 64)).dedup
    s.access ls [] fun s =>
    let s0 := (s.touchLines ls).tick
    let pools := (List.range (parB par 8)).map (parPool par)
    let good (t : Nat) : Bool := match s.surf tctx t with
      | some u => t / 1024 == e && u.fmt == 5 && decide (poolBytes par ≤ u.bytes)
      | none => false
    if !parOk par then ok (s0.finish (24 + e) x 2 0)
    else
      match pools.find? (fun t => !good t) with
      | some t => ok (s0.finish (24 + e) x 12 t)
      | none =>
        if (s.ctx k).isSome then ok (s0.finish (24 + e) x 11 k)
        else ok ((s0.setCtx k ⟨tctx, par, 0, 0, none, none, false, 0, []⟩).finish (24 + e) x 0 0)

/-- The open context that a command names, if it belongs to the queue’s translation context (R577). -/
def State.ownCtx (s : State) (x : EngSt) (k : Nat) : Option CtxSt :=
  match s.ctx k with
  | some c => if c.tctx = s.rd (F.CPE_QBIND_CTX x.q) then some c else none
  | none => none

/-- CTX_CLOSE. -/
def execCtxClose (e : Nat) (s : State) : Res :=
  match s.prismCmd e 0x21 with
  | none => ok s
  | some (x, c) =>
    let k := bits c.w 9 0
    match s.ownCtx x k with
    | none => ok (s.finish (24 + e) x 11 k)
    | some _ => ok ((s.closeCtx k).finish (24 + e) x 0 0)

/-- Is the geometry that a SURF_BIND with FIRST sets one of R589?
[PRESUMED, notes/assumptions/31.md] -/
def geometryOk (fmt w h pitch : Nat) : Bool :=
  match fmt with
  | 0 => w == 0 && h == 0 && pitch == 0
  | 1 => decide (w ≤ pitch)
  | 2 => decide (2 * w ≤ pitch)
  | 3 => decide (w ≤ pitch)
  | 4 => decide (2 * w ≤ pitch)
  | 5 => true
  | _ => false

/-- The 64-byte header of a surface in the engine's table, whose contents the manual does not give (R587).
[DESIGN CHOICE, notes/assumptions/24.md] -/
def State.surfHeader (s : State) (e su : Nat) : State :=
  (s.write (4096 * s.rd (F.PRM_SURF_BASE e) + su * (4096 + 262144)) ((List.range 64).map (Config.padByte s.free))).tick

/-- SURF_BIND: FIRST unbinds the surface and sets its geometry; the slice gets the frames walked at submission (R588).
[DESIGN CHOICE, notes/assumptions/24.md] [DESIGN CHOICE, notes/assumptions/106.md] -/
def execSurfBind (e : Nat) (s : State) : Res :=
  match s.prismCmd e 0x22 with
  | none => ok s
  | some (x, c) =>
    let t := bits c.w 13 0
    let tctx := s.rd (F.CPE_QBIND_CTX x.q)
    let va := bits c.w 111 64
    let len := bits c.w 159 128
    let first := bit c.w 20
    let fmt := bits c.w 167 160
    let w := bits c.w 207 192
    let h := bits c.w 223 208
    let pitch := 256 * bits c.w 239 224
    let slice : SliceSt := ⟨bits c.w 19 14, va, len, s.frameList x.q x.entry 0 (pagesOf va len)⟩
    let put (u : SurfSt) : State :=
      (({ s with surfs := sset (fun _ => none) s.surfs t (some u) }).surfHeader e (t % 1024)).putSlice e (t % 1024) slice
    if s.rd (F.PRM_SURF_SURFACES e) ≤ t % 1024 then ok (s.finish (24 + e) x 12 t)
    else if first then
      if geometryOk fmt w h pitch then ok ((put ⟨tctx, fmt, w, h, pitch, [slice]⟩).finish (24 + e) x 0 0)
      else ok (s.finish (24 + e) x 2 0)
    else
      match s.surf tctx t with
      | none => ok (s.finish (24 + e) x 12 t)
      | some u =>
        ok ((put { u with slices := u.slices.filter (fun y => y.slice ≠ slice.slice) ++ [slice] }).finish (24 + e) x 0 0)

/-! Motion search (R597, R598), in luma samples. -/

/-- A displacement within the search window: −256 to +256 horizontally, −128 to +128 vertically. -/
def clipVector (v : Int × Int) : Int × Int := (max (-256) (min 256 v.1), max (-128) (min 128 v.2))

/-- The blocks of the window cached for block (x, y): four columns to each side, two rows above and below. -/
def windowBlocks (x y : Int) : List (Int × Int) :=
  (List.range 9).flatMap (fun (i : Nat) => (List.range 5).map (fun (j : Nat) => (x - 4 + (i : Int), y - 2 + (j : Int))))

/-- The blocks loaded when the window advances to block (x, y): one new column of five. -/
def windowLoads (x y : Int) : List (Int × Int) := (List.range 5).map (fun (j : Nat) => (x + 4, y - 2 + (j : Int)))

/-- The sample that stands for coordinate x of a line of n samples: outside the picture the nearest one, the padding of both standards.
[PRESUMED, notes/assumptions/31.md] -/
def padded (n : Nat) (x : Int) : Nat := (max 0 (min ((n : Int) - 1) x)).toNat

/-- The vectors of a P or inter frame whose first `blocks` blocks are coded: for each block and reference what the search finds, held
within the window, and the predictor clipped into it. -/
def motionOf (par hist blocks : Nat) : List Motion :=
  (List.range blocks).flatMap (fun (b : Nat) => (List.range (parB par 9)).map (fun (r : Nat) =>
    let x := Config.codecMotion par hist b r
    ⟨b, r, clipVector x.1, clipVector x.2⟩))

/-- Where in its reference the first and the last sample of the block that a vector moves lie, after padding. -/
def Motion.corners (par : Nat) (m : Motion) : List Nat :=
  let cols := ceilDiv (parW par) 64
  let x : Int := 64 * ((m.block % cols : Nat) : Int) + m.mv.1
  let y : Int := 64 * ((m.block / cols : Nat) : Int) + m.mv.2
  [padded (parW par) x, padded (parH par) y, padded (parW par) (x + 63), padded (parH par) (y + 63)]

/-! Frames. -/

/-- What a frame’s status entry says (R614). -/
structure FrameSt where
  kind : Nat
  flags : Nat
  pool : Nat
  ftype : Nat
  order : Nat
  affected : Nat
  blocks : Nat
  bytes : Nat
  first : Nat
  qp : Nat
  dropped : Nat
  cycles : Nat
  deriving DecidableEq, Repr

/-- The 64 bytes of a status entry. -/
def FrameSt.entry (f : FrameSt) (lap : Nat) : Nat :=
  (place 63 56 f.kind ||| place 55 48 f.flags ||| place 47 40 f.pool ||| place 39 32 f.ftype ||| place 31 0 f.order)
    ||| ((place 63 32 f.affected ||| place 31 0 f.blocks) <<< 64) ||| ((f.bytes % 2 ^ 64) <<< 128)
    ||| ((place 63 32 f.first ||| place 31 24 f.qp ||| place 15 0 (satTo 16 f.dropped)) <<< 192)
    ||| ((f.cycles % 2 ^ 64) <<< 256) ||| ((lap % 2 ^ 64) <<< 320)

/-- SRC of the records of Prism engine e. -/
def prismSrc (e : Nat) : Nat := srcOf (8 + e / 8) (e % 8)

/-- STREAM_DAMAGED for a frame of context k that is damaged or clipped (R612, R613), with the lowest cause code that holds. -/
def State.damaged (s : State) (e k cause : Nat) (c : CtxSt) (f : FrameSt) : State :=
  s.noteOnce 9 k 1 (fun _ => ⟨1, 0x0A02, prismSrc e, s.ctxJobOf c.tctx,
    place 5 0 k ||| place 8 6 cause ||| place 40 9 f.order ||| place 72 41 f.first ||| place 104 73 f.affected⟩)

/-- Address of the status entry of the next frame of context k (R614). -/
def State.statusAddr (s : State) (e k : Nat) (c : CtxSt) : Nat := 2 ^ 18 * s.rd (F.PRM_STATUS_BASE e) + 4096 * (k % 64) + 64 * (c.count % 64)

/-- A frame ends: its flags are counted, its entry is written, and its command completes with status OK (R612 to R614).
[DESIGN CHOICE, notes/assumptions/106.md] -/
def State.endFrame (s : State) (e : Nat) (x : EngSt) (k : Nat) (c : CtxSt) (f : FrameSt) (cause : Option Nat) : State :=
  let i := c.count % 64
  let fl (b : Nat) (g : Fld) (s : State) : State := if bit f.flags b then s.inc g else s
  let s1 := fl 0 (F.PRM_CNT_DAMAGED e) (fl 1 (F.PRM_CNT_REF_SUB e) (fl 5 (F.PRM_CNT_GUARD e) s))
  let s2 := s1.add (F.PRM_CNT_CLIPPED e) f.dropped
  let s3 := match cause with | some z => s2.damaged e k z c f | none => s2
  let s4 := s3.setNat (s.statusAddr e k c) 64 (f.entry s.now)
  let s5 := s4.setCtx k { c with
    count := c.count + 1
    frames := c.frames + 1
    lastGood := if f.kind = 0 && !bit f.flags 0 then some f.order else c.lastGood
    qp := if f.kind = 1 then some f.qp else c.qp
    anyFrame := true }
  ((s5.inc (F.PRM_ENG_STAT_FRAMES e)).wr (F.PRM_BUSY_CYCLES e) (s.rd (F.PRM_BUSY_CYCLES e) + f.cycles)).tick.finish (24 + e) x 0 i

/-- The lowest cause code of a damaged frame: 0 syntax, 1 watchdog, 2 truncated, 3 unsupported, 4 clipped, 5 reference.
[DESIGN CHOICE, notes/assumptions/106.md] -/
def damageCause (syntaxBad watchdog truncated unsupported clipped refBad : Bool) : Option Nat :=
  if syntaxBad then some 0 else if watchdog then some 1 else if truncated then some 2 else if unsupported then some 3
  else if clipped then some 4 else if refBad then some 5 else none

/-- A missing reference is substituted by REFPOL (R611). -/
def State.refMissing (s : State) (e k : Nat) (c : CtxSt) (order : Nat) : State :=
  let sub := if parB c.par 0xA = 1 then c.lastGood else none
  s.noteOnce 8 k 1 (fun cnt => ⟨1, 0x0A01, prismSrc e, s.ctxJobOf c.tctx,
    place 5 0 k ||| place 37 6 order ||| place 38 38 (b2n sub.isSome) ||| place 70 39 (sub.getD 0) ||| place 86 71 (satTo 16 (cnt - 1))⟩)

/-- The end of a decoded frame, by its own end or by the watchdog (R599, R607 to R612).
[DESIGN CHOICE, notes/assumptions/106.md] -/
def State.decodeEnds (s : State) (e : Nat) (x : EngSt) (c : CmdSt) (r : FrameResult) (watchdog : Bool) : Res :=
  let k := bits c.w 9 0
  let bs := bits c.w 77 64
  let out := bits c.w 205 192
  match s.ownCtx x k with
  | none => ok (s.finish (24 + e) x 11 k)
  | some cx =>
    let w := parOutW cx.par
    let h := parOutH cx.par
    if parB cx.par 1 ≠ 0 then ok (s.finish (24 + e) x 2 0)
    else if !s.streamOk cx.tctx e bs then ok (s.finish (24 + e) x 12 bs)
    else if !s.pictureOk cx.tctx e out w h then ok (s.finish (24 + e) x 12 out)
    else if s.oddOut cx.tctx out w h then ok (s.finish (24 + e) x 2 0)
    else
      let refs := if r.unsupported then r.ref.toList else []
      let used := [bs, out, parPool cx.par r.pool] ++ refs.map (parPool cx.par)
      let (s1, ready) := if watchdog then (s.surfTry used, true) else s.surfReady (24 + e) x used
      if !ready then ok s1
      else
        let off := bits c.w 159 128
        let len := bits c.w 191 160
        let reads := s1.surfLines cx.tctx ([(bs, fun (_ : SurfSt) => [(off, len)])]
          ++ refs.map (fun p => (parPool cx.par p, fun (_ : SurfSt) => [(0, poolBytes cx.par)])))
        let writes := s1.surfLines cx.tctx ((if r.blocks = 0 then [] else [(parPool cx.par r.pool, fun (_ : SurfSt) => [(0, poolBytes cx.par)])])
          ++ (if r.shown then [(out, fun (u : SurfSt) => planeRuns u w h)] else []))
        s1.access reads (writes ++ [s1.statusAddr e k cx / 64]) fun s1 =>
        let input := match s1.surf cx.tctx bs with
          | some u => (List.range (max len r.bytes)).map (fun i => some (s1.streamByte u off len i))
          | none => []
        let cut := if watchdog then [r.first, r.affected, r.blocks] else []
        let cx := { cx with hist := Config.codecNext cx.par cx.hist ([0x23, len] ++ cut) input }
        let t := s1.touchLines reads
        let (s2, d1) := if r.blocks = 0 then (t, 0)
          else match refs with | p :: _ => t.copyPool cx p r.pool | [] => t.putPool cx r.pool
        let (s3, d2) := if r.shown then s2.putPicture cx out w h (r.unsupported && r.ref.isNone) else (s2, 0)
        let bad := r.syntaxError || watchdog || r.truncated || r.unsupported || r.refDamaged
        let clipped := decide (0 < d1 + d2)
        let flags := place 0 0 (b2n bad) ||| place 1 1 (b2n (!r.missing.isEmpty)) ||| place 2 2 (b2n watchdog)
          ||| place 3 3 (b2n r.truncated) ||| place 4 4 (b2n r.unsupported) ||| place 6 6 (b2n clipped)
          ||| place 7 7 (b2n (!r.shown))
        let f : FrameSt := ⟨0, flags, r.pool, r.ftype, r.order, if r.unsupported then r.blocks else r.affected, r.blocks, r.bytes,
          if r.unsupported then 0 else r.first, 0, d1 + d2, r.cycles⟩
        let s4 := r.missing.foldl (fun (s : State) o => s.refMissing e k cx o) s3
        ok (s4.endFrame e x k cx f
          (damageCause r.syntaxError watchdog r.truncated r.unsupported clipped r.refDamaged))

/-- DECODE.
[DESIGN CHOICE, notes/assumptions/78.md] -/
def execDecode (e : Nat) (r : FrameResult) (s : State) : Res :=
  match s.prismCmd e 0x23 with
  | none => ok s
  | some (x, c) => s.decodeEnds e x c r false

/-- The budget guard (R604, R605): block by block from block n of `total`, with `b` bytes so far: the bytes in the end and the
first guarded block. -/
def budgetGuard (cap guarded total : Nat) : List Nat → Nat → Nat → Nat × Option Nat
  | [], _, b => (b, none)
  | x :: xs, n, b =>
    if 64 + 4 * (total - n - 1) + (b + x) ≤ cap then budgetGuard cap guarded total xs (n + 1) (b + x)
    else (b + guarded * (xs.length + 1), some n)

/-- The frame QP (R602, R603): QP_I or QP_P under CONSTANT_QP, else the firmware’s choice within QP_MIN to QP_MAX; after a firmware
timeout the QP that the engine took. -/
def frameQp (par : Nat) (p : Bool) (forced : Nat) (choice : Nat) : Nat :=
  if 0 < forced then forced - 1
  else if parB par 0x50 = 0 then (if p then parB par 0x52 else parB par 0x51)
  else max (parB par 0x53) (min (parB par 0x54) choice)

/-- The checks of an ENCODE (R595): the status and detail that end it, or none.
[DESIGN CHOICE, notes/assumptions/106.md] -/
def State.encodeRefused (s : State) (e : Nat) (x : EngSt) (c : CmdSt) : Option (Nat × Nat) :=
  let k := bits c.w 9 0
  let inp := bits c.w 77 64
  let out := bits c.w 173 160
  let target := bits c.w 223 192
  let cap := bits c.w 255 224
  match s.ownCtx x k with
  | none => some (11, k)
  | some cx =>
    let turn := parB cx.par 0x4C % 2 == 1
    let cw := parN cx.par 0x40 2 + parN cx.par 0x44 2
    let ch := parN cx.par 0x42 2 + parN cx.par 0x46 2
    if parB cx.par 1 ≠ 1 then some (2, 0)
    else if !s.pictureOk cx.tctx e inp (if turn then ch else cw) (if turn then cw else ch) then some (12, inp)
    else if !s.streamOk cx.tctx e out then some (12, out)
    else if cap < 1024 + 4 * n64 (parW cx.par) (parH cx.par) || cap < target then some (2, 0)
    else none

/-- An encoder reads its input picture and writes the reconstruction and `total` bytes of bitstream; `own` is what else of the command and of
the engine's choices the bytes follow from. It goes on with the context and the writes dropped (R598, R601).
[DESIGN CHOICE, notes/assumptions/78.md] -/
def State.encodeFrame (s : State) (cx : CtxSt) (c : CmdSt) (pool total : Nat) (own : List Nat) (moves : List Motion)
    (k : State → CtxSt → Nat → Res) : Res :=
  let inp := bits c.w 77 64
  let out := bits c.w 173 160
  let off := bits c.w 159 128
  let reads := s.surfLines cx.tctx [(inp, fun (u : SurfSt) => planeRuns u u.width u.height)]
  let stat := s.statusAddr (bits c.w 9 0 / 64) (bits c.w 9 0) cx / 64
  s.access reads (stat :: s.surfLines cx.tctx [(parPool cx.par pool, fun (_ : SurfSt) => [(0, poolBytes cx.par)]), (out, fun (_ : SurfSt) => [(off, total)])]) fun s1 =>
    let input := match s1.surf cx.tctx inp with | some u => s1.pictureBytes u | none => []
    let cx1 := { cx with
      hist := Config.codecNext cx.par cx.hist ([0x24, bits c.w 10 10, bits c.w 223 192, bits c.w 255 224] ++ own) input
      vectors := moves }
    let (s2, d1) := (s1.touchLines reads).putPool cx1 pool
    let (s3, d2) := s2.putStream cx1 out off total
    k s3 cx1 (d1 + d2)

/-- ENCODE (R602 to R606). The headers leave room for every block guarded, since a frame never exceeds CAP.
[DESIGN CHOICE, notes/assumptions/78.md] -/
def execEncode (e : Nat) (r : EncodeResult) (s : State) : Res :=
  match s.prismCmd e 0x24 with
  | none => ok s
  | some (x, c) =>
    let k := bits c.w 9 0
    let out := bits c.w 173 160
    let cap := bits c.w 255 224
    match s.encodeRefused e x c, s.ownCtx x k with
    | some (st, d), _ => ok (s.finish (24 + e) x st d)
    | none, none => ok (s.finish (24 + e) x 11 k)
    | none, some cx =>
      let (s1, ready) := s.surfReady (24 + e) x [bits c.w 77 64, out, parPool cx.par r.pool]
      if !ready then ok s1
      else
        let n := n64 (parW cx.par) (parH cx.par)
        let blocks := r.blockBytes.take n ++ List.replicate (n - r.blockBytes.length) 0
        let (b, g) := budgetGuard cap (min 4 r.guardedBytes) n blocks 0 (min r.headerBytes (cap - 64 - 4 * n))
        let total := b + min 64 r.closingBytes
        let qp := frameQp cx.par (bit c.w 10) x.next r.qp
        let moves := if bit c.w 10 then motionOf cx.par cx.hist (g.getD n) else []
        s1.encodeFrame cx c r.pool total ([qp, b2n g.isSome, g.getD 0] ++ moves.flatMap (Motion.corners cx.par)) moves fun s3 cx d =>
        let clipped := decide (0 < d)
        let f : FrameSt := ⟨1, place 5 5 (b2n g.isSome) ||| place 6 6 (b2n clipped), r.pool, b2n (bit c.w 10), r.order,
          (match g with | some i => n - i | none => 0), n, total, g.getD 0, qp, d, r.cycles⟩
        let s4 := match g with
          | some i => s3.noteOnce 10 k 1 (fun _ => ⟨1, 0x0A03, prismSrc e, s.ctxJobOf cx.tctx,
              place 5 0 k ||| place 37 6 cx.frames ||| place 69 38 i ||| place 101 70 (n - i)⟩)
          | none => s3
        ok (s4.endFrame e x k cx f (damageCause false false false false clipped false))

/-- A CONVERT reads its input picture and writes the scaled one; it goes on with the context and the writes dropped (R600, R601).
[DESIGN CHOICE, notes/assumptions/78.md] -/
def State.convertFrame (s : State) (cx : CtxSt) (c : CmdSt) (cut : List Nat) (k : State → CtxSt → Nat → Res) : Res :=
  let inp := bits c.w 77 64
  let out := bits c.w 173 160
  let w := parOutW cx.par
  let h := parOutH cx.par
  let reads := s.surfLines cx.tctx [(inp, fun (u : SurfSt) => planeRuns u u.width u.height)]
  let stat := s.statusAddr (bits c.w 9 0 / 64) (bits c.w 9 0) cx / 64
  s.access reads (stat :: s.surfLines cx.tctx [(out, fun (u : SurfSt) => planeRuns u w h)]) fun s1 =>
    let input := match s1.surf cx.tctx inp with | some u => s1.pictureBytes u | none => []
    let cx1 := { cx with hist := Config.codecNext cx.par cx.hist (0x25 :: cut) input }
    let (s2, d) := (s1.touchLines reads).putPicture cx1 out w h false
    k s2 cx1 d

/-- CONVERT (R600).
[DESIGN CHOICE, notes/assumptions/78.md] [DESIGN CHOICE, notes/assumptions/106.md] -/
def execConvert (e cycles : Nat) (s : State) : Res :=
  match s.prismCmd e 0x25 with
  | none => ok s
  | some (x, c) =>
    let k := bits c.w 9 0
    let inp := bits c.w 77 64
    let out := bits c.w 173 160
    match s.ownCtx x k with
    | none => ok (s.finish (24 + e) x 11 k)
    | some cx =>
      let w := parOutW cx.par
      let h := parOutH cx.par
      let cw := parN cx.par 0x40 2 + parN cx.par 0x44 2
      let ch := parN cx.par 0x42 2 + parN cx.par 0x46 2
      if !s.pictureOk cx.tctx e inp cw ch then ok (s.finish (24 + e) x 12 inp)
      else if !s.pictureOk cx.tctx e out w h then ok (s.finish (24 + e) x 12 out)
      else if s.oddOut cx.tctx out w h then ok (s.finish (24 + e) x 2 0)
      else
        let (s1, ready) := s.surfReady (24 + e) x [inp, out]
        if !ready then ok s1
        else
          s1.convertFrame cx c [] fun s2 cx d =>
          let n := n64 (parW cx.par) (parH cx.par)
          let f : FrameSt := ⟨2, place 6 6 (b2n (decide (0 < d))), 0, 0, 0, 0, n, 0, 0, 0, d, cycles⟩
          ok (s2.endFrame e x k cx f (damageCause false false false false (decide (0 < d)) false))

/-- PRISM_RC_TIMEOUT: no QP within 100 µs of an ENCODE’s start; the engine takes the previous frame’s QP (R603). -/
def execPrismRcTimeout (e : Nat) (s : State) : Res :=
  match s.prismCmd e 0x24 with
  | none => ok s
  | some (x, c) =>
    match s.ownCtx x (bits c.w 9 0) with
    | none => ok s
    | some cx =>
      if 0 < x.next then ok s
      else
        let qp := cx.qp.getD (if bit c.w 10 then parB cx.par 0x52 else parB cx.par 0x51)
        let s1 := (s.setEng (24 + e) { x with next := qp + 1 }).inc (F.PRM_CNT_RC_TIMEOUT e)
        ok (s1.emit ⟨1, 0x0A04, prismSrc e, s.ctxJobOf cx.tctx,
          place 5 0 (bits c.w 9 0) ||| place 37 6 cx.frames ||| place 45 38 qp⟩)

/-- The engine’s command whether or not it waits on a translation fault (R607, R608). -/
def State.prismAny (s : State) (e : Nat) : Option (EngSt × CmdSt) :=
  match s.engCmd (24 + e) with
  | some (x, c) => if s.stopped || c.stage ≠ 2 then none else some (x, c)
  | none => none

/-- PRISM_WATCHDOG: the frame ends concealed, flagged DAMAGED and WATCHDOG, and the engine keeps no held work (R607, R608,
R613). -/
def execPrismWatchdog (e : Nat) (r : FrameResult) (s : State) : Res :=
  match s.prismAny e with
  | none => ok s
  | some (x, c) =>
    let k := bits c.w 9 0
    match c.op, s.ownCtx x k with
    | 0x23, _ => s.decodeEnds e x c r true
    | 0x24, some cx =>
      match s.encodeRefused e x c with
      | some (st, d) => ok (s.finish (24 + e) x st d)
      | none =>
        let total := min r.bytes (bits c.w 255 224)
        let qp := frameQp cx.par (bit c.w 10) x.next (cx.qp.getD 0)
        let moves := if bit c.w 10 then motionOf cx.par cx.hist r.first else []
        (s.surfTry [bits c.w 77 64, bits c.w 173 160, parPool cx.par r.pool]).encodeFrame cx c r.pool total ([qp, r.first, r.affected, r.blocks] ++ moves.flatMap (Motion.corners cx.par)) moves fun s2 cx d =>
        let f : FrameSt := ⟨1, 5 ||| place 6 6 (b2n (decide (0 < d))), r.pool, b2n (bit c.w 10), r.order, r.affected, r.blocks,
          total, r.first, qp, d, r.cycles⟩
        ok (s2.endFrame e x k cx f (some 1))
    | 0x25, some cx =>
      (s.surfTry [bits c.w 77 64, bits c.w 173 160]).convertFrame cx c [r.first, r.affected, r.blocks] fun s1 cx d =>
      let f : FrameSt := ⟨2, 5 ||| place 6 6 (b2n (decide (0 < d))), 0, 0, 0, r.affected, r.blocks, 0, r.first, 0, d, r.cycles⟩
      ok (s1.endFrame e x k cx f (some 1))
    | _, _ => ok s

end Sys2Proof.Machine
end

