-- ==== Sys2Proof/Machine/Lap.lean ====
section
/-!
DEFINITION. The lap clock (02): lap marks, the marks that travel between modules and their acceptance, upstream choice, delay
measurement, LAPREF, holdover, relock and takeover.
-/

namespace Sys2Proof.Machine

/-- ACM_ID shows what follows from ACM_CFG (R392, R393). -/
def State.showFabric (s : State) : State :=
  let fi := s.rd F.ACM_CFG_FI
  ((s.wr F.ACM_ID_POD (fi / 32)).wr F.ACM_ID_POS (fi % 32)).wr F.ACM_ID_LINKS (podLinks (s.rd F.ACM_CFG_PODS))

/-- Set STR_START.STATE, with its platform event (R757).
[DEDUCED, notes/assumptions/75.md] -/
def State.setStart (s : State) (n : Nat) : State := (s.wr F.STR_START_STATE n).send (.pldmEvent (0x10000 + n))

/-- START_READY at the first LOCKED after the start sequence (R667). The time since reset release is a measured value, free here.
[DESIGN CHOICE, notes/assumptions/36.md] -/
def State.startReady (s : State) : State :=
  let st := s.rd F.STR_START_STATE
  if st = 6 || st = 7 then
    let ms := s.freeNat 0 % 65536
    let ports := ((List.range 52).filter (fun p => s.portUp p)).length
    (((s.setStart 8).wr F.STR_START_READY_MS ms).emit
      ⟨0, 0x0103, srcModule 0, none, place 15 0 ms ||| place 17 16 (s.rd F.LAP_STATUS_ROLE) ||| place 23 18 ports⟩).tick
  else s

/-- LAP_STATUS.STATE becomes LOCKED. -/
def State.lockLap (s : State) : State :=
  (({ s with lap := { s.lap with okLaps := 0, everLocked := true } }).wr F.LAP_STATUS_STATE 2).startReady

/-- LAP_LOCK_LOST: cause and last accepted LAP. -/
def lockLost (sev cause lastLap : Nat) (job : Option Nat) : Ev :=
  ⟨sev, 0x0201, srcModule 0, job, place 7 0 cause ||| place 71 8 lastLap⟩

/-- A relock error of more than 16 laps: the jobs stop and the module stays in HOLDOVER until module reset (R74).
[DEDUCED, notes/assumptions/94.md] -/
def State.relockFails (s : State) : State :=
  let s0 := if s.rd F.LAP_STATUS_STATE = 3 then s else s.inc F.LAP_CNT_LOCK_LOSS
  let s1 := ({ s0 with lap := { s0.lap with stuck := true } }).wr F.LAP_STATUS_STATE 3
  let js := (List.range 16).filter (fun j =>
    s.slotState j == 1 || s.slotState j == 2 || s.slotState j == 3 || s.slotState j == 5)
  if js.isEmpty then s1.emit (lockLost 2 2 s.lap.lastLap none)
  else js.foldl (fun (s : State) j => s.failJob j (lockLost 3 2 s.lap.lastLap (s.jobOf j))) s1

/-! Marks (R60 to R66). -/

/-- A 128-bit ordered set with its CHECK (R408, R775). -/
def orderedSet (w : Nat) : BitVec 128 := BitVec.ofNat 128 ((w <<< 16 >>> 16) ||| crc16Check w)

/-- Is the CHECK of an ordered set good? -/
def checkGood (w : BitVec 128) : Bool := w.toNat % 65536 == crc16Check w.toNat

/-- The LMOS that this module sends for the lap that begins (R60, R61): HOLD is set by one that does not originate marks while it is not
LOCKED, or has no upstream, or its upstream delivered none for the previous mark. -/
def State.lmos (s : State) : BitVec 128 :=
  let orig := s.lap.originates
  let hold := !orig && (s.rd F.LAP_STATUS_STATE != 2 || decide (1 < s.lap.quietUp) || s.rd F.LAP_STATUS_UPSTREAM == 63)
  orderedSet (place 127 120 0x6C ||| place 119 119 (b2n (orig && decide (0 < s.lap.takeoverLeft)))
    ||| place 118 118 (s.rd F.LAP_STATUS_REFD) ||| place 117 117 (b2n hold)
    ||| place 115 112 (if orig then 0 else s.rd F.LAP_STATUS_HOPS) ||| place 111 96 (s.rd F.LAP_STATUS_EPOCH)
    ||| place 95 83 (s.rd F.LAP_STATUS_MASTER) ||| place 79 16 s.now)

/-- Send it on every port in service, in the states of R60. -/
def State.sendMarks (s : State) : State :=
  if 2 ≤ s.rd F.LAP_STATUS_STATE then
    let w := s.lmos
    (List.range 52).foldl (fun (s : State) p => if s.portUp p then s.send (.orderedSet p w) else s) s
  else s

/-- Ask the far end of a port for its delay (R65, R408). -/
def State.askDelay (s : State) (p : Nat) : State :=
  let v := s.port p
  let s1 := { s.setPort p { v with dreq := v.dreq + 1 } with
    lap := { s.lap with asked := s.lap.asked.filter (· ≠ p) ++ [p] } }
  s1.send (.orderedSet p (orderedSet (place 127 120 0x64 ||| place 63 16 (v.dreq + 1))))

/-- The upstream that R64 chooses among valid marks: measured ports, highest EPOCH, then lowest HOPS, then lowest port; within
the present epoch only a port whose HOPS is lower than the module’s own when it was last LOCKED in it.
[DEDUCED, notes/assumptions/35.md] -/
def State.bestMark (s : State) (ms : List MarkIn) : Option MarkIn :=
  let own := s.rd F.LAP_STATUS_EPOCH
  let ms1 := ms.filter (fun m => s.rd (F.LAP_PORT_DELAY_VALID m.port) == 1)
  let e := ms1.foldl (fun a m => max a m.epoch) 0
  let ms2 := ms1.filter (fun m => m.epoch == e && (m.epoch != own || (match s.lap.lockHops with | some h => decide (m.hops < h) | none => true)))
  ms2.foldl (fun (a : Option MarkIn) m => match a with
    | none => some m
    | some b => if m.hops < b.hops || (m.hops = b.hops && m.port < b.port) then some m else a) none

/-- Follow a mark: upstream, hops, master, epoch and REFD (R64); an epoch change is counted, and HOPS of the old epoch no longer
binds the choice.
[DEDUCED, notes/assumptions/35.md] [DEDUCED, notes/assumptions/94.md] -/
def State.follow (s : State) (m : MarkIn) : State :=
  let s1 := if m.epoch = s.rd F.LAP_STATUS_EPOCH then s
    else ({ s with lap := { s.lap with lockHops := none } } : State).inc F.LAP_CNT_TAKEOVER
  (((((s1.wr F.LAP_STATUS_UPSTREAM m.port).wr F.LAP_STATUS_HOPS (m.hops + 1)).wr F.LAP_STATUS_MASTER m.master).wr
    F.LAP_STATUS_EPOCH m.epoch).wrB F.LAP_STATUS_REFD m.refd)

/-- The phase error of the upstream’s mark, and how long it has been small (R56, R73). A lap without a mark of the upstream neither
counts in the run nor breaks it.
[DESIGN CHOICE, notes/assumptions/3.md] [DEDUCED, notes/assumptions/98.md] -/
def State.phase (s : State) (err : Int) : State :=
  let e := max (-127) (min 127 err)
  ({ s with lap := { s.lap with okLaps := if -5 ≤ err && err ≤ 5 then s.lap.okLaps + 1 else 0 } }).wrInt F.LAP_STATUS_PHASE_ERR e

/-- The run of laps with a small phase error, the mark of the present lap counted where it has come (R56, R73). -/
def State.okRun (s : State) : Nat :=
  match s.lap.marks.find? (fun m => m.port == s.rd F.LAP_STATUS_UPSTREAM) with
  | some m => if -5 ≤ m.err && m.err ≤ 5 then s.lap.okLaps + 1 else 0
  | none => s.lap.okLaps

/-- The phase error of a mark: its arrival in ns after this module's own mark, less the port's measured delay, and a lap of 1,024 ns for each
lap by which this module's count is ahead of it (R66, R73). -/
def State.markErr (s : State) (port lap : Nat) (arrNs : Int) : Int :=
  arrNs - (s.rd (F.LAP_PORT_DELAY_DELAY port) : Int) + 1024 * ((s.now : Int) - (lap : Int))

/-- LMOS_RECEIVE (R61 to R63, R66, R780): `arrNs` is its arrival in ns after this module's own mark. A valid mark raises the highest epoch
accepted, and one with HOLD set does not. The first valid mark brings a follower or standby from UNLOCKED to ACQUIRING, also one from a
port that is not measured yet. A valid mark of a later epoch deposes a module in the live role MASTER, whatever its state.
[DEDUCED, notes/assumptions/98.md] -/
def execLmosReceive (port : Nat) (w : BitVec 128) (arrNs : Int) (s : State) : Res :=
  let n := w.toNat
  let st := s.rd F.LAP_STATUS_STATE
  let err (s : State) : State := s.inc (F.ACM_PORT_CNT_LMOS_ERR port)
  if bits n 127 120 ≠ 0x6C || !s.portUp port then ok s
  else if !checkGood w then ok (err s)
  else if bit n 117 then ok s
  else
    let epoch := bits n 111 96
    let lap := bits n 79 16
    let off := if lap ≤ s.now then s.now - lap else lap - s.now
    if epoch < s.lap.topEpoch then ok (err s)
    else if st = 2 && 1 < off then ok (err s)
    else
      let m : MarkIn := ⟨port, epoch, bits n 115 112, bits n 95 83, lap, bit n 118, s.markErr port lap arrNs⟩
      let s1 := { s with lap := { s.lap with topEpoch := epoch } }
      if s.rd F.LAP_STATUS_ROLE = 1 then
        if s.rd F.LAP_STATUS_EPOCH < epoch then
          ok { s1 with lap := { s1.lap with demoted := true, marks := s.lap.marks.filter (fun x => x.port ≠ port) ++ [m] } }
        else ok s1
      else
        let s2 := { s1 with lap := { s1.lap with
          marks := s.lap.marks.filter (fun x => x.port ≠ port) ++ [m]
          lastLap := lap } }
        let begun := s.rails && decide (6 ≤ s.rd F.STR_START_STATE) && decide (s.rd F.STR_START_STATE ≤ 8)
        ok (if st = 0 && begun then s2.wr F.LAP_STATUS_STATE 1 else s2)

/-- The module leaves HOLDOVER, or a deposed master starts to follow: RELOCKING, or the stop of R74 (R73, R780). -/
def State.relock (s : State) (m : MarkIn) : State :=
  let off := if m.lap ≤ s.now then s.now - m.lap else m.lap - s.now
  if 16 < off then s.relockFails
  else ((({ s with lap := { s.lap with relockLaps := 0, okLaps := 0, reported := false } }).follow m).wr F.LAP_STATUS_STATE 4).wr
    F.LAP_HOLD_HOLD_LAPS 0

/-- A later epoch deposes this master, or a standby that took over: it originates no more, and it is RELOCKING to that epoch, or waits in
HOLDOVER until R64 gives it an upstream (R780).
[DEDUCED, notes/assumptions/94.md] -/
def State.depose (s : State) : State :=
  let s1 : State := ({ s with lap := { s.lap with
    demoted := false, originates := false, takeoverLeft := 0
    okLaps := 0, reported := false } } : State).wr F.LAP_STATUS_ROLE 0
  let s2 := ((s1.wr F.LAP_STATUS_REF10M 0).wr F.LAP_STATUS_PPS 0).wr F.LAP_HOLD_HOLD_LAPS 0
  let rec_ : Ev := ⟨1, 0x0203, srcModule 0, none, place 15 0 s.lap.topEpoch ||| place 28 16 (s.rd F.LAP_STATUS_MASTER)⟩
  match s2.bestMark (s.lap.marks.filter (fun m => decide (s.rd F.LAP_STATUS_EPOCH < m.epoch))) with
  | some m => (s2.relock m).emit rec_
  | none => ((s2.wr F.LAP_STATUS_STATE 3).inc F.LAP_CNT_LOCK_LOSS).emit rec_

/-- What the marks of the lap that ends do to the module’s state, before its count advances. While the upstream's mark comes, the
choice of R64 is made anew; where it does not come, R69 waits 2 laps. An upstream whose HOPS R64 no longer allows, with no other port to
take, is kept as R69 says, and the module's own HOPS stays.
[DEDUCED, notes/assumptions/35.md] [DEDUCED, notes/assumptions/94.md] -/
def State.takeMarks (s : State) : State :=
  let ms := s.lap.marks
  let up := s.rd F.LAP_STATUS_UPSTREAM
  let st := s.rd F.LAP_STATUS_STATE
  if s.lap.demoted then s.depose
  else if s.lap.originates || st = 0 then s
  else
    let best := s.bestMark ms
    let mine := ms.find? (fun m => m.port == up && s.rd (F.LAP_PORT_DELAY_VALID m.port) == 1)
    let newer := match best with | some b => decide (s.rd F.LAP_STATUS_EPOCH < b.epoch) | none => false
    let pick := match mine, best with
      | some m, some b => some (if newer || b.hops < m.hops || (b.hops = m.hops && b.port < m.port) then b else m)
      | some _, none => none
      | none, b => if newer || st ≠ 2 && st ≠ 4 then b else none
    match pick with
    | none => (match mine with | some m => if st = 2 || st = 4 then s.phase m.err else s | none => s)
    | some m =>
      if st = 3 then (if s.lap.stuck then s else s.relock m)
      else if st = 1 && !s.lap.adopted then
        ({ (s.follow m) with lap := { (s.follow m).lap with adopted := true } }).wr F.LAP_COUNT_COUNT m.lap
      else
        let s1 := if m.port = up || up = 63 then s else s.inc F.LAP_CNT_UP_SWITCH
        (s1.follow m).phase m.err

/-- The swap of the module's area that is due at this lap takes the role MASTER away (R781). -/
def State.losesMaster (s : State) : Bool :=
  s.lap.originates && (s.due 0 16).isSome && s.srd F.LAP_CFG_ROLE != 1 && s.srd F.LAP_CFG_ROLE != s.rd F.LAP_CFG_ROLE

/-- Send the mark of this lap, or withhold it before a swap that takes the role MASTER away (R60, R781). -/
def State.markOut (s : State) : State :=
  if s.losesMaster then { s with lap := { s.lap with withheld := true } }
  else { s.sendMarks with lap := { s.sendMarks.lap with withheld := false, takeoverLeft := s.lap.takeoverLeft - 1 } }

/-- LAP_LOCK_ACQUIRED: the phase error has stayed small for 64 laps, or the master is disciplined (R56, R58).
[DEDUCED, notes/assumptions/35.md] -/
def execLapLockAcquired (s : State) : Res :=
  if s.rd F.LAP_STATUS_STATE = 1 && ((s.lap.adopted && decide (64 ≤ s.okRun)) || s.lap.originates) then ok s.lockLap
  else ok s

/-- LAP_UPSTREAM_SWITCH: the upstream has been silent for 2 laps and another port qualifies (R69). A module that is RELOCKING
switches in the same way.
[DEDUCED, notes/assumptions/35.md] [DEDUCED, notes/assumptions/94.md] -/
def execLapUpstreamSwitch (s : State) : Res :=
  if (s.rd F.LAP_STATUS_STATE = 2 || s.rd F.LAP_STATUS_STATE = 4) && !s.lap.originates && decide (2 ≤ s.lap.quietUp) then
    match s.bestMark s.lap.last with
    | none => ok s
    | some m =>
      let s1 := ({ s with lap := { s.lap with quietUp := 1 } }).follow m
      ok ((s1.inc F.LAP_CNT_UP_SWITCH).emit ⟨1, 0x0207, srcModule 0, none, place 5 0 (s.rd F.LAP_STATUS_UPSTREAM) ||| place 11 6 m.port⟩)
  else ok s

/-- LAP_LOCK_LOST: no mark on any port for 4 laps, or a phase error above 40 ns (R70).
[DEDUCED, notes/assumptions/94.md] -/
def execLapLockLost (s : State) : Res :=
  let st := s.rd F.LAP_STATUS_STATE
  let silent := decide (4 ≤ s.lap.quiet)
  let far := decide (40 < (s.rdInt F.LAP_STATUS_PHASE_ERR).natAbs)
  if (st = 2 || st = 4) && !s.lap.originates && (silent || (st = 2 && far)) then
    let s1 := ({ s with lap := { s.lap with okLaps := 0, reported := false } }).wr F.LAP_STATUS_STATE 3
    ok (((s1.wr F.LAP_HOLD_HOLD_LAPS 0).inc F.LAP_CNT_LOCK_LOSS).emit (lockLost 2 (if silent then 0 else 1) s.lap.lastLap none))
  else ok s

/-- 10 s in laps, rounded up (R72). -/
def tenSeconds : Nat := 9765625

/-- LAP_HOLDOVER: HOLDOVER has lasted 10 s; every RUNNING job stops at its next Hurdle (R72). -/
def execLapHoldover (s : State) : Res :=
  if s.rd F.LAP_STATUS_STATE = 3 && !s.lap.reported && tenSeconds ≤ s.rd F.LAP_HOLD_HOLD_LAPS then
    let s1 := { s with lap := { s.lap with reported := true } }
    ok (((List.range 16).filter (fun j => s.slotState j == 2)).foldl (fun (s : State) j =>
      s.failJob j ⟨3, 0x0202, srcModule 0, s.jobOf j, place 31 0 (s.rd F.LAP_HOLD_HOLD_LAPS)⟩) s1)
  else ok s

/-- LAP_RELOCKED (R73). -/
def execLapRelocked (s : State) : Res :=
  if s.rd F.LAP_STATUS_STATE = 4 && decide (64 ≤ s.okRun) then
    ok (s.lockLap.emit ⟨0, 0x0206, srcModule 0, none, place 31 0 s.lap.relockLaps ||| place 47 32 (s.rd F.LAP_STATUS_EPOCH)⟩)
  else ok s

/-- The live MASTER shows LAPREF, and its marks say that it is disciplined only from its next PPS edge on (R57, R58, R61).
[DEDUCED, notes/assumptions/98.md] -/
def State.showRef (s : State) : State :=
  ((s.wrB F.LAP_STATUS_REF10M s.lap.ref10M).wrB F.LAP_STATUS_PPS s.lap.refPps).wr F.LAP_STATUS_REFD 0

/-- LAP_MASTER_TAKEOVER: a standby without a mark of the epoch for 8 laps and with at least 16 pod ports (R75, R76). One that is
UNLOCKED or ACQUIRING has no count of the fabric, and never takes over; one that does is LOCKED from then on.
[DEDUCED, notes/assumptions/98.md] -/
def execLapMasterTakeover (s : State) : Res :=
  let pods := ((List.range 52).filter (fun p => s.portUp p && s.rd (F.ACM_PORT_STAT_ROLE p) == 0)).length
  if s.rd F.LAP_STATUS_ROLE = 2 && decide (2 ≤ s.rd F.LAP_STATUS_STATE) && decide (8 ≤ s.lap.quietEpoch) && decide (16 ≤ pods)
      && !s.lap.stuck then
    let e := s.rd F.LAP_STATUS_EPOCH + 1
    let s1 := { s with lap := { s.lap with originates := true, takeoverLeft := 4096, started := true, lockHops := none, topEpoch := max s.lap.topEpoch e } }
    let s2 := ((((s1.wr F.LAP_STATUS_EPOCH e).wr F.LAP_STATUS_ROLE 1).wr F.LAP_STATUS_HOPS 0).wr F.LAP_STATUS_MASTER
      (s.rd F.ACM_CFG_FI)).wr F.LAP_STATUS_UPSTREAM 63
    ok (((s2.showRef.wr F.LAP_HOLD_HOLD_LAPS 0).inc F.LAP_CNT_TAKEOVER).lockLap.emit
      ⟨1, 0x0203, srcModule 0, none, place 15 0 e ||| place 28 16 (s.rd F.LAP_STATUS_MASTER)⟩)
  else ok s

/-- A change of LAP_CFG.ROLE at a shadow-set swap (R781). A module that R74 holds in HOLDOVER and that becomes MASTER enters LOCKED:
R781 names HOLDOVER and makes no exception. One that becomes MASTER while UNLOCKED or ACQUIRING keeps EPOCH. One that stops being MASTER
sends its mark of this lap with HOLD set, since it has no upstream (R60).
[DEDUCED, notes/assumptions/94.md] [DEDUCED, notes/assumptions/98.md] -/
def State.roleChange (s : State) (new : Nat) : State :=
  let st := s.rd F.LAP_STATUS_STATE
  let s1 := s.wr F.LAP_STATUS_ROLE new
  if new = 1 then
    if st ≤ 1 then
      ((({ s1 with lap := { s1.lap with adopted := false } }).wr F.LAP_STATUS_STATE 0).wr F.LAP_STATUS_UPSTREAM 63).wr F.LAP_STATUS_REFD 0
    else
      let e := s.lap.topEpoch + 1
      let s2 := { s1 with lap := { s1.lap with originates := true, takeoverLeft := 0, reported := false, stuck := false, lockHops := none, topEpoch := e } }
      (((((s2.wr F.LAP_STATUS_EPOCH e).wr F.LAP_STATUS_HOPS 0).wr F.LAP_STATUS_MASTER (s.rd F.ACM_CFG_FI)).wr
        F.LAP_STATUS_UPSTREAM 63).wr F.LAP_HOLD_HOLD_LAPS 0).showRef.lockLap
  else if s.lap.originates then
    (((({ s1 with lap := { s1.lap with
      originates := false, takeoverLeft := 0, okLaps := 0, adopted := false
      quiet := 1, quietUp := 1, quietEpoch := 1, withheld := false } } : State).wr F.LAP_STATUS_UPSTREAM 63).wr F.LAP_STATUS_REF10M 0).wr F.LAP_STATUS_PPS 0).sendMarks
  else s1

/-! LAPREF (R57 to R59). -/

/-- Is the module the live master with LAPREF in use? -/
def State.usesRef (s : State) : Bool := s.rd F.LAP_STATUS_ROLE == 1

/-- LAPREF_PPS_EDGE: count and phase are captured; a disciplined master’s edges fall at phase 0 and 512 by turns, the first of them at 0
(R58).
[DEDUCED, notes/assumptions/98.md] -/
def execLaprefPpsEdge (s : State) : Res :=
  if !s.usesRef then ok s
  else
    let disc := s.rd F.LAP_CFG_REF_EN = 1 && s.lap.ref10M
    let ph := if disc then (if s.lap.ppsOdd then 512 else 0) else s.freeNat 0 % 1024
    let s1 := { s with lap := { s.lap with refPps := true, ppsOdd := !s.lap.ppsOdd } }
    let s2 := ((s1.wr F.LAP_PPS_CAPTURE_LAP (s.now % 2 ^ 54)).wr F.LAP_PPS_CAPTURE_PHASE ph).wr F.LAP_STATUS_PPS 1
    ok (((s2.wrB F.LAP_STATUS_REF10M s.lap.ref10M).wrB F.LAP_STATUS_REFD disc).tick)

/-- LAPREF_LOST: the master runs free (R59). -/
def execLaprefLost (no10M noPps : Bool) (s : State) : Res :=
  if !s.usesRef || !(no10M || noPps) then ok s
  else
    let m := s.lap.ref10M && !no10M
    let p := s.lap.refPps && !noPps
    let s1 := { s with lap := { s.lap with ref10M := m, refPps := p } }
    ok ((((s1.wrB F.LAP_STATUS_REF10M m).wrB F.LAP_STATUS_PPS p).wr F.LAP_STATUS_REFD 0).emit
      ⟨1, 0x0204, srcModule 0, none, place 0 0 (b2n no10M) ||| place 1 1 (b2n noPps)⟩)

/-- LAPREF_RESTORED: 10 MHz and PPS are present again, and a master with REF_EN disciplines its tick (R58). -/
def execLaprefRestored (s : State) : Res :=
  if !s.usesRef then ok s
  else
    let s1 := { s with lap := { s.lap with ref10M := true, refPps := true, ppsOdd := false } }
    ok (((s1.wr F.LAP_STATUS_REF10M 1).wr F.LAP_STATUS_PPS 1).wr F.LAP_STATUS_REFD (s.rd F.LAP_CFG_REF_EN))

/-! Delay measurement (R65, R408). -/

/-- DREQ_RECEIVE: the far end’s request is answered with this module’s turnaround. -/
def execDreqReceive (port : Nat) (w : BitVec 128) (turnaround : Nat) (s : State) : Res :=
  if bits w.toNat 127 120 = 0x64 && checkGood w && s.portUp port then
    ok (s.send (.orderedSet port (orderedSet (place 127 120 0x65 ||| place 63 44 turnaround ||| place 43 16 (bits w.toNat 43 16)))))
  else ok s

/-- DRSP_RECEIVE: half of the round trip less the far end’s turnaround is the port’s delay; a half tick is dropped.
[DEDUCED, notes/assumptions/98.md] -/
def execDrspReceive (port : Nat) (w : BitVec 128) (roundTrip : Nat) (s : State) : Res :=
  let v := s.port port
  if bits w.toNat 127 120 = 0x65 && checkGood w && s.portUp port && s.lap.asked.contains port
      && bits w.toNat 43 16 == v.dreq % 2 ^ 28 then
    let s1 := { s with lap := { s.lap with
      asked := s.lap.asked.filter (· ≠ port)
      measured := s.lap.measured.filter (· ≠ port) ++ [port] } }
    ok (s1.wr (F.LAP_PORT_DELAY_DELAY port) ((roundTrip - bits w.toNat 63 44) / 2))
  else ok s

/-- LAP_COUNT_READ: a read of LAP_COUNT latches the phase, a value of the moment, into LAP_PHASE. -/
def execLapCountRead (s : State) : Res := ok (s.wr F.LAP_PHASE_PHASE (s.freeNat 0 % 1024)).tick

end Sys2Proof.Machine
end

