-- ==== Sys2Proof/Machine/Relay.lean ====
section
/-!
DEFINITION. Relay (08): the plan and its trees, the encoding of a pushed tile, the exact sum at each node with one stochastic
rounding, deliveries and scale returns, acknowledgements, and Relay engines that fail.
-/

namespace Sys2Proof.Machine

/-! The plan (R343 to R347). -/

/-- What the plan says of a tile: TILE_LO and DEST of its range, its contributors and its owners. -/
structure PlanTile where
  lo : Nat
  dest : Nat
  contributors : List Nat
  owners : List Nat
  deriving DecidableEq, Repr

/-- A module list of the list area (R344). -/
def State.planList (s : State) (j n : Nat) : List Nat :=
  let a := 2 ^ 15 * s.rd (F.RLY_LIST_LIST j) + 32768 * n
  (List.range (min 8192 (s.memNat a 4))).map (fun i => s.memNat (a + 4 + 2 * i) 2)

/-- Address of the plan entry of a tile.
[DEDUCED, notes/assumptions/89.md] -/
def State.planAt (s : State) (j tile : Nat) : Option Nat :=
  let base := s.rd (F.RLY_PLAN_PLAN j) * 32
  ((List.range (s.rd (F.RLY_CFG_PLAN_ENTRIES j))).map (fun i => base + 32 * i)).find? (fun a =>
    decide (s.memNat a 4 ≤ tile) && decide (tile ≤ s.memNat (a + 4) 4))

/-- The plan entry of a tile. -/
def State.planOf (s : State) (j tile : Nat) : Option PlanTile :=
  (s.planAt j tile).map (fun a =>
    ⟨s.memNat a 4, 2 ^ 15 * bits (s.memNat (a + 16) 8) 45 15, s.planList j (s.memNat (a + 8) 1), s.planList j (64 + s.memNat (a + 9) 1)⟩)

/-- What the homes do as a Relay engine reads the plan entry of a tile and its two lists (R448). -/
def State.readPlan (s : State) (j tile : Nat) : State :=
  match s.planAt j tile with
  | none => s
  | some a =>
    let list (n : Nat) : Nat := 2 ^ 15 * s.rd (F.RLY_LIST_LIST j) + 32768 * n
    [s.memNat (a + 8) 1, 64 + s.memNat (a + 9) 1].foldl (fun (s : State) n => s.reads (list n) (4 + 2 * (s.planList j n).length)) (s.reads a 32)

/-- Levels of a tree of n leaves (R346). -/
def treeLevels (n : Nat) : Nat := if n ≤ 32 then 1 else if n ≤ 512 then 2 else 3

/-- Leaves under one node of level k. -/
def treeSpan (k : Nat) : Nat := match k with | 0 => 1 | 1 => 32 | 2 => 512 | _ => 8192

/-- Children of node `i` of level `k` in a tree of n leaves. -/
def treeChildren (n k i : Nat) : Nat :=
  ceilDiv (min n ((i + 1) * treeSpan k) - i * treeSpan k) (treeSpan (k - 1))

/-- The position in the contributor list of the adder of node `i` of level `k` for a tile (R347). -/
def adderPos (n tile : Nat) : Nat → Nat → Nat
  | 0, i => i
  | k + 1, i =>
    let first := i * (treeSpan (k + 1) / treeSpan k)
    adderPos n tile k (first + tile % treeChildren n (k + 1) i)

/-- The module index that serves a node. -/
def PlanTile.adder (p : PlanTile) (tile k i : Nat) : Nat := p.contributors.getD (adderPos p.contributors.length tile k i) 8191

/-- The position of a module in the contributor list. -/
def PlanTile.pos (p : PlanTile) (m : Nat) : Option Nat := p.contributors.findIdx? (· == m)

/-! Blocks (R336, R337). -/

end Sys2Proof.Machine

namespace Sys2Proof
open Sys2Proof.Machine

/-- Header fields. -/
def RelayBlock.job (b : RelayBlock) : Nat := bits b.hdr.toNat 247 236
/-- TENSOR. -/
def RelayBlock.tensor (b : RelayBlock) : Nat := bits b.hdr.toNat 235 216
/-- TILE. -/
def RelayBlock.tile (b : RelayBlock) : Nat := bits b.hdr.toNat 215 184
/-- SEPOCH. -/
def RelayBlock.sepoch (b : RelayBlock) : Nat := bits b.hdr.toNat 183 168
/-- COUNT. -/
def RelayBlock.count (b : RelayBlock) : Nat := bits b.hdr.toNat 167 154
/-- HOP. -/
def RelayBlock.hop (b : RelayBlock) : Nat := bits b.hdr.toNat 153 152
/-- XA. -/
def RelayBlock.xa (b : RelayBlock) : Int := signed 8 (bits b.hdr.toNat 151 144)
/-- MAXEXP. -/
def RelayBlock.maxexp (b : RelayBlock) : Int := signed 8 (bits b.hdr.toNat 143 136)
/-- CLIPS. -/
def RelayBlock.clips (b : RelayBlock) : Nat := bits b.hdr.toNat 135 120
/-- SENDER. -/
def RelayBlock.sender (b : RelayBlock) : Nat := bits b.hdr.toNat 119 107
/-- A block as it travels on channel 0: the header, then the payload (R336). -/
def RelayBlock.bytes (b : RelayBlock) : List Byte := leBytes 32 b.hdr.toNat ++ b.payload

end Sys2Proof

namespace Sys2Proof.Machine
open Sys2Proof

/-- CRC-32C over header bits [255:32] and the payload (R336). -/
def relayCrc (hdr : Nat) (payload : List Byte) : Nat := crc32c (leBytes 28 (hdr >>> 32) ++ payload)

/-- Are blocks checked: classes M, L and X (R338)? -/
def State.relayChecks (s : State) : Bool := s.rd F.STR_ROLE_CLASS != 0

/-- A block with its CRC where the class checks it. -/
def State.relayBlock (s : State) (type job tensor tile step count hop : Nat) (xa maxexp : Int) (clips sender : Nat)
    (payload : List Byte) : RelayBlock :=
  let h := place 255 248 type ||| place 247 236 job ||| place 235 216 tensor ||| place 215 184 tile ||| place 183 168 step
    ||| place 167 154 count ||| place 153 152 hop ||| place 151 144 (unsignedOf 8 xa) ||| place 143 136 (unsignedOf 8 maxexp)
    ||| place 135 120 clips ||| place 119 107 sender
  ⟨BitVec.ofNat 256 (h ||| (if s.relayChecks then relayCrc h payload else 0)), payload⟩

/-! The scale table (R339 to R341). -/

/-- Address of byte `tile` of bank b of the scale table. -/
def State.scaleAddr (s : State) (j b tile : Nat) : Nat :=
  4096 * s.rd (F.RLY_SCALE_SCALE j) + b * (ceilDiv (s.rd (F.RLY_CFG_SCALE_ENTRIES j)) 4096 * 4096) + tile

/-- The agreed exponent of a tile for `count` contributors (R339). -/
def State.agreed (s : State) (j tile count : Nat) : Int :=
  let raw := s.unitNat (s.scaleAddr j (s.step j % 2) tile) 1
  let e : Int := if raw = 0x80 then s.rdInt (F.RLY_CFG_INIT_EXP j) else signed 8 raw
  let cl : Int := if count ≤ 1 then 0 else (Nat.log2 (count - 1) + 1 : Nat)
  let d := s.rdInt (F.HRD_RESULT_DELTA j)
  max (-127) (min 119 (e + 2 + cl - 8 + d))

/-! Engines and flags. -/

/-- SRC of the physical engine that serves tile t. -/
def State.relayEngine (s : State) (tile : Nat) : Option Nat :=
  (List.range 20).find? (fun e => s.rd (F.RLY_ENG_LOGICAL e) == tile % 16 && s.rd (F.RLY_ENG_ROLE e) == 0)

/-- SRC of a record of Relay engine e. -/
def relaySrc (e : Nat) : Nat := srcOf (10 + e / 5) (e % 5)

/-- The Relay state of a slot. -/
def State.relay (s : State) (j : Nat) : RelaySt := (s.slot j).relay

/-- The contexts in use, as RLY_ENG_e shows them. -/
def State.showRelay (s : State) : State :=
  (List.range 20).foldl (fun (s : State) e =>
    let l := s.rd (F.RLY_ENG_LOGICAL e)
    let n (k : Nat) : Nat := ((List.range 16).map (fun j =>
      ((s.relay j).nodes.filter (fun x => x.tile % 16 == l && x.level == k)).length)).sum
    ((s.wr (F.RLY_ENG_CTX1 e) (n 1)).wr (F.RLY_ENG_CTX2 e) (n 2)).wr (F.RLY_ENG_CTX3 e) (n 3)) s

/-- Set it, and the contexts that RLY_ENG_e shows. -/
def State.setRelay (s : State) (j : Nat) (r : RelaySt) : State := (s.setSlot j { s.slot j with relay := r }).showRelay

/-- The module will contribute abort at the next Hurdle mark of slot j (HRD_FLAGS_j.ABORT). -/
def State.abortNext (s : State) (j : Nat) : State := s.wr (F.HRD_FLAGS_ABORT j) 1

/-- HRD_FLAGS_j.CLIP shows the bank of the step in progress (R783). -/
def State.showClip (s : State) (j : Nat) : State :=
  s.wrB (F.HRD_FLAGS_CLIP j) (if s.step j % 2 = 0 then (s.slot j).clipEven else (s.slot j).clipOdd)

/-- Clips of a block: counted, flagged for the step, and reported at the first of the step (R333). -/
def State.relayClip (s : State) (j tensor tile level first clips : Nat) : State :=
  if clips = 0 then s
  else
    let ev := s.step j % 2 = 0
    let sl := s.slot j
    let told := if ev then sl.clipEven else sl.clipOdd
    let s1 := ((s.add (F.RLY_CNT_CLIPS j) clips).setSlot j (if ev then { sl with clipEven := true } else { sl with clipOdd := true })).showClip j
    if told then s1
    else s1.emit ⟨1, 0x0702, relaySrc ((s.relayEngine tile).getD 0), s.jobOf j,
      place 19 0 tensor ||| place 51 20 tile ||| place 53 52 level ||| place 66 54 first ||| place 82 67 (satTo 16 clips)⟩

/-- A push or block outside the plan, or a second push, is dropped (R335, R352).
[DEDUCED, notes/assumptions/89.md] -/
def State.planMiss (s : State) (j tensor tile reason : Nat) : State :=
  (s.emit ⟨2, 0x0709, relaySrc ((s.relayEngine tile).getD 0), s.jobOf j,
    place 19 0 tensor ||| place 51 20 tile ||| place 53 52 reason⟩).abortNext j

/-! Sums (R348 to R351). -/

/-- The exact sum of element e over the inputs; none where an input is not finite (R349). -/
def sumElem (ins : List RelayBlock) (e : Nat) : Fp :=
  ins.foldl (fun a b => fpAdd a (fpScale (decodeElem 7 (b.payload.getD e 0).toNat) b.xa)) (.fin false 0 0)

/-- The TENSOR of a node's output: that of the input of the lowest SENDER, whatever the order of arrival (R350).
[DESIGN CHOICE, notes/assumptions/105.md] -/
def tensorOf (ins : List RelayBlock) : Nat :=
  let low := ins.foldl (fun a b => min a b.sender) 8191
  match ins.find? (fun b => b.sender == low) with | some b => b.tensor | none => 0

/-- The output of a node: payload, clips of its own, and its first clipped element. -/
def State.sumBlock (s : State) (j level : Nat) (xa : Int) (ins : List RelayBlock) : List Byte × Nat × Nat :=
  let tensor := tensorOf ins
  let tile := match ins with | b :: _ => b.tile | [] => 0
  (List.range 8192).foldr (fun e (acc : List Byte × Nat × Nat) =>
    match fpScale (sumElem ins e) (-xa) with
    | .fin neg m q =>
      let (v, clip) := srWire (randomWord (s.slot j).seed 2 (s.step j) tensor tile level e) neg m q
      (BitVec.ofNat 8 (encodeElem fmtE4m3 v) :: acc.1, if clip then acc.2.1 + 1 else acc.2.1, if clip then e else acc.2.2)
    | _ => (0x7F :: acc.1, acc.2.1, acc.2.2)) ([], 0, 0)

/-- An owner decodes a block exactly to binary32 into its DEST area (R351). -/
def State.ownerStore (s : State) (p : PlanTile) (b : RelayBlock) : State :=
  let a := p.dest + 0x8000 * (b.tile - p.lo)
  s.write a (b.payload.flatMap (fun q => leBytes 4 (toFp32 (fpScale (decodeElem 7 q.toNat) b.xa)).toNat))

/-- Send a block to a member and hold it until it is acknowledged (R353).
[DEDUCED, notes/assumptions/37.md] -/
def State.relaySend (s : State) (j dest kind tile level : Nat) (b : RelayBlock) : State :=
  let r := s.relay j
  let s1 := { s with relayTag := s.relayTag + 1 }
  (s1.setRelay j { r with sent := r.sent ++ [⟨s.relayTag, dest, kind, tile, level, b⟩] }).sendMember j 0 dest 1 b.bytes

/-- A contributor takes a scale return: byte t of the next step’s bank, then 0x80 in this step’s (R341). -/
def State.scaleStore (s : State) (j tile : Nat) (maxexp : Int) : State :=
  let r := s.relay j
  ((s.writeNat (s.scaleAddr j ((s.step j + 1) % 2) tile) 1 (unsignedOf 8 maxexp)).writeNat
    (s.scaleAddr j (s.step j % 2) tile) 1 0x80).setRelay j { r with expect := r.expect.filter (fun x => x % 2 ^ 32 ≠ tile) }

/-- Pass a scale return on, over the reverse of the tree: to the children of every node of the tile that this module serves
(R341).
[DEDUCED, notes/assumptions/37.md] [DEDUCED, notes/assumptions/89.md] -/
def State.scaleDown (s : State) (j : Nat) (p : PlanTile) (tile : Nat) (maxexp : Int) : State :=
  let me := s.modIdx j
  let n := p.contributors.length
  match p.pos me with
  | none => s
  | some pos =>
    let levels := (List.range (treeLevels n)).map (· + 1)
    let dests := levels.flatMap (fun k =>
      let i := pos / treeSpan k
      if p.adder tile k i = me then
        (List.range (treeChildren n k i)).map (fun c => p.adder tile (k - 1) (i * (treeSpan k / treeSpan (k - 1)) + c))
      else [])
    let payload := leBytes 8 (place 63 32 tile ||| place 31 24 (unsignedOf 8 maxexp)) ++ List.replicate 8184 0
    (dests.filter (· ≠ me)).foldl (fun (s : State) d =>
      s.relaySend j d 2 tile 0 (s.relayBlock 0x53 (s.rd (F.STR_SLOT_JOB_ID j)) 0 0 (s.step j % 65536) 1 0 0 0 0 me payload)) s

/-! Tile contexts (R356, R357, R359). -/

/-- Does a context serve node (tile, level) already? -/
def State.hasContext (s : State) (j tile level : Nat) : Bool := (s.relay j).nodes.any (fun x => x.tile == tile && x.level == level)

/-- Does a request still stand: that of a push buffer for as long as its head is the tile? -/
def State.askStands (s : State) (a : RelayAsk) : Bool :=
  match a.cl with
  | some c => (match (s.cluster c).push with | e :: _ => e.tile == a.tile | [] => false)
  | none => true

/-- Is a context of a level free for slot j: 16 per engine and level, one kept for every other RUNNING job that holds none, the others in
order of request behind the requests `ahead` (R356, R357, R359)? -/
def State.contextFree (s : State) (j tile level : Nat) (ahead : List RelayAsk) : Bool :=
  let used (i : Nat) : Nat := ((s.relay i).nodes.filter (fun x => x.tile % 16 == tile % 16 && x.level == level)).length
  let total := ((List.range 16).map used).sum
  let kept := ((List.range 16).filter (fun i => i != j && s.slotState i == 2 && used i == 0)).length
  let waits := ahead.any (fun a => a.tile % 16 == tile % 16 && a.level == level && s.askStands a)
  decide (total < 16) && (used j == 0 || (!waits && decide (total + kept < 16)))

/-- Is the credit to send a block to node (tile, level) granted (R357)? -/
def State.credit (s : State) (j tile level : Nat) (ahead : List RelayAsk) : Bool :=
  s.hasContext j tile level || s.contextFree j tile level ahead

/-- Has the physical engine of the tile failed in this step, or does none serve it (R360)? -/
def State.engineGone (s : State) (j tile : Nat) : Bool := (s.relayEngine tile).isNone || (s.relay j).dead.contains (tile % 16)

/-- A block is an input of node (tile, level) here, or waits until it has a credit; one that arrived is acknowledged once taken. A node
that holds every input makes its output, which goes up, or from the root to the owners and as scale returns; its context is free when the
output is acknowledged, or taken by a node of this module (R348 to R351, R356, R357). `fuel` bounds the levels that lie on this module.
[DEDUCED, notes/assumptions/37.md] -/
def State.nodeInput : Nat → State → Nat → Option Nat → PlanTile → Nat → RelayBlock → State
  | 0, s, _, _, _, _, _ => s
  | fuel + 1, s, j, port, p, level, b =>
    let tile := b.tile
    let old := (s.relay j).made.contains (tile, level)
    if !old && !s.credit j tile level s.asks then { s with asks := s.asks ++ [⟨j, tile, level, some (port, b), none⟩] }
    else
      let s0 := match port with
        | some _ => s.relayReply j b.sender tile true
        | none => s.setRelay j { s.relay j with
            nodes := (s.relay j).nodes.filter (fun x => !(x.done && x.tile == tile && x.level == b.hop)) }
      let r := s0.relay j
      let me := s.modIdx j
      let n := p.contributors.length
      let i := ((p.pos me).getD 0) / treeSpan level
      let node := (r.nodes.find? (fun x => x.tile == tile && x.level == level)).getD ⟨tile, level, [], false⟩
      if old || node.done || node.inputs.any (fun x => x.sender == b.sender) then s0
      else
        let node1 := { node with inputs := node.inputs ++ [b] }
        let others := r.nodes.filter (fun x => !(x.tile == tile && x.level == level))
        if node1.inputs.length < treeChildren n level i then s0.setRelay j { r with nodes := others ++ [node1] }
        else
          let ins := node1.inputs
          let count := (ins.map (·.count)).sum
          let s0 := s0.reads (s0.scaleAddr j (s0.step j % 2) tile) 1
          let xa := s0.agreed j tile count
          let tensor := tensorOf ins
          let (payload, clips, first) := s0.sumBlock j level xa ins
          let maxexp := ins.foldl (fun a x => max a x.maxexp) (-128)
          let s1 := s0.relayClip j tensor tile level first clips
          let out := s1.relayBlock 0x5A (s.rd (F.STR_SLOT_JOB_ID j)) tensor tile (s.step j % 65536) count level xa maxexp
            (satTo 16 (clips + (ins.map (·.clips)).sum)) me payload
          let s2 := match s1.relayEngine tile with | some e => s1.inc (F.RLY_ENG_BLOCKS e) | none => s1
          let held : RNode := { node1 with inputs := [], done := true }
          let keep (nodes : List RNode) : State := s2.setRelay j { s2.relay j with nodes := nodes, made := r.made ++ [(tile, level)] }
          if level < treeLevels n then
            let up := p.adder tile (level + 1) (((p.pos me).getD 0) / treeSpan (level + 1))
            let s3 := keep (others ++ [held])
            if up = me then s3.nodeInput fuel j none p (level + 1) out else s3.relaySend j up 0 tile level out
          else
            let away := p.owners.filter (· ≠ me)
            let s3 := keep (if away.isEmpty then others else others ++ [held])
            let s4 := p.owners.foldl (fun (s : State) o => if o = me then s.ownerStore p out else s.relaySend j o 1 tile level out) s3
            ((s4.scaleDown j p tile maxexp).scaleStore j tile maxexp)

/-- The blocks that wait for a context are offered again, in order of request, while one is taken (R356). -/
def State.serveAsks : Nat → State → State
  | 0, s => s
  | n + 1, s =>
    let t := s.asks.foldl (fun (s : State) a => match a.block, s.planOf a.slot a.tile with
      | some (port, b), some p => s.nodeInput 3 a.slot port p a.level b
      | some _, none => s
      | none, _ => if s.askStands a then { s with asks := s.asks ++ [a] } else s) { s with asks := [] }
    if s.asks.length ≤ t.asks.length then t else t.serveAsks n

/-- Contexts may have become free. -/
def State.served (s : State) : State := s.serveAsks s.asks.length

/-- The blocks of slot j that wait for a context are dropped. -/
def State.dropAsks (s : State) (j : Nat) : State := { s with asks := s.asks.filter (fun a => a.slot ≠ j) }

/-! Taking a push (R330 to R335). -/

/-- Encode a tile at the source: payload, clips, first clip, MAXEXP, nonzero codes, and whether a value is not finite.
[DEDUCED, notes/assumptions/89.md] -/
def encodeTile (vals : Sparse (BitVec 32)) (g xa : Int) : List Byte × Nat × Nat × Int × Nat × Bool :=
  (List.range 8192).foldr (fun e (acc : List Byte × Nat × Nat × Int × Nat × Bool) =>
    let v := fpScale (fp32 (sget (fun _ => 0) vals e)) g
    match v with
    | .fin neg m q =>
      let (x, clip) := rneSat fmtE4m3 neg m (q - xa)
      let code := encodeElem fmtE4m3 x
      let mx := match fpExp v with | some k => max acc.2.2.2.1 (max (-127) (min 127 k)) | none => acc.2.2.2.1
      (BitVec.ofNat 8 code :: acc.1, if clip then acc.2.1 + 1 else acc.2.1, if clip then e else acc.2.2.1,
        if acc.2.2.2.2.2 then 127 else mx, if code % 128 = 0 then acc.2.2.2.2.1 else acc.2.2.2.2.1 + 1, acc.2.2.2.2.2)
    | _ => (0x7F :: acc.1, acc.2.1, acc.2.2.1, 127, acc.2.2.2.2.1 + 1, true)) ([], 0, 0, -127, 0, false)

/-- The dark-tensor index of a WG tensor of the loaded program (R142).
[DEDUCED, notes/assumptions/89.md] [DEDUCED, notes/assumptions/95.md] -/
def State.wgDark (s : State) (j tensor : Nat) : Option Nat :=
  match (s.slot j).prog with
  | none => none
  | some p => (p.tensors.find? (fun w => bits w.toNat 63 44 == tensor && bits w.toNat 43 41 == 3)).map (fun w => bits w.toNat 15 0)

/-- The head of a cluster's push buffer asks for a context, if it has not asked yet (R356). -/
def State.pushAsks (s : State) (cl : ClusterId) (j tile : Nat) : State :=
  if s.asks.any (fun a => a.cl == some cl && a.tile == tile) then s else { s with asks := s.asks ++ [⟨j, tile, 1, none, some cl⟩] }

/-- RELAY_PUSH_TAKE: the entry of the step in progress at the head of the push buffer is encoded and goes to the level-1 node of
its tile, once there is a credit for it; a node of another module grants its credit unseen, and the command comes after the grant
(R330 to R335, R347, R352).
[DEDUCED, notes/assumptions/37.md] [DEDUCED, notes/assumptions/83.md] -/
def execRelayPushTake (cl : ClusterId) (s : State) : Res :=
  let c := s.cluster cl
  match c.push, s.slotOfCl cl with
  | e :: rest, some j =>
    if (s.slotState j ≠ 2 && s.slotState j ≠ 5) || e.pstep ≠ s.step j || s.engineGone j e.tile || s.stopped then ok s
    else
      let ahead := s.asks.takeWhile (fun a => a.cl ≠ some cl)
      let s1 := ({ s with asks := s.asks.filter (fun a => a.cl ≠ some cl) } : State).setCluster cl { c with push := rest }
      let r := s.relay j
      let me := s.modIdx j
      let key := 2 ^ 32 * e.tensor + e.tile
      if r.pushed.any (fun x => x % 2 ^ 32 == e.tile) then ok (s1.planMiss j e.tensor e.tile 2)
      else
        match s.planOf j e.tile with
        | none => ok (s1.planMiss j e.tensor e.tile 0)
        | some p =>
          match p.pos me with
          | none => ok (s1.planMiss j e.tensor e.tile 1)
          | some pos =>
            let up := p.adder e.tile 1 (pos / 32)
            if up = me && !s.credit j e.tile 1 ahead then ok (s.pushAsks cl j e.tile)
            else
              let s1 := (s1.readPlan j e.tile).reads (s1.scaleAddr j (s1.step j % 2) e.tile) 1
              if s1.stopped then ok s1 else
              let xa := s.agreed j e.tile 1
              let (payload, clips, first, mx, nz, nf) := encodeTile e.vals (s.rd (F.NUM_SCALE_PCM_WG j)) xa
              let s2 := s1.setRelay j { r with pushed := r.pushed ++ [key], expect := r.expect ++ [key] }
              let s3 := s2.relayClip j e.tensor e.tile 0 first clips
              let s4 := if nf then
                  let sl := s3.slot j
                  (s3.setSlot j (if s.step j % 2 = 0 then { sl with nfEven := true } else { sl with nfOdd := true })).showFlags j
                else s3
              let s5 := match s.wgDark j e.tensor with | some d => s4.darkCount j e.pstep d e.tensor 1 nz 8192 | none => s4
              let b := s5.relayBlock 0x5A (s.rd (F.STR_SLOT_JOB_ID j)) e.tensor e.tile (s.step j % 65536) 1 0 xa mx (satTo 16 clips) me payload
              ok ((if up = me then (s5.nodeInput 3 j none p 1 b).served else s5.relaySend j up 0 e.tile 0 b).tick)
  | _, _ => ok s

/-! Blocks that arrive (R338, R353 to R358). -/

/-- The slot whose valid RLY_JOB_ID entry names a job (R358). -/
def State.relaySlot (s : State) (job : Nat) : Option Nat :=
  (List.range 16).find? (fun j =>
    let w := bits (s.rd (F.RLY_JOB_ID_IDS (j / 4))) (16 * (j % 4) + 15) (16 * (j % 4))
    bit w 15 && w % 4096 == job)

/-- A block of a job that no slot holds is dropped (R358).
[DEDUCED, notes/assumptions/37.md] -/
def State.jobReject (s : State) (port : Nat) (b : RelayBlock) : State :=
  let e := (s.relayEngine b.tile).getD 0
  (((s.inc F.RLY_REJECT_COUNT).wr F.RLY_REJECT_LAST_JOB b.job).wr F.RLY_REJECT_LAST_PORT port).noteOnce 11 e 1 (fun cnt =>
    ⟨1, 0x0703, relaySrc e, some b.job, place 11 0 b.job ||| place 24 12 b.sender ||| place 30 25 port ||| place 62 31 (satTo 32 cnt)⟩)

/-- A CRC error: the block is asked for again, and after the third failure the step cannot be kept (R353). Which block it is, the header
and a scale return's first record say.
[DEDUCED, notes/assumptions/89.md] -/
def State.relayCrcBad (s : State) (j : Nat) (b : RelayBlock) : State :=
  let r := s.relay j
  let key := (b.sender, b.tile, b.hop, if bits b.hdr.toNat 255 248 = 0x53 then ofLe (b.payload.take 8) else 0)
  let n := (((r.tries.find? (fun t => t.1 == key)).map (·.2)).getD 0) + 1
  let s1 := ((s.inc (F.RLY_CNT_CRC_RESEND j)).setRelay j { r with tries := r.tries.filter (fun t => t.1 ≠ key) ++ [(key, n)] }).relayReply
    j b.sender b.tile false
  if n = 3 then
    (s1.emit ⟨2, 0x0707, relaySrc ((s.relayEngine b.tile).getD 0), s.jobOf j,
      place 19 0 b.tensor ||| place 51 20 b.tile ||| place 64 52 b.sender ||| place 66 65 b.hop⟩).abortNext j
  else s1

/-- A block of another step is dropped (R354). -/
def State.stepReject (s : State) (j : Nat) (b : RelayBlock) : State :=
  ((s.inc (F.RLY_CNT_STEP_REJ j)).emit ⟨2, 0x0708, relaySrc ((s.relayEngine b.tile).getD 0), s.jobOf j,
    place 15 0 b.sepoch ||| place 59 16 (s.step j) ||| place 72 60 b.sender⟩).abortNext j

/-- The checks that every arriving block passes: job, engine, CRC, step; then what it does.
[DEDUCED, notes/assumptions/89.md] -/
def State.relayArrive (s : State) (port : Nat) (b : RelayBlock) (k : Nat → State) : Res :=
  match s.relaySlot b.job with
  | none => ok (s.jobReject port b)
  | some j =>
    if (s.slotState j ≠ 2 && s.slotState j ≠ 3 && s.slotState j ≠ 5) || s.stopped then ok s
    else if s.relayChecks && bits b.hdr.toNat 31 0 ≠ relayCrc b.hdr.toNat b.payload then ok (s.relayCrcBad j b)
    else if b.sepoch ≠ s.step j % 65536 then ok (s.stepReject j b)
    else ok (k j).tick

/-- RELAY_BLOCK_RECEIVE: a sum block is an input of a node here, or a delivery to an owner (R348 to R352, R356). -/
def execRelayBlockReceive (port : Nat) (b : RelayBlock) (s : State) : Res :=
  s.relayArrive port b fun j =>
    let me := s.modIdx j
    let s := if s.engineGone j b.tile then s else s.readPlan j b.tile
    if s.engineGone j b.tile || s.stopped then s
    else
      match s.planOf j b.tile with
      | none => s.planMiss j b.tensor b.tile 0
      | some p =>
        let n := p.contributors.length
        if b.hop = treeLevels n then
          if p.owners.contains me then (s.ownerStore p b).relayReply j b.sender b.tile true else s.planMiss j b.tensor b.tile 1
        else
          match p.pos me, p.pos b.sender with
          | some _, some q =>
            let level := b.hop + 1
            if p.adder b.tile level (q / treeSpan level) ≠ me then s.planMiss j b.tensor b.tile 1
            else (s.nodeInput 3 j (some port) p level b).served
          | _, _ => s.planMiss j b.tensor b.tile 1

/-- SCALE_RETURN_RECEIVE: each record is written to the scale table and passed on to the children (R341); one outside the plan, or for
a tile that this module does not contribute to, is dropped (R352). -/
def execScaleReturnReceive (port : Nat) (b : RelayBlock) (s : State) : Res :=
  s.relayArrive port b fun j =>
    let recs := (List.range (min 1024 b.count)).map (fun i => ofLe ((b.payload.drop (8 * i)).take 8))
    (recs.foldl (fun (s : State) w =>
      let tile := bits w 63 32
      let mx := signed 8 (bits w 31 24)
      let s := s.readPlan j tile
      match s.planOf j tile with
      | none => s.planMiss j 0 tile 0
      | some p => if (p.pos (s.modIdx j)).isNone then s.planMiss j 0 tile 1 else (s.scaleDown j p tile mx).scaleStore j tile mx) s).relayReply j b.sender b.tile true

/-- The slot that waits for acknowledgement `tag`.
[DEDUCED, notes/assumptions/37.md] -/
def State.relayWaits (s : State) (tag : Nat) : Option (Nat × RSent) :=
  (List.range 16).findSome? (fun j => ((s.relay j).sent.find? (fun x => x.tag == tag)).map (fun x => (j, x)))

/-- RELAY_ACK_RECEIVE: an accepted block frees its node; a block asked for again is sent again (R353, R356).
[DEDUCED, notes/assumptions/37.md] -/
def execRelayAckReceive (tag : Nat) (good : Bool) (s : State) : Res :=
  match s.relayWaits tag with
  | none => ok s
  | some (j, x) =>
    if good then
      let r := s.relay j
      let sent := r.sent.filter (fun y => y.tag ≠ tag)
      let busy := sent.any (fun y => y.tile == x.tile && y.level == x.level && y.kind == x.kind)
      ok (s.setRelay j { r with
        sent := sent
        nodes := if x.kind ≠ 2 && !busy then r.nodes.filter (fun y => !(y.done && y.tile == x.tile && y.level == x.level)) else r.nodes }).served
    else ok (s.sendMember j 0 x.dest 1 x.block.bytes)

/-! Engines that fail (R360). -/

/-- The nodes that logical engine l serves for slot j stay incomplete for the step (R360). -/
def State.loseNodes (s : State) (j l : Nat) : State :=
  let r := s.relay j
  let gone := r.nodes.filter (fun x => x.tile % 16 == l)
  s.setRelay j { r with
    nodes := r.nodes.filter (fun x => x.tile % 16 ≠ l) ++ gone.map (fun x => { x with inputs := [], done := false })
    made := r.made.filter (fun m => !gone.any (fun x => x.tile == m.1 && x.level == m.2))
    dead := if s.slotState j = 2 || s.slotState j = 3 || s.slotState j = 5 then r.dead ++ [l] else r.dead }

/-- RELAY_ENGINE_FAIL: the engine is FAILED; the reserve of its die takes over at the next resolve lap, if one is left.
[DEDUCED, notes/assumptions/89.md] -/
def State.relayEngineFail (s : State) (e : Nat) : State :=
  if 20 ≤ e || s.rd (F.RLY_ENG_ROLE e) = 2 then s
  else
    let res := 5 * (e / 5) + 4
    let serving := s.rd (F.RLY_ENG_LOGICAL e)
    let s0 := s.wr (F.RLY_ENG_ROLE e) 2
    let s1 := if 16 ≤ serving then s0 else
      (List.range 16).foldl (fun (s : State) j => s.loseNodes j serving)
        { s0 with asks := s0.asks.filter (fun a => a.tile % 16 ≠ serving) }
    let lost (s : State) (x l : Nat) : State :=
      (({ s with relayDead := true }).wr (F.RLY_ENG_LOGICAL x) 31).emit
        ⟨2, 0x070A, relaySrc x, none, place 2 0 (x % 5) ||| place 5 3 4 ||| place 9 6 l ||| place 10 10 1⟩
    if 16 ≤ serving then
      match if e = res then s1.engSwap.find? (fun x => x / 5 == e / 5) else none with
      | some x => lost { s1 with engSwap := s1.engSwap.filter (· ≠ x) } x (s1.rd (F.RLY_ENG_LOGICAL x))
      | none => s1
    else if e ≠ res && s.rd (F.RLY_ENG_ROLE res) = 1 && !s.engSwap.contains res && !(s.engSwap.any (fun x => x / 5 == e / 5)) then
      { s1 with engSwap := s1.engSwap ++ [e] }
    else lost s1 e serving

/-- RELAY_ENGINE_FAIL. -/
def execRelayEngineFail (e : Nat) (s : State) : Res := ok (s.relayEngineFail e)

/-- At a resolve lap the reserve engines take over (R360). -/
def State.swapEngines (s : State) : State :=
  { s.engSwap.foldl (fun (s : State) e =>
      let res := 5 * (e / 5) + 4
      let l := s.rd (F.RLY_ENG_LOGICAL e)
      (((s.wr (F.RLY_ENG_LOGICAL e) 31).wr (F.RLY_ENG_LOGICAL res) l).wr (F.RLY_ENG_ROLE res) 0).emit
        ⟨1, 0x070A, relaySrc e, none, place 2 0 (e % 5) ||| place 5 3 4 ||| place 9 6 l⟩) s with engSwap := [] }

/-! Completeness at the Hurdle mark (R355). -/

/-- The first node, in the order of the plan, that this module serves and that lacks an input: tile, level, inputs expected. -/
def State.lacking (s : State) (j : Nat) : Option (Nat × Nat × Nat) :=
  let base := s.rd (F.RLY_PLAN_PLAN j) * 32
  let me := s.modIdx j
  (List.range (s.rd (F.RLY_CFG_PLAN_ENTRIES j))).findSome? (fun i =>
    let lo := s.memNat (base + 32 * i) 4
    let hi := s.memNat (base + 32 * i + 4) 4
    let list := s.planList j (s.memNat (base + 32 * i + 8) 1)
    match list.findIdx? (· == me) with
    | none => none
    | some pos => (List.range (hi + 1 - lo)).findSome? (fun d =>
        let p : PlanTile := ⟨lo, 0, list, []⟩
        ((List.range (treeLevels list.length)).map (· + 1)).findSome? (fun k =>
          if p.adder (lo + d) k (pos / treeSpan k) = me && !(s.relay j).made.contains (lo + d, k) then
            some (lo + d, k, treeChildren list.length k (pos / treeSpan k))
          else none)))

/-- The first unfinished Relay work of slot j: tensor, tile, what is missing, inputs held and expected. The tensor of a node without an
input that this module did not push itself is not known: it is free.
[DEDUCED, notes/assumptions/89.md] -/
def State.relayUnfinished (s : State) (j : Nat) : Option (Nat × Nat × Nat × Nat × Nat) :=
  let r := s.relay j
  match s.lacking j with
  | some (tile, level, need) =>
    let ins := match r.nodes.find? (fun x => x.tile == tile && x.level == level) with | some x => x.inputs | none => []
    let tensor := match ins, r.pushed.find? (fun k => k % 2 ^ 32 == tile) with
      | b :: _, _ => b.tensor
      | [], some k => k / 2 ^ 32
      | [], none => s.freeNat 3 % 2 ^ 20
    some (tensor, tile, 0, ins.length, need)
  | none =>
    match r.sent with
    | x :: _ => some (x.block.tensor, x.tile, 1, 0, 0)
    | [] =>
      match r.expect with
      | k :: _ => some (k / 2 ^ 32, k % 2 ^ 32, 2, 0, 0)
      | [] =>
        ((s.clustersOf j).findSome? (fun cl => (s.cluster cl).push.find? (fun e => e.pstep == s.step j))).map
          (fun e => (e.tensor, e.tile, 3, 0, 0))

end Sys2Proof.Machine
end

