-- ==== Sys2Proof/Machine/Votes.lean ====
section
/-!
DEFINITION. The tree vote that the Hurdle, the pre-vote, the pace vote and the halt vote share (R364 to R368, R373, R683 to
R685, R639, R706): who collects, what a collector merges, when it sends, and how a decision travels down.
-/

namespace Sys2Proof.Machine
open Sys2Proof

/-! Collectors (R346, R364). -/

/-- Lowest and highest member of node i of level k in a job of n members. -/
def nodeLo (k i : Nat) : Nat := i * treeSpan k
/-- The highest. -/
def nodeHi (n k i : Nat) : Nat := min n ((i + 1) * treeSpan k) - 1

/-- The collectors of a node: its lowest member, and with the mirror tree its highest, but not at the top and not for a node of
one member. -/
def nodeCollectors (n : Nat) (mirror : Bool) (k i : Nat) : List Nat :=
  nodeLo k i :: (if mirror && decide (k < treeLevels n) && decide (nodeHi n k i ≠ nodeLo k i) then [nodeHi n k i] else [])

/-- Does member `me` collect at level k? -/
def collects (n : Nat) (mirror : Bool) (me k : Nat) : Bool :=
  decide (1 ≤ k) && decide (k ≤ treeLevels n) && (nodeCollectors n mirror k (me / treeSpan k)).contains me

/-- The children of the node of level k that `me` belongs to: members at level 1, nodes of the level below above it.
[DEDUCED, notes/assumptions/38.md] -/
def nodeKids (n me k : Nat) : List Nat :=
  let i := me / treeSpan k
  (List.range (treeChildren n k i)).map (fun c => i * (treeSpan k / treeSpan (k - 1)) + c)

/-! What a message carries, in one form for the four votes. -/

/-- The reduced values of the members that a message covers (R361, R682, R638, R707). -/
structure Tally where
  /-- Hurdle word. -/
  word : Nat
  /-- Least and greatest digest with the lowest index that holds each; the code of the first failure and its index. -/
  lo : Nat
  loIdx : Nat
  hi : Nat
  hiIdx : Nat
  fail : Nat
  firstFail : Nat
  /-- Largest pace proposal, or largest END, with its cause and the lowest index that holds it. -/
  top : Nat
  cause : Nat
  first : Nat
  covered : Nat
  /-- Members covered, bit m for member m. -/
  present : Nat
  deriving DecidableEq, Repr

/-- No member: the value that changes nothing in a merge.
[DEDUCED, notes/assumptions/38.md] -/
def Tally.zero : Tally := ⟨place 43 41 7 ||| place 40 28 8191 ||| place 27 15 8191, 2 ^ 64 - 1, 8191, 0, 8191, 0, 8191, 0, 0, 8191, 0, 0⟩

/-- The reductions of R361, field by field. -/
def mergeWord (a b : Nat) : Nat :=
  place 63 57 (bits a 63 57 ||| bits b 63 57) ||| place 55 52 (max (bits a 55 52) (bits b 55 52))
    ||| place 51 44 (max (bits a 51 44) (bits b 51 44)) ||| place 43 41 (min (bits a 43 41) (bits b 43 41))
    ||| place 40 28 (min (bits a 40 28) (bits b 40 28)) ||| place 27 15 (min (bits a 27 15) (bits b 27 15))

/-- Two tallies of different members.
[DEDUCED, notes/assumptions/38.md] -/
def Tally.merge (a b : Tally) : Tally where
  word := mergeWord a.word b.word
  lo := min a.lo b.lo
  loIdx := if a.lo = b.lo then min a.loIdx b.loIdx else if a.lo < b.lo then a.loIdx else b.loIdx
  hi := max a.hi b.hi
  hiIdx := if a.hi = b.hi then min a.hiIdx b.hiIdx else if b.hi < a.hi then a.hiIdx else b.hiIdx
  fail := if a.firstFail ≤ b.firstFail then a.fail else b.fail
  firstFail := min a.firstFail b.firstFail
  top := max a.top b.top
  cause := if a.top = b.top then (if a.first ≤ b.first then a.cause else b.cause) else if b.top < a.top then a.cause else b.cause
  first := if a.top = b.top then min a.first b.first else if b.top < a.top then a.first else b.first
  covered := a.covered + b.covered
  present := a.present ||| b.present

/-- Two copies of one child's message (R368): nothing is counted twice. -/
def Tally.copy (a b : Tally) : Tally := { a.merge b with covered := max a.covered b.covered }

/-- Numbers of the layouts of R380, R682, R638 and R707: the job, the level, the vote's key, the sender and the CRC. -/
def voteJob (m : Msg) : Nat := m.le 1 2 % 4096
/-- STEP, T, MARK or K. -/
def voteKey (kind : Nat) (m : Msg) : Nat :=
  match kind with | 0 => m.le 8 8 | 1 => m.le 4 8 | 2 => m.le 4 6 % 2 ^ 44 | _ => m.le 0x10 8
/-- SENDER. -/
def voteSender (kind : Nat) (m : Msg) : Nat := match kind with | 1 => m.le 0xC 2 | 2 => m.le 0xA 2 | _ => m.le 4 2
/-- Where the CRC stands. -/
def voteCrcAt (kind : Nat) : Nat := match kind with | 0 => 0x3C | 1 => 0x18 | 2 => 0xC | _ => 8
/-- Is it good? -/
def voteGood (kind : Nat) (m : Msg) : Bool := m.crcGood (voteCrcAt kind)

/-- The values in a member's message, or in a collector's of level k − 1, for a receiving collector of level k. -/
def tallyOf (kind k : Nat) (m : Msg) : Tally :=
  let sender := voteSender kind m
  let here : Nat := if k = 1 then 2 ^ sender else (m.le 0x40 64) <<< (sender / treeSpan (k - 1) * treeSpan (k - 1))
  let pres := if kind = 2 || kind = 3 then here else 0
  let z := Tally.zero
  match kind with
  | 0 => { z with lo := m.le 0x10 8, loIdx := m.le 0x20 2, hi := m.le 0x18 8, hiIdx := m.le 0x22 2, fail := m.byte 6,
                  firstFail := m.le 0x24 2, covered := m.le 0x26 2 }
  | 1 => { z with top := m.byte 0xE % 16, cause := bits (m.byte 0xE) 5 4, first := m.le 0x10 2, covered := m.le 0x12 2 }
  | 2 => { z with word := m.le 0x10 8, covered := if k = 1 then 1 else m.le 0x20 4, present := pres }
  | _ => { z with top := m.le 0x18 8, first := m.le 0x20 2, covered := 1, present := pres }

/-! A vote under way. -/

/-- One vote: its kind, the job's slot, its key, the lap its closing laps count from, and what its kind adds: the form of a
partial, and what the root decides. -/
structure VoteSpec where
  kind : Nat
  slot : Nat
  key : Nat
  base : Nat
  mirror : Bool
  routes : Nat
  part : State → Nat → Tally → Msg
  decide_ : State → Tally → State

/-- What this module holds of a vote.
[DEDUCED, notes/assumptions/92.md] -/
def State.vote (s : State) (kind job key : Nat) : VoteSt :=
  (s.votes.find? (fun v => v.kind == kind && v.job == job && v.t == key)).getD ⟨kind, job, key, [], []⟩

/-- Set it. -/
def State.setVote (s : State) (v : VoteSt) : State :=
  { s with votes := s.votes.filter (fun x => !(x.kind == v.kind && x.job == v.job && x.t == v.t)) ++ [v] }

/-- Every vote of a job, and every mark of one: the slot enters RUNNING or EMPTY under the ID, or has stopped and votes no more. -/
def State.forgetVotes (s : State) (job : Nat) : State := { s with votes := s.votes.filter (fun x => x.job ≠ job) }

/-- Votes of a job that are over. -/
def State.dropVotes (s : State) (kind job : Nat) (old : Nat → Bool) : State :=
  { s with votes := s.votes.filter (fun x => !(x.kind == kind && x.job == job && old x.t)) }

/-- Closing lap of level k (R366, R684). -/
def voteClosing (kind base n k : Nat) : Nat :=
  if kind = 0 then (if k = treeLevels n then base - 32 else if k = 1 then base - 40 else base - 36) else base + 2 + 3 * k

/-- Does a collector of level k hold every child's message (R366)?
[DEDUCED, notes/assumptions/90.md] -/
def VoteSt.complete (v : VoteSt) (n me k : Nat) : Bool :=
  (nodeKids n me k).all (fun c => v.msgs.any (fun p => p.1 == k && voteSender v.kind p.2 / treeSpan (k - 1) == c))

/-- What a collector of level k reduces (R367, R368): every child once, its copies merged.
[DEDUCED, notes/assumptions/38.md] [DEDUCED, notes/assumptions/90.md] -/
def VoteSt.tally (v : VoteSt) (n me k : Nat) : Tally :=
  (nodeKids n me k).foldl (fun a c =>
    let ms := v.msgs.filter (fun p => p.1 == k && voteSender v.kind p.2 / treeSpan (k - 1) == c)
    a.merge (ms.foldl (fun (b : Tally) p => b.copy (tallyOf v.kind k p.2)) Tally.zero)) Tally.zero

/-- Members that a tally covers. -/
def Tally.members (a : Tally) (kind : Nat) : Nat :=
  if kind = 2 || kind = 3 then ((List.range 8192).filter (fun m => a.present.testBit m)).length else a.covered

/-- A message of a vote to a member, on each of its routes: a pre-vote on channel 3, another on channel 2 (R373, R397, R405). -/
def State.sendVote (s : State) (v : VoteSpec) (dest : Nat) (m : Msg) : State :=
  s.sendMember v.slot (if v.kind = 0 then 3 else 2) dest v.routes (leBytes m.len m.w)

/-- A message is held by a collector of level k of this module. -/
def State.voteHold (s : State) (v : VoteSpec) (k : Nat) (m : Msg) : State :=
  let job := s.rd (F.STR_SLOT_JOB_ID v.slot)
  let x := s.vote v.kind job v.key
  if x.closed.contains k then s else s.setVote { x with msgs := x.msgs ++ [(k, m)] }

/-- The collector of level k closes: the root decides; another sends its partial to its parent's collectors, of which this module
may be one. `fuel` bounds the levels on this module.
[DEDUCED, notes/assumptions/38.md] -/
def State.voteClose (v : VoteSpec) : Nat → State → Nat → State
  | 0, s, _ => s
  | fuel + 1, s, k =>
    let job := s.rd (F.STR_SLOT_JOB_ID v.slot)
    let n := s.members v.slot
    let me := s.modIdx v.slot
    let x := s.vote v.kind job v.key
    if x.closed.contains k || !collects n v.mirror me k then s
    else
      let t := x.tally n me k
      let s1 := s.setVote { x with closed := x.closed ++ [k] }
      if k = treeLevels n then v.decide_ s1 t
      else
        let m := v.part s1 k t
        (nodeCollectors n v.mirror (k + 1) (me / treeSpan (k + 1))).foldl (fun (s : State) d =>
          if d = me then
            let s2 := s.voteHold v (k + 1) m
            if (s2.vote v.kind job v.key).complete n me (k + 1) then s2.voteClose v fuel (k + 1) else s2
          else s.sendVote v d m) s1

/-- A message arrives at a collector of level k here: it is held until the next lap mark finds every child's message, or until the
closing lap (R366). -/
def State.voteTake (s : State) (v : VoteSpec) (k : Nat) (m : Msg) : State :=
  let n := s.members v.slot
  let me := s.modIdx v.slot
  let sender := voteSender v.kind m
  if !collects n v.mirror me k || n ≤ sender || sender / treeSpan k ≠ me / treeSpan k || voteClosing v.kind v.base n k < s.now then s
  else s.voteHold v k m

/-- At a lap mark: every collector of the vote here that holds every child's message sends, or decides (R366, R684). -/
def State.voteMark (s : State) (v : VoteSpec) : State :=
  let n := s.members v.slot
  let me := s.modIdx v.slot
  [1, 2, 3].foldl (fun (s : State) k =>
    if (s.vote v.kind (s.rd (F.STR_SLOT_JOB_ID v.slot)) v.key).complete n me k then s.voteClose v 4 k else s) s

/-- The member's own message goes to the collectors of its level-1 node (R365); in a job of one module it is the decision (R371). -/
def State.voteSend (s : State) (v : VoteSpec) (m : Msg) : State :=
  let n := s.members v.slot
  let me := s.modIdx v.slot
  if n ≤ 1 then (s.voteHold v 1 m).voteClose v 1 1
  else (nodeCollectors n v.mirror 1 (me / 32)).foldl (fun (s : State) d =>
    if d = me then s.voteTake v 1 m else s.sendVote v d m) s

/-- A closing lap (R366, R684): the collector sends what it holds, or the root decides. -/
def State.voteShut (s : State) (v : VoteSpec) (k : Nat) : State :=
  if voteClosing v.kind v.base (s.members v.slot) k ≤ s.now then s.voteClose v 4 k else s

/-- A decision goes down unchanged, but for its sender and its CRC, to each child of every node that this module collects
(R370). -/
def State.voteDown (s : State) (v : VoteSpec) (m : Msg) : State :=
  let n := s.members v.slot
  let me := s.modIdx v.slot
  let dests := ([1, 2, 3].filter (collects n v.mirror me)).flatMap (fun k =>
    if k = 1 then nodeKids n me 1
    else (nodeKids n me k).flatMap (nodeCollectors n v.mirror (k - 1)))
  (dests.dedup.filter (· ≠ me)).foldl (fun (s : State) d => s.sendVote v d m) s

/-- A message with its SENDER replaced by this module, and its CRC. -/
def resend (kind me : Nat) (m : Msg) : Msg :=
  let a := match kind with | 1 => 0xC | 2 => 0xA | _ => 4
  let c := voteCrcAt kind
  let clear (w at_ n : Nat) : Nat := w - (bits w (8 * (at_ + n) - 1) (8 * at_)) <<< (8 * at_)
  (⟨m.len, clear (clear m.w a 2) c 4 ||| (me <<< (8 * a))⟩ : Msg).withCrc c

/-- Does class X run the mirror tree, and over how many routes does a message go (R373)? -/
def State.classX (s : State) : Bool := s.rd F.STR_ROLE_CLASS == 3
/-- Routes of a Hurdle or halt-vote message. -/
def State.voteRoutes (s : State) : Nat := if 2 ≤ s.rd F.STR_ROLE_CLASS then 2 else 1

/-- Arm a job-scoped event of slot j; a member that cannot accept it stops the job (R79, R81, R48).
[DEDUCED, notes/assumptions/42.md] -/
def State.armJob (s : State) (kind who t j : Nat) : State :=
  match s.armReason t true with
  | none => s.addArm ⟨kind, who, t, true⟩
  | some r => (s.latchReject r kind t (s.rd (F.STR_SLOT_JOB_ID j))).failJob j (armRejected 3 r kind t (s.jobOf j))

/-- The lowest die on which slot j holds a partition; its CDn_BWD_CFG_j gives FLIP_OFFSET (R327, R681).
[DEDUCED, notes/assumptions/44.md] -/
def State.firstDie (s : State) (j : Nat) : Nat := match s.partsOf j with | p :: _ => p / 4 | [] => 0

/-- The dies on which slot j holds partitions. -/
def State.diesOf (s : State) (j : Nat) : List Nat := ((s.partsOf j).map (· / 4)).dedup

/-- FLIP_OFFSET of slot j.
[DEDUCED, notes/assumptions/44.md] -/
def State.flipOffset (s : State) (j : Nat) : Nat := s.rd (F.CD_BWD_CFG_FLIP_OFFSET (s.firstDie j) j)

/-- Laps since a lap, in ticks; the ticks of the present lap are a free value (DESIGN CHOICE, notes/assumptions/3.md).
[DESIGN CHOICE, notes/assumptions/39.md] -/
def State.ticksSince (s : State) (lap : Nat) : Nat := 1024 * (s.now - lap) + s.freeNat 0 % 1024

end Sys2Proof.Machine
end

