-- ==== Sys2Proof/Machine/Hurdle.lean ====
section
/-!
DEFINITION. The Hurdle (08, 04): the contribution at H, the vote, the outcome, and what a resolve lap does: scale state, the
dark-tensor table, flags, the stash, the schedule.
-/

namespace Sys2Proof.Machine
open Sys2Proof

/-! The dark-tensor monitor (R162 to R168). -/

/-- One entry of the table, as its three counts for a bank: TENSOR and KIND word, NZ, TOTAL. -/
def State.darkEntry (s : State) (j idx : Nat) (even : Bool) : Nat × Nat × Nat :=
  let a := s.darkAddr j idx
  let o := if even then 4 else 0
  (s.unitNat a 8, s.unitNat (a + 8 + o) 4, s.unitNat (a + 16 + o) 4)

/-- Is it dark (R164)? -/
def darkNow (ppm nz total : Nat) : Bool := decide (total ≠ 0) && decide (1000000 * nz < ppm * total)

/-- The alarms of slot j for the step in progress: of kind G, of kind WG, and how many (R165).
[DEDUCED, notes/assumptions/45.md] -/
def State.darkScan (s : State) (j : Nat) : Bool × Bool × Nat :=
  let ev := evenStep (s.step j)
  let ppm := s.rd (F.NUM_DARK_CFG_DARK_PPM j)
  let n := s.rd (F.NUM_JOB_CFG_DARK_N j)
  (List.range (s.rd (F.NUM_DARK_CFG_ENTRIES j))).foldl (fun (acc : Bool × Bool × Nat) idx =>
    let e := s.darkEntry j idx ev
    if darkNow ppm e.2.1 e.2.2 && decide (n ≤ bits e.1 31 16 + 1) then
      if bit e.1 43 then (acc.1, true, acc.2.2 + 1) else (true, acc.2.1, acc.2.2 + 1)
    else acc) (false, false, 0)

/-- NZ and TOTAL of a bank are cleared. -/
def State.darkClear (s : State) (a : Nat) (even : Bool) : State :=
  let o := if even then 4 else 0
  (s.writeNat (a + 8 + o) 4 0).writeNat (a + 16 + o) 4 0

/-- Clear the bank of a skipped step in every entry (R167).
[DEDUCED, notes/assumptions/45.md] -/
def State.darkSkip (s : State) (j : Nat) : State :=
  (List.range (s.rd (F.NUM_DARK_CFG_ENTRIES j))).foldl (fun (s : State) idx =>
    s.darkClear (s.darkAddr j idx) (evenStep (s.step j))) s

/-- The commit of a step in the table (R167, R168). `raised` is the kind raised at this commit; `n` records are written so far.
[DEDUCED, notes/assumptions/45.md] [DEDUCED, notes/assumptions/83.md] [DEDUCED, notes/assumptions/95.md] -/
def State.darkCommit (s : State) (j : Nat) (raised : Option Nat) : State :=
  let ev := evenStep (s.step j)
  let st := s.step j
  let ppmMax := s.rd (F.NUM_DARK_CFG_DARK_PPM j)
  let need := s.rd (F.NUM_JOB_CFG_DARK_N j)
  let cap := s.rd (F.NUM_JOB_CFG_PCM_CAP j)
  ((List.range (s.rd (F.NUM_DARK_CFG_ENTRIES j))).foldl (fun (acc : State × Nat) idx =>
    let (s, n) := acc
    let a := s.darkAddr j idx
    let (w0, nz, total) := s.darkEntry j idx ev
    if total = 0 then (s, n)
    else
      let ppm := 1000000 * nz / total
      let run := bits w0 31 16
      let dark := darkNow ppmMax nz total
      let alarm := dark && decide (need ≤ run + 1)
      let kind := bits w0 43 43
      let low := if alarm then satTo 16 (bits w0 15 0 + 1)
        else if dark then place 31 16 (satTo 16 (run + 1)) ||| bits w0 15 0
        else bits w0 15 0
      let s1 := ((s.writeNat a 4 low).writeNat (a + 24) 8 (place 63 44 (satTo 20 ppm) ||| place 43 0 st)).darkClear a ev
      if !alarm then (s1, n)
      else
        let s2 := s1.inc (F.NUM_CNT_DARK_ALARMS j)
        if 16 ≤ n then (s2.inc (F.NUM_CNT_DARK_SUPPRESSED j), n)
        else
          let pcm := if kind = 0 then s2.rd (F.NUM_SCALE_PCM_G j) else s2.rd (F.NUM_SCALE_PCM_WG j)
          let pend := if kind = 0 then s2.rd (F.NUM_SCALE_PEND_G j) else s2.rd (F.NUM_SCALE_PEND_WG j)
          let up := raised == some kind
          (s2.emit ⟨if up || pend == 1 then 1 else 2, 0x0901, srcModule 0, s2.jobOf j,
            place 19 0 (bits w0 63 44) ||| place 20 20 kind ||| place 40 21 ppm ||| place 56 41 (run + 1) ||| place 61 57 pcm
              ||| place 62 62 (b2n up) ||| place 63 63 (b2n (decide (cap ≤ pcm))) ||| place 79 64 idx⟩, n + 1)) (s, 0)).1

/-! The contribution (R361 to R363, R223, R226, R355). -/

/-- The Hurdle mark of slot j's step, and its resolve lap (R327). -/
def State.hMark (s : State) (j : Nat) : Nat := s.rd (F.HRD_MARK_H j)
/-- C. -/
def State.cLap (s : State) (j : Nat) : Nat := s.hMark j + 32

/-- Does the module take part in votes of slot j's job: RUNNING or HALTED, DRAINING since a mark whose outcome is to come, or in the one vote that R51
leaves to it?
[DESIGN CHOICE, notes/assumptions/102.md] -/
def State.inVote (s : State) (j : Nat) : Bool :=
  s.slotState j == 2 || s.slotState j == 3 || (s.slotState j == 5 && (s.slot j).marked) || (s.slotState j == 4 && ((s.slot j).owesVote || (s.slot j).marked))

/-- The tree of the Hurdle vote of the step in progress.
[DEDUCED, notes/assumptions/38.md] -/
def State.partialMsg (s : State) (j k : Nat) (t : Tally) : Msg :=
  (msgOf (if k = 1 then 0x44 else 0x80) [(0, 1, 0x49), (1, 2, s.rd (F.STR_SLOT_JOB_ID j)), (3, 1, k), (4, 6, s.step j),
    (0xA, 2, s.modIdx j), (0x10, 8, t.word), (0x20, 4, t.members 2),
    (0x40, 64, t.present >>> (s.modIdx j / treeSpan k * treeSpan k))]).withCrc 0xC

/-- Members absent from a bitmap, and the lowest of them (R369). -/
def absentees (n present : Nat) : Nat × Nat :=
  let ms := (List.range n).filter (fun m => !present.testBit m)
  (ms.length, ms.headD 8191)

/-- KIND of the outcome (R369). -/
def outcomeKind (word absent : Nat) : Nat :=
  if bit word 63 || absent ≠ 0 then 2 else if bit word 62 || bit word 61 then 1 else 0

/-- The member holds an outcome (R370, R375, R377): one that arrives by H + 16 arms the resolve lap; a COMMIT also arms the
rotations chosen at the drain mark (R734). After a stop of the domain it only tells where the next Hurdle mark lies (R473).
[DESIGN CHOICE, notes/assumptions/39.md] [DEDUCED, notes/assumptions/42.md] -/
def State.holdOutcome (s : State) (j : Nat) (m : Msg) : State :=
  let sl := s.slot j
  let h := s.hMark j
  if sl.outMsg.isSome || sl.outLate.isSome then s
  else if s.slotState j = 4 && s.stopped then (if sl.marked then s.setSlot j { sl with outMsg := some m } else s)
  else if s.slotState j ≠ 2 && s.slotState j ≠ 5 then s
  else if h + 16 < s.now then s.setSlot j { sl with outLate := some s.now }
  else
    let s1 := ((s.setSlot j { sl with outMsg := some m }).wr (F.HRD_RESULT_ARRIVAL j)
      (if s.members j = 1 then 0 else satTo 32 (s.ticksSince h))).tick
    let c := m.le 0x18 8
    let s2 := s1.armJob 2 j c j
    if bits (m.le 0x20 4) 31 30 = 0 && s2.slotState j = 2 then
      (s2.partsOf j).foldl (fun (s : State) p =>
        match s.rot p with
        | some r =>
          if r.step ≠ s.step j || r.holding then s
          else match s.armReason c true with
            | none => s.addArm ⟨4, p, c, false⟩
            | some w => (s.latchReject w 4 c 0).emit (armRejected 1 w 4 c none)
        | none => s) s2
    else s2

/-- The tree of the Hurdle vote. -/
def State.hurdleVote (s : State) (j : Nat) : VoteSpec where
  kind := 2
  slot := j
  key := s.step j
  base := s.hMark j
  mirror := s.classX
  routes := s.voteRoutes
  part := fun s k t => s.partialMsg j k t
  decide_ := fun s t =>
    let (absent, first) := absentees (s.members j) t.present
    let m := (msgOf 0x40 [(0, 1, 0x4F), (1, 2, s.rd (F.STR_SLOT_JOB_ID j)), (3, 1, treeLevels (s.members j)), (4, 6, s.step j),
      (0xA, 2, s.modIdx j), (0x10, 8, t.word), (0x18, 8, s.cLap j),
      (0x20, 4, place 31 30 (outcomeKind t.word absent) ||| place 29 16 first ||| place 13 0 absent)]).withCrc 0xC
    let v : VoteSpec := ⟨2, j, s.step j, s.hMark j, s.classX, s.voteRoutes, fun _ _ _ => m, fun s _ => s⟩
    (s.voteDown v m).holdOutcome j m

/-- Is the cluster's HCON present for the step (R223, R226)?
[DEDUCED, notes/assumptions/85.md] -/
def State.hconHas (s : State) (cl : ClusterId) (st : Nat) : Bool :=
  let h := (s.cluster cl).hcon.toNat
  bit h 63 && bits h 59 16 == st

/-- Clear HCON of the job's clusters (R223). -/
def State.clearHcon (s : State) (cls : List ClusterId) : State :=
  cls.foldl (fun (s : State) c => s.setCluster c { s.cluster c with hcon := 0 }) s

/-- Weight shards see a Hurdle mark pass (R313). -/
def State.markShards (s : State) (j : Nat) : State :=
  ((s.shardList.filter (fun k => k.2.1 == j) ++ (s.usedShards j).map (fun k => (k.1, j, k.2))).dedup).foldl (fun (s : State) k =>
    s.setShard k.1 k.2.1 k.2.2 { s.shard k.1 k.2.1 k.2.2 with markSince := true }) s

/-- Does slot j ask for a checkpoint in its contribution (R699)? -/
def State.wantsCkpt (s : State) (j : Nat) : Bool :=
  let e := s.rd (F.RES_CKPT_CFG_EVERY j)
  s.rd (F.RES_CKPT_CTL_REQ j) == 1 || (e != 0 && (s.step j + 1) % e == 0)

/-- The contribution of slot j, from the values in force at the mark (R361). -/
def State.hurdleWord (s : State) (j : Nat) (cls : List ClusterId) (abort ckpt : Bool) (g wg : Bool) (dark : Nat) : Nat :=
  let me := s.modIdx j
  let ovf := s.rd (F.NUM_FLAGS_OVF j) == 1 || s.rd (F.HRD_FLAGS_CLIP j) == 1
  let nf := s.rd (F.NUM_FLAGS_NF j) == 1 || cls.any (fun c => s.rd (F.CL_STATUS_NF c.die c.idx) == 1)
  let spare := (s.partsOf j).foldl (fun a p => min a (s.rd (F.CD_PART_SPARE (p / 4) (p % 4)))) 7
  place 63 63 (b2n abort) ||| place 62 62 (b2n ovf) ||| place 61 61 (b2n nf) ||| place 60 60 (b2n ckpt)
    ||| place 59 59 (b2n (s.degr.testBit j)) ||| place 58 58 (b2n g) ||| place 57 57 (b2n wg)
    ||| place 55 52 (s.rd (F.PCE_SLOT_PROPOSED j)) ||| place 51 44 (satTo 8 dark) ||| place 43 41 spare
    ||| place 40 28 (if abort then me else 8191) ||| place 27 15 (if ovf || nf then me else 8191)

/-- HURDLE_MARK: at H, captures, checks and the contribution (R51, R165, R223, R226, R355, R362, R365). The Hurdle logic runs on after a
stop of the coherence domain, and contributes abort for a job that was RUNNING; what it would read from memory it leaves out (R473).
[DEDUCED, notes/assumptions/85.md] [DEDUCED, notes/assumptions/93.md] -/
def execHurdleMark (j : Nat) (s : State) : Res :=
  let sl := s.slot j
  if sl.marked || s.now < s.hMark j || !(s.slotState j == 2 || (s.slotState j == 4 && sl.owesVote)) then ok s
  else
    let s := s.reads (s.darkAddr j 0) (32 * s.rd (F.NUM_DARK_CFG_ENTRIES j))
    let last := s.slotState j == 4 || s.stopped
    let cls := s.clustersOf j
    let st := s.step j
    let cons := cls.map (fun c => (s.cluster c).hcon.toNat)
    let missing := if last then [] else cls.filter (fun c => !s.hconHas c st)
    let (g, wg, dark) := if s.stopped then (false, false, 0) else s.darkScan j
    let s1 := ((s.clearHcon cls).markShards j).setSlot j { sl with marked := true, owesVote := false }
    let s2 := (s1.wrB (F.NUM_FLAGS_ALARM_G j) g).wrB (F.NUM_FLAGS_ALARM_WG j) wg
    let s3 := match (if s.stopped then none else s2.relayUnfinished j) with
      | none => s2
      | some (tensor, tile, what, held, expected) =>
        (((s2.setSlot j { s2.slot j with incomplete := true }).inc (F.RLY_CNT_INCOMPLETE j)).emit
          ⟨2, 0x0706, relaySrc ((s2.relayEngine tile).getD 0), s2.jobOf j,
            place 19 0 tensor ||| place 51 20 tile ||| place 55 52 (tile % 16) ||| place 57 56 what ||| place 71 58 held
              ||| place 85 72 expected⟩).abortNext j
    let abort := last || !missing.isEmpty || cons.any (fun h => bit h 0) || s3.rd (F.HRD_FLAGS_ABORT j) == 1 || s.relayDead
    let ckpt := cons.any (fun h => bit h 1) || s.wantsCkpt j
    let w := s3.hurdleWord j cls abort ckpt g wg dark
    let s4 := ((s3.wr (F.HRD_CONTRIB_WORD j) w).wr (F.HRD_FLAGS_ABORT j) 0)
    let s5 : State := { s4 with degr := if s4.degr.testBit j then s4.degr - 2 ^ j else s4.degr }
    let s6 := match missing with
      | [] => s5
      | c :: _ =>
        (missing.foldl (fun (s : State) (c : ClusterId) => s.inc (F.CL_SEQCNT_HRDW_MISS c.die c.idx)) s5).failJob j
          ⟨3, 0x0C33, srcOf c.die c.idx, s5.jobOf j, place 8 0 c.idx ||| place 16 9 (satTo 8 missing.length) ||| place 60 17 st⟩
    ok (s6.voteSend (s6.hurdleVote j) ((msgOf 0x40 [(0, 1, 0x48), (1, 2, s6.rd (F.STR_SLOT_JOB_ID j)), (4, 6, st),
      (0xA, 2, s6.modIdx j), (0x10, 8, w)]).withCrc 0xC)).latch

/-! Messages (R366 to R370, R380). -/

/-- The slot of a Hurdle message, after its CRC: a bad one is counted (R380). -/
def State.hurdleMsg (s : State) (m : Msg) (k : Nat → State) : Res :=
  match s.slotOfJob (voteJob m) with
  | none => ok s
  | some j =>
    if !voteGood 2 m then ok (s.inc (F.HRD_CNT_BAD_MSG j))
    else if !s.inVote j || voteKey 2 m < s.step j then ok s
    else ok (k j)

/-- A message of a later step waits for that step (R367). -/
def State.hurdleTake (s : State) (j level : Nat) (m : Msg) : State :=
  if voteKey 2 m = s.step j then s.voteTake (s.hurdleVote j) level m
  else
    let v := { s.hurdleVote j with key := voteKey 2 m }
    if collects (s.members j) v.mirror (s.modIdx j) level then s.voteHold v level m else s

/-- HURDLE_CONTRIB_RECEIVE. -/
def execHurdleContribReceive (m : Msg) (s : State) : Res := s.hurdleMsg m fun j => s.hurdleTake j 1 m

/-- HURDLE_PARTIAL_RECEIVE. -/
def execHurdlePartialReceive (m : Msg) (s : State) : Res := s.hurdleMsg m fun j => s.hurdleTake j (m.byte 3 + 1) m

/-- HURDLE_COLLECTOR_CLOSE. -/
def execHurdleCollectorClose (j level : Nat) (s : State) : Res :=
  if s.inVote j && (s.slot j).marked then ok (s.voteShut (s.hurdleVote j) level) else ok s

/-- HURDLE_OUTCOME_RECEIVE: the first valid copy is taken, and forwarded to the children (R370). -/
def execHurdleOutcomeReceive (m : Msg) (s : State) : Res :=
  s.hurdleMsg m fun j =>
    let me := s.modIdx j
    let got := s.vote 5 (voteJob m) (voteKey 2 m)
    if voteKey 2 m ≠ s.step j || me = 0 || !got.closed.isEmpty then s
    else ((s.setVote { got with closed := [1] }).voteDown (s.hurdleVote j) (resend 2 me m)).holdOutcome j m

/-- HURDLE_LATE: without an outcome at H + 16 the job stops here (R377). -/
def execHurdleLate (j : Nat) (s : State) : Res :=
  let sl := s.slot j
  if (s.slotState j = 2 || s.slotState j = 5) && sl.marked && sl.outMsg.isNone && decide (s.hMark j + 16 ≤ s.now) then
    let at_ := (sl.outLate.map (fun l => l - s.hMark j)).getD 0
    ok (((s.wr (F.HRD_RESULT_LATE j) 1).inc (F.HRD_CNT_LATE j)).failJob j
      ⟨3, 0x0705, srcModule 0, s.jobOf j, place 43 0 (s.step j) ||| place 44 44 (b2n sl.outLate.isSome) ||| place 76 45 at_⟩)
  else ok s

/-! The resolve lap (R148, R152, R375, R376). -/

/-- Scale state at a skip (R148): LS falls by one, or the floor is reported. -/
def State.scaleSkip (s : State) (j : Nat) : State :=
  let ls := s.rdInt (F.NUM_SCALE_LS j)
  let s0 := (s.inc (F.NUM_CNT_SCALE_SKIPS j)).wr (F.NUM_SCALE_CLEAN j) 0
  if s.rdInt (F.NUM_JOB_CFG_LS_MIN j) < ls then
    ((((s0.wrInt (F.NUM_SCALE_LS j) (ls - 1)).inc (F.NUM_CNT_SCALE_LOWERED j)).setSlot j { s.slot j with floorRun := 0 })).emit
      ⟨1, 0x0902, srcModule 0, s.jobOf j, place 7 0 (unsignedOf 8 ls) ||| place 15 8 (unsignedOf 8 (ls - 1)) ||| place 59 16 (s.step j)⟩
  else
    let n := (s.slot j).floorRun + 1
    ((s0.inc (F.NUM_CNT_SCALE_FLOOR j)).setSlot j { s.slot j with floorRun := n }).emit
      ⟨2, 0x0904, srcModule 0, s.jobOf j, place 7 0 (unsignedOf 8 ls) ||| place 51 8 (s.step j) ||| place 67 52 (satTo 16 n)⟩

/-- Scale state at a commit (R148): pending raises, then one rise at most; the kind whose multiplier rose, and the record of the
rise, which follows the DARK_TENSOR records. -/
def State.scaleCommit (s : State) (j word : Nat) : State × Option Nat × Option Ev :=
  let ls := s.rdInt (F.NUM_SCALE_LS j)
  let g := s.rd (F.NUM_SCALE_PCM_G j)
  let wg := s.rd (F.NUM_SCALE_PCM_WG j)
  let growth := s.rd (F.NUM_JOB_CFG_GROWTH j)
  let clean := min (s.rd (F.NUM_SCALE_CLEAN j) + 1) growth
  let auto := s.rd (F.NUM_JOB_CFG_AUTO_RAISE j) == 1
  let cap := s.rd (F.NUM_JOB_CFG_PCM_CAP j)
  let pg := s.rd (F.NUM_SCALE_PEND_G j) == 1 || (auto && bit word 58 && decide (g < cap))
  let pw := s.rd (F.NUM_SCALE_PEND_WG j) == 1 || (auto && bit word 57 && decide (wg < cap))
  let s0 := (((s.wrInt (F.NUM_SCALE_LS_PREV j) ls).wr (F.NUM_SCALE_PCM_G_PREV j) g).wr (F.NUM_SCALE_PCM_WG_PREV j) wg).wr (F.NUM_SCALE_CLEAN j) clean
  let s1 := ((s0.wrB (F.NUM_SCALE_PEND_G j) pg).wrB (F.NUM_SCALE_PEND_WG j) pw).setSlot j { s.slot j with floorRun := 0 }
  let raise (kind v : Nat) : Ev :=
    ⟨0, 0x0906, srcModule 0, s.jobOf j, place 0 0 kind ||| place 5 1 v ||| place 49 6 (s.step j)⟩
  if pg then (((s1.wr (F.NUM_SCALE_PEND_G j) 0).wr (F.NUM_SCALE_PCM_G j) (g + 1)).inc (F.NUM_CNT_DARK_MULT_RAISES j), some 0,
    some (raise 0 (g + 1)))
  else if pw then (((s1.wr (F.NUM_SCALE_PEND_WG j) 0).wr (F.NUM_SCALE_PCM_WG j) (wg + 1)).inc (F.NUM_CNT_DARK_MULT_RAISES j), some 1,
    some (raise 1 (wg + 1)))
  else if clean = growth && decide (ls < s.rdInt (F.NUM_JOB_CFG_LS_MAX j)) then
    (((s1.wrInt (F.NUM_SCALE_LS j) (ls + 1)).wr (F.NUM_SCALE_CLEAN j) 0).inc (F.NUM_CNT_SCALE_RAISED j), none,
      some ⟨0, 0x0903, srcModule 0, s.jobOf j, place 7 0 (unsignedOf 8 ls) ||| place 15 8 (unsignedOf 8 (ls + 1)) ||| place 59 16 (s.step j)⟩)
  else (s1, none, none)

/-- LS + PCM_G + PCM_WG. -/
def State.gradExp (s : State) (j : Nat) : Int :=
  s.rdInt (F.NUM_SCALE_LS j) + (s.rd (F.NUM_SCALE_PCM_G j) : Int) + (s.rd (F.NUM_SCALE_PCM_WG j) : Int)

/-- The banks of the step resolved are cleared (R104, R134, R363, R783). -/
def State.clearFlags (s : State) (j : Nat) (cls : List ClusterId) : State :=
  let ev := evenStep (s.step j)
  let sl := s.slot j
  let sl1 := if ev then { sl with ovfEven := false, nfEven := false, rangeEven := 0, accEven := false, clipEven := false }
    else { sl with ovfOdd := false, nfOdd := false, rangeOdd := 0, accOdd := false, clipOdd := false }
  cls.foldl (fun (s : State) c =>
    let x := s.cluster c
    s.setCluster c (if ev then { x with nfEven := false } else { x with nfOdd := false }))
    (((s.setSlot j sl1).wr (F.NUM_FLAGS_ALARM_G j) 0).wr (F.NUM_FLAGS_ALARM_WG j) 0)

/-- The flag registers show the bank of the step in progress (R783). -/
def State.showStep (s : State) (j : Nat) (cls : List ClusterId) : State :=
  cls.foldl (fun (s : State) c => s.showNf c j) ((s.showFlags j).showClip j)

/-- The stash window of a step ends on every die of the job with a stash window (R296, R300). -/
def State.stashResolve (s : State) (j : Nat) : State :=
  let st := s.step j
  (s.diesOf j).foldl (fun (s : State) n =>
    if s.rd (F.CD_STASH_WIN_SIZE n j) = 0 then s
    else if s.rd (F.CD_BWD_CFG_LIFE n j) = 0 then s.stashRelease n j (st + 1) (st % 2)
    else s.stashRelease n j st ((st + 1) % 2)) s

/-- The step that follows starts at lap `start`: its marks (R326, R327).
[DEDUCED, notes/assumptions/44.md] -/
def State.setSchedule (s : State) (j start : Nat) : State :=
  s.wr (F.HRD_MARK_H j) (start + s.rd (F.HRD_SCHED_HURDLE_OFFSET j))

/-- Rotations whose step did not commit, or that could not be armed, are abandoned at C (R734). -/
def State.rotResolve (s : State) (j : Nat) (commit : Bool) : State :=
  (s.partsOf j).foldl (fun (s : State) p =>
    match s.rot p with
    | some r => if r.holding || r.step ≠ s.step j || (commit && (s.due 4 p).isSome) then s else s.rotDecline p r 3
    | none => s) s

/-- HURDLE_SKIP. -/
def State.skipRecord (s : State) (j word kind : Nat) : State :=
  s.emit ⟨1, 0x0701, srcModule 0, s.jobOf j, place 43 0 (s.step j) ||| place 44 44 (bits word 62 62) ||| place 45 45 (bits word 61 61)
    ||| place 46 46 (b2n (kind == 2)) ||| place 59 47 (bits word 27 15)⟩

/-- The step counts as resolved, and everything of it is gone (R157, R174, R175, R354); kind 5 in `votes` is the mark that its
outcome has been forwarded. -/
def State.nextStep (s : State) (j : Nat) (commit : Bool) : State :=
  let st := s.step j
  let s1 := ((s.wr (F.NUM_STEP_STEP j) (st + 1)).dropAsks j).setRelay j ⟨[], [], [], [], [], [], []⟩
  ((s1.setSlot j { s1.slot j with
    rlap := s.now, outcome := commit, resolved := true, marked := false, drained := false, outMsg := none, outLate := none,
    incomplete := false }).dropVotes 2 (s.rd (F.STR_SLOT_JOB_ID j)) (fun t => decide (t ≤ st))).dropVotes 5 (s.rd (F.STR_SLOT_JOB_ID j))
    (fun _ => true)

/-- What the Hurdle logic keeps at C of a job that has stopped: nothing, but where a stop of the domain came between a mark and its outcome, the job
having been RUNNING, the outcome gives the next Hurdle mark, at which the module owes its abort (R51, R473). An outcome that halts the job, or that
begins a checkpoint halt, gives none.
[DEDUCED, notes/assumptions/93.md] -/
def State.stoppedAtC (s : State) (j : Nat) : State :=
  let sl := s.slot j
  let job := s.rd (F.STR_SLOT_JOB_ID j)
  let next := match sl.owesVote, sl.outMsg with
    | true, some m =>
      let commit := bits (m.le 0x20 4) 31 30 == 0
      if bits (m.le 0x20 4) 31 30 = 2 || (commit && bit (m.le 0x10 8) 60) then none
      else some (s.cLap j + (if commit then s.flipOffset j else 16))
    | _, _ => none
  match next with
  | none => (s.setSlot j { sl with marked := false, owesVote := false, outMsg := none }).forgetVotes job
  | some start =>
    ((((s.wr (F.NUM_STEP_STEP j) (s.step j + 1)).setSlot j { sl with marked := false, outMsg := none }).setSchedule j start).dropVotes 2 job
      (fun t => decide (t ≤ s.step j))).dropVotes 5 job (fun _ => true)

/-- HURDLE_OUTCOME_APPLY: at C the outcome takes effect (R44, R46, R148, R167, R296, R326, R375, R376, R378). [DEDUCED, notes/assumptions/76.md]
The manual does not say what becomes of an outcome armed for C where a swap moves the slot from RUNNING to DRAINING before C (R44, R703): the model
applies it at C, and no checkpoint halt follows. [DESIGN CHOICE, notes/assumptions/102.md] -/
def execHurdleOutcomeApply (j : Nat) (s : State) : Res :=
  let sl := s.slot j
  if s.slotState j = 4 && sl.marked && decide (s.cLap j ≤ s.now) then ok (s.stoppedAtC j)
  else
    match s.due 2 j, sl.outMsg with
    | some _, some m =>
      if (s.slotState j ≠ 2 && s.slotState j ≠ 5) || s.stopped then ok s
      else
        let word := m.le 0x10 8
        let status := m.le 0x20 4
        let kind := bits status 31 30
        let commit := kind == 0
        let cls := s.clustersOf j
        let flip := s.flipOffset j
        let s0 := s.dropArms 2 j
        let s1 := ((((s0.wr (F.HRD_OUTCOME_WORD j) word).wr (F.HRD_RESULT_KIND j) kind).wr (F.HRD_RESULT_LATE j) 0).wr
          (F.HRD_RESULT_ABSENT j) (bits status 13 0)).wr (F.HRD_RESULT_FIRST_ABSENT j) (bits status 29 16)
        let s2 := if commit then s1.inc (F.HRD_CNT_COMMITS j)
          else (s1.inc (F.HRD_CNT_SKIPS j)).skipRecord j word kind
        let s3 := if commit then
            let (t, raised, ev) := s2.scaleCommit j word
            match ev with
            | some e => (t.darkCommit j raised).emit e
            | none => t.darkCommit j raised
          else (s2.scaleSkip j).darkSkip j
        let s4 := s3.wrInt (F.HRD_RESULT_DELTA j) (s3.gradExp j - s.gradExp j)
        let s5 := ((s4.clearFlags j cls).stashResolve j).rotResolve j commit
        let s6 := s5.swapEngines.nextStep j commit
        let s7 := s6.showStep j cls
        let s8 := if commit then
            (s7.setSlot j { s7.slot j with flipLap := some (s.now + flip), flipDone := false }).setSchedule j (s.now + flip)
          else s7.setSchedule j (s.now + 16)
        let s9 := if kind = 2 then
            ((s8.inc (F.HRD_CNT_HALTS j)).emit ⟨3, 0x0704, srcModule 0, s8.jobOf j,
              place 43 0 (s.step j) ||| place 44 44 (bits word 63 63) ||| place 57 45 (bits word 40 28)
                ||| place 71 58 (bits status 13 0) ||| place 84 72 (bits status 29 16)⟩).stopJob j false
          else if commit && bit word 60 && s.slotState j = 2 then
            let t := s8.armJob 3 j (s.now + flip) j
            if t.slotState j = 4 then t.setSlot j { t.slot j with owesVote := false } else t
          else s8
        ok s9.tick.latch
    | _, _ => ok s

end Sys2Proof.Machine
end

