-- ==== Sys2Proof/Machine/Flags.lean ====
section
/-!
DEFINITION. The sticky flags of the vector engine (R265): what one element of one operation sets. Bit 3 NV, bit 2 DZ,
bit 1 OF, bit 0 NFW.
-/

namespace Sys2Proof.Machine

/-- The flags that one element sets: its operands, its result, and whether the operation divides by zero (R265). -/
def elemFlags (operands : List Fp) (result : Fp) (dz : Bool) : Nat :=
  let nv := fpNan result && !operands.any fpNan
  let inf := match result with | .inf _ => true | _ => false
  let of_ := inf && !dz && !operands.any fpNonfinite
  8 * b2n nv + 4 * b2n dz + 2 * b2n of_ + b2n (fpNonfinite result)

/-- DZ of a division: a finite nonzero value by zero. -/
def divDz (a b : Fp) : Bool := !fpNonfinite a && !fpZero a && fpZero b

/-- DZ of a special function: RECIP, RSQRT or LOG of a zero. -/
def sfuDz (fn : Nat) (x : Fp) : Bool := (fn == 1 || fn == 2 || fn == 3) && fpZero x

/-- The union of flags over elements. -/
def orFlags (fs : List Nat) : Nat := fs.foldl (fun a f => a ||| f) 0

end Sys2Proof.Machine
end

