-- ==== Sys2Proof/Machine/Vector.lean ====
section
/-!
DEFINITION. The vector engine (R242 to R281). A vector instruction takes its whole effect when it issues: latencies are timing
(R279), and R280 lets no result depend on them. It waits in the vector queue only behind a cast that waits in the cast unit (R278).
-/

namespace Sys2Proof.Machine

/-! Registers and types (R242 to R248). -/

/-- V[r]. -/
def ClusterSt.vreg (c : ClusterSt) (r : BitVec 5) : BitVec 2048 := sget (fun _ => 0) c.vregs r.toNat
/-- Set V[r]. -/
def ClusterSt.setV (c : ClusterSt) (r : BitVec 5) (v : BitVec 2048) : ClusterSt :=
  { c with vregs := sset (fun _ => 0) c.vregs r.toNat v }

/-- SEW in bits: 8, 16 or 32. -/
def ClusterSt.sew (c : ClusterSt) : Nat := 8 * 2 ^ (c.vtype % 4)
/-- KIND: 0 float, 1 signed, 2 unsigned. -/
def ClusterSt.kind (c : ClusterSt) : Nat := c.vtype / 4
/-- VLMAX of a VTYPE. -/
def vlmax (vtype : Nat) : Nat := 256 / 2 ^ (vtype % 4)
/-- Is the VTYPE valid (R244)? -/
def vtypeOk (v : Nat) : Bool := v % 4 < 3 && v / 4 < 3 && v ≠ 0
/-- Is the live type FP32 or BF16? -/
def ClusterSt.isFloat (c : ClusterSt) : Bool := c.kind == 0
/-- The float format of the live VTYPE. -/
def ClusterSt.ffmt (c : ClusterSt) : Format := if c.sew = 16 then fmtBf16 else fmtFp32
/-- Its format code. -/
def ClusterSt.fcode (c : ClusterSt) : Nat := if c.sew = 16 then 1 else 0

/-- Element i at width w (R245). -/
def vElem (v : BitVec 2048) (w i : Nat) : Nat := (v.toNat >>> (w * i)) % 2 ^ w
/-- Elements 0 to n − 1. -/
def vElems (v : BitVec 2048) (w n : Nat) : List Nat := (List.range n).map (vElem v w)
/-- Elements 0 to n − 1 of `v` replaced by `es`; the rest unchanged (R248). -/
def vPut (v : BitVec 2048) (w : Nat) (es : List Nat) : BitVec 2048 :=
  let n := w * es.length
  let low := es.foldr (fun e a => (e % 2 ^ w) + (a <<< w)) 0
  BitVec.ofNat 2048 (low + ((v.toNat >>> n) <<< n))
/-- One element replaced. -/
def vPut1 (v : BitVec 2048) (w i e : Nat) : BitVec 2048 :=
  let old := vElem v w i
  BitVec.ofNat 2048 (v.toNat - (old <<< (w * i)) + ((e % 2 ^ w) <<< (w * i)))

/-! Issue. -/

/-- CDn_CL_VSTATUS shows VFLAGS. -/
def State.showVflags (s : State) (cl : ClusterId) : State :=
  let v := (s.cluster cl).vflags
  (((s.wrB (F.CL_VSTATUS_NV cl.die cl.idx) (v.testBit 3)).wrB (F.CL_VSTATUS_DZ cl.die cl.idx) (v.testBit 2)).wrB
    (F.CL_VSTATUS_OF cl.die cl.idx) (v.testBit 1)).wrB (F.CL_VSTATUS_NFW cl.die cl.idx) (v.testBit 0)

/-- A vector instruction that has taken `s` to `t` enters the vector queue, or waits at issue while that is full (R176, R178);
it leaves at once where nothing holds it.
[DESIGN CHOICE, notes/assumptions/12.md] -/
def State.vret (s t : State) (cl : ClusterId) (cast loadStore : Bool) : Issue :=
  let c := s.cluster cl
  let v : VEnt := ⟨c.vl, c.vtype, cast, loadStore, c.icount⟩
  if !c.vqueued cast then .ret ((t.showVflags cl).vleave cl v)
  else if 16 ≤ c.vq.length then s.waitQueue cl 5
  else .ret ((t.showVflags cl).putCl cl { t.cluster cl with vq := c.vq ++ [v] })

/-- Retire with the cluster's new contents.
[DESIGN CHOICE, notes/assumptions/12.md] -/
def State.retV (s : State) (cl : ClusterId) (c : ClusterSt) : Issue := s.vret (s.setCluster cl c) cl false false

/-- Causes of R281. -/
def excVtype : Issue := .exc 28 0

/-- SETVL (R246, R247). -/
def execSetvl (cl : ClusterId) (f : FmtI) (s : State) : Res :=
  s.issue cl (wordI 0x40 f) fun c =>
    let v := f.imm.toNat % 16
    if 16 ≤ f.imm.toNat then excIllegal
    else if !vtypeOk v then excVtype
    else
      let vl := min (c.sn f.rs1) (vlmax v)
      .ret (s.setCluster cl ({ c with vl := vl, vtype := v }.setS f.rd (BitVec.ofNat 64 vl)))

/-! Loads and stores (R267 to R269). -/

/-- The addresses of elements 0 to VL − 1: contiguous, strided, or one address for every element. -/
def elemAddrs (vl base : Nat) (stride : Int) : List Nat :=
  (List.range vl).map (fun (i : Nat) => (((base : Int) + (i : Int) * stride) % 2 ^ 64).toNat)

/-- ALIGN or ADDRESS of element addresses (R268, R784). -/
def addrExc (es : Nat) (addrs : List Nat) : Option Issue :=
  match addrs.find? (fun a => a % es ≠ 0) with
  | some a => some (.exc 19 a)
  | none =>
    match addrs.find? (fun a => tileSize < a + es) with
    | some a => some (.exc 18 (max a tileSize))
    | none => none

/-- A vector load from the given addresses. -/
def vload (s : State) (cl : ClusterId) (c : ClusterSt) (vd : BitVec 5) (addrs : List Nat) : Issue :=
  let es := c.sew / 8
  match addrExc es addrs with
  | some e => e
  | none =>
    if addrs.any (fun a => s.interlocked cl a es false) then .wait s
    else s.vret (s.setCluster cl (c.setV vd (vPut (c.vreg vd) c.sew (addrs.map (fun a => c.tnat a es))))) cl false true

/-- VLD.
[DESIGN CHOICE, notes/assumptions/12.md] -/
def execVld (cl : ClusterId) (f : Fmt5) (s : State) : Res :=
  s.issue cl (word5 0x41 f) fun c =>
    if f.f14 ≠ 0 || f.f9 ≠ 0 || f.f4 ≠ 0 then excIllegal
    else vload s cl c f.f24 (elemAddrs c.vl (c.sn f.f19) ((c.sew / 8 : Nat) : Int))
/-- VLDS: S[RS2] is read signed. -/
def execVlds (cl : ClusterId) (f : Fmt5) (s : State) : Res :=
  s.issue cl (word5 0x42 f) fun c =>
    if f.f9 ≠ 0 || f.f4 ≠ 0 then excIllegal
    else vload s cl c f.f24 (elemAddrs c.vl (c.sn f.f19) (c.sreg f.f14).toInt)
/-- VLDB: one element into all. -/
def execVldb (cl : ClusterId) (f : Fmt5) (s : State) : Res :=
  s.issue cl (word5 0x43 f) fun c =>
    if f.f14 ≠ 0 || f.f9 ≠ 0 || f.f4 ≠ 0 then excIllegal
    else vload s cl c f.f24 (elemAddrs c.vl (c.sn f.f19) 0)

/-- Store elements in order, the later over the earlier. -/
def storeElems (es : Nat) (c : ClusterSt) : List (Nat × Nat) → ClusterSt
  | [] => c
  | (a, v) :: rs => storeElems es (c.setT a (leBytes es v)) rs

/-- A vector store; with G it stores nothing and raises GUARD at the lowest-indexed infinity or NaN (R269). -/
def vstore (s : State) (cl : ClusterId) (c : ClusterSt) (vs : BitVec 5) (guard : Bool) (addrs : List Nat) : Issue :=
  let es := c.sew / 8
  let vals := vElems (c.vreg vs) c.sew c.vl
  match addrExc es addrs with
  | some e => e
  | none =>
    match (if guard then (addrs.zip vals).find? (fun p => fpNonfinite (decodeElem c.fcode p.2)) else none) with
    | some p => .exc 30 p.1
    | none =>
      if addrs.any (fun a => s.interlocked cl a es true) then .wait s
      else s.vret (s.setCluster cl (storeElems es c (addrs.zip vals))) cl false true

/-- May FL of a store be as given: FL[4:1] zero, G only under a float type? -/
def storeFlOk (c : ClusterSt) (fl : BitVec 5) : Bool := fl = 0 || (fl = 1 && c.isFloat)

/-- VST.
[DESIGN CHOICE, notes/assumptions/12.md] -/
def execVst (cl : ClusterId) (f : Fmt5) (s : State) : Res :=
  s.issue cl (word5 0x44 f) fun c =>
    if f.f14 ≠ 0 || f.f9 ≠ 0 || !storeFlOk c f.f4 then excIllegal
    else vstore s cl c f.f24 (f.f4 = 1) (elemAddrs c.vl (c.sn f.f19) ((c.sew / 8 : Nat) : Int))
/-- VSTS. -/
def execVsts (cl : ClusterId) (f : Fmt5) (s : State) : Res :=
  s.issue cl (word5 0x45 f) fun c =>
    if f.f9 ≠ 0 || !storeFlOk c f.f4 then excIllegal
    else vstore s cl c f.f24 (f.f4 = 1) (elemAddrs c.vl (c.sn f.f19) (c.sreg f.f14).toInt)

/-! Float arithmetic (R252 to R255). -/

/-- MIN and MAX: −0 below +0; NaN if either is NaN.
[DEDUCED, notes/assumptions/16.md] -/
def fpMin (a b : Fp) : Fp :=
  if fpNan a || fpNan b then .nan
  else
    let c := fpCmp a b
    if c < 0 then a else if 0 < c then b
    else match a, b with
      | .fin true 0 _, _ => a
      | _, .fin true 0 _ => b
      | _, _ => a
/-- The larger, +0 above −0.
[DEDUCED, notes/assumptions/16.md] -/
def fpMax (a b : Fp) : Fp :=
  if fpNan a || fpNan b then .nan
  else
    let c := fpCmp a b
    if 0 < c then a else if c < 0 then b
    else match a, b with
      | .fin true 0 _, _ => b
      | _, _ => a

/-- A float binary operation FN, rounded once, and whether it divides by zero (R254). -/
def floatBin (f : Format) (fn : Nat) (a b : Fp) : Option (Fp × Bool) :=
  match fn with
  | 0 => some (fpRound f (fpAdd a b), false)
  | 1 => some (fpRound f (fpAdd a (fpNeg b)), false)
  | 2 => some (fpRound f (fpMul a b), false)
  | 3 => some (fpDiv f a b, divDz a b)
  | 4 => some (fpMin a b, false)
  | 5 => some (fpMax a b, false)
  | _ => none

/-- Write float results with their flags. -/
def ClusterSt.putFloats (c : ClusterSt) (vd : BitVec 5) (rs : List (Fp × Nat)) : ClusterSt :=
  { c.setV vd (vPut (c.vreg vd) c.sew (rs.map (fun r => encodeIeee c.ffmt r.1))) with
    vflags := c.vflags ||| orFlags (rs.map (·.2)) }

/-- A float value of the live type. -/
def ClusterSt.fval (c : ClusterSt) (e : Nat) : Fp := decodeElem c.fcode e

/-- Apply a float binary operation to lists of codes. -/
def floatMap (c : ClusterSt) (fn : Nat) (as bs : List Nat) : List (Fp × Nat) :=
  (as.zip bs).map (fun p =>
    let a := c.fval p.1
    let b := c.fval p.2
    match floatBin c.ffmt fn a b with
    | some r => (r.1, elemFlags [a, b] r.1 r.2)
    | none => (.nan, 0))

/-- VFV.
[DESIGN CHOICE, notes/assumptions/12.md] -/
def execVfv (cl : ClusterId) (f : Fmt5) (s : State) : Res :=
  s.issue cl (word5 0x48 f) fun c =>
    if 6 ≤ f.f4.toNat || f.f9 ≠ 0 then excIllegal
    else if !c.isFloat then excVtype
    else s.retV cl (c.putFloats f.f24 (floatMap c f.f4.toNat (vElems (c.vreg f.f19) c.sew c.vl) (vElems (c.vreg f.f14) c.sew c.vl)))

/-- The scalar operand of a VFS, VIS or VCMPS (R255). -/
def ClusterSt.scalar (c : ClusterSt) (r : BitVec 5) : Nat := c.sn r % 2 ^ c.sew

/-- VFS. -/
def execVfs (cl : ClusterId) (f : Fmt5) (s : State) : Res :=
  s.issue cl (word5 0x49 f) fun c =>
    if 6 ≤ f.f4.toNat || f.f9 ≠ 0 then excIllegal
    else if !c.isFloat then excVtype
    else s.retV cl (c.putFloats f.f24
      (floatMap c f.f4.toNat (vElems (c.vreg f.f19) c.sew c.vl) (List.replicate c.vl (c.scalar f.f14))))

/-- A float unary operation FN on code `e` (R254): the new code and its flags. -/
def floatUn (c : ClusterSt) (fn e : Nat) : Nat × Nat :=
  let f := c.ffmt
  let a := c.fval e
  let fl (r : Fp) : Nat × Nat := (encodeIeee f r, elemFlags [a] r false)
  match fn with
  | 0 => fl (fpAbs a)
  | 1 => fl (fpNeg a)
  | 2 => fl (fpSqrt f a)
  | 3 =>
    let r := fpRound f (fpOfInt (signed c.sew e) 0)
    (encodeIeee f r, elemFlags [] r false)
  | 4 =>
    let lim : Int := 2 ^ (c.sew - 1)
    let v : Int := match a with
      | .nan => 0
      | .inf neg => if neg then -lim else lim - 1
      | w => max (-lim) (min (lim - 1) ((fpToInt w).getD 0))
    (unsignedOf c.sew v, 0)
  | _ => fl (fpRound f (fpFloor a))

/-- VFU. -/
def execVfu (cl : ClusterId) (f : Fmt5) (s : State) : Res :=
  s.issue cl (word5 0x4A f) fun c =>
    if 6 ≤ f.f4.toNat || f.f9 ≠ 0 || f.f14 ≠ 0 then excIllegal
    else if !c.isFloat then excVtype
    else
      let rs := (vElems (c.vreg f.f19) c.sew c.vl).map (floatUn c f.f4.toNat)
      s.retV cl { c.setV f.f24 (vPut (c.vreg f.f24) c.sew (rs.map (·.1))) with
        vflags := c.vflags ||| orFlags (rs.map (·.2)) }

/-- VSFU (R260). -/
def execVsfu (cl : ClusterId) (f : Fmt5) (s : State) : Res :=
  s.issue cl (word5 0x4B f) fun c =>
    if 6 ≤ f.f4.toNat || f.f9 ≠ 0 || f.f14 ≠ 0 then excIllegal
    else if !c.isFloat then excVtype
    else
      s.retV cl (c.putFloats f.f24 ((vElems (c.vreg f.f19) c.sew c.vl).map (fun e =>
        let x := c.fval e
        let r := sfu c.ffmt f.f4.toNat x
        (r, elemFlags [x] r (sfuDz f.f4.toNat x)))))

/-! Integers, comparisons, selection (R256 to R258). -/

/-- An integer binary operation FN of width w. -/
def intBin (w : Nat) (isSigned : Bool) (fn a b : Nat) : Option Nat :=
  let sh := b % w
  let va : Int := if isSigned then signed w a else a
  let vb : Int := if isSigned then signed w b else b
  match fn with
  | 0 => some ((a + b) % 2 ^ w)
  | 1 => some ((a + 2 ^ w - b) % 2 ^ w)
  | 2 => some ((a * b) % 2 ^ w)
  | 3 => some (a &&& b)
  | 4 => some (a ||| b)
  | 5 => some (a ^^^ b)
  | 6 => some ((a <<< sh) % 2 ^ w)
  | 7 => some (unsignedOf w (va / 2 ^ sh))
  | 8 => some (if va ≤ vb then a else b)
  | 9 => some (if vb ≤ va then a else b)
  | _ => none

/-- A vector integer operation with its second operands given. -/
def intOp (s : State) (cl : ClusterId) (c : ClusterSt) (f : Fmt5) (bs : List Nat) : Issue :=
  if 10 ≤ f.f4.toNat || f.f9 ≠ 0 then excIllegal
  else if c.isFloat then excVtype
  else
    let rs := ((vElems (c.vreg f.f19) c.sew c.vl).zip bs).map (fun p =>
      (intBin c.sew (c.kind == 1) f.f4.toNat p.1 p.2).getD 0)
    s.retV cl (c.setV f.f24 (vPut (c.vreg f.f24) c.sew rs))

/-- VIV. -/
def execViv (cl : ClusterId) (f : Fmt5) (s : State) : Res :=
  s.issue cl (word5 0x4C f) fun c => intOp s cl c f (vElems (c.vreg f.f14) c.sew c.vl)
/-- VIS. -/
def execVis (cl : ClusterId) (f : Fmt5) (s : State) : Res :=
  s.issue cl (word5 0x4D f) fun c => intOp s cl c f (List.replicate c.vl (c.scalar f.f14))

/-- Does comparison FN hold (R257)? -/
def cmpHolds (c : ClusterSt) (fn a b : Nat) : Bool :=
  let nan := c.isFloat && (fpNan (c.fval a) || fpNan (c.fval b))
  let o : Int := if c.isFloat then fpCmp (c.fval a) (c.fval b)
    else if c.kind = 1 then signed c.sew a - signed c.sew b else (a : Int) - (b : Int)
  if nan then fn == 1
  else match fn with
    | 0 => o == 0
    | 1 => o != 0
    | 2 => decide (o < 0)
    | 3 => decide (o ≤ 0)
    | 4 => decide (0 < o)
    | _ => decide (0 ≤ o)

/-- A vector comparison: all ones or zero. -/
def cmpOp (s : State) (cl : ClusterId) (c : ClusterSt) (f : Fmt5) (bs : List Nat) : Issue :=
  if 6 ≤ f.f4.toNat || f.f9 ≠ 0 then excIllegal
  else
    let rs := ((vElems (c.vreg f.f19) c.sew c.vl).zip bs).map (fun p =>
      if cmpHolds c f.f4.toNat p.1 p.2 then 2 ^ c.sew - 1 else 0)
    s.retV cl (c.setV f.f24 (vPut (c.vreg f.f24) c.sew rs))

/-- VCMPV. -/
def execVcmpv (cl : ClusterId) (f : Fmt5) (s : State) : Res :=
  s.issue cl (word5 0x50 f) fun c => cmpOp s cl c f (vElems (c.vreg f.f14) c.sew c.vl)
/-- VCMPS. -/
def execVcmps (cl : ClusterId) (f : Fmt5) (s : State) : Res :=
  s.issue cl (word5 0x51 f) fun c => cmpOp s cl c f (List.replicate c.vl (c.scalar f.f14))

/-- VSEL: VS2 where VS1 is nonzero, else VS3, as bit patterns. -/
def execVsel (cl : ClusterId) (f : Fmt5) (s : State) : Res :=
  s.issue cl (word5 0x52 f) fun c =>
    if f.f4 ≠ 0 then excIllegal
    else
      let e (r : BitVec 5) := vElems (c.vreg r) c.sew c.vl
      let rs := ((e f.f19).zip ((e f.f14).zip (e f.f9))).map (fun p => if p.1 ≠ 0 then p.2.1 else p.2.2)
      s.retV cl (c.setV f.f24 (vPut (c.vreg f.f24) c.sew rs))

/-! Reductions (R259). -/

/-- A float reduction FN of values. -/
def floatRed (f : Format) (fn : Nat) (xs : List Fp) : Fp :=
  match fn with
  | 0 =>
    match xs.foldl fpAdd (.fin false 0 0) with
    | .fin a m e => if m = 0 then .fin false 0 f.qmin else rneIeee f a m e
    | v => v
  | 1 => if xs.any fpNan then .nan else xs.foldl fpMax (.inf true)
  | 2 => if xs.any fpNan then .nan else xs.foldl fpMin (.inf false)
  | _ => if xs.any fpNan then .nan else (xs.map fpAbs).foldl fpMax (.fin false 0 f.qmin)

/-- An integer reduction FN of codes. -/
def intRed (w : Nat) (isSigned : Bool) (fn : Nat) (xs : List Nat) : Nat :=
  match xs with
  | [] => 0
  | x :: rest =>
    match fn with
    | 0 => (x + rest.sum) % 2 ^ w
    | 1 => rest.foldl (fun a b => (intBin w isSigned 9 a b).getD 0) x
    | _ => rest.foldl (fun a b => (intBin w isSigned 8 a b).getD 0) x

/-- VRED: element 0 of VD; nothing is written with VL at 0. -/
def execVred (cl : ClusterId) (f : Fmt5) (s : State) : Res :=
  s.issue cl (word5 0x54 f) fun c =>
    let fn := f.f4.toNat
    let es := vElems (c.vreg f.f19) c.sew c.vl
    if 4 ≤ fn || f.f9 ≠ 0 || f.f14 ≠ 0 then excIllegal
    else if !c.isFloat && fn = 3 then excVtype
    else if c.vl = 0 then s.retV cl c
    else if c.isFloat then
      let xs := es.map c.fval
      let r := floatRed c.ffmt fn xs
      s.retV cl { c.setV f.f24 (vPut (c.vreg f.f24) c.sew [encodeIeee c.ffmt r]) with
        vflags := c.vflags ||| elemFlags xs r false }
    else s.retV cl (c.setV f.f24 (vPut (c.vreg f.f24) c.sew [intRed c.sew (c.kind == 1) fn es]))

/-! Derivatives (R261, R262). -/

/-- 1 as a value. -/
def fpOne : Fp := .fin false 1 0

/-- The derivative FN, rounded once: y, g, and the scalar α or s. -/
def deriv (f : Format) (fn : Nat) (y g x : Fp) : Fp :=
  let pos := fpCmp y (.fin false 0 0) > 0
  match fn with
  | 0 => if fpNan y then .nan else if pos then fpRound f fpOne else .fin false 0 f.qmin
  | 1 => if fpNan y || fpNan x then .nan else if pos then fpRound f fpOne else x
  | 2 => fpRound f (fpMul y (fpAdd fpOne (fpNeg y)))
  | 3 => fpRound f (fpAdd fpOne (fpNeg (fpMul y y)))
  | 4 => y
  | _ => fpRound f (fpMul y (fpAdd g (fpNeg x)))

/-- VDERIV. -/
def execVderiv (cl : ClusterId) (f : Fmt5) (s : State) : Res :=
  s.issue cl (word5 0x58 f) fun c =>
    let fn := f.f4.toNat
    let usesG := fn == 5
    let usesS := fn == 1 || fn == 5
    if 6 ≤ fn || (!usesG && f.f14 ≠ 0) || (!usesS && f.f9 ≠ 0) then excIllegal
    else if !c.isFloat then excVtype
    else
      let x := c.fval (c.scalar f.f9)
      s.retV cl (c.putFloats f.f24
        (((vElems (c.vreg f.f19) c.sew c.vl).zip (vElems (c.vreg f.f14) c.sew c.vl)).map (fun p =>
          let y := c.fval p.1
          let g := c.fval p.2
          let r := deriv c.ffmt fn y g x
          (r, elemFlags ([y] ++ (if usesG then [g] else []) ++ (if usesS then [x] else [])) r false))))

/-! Casts, stochastic addition, conversions and moves (R263, R264, R270 to R275). -/

/-- VCVT (R270 to R273): it enters the cast unit, and is performed at once unless a drain or a SEED cast is before it. With an
explicit FMT, ADDR of a DESC exception holds S[RS2][15:0] (R233).
[DESIGN CHOICE, notes/assumptions/17.md] -/
def execVcvt (cl : ClusterId) (f : Fmt5) (s : State) : Res :=
  s.issue cl (word5 0x5C f) fun c =>
    let a := c.sn f.f19
    let b := c.sn f.f14
    let x := f.f4 = 1
    let j := (s.slotOfCl cl).getD 0
    let ea := bits a 20 0
    let sa := bits a 52 32
    if f.f9 ≠ 0 || 2 ≤ f.f4.toNat then excIllegal
    else
      match s.castTarget j x (if x then bits b 3 0 else bits b 15 0) with
      | none => if !c.isFloat then excVtype else if c.vl = 0 then s.retV cl c else .exc 22 (bits b 15 0)
      | some t =>
        let n := if t.fmt = 1 then 2 * c.vl else c.vl / 32 * blockBytes t.fmt
        if t.fmt = 1 && sa ≠ 0 then excIllegal
        else if !c.isFloat then excVtype
        else if c.vl = 0 then s.retV cl c
        else if t.twin || t.fmt = 0 || 7 ≤ t.fmt || (t.fmt = 1 && c.sew = 16) then .exc 22 (bits b 15 0)
        else if t.fmt ≠ 1 && c.vl % 32 ≠ 0 then .exc 29 c.vl
        else if ea % (if t.fmt = 1 then 2 else 8) ≠ 0 then .exc 19 ea
        else if tileSize < ea + n then .exc 18 (max ea tileSize)
        else if t.fmt ≠ 1 && tileSize < sa + c.vl / 32 then .exc 18 (max sa tileSize)
        else if c.wgq.any (fun e => (panelRanges e).any (fun p =>
            lineOverlap ea n p.1 p.2 || (t.fmt ≠ 1 && lineOverlap sa (c.vl / 32) p.1 p.2))) then .wait s
        else
          let q : CastJob := ⟨vElems (c.vreg f.f24) c.sew c.vl, c.fcode, x, if x then bits b 3 0 else bits b 15 0,
            ea, sa, c.icount, c.pstep⟩
          let s1 := s.setCluster cl { c with castQ := c.castQ ++ [q] }
          match s.vret s1 cl true false with
          | .ret s2 => .ret (s2.castRun cl j)
          | i => i

/-- One stochastically rounded sum (R274, R275). -/
def vsrElem (seed step tensor tile ordinal e : Nat) (a b : Fp) : Fp :=
  match fpAdd a b with
  | .fin n m x => srIeee fmtFp32 (randomWord seed 1 step tensor tile ordinal e) n m x
  | v => v

/-- VSR. -/
def execVsr (cl : ClusterId) (f : Fmt5) (s : State) : Res :=
  s.issue cl (word5 0x5D f) fun c =>
    let k := c.sn f.f9
    let o := c.sn f.f4
    let e0 := bits o 12 0
    let j := (s.slotOfCl cl).getD 0
    if bits k 43 32 ≠ 0 || bits o 63 29 ≠ 0 || bits o 15 13 ≠ 0 then excIllegal
    else if !(c.isFloat && c.sew = 32) then excVtype
    else if c.vl = 0 then s.retV cl c
    else if 8192 < e0 + c.vl then .exc 29 c.vl
    else
      s.retV cl (c.putFloats f.f24
        ((((vElems (c.vreg f.f19) 32 c.vl).zip (vElems (c.vreg f.f14) 32 c.vl)).zipIdx).map (fun p =>
          let a := c.fval p.1.1
          let b := c.fval p.1.2
          let r := vsrElem (s.seed j) c.pstep (bits k 63 44) (bits k 31 0) (bits o 28 16) (e0 + p.2) a b
          (r, elemFlags [a, b] r false))))

/-- FP32 to BF16 as R132 says, but a zero keeps its sign (R263). -/
def toBf16 (v : Fp) : Nat :=
  match v with
  | .fin a m e =>
    match rneIeee fmtBf16 a m e with
    | .inf b => encodeIeee fmtBf16 (.fin b fmtBf16.maxM fmtBf16.maxE)
    | w => encodeIeee fmtBf16 w
  | w => encodeIeee fmtBf16 w

/-- VXCVT (R263). -/
def execVxcvt (cl : ClusterId) (f : Fmt5) (s : State) : Res :=
  s.issue cl (word5 0x5E f) fun c =>
    let fn := f.f4.toNat
    if 3 ≤ fn || f.f9 ≠ 0 || f.f14 ≠ 0 then excIllegal
    else if !(c.isFloat && c.sew = 32) then excVtype
    else if fn = 0 then
      let xs := vElems (c.vreg f.f19) 32 c.vl
      let rs := xs.map (fun e => toBf16 (fp32 (BitVec.ofNat 32 e)))
      let fl := orFlags ((xs.zip rs).map (fun p => elemFlags [decodeElem 0 p.1] (decodeElem 1 p.2) false))
      s.retV cl { c.setV f.f24 (vPut (c.vreg f.f24) 16 rs) with vflags := c.vflags ||| fl }
    else
      let from_ := if fn = 1 then 0 else 64
      let xs := (List.range c.vl).map (fun i => decodeElem 1 (vElem (c.vreg f.f19) 16 (from_ + i)))
      s.retV cl (c.putFloats f.f24 (xs.map (fun x => (fpRound fmtFp32 x, elemFlags [x] x false))))

/-- VMV (R264). -/
def execVmv (cl : ClusterId) (f : Fmt5) (s : State) : Res :=
  s.issue cl (word5 0x60 f) fun c =>
    let w := c.sew
    match f.f4.toNat with
    | 0 =>
      let i := c.sn f.f14
      if f.f9 ≠ 0 then excIllegal
      else if vlmax c.vtype ≤ i then .exc 29 i
      else s.retV cl (c.setS f.f24 (BitVec.ofNat 64 (vElem (c.vreg f.f19) w i)))
    | 1 =>
      if f.f9 ≠ 0 || f.f19 ≠ 0 then excIllegal
      else s.retV cl (c.setV f.f24 (vPut (c.vreg f.f24) w (List.replicate c.vl (c.scalar f.f14))))
    | 2 =>
      if f.f9 ≠ 0 || f.f14 ≠ 0 then excIllegal
      else s.retV cl (c.setV f.f24 (vPut (c.vreg f.f24) w (vElems (c.vreg f.f19) w c.vl)))
    | 3 =>
      if f.f9 ≠ 0 || f.f14 ≠ 0 || f.f19 ≠ 0 then excIllegal
      else s.retV cl (c.setV f.f24 (vPut (c.vreg f.f24) w (List.range c.vl)))
    | 4 =>
      if f.f9 ≠ 0 || f.f14 ≠ 0 || f.f19 ≠ 0 then excIllegal
      else s.retV cl ({ c with vflags := 0 }.setS f.f24 (BitVec.ofNat 64 c.vflags))
    | _ => excIllegal

/-! Slot access (R276, R277). -/

/-- The checks of VPUTS and VGETS; none where they pass. -/
def slotAccess (s : State) (cl : ClusterId) (c : ClusterSt) (f : Fmt5) : Option Issue :=
  let k := f.f24.toNat % 16
  if 16 ≤ f.f24.toNat || f.f9 ≠ 0 || f.f4 ≠ 0 || 128 ≤ c.sn f.f14 then some excIllegal
  else if !(c.isFloat && c.sew = 32) then some excVtype
  else if c.vl ≠ 64 then some (.exc 29 c.vl)
  else if s.slotBarred cl c k || c.wgqHas k then some (.exc 20 k)
  else if c.mergePending k c.icount || c.readQ.any (fun r => r.slot == k) then some (.wait s)
  else none

/-- The first element index of the half row that S[RS1] names. -/
def halfRow (p : Nat) : Nat := 128 * (p % 64) + 64 * (p / 64 % 2)

/-- VPUTS: the half row of the slot takes VS1's elements; a FREE slot becomes OPEN. -/
def execVputs (cl : ClusterId) (f : Fmt5) (s : State) : Res :=
  s.issue cl (word5 0x64 f) fun c =>
    match slotAccess s cl c f with
    | some e => e
    | none =>
      let k := f.f24.toNat % 16
      let b := halfRow (c.sn f.f14)
      let a := c.aslot k
      let vals := ((vElems (c.vreg f.f19) 32 64).zipIdx).foldl
        (fun m p => sset (fun _ => 0) m (b + p.2) (BitVec.ofNat 32 p.1)) a.vals
      let s1 := s.setCluster cl (c.setA k { a with vals := vals })
      s.vret (if s.slotCode cl k = 0 then s1.setSlotCode cl k 1 else s1) cl false false

/-- VGETS: VD takes the half row. -/
def execVgets (cl : ClusterId) (f : Fmt5) (s : State) : Res :=
  s.issue cl (word5 0x65 f) fun c =>
    match slotAccess s cl c f with
    | some e => e
    | none =>
      let a := c.aslot (f.f24.toNat % 16)
      let b := halfRow (c.sn f.f14)
      s.retV cl (c.setV f.f19 (vPut (c.vreg f.f19) 32
        ((List.range 64).map (fun i => (sget (fun _ => 0) a.vals (b + i)).toNat))))

end Sys2Proof.Machine
end

