-- ==== Sys2Proof/Machine/Shadow.lean ====
section
/-!
DEFINITION. The shadow set (16): areas and staged values, the cross-field checks, arms and their pre-vote, and what a swap does
to a slot.
-/

namespace Sys2Proof.Machine
open Sys2Proof

/-! Areas (R671). -/

/-- The registers with RS fields of an area, in ascending offset. -/
def rsRegs (a : Nat) : List Nat :=
  if a = 16 then [Reg.LAP_CFG, Reg.PCE_CFG, Reg.CRM_CFG, Reg.XLT_TRK 0, Reg.XLT_TRK 1, Reg.XLT_CTX 16, Reg.ACM_CFG, Reg.RES_CFG]
  else [Reg.SHD_SLOT a, Reg.SHD_MEMB a, Reg.PCE_SLOT a, Reg.XLT_CTX a, Reg.RLY_CFG a, Reg.RLY_PLAN a, Reg.RLY_LIST a, Reg.RLY_SCALE a,
    Reg.HRD_SCHED a, Reg.ACM_PEERWIN a, Reg.ACM_JOBMAP a, Reg.NUM_JOB_CFG a, Reg.NUM_JOB_INIT a, Reg.NUM_SEED a, Reg.NUM_DARK_CFG a,
    Reg.NUM_DARK_BASE a, Reg.RES_CKPT_CFG a, Reg.RES_REG a, Reg.RES_PART a]
    ++ (List.range 8).flatMap (fun n => [Reg.CD_BWD_CFG n a, Reg.CD_STASH_WIN n a, Reg.CD_STASH_POOL n a, Reg.CD_STASH_SPILL n a,
      Reg.CD_STASH_LEDGER n a])

/-- Does the staged value of a register differ from live in an RS field? -/
def State.differs (s : State) (off : Nat) : Bool := (s.stagedWord off &&& accMask .rs off) != (s.liveWord off &&& accMask .rs off)

/-- The registers of an area whose staged value differs. -/
def State.changed (s : State) (a : Nat) : List Nat := (rsRegs a).filter s.differs

/-- STATE of an area: 0 CLEAN, 1 STAGED, 2 ARMED, 3 VOTED. -/
def State.areaState (s : State) (a : Nat) : Nat := s.rd (F.SHD_STAT_STATE a)

/-- SHD_STAT_a shows whether a staged value differs (R672); an armed area keeps its state.
[DESIGN CHOICE, notes/assumptions/51.md] -/
def State.showArea (s : State) (a : Nat) : State :=
  if 2 ≤ s.areaState a then s else s.wrB (F.SHD_STAT_STATE a) (!(s.changed a).isEmpty)

/-- An area is no longer armed.
[DEDUCED, notes/assumptions/20.md] -/
def State.disarm (s : State) (a : Nat) : State :=
  ((((s.dropArms 0 a).wr (F.SHD_STAT_STATE a) 0).wr (F.SHD_STAT_JOB a) 0).wr (F.SHD_STAT_TARGET a) 0).showArea a

/-- Nothing is staged in an area. -/
def State.unstage (s : State) (a : Nat) : State :=
  { s with staged := s.staged.filter (fun p => !(rsRegs a).contains p.1) }

/-- An arm of an area is job-scoped (R676). -/
def State.jobScoped (s : State) (a : Nat) : Bool :=
  decide (a < 16) && (s.slotState a == 2 || s.slotState a == 3 || (s.slotState a == 1 && s.srd (F.SHD_SLOT_REQUEST a) != 0))

/-- SRC and JV of an area's records. -/
def State.areaEv (s : State) (a sev code payload : Nat) : Ev :=
  ⟨sev, code, srcModule (if a < 16 then a else 0), if a < 16 then s.jobOf a else none, payload⟩

/-- SHADOW_CHECK_FAIL (0x0110). -/
def State.checkFailEv (s : State) (sev a code : Nat) (atSwap remote : Bool) (first t : Nat) : Ev :=
  s.areaEv a sev 0x0110 (place 4 0 a ||| place 11 5 code ||| place 12 12 (b2n atSwap) ||| place 13 13 (b2n remote)
    ||| place 26 14 first ||| place 90 27 t)

/-- A check fails: the record, the counter and RESULT.
[DEDUCED, notes/assumptions/92.md] -/
def State.checkFail (s : State) (a code : Nat) (atSwap remote : Bool) (first t : Nat) : State :=
  ((s.wr (F.SHD_STAT_RESULT a) code).inc F.SHD_CNT_CHECK_FAIL).emit (s.checkFailEv 1 a code atSwap remote first t)

/-- A job-scoped change that cannot be applied stops the job (R48, R679, R689). -/
def State.checkFatal (s : State) (a code : Nat) (atSwap : Bool) (t : Nat) : State :=
  (((s.disarm a).wr (F.SHD_STAT_RESULT a) code).inc F.SHD_CNT_CHECK_FAIL).failJob a (s.checkFailEv 3 a code atSwap false 8191 t)

/-! Cross-field checks (R691, R692). -/

/-- Does [a, a + n) cross [b, b + m)? -/
def crosses (a n b m : Nat) : Bool := decide (0 < n) && decide (0 < m) && decide (a < b + m) && decide (b < a + n)

/-- Does a range lie wholly in populated memory (R475)? -/
def populated (a n : Nat) : Bool :=
  decide (0 < n) && (if a < 16 * 2 ^ 36 then decide (a / 2 ^ 36 = (a + n - 1) / 2 ^ 36) && decide ((a + n - 1) % 2 ^ 36 < 48 * 2 ^ 30)
    else (a / 2 ^ 40 == 1 || a / 2 ^ 40 == 2) && decide (a / 2 ^ 40 = (a + n - 1) / 2 ^ 40) && decide ((a + n - 1) % 2 ^ 40 < capBytes))

/-- A signed staged field. -/
def State.srdInt (s : State) (f : Fld) : Int := signed f.width (s.srd f)

/-- Is a member of a job a 1T part, as far as its member table at `base` names them (R4)? The part of another module is a free value.
[DESIGN CHOICE, notes/assumptions/63.md] -/
def State.spans1T (s : State) (base members : Nat) : Bool :=
  Config.is1T || (List.range members).any (fun m =>
    let w := s.memNat (base + 2 * m) 2
    bit w 15 && Config.fiIs1T (w % 2 ^ 13))

/-- The limit of the partner region in GiB, of the smallest member of the job that is staged (R4, R696). -/
def State.partLimit (s : State) (a : Nat) : Nat :=
  let high := 2 ≤ s.rd F.STR_ROLE_CLASS
  if s.spans1T (2 ^ 14 * s.srd (F.ACM_JOBMAP_BASE a)) (s.srd (F.SHD_MEMB_MEMBERS a)) then (if high then 514 else 385) else (if high then 1026 else 769)

/-- Check 2 of a slot area: the ranges that the register maps and R169 state of one field; an EMPTY slot accepts reset values (R692).
[DEDUCED, notes/assumptions/47.md] [DEDUCED, notes/assumptions/92.md] -/
def State.rangeBad (s : State) (a : Nat) : Bool :=
  let empty := s.srd (F.SHD_SLOT_REQUEST a) == 0
  let isReset (f : Fld) : Bool := empty && s.srd f == bits (resetWord f.off).toNat f.hi f.lo
  let bad (f : Fld) (lo hi : Nat) : Bool := !(decide (lo ≤ s.srd f) && decide (s.srd f ≤ hi)) && !isReset f
  bad (F.NUM_JOB_CFG_GROWTH a) 1 65535 || bad (F.NUM_DARK_CFG_DARK_PPM a) 1 999999
    || (decide (s.srdInt (F.NUM_JOB_CFG_LS_MIN a) < -32) && !isReset (F.NUM_JOB_CFG_LS_MIN a))
    || (decide (64 < s.srdInt (F.NUM_JOB_CFG_LS_MAX a)) && !isReset (F.NUM_JOB_CFG_LS_MAX a))
    || bad (F.SHD_SLOT_REQUEST a) 0 5 || bad (F.SHD_MEMB_MEMBERS a) 1 8192 || bad (F.NUM_JOB_CFG_RECIPE_SET a) 0 2
    || bad (F.NUM_JOB_CFG_PCM_CAP a) 0 16 || bad (F.NUM_JOB_CFG_DARK_N a) 1 512 || bad (F.NUM_DARK_CFG_ENTRIES a) 1 65535
    || bad (F.RLY_CFG_PLAN_ENTRIES a) 1 4096 || bad (F.RES_REG_ENTRIES a) 1 1024 || bad (F.RES_PART_SIZE_GIB a) 0 (s.partLimit a)
    || (List.range 8).any (fun n => bad (F.CD_BWD_CFG_POLICY n a) 0 2)

/-- Check 12 (R35, R37, R38, R117). -/
def State.partsBad (s : State) (a : Nat) : Bool :=
  let p := s.srd (F.SHD_SLOT_PARTITIONS a)
  let req := s.srd (F.SHD_SLOT_REQUEST a)
  let ps := (List.range 32).filter (fun i => bit p i)
  (List.range 16).any (fun j => j != a && ps.any (fun i => bit (s.rd (F.STR_SLOT_PARTITIONS j)) i))
    || (p == 0 && req != 1)
    || (p != s.rd (F.STR_SLOT_PARTITIONS a) && !(decide (s.slotState a ≤ 1) && req == 1))
    || ps.any (fun i => s.rd (F.CD_PART_AVAIL (i / 4) (i % 4)) == 0)

/-- Check 13. -/
def State.membersBad (s : State) (a : Nat) : Bool :=
  let m := s.srd (F.SHD_MEMB_MODIDX a)
  let e := s.memNat (2 ^ 14 * s.srd (F.ACM_JOBMAP_BASE a) + 2 * m) 2
  decide (s.srd (F.SHD_MEMB_MEMBERS a) ≤ m) || !bit e 15 || e % 8192 != s.rd F.ACM_CFG_FI
    || (s.differs (Reg.SHD_MEMB a) && !(s.slotState a == 0 && s.srd (F.SHD_SLOT_REQUEST a) == 1))

/-- Has the slot a loaded program (check 14)? -/
def SlotSt.loaded (v : SlotSt) : Bool := v.loadQ.isNone && v.prog.isSome

/-- Check 15 (R140, R169). -/
def State.numericsBad (s : State) (a : Nat) : Bool :=
  let lo := s.srdInt (F.NUM_JOB_CFG_LS_MIN a)
  let hi := s.srdInt (F.NUM_JOB_CFG_LS_MAX a)
  let init := s.srdInt (F.NUM_JOB_INIT_LS_INIT a)
  let cap := s.srd (F.NUM_JOB_CFG_PCM_CAP a)
  let ppm := s.srd (F.NUM_DARK_CFG_DARK_PPM a)
  (s.srd (F.NUM_JOB_CFG_RECIPE_SET a) != s.rd (F.NUM_JOB_CFG_RECIPE_SET a) && s.slotState a != 1)
    || !(decide (-32 ≤ lo) && decide (lo ≤ init) && decide (init ≤ hi) && decide (hi ≤ 64))
    || decide (cap < s.srd (F.NUM_JOB_INIT_PCM_G_INIT a)) || decide (cap < s.srd (F.NUM_JOB_INIT_PCM_WG_INIT a))
    || s.srd (F.NUM_JOB_CFG_GROWTH a) == 0 || ppm == 0 || decide (999999 < ppm)
    || !wholeHbm (s.srd (F.NUM_DARK_BASE_BASE a) * 32) (s.srd (F.NUM_DARK_CFG_ENTRIES a) * 32)

/-- The staged partitions of an area on a die. -/
def State.stagedOnDie (s : State) (a n : Nat) : Nat :=
  ((List.range 4).filter (fun m => bit (s.srd (F.SHD_SLOT_PARTITIONS a)) (4 * n + m))).length

/-- The pools of the other slots that hold partitions of a die (R324): HBM pools of every die, and spill pools. -/
def State.otherPools (s : State) (a : Nat) : List (Nat × Nat) :=
  ((List.range 16).filter (· ≠ a)).flatMap (fun j => (s.diesOf j).flatMap (fun n =>
    [(2 ^ 21 * s.rd (F.CD_STASH_POOL_POOL n j), 2 ^ 20 * s.rd (F.CD_BWD_CFG_REGION_MIB n j)),
     (2 ^ 21 * s.rd (F.CD_STASH_SPILL_SPILL n j), 2 ^ 30 * s.rd (F.CD_BWD_CFG_SPILL_GIB n j))]))

/-! The owner of a page (R324, R381). -/

/-- The entries of the mirror table in `frame` of which a byte has been written, in memory or in a dirty line. -/
def State.tableSlots (s : State) (frame : Nat) : List Nat :=
  let inMem := (s.mem.filter (fun c => c.1 / 4096 == frame)).map (fun c => c.1 % 4096 / 8)
  let dirtyLines := (s.lines.filter (·.st == 3)).map (·.line) ++ s.wbs.map (·.2.1)
  let inLine := (dirtyLines.filter (fun l => l / 64 == frame)).flatMap (fun l => (List.range 8).map (fun i => 8 * (l % 64) + i))
  (inMem ++ inLine).dedup

/-- The valid level-0 entries of the tables under `frame`. -/
def State.leaves (s : State) : List Nat → Nat → List Nat
  | [], frame => ((s.tableSlots frame).map (fun k => s.memNat (4096 * frame + 8 * k) 8)).filter (fun e => bit e 0)
  | _ :: ls, frame => (s.tableSlots frame).flatMap (fun k =>
      let e := s.memNat (4096 * frame + 8 * k) 8
      if bit e 0 then s.leaves ls (entryFrame e) else [])

/-- The level-0 entries that map pages of [a, a + n): those of the tables of the enabled job contexts, and of slot j's staged context.
[DESIGN CHOICE, notes/assumptions/48.md] -/
def State.pageEntries (s : State) (j a n : Nat) : List Nat :=
  let roots := ((List.range 16).filter (fun c => s.ctxOn c && c != j)).map (fun c => s.rd (F.XLT_CTX_ROOT c))
  let own := if s.srd (F.XLT_CTX_EN j) = 1 then [s.srd (F.XLT_CTX_ROOT j)] else []
  ((roots ++ own).flatMap (s.leaves [3, 2, 1])).filter (fun e =>
    decide (a / 4096 ≤ entryFrame e) && decide (entryFrame e ≤ (a + n - 1) / 4096))

/-- Does [a, a + n) lie wholly in HBM pages that carry the job's ID (R40, R480)? Some entry of a job's table gives each page the ID,
and none gives it another.
[DESIGN CHOICE, notes/assumptions/48.md] -/
def State.jobHbm (s : State) (j job a n : Nat) : Bool :=
  let es := s.pageEntries j a n
  wholeHbm a n && es.all (fun e => bits e 59 48 == job)
    && (es.map entryFrame).dedup.length == (a + n - 1) / 4096 - a / 4096 + 1

/-- Check 16 (R324).
[DESIGN CHOICE, notes/assumptions/48.md] -/
def State.backwardBad (s : State) (a : Nat) : Bool :=
  let dies := (List.range 8).filter (fun n => decide (0 < s.stagedOnDie a n))
  let cfg (n : Nat) : Nat × Nat × Nat := (s.srd (F.CD_BWD_CFG_POLICY n a), s.srd (F.CD_BWD_CFG_LIFE n a), s.srd (F.CD_BWD_CFG_FLIP_OFFSET n a))
  let pool (n : Nat) : Nat × Nat := (2 ^ 21 * s.srd (F.CD_STASH_POOL_POOL n a), 2 ^ 20 * s.srd (F.CD_BWD_CFG_REGION_MIB n a))
  let spill (n : Nat) : Nat × Nat := (2 ^ 21 * s.srd (F.CD_STASH_SPILL_SPILL n a), 2 ^ 30 * s.srd (F.CD_BWD_CFG_SPILL_GIB n a))
  let win (n : Nat) : Nat × Nat := (2 ^ 21 * s.srd (F.CD_STASH_WIN_BASE n a), 2 ^ 30 * s.srd (F.CD_STASH_WIN_SIZE n a))
  let hit (p : Nat × Nat) (qs : List (Nat × Nat)) : Bool := qs.any (fun q => crosses p.1 p.2 q.1 q.2)
  let others := s.otherPools a
  dies.any (fun n =>
    let r := s.srd (F.CD_BWD_CFG_REGION_MIB n a)
    let sp := spill n
    cfg n != cfg (dies.headD 0) || decide (s.srd (F.CD_BWD_CFG_FLIP_OFFSET n a) < 16)
      || decide (r < 64) || decide (24576 * s.stagedOnDie a n < r) || r % 2 != 0
      || !wholeDieHbm n (pool n).1 (pool n).2 || hit (pool n) others
      || (s.srd (F.CD_BWD_CFG_POLICY n a) == 0 && sp.2 == 0)
      || (sp.2 != 0 && (!wholeCap sp.1 sp.2 || hit sp others || hit sp ((dies.filter (· ≠ n)).map spill)))
      || decide (2 ^ 48 < (win n).1 + (win n).2) || hit (win n) ((dies.filter (· ≠ n)).map win)
      || !s.jobHbm a (s.srd (F.SHD_SLOT_JOB_ID a)) (2 ^ 17 * s.srd (F.CD_STASH_LEDGER_LEDGER n a)) (2 ^ 17))

/-- Check 17 (R381).
[DESIGN CHOICE, notes/assumptions/48.md] -/
def State.relayBad (s : State) (a : Nat) : Bool :=
  let off := s.srd (F.HRD_SCHED_HURDLE_OFFSET a)
  let lead := s.srd (F.HRD_SCHED_DRAIN_LEAD a)
  let pe := s.srd (F.RLY_CFG_PLAN_ENTRIES a)
  let se := s.srd (F.RLY_CFG_SCALE_ENTRIES a)
  let ie := s.srdInt (F.RLY_CFG_INIT_EXP a)
  let m := s.srd (F.SHD_MEMB_MEMBERS a)
  let job := s.srd (F.SHD_SLOT_JOB_ID a)
  !(decide (16 ≤ lead) && decide (lead < off) && decide (off + 48 < 2 ^ 32))
    || pe == 0 || decide (4096 < pe) || !s.jobHbm a job (s.srd (F.RLY_PLAN_PLAN a) * 32) (pe * 32)
    || !s.jobHbm a job (2 ^ 15 * s.srd (F.RLY_LIST_LIST a)) (2 ^ 22)
    || se == 0 || decide (2 ^ 28 - 1 < se)
    || !s.jobHbm a job (4096 * s.srd (F.RLY_SCALE_SCALE a)) (ceilDiv se 4096 * 4096 + se)
    || decide (ie < -127) || decide (119 < ie) || m == 0 || decide (8192 < m) || decide (s.rd F.STR_ROLE_MAX_MODULES < m)

/-- Check 18 and check 7 (R511). -/
def State.ctxBad (s : State) (c : Nat) : Bool :=
  (decide (c < 16) && s.slotState c == 2 && s.differs (Reg.XLT_CTX c)) || !mappable (s.srd (F.XLT_CTX_ROOT c))

/-- Check 20. -/
def State.peerBad (s : State) (a : Nat) : Bool :=
  let b := 2 ^ 21 * s.srd (F.ACM_PEERWIN_BASE a)
  let z := 2 ^ 30 * s.srd (F.ACM_PEERWIN_SIZE a)
  z != 0 && (!populated b z || ((List.range 16).filter (· ≠ a)).any (fun j =>
    crosses b z (2 ^ 21 * s.rd (F.ACM_PEERWIN_BASE j)) (2 ^ 30 * s.rd (F.ACM_PEERWIN_SIZE j))))

/-- The first failing check: 0 when every check passes.
[DEDUCED, notes/assumptions/47.md] -/
def firstCode : List (Nat × Bool) → Nat
  | [] => 0
  | (c, bad) :: rest => if bad then c else firstCode rest

/-- The state pairs of R680. -/
def pairOk (live req : Nat) : Bool :=
  [(0, 0), (0, 1), (1, 1), (1, 2), (1, 0), (2, 2), (3, 3), (2, 5), (4, 0)].contains (live, req)

/-- Does every slot read EMPTY? -/
def State.allEmpty (s : State) : Bool := (List.range 16).all (fun j => s.slotState j == 0)

/-- The checks of area 16.
[DEDUCED, notes/assumptions/47.md] -/
def State.check16 (s : State) : Nat :=
  let bad (f : Fld) (lo hi : Nat) : Bool := decide (s.srd f < lo) || decide (hi < s.srd f)
  let pods := s.srd F.ACM_CFG_PODS
  firstCode [
    (2, bad F.LAP_CFG_ROLE 0 2 || bad F.ACM_CFG_PODS 1 256 || bad F.PCE_CFG_LIMIT_W 1000 6400 || decide (7600 < s.srd F.PCE_CFG_PEAK_W)
      || bad F.PCE_CFG_RAMP 10 640 || bad F.PCE_CFG_THROTTLE_C 80 95 || bad F.PCE_CFG_STRETCH_PPM 10 8000
      || bad F.RES_CFG_TEST_PERIOD 1 4095 || bad F.RES_CFG_FWD_GBS 1 200),
    (3, decide (s.srd F.PCE_CFG_PEAK_W < s.srd F.PCE_CFG_LIMIT_W)),
    (4, decide (32 * pods ≤ s.srd F.ACM_CFG_FI) || decide (s.rd F.STR_ROLE_MAX_MODULES < 32 * pods)
      || (s.differs Reg.ACM_CFG && !((List.range 16).all (fun j => s.slotState j == 0 || s.slotState j == 4)))),
    (5, s.differs Reg.CRM_CFG && !s.allEmpty),
    (6, s.srd (F.XLT_TRK_THRESH 0) == 0 || s.srd (F.XLT_TRK_THRESH 1) == 0),
    (7, s.ctxBad 16)]

/-- The checks of a slot area.
[DEDUCED, notes/assumptions/47.md] -/
def State.checkSlot (s : State) (a : Nat) : Nat :=
  let req := s.srd (F.SHD_SLOT_REQUEST a)
  let live := s.slotState a
  let job := s.srd (F.SHD_SLOT_JOB_ID a)
  firstCode ([(2, s.rangeBad a), (10, !pairOk live req)]
    ++ (if req = 0 then [] else [
      (11, (List.range 16).any (fun j => j != a && s.jobOf j == some job)), (12, s.partsBad a), (13, s.membersBad a)])
    ++ (if req ≤ 1 then [] else [
      (14, live == 1 && req == 2 && (!(s.slot a).loaded || s.srd (F.XLT_CTX_EN a) == 0)), (15, s.numericsBad a), (16, s.backwardBad a),
      (17, s.relayBad a), (18, s.ctxBad a),
      (19, decide (8 < s.srd (F.PCE_SLOT_START a)) || decide (s.srd (F.PCE_SLOT_START a) < s.srd (F.PCE_SLOT_FASTEST a))),
      (20, s.peerBad a)]))

/-- The checks of an area on its staged values and the live values of everything else. -/
def State.checkArea (s : State) (a : Nat) : Nat := if a = 16 then s.check16 else s.checkSlot a

/-- CHECK 1 first. -/
def State.checkBusy (s : State) (a : Nat) : Nat := if 2 ≤ s.areaState a then 1 else s.checkArea a

/-! Swaps (R677 to R680). -/

/-- Set the bits of HRD_ROLE_j (R364). -/
def State.setRole (s : State) (j modidx members : Nat) : State :=
  let n := max 1 members
  let prim (k : Nat) : Bool := decide (k ≤ treeLevels n) && modidx % treeSpan k == 0
  let mirror := s.classX && [1, 2].any (fun k => decide (k < treeLevels n) && decide (nodeHi n k (modidx / treeSpan k) = modidx)
    && decide (nodeLo k (modidx / treeSpan k) ≠ modidx))
  ((((((s.wr (F.HRD_ROLE_MODIDX j) modidx).wr (F.HRD_ROLE_MEMBERS j) members).wr (F.HRD_ROLE_LEVELS j) (treeLevels n)).wrB
    (F.HRD_ROLE_COL1 j) (prim 1)).wrB (F.HRD_ROLE_COL2 j) (prim 2)).wrB (F.HRD_ROLE_ROOT j) (modidx == 0)).wrB (F.HRD_ROLE_MIRROR j) mirror

/-- The slot's RLY_JOB_ID entry (R358, R680). -/
def State.setRelayId (s : State) (j : Nat) (job : Option Nat) : State :=
  let k := j % 4
  let v := match job with | some i => 2 ^ 15 + i | none => 0
  s.setReg (Reg.RLY_JOB_ID (j / 4)) (putBits (s.reg (Reg.RLY_JOB_ID (j / 4))) (16 * k + 15) (16 * k) v)

/-- A partition comes to slot j or leaves it: CDn_PART_q, and pace P8 for a partition of no slot (R633).
[DEDUCED, notes/assumptions/53.md] -/
def State.holdPart (s : State) (p : Nat) (j : Option Nat) : State :=
  let s1 := (s.wrB (F.CD_PART_HELD (p / 4) (p % 4)) j.isSome).wr (F.CD_PART_SLOT (p / 4) (p % 4)) (j.getD 0)
  if j.isSome then s1 else s1.wr (F.CD_PART_PACE (p / 4) (p % 4)) 8

/-- A reserve takes over the logical index of each failed cluster of a partition that enters LOADING (R116). -/
def State.substitute (s : State) (j p : Nat) : State :=
  ((partClusters p).filter (fun c => s.role c == 3 && (s.cluster c).lostIdx != 127)).foldl (fun (s : State) (c : ClusterId) =>
    match (partClusters p).find? (fun d => s.role d == 1) with
    | none => s
    | some d =>
      let l := (s.cluster c).lostIdx
      let s1 := s.setCluster c { s.cluster c with lostIdx := 127 }
      (((s1.wr (F.CL_STATUS_ROLE d.die d.idx) 0).wr (F.CL_STATUS_LOGICAL d.die d.idx) l).showPart p).emit
        ⟨1, 0x0C21, srcOf c.die c.idx, s.jobOf j, place 8 0 c.idx ||| place 17 9 d.idx ||| place 24 18 l⟩) s

/-- NUM_FLAGS, HRD_FLAGS.CLIP and the NF of the job's clusters show the bank of the step in progress (R783). -/
def State.showBanks (s : State) (j : Nat) : State :=
  (s.clustersOf j).foldl (fun (s : State) cl => s.showNf cl j) ((s.showFlags j).showClip j)

/-- A cluster of a partition that a slot takes or gives up holds nothing and reads IDLE.
[DEDUCED, notes/assumptions/53.md] -/
def State.idleCl (s : State) (cl : ClusterId) : State :=
  let c := s.cluster cl
  (((s.setRun cl 0).wr (F.CL_SLOTS_STATE cl.die cl.idx) 0).wr (F.CL_STATUS_NF cl.die cl.idx) 0).putCl cl
    { ClusterSt.init with tested := c.tested, lastTest := c.lastTest, lostIdx := c.lostIdx }

/-- The partitions of slot j become those of the mask `new`.
[DEDUCED, notes/assumptions/53.md] [DEDUCED, notes/assumptions/86.md] -/
def State.setParts (s : State) (j new : Nat) : State :=
  let old := s.rd (F.STR_SLOT_PARTITIONS j)
  let ps := List.range 32
  let gone := ps.filter (fun p => bit old p && !bit new p)
  let come := ps.filter (fun p => bit new p && !bit old p)
  let idle (s : State) (p : Nat) : State := ((partClusters p).filter s.inService).foldl (fun (s : State) c => s.idleCl c) s
  let s1 := (gone.foldl (fun (s : State) p => (idle s p).holdPart p none) s).wr (F.STR_SLOT_PARTITIONS j) new
  come.foldl (fun (s : State) p => idle ((s.holdPart p (some j)).substitute j p) p) s1

/-- The RO counters of a slot clear when it enters LOADING. -/
def State.clearCounters (s : State) (j : Nat) : State :=
  ([Reg.NUM_CNT_CAST j, Reg.NUM_CNT_SCALE j, Reg.NUM_CNT_DARK j, Reg.RLY_CNT j, Reg.HRD_CNT j, Reg.RES_CNT j]
    ++ (List.range 8).map (fun n => Reg.CD_BWD_CNT n j)).foldl (fun (s : State) off => s.setReg off (resetWord off)) s

/-- Key of the mark that a settings record names REGION_MIB of slot j on die n (R779). -/
def regionKey (n j : Nat) : Nat := Reg.CD_BWD_CFG n j + 1

/-- REGION_MIB by default: 6,144 for each partition held (R779). `kept` are the dies on which software staged another value.
[DEDUCED, notes/assumptions/92.md] -/
def State.defaultRegions (s : State) (j : Nat) (kept : List Nat) : State :=
  (List.range 8).foldl (fun (s : State) n =>
    if sget resetWord s.template (regionKey n j) ≠ 0 then s
    else
      let k := ((s.partsOf j).filter (fun p => p / 4 == n)).length
      if k ≠ 0 && kept.contains n then s else s.wr (F.CD_BWD_CFG_REGION_MIB n j) (6144 * k)) s

/-- No page of a stash of slot j stays bound, and the next job's first window is a new one: both ledger banks are zero again on every
die where the slot ran (R292, R297, R300, R302). -/
def State.dropStash (s : State) (j : Nat) : State :=
  let ran := decide (2 ≤ s.slotState j)
  let s1 := (s.diesOf j).foldl (fun (s : State) n =>
    let s1 := (s.wr (F.CD_STASH_STAT_STATE n j) 0).wr (F.CD_STASH_STAT_HIGH n j) 0
    if ran then s1.write (2 ^ 17 * s.rd (F.CD_STASH_LEDGER_LEDGER n j)) (List.replicate (2 ^ 17) 0) else s1) s
  { s1 with stash := s1.stash.filter (fun p => p.1 % 16 ≠ j) }

/-- REGION_MIB reads 0 on each die of which the slot holds no partition, while no settings record names it (R779). -/
def State.clearRegions (s : State) (j : Nat) : State :=
  (List.range 8).foldl (fun (s : State) n =>
    if sget resetWord s.template (regionKey n j) = 0 && (s.partsOf j).all (fun p => p / 4 != n) then s.wr (F.CD_BWD_CFG_REGION_MIB n j) 0
    else s) s

/-- The slot becomes EMPTY: partitions released, RS fields at the template, every trace of the job gone (R549, R664, R680). -/
def State.emptySlot (s : State) (j : Nat) : State :=
  let s1 := (((((s.dropStash j).dropLoad j).dropRots j).setParts j 0).setSlotState j 0).closePrism (· == j) (fun _ => true)
  let t := (s1.forgetVotes (s.rd (F.STR_SLOT_JOB_ID j))).dropAsks j
  let t1 : State := { t with arms := t.arms.filter (fun a => !(decide (1 ≤ a.kind) && decide (a.kind ≤ 3) && a.who == j)) }
  let s2 := (((t1.wr (F.STR_SLOT_ACTIVE j) 0).wr (F.STR_SLOT_JOB_ID j) 0).wr (F.STR_SLOT_PACE j) 0).setRelayId j none
  let s3 := (rsRegs j).foldl (fun (s : State) off =>
    if off = Reg.SHD_SLOT j then s
    else s.setReg off (mergeMask (accMask .rs off) (s.reg off) (sget resetWord s.template off)))
    (((s2.setSlot j SlotSt.init).showBanks j).wr (F.HRD_FLAGS_ABORT j) 0)
  let s4 := s3.defaultRegions j []
  ((s4.unstage j).showArea j)

/-- The slot enters LOADING with its job (R680).
[DEDUCED, notes/assumptions/92.md] -/
def State.loadingSlot (s : State) (j job parts modidx members : Nat) : State :=
  let s1 := ((s.setSlot j SlotSt.init).wr (F.STR_SLOT_ACTIVE j) 1).wr (F.STR_SLOT_JOB_ID j) job
  (((((s1.clearCounters j).setParts j parts).setRole j modidx members).setRelayId j (some job)).showBanks j).setSlotState j 1

/-- Version 0 of every shard is LIVE with epoch 0, version 1 FREE (R309). -/
def State.initEpochs (s : State) (j : Nat) : State :=
  (s.usedShards j).foldl (fun (s : State) k =>
    let n := k.1
    let h := k.2
    ((((s.setShard n j h shardInit).setVer n j h 0 2).setVer n j h 1 0).wr (F.CD_EPOCH_EPOCH n j h) 0).wr (F.CD_EPOCH_WAIT n j h) 0) s

/-- Every cluster of the job begins execution at its entry PC (R241), with its program step at STEP (R224). What counts since the
slot entered RUNNING starts at zero, and CDn_CL_VSTATUS shows the cleared VFLAGS (R243, R266). -/
def State.startClusters (s : State) (j : Nat) : State :=
  (s.clustersOf j).foldl (fun (s : State) (cl : ClusterId) =>
    let c := s.cluster cl
    let s1 := ((s.setCluster cl { c with pstep := s.step j, hcon := 0, held := false }).wr (F.CL_STATUS_PC cl.die cl.idx) c.entry).wr
      (F.CL_PWR_STRETCH cl.die cl.idx) 0
    let s2 := ((s1.showVflags cl).wr (F.CL_VCNT_ISSUED cl.die cl.idx) 0).wr (F.CL_RETIRED_COUNT cl.die cl.idx) 0
    ((s2.showWait cl 0 0 0).setRun cl 1).showCl cl) s

/-- The values that a passed verify kept come after those of R152 (R726). -/
def State.restoreKept (s : State) (j : Nat) : State :=
  match s.rd (F.RES_VERIFY_RESTORE j), (s.slot j).ck.kept with
  | 1, some (clean, g, wg) =>
    ((((s.wr (F.NUM_SCALE_CLEAN j) clean).wr (F.NUM_SCALE_PEND_G j) g).wr (F.NUM_SCALE_PEND_WG j) wg).wr (F.RES_VERIFY_RESTORE j) 0).setSlot j
      { s.slot j with ck := { (s.slot j).ck with kept := none } }
  | _, _ => s

/-- The slot enters RUNNING: scale state, epochs, clusters, schedule, pace (R152, R241, R309, R326, R643). -/
def State.runSlot (s : State) (j : Nat) : State :=
  let ls := s.rd (F.NUM_JOB_INIT_LS_INIT j)
  let g := s.rd (F.NUM_JOB_INIT_PCM_G_INIT j)
  let wg := s.rd (F.NUM_JOB_INIT_PCM_WG_INIT j)
  let st := s.rd (F.NUM_JOB_INIT_STEP_INIT j)
  let pace := s.rd (F.PCE_SLOT_START j)
  let s1 := s.setReg (Reg.NUM_SCALE j) (BitVec.ofNat 64 (place 63 56 ls ||| place 55 48 ls ||| place 47 43 g ||| place 42 38 wg
    ||| place 37 33 g ||| place 32 28 wg))
  let s2 := ((((s1.wr (F.NUM_STEP_STEP j) st).wr (F.HRD_FLAGS_ABORT j) 0).wr (F.HRD_RESULT_DELTA j) 0).wr (F.PCE_SLOT_PROPOSED j) 0).wr (F.PCE_SLOT_LIVE j) pace
  let s3 := (s2.wr (F.STR_SLOT_PACE j) pace).setSchedule j s.now
  let s4 := (s.partsOf j).foldl (fun (s : State) p => s.wr (F.CD_PART_PACE (p / 4) (p % 4)) pace) s3
  let s5 := s4.setSlot j { s4.slot j with
    startStep := st, seed := (s.reg (Reg.NUM_SEED j)).toNat, marked := false, drained := false, resolved := false, rlap := 0, flipLap := none, flipDone := false, outMsg := none,
    outLate := none, paceMsg := none, paceAt := none, relay := ⟨[], [], [], [], [], [], []⟩ }
  let s6 := { (s5.forgetVotes (s.rd (F.STR_SLOT_JOB_ID j))).dropAsks j with ties := s5.ties.filter (fun t => t.1 / 2048 / 8 ≠ j) }
  ((((s6.restoreKept j).showBanks j).setSlotState j 2).initEpochs j).startClusters j

/-- A swap of a slot area: its staged fields are live, and R680 says what else happens.
[DEDUCED, notes/assumptions/74.md] [DEDUCED, notes/assumptions/86.md] -/
def State.swapSlot (s : State) (j : Nat) : State :=
  let req := s.srd (F.SHD_SLOT_REQUEST j)
  let live := s.slotState j
  let job := s.srd (F.SHD_SLOT_JOB_ID j)
  let parts := s.srd (F.SHD_SLOT_PARTITIONS j)
  let kept := (List.range 8).filter (fun n => s.srd (F.CD_BWD_CFG_REGION_MIB n j) ≠ s.rd (F.CD_BWD_CFG_REGION_MIB n j))
  let oldOff := s.rd (F.HRD_SCHED_HURDLE_OFFSET j)
  let fields := ((rsRegs j).filter (· ≠ Reg.SHD_SLOT j)).foldl (fun (s : State) off =>
    s.setReg off (mergeMask (accMask .rs off) (s.reg off) (s.stagedWord off))) s
  let s1 := fields.unstage j
  let newOff := s1.rd (F.HRD_SCHED_HURDLE_OFFSET j)
  let partsNew := parts ≠ s.rd (F.STR_SLOT_PARTITIONS j)
  let s2 := if live = 2 && req = 2 && oldOff ≠ newOff && !(s.slot j).marked then s1.wr (F.HRD_MARK_H j) (s.hMark j + newOff - oldOff) else s1
  let s3 :=
    if live ≠ 0 && req = 0 then s2.emptySlot j
    else if live = 0 && req = 1 then s2.loadingSlot j job parts (s.srd (F.SHD_MEMB_MODIDX j)) (s.srd (F.SHD_MEMB_MEMBERS j))
    else if live = 1 && req = 1 then
      ((if partsNew then s2.setParts j parts else s2).wr (F.STR_SLOT_JOB_ID j) job).setRelayId j (some job)
    else if live = 1 && req = 2 then (s2.wr (F.STR_SLOT_JOB_ID j) job).runSlot j
    else if req = 5 then s2.setSlotState j 5
    else s2
  (if req = 1 && partsNew then s3.defaultRegions j kept else s3).clearRegions j

/-- A swap of area 16: LAP_CFG.ROLE takes effect as R781 says, a master whose REF_EN is cleared is no longer disciplined (R58, R61), and a
new ROOT of context 16 is a shootdown of it, as if commanded (R500, R511). -/
def State.swapModule (s : State) : State :=
  let role := s.rd F.LAP_CFG_ROLE
  let root := s.rd (F.XLT_CTX_ROOT 16)
  let s1 := (((rsRegs 16).foldl (fun (s : State) off =>
    s.setReg off (mergeMask (accMask .rs off) (s.reg off) (s.stagedWord off))) s).unstage 16).showFabric
  let s2 := if s1.rd F.LAP_CFG_ROLE ≠ role && decide (6 ≤ s1.rd F.STR_START_STATE) && decide (s1.rd F.STR_START_STATE ≤ 8) then
    s1.roleChange (s1.rd F.LAP_CFG_ROLE) else s1
  let s2 := if s2.usesRef && s2.rd F.LAP_CFG_REF_EN = 0 then s2.wr F.LAP_STATUS_REFD 0 else s2
  if s2.rd (F.XLT_CTX_ROOT 16) ≠ root then s2.commandSd ⟨0, false, 16, 0, 2 ^ 36, 0, 0, s.now⟩ else s2

/-- The swap of an area, with SHADOW_APPLIED. -/
def State.swapArea (s : State) (a : Nat) (job now_ : Bool) (t : Nat) : State :=
  let n := (s.changed a).length
  let s1 := if a = 16 then s.swapModule else s.swapSlot a
  let s2 := (s1.disarm a).inc F.SHD_CNT_SWAPS
  s2.emit (s2.areaEv a 0 0x0111 (place 4 0 a ||| place 5 5 (b2n job) ||| place 6 6 (b2n now_) ||| place 70 7 t ||| place 86 71 (satTo 16 n)))

/-! The pre-vote (R681 to R690). -/

/-- The agreement digest of an area's staged values (R681).
[DESIGN CHOICE, notes/assumptions/51.md] -/
def State.agreement (s : State) (a : Nat) : Nat :=
  let n := ((List.range 8).find? (fun n => decide (0 < s.stagedOnDie a n))).getD 0
  let word (fs : List Fld) : List Byte := leBytes 8 (fs.foldl (fun w f => w ||| place f.hi f.lo (s.srd f)) 0)
  let whole (off : Nat) : List Byte := leBytes 8 (s.stagedWord off &&& accMask .rs off).toNat
  ofLe ((sha256 (word [F.SHD_SLOT_REQUEST a, F.SHD_SLOT_JOB_ID a] ++ word [F.SHD_MEMB_MEMBERS a]
    ++ word [F.PCE_SLOT_START a, F.PCE_SLOT_FASTEST a] ++ word [F.RLY_CFG_INIT_EXP a, F.RLY_CFG_PLAN_ENTRIES a, F.RLY_CFG_SCALE_ENTRIES a]
    ++ word [F.HRD_SCHED_HURDLE_OFFSET a, F.HRD_SCHED_DRAIN_LEAD a] ++ whole (Reg.NUM_JOB_CFG a) ++ whole (Reg.NUM_JOB_INIT a)
    ++ whole (Reg.NUM_SEED a) ++ word [F.NUM_DARK_CFG_DARK_PPM a] ++ word [F.CD_BWD_CFG_FLIP_OFFSET n a])).take 8)

/-- A pre-vote message (R682).
[DESIGN CHOICE, notes/assumptions/51.md] -/
def preMsg (type job level sender t : Nat) (x : Tally) (absent : Nat) : Msg :=
  (msgOf 0x40 [(0, 1, type), (1, 2, job), (3, 1, level), (4, 2, sender), (6, 1, x.fail), (8, 8, t), (0x10, 8, x.lo), (0x18, 8, x.hi),
    (0x20, 2, x.loIdx), (0x22, 2, x.hiIdx), (0x24, 2, x.firstFail), (0x26, 2, x.covered), (0x28, 2, absent)]).withCrc 0x3C

/-- SHD_VOTE_j holds the last SDEC, and SHD_CNT.VOTE_FAIL counts the failing ones (R688). -/
def State.showDecision (s : State) (j : Nat) (m : Msg) : State :=
  let code := m.byte 6
  let s1 := ((((((s.wrB (F.SHD_VOTE_PASS j) (code == 0)).wr (F.SHD_VOTE_FAIL j) code).wr (F.SHD_VOTE_FIRST_FAIL j) (m.le 0x24 2)).wr
    (F.SHD_VOTE_LO_IDX j) (m.le 0x20 2)).wr (F.SHD_VOTE_HI_IDX j) (m.le 0x22 2)).wr (F.SHD_VOTE_ABSENT j) (m.le 0x28 2))
  if code = 0 then s1 else s1.inc F.SHD_CNT_VOTE_FAIL

/-- The member takes the decision on its own arm for that T (R688). -/
def State.holdDecision (s : State) (j : Nat) (m : Msg) : State :=
  let t := m.le 8 8
  let s1 := s.showDecision j m
  if s.areaState j ≠ 2 || s.rd (F.SHD_STAT_JOB j) = 0 || !(s.arms.any (fun a => a.kind == 0 && a.who == j && a.t == t)) then s1
  else if m.byte 6 = 0 then (s1.wr (F.SHD_STAT_STATE j) 3).wr (F.SHD_STAT_RESULT j) 0
  else (s1.disarm j).checkFail j (m.byte 6) false true (m.le 0x24 2) t

/-- The tree of a pre-vote: the primary tree, one route (R683). -/
def State.preVote (_s : State) (j t : Nat) : VoteSpec where
  kind := 0
  slot := j
  key := t
  base := t
  mirror := false
  routes := 1
  part := fun s k x => preMsg 0x77 (s.rd (F.STR_SLOT_JOB_ID j)) k (s.modIdx j) t x 0
  decide_ := fun s x =>
    let n := s.members j
    let code := if x.firstFail ≠ 8191 then x.fail else if x.covered ≠ n then 21 else if x.lo ≠ x.hi then 22 else 0
    let m := preMsg 0x78 (s.rd (F.STR_SLOT_JOB_ID j)) (treeLevels n) (s.modIdx j) t { x with fail := code } (n - x.covered)
    let v : VoteSpec := ⟨0, j, t, t, false, 1, fun _ _ _ => m, fun s _ => s⟩
    (s.voteDown v m).holdDecision j m

/-- Does the module take part in pre-votes of slot j's job? -/
def State.inPre (s : State) (j : Nat) : Bool := s.slotState j == 1 || s.slotState j == 2 || s.slotState j == 3

/-- The member's SVOTE for lap t, with the code of its local check (R682, R683).
[DEDUCED, notes/assumptions/50.md] -/
def State.sendSvote (s : State) (a t code : Nat) : State :=
  let me := s.modIdx a
  let dig := s.agreement a
  s.voteSend (s.preVote a t) (preMsg 0x76 (s.rd (F.STR_SLOT_JOB_ID a)) 0 me t
    { Tally.zero with lo := dig, hi := dig, loIdx := me, hiIdx := me, fail := code, firstFail := if code = 0 then 8191 else me, covered := 1 } 0)

/-- A pre-vote message for a slot that holds the job. -/
def State.preMsgFor (s : State) (m : Msg) (k : Nat → State) : Res :=
  match s.slotOfJob (voteJob m) with
  | some j => if voteGood 0 m && s.inPre j then ok (k j) else ok s
  | none => ok s

/-- SVOTE_RECEIVE (R684, R685). -/
def execSvoteReceive (m : Msg) (s : State) : Res :=
  s.preMsgFor m fun j => s.voteTake (s.preVote j (voteKey 0 m)) 1 m

/-- SPART_RECEIVE (R684, R685). -/
def execSpartReceive (m : Msg) (s : State) : Res :=
  s.preMsgFor m fun j => s.voteTake (s.preVote j (voteKey 0 m)) (m.byte 3 + 1) m

/-- SDEC_RECEIVE: the decision goes to the children, and keeps or ends the member's arm (R688). -/
def execSdecReceive (m : Msg) (s : State) : Res :=
  s.preMsgFor m fun j =>
    if s.modIdx j = 0 then s
    else (s.voteDown (s.preVote j (voteKey 0 m)) (resend 0 (s.modIdx j) m)).holdDecision j m

/-- PREVOTE_COLLECTOR_CLOSE (R684). -/
def execPrevoteCollectorClose (job t level : Nat) (s : State) : Res :=
  match s.slotOfJob job with
  | some j => if s.inPre j then ok (s.voteShut (s.preVote j t) level) else ok s
  | none => ok s

/-- PREVOTE_LATE: no SDEC at T − 16 (R689). -/
def execPrevoteLate (a : Nat) (s : State) : Res :=
  match s.arms.find? (fun x => x.kind == 0 && x.who == a && x.job) with
  | some x => if s.areaState a = 2 && decide (x.t ≤ s.now + 16) then ok (s.checkFatal a 23 false x.t) else ok s
  | none => ok s

/-! SHD_CTL (R674, R675, R678). -/

/-- SHD_CHECK. -/
def execShdCheck (a : Nat) (s : State) : Res :=
  if 16 < a then ok s
  else
    let c := s.checkBusy a
    if c = 0 then ok (s.wr (F.SHD_STAT_RESULT a) 0) else ok (s.checkFail a c false false 8191 0)

/-- The arm of an area whose checks pass (R675, R676, R683, R690).
[DEDUCED, notes/assumptions/50.md] [DEDUCED, notes/assumptions/92.md] -/
def State.armArea (s : State) (a t : Nat) : State :=
  let job := s.jobScoped a
  let s1 := (((s.addArm ⟨0, a, t, job⟩).wr (F.SHD_STAT_STATE a) 2).wrB (F.SHD_STAT_JOB a) job).wr (F.SHD_STAT_TARGET a) (t % 2 ^ 40)
  let s2 := s1.wr (F.SHD_STAT_RESULT a) 0
  if !job then s2
  else
    let s3 := s2.wr (F.SHD_DIGEST_DIGEST a) (s2.agreement a)
    if s.members a = 1 then s3.wr (F.SHD_STAT_STATE a) 3 else s3.sendSvote a t 0

/-- An arm that is not accepted: a job-scoped one stops its job (R79, R81, R675).
[DEDUCED, notes/assumptions/49.md] -/
def State.armRefused (s : State) (a t reason : Nat) : State :=
  let job := s.jobScoped a
  let s1 := s.latchReject reason 0 t (if job then s.rd (F.STR_SLOT_JOB_ID a) else 0)
  if job then s1.failJob a (armRejected 3 reason 0 t (s.jobOf a))
  else s1.emit (armRejected 1 reason 0 t none)

/-- SHD_ARM.
[DEDUCED, notes/assumptions/49.md] -/
def execShdArm (a : Nat) (s : State) : Res :=
  let t := s.rd F.SHD_ARM_T_T
  if 16 < a then ok s
  else
    let c := s.checkBusy a
    let job := s.jobScoped a
    let why := s.armReason t true (if job then 64 else 16)
    if c ≠ 0 then
      let s1 := s.checkFail a c false false 8191 t
      if c ≠ 1 && job && why.isNone && s.members a ≠ 1 then ok (s1.sendSvote a t c) else ok s1
    else match why with
      | some r => ok (s.armRefused a t r)
      | none => ok (s.armArea a t)

/-- SHD_WITHDRAW: a module-scoped arm, up to T − 16 (R80).
[DEDUCED, notes/assumptions/20.md] -/
def execShdWithdraw (a : Nat) (s : State) : Res :=
  match s.arms.find? (fun x => x.kind == 0 && x.who == a && !x.job) with
  | some x => if s.now + 16 ≤ x.t then ok (s.disarm a) else ok s
  | none => ok s

/-- SHD_DISCARD. -/
def execShdDiscard (a : Nat) (s : State) : Res :=
  if 16 < a || 2 ≤ s.areaState a then ok s else ok ((s.unstage a).showArea a)

/-- SHD_APPLY_NOW: area 16, while the lap clock is UNLOCKED or ACQUIRING and every slot is EMPTY (R678).
[DEDUCED, notes/assumptions/92.md] -/
def execShdApplyNow (a : Nat) (s : State) : Res :=
  if a ≠ 16 then ok s
  else
    let c := if 2 ≤ s.areaState 16 then 1 else if 2 ≤ s.rd F.LAP_STATUS_STATE || !s.allEmpty then 2 else s.check16
    if c = 0 then ok ((s.wr (F.SHD_STAT_RESULT 16) 0).swapArea 16 false true s.now)
    else ok (s.checkFail 16 c false false 8191 0)

/-- The mark that was withheld before a swap of the role leaves after all, since the swap has failed (R60, R781). -/
def State.releaseMark (s : State) : State :=
  if s.lap.withheld then { s.sendMarks with lap := { s.sendMarks.lap with withheld := false, takeoverLeft := s.lap.takeoverLeft - 1 } } else s

/-- SHADOW_SWAP, after every commit or skip of the lap (R47): the areas armed for this lap, area 16 first, each checked against the live state before it swaps (R677, R679). -/
def execShadowSwap (s : State) : Res :=
  let due := (16 :: List.range 16).filter (fun a => (s.due 0 a).isSome && (s.rd (F.SHD_STAT_JOB a) == 0 || s.areaState a == 3))
  if due.isEmpty || s.stopped || !s.turn 2 then ok s
  else
    ok (due.foldl (fun (s : State) a =>
      let job := s.rd (F.SHD_STAT_JOB a) == 1
      let c := s.checkArea a
      if c = 0 then s.swapArea a job false s.now
      else if job then s.checkFatal a c true s.now
      else
        let t := (s.disarm a).checkFail a c true false 8191 s.now
        if a = 16 then t.releaseMark else t) s).latch

/-! Draining (R549, R38). -/

/-- Is work of a draining slot still outstanding: a started command of a queue bound to it, enabled or
not, a Relay block, or a push of its step?
[DEDUCED, notes/assumptions/77.md] -/
def State.draining (s : State) (j : Nat) : Bool :=
  ((List.range 256).filter (fun q => s.rd (F.CPE_QBIND_CTX q) == j)).any (fun q => !((s.queue q).cmds.filter (fun c => decide (2 ≤ c.stage))).isEmpty || !(s.queue q).done.isEmpty)
    || !(s.relay j).sent.isEmpty
    || (s.clustersOf j).any (fun cl => (s.cluster cl).push.any (fun e => e.pstep == s.step j))

/-- SLOT_DRAIN_COMPLETE.
[DEDUCED, notes/assumptions/77.md] -/
def execSlotDrainComplete (j : Nat) (s : State) : Res :=
  if s.slotState j = 5 && !s.draining j && !s.stopped then ok (s.emptySlot j) else ok s

end Sys2Proof.Machine
end

