-- ==== Sys2Proof/Machine/Power.lean ====
section
/-!
DEFINITION. Power, pace and temperature (15): the power sample and the fast limiter, power-offs, droop and thermal holds, and
the Pacer: its proposals at a pace mark, the pace vote and the pace change.
-/

namespace Sys2Proof.Machine
open Sys2Proof

/-! Power-offs (R620, R621, R647, R668, R746, R747). -/

/-- Registers that the module still answers with its regulators off (R760), and those of the standby domain and of R474.
[DEDUCED, notes/assumptions/55.md] -/
def keptOff : List Nat :=
  [Reg.STR_ID, Reg.STR_START, Reg.STR_IMAGE, Reg.STR_BUILD, Reg.STR_FUSE, Reg.STR_PINS, Reg.CRM_STOP, Reg.CRM_STOP_LAP,
    Reg.CRM_STOP_ADDR, Reg.MON_TRIP]

/-- The registers of `offs` keep in `t` the values they have in `s`.
[DEDUCED, notes/assumptions/55.md] -/
def State.carry (s : State) (offs : List Nat) (t : State) : State :=
  offs.foldl (fun (t : State) o => t.setReg o (s.reg o)) t

/-- Every regulator but the standby domain's is off: whatever the module reset domain held is gone, but for R760's registers and
the records that wait in the holding store.
[DEDUCED, notes/assumptions/55.md] -/
def State.regulatorsOff (s : State) : State :=
  s.carry keptOff ({ State.reset with
    pending := s.pending, free := s.free, out := s.out, ring := s.ring, mrst := s.mrst, standby := s.standby, jtag := s.jtag,
    tripped := s.tripped, imgDigest := s.imgDigest, spdm := s.spdm, image := [] } : State)

/-- A power-off: MON_TRIP latches it, PWRGD falls and THERMTRIP_N is asserted, with its platform event (R757).
[DEDUCED, notes/assumptions/55.md] -/
def State.powerOff (s : State) (cause sensor reading : Nat) : State :=
  let s1 := s.setReg Reg.MON_TRIP (BitVec.ofNat 64 (place 63 63 1 ||| place 62 61 cause ||| place 60 51 sensor ||| place 50 39 reading
    ||| place 38 0 s.now))
  let s2 := ((s1.pin F.STR_PINS_PWRGD 0 false).pin F.STR_PINS_THERMTRIP 1 true).send (.pldmEvent 0x0308)
  ({ s2 with tripped := true } : State).regulatorsOff

/-! Limits (R621 to R623). -/

/-- Converters that have failed. -/
def State.convFailed (s : State) : Nat := s.rd F.PCE_STATUS_CONV_FAILED

/-- The sustained limit of R621 with `n` converters failed. -/
def State.susW (s : State) (n : Nat) : Nat :=
  let w := s.rd F.PCE_CFG_LIMIT_W
  if n ≤ 1 then w else if n = 2 then min w 5600 else 0

/-- The peak limit of R621. -/
def State.peakW (s : State) (n : Nat) : Nat :=
  let w := s.rd F.PCE_CFG_PEAK_W
  if n = 0 then w else if n = 1 then min w 7200 else if n = 2 then min w 6200 else 0

/-- Sum of a list of numbers. -/
def sumOf (l : List Nat) : Nat := l.foldl (· + ·) 0

/-- The mean of the first `n` entries of a list. -/
def meanOf (n : Nat) (l : List Nat) : Nat := sumOf (l.take n) / max 1 (min n l.length)

/-- The effective sustained limit: the voltage is averaged over the window (R622).
[PRESUMED, notes/assumptions/10.md] -/
def State.effLimit (s : State) : Nat :=
  let mv := s.power.samples.map (fun (x : Nat × Nat × Nat) => x.2.1)
  let w := s.susW s.convFailed
  if mv.isEmpty then w else min w (meanOf 4194 mv * 1455 / 10000)

/-- The ceilings for the next sample, each with its code: 0 peak, 1 sustained, 2 ramp, 3 current (R622, R623, R626).
[PRESUMED, notes/assumptions/10.md] [DEDUCED, notes/assumptions/56.md] -/
def State.ceilings (s : State) (mv : Nat) : List (Nat × Int) :=
  let p := s.power.samples.map (fun (x : Nat × Nat × Nat) => x.1)
  let peak := s.peakW s.convFailed
  let peakI := 1727 * mv / 10000
  let sus := s.susW s.convFailed
  let eff := s.effLimit
  let cPeak : Int := (min peak peakI * 1000 : Nat) - (sumOf (p.take 999) : Nat)
  let cSus : Int := (4194 * eff : Nat) - (sumOf (p.take 4193) : Nat)
  let ramp := s.rd F.PCE_CFG_RAMP * 10
  let rises := (p.take 1000).zipIdx.map (fun (x : Nat × Nat) => x.1 + ramp * (x.2 + 1) / 1000)
  let cRamp : Int := match rises with | [] => cPeak | a :: l => (l.foldl min a : Nat)
  [(if peakI < peak then 3 else 0, cPeak), (if eff < sus then 3 else 1, cSus), (2, cRamp)]

/-- The lowest ceiling.
[DEDUCED, notes/assumptions/56.md] -/
def lowest : List (Nat × Int) → Nat × Int
  | [] => (0, 0)
  | a :: l => l.foldl (fun (a b : Nat × Int) => if b.2 < a.2 then b else a) a

/-! The power sample (R617 to R629). -/

/-- The RUNNING slots. -/
def State.runningSlots (s : State) : List Nat := (List.range 16).filter (fun j => s.slotState j == 2)

/-- Slots that a sensor constrains: with partitions on its die, or RUNNING ones where it lies on a host or I/O die. -/
def State.sensorSlots (s : State) (n : Nat) : List Nat :=
  s.runningSlots.filter (fun j => decide (512 ≤ n) || (s.diesOf j).contains (n / 64))

/-- Does a fast hold cap slot j: one that lasts, of a sensor that constrains it, or one from which g still rises (R627, R647)?
[DEDUCED, notes/assumptions/56.md] -/
def State.isCapped (s : State) (j : Nat) : Bool := s.power.capped.contains j || s.power.hot.any (fun n => (s.sensorSlots n).contains j)

/-- The level g at which a slot issues: the limiter's, and the level of a fast hold (R627, R647).
[DEDUCED, notes/assumptions/56.md] -/
def State.slotG (s : State) (j : Nat) : Nat :=
  if s.isCapped j then min s.power.g s.power.cap else s.power.g

/-- PCE_STATUS.G shows the least level of any RUNNING slot.
[DEDUCED, notes/assumptions/57.md] -/
def State.showG (s : State) : State := s.wr F.PCE_STATUS_G (s.runningSlots.foldl (fun g j => min g (s.slotG j)) s.power.g)

/-- Cluster clock of slot j in MHz. -/
def State.slotMHz (s : State) (j : Nat) : Nat := s.rd (F.PCE_TABLE_FREQ_MHZ (s.rd (F.PCE_SLOT_LIVE j)))

/-- The readings themselves: the monitors and the energies of the interval (R617, R647).
[DEDUCED, notes/assumptions/59.md] -/
def State.takeReadings (s : State) (r : PowerReadings) : State :=
  let pw := s.power
  let inW := sumOf (r.converters.map (fun x => x.2.2.2))
  let ca := sumOf (r.converters.map (fun x => x.2.1))
  let samples := (((inW, r.inputMv, ca) :: pw.samples).take 4193)
  let w := samples.map (fun (x : Nat × Nat × Nat) => x.1)
  let s1 := { s with power := { pw with
    samples := samples
    railE := r.rails.zipIdx.foldl (fun e (x : (Nat × Nat × Nat) × Nat) =>
      sset (fun _ => 0) e x.2 (sget (fun _ => 0) e x.2 + x.1.2.2)) pw.railE
    inE := pw.inE + inW
    outE := pw.outE + sumOf (r.rails.map (fun x => x.2.2))
    count := pw.count + 1
    peak := max pw.peak (meanOf 1000 w)
    tMax := r.temps.foldl (fun e (x : Nat × Nat) => sset (fun _ => 0) e x.1 (max x.2 (sget (fun _ => 0) e x.1))) pw.tMax
    vMin := r.volts.foldl (fun e (x : Nat × Nat) => sset (fun _ => 4095) e x.1 (min x.2 (sget (fun _ => 4095) e x.1))) pw.vMin
    lastMv := r.inputAvgMv } }
  let s2 := r.converters.zipIdx.foldl (fun (s : State) (x : (Nat × Nat × Nat × Nat) × Nat) =>
    if x.2 < 8 then ((s.wr (F.MON_BUS_IN_MV x.2) x.1.1).wr (F.MON_BUS_IN_CA x.2) x.1.2.1).wr (F.MON_BUS_OUT_W x.2) x.1.2.2.1 else s) s1
  let s3 := r.rails.zipIdx.foldl (fun (s : State) (x : (Nat × Nat × Nat) × Nat) =>
    if x.2 < 74 then ((s.wr (F.MON_RAIL_MV x.2) x.1.1).wr (F.MON_RAIL_DA x.2) x.1.2.1).wr (F.MON_RAIL_W x.2) x.1.2.2 else s) s2
  let s4 := r.temps.foldl (fun (s : State) (x : Nat × Nat) => if x.1 < 640 then s.wr (F.MON_TEMP_TEMP x.1) x.2 else s) s3
  let s5 := r.volts.foldl (fun (s : State) (x : Nat × Nat) => if x.1 < 96 then s.wr (F.MON_VMON_MV x.1) x.2 else s) s4
  (((s5.wr F.MON_INPUT_MV r.inputAvgMv).wr F.MON_INPUT_CA (meanOf 1000 (samples.map (fun (x : Nat × Nat × Nat) => x.2.2)))).wr
    F.MON_INPUT_W (meanOf 1000 w)).wr F.PCE_STATUS_EFF_LIMIT_W s5.effLimit

/-- The fast limiter (R626, R627, R629). The level that brings the power under a ceiling depends on loads that no reading gives,
and so does the moment at which a ceiling allows one step more: both are free within R627's bounds.
[DEDUCED, notes/assumptions/56.md] -/
def State.fastLimit (s : State) (mv predicted inW : Nat) : State :=
  let pw := s.power
  let low := lowest (s.ceilings mv)
  let high := decide (low.2 < (predicted : Int)) && !s.runningSlots.isEmpty
  let cap := if pw.hot.isEmpty then min 16 (pw.cap + 1) else pw.cap
  let hold : List Nat := if cap = 16 then [] else s.runningSlots.filter s.isCapped
  let pw1 : PowerSt :=
    if pw.stretched then { pw with stretched := false, g := s.freeNat 0 % 17 }
    else if high && pw.g = 16 then { pw with stretched := true, why := low.1 }
    else if high then { pw with g := s.freeNat 0 % max 1 pw.g, why := low.1 }
    else { pw with g := min 16 (pw.g + s.freeNat 0 % 2) }
  let s1 := ({ s with power := { pw1 with cap := cap, capped := hold, gMin := min pw1.gMin pw1.g } } : State).showG
  let thr := decide (s1.rd F.PCE_STATUS_G < 16)
  let s2 : State := if thr then
      ({ s1 with power := { s1.power with thr := s1.power.thr + 1 } }).inc F.PCE_CNT_THROTTLE_US
    else s1
  let s3 := s2.runningSlots.foldl (fun (s : State) j =>
    let counted := if s.power.why = 2 then (if s.isCapped j then 16 - s.power.cap else 0) else 16 - s.slotG j
    s.setSlot j { s.slot j with throttled := (s.slot j).throttled + s.slotMHz j * (s.clustersOf j).length * counted / 16 }) s2
  let s4 := if s3.power.g < 16 && !bit s3.power.ceil s3.power.why then
      ({ s3 with power := { s3.power with ceil := s3.power.ceil ||| 2 ^ s3.power.why } } : State).emit
        ⟨1, 0x0302, srcModule 0, none, place 1 0 s3.power.why ||| place 6 2 s3.power.gMin ||| place 38 7 s3.power.thrPrev ||| place 54 39 inW⟩
    else s3
  s4.tick

/-- POWER_SAMPLE: one microsecond (R617, R620, R626 to R629).
[DESIGN CHOICE, notes/assumptions/3.md] -/
def execPowerSample (r : PowerReadings) (s : State) : Res :=
  if !s.rails then ok s
  else
    let s1 := s.takeReadings r
    let mv := r.inputAvgMv
    if mv < 40000 || 58000 < mv then ok (s1.powerOff 1 0 (mv / 100))
    else
      let s2 := if mv < 44000 || 56000 < mv then
          s1.noteOnce 13 0 1 (fun _ => ⟨2, 0x0306, srcModule 0, none, place 15 0 mv ||| place 16 16 (b2n (mv < 44000)) ||| place 17 17 (b2n (56000 < mv))⟩)
        else s1
      ok (s2.fastLimit r.inputMv r.predictedW (sumOf (r.converters.map (fun x => x.2.2.2))))

/-- CONVERTER_FAULT: bus converter k fails (R621). -/
def execConverterFault (k : Nat) (s : State) : Res :=
  if !s.rails || 8 ≤ k || s.rd (F.MON_BUS_OK k) = 0 then ok s
  else
    let n := s.convFailed + 1
    let s1 := (s.wr (F.MON_BUS_OK k) 0).wr F.PCE_STATUS_CONV_FAILED n
    let s2 := (s1.wr F.PCE_STATUS_EFF_LIMIT_W s1.effLimit).emit ⟨2, 0x0307, srcModule 0, none,
      place 2 0 k ||| place 6 3 n ||| place 22 7 (s1.peakW n) ||| place 38 23 (s1.susW n)⟩
    ok (if 3 ≤ n then s2.powerOff 2 0 (s.power.lastMv / 100) else s2)

/-! Droop (R645). -/

/-- DROOP_DETECT: a cluster's detector stretches its clock. -/
def execDroopDetect (cl : ClusterId) (s : State) : Res :=
  if s.power.droops.contains (clKey cl) then ok s
  else ok (({ s with power := { s.power with droops := s.power.droops ++ [clKey cl] } } : State).inc (F.CL_PWR_DROOPS cl.die cl.idx))

/-- DROOP_RECOVERED: the supply has recovered after at least 8 stretched cycles. -/
def execDroopRecovered (cl : ClusterId) (cycles : Nat) (s : State) : Res :=
  if !s.power.droops.contains (clKey cl) || cycles < 8 then ok s
  else
    let s1 := ({ s with power := { s.power with droops := s.power.droops.filter (· ≠ clKey cl) } } : State).add
      (F.CL_PWR_STRETCH cl.die cl.idx) cycles
    match s.slotOfCl cl with
    | some j => ok (s1.setSlot j { s1.slot j with droop := (s1.slot j).droop + cycles })
    | none => ok s1

/-! Temperature (R647). -/

/-- The die of a sensor, as SRC gives it (R12). -/
def sensorDie (n : Nat) : Nat := if n < 512 then n / 64 else if n < 576 then 8 + (n - 512) / 32 else 10 + (n - 576) / 16

/-- THERMAL_THROTTLE.
[DEDUCED, notes/assumptions/57.md] -/
def thermalThrottle (sensor reading : Nat) (fast : Bool) (slots : List Nat) : Ev :=
  ⟨2, 0x0303, srcOf (sensorDie sensor) 0, none, place 9 0 sensor ||| place 21 10 reading ||| place 22 22 (b2n fast)
    ||| place 38 23 (slots.foldl (fun a j => a ||| 2 ^ j) 0)⟩

/-- A reading is taken.
[DEDUCED, notes/assumptions/57.md] -/
def State.takeTemp (s : State) (n reading : Nat) : State :=
  ({ s with power := { s.power with tMax := sset (fun _ => 0) s.power.tMax n (max reading (sget (fun _ => 0) s.power.tMax n)) } } : State).wr
    (F.MON_TEMP_TEMP n) reading

/-- THERMAL_FAST_HOLD: a reading of 100 °C or above (R647). -/
def execThermalFastHold (sensor reading : Nat) (s : State) : Res :=
  if !s.rails || 640 ≤ sensor || reading < 1600 then ok s
  else
    let s1 := s.takeTemp sensor reading
    if s1.power.hot.contains sensor then ok s1
    else
      let js := s1.sensorSlots sensor
      let s2 : State := { s1 with power := { s1.power with
        hot := s1.power.hot ++ [sensor], cap := 8, capped := s1.power.capped ++ js.filter (fun j => !s1.power.capped.contains j) } }
      ok (s2.showG.emit (thermalThrottle sensor reading true js))

/-- THERMAL_HOLD_RELEASE: every reading that caused the hold is below 98 °C. -/
def execThermalHoldRelease (s : State) : Res :=
  if s.power.hot.isEmpty || s.power.hot.any (fun n => decide (1568 ≤ s.rd (F.MON_TEMP_TEMP n))) then ok s
  else ok { s with power := { s.power with hot := [] } }

/-- THERMAL_TRIP: 103.5 °C for 100 µs (R647). -/
def execThermalTrip (sensor reading : Nat) (s : State) : Res :=
  if !s.rails || 640 ≤ sensor || reading < 1656 then ok s else ok ((s.takeTemp sensor reading).powerOff 0 sensor reading)

/-! The Pacer's proposal (R634 to R636). -/

/-- The input power of rails over the interval, as a fraction: delivered energy times input energy, over what (R619).
[DEDUCED, notes/assumptions/59.md] -/
def State.railShare (s : State) (rails : List Nat) : Nat :=
  sumOf (rails.map (fun r => sget (fun _ => 0) s.power.railE r)) * s.power.inE
/-- The denominator. -/
def State.shareBase (s : State) : Nat := max 1 (s.power.outE * s.power.count)

/-- Highest reading of the interval among a slot's own sensors and the host and I/O dies' (R635). -/
def State.hottest (s : State) (j : Nat) : Nat :=
  let own := (s.partsOf j).flatMap (fun p => (List.range 16).map (fun i => 64 * (p / 4) + 16 * (p % 4) + i))
  (own ++ (List.range 128).map (· + 512)).foldl (fun a n => max a (sget (fun _ => 0) s.power.tMax n)) 0

/-- The slowest step that power asks for: `draws` says that an index draws more than the budget.
[PRESUMED, notes/assumptions/10.md] -/
def powerNeed (draws : Nat → Bool) : Nat → Nat → Nat
  | 0, n => n
  | fuel + 1, n => if n < 8 && draws n then powerNeed draws fuel (n + 1) else n

/-- Cycles of slot j's clusters in an interval: 4,096 laps at its clock. -/
def State.slotCycles (s : State) (j : Nat) : Nat := 4194304 * (s.slotMHz j * (s.clustersOf j).length) / 1000

/-- Parts per million.
[PRESUMED, notes/assumptions/10.md] -/
def ppm (n total : Nat) : Nat := 1000000 * n / max 1 total

/-- The proposal for slot j, with its registers (R634 to R636, R733): index and cause.
[PRESUMED, notes/assumptions/10.md] [DEDUCED, notes/assumptions/58.md] -/
def State.propose (s : State) (j : Nat) : State :=
  let live := s.rd (F.PCE_SLOT_LIVE j)
  let w (i : Nat) : Nat := s.rd (F.PCE_TABLE_W i)
  let base := s.shareBase
  let parts := s.partsOf j
  let testing := (parts.flatMap partClusters).filter (fun c => s.role c == 2)
  let p := s.railShare parts - 6 * testing.length * base
  let room : Int := (s.effLimit * base : Nat) - (s.railShare ((List.range 42).map (· + 32)) : Nat)
  let start := live - 1
  let n1 := powerNeed (fun i => decide (room * (parts.length : Nat) * (w live : Nat) < (p * w i * 32 : Nat))) 9 start
  let c1 := if start < n1 then 1 else 0
  let top := s.hottest j
  let thr := s.rd F.PCE_CFG_THROTTLE_C
  let heat := if 16 * thr ≤ top then live + 1 else if 16 * (thr - 3) ≤ top then live else 0
  let n2 := max n1 heat
  let c2 := if n1 < heat then 2 else c1
  let sl := s.slot j
  let local_ := ppm (sl.droop + sl.throttled) (s.slotCycles j)
  let slow := decide (s.rd F.PCE_CFG_STRETCH_PPM < local_)
  let n3 := if slow then max n2 (live + 1) else n2
  let c3 := if n2 < n3 then 3 else c2
  let fast := s.rd (F.PCE_SLOT_FASTEST j)
  let idx := min (max n3 fast) 8
  let cause := if n3 < fast then 0 else c3
  ((((s.wr (F.PCE_SLOT_PROPOSED j) idx).wr (F.PCE_SLOT_CAUSE j) cause).wr (F.PCE_SLOT_LOCAL_PPM j) (satTo 14 local_)).wr
    (F.PCE_SLOT_BUDGET_W j) (satTo 16 ((room * (parts.length : Nat)).toNat / (32 * base)))).wr (F.PCE_SLOT_SLOT_W j) (satTo 16 (p / base))

/-! The pace vote (R638 to R642). -/

/-- A pace message (R638).
[DEDUCED, notes/assumptions/58.md] -/
def State.paceWord (s : State) (j type level mark index first covered : Nat) : Msg :=
  (msgOf 0x20 [(0, 1, type), (1, 2, s.rd (F.STR_SLOT_JOB_ID j)), (3, 1, level), (4, 8, mark), (0xC, 2, s.modIdx j),
    (0xE, 1, index), (0x10, 2, first), (0x12, 2, covered)]).withCrc 0x18

/-- Does slot j hold the decision of pace mark `m`? -/
def State.paceHeld (s : State) (j m : Nat) : Bool :=
  match (s.slot j).paceMsg with | some x => voteKey 1 x == m | none => false

/-- A member takes the first valid PDEC of its mark by M + 4,080, and arms the change (R641).
[DEDUCED, notes/assumptions/42.md] -/
def State.paceHold (s : State) (j mark : Nat) (m : Msg) : State :=
  if (s.slot j).paceAt ≠ some mark || s.paceHeld j mark || 4080 + mark < s.now then s
  else
    let s1 := s.setSlot j { s.slot j with paceMsg := some m }
    let arr := if s.members j = 1 then 0 else s.ticksSince mark
    let s2 := ((((s1.wr (F.PCE_VOTE_DECIDED j) (m.byte 0xE % 16)).wr (F.PCE_VOTE_FIRST j) (m.le 0x10 2)).wr (F.PCE_VOTE_ABSENT j)
      (bits (m.byte 0xE) 6 6)).wr (F.PCE_VOTE_LATE j) 0).wr (F.PCE_VOTE_ARRIVAL j) (satTo 32 arr)
    s2.tick.armJob 1 j (4096 + mark) j

/-- The lowest absent member, as far as the root's messages show it: exact where a whole child is absent, free within a child of
which only some members are covered.
[DEDUCED, notes/assumptions/58.md] -/
def State.paceAbsent (s : State) (j mark n : Nat) : Nat :=
  let me := s.modIdx j
  let k := treeLevels n
  let x := s.vote 1 (s.rd (F.STR_SLOT_JOB_ID j)) mark
  match (nodeKids n me k).filterMap (fun c =>
      let lo := nodeLo (k - 1) c
      let size := nodeHi n (k - 1) c + 1 - lo
      let got := (x.msgs.filter (fun p => p.1 == k && voteSender 1 p.2 / treeSpan (k - 1) == c)).foldl
        (fun a p => max a (p.2.le 0x12 2)) 0
      if got = 0 then some lo else if got < size then some (lo + s.freeNat 1 % size) else none) with
  | [] => 8191
  | a :: l => l.foldl min a

/-- The tree of the pace vote of mark `mark` (R364, R638, R639): messages take one route. -/
def State.paceVote (s : State) (j mark : Nat) : VoteSpec where
  kind := 1
  slot := j
  key := mark
  base := mark
  mirror := s.classX
  routes := 1
  part := fun s k t => s.paceWord j 0x71 k mark (place 3 0 t.top ||| place 5 4 t.cause) t.first t.covered
  decide_ := fun s t =>
    let n := s.members j
    let missing := decide (t.covered < n)
    let own : Tally := { Tally.zero with top := min (s.rd (F.PCE_SLOT_LIVE j) + 1) 8, first := s.paceAbsent j mark n }
    let d := if missing then t.merge own else t
    let m := s.paceWord j 0x72 (treeLevels n) mark (place 3 0 d.top ||| place 5 4 d.cause ||| place 6 6 (b2n missing)) d.first t.covered
    let v : VoteSpec := ⟨1, j, mark, mark, s.classX, 1, fun _ _ _ => m, fun s _ => s⟩
    (s.voteDown v m).paceHold j mark m

/-- The Pacer proposes for slot j, and the vote begins; a job of one module decides at once (R635, R640). -/
def State.pace (s : State) (j : Nat) : State :=
  let mark := s.now
  let s1 := s.propose j
  let idx := s1.rd (F.PCE_SLOT_PROPOSED j) ||| place 5 4 (s1.rd (F.PCE_SLOT_CAUSE j))
  let job := s.rd (F.STR_SLOT_JOB_ID j)
  let s2 := (((s1.setSlot j { s1.slot j with paceAt := some mark }).dropVotes 1 job (fun t => decide (t < mark)))).dropVotes 7 job
    (fun t => decide (t < mark))
  if s.members j ≤ 1 then s2.paceHold j mark (s2.paceWord j 0x72 0 mark idx (s.modIdx j) 1)
  else s2.voteSend (s2.paceVote j mark) (s2.paceWord j 0x70 0 mark idx (s.modIdx j) 1)

/-- The slot of a pace message: its CRC good, its mark the one of the vote in hand. -/
def State.paceMsgSlot (s : State) (m : Msg) : Option Nat :=
  match s.slotOfJob (voteJob m) with
  | none => none
  | some j => if voteGood 1 m && (s.slotState j == 2 || s.slotState j == 3) then some j else none

/-- A message of a collector: for the vote in hand, or held for the next mark (R367). -/
def State.paceTake (s : State) (j level : Nat) (m : Msg) : State :=
  let key := voteKey 1 m
  if (s.slot j).paceAt = some key then s.voteTake (s.paceVote j key) level m
  else if s.now < key + 12 && key % 4096 = 0 && collects (s.members j) s.classX (s.modIdx j) level then s.voteHold (s.paceVote j key) level m
  else s

/-- PCON_RECEIVE. -/
def execPconReceive (m : Msg) (s : State) : Res :=
  match s.paceMsgSlot m with
  | some j => if m.byte 0 = 0x70 then ok (s.paceTake j 1 m).tick else ok s
  | none => ok s

/-- PPART_RECEIVE. -/
def execPpartReceive (m : Msg) (s : State) : Res :=
  match s.paceMsgSlot m with
  | some j => if m.byte 0 = 0x71 then ok (s.paceTake j (m.byte 3 + 1) m).tick else ok s
  | none => ok s

/-- PACE_COLLECTOR_CLOSE. -/
def execPaceCollectorClose (j level : Nat) (s : State) : Res :=
  match (s.slot j).paceAt with
  | some mark => if s.slotState j = 2 || s.slotState j = 3 then ok (s.voteShut (s.paceVote j mark) level).tick else ok s
  | none => ok s

/-- PDEC_RECEIVE: the first valid copy is taken and forwarded; kind 7 in `votes` marks that it has been (R370, R641). -/
def execPdecReceive (m : Msg) (s : State) : Res :=
  match s.paceMsgSlot m with
  | some j =>
    let key := voteKey 1 m
    let me := s.modIdx j
    let got := s.vote 7 (voteJob m) key
    if m.byte 0 ≠ 0x72 || (s.slot j).paceAt ≠ some key || me = 0 || !got.closed.isEmpty then ok s
    else ok (((s.setVote { got with closed := [1] }).voteDown (s.paceVote j key) (resend 1 me m)).paceHold j key m)
  | none => ok s

/-- PACE_VOTE_LATE: without a PDEC by M + 4,080 the member adopts the larger of live and its own proposal (R642).
[DEDUCED, notes/assumptions/42.md] -/
def execPaceVoteLate (j : Nat) (s : State) : Res :=
  match (s.slot j).paceAt with
  | some mark =>
    if (s.slotState j = 2 || s.slotState j = 3) && !s.paceHeld j mark && decide (4080 + mark ≤ s.now) && decide (s.now ≤ 4096 + mark) then
      let idx := max (s.rd (F.PCE_SLOT_LIVE j)) (s.rd (F.PCE_SLOT_PROPOSED j))
      let m := s.paceWord j 0x72 0 mark (place 3 0 idx ||| place 5 4 (s.rd (F.PCE_SLOT_CAUSE j))) (s.modIdx j) 1
      let s1 := s.setSlot j { s.slot j with paceMsg := some m }
      ok ((((s1.wr (F.PCE_VOTE_LATE j) 1).inc F.PCE_CNT_VOTE_LATE).emit
        ⟨2, 0x0305, srcModule 0, s.jobOf j, place 3 0 idx ||| place 67 4 mark⟩).armJob 1 j (4096 + mark) j)
    else ok s
  | none => ok s

/-- PACE_CHANGE, after the swaps of the lap (R47): the job's partitions take the decided pace at the mark (R641, R644); an index equal to
live changes nothing.
[DEDUCED, notes/assumptions/58.md] -/
def execPaceChange (j : Nat) (s : State) : Res :=
  match s.due 1 j, (s.slot j).paceMsg with
  | some _, some m =>
    if !s.turn 3 then ok s else
    let s1 := s.dropArms 1 j
    let old := s.rd (F.PCE_SLOT_LIVE j)
    let new := min (m.byte 0xE % 16) 8
    if !(s.slotState j = 2 || s.slotState j = 3) || voteKey 1 m + 4096 ≠ s.now || new = old || s.stopped then ok s1.latch
    else
      let s2 := (s1.wr (F.PCE_SLOT_LIVE j) new).wr (F.STR_SLOT_PACE j) new
      let s3 := (s.partsOf j).foldl (fun (s : State) p => s.wr (F.CD_PART_PACE (p / 4) (p % 4)) new) s2
      ok (((s3.inc F.PCE_CNT_CHANGES).emit ⟨0, 0x0301, srcModule 0, s.jobOf j,
        place 3 0 old ||| place 7 4 new ||| place 20 8 (m.le 0x10 2) ||| place 22 21 (bits (m.byte 0xE) 5 4)
          ||| place 23 23 (bits (m.byte 0xE) 6 6)⟩).latch)
  | _, _ => ok s

/-! The pace mark (R52, R635, R646 to R648, R65). -/

/-- THERMAL_THROTTLE for every sensor with a reading of THROTTLE_C or above, with the slots that it constrains.
[DEDUCED, notes/assumptions/57.md] -/
def State.thermalRecords (s : State) : State :=
  let thr := 16 * s.rd F.PCE_CFG_THROTTLE_C
  s.power.tMax.foldl (fun (s : State) (x : Nat × Nat) =>
    let js := s.runningSlots.filter (fun j => decide (512 ≤ x.1) || (s.partsOf j).contains (x.1 / 16))
    if thr ≤ x.2 then s.emit (thermalThrottle x.1 x.2 false js) else s) s

/-- DROOP_STRETCH of slot j (R646); the interval's cycle counts begin again. -/
def State.droopRecord (s : State) (j : Nat) : State :=
  let sl := s.slot j
  let n := ppm sl.droop (s.slotCycles j)
  let s1 := match s.clustersOf j with
    | c :: _ =>
      if s.rd F.PCE_CFG_STRETCH_PPM < n then
        s.emit ⟨1, 0x0304, srcOf c.die c.idx, s.jobOf j, place 3 0 j ||| place 35 4 (satTo 32 sl.droop) ||| place 49 36 (satTo 14 n)⟩
      else s
    | [] => s
  s1.setSlot j { sl with droop := 0, throttled := 0 }

/-- The core frequencies of host die h (R648). -/
def State.coreFreq (s : State) (h : Nat) : State :=
  let thr := s.rd F.PCE_CFG_THROTTLE_C
  let top := (List.range 32).foldl (fun a i => max a (sget (fun _ => 0) s.power.tMax (512 + 32 * h + i))) 0
  (List.range 72).foldl (fun (s : State) i =>
    let c := 72 * h + i
    let k := s.rd (F.PCE_CORE_LIVE c)
    let t := s.coreGoal c
    let k1 := if 16 * thr ≤ top then k - 1 else if top < 16 * (thr - 3) then min t (k + 1) else k
    (s.wr (F.PCE_CORE_LIVE c) k1).wrB (F.PCE_CORE_THERMAL c) (k1 < t)) s

/-- The interval's figures are shown, and the next interval begins. -/
def State.endInterval (s : State) : State :=
  let pw := s.power
  let mean (rails : List Nat) : Nat := sumOf (rails.map (fun r => sget (fun _ => 0) pw.railE r)) / max 1 pw.count
  let s1 := ((s.wr F.PCE_STATUS_SUS_W (satTo 16 (pw.inE / max 1 pw.count))).wr F.PCE_STATUS_PEAK_MAX_W (satTo 16 pw.peak)).wr F.PCE_STATUS_CEILING pw.ceil
  let s2 := (List.range 640).foldl (fun (s : State) n => s.wr (F.MON_TEMP_MAX n) (sget (fun _ => 0) pw.tMax n)) s1
  let s3 := pw.vMin.foldl (fun (s : State) (x : Nat × Nat) => if x.1 < 96 then s.wr (F.MON_VMON_MIN_MV x.1) x.2 else s) s2
  let s4 := (s3.wr F.ACM_POWER_OPTICS_W (satTo 16 (mean [66, 67, 68, 69, 70, 71, 72, 73]))).wr F.ACM_POWER_LASER_W (satTo 16 (mean [70, 71, 72, 73]))
  let s5 := (s4.wr (F.CRM_AGENT_MISSES 0) 0).wr (F.CRM_AGENT_MISSES 1) 0
  { s5 with
    told := []
    power := { pw with railE := [], inE := 0, outE := 0, count := 0, peak := 0, tMax := [], vMin := [], gMin := pw.g, ceil := 0,
                       thr := 0, thrPrev := pw.thr, mark := some s.now } }

/-- PACE_MARK: proposals, reports and delay measurement at a lap whose low 12 bits are zero; the pace changes due at the same mark
come first (R47, R52). After a stop of the coherence domain the ports are still measured (R65, R473).
[DEDUCED, notes/assumptions/58.md] [DEDUCED, notes/assumptions/73.md] -/
def execPaceMark (s : State) : Res :=
  let measure (s : State) : State := (List.range 52).foldl (fun (s : State) p => if s.portUp p then s.askDelay p else s) s
  if s.now % 4096 ≠ 0 || s.power.mark = some s.now then ok s
  else if s.stopped then ok (measure { s with power := { s.power with mark := some s.now } })
  else if !s.turn 4 then ok s
  else
    let s1 := s.thermalRecords
    let s2 := s.runningSlots.foldl (fun (s : State) j => s.pace j) s1
    let s3 := (List.range 16).foldl (fun (s : State) j => if s.slotState j == 2 then s.droopRecord j else
      s.setSlot j { s.slot j with droop := 0, throttled := 0 }) s2
    let s4 := ((s3.coreFreq 0).coreFreq 1).endInterval
    ok ((measure s4).tick.latch)

end Sys2Proof.Machine
end

