-- ==== Sys2Proof/Machine/Acmet.lean ====
section
/-!
DEFINITION. Acmet (09): laser modules, link training, retrain, diagnosis and reserve engines, the link layer with its replay and
credits, the flits that arrive, and peer writes.
-/

namespace Sys2Proof.Machine
open Sys2Proof

/-! Ports (R389, R392 to R394). -/

/-- The reserve ports of I/O die d, ascending (R389). -/
def reservePorts (d : Nat) : List Nat := if d = 3 then [50, 51] else [13 * d + 12]

/-- The peer that the wiring rules name for a port: its fabric index and port; none for a port outside the fabric (R392, R393). -/
def State.expectedPeer (s : State) (p : Nat) : Option (Nat × Nat) :=
  let fi := s.rd F.ACM_CFG_FI
  let pods := s.rd F.ACM_CFG_PODS
  let pod := fi / 32
  let a := fi % 32
  let i := s.rd (F.ACM_PORT_STAT_INDEX p)
  match s.rd (F.ACM_PORT_STAT_ROLE p) with
  | 0 => some (32 * pod + (a + 1 + i) % 32, podPort (30 - i))
  | 1 =>
    let l := podLinks pods
    let u := 16 * a + i
    if u < l * (pods - 1) then
      let dl := 1 + u / l
      let v := l * (pods - 1 - dl) + u % l
      some (32 * ((pod + dl) % pods) + v / 16, globalPort (v % 16))
    else none
  | _ => none

/-- ACM_ID shows the ports in UP and the reserve engines in RESERVE or TESTING. -/
def State.showPorts (s : State) : State :=
  let up := ((List.range 52).filter s.portUp).length
  let free := ((List.range 4).flatMap reservePorts).filter (fun p => s.portState p == 10 || s.portState p == 11)
  (s.wr F.ACM_ID_PORTS_UP up).wr F.ACM_ID_RESERVE_FREE free.length

/-- A port changes state: one that leaves UP loses its measured delay (R65, R417), one that reaches UP asks for it. -/
def State.setPortState (s : State) (p new : Nat) : State :=
  let old := s.portState p
  let s1 := s.wr (F.ACM_PORT_STAT_STATE p) new
  let s2 : State := if old = 7 && new ≠ 7 then
      (({ s1 with lap := { s1.lap with asked := s1.lap.asked.filter (· ≠ p), measured := s1.lap.measured.filter (· ≠ p) } } : State).wr
        (F.LAP_PORT_DELAY_VALID p) 0).setPort p { s1.port p with left := some s.now }
    else if new = 7 then
      (s1.setPort p { s1.port p with left := none, naks := 0, nakIn := (0, 0), tries := 0, retry := false, retraining := false }).askDelay p
    else s1
  s2.showPorts

/-- Event of a port: SRC is its I/O die and engine. -/
def State.portEv (s : State) (sev code p payload : Nat) : Ev :=
  ⟨sev, code, srcOf (10 + p / 13) (s.rd (F.ACM_PORT_STAT_ENGINE p)), none, place 5 0 p ||| payload⟩

/-- PORT_DOWN: the port goes DOWN, or FAILED, with its cause (R410, R414, R416, R417). -/
def State.portDown (s : State) (p cause : Nat) (pending : Bool) : State :=
  let fi := match s.expectedPeer p with | some x => x.1 | none => 0
  let s1 := (s.wr (F.ACM_PORT_STAT_CAUSE p) cause).inc (F.ACM_PORT_CNT_DOWN p)
  (s1.emit (s.portEv 2 0x0801 p (place 9 6 cause ||| place 10 10 (b2n pending) ||| place 23 11 fi))).setPortState p (if pending then 9 else 1)

/-! Lasers (R385, R386, R769). -/

/-- The fabric has started (R666 step 6). -/
def State.fabricOn (s : State) : Bool :=
  s.rails && decide (6 ≤ s.rd F.STR_START_STATE) && decide (s.rd F.STR_START_STATE ≤ 8)

/-- The ports of I/O die d follow its laser module: without light none is in service; with light the reserve engines are tuned and
the ports of the fabric wait for their peers.
[DEDUCED, notes/assumptions/60.md] -/
def State.followLaser (s : State) (d : Nat) : State :=
  let on := s.rd (F.ACM_LASER_READY d) == 1
  (List.range 13).foldl (fun (s : State) k =>
    let p := 13 * d + k
    let st := s.portState p
    if st = 9 then s
    else if !on then (if st = 0 then s else s.setPortState p 1)
    else if (reservePorts d).contains p then (if st = 1 then s.setPortState p 10 else s)
    else if st = 0 || st = 1 then s.setPortState p (if (s.expectedPeer p).isSome then 1 else 0)
    else s) s

/-- LASER_STATUS_CHANGE. -/
def execLaserStatusChange (d : Nat) (inserted latched fault : Bool) (okMask temp power : Nat) (s : State) : Res :=
  if 4 ≤ d then ok s
  else
    let present := inserted && latched
    let was := s.rd (F.ACM_LASER_PRESENT d) == 1
    let wasFault := s.rd (F.ACM_LASER_FAULT d) == 1
    let wasBad := if s.rd (F.ACM_LASER_READY d) = 1 then 255 - s.rd (F.ACM_LASER_OK d) else 0
    let ready := present && !fault && s.fabricOn
    let bad := if ready then 255 - okMask % 256 else 0
    let latch := s.rd F.STR_PINS_BAY_LATCH
    let s1 := s.wr F.STR_PINS_BAY_LATCH (if latched then latch ||| 2 ^ d else latch - (if bit latch d then 2 ^ d else 0))
    let s2 := ((((((s1.wrB (F.ACM_LASER_PRESENT d) present).wrB (F.ACM_LASER_READY d) ready).wrB (F.ACM_LASER_FAULT d) fault).wr
      (F.ACM_LASER_OK d) okMask).wr (F.ACM_LASER_TEMP d) temp).wr (F.ACM_LASER_POWER d) power)
    let removed := was && !present
    let s3 := if removed || (fault && !wasFault) || (bad ≠ 0 && bad ≠ wasBad) then
        s2.emit ⟨2, 0x0806, srcOf (10 + d) 13, none, place 1 0 d ||| place 9 2 bad ||| place 10 10 (b2n removed) ||| place 11 11 (b2n fault)⟩
      else s2
    ok (if s.fabricOn then s3.followLaser d else s3)

/-- Start step 6: the laser modules that are fit are enabled, and every port of the fabric starts (R666). -/
def State.startPorts (s : State) : State :=
  (List.range 4).foldl (fun (s : State) d =>
    (s.wrB (F.ACM_LASER_READY d) (s.rd (F.ACM_LASER_PRESENT d) == 1 && s.rd (F.ACM_LASER_FAULT d) == 0)).followLaser d) s

/-! Training (R394, R409 to R412). -/

/-- Has the replay state of a port that left UP outlived its 1,024 laps (R417)? -/
def State.linkStale (s : State) (p : Nat) : Bool := match (s.port p).left with | some l => decide (l + 1024 ≤ s.now) | none => true

/-- The port reaches UP: PORT_UP, and PORT_RESERVE_SWAPPED after a swap, with the flits that its replay buffer holds to be resent. The
RETRAIN time within its lap is free. A port that kept its sequence numbers asks the far end for what it has missed, and what waits
leaves (R404, R412, R414).
[DEDUCED, notes/assumptions/60.md] -/
def State.portReachesUp (s : State) (p : Nat) : State :=
  let v := s.port p
  let s0 := s.setPortState p 7
  let s1 := (if v.left.isSome && !s.linkStale p then s0.control p true 0 0 0 else s0).drain p
  let s2 := s1.emit (s1.portEv 0 0x0804 p (place 18 6 (s.rd (F.ACM_PORT_STAT_PEER_FI p)) ||| place 24 19 (s.rd (F.ACM_PORT_STAT_PEER_PORT p))))
  match v.swapFrom with
  | some l =>
    let us := (1024 * (s.now - l) + s.freeNat 0 % 1024) / 1000
    ((s2.setPort p { s2.port p with swapFrom := none }).emit (s2.portEv 1 0x0802 p
      (place 9 6 (v.failedEng.getD 0) ||| place 13 10 (s.rd (F.ACM_PORT_STAT_ENGINE p)) ||| place 29 14 us
        ||| place 45 30 v.replay.length))).tick
  | none => s2

/-- Sequence numbers, credits, the replay buffer and the message under way are lost (R409, R417); buffers that waiting flits in transit
held are free again.
[DESIGN CHOICE, notes/assumptions/61.md] -/
def State.forgetLink (s : State) (p : Nat) : State :=
  let v := s.port p
  let s1 := v.queue.foldl (fun (s : State) q => match q.held with
    | some (r, c) => s.giveCredit r (q.flit.f 91 90) c
    | none => s) (s.setPort p { v with rx := 0, tx := 0, replay := [], credits := [], queue := [], busy := [], via := [] })
  { s1 with ports := s1.ports.map (fun (x : Nat × PortSt) =>
      (x.1, { x.2 with busy := x.2.busy.filter (fun b => b.2 = 0 || (b.2 - 1) / 4 ≠ p), queue := x.2.queue.filter (fun q => q.mid / 4 ≠ p) })) }

/-- A port enters IDENTIFY and says who it is: FI, port, role and PODS (R409). -/
def State.identify (s : State) (p : Nat) : State :=
  (s.setPortState p 5).send (.identify p (s.rd F.ACM_CFG_FI) p (s.rd (F.ACM_PORT_STAT_ROLE p)) (s.rd F.ACM_CFG_PODS))

/-- PORT_TRAIN_STAGE_DONE: the stage that the port is in ends well.
[DEDUCED, notes/assumptions/60.md] -/
def execPortTrainStageDone (p : Nat) (peer : PeerId) (s : State) : Res :=
  let st := s.portState p
  if 52 ≤ p || !s.fabricOn || s.rd (F.ACM_LASER_READY (p / 13)) = 0 then ok s
  else
    match st with
    | 1 => if (s.port p).retry then ok s else ok ((s.setPort p { s.port p with retraining := false }).setPortState p 2)
    | 2 | 3 => ok (s.setPortState p (st + 1))
    | 4 => ok (s.identify p)
    | 5 =>
      let s1 := (s.wr (F.ACM_PORT_STAT_PEER_FI p) peer.fi).wr (F.ACM_PORT_STAT_PEER_PORT p) peer.port
      let want := s.expectedPeer p
      let pods := decide (peer.pods ≠ s.rd F.ACM_CFG_PODS)
      if want = some (peer.fi, peer.port) && peer.role = s.rd (F.ACM_PORT_STAT_ROLE p) && !pods then
        ok ((if s.linkStale p then s1.forgetLink p else s1).setPortState p 6)
      else
        ok (((s1.inc (F.ACM_PORT_CNT_MISMATCH p)).emit (s1.portEv 2 0x0805 p (place 18 6 peer.fi ||| place 24 19 peer.port
          ||| place 37 25 ((want.map Prod.fst).getD 0) ||| place 38 38 (b2n pods)))).setPortState p 1)
    | 6 => ok (s.portReachesUp p)
    | 8 => ok (s.setPortState p 6)
    | _ => ok s

/-- PORT_TRAIN_TIMEOUT: not UP within 25.61 ms; the third failure in a row is recorded (R410). -/
def execPortTrainTimeout (p : Nat) (s : State) : Res :=
  let st := s.portState p
  if 52 ≤ p || st < 2 || 6 < st || (s.port p).retraining then ok s
  else
    let n := (s.port p).tries + 1
    let s1 := s.setPort p { s.port p with tries := n, retry := true }
    ok (if n = 3 then s1.portDown p 4 false else s1.setPortState p 1)

/-- PORT_RETRY: 10 ms, or 100 ms, after a failure the port tries again (R410, R416). -/
def execPortRetry (p : Nat) (s : State) : Res :=
  if p < 52 && s.portState p = 1 && s.fabricOn && s.rd (F.ACM_LASER_READY (p / 13)) = 1 && (s.port p).retry
      && (s.expectedPeer p).isSome then
    ok ((s.setPort p { s.port p with retry := false, retraining := false }).setPortState p 2)
  else ok s

/-! Retrain, diagnosis, reserve engines (R411 to R417). -/

/-- Code of a retrain trigger in PORT_RETRAIN. -/
def retrainCode : RetrainTrigger → Nat
  | .fecLock => 0
  | .burst => 1
  | .nakRun => 2

/-- A port in UP enters RETRAIN (R411). -/
def State.retrain (s : State) (p : Nat) (why : RetrainTrigger) : State :=
  (((s.inc (F.ACM_PORT_CNT_RETRAIN p)).emit (s.portEv 1 0x0803 p (place 7 6 (retrainCode why)))).setPort p
    { s.port p with retraining := true }).setPortState p 8

/-- Have 8 NAKs for one SEQ followed each other, sent or received (R411)?
[DESIGN CHOICE, notes/assumptions/61.md] -/
def PortSt.nakRun (v : PortSt) : Bool := decide (8 ≤ v.naks) || decide (8 ≤ v.nakIn.2)

/-- PORT_RETRAIN: an UP port retrains, for a run of NAKs once there are 8. -/
def execPortRetrain (p : Nat) (why : RetrainTrigger) (s : State) : Res :=
  if 52 ≤ p || !s.portUp p || (why == .nakRun && !(s.port p).nakRun) then ok s else ok (s.retrain p why)

/-- Reserve engines of die d that are free, ascending.
[DEDUCED, notes/assumptions/60.md] -/
def State.freeReserves (s : State) (d : Nat) : List Nat := (reservePorts d).filter (fun r => s.portState r == 10 || s.portState r == 11)

/-- Ports of die d that wait for a reserve engine, ascending. -/
def State.swapWaiters (s : State) (d : Nat) : List Nat :=
  ((List.range 13).map (· + 13 * d)).filter (fun p => (s.port p).swapWait.isSome)

/-- The port goes DOWN and is tried again as R410 says, with no failed attempt counted yet (R416, R417). -/
def State.portGivesUp (s : State) (p cause : Nat) : State :=
  (s.setPort p { s.port p with swapWait := none, swapFrom := none, tries := 0, retry := true }).portDown p cause false

/-- PORT_DIAGNOSIS: after a RETRAIN that did not reach UP, or a fault that the engine's monitors report in any state (R413, R414, R416,
R417). A reserve engine that fails serves no port, and no swap follows.
[DEDUCED, notes/assumptions/60.md] -/
def execPortDiagnosis (p : Nat) (fault : PortFault) (s : State) : Res :=
  let st := s.portState p
  let v := s.port p
  if 52 ≤ p || st = 0 || st = 9 then ok s
  else if v.swapFrom.isSome then ok (s.portGivesUp p 5)
  else
    match fault with
    | .beyond => if st = 10 || st = 11 then ok s else ok (s.portGivesUp p 2)
    | .localEngine =>
      let d := p / 13
      if st = 10 || st = 11 then
        ok (({ s with tests := s.tests.filter (fun t => !(t.kind == 2 && t.die == 10 + d && t.unit == p % 13)) } : State).portDown p 1 false
          |>.setPortState p 9)
      else if (s.swapWaiters d).length < (s.freeReserves d).length then
        ok ((s.setPort p { v with swapWait := some s.now, failedEng := some (s.rd (F.ACM_PORT_STAT_ENGINE p)),
                                  left := some (v.left.getD s.now) }).portDown p 1 true)
      else ok (s.portGivesUp p 3)

/-- A reserve engine takes over a port: its self-test window, if one is open, closes without result (R414, R415). A reserve port whose
engine serves another reads DISABLED.
[DEDUCED, notes/assumptions/60.md] -/
def State.giveReserve (s : State) (p r : Nat) : State :=
  let s1 : State := { s with tests := s.tests.filter (fun t => !(t.kind == 2 && t.die == 10 + r / 13 && t.unit == r % 13)) }
  let s2 := (s1.setPortState r 0).setPort p { s1.port p with swapWait := none, swapFrom := some s.now, retraining := true }
  (((s2.wr (F.ACM_PORT_STAT_ENGINE p) (r % 13)).wr (F.ACM_PORT_STAT_SWAPPED p) 1).inc (F.ACM_PORT_CNT_RETRAIN p)).setPortState p 8

/-- RESERVE_ENGINE_SWAP: the first lap mark after diagnosis; the lower port is served first. -/
def execReserveEngineSwap (d : Nat) (s : State) : Res :=
  if 4 ≤ d then ok s
  else
    ok (((s.swapWaiters d).filter (fun p => match (s.port p).swapWait with | some l => decide (l < s.now) | none => false)).foldl
      (fun (s : State) p =>
      match s.freeReserves d with
      | r :: _ => s.giveReserve p r
      | [] => s.portGivesUp p 3) s)

/-- REPLAY_STATE_DISCARD: 1,024 laps after leaving UP (R417). -/
def execReplayStateDiscard (p : Nat) (s : State) : Res :=
  if p < 52 && !s.portUp p && (s.port p).left.isSome && s.linkStale p then ok (s.forgetLink p) else ok s

/-! Flits that arrive (R396 to R407). -/

/-- The way of a message in transit that came on port r: a gateway crosses a global link of its own, chosen freely where it has several; a
message that came over a pod port, or that has crossed two links before a global one, has had its detour, or none is due, and takes direct ports only
(R395 to R399).
[DESIGN CHOICE, notes/assumptions/61.md] -/
def State.nextHop (s : State) (r stage dest : Nat) : Option (Nat × Bool) :=
  let fi := s.rd F.ACM_CFG_FI
  let pods := s.rd F.ACM_CFG_PODS
  let direct (l : List (Nat × Bool)) : List (Nat × Bool) :=
    if s.rd (F.ACM_PORT_STAT_ROLE r) = 0 || 2 ≤ stage then l.filter (fun w => !w.2) else l
  if dest / 32 = fi / 32 then (direct (s.podWays (dest % 32))).head?
  else if pods ≤ dest / 32 then none
  else
    let gs := (gateways pods (fi / 32) (dest / 32)).filter s.slotUp
    let own := gs.filter (fun u => u / 16 == s.pos)
    let all := if own.isEmpty then gs else own
    match all[s.freeNat 0 % all.length]? with
    | some u => if own.isEmpty then (direct (s.podWays (u / 16))).head? else some (globalPort (u % 16), false)
    | none => none

/-- A flit in transit goes on, on the route that the first flit of its message took, or is dropped (R399, R401). -/
def State.transit (s : State) (r : Nat) (x : Flit) : State :=
  let dest := x.f 51 39
  let vc := x.f 91 90
  let t := x.f 95 92
  let v := s.port r
  let hop : Option (Nat × Bool) :=
    if t = 1 || t = 4 then (if 3 ≤ x.f 89 88 then none else s.nextHop r (x.f 89 88) dest)
    else match sget (fun _ => 0) v.via vc with | 0 => none | p + 1 => some (p, false)
  let via := match hop with | some w => if t = 3 || t = 4 then 0 else w.1 + 1 | none => 0
  let s1 := s.setPort r { v with via := sset (fun _ => 0) v.via vc via }
  match hop with
  | none => (s1.routeDrop dest vc 1).giveCredit r vc x.bufferClass
  | some (p, detour) =>
    (if detour then s1.inc F.ACM_ROUTE_CNT_DETOUR else s1).enqueue p [⟨x.put 89 88 (x.f 89 88 + 1), 4 * r + x.f 89 88, some (r, x.bufferClass)⟩]

/-- A flit for this module goes to its sink, which takes the whole message in a command of its own and waits on nothing; management
discards what it cannot hold, and counts it. After a stop of the coherence domain only channel 2 has a sink (R407, R473).
[DESIGN CHOICE, notes/assumptions/61.md] -/
def State.sink (s : State) (r : Nat) (x : Flit) : State :=
  let vc := x.f 91 90
  let s1 := s.giveCredit r vc x.bufferClass
  if s.stopped && vc ≠ 2 then s1.inc F.ACM_ROUTE_CNT_DROP
  else if vc = 3 then ({ s1 with mgmtDrops := s1.mgmtDrops + s.freeNat 0 % 2 } : State).tick
  else s1

/-- A port asks for the flit that it expects; the eighth NAK in a row makes it retrain (R403, R411). -/
def State.sendNak (s : State) (p : Nat) : State :=
  let s1 := (s.setPort p { s.port p with naks := (s.port p).naks + 1 }).control p true 0 0 0
  if (s1.port p).nakRun then s1.retrain p .nakRun else s1

/-- The far end has everything before `ack` (R402), so more may leave; a NAK makes the port resend what remains, in order, and the
eighth for one number makes it retrain (R403, R411). A number before the oldest flit held, which a replayed flit may still carry, says nothing new. -/
def State.takeAck (s : State) (p ack : Nat) (nak : Bool) : State :=
  let v := s.port p
  let n := (ack + 4096 - (match v.replay with | x :: _ => x.f 87 76 | [] => ack)) % 4096
  let rest := if n ≤ v.replay.length then v.replay.drop n else v.replay
  if nak then
    let s1 := (s.setPort p { v with replay := rest, nakIn := (ack, if v.nakIn.1 = ack then v.nakIn.2 + 1 else 1) }).add
      (F.ACM_PORT_CNT_REPLAY p) rest.length
    let s2 := rest.foldl (fun (s : State) x => s.send (.flit p x)) s1
    if (s2.port p).nakRun then s2.retrain p .nakRun else s2.drain p
  else (s.setPort p { v with replay := rest, nakIn := (ack, 0) }).drain p

/-- Returned credits are taken in (R400, R406). -/
def State.takeCredits (s : State) (p : Nat) (x : Flit) : State :=
  let k := 8 * x.f 62 61 + x.f 60 58
  let n := x.f 57 52
  if n = 0 || 5 ≤ x.f 60 58 then s
  else
    let v := s.port p
    (s.setPort p { v with credits := sset creditsOf v.credits k (min (creditsOf k) (sget creditsOf v.credits k + n)) }).drain p

/-- FLIT_RECEIVE: a flit with a bad CRC, or out of sequence, is discarded whole and asked for again (R403); of an idle or control flit
the acknowledgement and the credits are taken. -/
def execFlitReceive (p : Nat) (x : Flit) (s : State) : Res :=
  if 52 ≤ p || !s.portUp p then ok s
  else
    let v := s.port p
    let t := x.f 95 92
    let told (s : State) : State := (s.takeCredits p x).takeAck p (x.f 75 64) (x.f 63 63 == 1)
    if !x.crcOk then ok ((s.inc (F.ACM_PORT_CNT_CRC_ERR p)).sendNak p)
    else if t = 0 || 5 ≤ t then ok (told s)
    else if x.f 87 76 ≠ v.rx then ok (s.sendNak p)
    else
      let s1 := told ((s.setPort p { v with rx := (v.rx + 1) % 4096, naks := 0 }).control p false 0 0 0)
      ok (if x.f 51 39 = s.rd F.ACM_CFG_FI then s1.sink p x else (s1.transit p x).tick)

/-! Peer writes (R419, R420). -/

/-- PEER_WRITE_RECEIVE. -/
def execPeerWriteReceive (srcFi : Nat) (hdr : BitVec 128) (data : List Byte) (s : State) : Res :=
  let h := hdr.toNat
  let job := bits h 119 108
  let a := bits h 107 62
  let len := bits h 61 45
  let tag := bits h 31 0
  if bits h 127 120 ≠ 0x50 || len = 0 || 65536 < len || data.length ≠ len || s.stopped then ok s
  else
    let slot := s.slotOfJob job
    let fits := match slot with
      | some j =>
        let base := 2 ^ 21 * s.rd (F.ACM_PEERWIN_BASE j)
        decide (base ≤ a) && decide (a + len ≤ base + 2 ^ 30 * s.rd (F.ACM_PEERWIN_SIZE j))
      | none => false
    if fits then s.access [] (linesOf a len) fun s => ok ((s.setBytes a data).sendAck srcFi tag true)
    else ok ((s.emit ⟨1, 0x0808, srcModule 0, some job, place 11 0 job ||| place 12 12 (b2n slot.isNone) ||| place 25 13 srcFi
      ||| place 71 26 a⟩).sendAck srcFi tag false)

end Sys2Proof.Machine
end

