-- ==== Sys2Proof/Machine/Checkpoint.lean ====
section
/-!
DEFINITION. Checkpoints and recovery (17): registered state, the halt and its vote, capture, copies that arrive and are
forwarded, verification, and self-test windows.
-/

namespace Sys2Proof.Machine
open Sys2Proof

/-! Registered state (R693 to R696). -/

/-- One entry of the registration table at `a`. -/
def State.regEnt (s : State) (a : Nat) : RegEnt :=
  ⟨s.memNat a 8, s.memNat (a + 8) 8, s.memNat (a + 16) 8, s.memNat (a + 24) 4, s.memNat (a + 28) 4⟩

/-- The registration table of slot j. -/
def State.regTable (s : State) (j : Nat) : List RegEnt :=
  (List.range (s.rd (F.RES_REG_ENTRIES j))).map (fun i => s.regEnt (s.rd (F.RES_REG_BASE j) * 32 + 32 * i))

/-- EPOCHED. -/
def RegEnt.epoched (x : RegEnt) : Bool := bit x.flags 0

/-- Is an entry laid out as R693 says? -/
def RegEnt.good (x : RegEnt) : Bool :=
  x.base0 % 4096 == 0 && decide (x.base0 < 2 ^ 46) && x.len % 4096 == 0 && decide (0 < x.len) && decide (x.len ≤ 768 * 2 ^ 30)
    && decide (x.flags < 2)
    && (if x.epoched then x.base1 % 4096 == 0 && decide (x.base1 < 2 ^ 46) && decide (x.shard < 2048) else x.base1 == 0 && x.shard == 0)

/-- Bytes of a segment (R694). -/
def segBytes : Nat := 2 ^ 26

/-- Segments of a table.
[DESIGN CHOICE, notes/assumptions/63.md] -/
def segCount (t : List RegEnt) : Nat := sumOf (t.map (fun x => ceilDiv x.len segBytes))

/-- The segments, in table order: address and length, each region read at its BASE0 (R694). -/
def segsOf (t : List RegEnt) : List (Nat × Nat) :=
  t.flatMap (fun x => (List.range (ceilDiv x.len segBytes)).map (fun i => (x.base0 + i * segBytes, min segBytes (x.len - i * segBytes))))

/-- Registered bytes. -/
def regTotal (t : List RegEnt) : Nat := sumOf (t.map (·.len))

/-- The limit of G for the class and the smallest part of slot j's job, in GiB (R4, R696).
[DESIGN CHOICE, notes/assumptions/63.md] -/
def State.gLimit (s : State) (j : Nat) : Nat := (if s.spans1T (2 ^ 14 * s.rd (F.ACM_JOBMAP_BASE j)) (s.members j) then 384 else 768) * (if 2 ≤ s.rd F.STR_ROLE_CLASS then 2 else 3) / 3

/-- What is wrong with a table, as CKPT_INCOMPLETE says: 2 it breaks R693, 3 it breaks R696.
[DESIGN CHOICE, notes/assumptions/63.md] -/
def State.tableCause (s : State) (j : Nat) (t : List RegEnt) : Option Nat :=
  if t.isEmpty || 1024 < t.length || t.any (fun x => !x.good) || 12288 < segCount t then some 2
  else if 2 ^ 30 * s.gLimit j < regTotal t then some 3 else none

/-- END − K: ceil((20 ms + 0.875 ms × G) / 1.024 µs) (R706).
[DESIGN CHOICE, notes/assumptions/63.md] -/
def haltLaps (total : Nat) : Nat := ceilDiv (20000000 * 2 ^ 30 + 875000 * total) (1024 * 2 ^ 30)

/-- The entries with BASE0 replaced by the base of the version that is LIVE now (R712, R721). -/
def State.liveRegions (s : State) (j : Nat) (t : List RegEnt) : List RegEnt :=
  t.map (fun x =>
    if x.epoched then
      { x with base0 := if s.verState (bits x.shard 10 8) j (bits x.shard 7 0) 1 = 2 then x.base1 else x.base0, base1 := 0 }
    else x)

/-! Slot state. -/

/-- Checkpoint state of slot j. -/
def State.ck (s : State) (j : Nat) : CkptSt := (s.slot j).ck
/-- Set it. -/
def State.setCk (s : State) (j : Nat) (v : CkptSt) : State := s.setSlot j { s.slot j with ck := v }

/-- An event of slot j: SRC unit is the slot. -/
def State.ckEv (s : State) (sev code j payload : Nat) : Ev := ⟨sev, code, srcModule j, s.jobOf j, payload⟩

/-- The halt start lap. -/
def State.kLap (s : State) (j : Nat) : Nat := s.rd (F.RES_HALT_K j)

/-! Copy areas (R697, R716, R720, R721). -/

/-- Base and size of a copy area of slot j's partner region; in classes S and M there is no copy-2 area. -/
def State.copyArea (s : State) (j : Nat) (two : Bool) : Nat × Nat :=
  let base := 2 ^ 21 * s.rd (F.RES_PART_BASE j)
  let size := 2 ^ 30 * s.rd (F.RES_PART_SIZE_GIB j)
  if s.rd F.STR_ROLE_CLASS < 2 then (if two then (base, 0) else (base, size))
  else (if two then base + size / 2 else base, size / 2)

/-- Bytes of the manifest at `a`, from its REGIONS and SEGMENTS (R721). -/
def State.manifestLen (s : State) (a : Nat) : Nat := 0x100 + 32 * (s.memNat (a + 0x10) 2 + s.memNat (a + 0x12) 2)

/-- The bytes of a manifest with MDIGEST zero. -/
def blankDigest (bs : List Byte) : List Byte := bs.take 0xE0 ++ List.replicate 32 0 ++ bs.drop 0x100

/-- "HZCKPT" and two zero bytes. -/
def ckMagic : Nat := 0x54504B435A48

/-- Does a valid manifest stand at `a`? -/
def State.manifestValid (s : State) (a : Nat) : Bool :=
  s.memNat a 8 == ckMagic && s.memNat (a + 8) 2 == 1 && decide (s.memNat (a + 0x10) 2 ≤ 1024) && decide (s.memNat (a + 0x12) 2 ≤ 12288)
    && ofLe (sha256 (blankDigest (s.memBytes a (s.manifestLen a)))) == s.memNat (a + 0xE0) 32

/-- A chunk or a part of a manifest (segment 16,383) reaches its holder (R716, R720): placed, or refused.
[DESIGN CHOICE, notes/assumptions/62.md] -/
def State.placeChunk (s : State) (j src : Nat) (two : Bool) (seg chunk : Nat) (data : List Byte) : State × Bool :=
  let area := s.copyArea j two
  let off := if seg = 16383 then 65536 * chunk else 2 ^ 19 + seg * segBytes + 65536 * chunk
  if area.2 < off + data.length || area.2 = 0 then (s, false)
  else
    let v := if two then (s.ck j).area2 else (s.ck j).area1
    let s1 :=
      if v.begun then s
      else
        let drained := if two then s.rd (F.RES_CKPT_CTL_DRAINED2 j) else s.rd (F.RES_CKPT_CTL_DRAINED1 j)
        let t := if s.manifestValid area.1 && drained = 0 then
            s.emit (s.ckEv 2 0x0B07 j (place 12 0 src ||| place 13 13 (b2n two) ||| place 57 14 (s.memNat (area.1 + 0x18) 8)))
          else s
        let t1 := (t.write area.1 (List.replicate 64 0)).wr (if two then F.RES_CKPT_CTL_DRAINED2 j else F.RES_CKPT_CTL_DRAINED1 j) 0
        let n : CopySt := { v with src := some src, begun := true }
        t1.setCk j (if two then { t1.ck j with area2 := n } else { t1.ck j with area1 := n })
    (s1.write (area.1 + off) data, true)

/-- The header of a checkpoint message (R715). -/
def ckHdr (job src : Nat) (two : Bool) (seg chunk len tag : Nat) : BitVec 128 :=
  BitVec.ofNat 128 (place 127 120 0x4B ||| place 119 108 job ||| place 107 95 src ||| place 94 94 (b2n two) ||| place 93 80 seg
    ||| place 79 70 chunk ||| place 69 53 len ||| place 31 0 tag)

/-- A checkpoint message leaves for the holder, member `dest`; a job of one module may be its own holder (R698, R711).
[DESIGN CHOICE, notes/assumptions/62.md] -/
def State.sendChunk (s : State) (j dest src : Nat) (two : Bool) (seg chunk : Nat) (data : List Byte) : State :=
  let tag := s.peerTag % 2 ^ 32
  let s1 : State := { s with peerTag := (tag + 1) % 2 ^ 32 }
  if dest = s.modIdx j then
    let r := s1.placeChunk j src two seg chunk data
    if !r.2 || two then r.1
    else if seg = 16383 then r.1.setCk j { r.1.ck j with mfAcked := (r.1.ck j).mfAcked ++ [chunk] }
    else r.1.setCk j { r.1.ck j with acked := (r.1.ck j).acked ++ [(seg, chunk)] }
  else match s.memberFi j dest with
    | some fi => s1.sendSpread fi (leBytes 16 (ckHdr (s.rd (F.STR_SLOT_JOB_ID j)) src two seg chunk data.length tag).toNat ++ data)
    | none => s1

/-- The 64 KiB chunks of `len` bytes: number and length. -/
def chunksOf (len : Nat) : List (Nat × Nat) :=
  (List.range (ceilDiv len 65536)).map (fun i => (i, min 65536 (len - 65536 * i)))

/-- Segments whose every chunk is acknowledged. -/
def CkptSt.segsDone (v : CkptSt) : Nat :=
  ((segsOf v.regions).zipIdx.filter (fun x => (chunksOf x.1.2).all (fun c => v.acked.contains (x.2, c.1)))).length

/-- The manifest of slot j's copy, without its digest (R721). -/
def State.manifestBlank (s : State) (j : Nat) : List Byte :=
  let v := s.ck j
  let r (f : Fld) : Nat := s.rd f
  leBytes 8 ckMagic ++ leBytes 2 1 ++ leBytes 2 (r (F.STR_SLOT_JOB_ID j)) ++ leBytes 2 (s.modIdx j) ++ leBytes 2 (s.members j)
    ++ leBytes 2 v.regions.length ++ leBytes 2 (segCount v.regions) ++ leBytes 2 (r (F.RES_CKPT_CFG_COPY1 j))
    ++ leBytes 2 (r (F.RES_CKPT_CFG_COPY2 j)) ++ leBytes 8 (s.step j) ++ leBytes 8 (s.slot j).seed
    ++ leBytes 1 (r (F.NUM_SCALE_LS j)) ++ leBytes 1 (r (F.NUM_SCALE_PCM_G j)) ++ leBytes 1 (r (F.NUM_SCALE_PCM_WG j))
    ++ leBytes 1 (r (F.NUM_SCALE_PEND_G j) + 2 * r (F.NUM_SCALE_PEND_WG j)) ++ leBytes 2 (r (F.NUM_SCALE_CLEAN j)) ++ leBytes 2 0
    ++ leBytes 8 (s.kLap j) ++ leBytes 8 (regTotal v.regions) ++ List.replicate 0xC0 0
    ++ v.regions.flatMap (fun x => leBytes 8 x.base0 ++ leBytes 8 x.base1 ++ leBytes 8 x.len ++ leBytes 4 x.flags ++ leBytes 4 x.shard)
    ++ v.digests.flatMap (leBytes 32)

/-- The manifest, with its digest. -/
def State.manifest (s : State) (j : Nat) : List Byte :=
  let m := s.manifestBlank j
  m.take 0xE0 ++ sha256 m ++ m.drop 0x100

/-- The manifest leaves once every segment is acknowledged; its digest is shown in RES_MDIGEST_j_w (R717, R721). -/
def State.sendManifest (s : State) (j : Nat) : State :=
  let m := s.manifest j
  let d := (m.drop 0xE0).take 32
  let s1 := (List.range 4).foldl (fun (s : State) w => s.wr (F.RES_MDIGEST_DIGEST j w) (ofLe ((d.drop (8 * w)).take 8))) s
  (chunksOf m.length).foldl (fun (s : State) c =>
    s.sendChunk j (s.rd (F.RES_CKPT_CFG_COPY1 j)) (s.modIdx j) false 16383 c.1 ((m.drop (65536 * c.1)).take c.2)) s1

/-- The acknowledgements that have come: the manifest follows the last segment, and the copy is complete after it (R717).
[DESIGN CHOICE, notes/assumptions/62.md] -/
def State.captureProgress (s : State) (j : Nat) : State :=
  let v := s.ck j
  let n := v.segsDone
  let s1 := s.wr (F.RES_CKPT_STAT_SEGS j) n
  if !v.capturing || v.cause.isSome then s1
  else
    let s2 := if n = segCount v.regions && !v.mfSent then (s1.setCk j { v with mfSent := true }).sendManifest j else s1
    let parts := ceilDiv (0x100 + 32 * (v.regions.length + segCount v.regions)) 65536
    if n = segCount v.regions && (List.range parts).all (fun i => (s2.ck j).mfAcked.contains i) then
      (s2.setCk j { s2.ck j with capturing := false, complete := true }).wr (F.RES_CKPT_STAT_STATE j) 2
    else s2

/-! The halt (R702 to R712). -/

/-- A forward that the next halt finds unfinished is abandoned (R719). -/
def State.endForward (s : State) (j : Nat) (abandoned : Bool) (ms : Nat) : State :=
  let v := s.ck j
  if !v.area1.forwarding then s
  else
    let a := (s.copyArea j false).1
    let s1 := (s.setCk j { v with area1 := { v.area1 with forwarding := false } }).wr (F.RES_CKPT_STAT_STATE j) (if v.complete then 2 else 3)
    let s2 := if abandoned then s1 else s1.inc (F.RES_CNT_FORWARDED j)
    s2.emit (s2.ckEv 0 0x0B09 j (place 12 0 (v.area1.src.getD 0) ||| place 25 13 (s.memNat (a + 0x16) 2) ||| place 26 26 (b2n abandoned)
      ||| place 58 27 ms))

/-- Every stash page of the job is released (R306). -/
def State.stashDrop (s : State) (j : Nat) : State :=
  (s.diesOf j).foldl (fun (s : State) n =>
    let v := s.stashOf n j
    if v.pages.isEmpty && !v.overflowed then s
    else
      let a := 2 ^ 17 * s.rd (F.CD_STASH_LEDGER_LEDGER n j)
      (s.setStash n j { v with pages := [] }).write a (List.replicate (2 ^ 17) 0)) s

/-- The WLAPs that complete at K complete, and the clusters are held before their next issue. The flag says that every cluster of the
job has completed a WLAP for K. -/
def State.holdAtK (s : State) (j : Nat) : State × Bool :=
  let cls := s.clustersOf j
  let s1 := cls.foldl (fun (s : State) cl => match execWlapComplete cl s with | .next t => t | _ => s) s
  let all := cls.all (fun cl => (s1.cluster cl).lwait.toNat == s.now && s1.run cl == 1)
  (cls.foldl (fun (s : State) cl => s.setCluster cl { s.cluster cl with held := true }) s1, all)

/-- CKPT_HALT_START: at K, after the flip of the lap (R47), the slot is HALTED, unless it has left RUNNING (R701 to R703). -/
def execCkptHaltStart (j : Nat) (s : State) : Res :=
  match s.due 3 j with
  | none => ok s
  | some _ =>
    if !s.turn 5 then ok s else
    let s0 := s.dropArms 3 j
    if s.slotState j ≠ 2 || s.stopped then ok s0.latch
    else
      let k := s.now
      let ms := (1024 * (k - s.rd (F.RES_RESUME_Z j))) / 1000000
      let s1 := (((s0.endForward j true ms).setSlotState j 3).stashDrop j).wr (F.RES_CKPT_CTL_REQ j) 0
      let (s2, all) := s1.holdAtK j
      let t := s2.regTable j
      let total := regTotal t
      let cause := match s2.tableCause j t with | some c => some c | none => if all then none else some 4
      let e := k + haltLaps total
      let old := s2.ck j
      let v : CkptSt := { CkptSt.init with
        endLap := e, cause := cause, regions := s2.liveRegions j t
        area1 := { old.area1 with begun := false, forwarding := false }, area2 := { old.area2 with begun := false, forwarding := false }
        vop := old.vop, kept := old.kept }
      let s3 := (((((s2.setCk j v).wr (F.RES_HALT_K j) k).inc (F.RES_CNT_HALTS j)).wr (F.RES_CKPT_STAT_G j) (satTo 20 (total / 2 ^ 26))).wr
        (F.RES_CKPT_STAT_SEGS_TOTAL j) (satTo 14 (segCount t))).wr (F.RES_CKPT_STAT_SEGS j) 0
      let s4 := (s3.wr (F.RES_CKPT_STAT_STATE j) 0).emit (s3.ckEv 0 0x0B01 j
        (place 43 0 (s3.step j) ||| place 63 44 (satTo 20 (total / 2 ^ 26)) ||| place 95 64 (haltLaps total)))
      ok s4.latch

/-- A member that cannot go on with the halt: CKPT_ABORT (R710). ABSENT and FIRST_ABSENT are zero where no decision came.
[DEDUCED, notes/assumptions/64.md] -/
def State.ckAbort (s : State) (j : Nat) (late : Bool) (absent first : Nat) : State :=
  (s.setCk j { s.ck j with dec := none, capturing := false }).failJob j (s.ckEv 3 0x0B05 j
    (place 43 0 (s.step j) ||| place 44 44 (b2n late) ||| place 58 45 absent ||| place 71 59 first))

/-- The member holds the first valid CKDEC by K + 16 (R709, R710): step s + 1 starts at Z (R704). -/
def State.holdCkdec (s : State) (j : Nat) (m : Msg) : State :=
  let v := s.ck j
  if s.slotState j ≠ 3 || v.dec.isSome || s.kLap j + 16 < s.now then s
  else if bit (m.byte 0x22) 0 then s.ckAbort j false (m.le 0x24 2) (m.le 0x26 2)
  else
    let z := m.le 0x18 8
    (((s.setCk j { v with dec := some m }).wr (F.RES_RESUME_Z j) z).wr (F.RES_CKPT_STAT_FIRST j) (m.le 0x20 2)).setSchedule j z

/-- A halt-vote message (R707). -/
def State.ckWord (s : State) (j len type level k end_ first flags absent firstAbsent present : Nat) : Msg :=
  (msgOf len [(0, 1, type), (1, 2, s.rd (F.STR_SLOT_JOB_ID j)), (3, 1, level), (4, 2, s.modIdx j), (0x10, 8, k), (0x18, 8, end_),
    (0x20, 2, first), (0x22, 1, flags), (0x24, 2, absent), (0x26, 2, firstAbsent), (0x40, 64, present)]).withCrc 8

/-- The tree of the halt vote of K (R706): the Hurdle's, counted from K. -/
def State.ckVote (s : State) (j k : Nat) : VoteSpec where
  kind := 3
  slot := j
  key := k
  base := k
  mirror := s.classX
  routes := s.voteRoutes
  part := fun s l t => s.ckWord j (if l = 1 then 0x44 else 0x80) 0x44 l k t.top t.first 0 0 0
    (t.present >>> (s.modIdx j / treeSpan l * treeSpan l))
  decide_ := fun s t =>
    let n := s.members j
    let (absent, first) := absentees n t.present
    let m := if absent = 0 then s.ckWord j 0x40 0x45 (treeLevels n) k t.top t.first 0 0 8191 0
      else s.ckWord j 0x40 0x45 (treeLevels n) k 0 t.first 1 absent first 0
    let v : VoteSpec := ⟨3, j, k, k, s.classX, s.voteRoutes, fun _ _ _ => m, fun s _ => s⟩
    (s.voteDown v m).holdCkdec j m

/-- The capture begins: every segment is digested as it is read, in order, and leaves in chunks for COPY1 (R712, R715).
[DESIGN CHOICE, notes/assumptions/62.md] -/
def State.capture (s : State) (j : Nat) : State :=
  let v := s.ck j
  let segs := segsOf v.regions
  let s0 := s.setCk j { v with capturing := true, digests := segs.map (fun x => ofLe (sha256 (s.memBytes x.1 x.2))) }
  let s1 := s0.wr (F.RES_CKPT_STAT_STATE j) 1
  (segs.zipIdx.foldl (fun (s : State) (x : (Nat × Nat) × Nat) =>
    let s := s.reads x.1.1 x.1.2
    if s.stopped then s else (chunksOf x.1.2).foldl (fun (s : State) c =>
      s.sendChunk j (s.rd (F.RES_CKPT_CFG_COPY1 j)) (s.modIdx j) false x.2 c.1 (s.memBytes (x.1.1 + 65536 * c.1) c.2)) s) s1).captureProgress j

/-- CKPT_CAPTURE_START: from K + 2 the member sends its END and captures (R706, R711, R712, R718). -/
def execCkptCaptureStart (j : Nat) (s : State) : Res :=
  let v := s.ck j
  if s.slotState j ≠ 3 || v.sent || s.now < s.kLap j + 2 || s.stopped then ok s
  else
    let k := s.kLap j
    let me := s.modIdx j
    let s1 := s.setCk j { v with sent := true }
    let s2 := if s.members j ≤ 1 then s1.holdCkdec j (s1.ckWord j 0x40 0x45 0 k v.endLap me 0 0 8191 0)
      else s1.voteSend (s1.ckVote j k) (s1.ckWord j 0x40 0x43 0 k v.endLap me 0 0 0 0)
    ok ((if v.cause.isSome || s2.slotState j ≠ 3 then s2 else s2.capture j).tick)

/-- The slot of a halt-vote message, with its CRC good. -/
def State.ckMsgSlot (s : State) (m : Msg) (type : Nat) : Option Nat :=
  match s.slotOfJob (voteJob m) with
  | none => none
  | some j => if voteGood 3 m && m.byte 0 = type then some j else none

/-- A message for a collector: of the halt in hand, or of the one that is armed. -/
def State.ckTake (s : State) (j level : Nat) (m : Msg) : State :=
  let k := voteKey 3 m
  if s.slotState j = 3 && k = s.kLap j then s.voteTake (s.ckVote j k) level m
  else if s.arms.any (fun a => a.kind == 3 && a.who == j && a.t == k) && collects (s.members j) s.classX (s.modIdx j) level then
    s.voteHold (s.ckVote j k) level m
  else s

/-- CKCON_RECEIVE. -/
def execCkconReceive (m : Msg) (s : State) : Res :=
  match s.ckMsgSlot m 0x43 with
  | some j => ok (s.ckTake j 1 m)
  | none => ok s

/-- CKPART_RECEIVE. -/
def execCkpartReceive (m : Msg) (s : State) : Res :=
  match s.ckMsgSlot m 0x44 with
  | some j => ok (s.ckTake j (m.byte 3 + 1) m)
  | none => ok s

/-- CKPT_COLLECTOR_CLOSE. -/
def execCkptCollectorClose (j level : Nat) (s : State) : Res :=
  if s.slotState j = 3 then ok (s.voteShut (s.ckVote j (s.kLap j)) level) else ok s

/-- CKDEC_RECEIVE: the first valid copy is forwarded and held; kind 8 in `votes` marks that it has been (R370, R706). -/
def execCkdecReceive (m : Msg) (s : State) : Res :=
  match s.ckMsgSlot m 0x45 with
  | some j =>
    let k := voteKey 3 m
    let me := s.modIdx j
    let got := s.vote 8 (voteJob m) k
    if s.slotState j ≠ 3 || k ≠ s.kLap j || me = 0 || !got.closed.isEmpty then ok s
    else ok (((s.setVote { got with closed := [1] }).voteDown (s.ckVote j k) (resend 3 me m)).holdCkdec j m)
  | none => ok s

/-- CKPT_VOTE_TIMEOUT: no valid CKDEC by K + 16 (R710). -/
def execCkptVoteTimeout (j : Nat) (s : State) : Res :=
  if s.slotState j = 3 && (s.ck j).dec.isNone && s.kLap j + 16 ≤ s.now then ok (s.ckAbort j true 0 0) else ok s

/-- CKPT_ACK_RECEIVE: the holder acknowledges a message, or refuses it (R716, R717). -/
def execCkptAckReceive (j seg chunk : Nat) (good : Bool) (s : State) : Res :=
  let v := s.ck j
  if !v.capturing || v.cause.isSome || s.slotState j ≠ 3 then ok s
  else if !good then ok (s.setCk j { v with cause := some 1 })
  else if seg = 16383 then
    ok ((s.setCk j { v with mfAcked := if v.mfAcked.contains chunk then v.mfAcked else v.mfAcked ++ [chunk] }).captureProgress j)
  else ok ((s.setCk j { v with acked := if v.acked.contains (seg, chunk) then v.acked else v.acked ++ [(seg, chunk)] }).captureProgress j)

/-- The holder forwards the complete copy that it holds to its source's COPY2, segments first and the manifest last (R719).
[DEDUCED, notes/assumptions/64.md] -/
def State.forward (s : State) (j : Nat) : State :=
  let a := (s.copyArea j false).1
  let dest := s.memNat (a + 0x16) 2
  if s.rd F.STR_ROLE_CLASS < 2 || (s.copyArea j false).2 = 0 || !s.manifestValid a || 8191 ≤ dest then s
  else
    let src := s.memNat (a + 0xC) 2
    let ents := (List.range (s.memNat (a + 0x10) 2)).map (fun i => s.regEnt (a + 0x100 + 32 * i))
    let v := s.ck j
    let s1 := ((s.reads a (s.manifestLen a)).setCk j { v with area1 := { v.area1 with src := some src, forwarding := true } }).wr (F.RES_CKPT_STAT_STATE j) 4
    let s2 := (segsOf ents).zipIdx.foldl (fun (s : State) (x : (Nat × Nat) × Nat) =>
      let s := s.reads (a + 2 ^ 19 + x.2 * segBytes) x.1.2
      if s.stopped then s else (chunksOf x.1.2).foldl (fun (s : State) c =>
        s.sendChunk j dest src true x.2 c.1 (s.memBytes (a + 2 ^ 19 + x.2 * segBytes + 65536 * c.1) c.2)) s) s1
    (chunksOf (s.manifestLen a)).foldl (fun (s : State) c =>
      s.sendChunk j dest src true 16383 c.1 (s.memBytes (a + 65536 * c.1) c.2)) s2

/-- CKPT_RESUME: at Z the slot is RUNNING again (R709, R718, R719, R736).
[DEDUCED, notes/assumptions/64.md] -/
def execCkptResume (j : Nat) (s : State) : Res :=
  let v := s.ck j
  match v.dec with
  | none => ok s
  | some m =>
    let z := m.le 0x18 8
    if s.slotState j ≠ 3 || s.now ≠ z || s.stopped || !s.turn 5 then ok s
    else
      let segs := v.segsDone
      let s1 := if v.complete then s
        else
          let t := ((s.setCk j { v with capturing := false }).inc (F.RES_CNT_INCOMPLETE j)).wr (F.RES_CKPT_STAT_STATE j) 3
          t.emit (t.ckEv 2 0x0B06 j (place 13 0 segs ||| place 27 14 (segCount v.regions) ||| place 30 28 (v.cause.getD 0)
            ||| place 43 31 (s.rd (F.RES_CKPT_CFG_COPY1 j))))
      let s2 := (s1.clustersOf j).foldl (fun (s : State) cl => s.setCluster cl { s.cluster cl with held := false }) s1
      let s3 := s2.setSlotState j 2
      let s4 := s3.emit (s3.ckEv 0 0x0B02 j (place 31 0 (z - s.kLap j) ||| place 44 32 (m.le 0x20 2) ||| place 45 45 (b2n v.complete)
        ||| place 59 46 segs ||| place 123 60 (s.rd (F.RES_MDIGEST_DIGEST j 0))))
      ok ((((s4.dropVotes 3 (s.rd (F.STR_SLOT_JOB_ID j)) (fun t => decide (t ≤ s.kLap j))).dropVotes 8 (s.rd (F.STR_SLOT_JOB_ID j))
        (fun _ => true)).forward j).tick.latch)

/-- CKPT_FORWARD_END: the holder has finished, or given up, its forward (R719). -/
def execCkptForwardEnd (j src : Nat) (abandoned : Bool) (ms : Nat) (s : State) : Res :=
  if (s.ck j).area1.forwarding && (s.ck j).area1.src = some src then ok (s.endForward j abandoned ms) else ok s

/-- CKPT_MESSAGE_RECEIVE: a chunk arrives at its holder (R716). -/
def execCkptMessageReceive (srcFi : Nat) (hdr : BitVec 128) (data : List Byte) (s : State) : Res :=
  let h := hdr.toNat
  let len := bits h 69 53
  if bits h 127 120 ≠ 0x4B || len = 0 || 65536 < len || data.length ≠ len || s.stopped then ok s
  else
    match s.slotOfJob (bits h 119 108) with
    | none => ok (s.sendAck srcFi (bits h 31 0) false)
    | some j =>
      let r := s.placeChunk j (bits h 107 95) (bit h 94) (bits h 93 80) (bits h 79 70) data
      ok ((r.1.sendAck srcFi (bits h 31 0) r.2).tick)

/-! Verification (R723 to R726). -/

/-- A write of OP to RES_VERIFY_j. A verify in progress goes on.
[DEDUCED, notes/assumptions/64.md] -/
def State.startVerify (s : State) (j op : Nat) : State :=
  if s.rd (F.RES_VERIFY_STATE j) = 1 || (op ≠ 1 && op ≠ 2) then s
  else (s.setCk j { s.ck j with vop := op }).wr (F.RES_VERIFY_STATE j) 1

/-- VERIFY_ALL: OP 1. -/
def execVerifyAll (j : Nat) (s : State) : Res := ok (if j < 16 then s.startVerify j 1 else s)

/-- VERIFY_MARKED: OP 2. -/
def execVerifyMarked (j : Nat) (s : State) : Res := ok (if j < 16 then s.startVerify j 2 else s)

/-- Steps 1 to 4 of R723: the result code of what fails first, 0 if nothing does.
[DEDUCED, notes/assumptions/64.md] -/
def State.verifyHeader (s : State) (j a : Nat) : Nat :=
  let want := ofLe ((List.range 4).flatMap (fun w => leBytes 8 (s.rd (F.RES_VDIG_DIGEST j w))))
  let t := s.regTable j
  let ents := (List.range (s.memNat (a + 0x10) 2)).map (fun i => s.regEnt (a + 0x100 + 32 * i))
  if !s.manifestValid a || s.memNat (a + 0xE0) 32 ≠ want then 1
  else if s.memNat (a + 0xA) 2 % 4096 ≠ s.rd (F.STR_SLOT_JOB_ID j) || s.memNat (a + 0xC) 2 ≠ s.modIdx j || s.memNat (a + 0xE) 2 ≠ s.members j
      || s.memNat (a + 0x18) 8 ≠ s.srd (F.NUM_JOB_INIT_STEP_INIT j)
      || ents.map (fun x => (x.len, x.flags)) ≠ t.map (fun x => (x.len, x.flags)) then 2
  else 0

/-- DIGEST_MISMATCH, for the first 16 of a verify; each is counted (R724).
[DEDUCED, notes/assumptions/64.md] -/
def State.mismatches (s : State) (j a : Nat) (l : List (Nat × Nat)) : State :=
  ((l.take 16).foldl (fun (s : State) (x : Nat × Nat) =>
    s.emit (s.ckEv 1 0x0B03 j (place 13 0 x.1 ||| place 15 14 x.2 ||| place 59 16 (s.memNat (a + 0x18) 8) ||| place 72 60 (s.memNat (a + 0xC) 2)))) s).add
    (F.RES_CNT_MISMATCH j) l.length

/-- VERIFY_DONE.
[DEDUCED, notes/assumptions/64.md] -/
def execVerifyDone (j ms : Nat) (s : State) : Res :=
  if 16 ≤ j || s.rd (F.RES_VERIFY_STATE j) ≠ 1 || s.stopped then ok s
  else
    let a := 4096 * s.rd (F.RES_VBASE_BASE j)
    let s := s.reads a (s.manifestLen a)
    let head := if (s.ck j).vop = 1 then s.verifyHeader j a else 0
    let finish (s : State) (result bad firstBad done : Nat) : State :=
      let s1 := ((((s.wr (F.RES_VERIFY_STATE j) (if result = 0 then 2 else 3)).wr (F.RES_VERIFY_CAUSE j) result).wr (F.RES_VERIFY_BAD j) bad).wr
        (F.RES_VERIFY_FIRST_BAD j) firstBad)
      let pend := s.memNat (a + 0x2B) 1
      let s2 := if result = 0 then
          (s1.wr (F.RES_VERIFY_RESTORE j) 1).setCk j { s1.ck j with vop := 0, kept := some (s.memNat (a + 0x2C) 2, pend % 2, pend / 2 % 2) }
        else s1.setCk j { s1.ck j with vop := 0 }
      (s2.emit (s2.ckEv (if result = 0 then 0 else 1) 0x0B0A j (place 1 0 result ||| place 15 2 bad ||| place 29 16 done ||| place 61 30 ms))).tick
    if head ≠ 0 then ok (finish (s.mismatches j a [(0, head)]) head 0 0 0)
    else
      let segs := segsOf (s.regTable j)
      let map := 0x7F800 + a
      let marked (n : Nat) : Bool := bit (s.memNat (map + n / 8) 1) (n % 8)
      let todo := segs.zipIdx.filter (fun x => (s.ck j).vop = 1 || marked x.2)
      let digests := a + 0x100 + 32 * s.memNat (a + 0x10) 2
      let bad := (todo.filter (fun x => ofLe (sha256 (s.memBytes x.1.1 x.1.2)) ≠ s.memNat (digests + 32 * x.2) 32)).map (·.2)
      let bytes := (List.range (ceilDiv segs.length 8)).map (fun i =>
        BitVec.ofNat 8 ((List.range 8).foldl (fun w b => if bad.contains (8 * i + b) then w ||| 2 ^ b else w) 0))
      let seen := todo.foldl (fun (s : State) x => s.reads x.1.1 x.1.2) s
      let s1 := (seen.mismatches j a (bad.map (fun n => (n, 0)))).write map bytes
      ok (finish s1 (if bad.isEmpty then 0 else 3) bad.length (bad.headD 0) todo.length)

/-! Self-test windows (R729 to R736). -/

/-- A hot spare that holds no slot tests every cluster and Relay engine (R729). -/
def State.idleSpare (s : State) : Bool := s.rd F.RES_CFG_SPARE == 1 && (List.range 16).all (fun j => s.slotState j == 0)

/-- Is a test of kind 5 still to end by Z − 64 (R736)? -/
def State.haltTest (s : State) (j : Nat) : Bool :=
  s.slotState j == 3 && decide (s.kLap j + 2 ≤ s.now) && (s.ck j).dec.isSome && decide (s.now + 1024 + 64 ≤ s.rd (F.RES_RESUME_Z j))

/-- The unit of a self-test event, as `Arm.who` names it. -/
def testWho (kind die unit : Nat) : Nat := kind * 2 ^ 20 + die * 2 ^ 10 + unit

/-- Laps of a window of each kind (R730). -/
def testLaps (kind : Nat) : Nat := match kind with | 1 => 1024 | 2 => 2048 | 3 => 256 | 4 => 512 | _ => 1024

/-- May the unit be tested now: a reserve unit, or a held cluster of a halted job (R730, R731, R736)?
[DESIGN CHOICE, notes/assumptions/65.md] -/
def State.testable (s : State) (kind die unit : Nat) : Bool :=
  !s.tests.any (fun x => x.kind == kind && x.die == die && x.unit == unit) &&
  match kind with
  | 1 | 5 =>
    let cl : ClusterId := ⟨die, unit⟩
    let slot := s.slotOfCl cl
    decide (die < 8) && decide (unit < 288)
      && !s.tests.any (fun x => (x.kind == 1 || x.kind == 5) && x.die == die && x.unit / 72 == unit / 72)
      && (if kind = 1 then s.role cl == 1 || (s.role cl == 0 && slot.isNone)
        else s.role cl == 0 && s.deferred.contains (clKey cl) && (match slot with | some j => s.haltTest j | none => false))
  | 2 => decide (10 ≤ die) && decide (die < 14) && decide (unit < 13) && s.portState (13 * (die - 10) + unit) == 10
  | 3 =>
    let e := 5 * (die - 10) + unit
    decide (10 ≤ die) && decide (die < 14) && decide (unit < 5)
      && (s.rd (F.RLY_ENG_ROLE e) == 1 || (s.rd (F.RLY_ENG_ROLE e) == 0 && s.idleSpare))
  | 4 => true
  | _ => false

/-- The window opens on the unit. -/
def State.openTest (s : State) (kind die unit : Nat) : State :=
  let t (role : Nat) : State := { s with tests := s.tests ++ [⟨kind, die, unit, role⟩] }
  match kind with
  | 1 | 5 =>
    let s1 := (t (s.role ⟨die, unit⟩)).wr (F.CL_STATUS_ROLE die unit) 2
    if kind = 1 then s1.showPart (clPart ⟨die, unit⟩) else s1
  | 2 => (t 10).setPortState (13 * (die - 10) + unit) 11
  | 3 => t 1
  | _ => t 0

/-- SELFTEST_RESULT (0x0B08). -/
def testRecord (kind die unit : Nat) (failed : Bool) (pattern : Nat) : Ev :=
  ⟨b2n failed, 0x0B08, srcOf die unit, none, place 3 0 kind ||| place 12 4 unit ||| place 13 13 (b2n failed) ||| place 29 14 pattern⟩

/-- A self-test event that is not applied at its lap is reported (R48); a window that does not open leaves its unit as it is.
[DESIGN CHOICE, notes/assumptions/65.md] -/
def State.missTest (s : State) (opening : Bool) (who : Nat) : State :=
  let kind := who / 2 ^ 20
  let die := who / 2 ^ 10 % 2 ^ 10
  let unit := who % 2 ^ 10
  let s1 : State := if opening then s else { s with tests := s.tests.filter (fun x => !(x.kind == kind && x.die == die && x.unit == unit)) }
  let s2 := match s.tests.find? (fun x => x.kind == kind && x.die == die && x.unit == unit) with
    | some x =>
      if opening then s1
      else if kind = 1 || kind = 5 then
        (if s1.role ⟨die, unit⟩ = 2 then s1.wr (F.CL_STATUS_ROLE die unit) x.role else s1).setCluster ⟨die, unit⟩
          { s1.cluster ⟨die, unit⟩ with tested := false }
      else if kind = 2 then s1.setPortState (13 * (die - 10) + unit) 10
      else s1
    | none => s1
  (s2.emit (testRecord kind die unit true 0))

/-- The Resilience block arms a self-test event of its own (kind 5 opening, kind 6 closing); it is module-scoped, and one that is not
accepted is reported (R78, R79, R731).
[DESIGN CHOICE, notes/assumptions/65.md] -/
def State.armTest (s : State) (kind who t : Nat) : State × Bool :=
  match s.armReason t true with
  | none => (s.addArm ⟨kind, who, t, false⟩, true)
  | some w => ((s.latchReject w kind t 0).emit (armRejected 1 w kind t none), false)

/-- SELFTEST_WINDOW_OPEN: where no window is armed for the unit, the block arms one, with the least lead of R78; at its lap, after every
other event of the lap (R47), the window opens, and its end is armed (R730, R731, R736).
[DESIGN CHOICE, notes/assumptions/65.md] -/
def execSelftestWindowOpen (kind die unit : Nat) (s : State) : Res :=
  let who := testWho kind die unit
  if s.stopped then ok s
  else match s.due 5 who with
    | some _ =>
      if !s.turn 7 then ok s
      else
        let s1 := s.dropArms 5 who
        if !s.testable kind die unit then ok (s1.missTest true who).latch
        else
          let r := s1.armTest 6 who (s.now + testLaps kind)
          ok (if r.2 then r.1.openTest kind die unit else r.1).latch
    | none =>
      let taken := s.arms.any (fun a => a.kind == 5 && (a.who == who || ((kind == 1 || kind == 5) && (a.who / 2 ^ 20 == 1 || a.who / 2 ^ 20 == 5)
        && a.who / 2 ^ 10 % 2 ^ 10 == die && a.who % 2 ^ 10 / 72 == unit / 72)))
      if taken || !s.testable kind die unit then ok s else ok (s.armTest 5 who (s.now + 16)).1

/-- A cluster comes back from a test: HALTED like the others of its job where the job has stopped meanwhile, IDLE where its slot has
given the partition up (R232).
[DESIGN CHOICE, notes/assumptions/65.md] -/
def State.testReturn (s : State) (cl : ClusterId) : State :=
  match s.slotOfCl cl with
  | some j => if s.slotState j = 4 && s.run cl ≠ 5 && s.run cl ≠ 6 then (s.setRun cl 5).abandonCl cl else s
  | none => s.idleCl cl

/-- What a result does to the unit: one that passes keeps its role; a cluster that fails becomes FAILED with CLUSTER_FAULT of SEV NOTICE
(R732). A cluster that failed while under test stays FAILED.
[DESIGN CHOICE, notes/assumptions/65.md] -/
def State.testResult (s : State) (x : TestSt) (r : TestResult) : State :=
  let s1 := s.inc (if r.passed then F.RES_TEST_CNT_PASSED else F.RES_TEST_CNT_FAILED)
  let s2 := match x.kind with
    | 1 | 5 =>
      let cl : ClusterId := ⟨x.die, x.unit⟩
      let back := if s1.role cl = 2 then s1.wr (F.CL_STATUS_ROLE x.die x.unit) x.role else s1
      let c := { back.cluster cl with tested := r.passed, lastTest := s.now }
      let s3 : State := { back.setCluster cl c with deferred := back.deferred.filter (· ≠ clKey cl) }
      let s4 := if x.kind = 5 then (s3.inc F.RES_TEST_CNT_IN_HALT).testReturn cl else s3
      if r.passed || s4.role cl = 3 then s4.showPart (clPart cl)
      else
        let s5 := ((s4.wr (F.CL_FAULT_CODE x.die x.unit) 0x0C20).wr (F.CL_FAULT_CAUSE x.die x.unit) 5).inc (F.CD_ECC_FAULTS x.die)
        let s6 := s5.emit ⟨1, 0x0C20, srcOf x.die x.unit, none, place 7 0 5 ||| place 35 29 (s5.logical cl)⟩
        let s7 := if s6.inService cl then s6.setCluster cl { s6.cluster cl with lostIdx := s6.logical cl } else s6
        ((s7.wr (F.CL_STATUS_ROLE x.die x.unit) 3).wr (F.CL_STATUS_LOGICAL x.die x.unit) 127).partCheck (clPart cl)
    | 2 => s1.setPortState (13 * (x.die - 10) + x.unit) (if r.passed then 10 else 9)
    | 3 => if r.passed then s1 else s1.relayEngineFail (5 * (x.die - 10) + x.unit)
    | _ => s1
  s2.emit (testRecord x.kind x.die x.unit (!r.passed) r.pattern)

/-- SELFTEST_WINDOW_CLOSE, at the lap armed for it and after every other event of the lap (R47, R731).
[DESIGN CHOICE, notes/assumptions/65.md] -/
def execSelftestWindowClose (kind die unit : Nat) (r : TestResult) (s : State) : Res :=
  let who := testWho kind die unit
  match s.due 6 who with
  | none => ok s
  | some _ =>
    if !s.turn 7 || s.stopped then ok s
    else
      let s1 := s.dropArms 6 who
      match s.tests.find? (fun x => x.kind == kind && x.die == die && x.unit == unit) with
      | none => ok s1
      | some x => ok (({ s1 with tests := s1.tests.filter (fun y => y ≠ x) } : State).testResult x r).latch

/-- SELFTEST_DEFERRED: an ACTIVE cluster of a held partition has gone 16 × TEST_PERIOD pace marks without a test (R735). -/
def execSelftestDeferred (cl : ClusterId) (s : State) : Res :=
  let due := (s.cluster cl).lastTest + 4096 * (16 * s.rd F.RES_CFG_TEST_PERIOD)
  if s.role cl = 0 && (s.slotOfCl cl).isSome && !s.deferred.contains (clKey cl) && due ≤ s.now then
    ok ((({ s with deferred := s.deferred ++ [clKey cl] } : State).inc F.RES_TEST_CNT_DEFERRED).emit
      ⟨1, 0x0B04, srcOf cl.die cl.idx, none, place 3 0 5 ||| place 8 4 (clPart cl) ||| place 17 9 cl.idx⟩)
  else ok s

end Sys2Proof.Machine
end

