-- ==== Sys2Proof/Machine/LapMark.lean ====
section
/-!
DEFINITION. The lap mark (02): what one does besides the count and the marks themselves. Collectors that hold every message send
(R366), and an armed event whose lap has passed is never applied (R48).
-/

namespace Sys2Proof.Machine
open Sys2Proof

/-- The vote of slot j that `v` belongs to, while this module takes part in it. -/
def State.openVote (s : State) (j : Nat) (v : VoteSt) : Option VoteSpec :=
  match v.kind with
  | 0 => if s.inPre j then some (s.preVote j v.t) else none
  | 1 => if (s.slotState j == 2 || s.slotState j == 3) && (s.slot j).paceAt == some v.t then some (s.paceVote j v.t) else none
  | 2 => if s.inVote j && (s.slot j).marked && v.t == s.step j then some (s.hurdleVote j) else none
  | 3 => if s.slotState j == 3 && v.t == s.kLap j then some (s.ckVote j v.t) else none
  | _ => none

/-- Every collector of this module that holds every child's message at this lap mark sends, or decides (R366, R639, R684, R706).
[DEDUCED, notes/assumptions/90.md] -/
def State.markVotes (s : State) : State :=
  s.votes.foldl (fun (s : State) v => match s.slotOfJob v.job with
    | some j => (match s.openVote j v with | some w => s.voteMark w | none => s)
    | none => s) s

/-- What R48 makes of an event that the module has not applied at its lap: a job stops, and a module-scoped event is reported in its own
code. After a stop of the coherence domain every slot stops anyway. No decline reason of CLUSTER_ROTATED names a rotation that passed its lap: the
model shows reason 0.
[DEDUCED, notes/assumptions/73.md] [DESIGN CHOICE, notes/assumptions/104.md] -/
def State.missArm (s : State) (a : Arm) : State :=
  let drop : State := { s with arms := s.arms.filter (· ≠ a) }
  if s.stopped then drop
  else if a.job then
    let st := s.slotState a.who
    if st = 0 || st = 4 || (st = 1 && a.kind ≠ 0) then (if a.kind = 0 then s.disarm a.who else drop)
    else if a.kind = 0 then (s.latchReject 0 0 a.t (s.rd (F.STR_SLOT_JOB_ID a.who))).checkFatal a.who (if s.areaState a.who = 2 then 23 else s.checkArea a.who) true a.t
    else
      let t := (s.latchReject 0 a.kind a.t (s.rd (F.STR_SLOT_JOB_ID a.who))).failJob a.who (armRejected 3 0 a.kind a.t (s.jobOf a.who))
      { t with arms := t.arms.filter (· ≠ a) }
  else match a.kind with
    | 0 => (s.disarm a.who).checkFail a.who (s.checkArea a.who) true false 8191 a.t
    | 4 => match s.rot a.who with
      | some r => drop.rotDecline a.who r 0
      | none => drop
    | 5 | 6 => drop.missTest (a.kind == 5) a.who
    | _ => drop

/-- A resume that has not been applied at Z, an event in the place of kind 3, stops its job (R48, R709). -/
def State.missResume (s : State) (j : Nat) : State :=
  let z := s.rd (F.RES_RESUME_Z j)
  if s.slotState j = 3 && (s.slot j).ck.dec.isSome && decide (z < s.now) && !s.stopped then
    (s.latchReject 0 3 z (s.rd (F.STR_SLOT_JOB_ID j))).failJob j (armRejected 3 0 3 z (s.jobOf j))
  else s

/-- The events whose lap has passed. -/
def State.missArms (s : State) : State :=
  (List.range 16).foldl (fun (s : State) j => s.missResume j)
    ((s.arms.filter (fun a => decide (a.t < s.now))).foldl (fun (s : State) a => s.missArm a) s)

/-- LAP_MARK: the count increments; the marks of the lap are taken; delays measured become valid; LMOS leave; an armed event whose
lap has passed is never applied, and R48 governs; and the values that RL fields show are taken again (R10, R48, R52, R56, R60 to
R66).
[DEDUCED, notes/assumptions/73.md] -/
def execLapMark (s : State) : Res :=
  let begun := s.rails && decide (6 ≤ s.rd F.STR_START_STATE) && decide (s.rd F.STR_START_STATE ≤ 8)
  let s1 := s.takeMarks
  let st := s1.rd F.LAP_STATUS_STATE
  let start := st = 0 && s1.rd F.LAP_STATUS_ROLE = 1 && begun
  let up := s1.rd F.LAP_STATUS_UPSTREAM
  let got := !s.lap.marks.isEmpty
  let gotUp := s.lap.marks.any (fun m => m.port == up)
  let gotEp := s.lap.marks.any (fun m => m.epoch == s1.rd F.LAP_STATUS_EPOCH)
  let s2 := { s1 with lap := { s1.lap with
    last := s.lap.marks
    marks := []
    quiet := if got then 1 else s1.lap.quiet + 1
    quietUp := if gotUp then 1 else s1.lap.quietUp + 1
    quietEpoch := if gotEp then 1 else s1.lap.quietEpoch + 1
    lockHops := if st = 2 then some (s1.rd F.LAP_STATUS_HOPS) else s1.lap.lockHops
    relockLaps := if st = 4 then s1.lap.relockLaps + 1 else s1.lap.relockLaps
    sinceReset := s1.lap.sinceReset + 1
    measured := [] } }
  let s3 := s1.lap.measured.foldl (fun (s : State) p => if s.portUp p then s.wr (F.LAP_PORT_DELAY_VALID p) 1 else s) s2
  let s4 := if start then
      let s5 := ({ s3 with lap := { s3.lap with originates := true, started := true } }).wr F.LAP_COUNT_COUNT (s3.rd F.LAP_START_START)
      let s6 := ((s5.wr F.LAP_STATUS_HOPS 0).wr F.LAP_STATUS_MASTER (s5.rd F.ACM_CFG_FI))
      if s.rd F.LAP_CFG_REF_EN = 1 then s6.wr F.LAP_STATUS_STATE 1 else s6.lockLap
    else s3.wr F.LAP_COUNT_COUNT (s3.now + 1)
  let s7 := if st = 3 then s4.wr F.LAP_HOLD_HOLD_LAPS (s4.rd F.LAP_HOLD_HOLD_LAPS + 1) else s4
  let s8 : State := { s7 with queues := s7.queues.map (fun (p : Nat × QueueSt) => (p.1, if s7.rd (F.SQ_STAT_STATE p.1) = 4 then
    { p.2 with heldLaps := p.2.heldLaps + 1 } else p.2)) }
  ok s8.markOut.missArms.markVotes.latch

end Sys2Proof.Machine
end

