-- ==== Sys2Proof/Machine/Start.lean ====
section
/-!
DEFINITION. The Bufiwell image and the start sequence (16), and what resets and powers the module (18): image checks, settings,
the start steps, module reset, standby power and its removal.
-/

namespace Sys2Proof.Machine
open Sys2Proof

/-! The image (R655, R658, R659). -/

/-- `n` bytes of an image or a directory from `i` on, as a little-endian number. -/
def imgLe (b : List Byte) (i n : Nat) : Nat := ofLe ((b.drop i).take n)

/-- Is a directory copy valid (R655)? "BFWDIR" and two zero bytes. -/
def dirValid (d : List Byte) : Bool :=
  decide (32 ≤ d.length) && imgLe d 0 8 == 0x524944574642 && imgLe d 0x1C 4 == crc32c (d.take 0x1C)

/-- The slot to try first: 0 A, 1 B (R655, R656).
[DEDUCED, notes/assumptions/66.md] -/
def preferred (d0 d1 : List Byte) : Nat :=
  let pick (d : List Byte) : Nat := if imgLe d 0xC 1 = 1 then 1 else 0
  match dirValid d0, dirValid d1 with
  | true, true => if imgLe d0 8 4 < imgLe d1 8 4 then pick d1 else pick d0
  | true, false => pick d0
  | false, true => pick d1
  | false, false => 0

/-- Entry i of the section table: type, offset, size, and whether its zero fields are zero. -/
def imgEntry (b : List Byte) (i : Nat) : Nat × Nat × Nat × Bool :=
  let e := 0x20 + 16 * i
  (imgLe b e 2, imgLe b (e + 4) 4, imgLe b (e + 8) 4, imgLe b (e + 2) 2 == 0 && imgLe b (e + 12) 4 == 0)

/-- The bytes of a section, if the image has it. -/
def imgSection (b : List Byte) (type : Nat) : Option (List Byte) :=
  (((List.range 8).map (imgEntry b)).find? (fun e => e.1 == type)).map (fun e => (b.drop e.2.1).take e.2.2.1)

/-- SIZE of an image. -/
def imgSize (b : List Byte) : Nat := imgLe b 0xC 4

/-- The settings records: offset, zero word, VALUE (R662). -/
def imgSettings (b : List Byte) : List (Nat × Nat × Nat) :=
  match imgSection b 1 with
  | none => []
  | some x => (List.range (x.length / 16)).map (fun i => (imgLe x (16 * i) 4, imgLe x (16 * i + 4) 4, imgLe x (16 * i + 8) 8))

/-- Does the reserve map mark cluster i of die n? -/
def imgMarked (b : List Byte) (n i : Nat) : Bool :=
  match imgSection b 2 with
  | none => false
  | some x => bit (imgLe x (40 * n + 8 * (i / 64)) 8) (i % 64)

/-- The PACE entry of point p. -/
def imgPace (b : List Byte) (p : Nat) : Nat := match imgSection b 3 with | none => 0 | some x => imgLe x (8 * p) 8

/-- W of R631: 1,024 × (f / 1.60 GHz) × (V / 800 mV)², half rounded up. -/
def paceWeight (mhz mv : Nat) : Nat := (2 * 1024 * mhz * mv * mv + 1600 * 640000) / (2 * (1600 * 640000))

/-- The first entry of a list that is bad, with its number. -/
def firstBad (l : List Bool) : Option Nat := (l.zipIdx.find? (fun x => x.1)).map (·.2)

/-- The section-table entry that breaks R659; 8 where a required section is missing.
[DEDUCED, notes/assumptions/66.md] -/
def sectionsBad (b : List Byte) : Option Nat :=
  let es := (List.range 8).map (imgEntry b)
  let least (t : Nat) : Nat := match t with | 2 => 320 | 3 => 72 | 4 => 4 | 5 => 16 | _ => 0
  match firstBad (es.zipIdx.map (fun x =>
    let (t, off, size, zero) := x.1
    t != 0 && (!zero || off % 1024 != 0 || decide (off < 0x400) || decide (imgSize b < off + size) || decide (size < least t)
      || es.zipIdx.any (fun y => decide (y.2 < x.2) && y.1.1 != 0 && (y.1.1 == t
          || (decide (off < y.1.2.1 + y.1.2.2.1) && decide (y.1.2.1 < off + size))))))) with
  | some i => some i
  | none => if [1, 2, 3, 4, 5].all (fun t => (imgSection b t).isSome) then none else some 8

/-- The settings record that R662 refuses. -/
def settingsBad (b : List Byte) : Option Nat :=
  let rs := imgSettings b
  firstBad (rs.zipIdx.map (fun x =>
    let (off, z, v) := x.1
    let m := (imageMask off).toNat
    off % 8 != 0 || z != 0 || m == 0 || (v ||| m) != m || rs.zipIdx.any (fun y => decide (y.2 < x.2) && y.1.1 == off)))

/-- The partition whose marks are not exactly 4 (R660 reason 10). -/
def reserveBad (b : List Byte) : Option Nat :=
  firstBad ((List.range 32).map (fun p => ((partClusters p).filter (fun c => imgMarked b c.die c.idx)).length != 4))

/-- The PACE entry that is wrong (R660 reason 11). -/
def paceBad (b : List Byte) : Option Nat :=
  firstBad ((List.range 9).map (fun p =>
    let w := imgPace b p
    let mv := bits w 51 42
    bits w 63 52 != 1600 - 100 * p || decide (mv < 550) || decide (850 < mv) || (p != 0 && decide (bits (imgPace b (p - 1)) 51 42 ≤ mv))
      || bits w 41 31 != paceWeight (1600 - 100 * p) mv))

/-! Settings (R662 to R664). -/

/-- A settings record sets every Image field of its register; one of a job-scope register sets the slot's template too, and one that
names REGION_MIB is marked (R779). -/
def State.setting (s : State) (r : Nat × Nat × Nat) : State :=
  let off := r.1
  let m := imageMask off
  let s1 := s.setReg off (mergeMask m (s.reg off) (BitVec.ofNat 64 r.2.2))
  if areaOf off = 16 then s1
  else
    let t := sset resetWord s1.template off (mergeMask m (sget resetWord s1.template off) (BitVec.ofNat 64 r.2.2))
    let region := (List.range 8).any (fun n => (List.range 16).any (fun j => off == Reg.CD_BWD_CFG n j))
    { s1 with template := if region then sset resetWord t (off + 1) 1 else t }

/-- MAX_MODULES of a class (STR_ROLE). -/
def classModules (c : Nat) : Nat := match c with | 0 => 256 | 1 => 1024 | 2 => 4096 | _ => 8192

/-- The settings of an image. -/
def State.settings (s : State) (b : List Byte) : State :=
  let s1 := (imgSettings b).foldl (fun (s : State) r => s.setting r) { s with staged := [], template := [] }
  let s2 := (s1.wr F.STR_ROLE_MAX_MODULES (classModules (s1.rd F.STR_ROLE_CLASS))).showFabric
  (List.range 16).foldl (fun (s : State) j => s.defaultRegions j []) s2

/-- The cross-field check that the image's settings fail, for area 16 and the slot templates, every slot EMPTY (R660 reason 12). -/
def State.settingsCheck (s : State) (b : List Byte) : Nat :=
  let t := s.settings b
  if t.check16 ≠ 0 then t.check16 else ((List.range 16).map t.checkSlot).find? (· ≠ 0) |>.getD 0

/-! Image checks (R660). -/

/-- The fused key hash that the image's key matches. -/
def State.imageKey (s : State) (b : List Byte) : Option Nat :=
  let h := ofBe (sha384 ((b.drop 0x200).take 97))
  (List.range 4).find? (fun k => bit (s.rd F.STR_FUSE_KEYS) k && Config.fusedKeyHash k == h)

/-- Does the signature verify (R660 reason 5)? -/
def sigGood (b : List Byte) : Bool :=
  let be (i : Nat) : Nat := ofBe ((b.drop i).take 48)
  imgLe b 0x200 1 == 4 && ecdsaP384 (b.take 0x200) (be 0x201) (be 0x231) (be 0x280) (be 0x2B0)

/-- The first check of R660 that a flash slot fails: reason and detail; none where the image is accepted. -/
def State.imageReject (s : State) (f : FlashSlot) : Option (Nat × Nat) :=
  let b := f.bytes
  let size := imgSize b
  let parts := imgLe b 0xA 2
  let code (n : Nat) (bad : Bool) : Option (Nat × Nat) := if bad then some (n, 0) else none
  let det (n : Nat) (x : Option Nat) : Option (Nat × Nat) := x.map (fun d => (n, d))
  (code 1 (imgLe b 0 8 != 0x4C4C455749465542 || imgLe b 8 2 != 1)).orElse fun _ =>
  (code 2 (size % 4096 != 0 || decide (size < 8192) || decide (15 * 2 ^ 20 < size) || !f.readOk || decide (b.length < size))).orElse fun _ =>
  (code 3 (decide (3 < parts) || !bit parts (if Config.is1T then 1 else 0))).orElse fun _ =>
  (code 4 (s.imageKey b).isNone).orElse fun _ =>
  (code 5 (!sigGood b)).orElse fun _ =>
  (code 6 (ofLe (sha384 ((b.take size).drop 0x400)) != imgLe b 0xA0 48)).orElse fun _ =>
  (code 7 (decide (imgLe b 0x18 4 < s.rd F.STR_FUSE_ROLLBACK_MIN))).orElse fun _ =>
  (det 8 (sectionsBad b)).orElse fun _ =>
  (det 9 (settingsBad b)).orElse fun _ =>
  (det 10 (reserveBad b)).orElse fun _ =>
  (det 11 (paceBad b)).orElse fun _ =>
  (if s.settingsCheck b ≠ 0 then some (12, s.settingsCheck b) else none)

/-! The start steps (R656, R661, R665 to R669). -/

/-- START_FAILED. -/
def startFailed (sev step cause unit : Nat) : Ev :=
  ⟨sev, 0x0104, srcModule 0, none, place 3 0 step ||| place 11 4 cause ||| place 27 12 unit⟩

/-- A failed step in STR_START. -/
def State.noteFail (s : State) (step cause unit : Nat) : State :=
  ((s.wr F.STR_START_FAIL_STEP step).wr F.STR_START_CAUSE cause).wr F.STR_START_UNIT unit

/-- A failure at steps 1 to 4: FAILED, and every regulator but the standby domain's off (R668). -/
def State.startStops (s : State) (step cause unit : Nat) : State :=
  ((((s.noteFail step cause unit).emit (startFailed 4 step cause unit)).setStart 9).pin F.STR_PINS_PWRGD 0 false).regulatorsOff

/-- A flash slot is refused. -/
def imageRejected (slot : Nat) (r : Nat × Nat) : Ev :=
  ⟨1, 0x0102, srcModule 0, none, place 0 0 slot ||| place 4 1 r.1 ||| place 28 5 r.2⟩

/-- A flash slot is accepted (R656, R661). -/
def State.imageAccept (s : State) (slot : Nat) (fallback : Bool) (b : List Byte) (ms : Nat) : State :=
  let rb := imgLe b 0x18 4
  let build := imgLe b 0x10 8
  let s1 := ((((s.wr F.STR_IMAGE_SLOT slot).wrB F.STR_IMAGE_FALLBACK fallback).wr F.STR_IMAGE_KEY ((s.imageKey b).getD 0)).wr
    F.STR_IMAGE_ROLLBACK rb).wr F.STR_BUILD_BUILD build
  let s2 := if imgLe b 0x1C 4 % 2 = 1 && s1.rd F.STR_FUSE_ROLLBACK_MIN < rb then s1.wr F.STR_FUSE_ROLLBACK_MIN rb else s1
  let s3 : State := { s2 with image := b.take (imgSize b), imgDigest := imgLe b 0xA0 48 }
  (s3.emit ⟨0, 0x0101, srcModule 0, none, place 0 0 slot ||| place 1 1 (b2n fallback) ||| place 65 2 build ||| place 97 66 rb
    ||| place 113 98 ms⟩).setStart 2

/-- POWER_TRIP, from MON_TRIP, at the next start after a power-off (R649).
[DEDUCED, notes/assumptions/55.md] [DEDUCED, notes/assumptions/75.md] -/
def State.powerTrip (s : State) : State :=
  if !s.tripped then s
  else ({ s with tripped := false } : State).emit ⟨4, 0x0308, srcModule 0, none,
    place 1 0 (s.rd F.MON_TRIP_CAUSE) ||| place 11 2 (s.rd F.MON_TRIP_SENSOR) ||| place 23 12 (s.rd F.MON_TRIP_READING)
      ||| place 87 24 (s.rd F.MON_TRIP_LAP)⟩

/-- Step 1 ends: the preferred slot is tried first, then the other; the flash bus is released (R656, R657, R751). -/
def State.stepImage (s : State) (d0 d1 : List Byte) (a b : FlashSlot) (msA msB : Nat) : State :=
  let s0 := s.powerTrip.pin F.STR_PINS_XSPI_OWN 3 false
  let one := preferred d0 d1
  let at_ (n : Nat) : FlashSlot := if n = 0 then a else b
  let ms (n : Nat) : Nat := if n = 0 then msA else msB
  match s0.imageReject (at_ one) with
  | none => s0.imageAccept one false (at_ one).bytes (ms one)
  | some r =>
    let s1 := s0.emit (imageRejected one r)
    match s1.imageReject (at_ (1 - one)) with
    | none => s1.imageAccept (1 - one) true (at_ (1 - one)).bytes (ms (1 - one))
    | some r2 => (s1.emit (imageRejected (1 - one) r2)).startStops 1 1 0

/-- Roles and logical indices of a partition's clusters (R115, R665).
[DEDUCED, notes/assumptions/53.md] [DEDUCED, notes/assumptions/66.md] -/
def State.startPart (s : State) (b : List Byte) (p : Nat) : State :=
  let fit := (partClusters p).filter (fun c => !Config.factoryFailed c.die c.idx)
  let plain := fit.filter (fun c => !imgMarked b c.die c.idx)
  let serve := plain ++ (fit.filter (fun c => imgMarked b c.die c.idx)).take (68 - plain.length)
  let s1 := (partClusters p).foldl (fun (s : State) (c : ClusterId) =>
    let role := if serve.contains c then 0 else if fit.contains c then 1 else 3
    let l := if role = 0 then (serve.filter (fun d => decide (d.idx < c.idx))).length else 127
    (s.wr (F.CL_STATUS_ROLE c.die c.idx) role).wr (F.CL_STATUS_LOGICAL c.die c.idx) l) s
  (s1.partCheck p).wr (F.CD_PART_PACE (p / 4) (p % 4)) 8

/-- Step 2 ends: reserve map, settings, templates (R662 to R665). -/
def State.stepSettings (s : State) : State :=
  let b := s.image
  let s1 := s.settings b
  let s2 := (List.range 32).foldl (fun (s : State) p => s.startPart b p) s1
  let s3 := (List.range 9).foldl (fun (s : State) p => s.setReg (Reg.PCE_TABLE p) (BitVec.ofNat 64 (imgPace b p / 2 ^ 31 * 2 ^ 31))) s2
  let s4 := s3.wr F.PRM_FW_VERSION (match imgSection b 4 with | some x => imgLe x 0 4 | none => 0)
  let s5 := (List.range 144).foldl (fun (s : State) c => s.wr (F.PCE_CORE_LIVE c) (s.coreGoal c)) s4
  let s6 := (List.range 20).foldl (fun (s : State) e =>
    let k := e % 5
    (s.wr (F.RLY_ENG_ROLE e) (if k = 4 then 1 else 0)).wr (F.RLY_ENG_LOGICAL e) (if k = 4 then 31 else 4 * (e / 5) + k)) s5
  s6.setStart 3

/-- Step 3 ends: the rails are in regulation; the ring oscillators have been read, a measured value (R632, R746). -/
def State.stepPower (s : State) : State :=
  let s1 := (List.range 8).foldl (fun (s : State) n => (List.range 288).foldl (fun (s : State) k =>
    s.wr (F.CL_PWR_RO_MHZ n k) (s.freeNat (288 * n + k) % 65536)) s) s
  ((({ s1 with rails := true } : State).pin F.STR_PINS_PWRGD 0 true).setStart 4).tick

/-- Step 4 ends: every bias SHARED, every directory entry UNCACHED. -/
def State.stepMemory (s : State) : State := ({ s with bias := [], dirs := [], lines := [], wbs := [], wbTxns := [], eccErrs := [] } : State).setStart 5

/-- The host boot code goes to its load address, and to the same offset of HD1's range (R659).
[DEDUCED, notes/assumptions/66.md] -/
def State.hostBoot (s : State) : State :=
  match imgSection s.image 5 with
  | none => s
  | some x =>
    let a := imgLe x 0 8
    let code := (x.drop 16).take (imgLe x 8 4)
    if homeOf a = some 8 then (s.setBytes a code).setBytes (2 ^ 40 + a) code else s

/-- Step 5 ends: core 72h of each host die runs from STR_HOSTVEC_h; steps 6 and 7 begin (R666). A die without a first fetch stays
REJOINING.
[DEDUCED, notes/assumptions/66.md] -/
def State.stepHost (s : State) (fail : Option Nat) : State :=
  let s1 := [0, 1].foldl (fun (s : State) h =>
    (s.send (.coreStart (72 * h) (s.hostVec h))).wr (F.STR_HOST_STATE h) (if fail = some h then 4 else 0)) s.hostBoot
  let s2 := match fail with
    | some u => (s1.noteFail 5 6 u).emit (startFailed 2 5 6 u)
    | none => s1
  let s3 := (({ s2 with image := [] } : State).setStart 6).wr F.LAP_STATUS_ROLE (s2.rd F.LAP_CFG_ROLE)
  s3.startPorts

/-- START_STEP_COMPLETE: the step in progress ends (R666, R668, R669). After a power-off no later step ends, since the regulators stay off until
MRST_N has been asserted and released (R747). -/
def execStartStepComplete (step : Nat) (r : StartResult) (s : State) : Res :=
  if s.mrst || !s.standby || s.rd F.STR_START_STATE ≠ step || (decide (4 ≤ step) && !s.rails) then ok s
  else
    match step, r with
    | 1, .flash d0 d1 a b msA msB => ok (s.stepImage d0 d1 a b msA msB)
    | 2, .done => ok s.stepSettings
    | 3, .done => ok s.stepPower
    | 3, .failed cause unit => ok (s.startStops 3 cause unit)
    | 4, .done => ok s.stepMemory
    | 4, .failed cause unit => ok (s.startStops 4 cause unit)
    | 5, .done => ok (s.stepHost none)
    | 5, .failed _ unit => ok (s.stepHost (some unit))
    | 6, .done => ok (s.setStart 7)
    | _, _ => ok s

/-- START_LOCK_TIMEOUT: not LOCKED within 10 s of the start of step 7; the module keeps trying (R669).
[DEDUCED, notes/assumptions/66.md] -/
def execStartLockTimeout (s : State) : Res :=
  let st := s.rd F.STR_START_STATE
  if (st = 6 || st = 7) && s.rd F.STR_START_FAIL_STEP ≠ 7 then ok ((s.noteFail 7 7 0).emit (startFailed 2 7 7 0)) else ok s

/-! Reset and power (R741, R744 to R751). -/

/-- STR_PINS after a reset: the levels of inputs, the dynamic address and the TAP stay; every output is off (R741, R746 to R751).
[DEDUCED, notes/assumptions/67.md] -/
def State.resetPins (s : State) (t : State) : State :=
  ([F.STR_PINS_HDRST, F.STR_PINS_MGMT_ADDR, F.STR_PINS_I3C_DA, F.STR_PINS_BAY_LATCH, F.STR_PINS_TAP_RESET].foldl (fun (t : State) f =>
    t.wr f (s.rd f)) t).wr F.STR_PINS_XSPI_OWN 0

/-- The module reset domain at its reset values; the standby domain, the registers of R474 and the fuses as they are. -/
def State.resetModule (s : State) : State :=
  let t := s.carry [Reg.CRM_STOP, Reg.CRM_STOP_LAP, Reg.CRM_STOP_ADDR, Reg.MON_TRIP, Reg.STR_FUSE] ({ State.reset with
    pending := s.pending, free := s.free, out := s.out, mrst := true, standby := s.standby, jtag := s.jtag, tripped := s.tripped,
    spdm := s.spdm } : State)
  s.resetPins t

/-- MODULE_RESET: MRST_N asserted for 10 µs (R744, R746 to R748). -/
def execModuleReset (s : State) : Res :=
  if s.mrst || !s.standby then ok s
  else
    let s1 := (((s.pin F.STR_PINS_PWRGD 0 false).pin F.STR_PINS_THERMTRIP 1 false).pin F.STR_PINS_STOP 2 false).pin F.STR_PINS_XSPI_OWN 3 false
    let s2 := if s.rd F.STR_START_STATE = 0 then s1 else s1.setStart 0
    ok s2.resetModule

/-- MODULE_RESET_RELEASE: step 1 begins, and the module owns the flash bus (R666, R751). -/
def execModuleResetRelease (s : State) : Res :=
  if s.standby && s.rd F.STR_START_STATE = 0 then
    -- EXTEST, CLAMP and HIGHZ are allowed only while MRST_N is asserted (R763)
    let tap := if s.jtag.ir = 6 || s.jtag.ir = 4 || s.jtag.ir = 5 then { s.jtag with ir := 0xFF } else s.jtag
    ok ((({ s with mrst := false, jtag := tap } : State).pin F.STR_PINS_XSPI_OWN 3 true).setStart 1)
  else ok s

/-- STANDBY_POWER_UP: the standby domain answers (R741); MRST_N is still asserted (R745). -/
def execStandbyPowerUp (s : State) : Res :=
  if s.standby then ok s else ok (({ s with standby := true } : State).send (.contact 4 true))

/-- POWER_REMOVAL: the whole module is without power; only fuses keep their state (R474, R741).
[DEDUCED, notes/assumptions/67.md] -/
def execPowerRemoval (s : State) : Res :=
  if !s.standby then ok s
  else
    let s1 := ((s.pin F.STR_PINS_PWRGD 0 false).pin F.STR_PINS_XSPI_OWN 3 false).send (.contact 4 false)
    ok ((s1.carry [Reg.STR_FUSE] ({ State.reset with
      pending := s1.pending, free := s1.free, out := s1.out, mrst := true, standby := false } : State)).wr F.STR_PINS_XSPI_OWN 0)

end Sys2Proof.Machine
end

