-- ==== Sys2Proof/Machine/Registers.lean ====
section
/-!
DEFINITION. Reads and writes of the control window (R6 to R10, R445) with the actions that registers trigger, RS fields
(R672, R673), and the event ring as software drives it (R16 to R19, R670, R778).
-/

namespace Sys2Proof.Machine
open Sys2Proof

/-! The event ring (R16 to R19, R670, R778). -/

/-- Take record number `i` out of the holding store and write it into the ring. -/
def State.ringUnhold (s : State) (i : Nat) (r : Rec) : State :=
  let held := s.ring.held.eraseIdx i
  (({ s with ring := { s.ring with held := held } } : State).wr F.STR_RING_CNT_HELD held.length).ringWrite r

/-- The first held record that finds an entry: a fatal one in any free entry, any other outside the reserved 16 (R17, R18). -/
def State.heldReady (s : State) : Option (Nat × Rec) :=
  let ok (r : Rec) : Bool := if 3 ≤ r.sev then decide (0 < s.ringFree) else decide (16 < s.ringFree)
  match s.ring.held.findIdx? ok with
  | some i => (s.ring.held[i]?).map (fun r => (i, r))
  | none => none

/-- Is the overflow record due, with an entry outside the reserved 16 (R19)? -/
def State.overflowReady (s : State) : Bool := decide (0 < s.ring.lost) && decide (16 < s.ringFree)

/-- Can the module write the ring: EN is set and its memory is in reach, and the domain has not stopped? -/
def State.ringOpen (s : State) : Bool := s.rd F.STR_RING_EN == 1 && !s.ringAway

/-- Write EVENT_RING_OVERFLOW: the records dropped so far and the LAP of the first (R19). Its own SEQ and LAP are those of the
moment of writing.
[DEDUCED, notes/assumptions/97.md] -/
def State.writeOverflow (s : State) : State :=
  let r : Rec := ⟨s.recLap, false, s.locked, s.ring.seq, 1, 0, srcModule 0, 0x0120,
    place 31 0 s.ring.lost ||| place 95 32 s.ring.lostLap⟩
  ({ s with ring := { s.ring with seq := (s.ring.seq + 1) % 8192, lost := 0, lostLap := 0 } } : State).ringWrite r

/-- Write what waits for ring entries, `n` records at most: the overflow record before any record below JOB_FATAL, held
records in SEQ order (R18, R19).
[DEDUCED, notes/assumptions/68.md] -/
def State.ringDrain (s : State) : Nat → State
  | 0 => s
  | n + 1 =>
    if !s.ringOpen then s
    else if s.overflowReady then s.writeOverflow.ringDrain n
    else match s.heldReady with
      | some (i, r) => (s.ringUnhold i r).ringDrain n
      | none => s

/-- Most records that can wait: 64 held and the overflow record.
[DEDUCED, notes/assumptions/68.md] -/
def ringWaiting : Nat := 65

/-- HELD_RECORD_WRITE: a held record is written once an entry is free for it, after an overflow record that is due (R18). -/
def execHeldRecordWrite (s : State) : Res :=
  if s.ringOpen && !s.overflowReady && !s.stopped then
    match s.heldReady with
    | some (i, r) => ok (s.ringUnhold i r)
    | none => ok s
  else ok s

/-- EVENT_RING_OVERFLOW. -/
def execEventRingOverflow (s : State) : Res :=
  if s.ringOpen && s.overflowReady && !s.stopped then ok s.writeOverflow else ok s

/-- A write to STR_RING_HEAD: d records are consumed, or the write is ignored (R778); what waits is then written. -/
def State.writeRingHead (s : State) (v : Nat) : State :=
  let size := s.ringSize
  let old := s.rd F.STR_RING_HEAD_HEAD
  let d := (v % size + size - old % size) % size
  if s.ring.count < d then s
  else (({ s with ring := { s.ring with count := s.ring.count - d } } : State).wr F.STR_RING_HEAD_HEAD ((old + d) % size)).ringDrain
    ringWaiting

/-- RING_HEAD_WRITE.
[DEDUCED, notes/assumptions/68.md] -/
def execRingHeadWrite (val : Word) (s : State) : Res :=
  if s.stopped then ok s else ok (s.writeRingHead (val.toNat % 65536))

/-- A write to STR_RING: BASE and LOG2 are ignored while EN is 1. At 0 to 1 the ring starts again at entry 0 with PHASE 1, HEAD is
0, every entry is free, and the held records are written (R670, R778). -/
def State.writeRing (s : State) (v : Word) : State :=
  if s.rd F.STR_RING_EN = 1 then s.wrB F.STR_RING_EN (bit v.toNat 63)
  else
    let s1 := s.setReg Reg.STR_RING (mergeMask (accMask .rw Reg.STR_RING) (s.reg Reg.STR_RING) v)
    if bit v.toNat 63 then
      (({ s1 with ring := { s1.ring with tail := 0, phase := true, count := 0 } } : State).wr F.STR_RING_HEAD_HEAD 0).ringDrain ringWaiting
    else s1

/-- EVENT_RING_ENABLE.
[DEDUCED, notes/assumptions/68.md] -/
def execEventRingEnable (val : Word) (s : State) : Res := if s.stopped then ok s else ok (s.writeRing val)

/-- EVENT_RING_DISABLE. -/
def execEventRingDisable (val : Word) (s : State) : Res := if s.stopped then ok s else ok (s.writeRing val)

/-! RS fields (R672, R673). -/

/-- The RS fields of a write go to the staged values of their area; while it is ARMED or VOTED they are ignored and counted. -/
def State.stageWrite (s : State) (off : Nat) (v : Word) : State :=
  let m := accMask .rs off
  if m = 0 then s
  else
    let a := areaOf off
    if 2 ≤ s.areaState a then s.inc F.SHD_CNT_WRITE_IGN
    else (s.stage off (mergeMask m (s.stagedWord off) v)).showArea a

/-- RS_FIELD_WRITE: a write narrower than 64 bits is ignored (R8). -/
def execRsFieldWrite (off width : Nat) (val : Word) (s : State) : Res :=
  if width < 64 || s.stopped then ok s else ok (s.stageWrite off val)

/-! Register writes (R6, R8, R9). -/

/-- What a write does to a register by its access codes alone: RW set, W1C cleared, W1S set, RS staged.
[DEDUCED, notes/assumptions/69.md] -/
def State.plainWrite (s : State) (off : Nat) (v : Word) : State :=
  let old := s.reg off
  let new := (mergeMask (accMask .rw off) old v &&& ~~~ (v &&& accMask .w1c off)) ||| (v &&& accMask .w1s off)
  (s.setReg off new).stageWrite off v

/-- SHD_CTL (R674): operations 0, 6 and 7 are ignored. -/
def shdCtl (w : Nat) (s : State) : Res :=
  let a := bits w 60 56
  match bits w 63 61 with
  | 1 => execShdCheck a s
  | 2 => execShdArm a s
  | 3 => execShdWithdraw a s
  | 4 => execShdDiscard a s
  | 5 => execShdApplyNow a s
  | _ => ok s

/-- STR_HRST (R562): KIND 0 and 3 are ignored. -/
def hrst (fromCore : Option Nat) (w : Nat) (s : State) : Res :=
  match bits w 63 62 with
  | 1 => execHostCcReset fromCore (bits w 61 61) s
  | 2 => execHostDieReset fromCore (bits w 61 61) s
  | _ => ok s

/-- A register of a doorbell page (R512, R521, R526, R529).
[DEDUCED, notes/assumptions/69.md] [DEDUCED, notes/assumptions/70.md] -/
def State.pageWrite (s : State) (q r : Nat) (v : Word) : Res :=
  match r with
  | 0x000 => execSqDoorbell q v s
  | 0x008 => execSqDoorbell q v s
  | 0x108 => execCqHeadWrite q v s
  | 0x110 =>
    match (if bit v.toNat 0 then execSqResume q s else ok s) with
    | .next s1 => if bit v.toNat 1 then execSqHalt q s1 else ok s1
    | o => o
  | _ => ok s

/-- A binding register of queue q, `r` its offset among them: ignored while EN is 1, but for a write that clears EN (R517); bits
[47:40] of ENGINES read zero for TIER and PEER. -/
def State.bindWrite (s : State) (q r : Nat) (v : Word) : Res :=
  let off := Reg.CPE_QRING q + r
  if s.rd (F.CPE_QRING_EN q) = 1 then (if r = 0 then execQueueDisable q v s else ok s)
  else
    let s1 := s.plainWrite off v
    let s2 := if r = 0x10 && s1.rd (F.CPE_QBIND_CLASS q) < 2 then s1.wr (F.CPE_QBIND_ENGINES q) (s1.rd (F.CPE_QBIND_ENGINES q) % 256) else s1
    ok (s2.setQueue q (s2.queue q))

/-- A core's requested frequency (R554, R648): LIVE follows TARGET unless heat holds it lower.
[DEDUCED, notes/assumptions/69.md] -/
def State.coreTarget (s : State) (c : Nat) (v : Word) : State :=
  let s1 := s.plainWrite (Reg.PCE_CORE c) v
  let t := s1.coreGoal c
  let live := if s.rd (F.PCE_CORE_THERMAL c) = 1 then min t (s.rd (F.PCE_CORE_LIVE c)) else t
  (s1.wr (F.PCE_CORE_LIVE c) live).wrB (F.PCE_CORE_THERMAL c) (live < t)

/-- A write of 1 to CRM_STOP.VALID clears the three registers of the stop (R474).
[DEDUCED, notes/assumptions/69.md] -/
def State.clearStop (s : State) (v : Word) : State :=
  if bit v.toNat 63 then ((s.setReg Reg.CRM_STOP 0).setReg Reg.CRM_STOP_LAP 0).setReg Reg.CRM_STOP_ADDR 0 else s

/-- Entries of the notification ring that are not consumed, after a write to XLT_NQ_HEAD (R509).
[DEDUCED, notes/assumptions/69.md] -/
def State.noteHead (s : State) (v : Word) : State :=
  let size := 2 ^ s.rd F.XLT_NQ_BASE_LOG2
  let s1 := s.plainWrite Reg.XLT_NQ_HEAD v
  { s1 with nqCount := (s1.nqTail + size - s1.rd F.XLT_NQ_HEAD_HEAD % size) % size }

/-- A 64-bit write of a control-window register: its access codes, and the action its fields name.
[DEDUCED, notes/assumptions/69.md] -/
def State.writeReg (s : State) (fromCore : Option Nat) (off : Nat) (v : Word) : Res :=
  let w := v.toNat
  if (findReg off Machine.regTable).isNone then ok s
  else if 0x600000 ≤ off && off < 0x700000 then s.pageWrite ((off - 0x600000) / 0x1000) (off % 0x1000) v
  else if Reg.CPE_QRING 0 ≤ off && off < Reg.CPE_QRING 256 then s.bindWrite ((off - Reg.CPE_QRING 0) / 0x40) (off % 0x40) v
  else if off = Reg.STR_RING then ok (s.writeRing v)
  else if off = Reg.STR_RING_HEAD then ok (s.writeRingHead (w % 65536))
  else if off = Reg.STR_HRST then hrst fromCore w s
  else if off = Reg.SHD_CTL then shdCtl w s
  else if off = Reg.LAP_START then (if s.rd F.LAP_STATUS_STATE = 0 && !s.lap.started then ok (s.plainWrite off v) else ok s)
  else if off = Reg.CRM_STOP then ok (s.clearStop v)
  else if off = Reg.CRM_BIAS_CMD then execBiasCmd v s
  else if off = Reg.XLT_FQ_BASE then execFqBaseWrite v s
  else if off = Reg.XLT_FAULT_RESUME then
    (match bits w 63 62 with
      | 0 => execFaultResumeRetry (bits w 5 0) s
      | 1 => execFaultResumeAbort (bits w 5 0) s
      | _ => ok s)
  else if off = Reg.XLT_SD_CMD then execShootdownCmd v s
  else if off = Reg.XLT_NQ_HEAD then ok (s.noteHead v)
  else if Reg.PCE_CORE 0 ≤ off && off < Reg.PCE_CORE 144 then ok (s.coreTarget ((off - Reg.PCE_CORE 0) / 8) v)
  else if Reg.PRM_SURF 0 ≤ off && off < Reg.PRM_SURF 16 && off % 0x40 = 0x08 then
    let e := (off - Reg.PRM_SURF 0) / 0x40
    let s1 := s.plainWrite off v
    ok (if s.rd (F.PRM_ENG_STAT_OPEN e) = 0 then s1 else s1.wr (F.PRM_SURF_SURFACES e) (s.rd (F.PRM_SURF_SURFACES e)))
  else if Reg.RES_VERIFY 0 ≤ off && off < Reg.RES_VERIFY 16 && off % 0x100 = 0x60 then
    let j := (off - Reg.RES_VERIFY 0) / 0x100
    (match bits w 63 62 with
      | 1 => execVerifyAll j s
      | 2 => execVerifyMarked j s
      | _ => ok s)
  else ok (s.plainWrite off v)

/-- REGISTER_WRITE, by a host core or, with none, by the management path: a write narrower than 64 bits, or to no register, is ignored (R8, R9).
[DEDUCED, notes/assumptions/8.md] -/
def execRegisterWrite (off : Nat) (width : WriteBy) (val : Word) (s : State) : Res :=
  if width.bits < 64 || s.stopped then ok s else s.writeReg width.core off val

/-! Register reads and writes of a host core over Crimon (R445). -/

/-- The state in which a read of `off` is answered: a read of LAP_COUNT latches the phase, a value of the moment, into LAP_PHASE.
[DESIGN CHOICE, notes/assumptions/3.md] -/
def State.beforeRead (s : State) (off : Nat) : State :=
  if off = Reg.LAP_COUNT then (s.wr F.LAP_PHASE_PHASE (s.freeNat 0 % 1024)).tick else s

/-- REGRD: the register block answers with the value (R445). -/
def execRegrd (m : CrMsg) (s : State) : Res :=
  s.receive m 0x05 (
    let off := 8 * m.addr
    let s1 := s.beforeRead off
    ok (s1.send (.crimon (crMsg 0x2A m.dst m.src m.txn m.reqr 0 m.host false false m.addr (BitVec.ofNat 512 (s1.readWord off).toNat)))))

/-- REGWR.
[DEDUCED, notes/assumptions/8.md] [DEDUCED, notes/assumptions/70.md] -/
def execRegwr (m : CrMsg) (width : Nat) (s : State) : Res :=
  s.receive m 0x06 (if width < 64 then ok s else s.writeReg ((agentOf m.src).map (fun a => 72 * a)) (8 * m.addr) m.word)

end Sys2Proof.Machine
end

