-- ==== Sys2Proof/Machine/Management.lean ====
section
/-!
DEFINITION. The management endpoint and the TAP (18): I3C addressing, PLDM and SPDM requests, register reads and writes over MCTP
(R754 to R760), and the JTAG instructions (R763 to R765).
-/

namespace Sys2Proof.Machine
open Sys2Proof

/-! Reachability (R758, R760, R765). -/

/-- Registers that the management path reads while the regulators are off (R760). -/
def offReadable : List Nat :=
  [Reg.STR_ID, Reg.STR_START, Reg.STR_IMAGE, Reg.STR_BUILD, Reg.STR_FUSE, Reg.CRM_STOP, Reg.CRM_STOP_LAP, Reg.CRM_STOP_ADDR, Reg.MON_TRIP]

/-- A bad offset: misaligned, outside the window, or in a reserved range of R31 (DEDUCED, notes/assumptions/40.md). -/
def badOffset (off : Nat) : Bool :=
  off % 8 != 0 || decide (2 ^ 28 ≤ off) || (decide (0xD00000 ≤ off) && decide (off < 0x1000000)) || decide (0x1800000 ≤ off)

/-- The register can be reached: the regulators are on, or R760 names it. -/
def State.reachable (s : State) (off : Nat) : Bool := s.rails || offReadable.contains off

/-- MGMT_READ: status 0 done, 1 not powered, 3 bad offset, with the value (R758, R760).
[DEDUCED, notes/assumptions/40.md] -/
def execMgmtRead (off : Nat) (s : State) : Res :=
  if !s.standby then ok s
  else if !s.reachable off then ok (s.send (.mgmtResponse 1 0))
  else if badOffset off then ok (s.send (.mgmtResponse 3 0))
  else
    let s1 := s.beforeRead off
    ok (s1.send (.mgmtResponse 0 (s1.readWord off)))

/-- MGMT_WRITE: performed only on STR_HRST, CRM_STOP.VALID and MON_TRIP.VALID; any other is not permitted (R759).
[DEDUCED, notes/assumptions/40.md] -/
def execMgmtWrite (off : Nat) (val : Word) (s : State) : Res :=
  if !s.standby then ok s
  else if off = Reg.STR_HRST then
    if s.rails then hrst none val.toNat (s.send (.mgmtResponse 0 0)) else ok (s.send (.mgmtResponse 1 0))
  else if off = Reg.CRM_STOP then ok ((s.clearStop val).send (.mgmtResponse 0 0))
  else if off = Reg.MON_TRIP then
    ok ((s.setReg Reg.MON_TRIP (s.reg Reg.MON_TRIP &&& ~~~ (val &&& accMask .w1c Reg.MON_TRIP))).send (.mgmtResponse 0 0))
  else ok (s.send (.mgmtResponse 2 0))

/-! I3C addressing (R754). -/

/-- I3C_SETAASA: the static address 0x38 + MGMT_ADDR becomes the dynamic address.
[DESIGN CHOICE, notes/assumptions/72.md] -/
def execI3cSetaasa (s : State) : Res :=
  if !s.standby then ok s else ok (s.wr F.STR_PINS_I3C_DA (0x38 + s.rd F.STR_PINS_MGMT_ADDR))

/-- I3C_ENTDAA: the controller assigns a dynamic address.
[DESIGN CHOICE, notes/assumptions/72.md] -/
def execI3cEntdaa (addr : Nat) (s : State) : Res :=
  if !s.standby then ok s else ok (s.wr F.STR_PINS_I3C_DA addr)

/-! PLDM (R755). -/

/-- The hottest reading of the sensors from `a` on, `n` of them. -/
def State.hottestFrom (s : State) (a n : Nat) : Nat := (List.range n).foldl (fun m i => max m (s.rd (F.MON_TEMP_TEMP (a + i)))) 0

/-- The numeric sensors of R755 in its order: input voltage, current and power, the hottest reading of CD0–CD7, HD0–HD1 and IO0–IO3, and
optics power.
[PRESUMED, notes/assumptions/41.md] -/
def State.numericSensor (s : State) (id : Nat) : Option Nat :=
  if id = 0 then some (s.rd F.MON_INPUT_MV)
  else if id = 1 then some (s.rd F.MON_INPUT_CA)
  else if id = 2 then some (s.rd F.MON_INPUT_W)
  else if id < 11 then some (s.hottestFrom (64 * (id - 3)) 64)
  else if id < 13 then some (s.hottestFrom (512 + 32 * (id - 11)) 32)
  else if id < 17 then some (s.hottestFrom (576 + 16 * (id - 13)) 16)
  else if id = 17 then some (s.rd F.ACM_POWER_OPTICS_W)
  else none

/-- The state sensors of R755 in its order: STR_START.STATE, lap state, domain state, trip.
[PRESUMED, notes/assumptions/41.md] -/
def State.stateSensor (s : State) (id : Nat) : Option Nat :=
  match id with
  | 0 => some (s.rd F.STR_START_STATE)
  | 1 => some (s.rd F.LAP_STATUS_STATE)
  | 2 => some (s.rd F.CRM_STATUS_DOMAIN)
  | 3 => some (s.rd F.MON_TRIP_VALID)
  | _ => none

/-- PLDM_COMMAND: completion code 0 with the reading, 0x80 for a sensor that is not there, 5 for a command not supported. What a
numeric sensor reads with the regulators off is free, and so are the discovery values (PRESUMED, notes/assumptions/41.md). -/
def execPldmCommand (c : PldmCommand) (s : State) : Res :=
  if !s.standby then ok s
  else match c with
    | .discovery code => if 2 ≤ code && code ≤ 5 then ok (s.send (.pldmResponse 0 (s.freeNat 0))).tick else ok (s.send (.pldmResponse 5 0))
    | .numericSensor id =>
      match s.numericSensor id with
      | some v => ok (s.send (.pldmResponse 0 (if s.rails then v else s.freeNat 0))).tick
      | none => ok (s.send (.pldmResponse 0x80 0))
    | .stateSensor id =>
      match s.stateSensor id with
      | some v => ok (s.send (.pldmResponse 0 v))
      | none => ok (s.send (.pldmResponse 0x80 0))

/-! SPDM 1.2 (R755, R756). Response codes are those of DSP0274 (PRESUMED, notes/assumptions/41.md). -/

/-- A response, or the error response 0x7F, unexpected request 4, where the connection has not come so far.
[PRESUMED, notes/assumptions/41.md] -/
def State.spdmAnswer (s : State) (need next code v : Nat) : State :=
  if s.spdm < need then s.send (.spdm 0x7F 4)
  else ({ s with spdm := max s.spdm next } : State).send (.spdm code v)

/-- SPDM_GET_VERSION: version 1.2; the connection begins again. -/
def execSpdmGetVersion (s : State) : Res :=
  if !s.standby then ok s else ok (({ s with spdm := 1 } : State).send (.spdm 0x04 0x12))

/-- SPDM_GET_CAPABILITIES: digests and certificate, challenge, and measurements with signature; the flags’ word is free. -/
def execSpdmGetCapabilities (s : State) : Res :=
  if !s.standby then ok s else ok (s.spdmAnswer 1 2 0x61 (s.freeNat 0)).tick

/-- SPDM_NEGOTIATE_ALGORITHMS: ECDSA P-384 in the low byte and SHA-384 above it, by their selection bits 0x80 and 0x02. -/
def execSpdmNegotiateAlgorithms (s : State) : Res :=
  if !s.standby then ok s else ok (s.spdmAnswer 2 3 0x63 (0x80 ||| (0x02 <<< 8)))

/-- The provisioned certificate chain. -/
def certChain : List Byte := (List.range Config.certLength).map Config.certByte

/-- SPDM_GET_DIGESTS: SHA-384 of the certificate chain. -/
def execSpdmGetDigests (s : State) : Res :=
  if !s.standby then ok s else ok (s.spdmAnswer 3 3 0x01 (ofBe (sha384 certChain)))

/-- SPDM_GET_CERTIFICATE: the bytes of the chain from `offset` on. -/
def execSpdmGetCertificate (offset len : Nat) (s : State) : Res :=
  if !s.standby then ok s else ok (s.spdmAnswer 3 3 0x02 (ofLe ((certChain.drop offset).take len)))

/-- SPDM_CHALLENGE: a signature over the transcript with the requester’s nonce.
[PRESUMED, notes/assumptions/41.md] -/
def execSpdmChallenge (nonce : Nat) (s : State) : Res :=
  if !s.standby then ok s else ok (s.spdmAnswer 3 3 0x03 (Config.spdmSignature s.free nonce)).tick

/-- Has step 1 of the start sequence completed? -/
def State.imageDone (s : State) : Bool :=
  let st := s.rd F.STR_START_STATE
  (decide (2 ≤ st) && decide (st ≤ 8)) || (st == 9 && decide (2 ≤ s.rd F.STR_START_FAIL_STEP))

/-- A measurement of R756; indices 1 to 5 read zero before step 1 completes. -/
def State.measurement (s : State) (i : Nat) : Nat :=
  if i = 6 then (s.reg Reg.STR_ID).toNat
  else if !s.imageDone then 0
  else match i with
    | 1 => s.imgDigest
    | 2 => s.rd F.STR_BUILD_BUILD
    | 3 => place 63 32 (s.rd F.STR_IMAGE_ROLLBACK) ||| place 31 0 (s.rd F.STR_FUSE_ROLLBACK_MIN)
    | 4 => s.rd F.PRM_FW_VERSION
    | 5 => s.rd F.STR_FUSE_KEYS
    | _ => 0

/-- SPDM_GET_MEASUREMENTS: index 0 asks for how many there are; one beyond 6 is an invalid request, error 1. -/
def execSpdmGetMeasurements (index : Nat) (s : State) : Res :=
  if !s.standby then ok s
  else if 3 ≤ s.spdm && 6 < index then ok (s.send (.spdm 0x7F 1))
  else ok (s.spdmAnswer 3 3 0x60 (if index = 0 then 6 else s.measurement index))

/-! The TAP (R763 to R765). -/

/-- An instruction enters the instruction register, and its data register is shifted out. The TAP has left Test-Logic-Reset.
[DEDUCED, notes/assumptions/71.md] -/
def State.tap (s : State) (ir out : Nat) : State :=
  (({ s with jtag := { s.jtag with ir := ir } } : State).wr F.STR_PINS_TAP_RESET 0).send (.jtagData out)

/-- BYPASS: the one-bit register captures zero. -/
def execBypass (s : State) : Res := if !s.standby then ok s else ok (s.tap 0xFF 0)

/-- IDCODE. -/
def execIdcode (s : State) : Res := if !s.standby then ok s else ok (s.tap 0x01 0x0808A0C3)

/-- SAMPLE_PRELOAD: the sampled levels of the contacts of R764 are free; the boundary register takes what is shifted in. -/
def execSamplePreload (shiftIn : Nat) (s : State) : Res :=
  if !s.standby then ok s
  else
    let s1 := s.tap 0x02 (s.freeNat 0)
    ok ({ s1 with jtag := { s1.jtag with bsr := shiftIn } } : State).tick

/-- An instruction that is allowed only while MRST_N is asserted; else the TAP acts as under BYPASS.
[DEDUCED, notes/assumptions/71.md] -/
def State.tapHeld (s : State) (ir out : Nat) : State := if s.mrst then s.tap ir out else s.tap 0xFF 0

/-- EXTEST: the boundary register drives the contacts.
[DEDUCED, notes/assumptions/71.md] -/
def execExtest (s : State) : Res := if !s.standby then ok s else ok (s.tapHeld 0x06 s.jtag.bsr)

/-- CLAMP: the boundary register holds the contacts, and the one-bit register is selected.
[DEDUCED, notes/assumptions/71.md] -/
def execClamp (s : State) : Res := if !s.standby then ok s else ok (s.tapHeld 0x04 0)

/-- HIGHZ: the contacts’ drivers are off, and the one-bit register is selected.
[DEDUCED, notes/assumptions/71.md] -/
def execHighz (s : State) : Res := if !s.standby then ok s else ok (s.tapHeld 0x05 0)

/-- REGREAD: at Update-DR the module reads the offset in bits [27:3] of what was shifted in; the next Capture-DR loads the value and
its status (R765). The command runs through that Capture-DR and its shift.
[DEDUCED, notes/assumptions/71.md] -/
def execRegread (dr : BitVec 72) (s : State) : Res :=
  if !s.standby then ok s
  else
    let off := 8 * bits dr.toNat 27 3
    let status := if !s.reachable off then 1 else if badOffset off then 2 else 0
    let s1 := if status = 0 then s.beforeRead off else s
    let v := (if status = 0 then (s1.readWord off).toNat else 0) ||| place 65 64 status
    ok (({ s1 with jtag := { s1.jtag with capture := v } } : State).tap 0x20 v)

end Sys2Proof.Machine
end

