-- ==== Sys2Proof/Machine/Dispatch.lean ====
section
/-!
DEFINITION. The effect of a command on everything but the queue: one arm per constructor, each a call of its meaning.
-/

namespace Sys2Proof.Machine

/-- The effect of command `i` in state `s`, by the rule that its meaning cites.
[DESIGN CHOICE, notes/assumptions/7.md] -/
def exec (i : Instr) (s : State) : Host.Outcome State Fault Refusal :=
  match i with
  | .registerWrite off width val => Sys2Proof.Machine.execRegisterWrite off width val s
  | .lapCountRead => Sys2Proof.Machine.execLapCountRead s
  | .rsFieldWrite off width val => Sys2Proof.Machine.execRsFieldWrite off width val s
  | .ringHeadWrite val => Sys2Proof.Machine.execRingHeadWrite val s
  | .eventRingEnable val => Sys2Proof.Machine.execEventRingEnable val s
  | .eventRingDisable val => Sys2Proof.Machine.execEventRingDisable val s
  | .heldRecordWrite => Sys2Proof.Machine.execHeldRecordWrite s
  | .eventRingOverflow => Sys2Proof.Machine.execEventRingOverflow s
  | .lapMark => Sys2Proof.Machine.execLapMark s
  | .paceMark => Sys2Proof.Machine.execPaceMark s
  | .lmosReceive port w arrNs => Sys2Proof.Machine.execLmosReceive port w arrNs s
  | .lapLockAcquired => Sys2Proof.Machine.execLapLockAcquired s
  | .laprefPpsEdge => Sys2Proof.Machine.execLaprefPpsEdge s
  | .laprefLost no10M noPps => Sys2Proof.Machine.execLaprefLost no10M noPps s
  | .dreqReceive port w turnaround => Sys2Proof.Machine.execDreqReceive port w turnaround s
  | .drspReceive port w roundTrip => Sys2Proof.Machine.execDrspReceive port w roundTrip s
  | .lapUpstreamSwitch => Sys2Proof.Machine.execLapUpstreamSwitch s
  | .lapLockLost => Sys2Proof.Machine.execLapLockLost s
  | .lapHoldover => Sys2Proof.Machine.execLapHoldover s
  | .lapRelocked => Sys2Proof.Machine.execLapRelocked s
  | .lapMasterTakeover => Sys2Proof.Machine.execLapMasterTakeover s
  | .shdCheck area => Sys2Proof.Machine.execShdCheck area s
  | .shdArm area => Sys2Proof.Machine.execShdArm area s
  | .shdWithdraw area => Sys2Proof.Machine.execShdWithdraw area s
  | .shdDiscard area => Sys2Proof.Machine.execShdDiscard area s
  | .shdApplyNow area => Sys2Proof.Machine.execShdApplyNow area s
  | .shadowSwap => Sys2Proof.Machine.execShadowSwap s
  | .svoteReceive m => Sys2Proof.Machine.execSvoteReceive m s
  | .spartReceive m => Sys2Proof.Machine.execSpartReceive m s
  | .sdecReceive m => Sys2Proof.Machine.execSdecReceive m s
  | .prevoteCollectorClose job t level => Sys2Proof.Machine.execPrevoteCollectorClose job t level s
  | .prevoteLate area => Sys2Proof.Machine.execPrevoteLate area s
  | .kStep cl => Sys2Proof.Machine.execKStep cl s
  | .mergeDone cl => Sys2Proof.Machine.execMergeDone cl s
  | .wgqRun cl => Sys2Proof.Machine.execWgqRun cl s
  | .readoutEnd cl => Sys2Proof.Machine.execReadoutEnd cl s
  | .pushBufferEnter cl => Sys2Proof.Machine.execPushBufferEnter cl s
  | .clusterFault cl cause addr => Sys2Proof.Machine.execClusterFault cl cause addr s
  | .clusterRotation die part => Sys2Proof.Machine.execClusterRotation die part s
  | .clusterRotated die part hold => Sys2Proof.Machine.execClusterRotated die part hold s
  | .alu cl f => Sys2Proof.Machine.execAlu cl f s
  | .addi cl f => Sys2Proof.Machine.execAddi cl f s
  | .andi cl f => Sys2Proof.Machine.execAndi cl f s
  | .ori cl f => Sys2Proof.Machine.execOri cl f s
  | .xori cl f => Sys2Proof.Machine.execXori cl f s
  | .shli cl f => Sys2Proof.Machine.execShli cl f s
  | .shri cl f => Sys2Proof.Machine.execShri cl f s
  | .sari cl f => Sys2Proof.Machine.execSari cl f s
  | .slti cl f => Sys2Proof.Machine.execSlti cl f s
  | .sltiu cl f => Sys2Proof.Machine.execSltiu cl f s
  | .lui cl f => Sys2Proof.Machine.execLui cl f s
  | .beq cl f => Sys2Proof.Machine.execBeq cl f s
  | .bne cl f => Sys2Proof.Machine.execBne cl f s
  | .blt cl f => Sys2Proof.Machine.execBlt cl f s
  | .bge cl f => Sys2Proof.Machine.execBge cl f s
  | .bltu cl f => Sys2Proof.Machine.execBltu cl f s
  | .bgeu cl f => Sys2Proof.Machine.execBgeu cl f s
  | .jal cl f => Sys2Proof.Machine.execJal cl f s
  | .jalr cl f => Sys2Proof.Machine.execJalr cl f s
  | .ld cl f => Sys2Proof.Machine.execLd cl f s
  | .lw cl f => Sys2Proof.Machine.execLw cl f s
  | .st cl f => Sys2Proof.Machine.execSt cl f s
  | .sw cl f => Sys2Proof.Machine.execSw cl f s
  | .tcpy cl f => Sys2Proof.Machine.execTcpy cl f s
  | .srd cl f => Sys2Proof.Machine.execSrd cl f s
  | .mcfg cl f => Sys2Proof.Machine.execMcfg cl f s
  | .mlda cl f => Sys2Proof.Machine.execMlda cl f s
  | .mldb cl f => Sys2Proof.Machine.execMldb cl f s
  | .mma cl f => Sys2Proof.Machine.execMma cl f s
  | .macc cl f => Sys2Proof.Machine.execMacc cl f s
  | .mdrn cl f => Sys2Proof.Machine.execMdrn cl f s
  | .mtie cl f => Sys2Proof.Machine.execMtie cl f s
  | .rpush cl f => Sys2Proof.Machine.execRpush cl f s
  | .dq cl f => Sys2Proof.Machine.execDq cl f s
  | .dqComplete cl seq => Sys2Proof.Machine.execDqComplete cl seq s
  | .dwait cl f => Sys2Proof.Machine.execDwait cl f s
  | .fence cl f => Sys2Proof.Machine.execFence cl f s
  | .halt cl f => Sys2Proof.Machine.execHalt cl f s
  | .bar cl f => Sys2Proof.Machine.execBar cl f s
  | .barrierRelease die part slot number => Sys2Proof.Machine.execBarrierRelease die part slot number s
  | .wlap cl f => Sys2Proof.Machine.execWlap cl f s
  | .wlapComplete cl => Sys2Proof.Machine.execWlapComplete cl s
  | .hrdw cl f => Sys2Proof.Machine.execHrdw cl f s
  | .hrdwRecord cl => Sys2Proof.Machine.execHrdwRecord cl s
  | .hrdwOutcomeReturn cl => Sys2Proof.Machine.execHrdwOutcomeReturn cl s
  | .evt cl f => Sys2Proof.Machine.execEvt cl f s
  | .setvl cl f => Sys2Proof.Machine.execSetvl cl f s
  | .vld cl f => Sys2Proof.Machine.execVld cl f s
  | .vlds cl f => Sys2Proof.Machine.execVlds cl f s
  | .vldb cl f => Sys2Proof.Machine.execVldb cl f s
  | .vst cl f => Sys2Proof.Machine.execVst cl f s
  | .vsts cl f => Sys2Proof.Machine.execVsts cl f s
  | .vfv cl f => Sys2Proof.Machine.execVfv cl f s
  | .vfs cl f => Sys2Proof.Machine.execVfs cl f s
  | .vfu cl f => Sys2Proof.Machine.execVfu cl f s
  | .vsfu cl f => Sys2Proof.Machine.execVsfu cl f s
  | .viv cl f => Sys2Proof.Machine.execViv cl f s
  | .vis cl f => Sys2Proof.Machine.execVis cl f s
  | .vcmpv cl f => Sys2Proof.Machine.execVcmpv cl f s
  | .vcmps cl f => Sys2Proof.Machine.execVcmps cl f s
  | .vsel cl f => Sys2Proof.Machine.execVsel cl f s
  | .vred cl f => Sys2Proof.Machine.execVred cl f s
  | .vderiv cl f => Sys2Proof.Machine.execVderiv cl f s
  | .vcvt cl f => Sys2Proof.Machine.execVcvt cl f s
  | .vsr cl f => Sys2Proof.Machine.execVsr cl f s
  | .vxcvt cl f => Sys2Proof.Machine.execVxcvt cl f s
  | .vmv cl f => Sys2Proof.Machine.execVmv cl f s
  | .vputs cl f => Sys2Proof.Machine.execVputs cl f s
  | .vgets cl f => Sys2Proof.Machine.execVgets cl f s
  | .seedCastRelease cl => Sys2Proof.Machine.execSeedCastRelease cl s
  | .drainMark slot => Sys2Proof.Machine.execDrainMark slot s
  | .epochFlip slot => Sys2Proof.Machine.execEpochFlip slot s
  | .epochFlipLate slot die shard => Sys2Proof.Machine.execEpochFlipLate slot die shard s
  | .epochRelease slot die shard => Sys2Proof.Machine.execEpochRelease slot die shard s
  | .tieUseApply cl => Sys2Proof.Machine.execTieUseApply cl s
  | .relayPushTake cl => Sys2Proof.Machine.execRelayPushTake cl s
  | .relayBlockReceive port b => Sys2Proof.Machine.execRelayBlockReceive port b s
  | .relayAckReceive tag ok => Sys2Proof.Machine.execRelayAckReceive tag ok s
  | .scaleReturnReceive port b => Sys2Proof.Machine.execScaleReturnReceive port b s
  | .relayEngineFail engine => Sys2Proof.Machine.execRelayEngineFail engine s
  | .hurdleMark slot => Sys2Proof.Machine.execHurdleMark slot s
  | .hurdleContribReceive m => Sys2Proof.Machine.execHurdleContribReceive m s
  | .hurdlePartialReceive m => Sys2Proof.Machine.execHurdlePartialReceive m s
  | .hurdleCollectorClose slot level => Sys2Proof.Machine.execHurdleCollectorClose slot level s
  | .hurdleOutcomeReceive m => Sys2Proof.Machine.execHurdleOutcomeReceive m s
  | .hurdleLate slot => Sys2Proof.Machine.execHurdleLate slot s
  | .hurdleOutcomeApply slot => Sys2Proof.Machine.execHurdleOutcomeApply slot s
  | .laserStatusChange d inserted latched fault okMask temp power => Sys2Proof.Machine.execLaserStatusChange d inserted latched fault okMask temp power s
  | .portTrainStageDone port peer => Sys2Proof.Machine.execPortTrainStageDone port peer s
  | .portTrainTimeout port => Sys2Proof.Machine.execPortTrainTimeout port s
  | .portRetrain port why => Sys2Proof.Machine.execPortRetrain port why s
  | .portDiagnosis port fault => Sys2Proof.Machine.execPortDiagnosis port fault s
  | .reserveEngineSwap io => Sys2Proof.Machine.execReserveEngineSwap io s
  | .replayStateDiscard port => Sys2Proof.Machine.execReplayStateDiscard port s
  | .flitReceive port f => Sys2Proof.Machine.execFlitReceive port f s
  | .peerWriteReceive srcFi hdr data => Sys2Proof.Machine.execPeerWriteReceive srcFi hdr data s
  | .peerAckReceive engine tag ok => Sys2Proof.Machine.execPeerAckReceive engine tag ok s
  | .peerLost engine tag => Sys2Proof.Machine.execPeerLost engine tag s
  | .hostLoad core addr width kind ty => Sys2Proof.Machine.execHostLoad core addr width kind ty s
  | .hostStore core addr width data ty amo => Sys2Proof.Machine.execHostStore core addr width data ty amo s
  | .hostEvict agent line => Sys2Proof.Machine.execHostEvict agent line s
  | .rdshr m => Sys2Proof.Machine.execRdshr m s
  | .rdown m => Sys2Proof.Machine.execRdown m s
  | .upgr m => Sys2Proof.Machine.execUpgr m s
  | .rdna m => Sys2Proof.Machine.execRdna m s
  | .regrd m => Sys2Proof.Machine.execRegrd m s
  | .regwr m width => Sys2Proof.Machine.execRegwr m width s
  | .doorbell m => Sys2Proof.Machine.execDoorbell m s
  | .withdraw m => Sys2Proof.Machine.execWithdraw m s
  | .snpshr m => Sys2Proof.Machine.execSnpshr m s
  | .snpinv m => Sys2Proof.Machine.execSnpinv m s
  | .snpcur m => Sys2Proof.Machine.execSnpcur m s
  | .snpflush m => Sys2Proof.Machine.execSnpflush m s
  | .rspi m ns => Sys2Proof.Machine.execRspi m ns s
  | .rsps m ns => Sys2Proof.Machine.execRsps m ns s
  | .rspfwd m ns => Sys2Proof.Machine.execRspfwd m ns s
  | .rspwbpend m ns => Sys2Proof.Machine.execRspwbpend m ns s
  | .cmp m => Sys2Proof.Machine.execCmp m s
  | .cmpfault m => Sys2Proof.Machine.execCmpfault m s
  | .regdata m => Sys2Proof.Machine.execRegdata m s
  | .credit m => Sys2Proof.Machine.execCredit m s
  | .data m => Sys2Proof.Machine.execData m s
  | .fwddata m => Sys2Proof.Machine.execFwddata m s
  | .wbdata m => Sys2Proof.Machine.execWbdata m s
  | .wrinvfull m => Sys2Proof.Machine.execWrinvfull m s
  | .tenureEnd agent line => Sys2Proof.Machine.execTenureEnd agent line s
  | .snoopTimeout home line agent => Sys2Proof.Machine.execSnoopTimeout home line agent s
  | .domainStop => Sys2Proof.Machine.execDomainStop s
  | .biasCmd val => Sys2Proof.Machine.execBiasCmd val s
  | .biasCmdDone ns => Sys2Proof.Machine.execBiasCmdDone ns s
  | .biasFlip home frame drainNs => Sys2Proof.Machine.execBiasFlip home frame drainNs s
  | .dieFlitReceive link seq crcOk => Sys2Proof.Machine.execDieFlitReceive link seq crcOk s
  | .dieLinkRetrainEnter link why failed => Sys2Proof.Machine.execDieLinkRetrainEnter link why failed s
  | .linkRetrain link stallNs replayed => Sys2Proof.Machine.execLinkRetrain link stallNs replayed s
  | .dieLinkFail link => Sys2Proof.Machine.execDieLinkFail link s
  | .withdrawTimeout agent => Sys2Proof.Machine.execWithdrawTimeout agent s
  | .walkComplete walk => Sys2Proof.Machine.execWalkComplete walk s
  | .faultResumeRetry record => Sys2Proof.Machine.execFaultResumeRetry record s
  | .faultResumeAbort record => Sys2Proof.Machine.execFaultResumeAbort record s
  | .faultRecordFree record => Sys2Proof.Machine.execFaultRecordFree record s
  | .fqBaseWrite val => Sys2Proof.Machine.execFqBaseWrite val s
  | .shootdownCmd val => Sys2Proof.Machine.execShootdownCmd val s
  | .shootdownComplete elapsed100ns => Sys2Proof.Machine.execShootdownComplete elapsed100ns s
  | .trackerDecay h => Sys2Proof.Machine.execTrackerDecay h s
  | .sqDoorbell q val => Sys2Proof.Machine.execSqDoorbell q val s
  | .sqOrderedDoorbell core q val => Sys2Proof.Machine.execSqOrderedDoorbell core q val s
  | .submissionFetch q => Sys2Proof.Machine.execSubmissionFetch q s
  | .submissionReread q => Sys2Proof.Machine.execSubmissionReread q s
  | .sqResume q => Sys2Proof.Machine.execSqResume q s
  | .sqHalt q => Sys2Proof.Machine.execSqHalt q s
  | .queueDisable q val => Sys2Proof.Machine.execQueueDisable q val s
  | .cqHeadWrite q val => Sys2Proof.Machine.execCqHeadWrite q val s
  | .commandDispatch engine => Sys2Proof.Machine.execCommandDispatch engine s
  | .copy engine => Sys2Proof.Machine.execCopy engine s
  | .peerWrite engine => Sys2Proof.Machine.execPeerWrite engine s
  | .snapshot engine => Sys2Proof.Machine.execSnapshot engine s
  | .load q => Sys2Proof.Machine.execLoad q s
  | .programLoaded slot timeUs => Sys2Proof.Machine.execProgramLoaded slot timeUs s
  | .nop q => Sys2Proof.Machine.execNop q s
  | .commandComplete q => Sys2Proof.Machine.execCommandComplete q s
  | .slotDrainComplete slot => Sys2Proof.Machine.execSlotDrainComplete slot s
  | .hostCcReset fromCore die => Sys2Proof.Machine.execHostCcReset fromCore die s
  | .hostDieReset fromCore die => Sys2Proof.Machine.execHostDieReset fromCore die s
  | .ccWithdrawDone die us => Sys2Proof.Machine.execCcWithdrawDone die us s
  | .ccResetRelease die => Sys2Proof.Machine.execCcResetRelease die s
  | .ccFirstFetch die us => Sys2Proof.Machine.execCcFirstFetch die us s
  | .hdQuiesceDone die us => Sys2Proof.Machine.execHdQuiesceDone die us s
  | .hdQuiesceTimeout die => Sys2Proof.Machine.execHdQuiesceTimeout die s
  | .hdResetRelease die us => Sys2Proof.Machine.execHdResetRelease die us s
  | .hdrstAssert die => Sys2Proof.Machine.execHdrstAssert die s
  | .pcieInbound port r => Sys2Proof.Machine.execPcieInbound port r s
  | .pcieLink port e => Sys2Proof.Machine.execPcieLink port e s
  | .ctxOpen engine => Sys2Proof.Machine.execCtxOpen engine s
  | .ctxClose engine => Sys2Proof.Machine.execCtxClose engine s
  | .surfBind engine => Sys2Proof.Machine.execSurfBind engine s
  | .decode engine r => Sys2Proof.Machine.execDecode engine r s
  | .encode engine r => Sys2Proof.Machine.execEncode engine r s
  | .convert engine cycles => Sys2Proof.Machine.execConvert engine cycles s
  | .prismRcTimeout engine => Sys2Proof.Machine.execPrismRcTimeout engine s
  | .prismWatchdog engine r => Sys2Proof.Machine.execPrismWatchdog engine r s
  | .powerSample p => Sys2Proof.Machine.execPowerSample p s
  | .converterFault k => Sys2Proof.Machine.execConverterFault k s
  | .droopDetect cl => Sys2Proof.Machine.execDroopDetect cl s
  | .thermalFastHold sensor reading => Sys2Proof.Machine.execThermalFastHold sensor reading s
  | .thermalTrip sensor reading => Sys2Proof.Machine.execThermalTrip sensor reading s
  | .pconReceive m => Sys2Proof.Machine.execPconReceive m s
  | .ppartReceive m => Sys2Proof.Machine.execPpartReceive m s
  | .pdecReceive m => Sys2Proof.Machine.execPdecReceive m s
  | .paceCollectorClose slot level => Sys2Proof.Machine.execPaceCollectorClose slot level s
  | .paceVoteLate slot => Sys2Proof.Machine.execPaceVoteLate slot s
  | .paceChange slot => Sys2Proof.Machine.execPaceChange slot s
  | .moduleReset => Sys2Proof.Machine.execModuleReset s
  | .standbyPowerUp => Sys2Proof.Machine.execStandbyPowerUp s
  | .startStepComplete step r => Sys2Proof.Machine.execStartStepComplete step r s
  | .startLockTimeout => Sys2Proof.Machine.execStartLockTimeout s
  | .ckptHaltStart slot => Sys2Proof.Machine.execCkptHaltStart slot s
  | .ckptCaptureStart slot => Sys2Proof.Machine.execCkptCaptureStart slot s
  | .ckconReceive m => Sys2Proof.Machine.execCkconReceive m s
  | .ckpartReceive m => Sys2Proof.Machine.execCkpartReceive m s
  | .ckdecReceive m => Sys2Proof.Machine.execCkdecReceive m s
  | .ckptCollectorClose slot level => Sys2Proof.Machine.execCkptCollectorClose slot level s
  | .ckptVoteTimeout slot => Sys2Proof.Machine.execCkptVoteTimeout slot s
  | .ckptMessageReceive srcFi hdr data => Sys2Proof.Machine.execCkptMessageReceive srcFi hdr data s
  | .ckptAckReceive slot seg chunk ok => Sys2Proof.Machine.execCkptAckReceive slot seg chunk ok s
  | .ckptResume slot => Sys2Proof.Machine.execCkptResume slot s
  | .ckptForwardEnd slot src abandoned ms => Sys2Proof.Machine.execCkptForwardEnd slot src abandoned ms s
  | .verifyAll slot => Sys2Proof.Machine.execVerifyAll slot s
  | .verifyMarked slot => Sys2Proof.Machine.execVerifyMarked slot s
  | .verifyDone slot ms => Sys2Proof.Machine.execVerifyDone slot ms s
  | .selftestWindowOpen kind die unit => Sys2Proof.Machine.execSelftestWindowOpen kind die unit s
  | .selftestWindowClose kind die unit r => Sys2Proof.Machine.execSelftestWindowClose kind die unit r s
  | .selftestDeferred cl => Sys2Proof.Machine.execSelftestDeferred cl s
  | .mgmtRead off => Sys2Proof.Machine.execMgmtRead off s
  | .mgmtWrite off val => Sys2Proof.Machine.execMgmtWrite off val s
  | .i3cSetaasa => Sys2Proof.Machine.execI3cSetaasa s
  | .i3cEntdaa addr => Sys2Proof.Machine.execI3cEntdaa addr s
  | .pldmCommand c => Sys2Proof.Machine.execPldmCommand c s
  | .spdmGetVersion => Sys2Proof.Machine.execSpdmGetVersion s
  | .spdmGetCapabilities => Sys2Proof.Machine.execSpdmGetCapabilities s
  | .spdmNegotiateAlgorithms => Sys2Proof.Machine.execSpdmNegotiateAlgorithms s
  | .spdmGetDigests => Sys2Proof.Machine.execSpdmGetDigests s
  | .spdmGetCertificate offset len => Sys2Proof.Machine.execSpdmGetCertificate offset len s
  | .spdmChallenge nonce => Sys2Proof.Machine.execSpdmChallenge nonce s
  | .spdmGetMeasurements index => Sys2Proof.Machine.execSpdmGetMeasurements index s
  | .bypass => Sys2Proof.Machine.execBypass s
  | .idcode => Sys2Proof.Machine.execIdcode s
  | .samplePreload shiftIn => Sys2Proof.Machine.execSamplePreload shiftIn s
  | .extest => Sys2Proof.Machine.execExtest s
  | .clamp => Sys2Proof.Machine.execClamp s
  | .highz => Sys2Proof.Machine.execHighz s
  | .regread dr => Sys2Proof.Machine.execRegread dr s
  | .laprefRestored => Sys2Proof.Machine.execLaprefRestored s
  | .moduleResetRelease => Sys2Proof.Machine.execModuleResetRelease s
  | .powerRemoval => Sys2Proof.Machine.execPowerRemoval s
  | .portRetry port => Sys2Proof.Machine.execPortRetry port s
  | .droopRecovered cl cycles => Sys2Proof.Machine.execDroopRecovered cl cycles s
  | .thermalHoldRelease => Sys2Proof.Machine.execThermalHoldRelease s

end Sys2Proof.Machine
end

