-- ==== Sys2Proof/WellFormed.lean ====
section
/-!
DEFINITION. When a command is one that the module can meet: every number within what the manual counts (00_scope, 01), every message of
the length its chapter gives. The meanings are total; this says which commands stand for something.
-/

namespace Sys2Proof

/-- A matrix cluster that exists: CD0–CD7, physical index 0–287 (R33). -/
def ClusterId.wf (c : ClusterId) : Bool := decide (c.die < 8) && decide (c.idx < 288)

/-- A message whose number fits its length. -/
def Msg.wf (m : Msg) (len : Nat) : Bool := m.len == len && decide (m.w < 2 ^ (8 * len))

/-- A control-window offset: 256 MiB, aligned to 8 bytes (R8, R31). -/
def offWf (off : Nat) : Bool := decide (off < 2 ^ 28) && off % 8 == 0

/-- A Relay block with its 8,192 payload bytes (R336). -/
def RelayBlock.wf (b : RelayBlock) : Bool := b.payload.length == 8192

/-- A flit with its 240 payload bytes (R400). -/
def Flit.wf (f : Flit) : Bool := f.payload.length == 240

/-- A peer as IDENTIFY can name it: fabric index, port 0–51, role, and PODS (R390, R409). -/
def PeerId.wf (p : PeerId) : Bool := decide (p.fi < 8192) && decide (p.port < 52) && decide (p.role < 3) && decide (p.pods ≤ 256)

/-- An access of a host core: a core 0–143, within one line, at its own alignment (R427). -/
def accessWf (core addr width : Nat) : Bool :=
  decide (core < 144) && decide (0 < width) && decide (addr % 64 + width ≤ 64) && decide (addr < 2 ^ 46)

/-- Is the command one that the module can meet? -/
def Instr.wf : Instr → Bool
  | .registerWrite off width _ => offWf off && decide (width.bits ≤ 64) && width.core.all (fun c => decide (c < 144))
  | .lapCountRead => true
  | .rsFieldWrite off width _ => offWf off && decide (width ≤ 64)
  | .ringHeadWrite _ => true
  | .eventRingEnable v => bit v.toNat 63
  | .eventRingDisable v => !bit v.toNat 63
  | .heldRecordWrite => true
  | .eventRingOverflow => true
  | .lapMark => true
  | .paceMark => true
  | .lmosReceive port _ _ => decide (port < 52)
  | .lapLockAcquired => true
  | .laprefPpsEdge => true
  | .laprefLost no10M noPps => no10M || noPps
  | .dreqReceive port _ _ => decide (port < 52)
  | .drspReceive port _ _ => decide (port < 52)
  | .lapUpstreamSwitch => true
  | .lapLockLost => true
  | .lapHoldover => true
  | .lapRelocked => true
  | .lapMasterTakeover => true
  | .shdCheck a => decide (a ≤ 16)
  | .shdArm a => decide (a ≤ 16)
  | .shdWithdraw a => decide (a ≤ 16)
  | .shdDiscard a => decide (a ≤ 16)
  | .shdApplyNow a => decide (a ≤ 16)
  | .shadowSwap => true
  | .svoteReceive m => decide (m.w < 2 ^ (8 * m.len))
  | .spartReceive m => decide (m.w < 2 ^ (8 * m.len))
  | .sdecReceive m => decide (m.w < 2 ^ (8 * m.len))
  | .prevoteCollectorClose job _ level => decide (job < 4096) && decide (1 ≤ level) && decide (level ≤ 5)
  | .prevoteLate a => decide (a < 16)
  | .kStep c => c.wf
  | .mergeDone c => c.wf
  | .wgqRun c => c.wf
  | .readoutEnd c => c.wf
  | .pushBufferEnter c => c.wf
  | .clusterFault c cause _ => c.wf && decide (1 ≤ cause) && decide (cause ≤ 7)
  | .clusterRotation die part => decide (die < 8) && decide (part < 4)
  | .clusterRotated die part _ => decide (die < 8) && decide (part < 4)
  | .alu c _ => c.wf
  | .addi c _ => c.wf
  | .andi c _ => c.wf
  | .ori c _ => c.wf
  | .xori c _ => c.wf
  | .shli c _ => c.wf
  | .shri c _ => c.wf
  | .sari c _ => c.wf
  | .slti c _ => c.wf
  | .sltiu c _ => c.wf
  | .lui c _ => c.wf
  | .beq c _ => c.wf
  | .bne c _ => c.wf
  | .blt c _ => c.wf
  | .bge c _ => c.wf
  | .bltu c _ => c.wf
  | .bgeu c _ => c.wf
  | .jal c _ => c.wf
  | .jalr c _ => c.wf
  | .ld c _ => c.wf
  | .lw c _ => c.wf
  | .st c _ => c.wf
  | .sw c _ => c.wf
  | .tcpy c _ => c.wf
  | .srd c _ => c.wf
  | .mcfg c _ => c.wf
  | .mlda c _ => c.wf
  | .mldb c _ => c.wf
  | .mma c _ => c.wf
  | .macc c _ => c.wf
  | .mdrn c _ => c.wf
  | .mtie c _ => c.wf
  | .rpush c _ => c.wf
  | .dq c _ => c.wf
  | .dqComplete c _ => c.wf
  | .dwait c _ => c.wf
  | .fence c _ => c.wf
  | .halt c _ => c.wf
  | .bar c _ => c.wf
  | .barrierRelease die part slot number =>
    decide (die < 8) && decide (part.getD 0 < 4) && decide (slot < 16) && decide (number < 16)
  | .wlap c _ => c.wf
  | .wlapComplete c => c.wf
  | .hrdw c _ => c.wf
  | .hrdwRecord c => c.wf
  | .hrdwOutcomeReturn c => c.wf
  | .evt c _ => c.wf
  | .setvl c _ => c.wf
  | .vld c _ => c.wf
  | .vlds c _ => c.wf
  | .vldb c _ => c.wf
  | .vst c _ => c.wf
  | .vsts c _ => c.wf
  | .vfv c _ => c.wf
  | .vfs c _ => c.wf
  | .vfu c _ => c.wf
  | .vsfu c _ => c.wf
  | .viv c _ => c.wf
  | .vis c _ => c.wf
  | .vcmpv c _ => c.wf
  | .vcmps c _ => c.wf
  | .vsel c _ => c.wf
  | .vred c _ => c.wf
  | .vderiv c _ => c.wf
  | .vcvt c _ => c.wf
  | .vsr c _ => c.wf
  | .vxcvt c _ => c.wf
  | .vmv c _ => c.wf
  | .vputs c _ => c.wf
  | .vgets c _ => c.wf
  | .seedCastRelease c => c.wf
  | .drainMark j => decide (j < 16)
  | .epochFlip j => decide (j < 16)
  | .epochFlipLate j n h => decide (j < 16) && decide (n < 8) && decide (h < 256)
  | .epochRelease j n h => decide (j < 16) && decide (n < 8) && decide (h < 256)
  | .tieUseApply c => c.wf
  | .relayPushTake c => c.wf
  | .relayBlockReceive port b => decide (port < 52) && b.wf
  | .relayAckReceive _ _ => true
  | .scaleReturnReceive port b => decide (port < 52) && b.wf
  | .relayEngineFail e => decide (e < 64)
  | .hurdleMark j => decide (j < 16)
  | .hurdleContribReceive m => decide (m.w < 2 ^ (8 * m.len))
  | .hurdlePartialReceive m => decide (m.w < 2 ^ (8 * m.len))
  | .hurdleCollectorClose j level => decide (j < 16) && decide (1 ≤ level) && decide (level ≤ 5)
  | .hurdleOutcomeReceive m => decide (m.w < 2 ^ (8 * m.len))
  | .hurdleLate j => decide (j < 16)
  | .hurdleOutcomeApply j => decide (j < 16)
  | .laserStatusChange d _ _ _ okMask _ _ => decide (d < 4) && decide (okMask < 2 ^ 16)
  | .portTrainStageDone p peer => decide (p < 52) && peer.wf
  | .portTrainTimeout p => decide (p < 52)
  | .portRetrain p _ => decide (p < 52)
  | .portDiagnosis p _ => decide (p < 52)
  | .reserveEngineSwap d => decide (d < 4)
  | .replayStateDiscard p => decide (p < 52)
  | .flitReceive p f => decide (p < 52) && f.wf
  | .peerWriteReceive srcFi _ _ => decide (srcFi < 8192)
  | .peerAckReceive e _ _ => decide (16 ≤ e) && decide (e < 24)
  | .peerLost e _ => decide (16 ≤ e) && decide (e < 24)
  | .hostLoad core addr width _ _ => accessWf core addr width
  | .hostStore core addr width _ _ _ => accessWf core addr width
  | .hostEvict a line => decide (a < 2) && decide (line < 2 ^ 40)
  | .rdshr _ => true
  | .rdown _ => true
  | .upgr _ => true
  | .rdna _ => true
  | .regrd _ => true
  | .regwr _ width => decide (width ≤ 64)
  | .doorbell _ => true
  | .withdraw _ => true
  | .snpshr _ => true
  | .snpinv _ => true
  | .snpcur _ => true
  | .snpflush _ => true
  | .rspi _ _ => true
  | .rsps _ _ => true
  | .rspfwd _ _ => true
  | .rspwbpend _ _ => true
  | .cmp _ => true
  | .cmpfault _ => true
  | .regdata _ => true
  | .credit _ => true
  | .data _ => true
  | .fwddata _ => true
  | .wbdata _ => true
  | .wrinvfull _ => true
  | .tenureEnd a line => decide (a < 2) && decide (line < 2 ^ 40)
  | .snoopTimeout home line a => decide (home < 10) && decide (line < 2 ^ 40) && decide (a < 2)
  | .domainStop => true
  | .biasCmd _ => true
  | .biasCmdDone _ => true
  | .biasFlip home frame _ => decide (home < 10) && decide (frame < 2 ^ 34)
  | .dieFlitReceive link seq _ => decide (link < 26) && decide (seq < 4096)
  | .dieLinkRetrainEnter link _ _ => decide (link < 26)
  | .linkRetrain link _ _ => decide (link < 26)
  | .dieLinkFail link => decide (link < 26)
  | .withdrawTimeout a => decide (a < 2)
  | .walkComplete _ => true
  | .faultResumeRetry r => decide (r < 64)
  | .faultResumeAbort r => decide (r < 64)
  | .faultRecordFree r => decide (r < 64)
  | .fqBaseWrite _ => true
  | .shootdownCmd _ => true
  | .shootdownComplete _ => true
  | .trackerDecay h => decide (h < 2)
  | .sqDoorbell q _ => decide (q < 256)
  | .sqOrderedDoorbell core q _ => decide (core < 144) && decide (q < 256)
  | .submissionFetch q => decide (q < 256)
  | .submissionReread q => decide (q < 256)
  | .sqResume q => decide (q < 256)
  | .sqHalt q => decide (q < 256)
  | .queueDisable q v => decide (q < 256) && !bit v.toNat 63
  | .cqHeadWrite q _ => decide (q < 256)
  | .commandDispatch e => decide (e < 40)
  | .copy e => decide (e < 16)
  | .peerWrite e => decide (16 ≤ e) && decide (e < 24)
  | .snapshot e => decide (e < 16)
  | .load q => decide (q < 256)
  | .programLoaded j _ => decide (j < 16)
  | .nop q => decide (q < 256)
  | .commandComplete q => decide (q < 256)
  | .slotDrainComplete j => decide (j < 16)
  | .hostCcReset core die => decide (core.getD 0 < 144) && decide (die < 2)
  | .hostDieReset core die => decide (core.getD 0 < 144) && decide (die < 2)
  | .ccWithdrawDone die _ => decide (die < 2)
  | .ccResetRelease die => decide (die < 2)
  | .ccFirstFetch die _ => decide (die < 2)
  | .hdQuiesceDone die _ => decide (die < 2)
  | .hdQuiesceTimeout die => decide (die < 2)
  | .hdResetRelease die _ => decide (die < 2)
  | .hdrstAssert die => decide (die < 2)
  | .pcieInbound port _ => decide (port < 2)
  | .pcieLink port _ => decide (port < 2)
  | .ctxOpen e => decide (e < 16)
  | .ctxClose e => decide (e < 16)
  | .surfBind e => decide (e < 16)
  | .decode e _ => decide (e < 16)
  | .encode e _ => decide (e < 16)
  | .convert e _ => decide (e < 16)
  | .prismRcTimeout e => decide (e < 16)
  | .prismWatchdog e _ => decide (e < 16)
  | .powerSample r => r.converters.length == 8 && decide (r.rails.length ≤ 74)
  | .converterFault k => decide (k < 8)
  | .droopDetect c => c.wf
  | .thermalFastHold sensor _ => decide (sensor < 640)
  | .thermalTrip sensor _ => decide (sensor < 640)
  | .pconReceive m => decide (m.w < 2 ^ (8 * m.len))
  | .ppartReceive m => decide (m.w < 2 ^ (8 * m.len))
  | .pdecReceive m => decide (m.w < 2 ^ (8 * m.len))
  | .paceCollectorClose j level => decide (j < 16) && decide (1 ≤ level) && decide (level ≤ 5)
  | .paceVoteLate j => decide (j < 16)
  | .paceChange j => decide (j < 16)
  | .moduleReset => true
  | .standbyPowerUp => true
  | .startStepComplete step _ => decide (1 ≤ step) && decide (step ≤ 7)
  | .startLockTimeout => true
  | .ckptHaltStart j => decide (j < 16)
  | .ckptCaptureStart j => decide (j < 16)
  | .ckconReceive m => decide (m.w < 2 ^ (8 * m.len))
  | .ckpartReceive m => decide (m.w < 2 ^ (8 * m.len))
  | .ckdecReceive m => decide (m.w < 2 ^ (8 * m.len))
  | .ckptCollectorClose j level => decide (j < 16) && decide (1 ≤ level) && decide (level ≤ 5)
  | .ckptVoteTimeout j => decide (j < 16)
  | .ckptMessageReceive srcFi _ _ => decide (srcFi < 8192)
  | .ckptAckReceive j _ _ _ => decide (j < 16)
  | .ckptResume j => decide (j < 16)
  | .ckptForwardEnd j _ _ _ => decide (j < 16)
  | .verifyAll j => decide (j < 16)
  | .verifyMarked j => decide (j < 16)
  | .verifyDone j _ => decide (j < 16)
  | .selftestWindowOpen kind _ _ => decide (1 ≤ kind) && decide (kind ≤ 5)
  | .selftestWindowClose kind _ _ _ => decide (1 ≤ kind) && decide (kind ≤ 5)
  | .selftestDeferred c => c.wf
  | .mgmtRead off => decide (off < 2 ^ 32)
  | .mgmtWrite off _ => decide (off < 2 ^ 32)
  | .i3cSetaasa => true
  | .i3cEntdaa addr => decide (addr < 128)
  | .pldmCommand _ => true
  | .spdmGetVersion => true
  | .spdmGetCapabilities => true
  | .spdmNegotiateAlgorithms => true
  | .spdmGetDigests => true
  | .spdmGetCertificate offset len => decide (offset < 65536) && decide (len < 65536)
  | .spdmChallenge nonce => decide (nonce < 2 ^ 256)
  | .spdmGetMeasurements index => decide (index < 256)
  | .bypass => true
  | .idcode => true
  | .samplePreload _ => true
  | .extest => true
  | .clamp => true
  | .highz => true
  | .regread _ => true
  | .laprefRestored => true
  | .moduleResetRelease => true
  | .powerRemoval => true
  | .portRetry p => decide (p < 52)
  | .droopRecovered c _ => c.wf
  | .thermalHoldRelease => true

end Sys2Proof
end

