-- ==== Sys2Proof/Safety.lean ====
section
/-!
DEFINITION. The terms that claims use: the canonical form of memory, the rule of the TAP, a safe run, and what a step leaves alone:
the registers, the clusters, the slots and the queues that it does not name.
-/

namespace Sys2Proof.Machine
open Sys2Proof

/-- Memory is in its one canonical form (Memory.wf, Machine/Sparse.lean). -/
def State.memOk (s : State) : Bool := Memory.wf s.mem

/-- Every command that waits is one that the module can meet. -/
def State.queueWf (s : State) : Bool := s.pending.all Instr.wf

/-- The TAP holds EXTEST, CLAMP or HIGHZ only while MRST_N is asserted (R763). -/
def State.tapOk (s : State) : Bool := s.mrst || !(s.jtag.ir == 6 || s.jtag.ir == 4 || s.jtag.ir == 5)

/-- The coherence domain runs. -/
def State.safe (s : State) : Bool := !s.stopped

/-- `k` steps meet no fault, no refusal and no stop of the domain. -/
def SafeRun : Nat → State → Prop
  | 0, s => s.safe = true
  | k + 1, s => s.safe = true ∧ ∃ t, step s = .next t ∧ SafeRun k t

/-! Frames. -/

/-- Every register but those at `offs` reads the same. -/
def SameRegs (offs : List Nat) (s t : State) : Prop := ∀ off, off ∉ offs → t.reg off = s.reg off

/-- Every cluster but `cl` holds the same. -/
def SameClusters (cl : ClusterId) (s t : State) : Prop :=
  ∀ k, k ≠ clKey cl → sget (fun _ => ClusterSt.init) t.clusters k = sget (fun _ => ClusterSt.init) s.clusters k

/-- Every slot but `j` holds the same. -/
def SameSlots (j : Nat) (s t : State) : Prop := ∀ k, k ≠ j → t.slot k = s.slot k

/-- Every submission queue but `q` holds the same. -/
def SameQueues (q : Nat) (s t : State) : Prop := ∀ k, k ≠ q → t.queue k = s.queue k

/-- From `s` to `t` nothing differs but the registers at `offs`: memory, clusters, slots, queues, what is armed and what has been
sent are as they were. -/
def OnlyRegs (offs : List Nat) (s t : State) : Prop := { t with regs := s.regs } = s ∧ SameRegs offs s t

/-- From `s` to `t` nothing differs but the registers at `offs` and what cluster `cl` holds; `n` free values were taken. -/
def OnlyCluster (cl : ClusterId) (offs : List Nat) (n : Nat) (s t : State) : Prop :=
  { t with regs := s.regs, clusters := s.clusters, free := s.free } = s ∧ t.free = s.free + n ∧ SameRegs offs s t ∧ SameClusters cl s t

/-- The homes of the lines serve an access of a unit at once: none is busy with a line, no bias entry is 3, and no protected
array that a home reads for it holds an uncorrectable error (R425, R453, R469). -/
def HomeServes (s : State) (ls : List Nat) : Prop :=
  ∀ l ∈ ls, s.lineBusy l = false ∧ s.biasOf l ≠ 3 ∧ sget (fun _ => 0) s.eccErrs (3 * l) ≤ 1
    ∧ sget (fun _ => 0) s.eccErrs (3 * l + 1) ≤ 1 ∧ sget (fun _ => 0) s.eccErrs (3 * (l / 64) + 2) ≤ 1

/-- No bias entry is 3 and no protected array of a home holds an error: a read by a unit of the module stops nothing (R453, R469). -/
def MemSound (s : State) : Prop := s.eccErrs = [] ∧ ∀ l, s.biasOf l ≠ 3

/-- No line is under way: no transaction, request, tenure or WbData is open, and no write of a unit waits. -/
def Quiet (s : State) : Prop := s.txns = [] ∧ s.memQ = [] ∧ s.reqs = [] ∧ s.tenures = [] ∧ s.wbs = []

/-- Nothing waits at a home, in an agent or at a port for what comes next: no write of a unit, no access of a core, no inbound request, no ordered
doorbell, and no agent withdraws. -/
def NoneWaits (s : State) : Prop := s.memQ = [] ∧ s.hostWaits = [] ∧ s.pcieHeld = [] ∧ s.odbs = [] ∧ s.leaving = []

/-- An offset where a register lies whose write has no action of its own beyond its access codes (R6): no row of the opcode table
other than REGISTER_WRITE, REGWR and RS_FIELD_WRITE writes it. -/
def plainOff (off : Nat) : Bool :=
  (findReg off Machine.regTable).isSome
    && !(decide (0x600000 ≤ off) && decide (off < 0x700000))
    && !(decide (Reg.CPE_QRING 0 ≤ off) && decide (off < Reg.CPE_QRING 256))
    && !([Reg.STR_RING, Reg.STR_RING_HEAD, Reg.STR_HRST, Reg.SHD_CTL, Reg.LAP_START, Reg.CRM_STOP, Reg.CRM_BIAS_CMD, Reg.XLT_FQ_BASE,
      Reg.XLT_FAULT_RESUME, Reg.XLT_SD_CMD, Reg.XLT_NQ_HEAD].contains off)
    && !(decide (Reg.PCE_CORE 0 ≤ off) && decide (off < Reg.PCE_CORE 144))
    && !(decide (Reg.PRM_SURF 0 ≤ off) && decide (off < Reg.PRM_SURF 16) && decide (off % 0x40 = 0x08))
    && !(decide (Reg.RES_VERIFY 0 ≤ off) && decide (off < Reg.RES_VERIFY 16) && decide (off % 0x100 = 0x60))

/-! Sequencer steps. -/

/-- The registers that one retired instruction may write: CDn_CL_STATUS, CDn_CL_RETIRED, and CDn_CL_WAIT where it has waited for a
full queue. -/
def retireRegs (cl : ClusterId) : List Nat := [Reg.CL_STATUS cl.die cl.idx, Reg.CL_RETIRED cl.die cl.idx, Reg.CL_WAIT cl.die cl.idx]

/-- The sequencer issues `i` next, and `target` lies in its image of at most 64 KiB, at a multiple of 4 (R172, R186). -/
abbrev Fits (s : State) (cl : ClusterId) (i : Instr) (target : Nat) : Prop :=
  s.ready cl i = true ∧ target % 4 = 0 ∧ target < (s.cluster cl).code.length ∧ (s.cluster cl).code.length ≤ 65536

/-- CDn_CL_WAIT after an instruction has retired: a wait for a full queue is over (R176), and any other content stays. -/
def WaitOver (s t : State) (cl : ClusterId) : Prop :=
  (s.rd (F.CL_WAIT_KIND cl.die cl.idx) = 5 → t.rd (F.CL_WAIT_KIND cl.die cl.idx) = 0 ∧ t.rd (F.CL_WAIT_WHICH cl.die cl.idx) = 0
      ∧ t.rd (F.CL_WAIT_TARGET cl.die cl.idx) = 0)
    ∧ (s.rd (F.CL_WAIT_KIND cl.die cl.idx) ≠ 5 → t.reg (Reg.CL_WAIT cl.die cl.idx) = s.reg (Reg.CL_WAIT cl.die cl.idx))

/-- One instruction has retired: PC reads `target`, with CDn_CL_STATUS otherwise as it was, and CDn_CL_RETIRED has counted it. -/
def Retired (s t : State) (cl : ClusterId) (target : Nat) : Prop :=
  t.reg (Reg.CL_STATUS cl.die cl.idx) = putBits (s.reg (Reg.CL_STATUS cl.die cl.idx)) 31 0 target
    ∧ t.reg (Reg.CL_RETIRED cl.die cl.idx) = s.reg (Reg.CL_RETIRED cl.die cl.idx) + 1 ∧ WaitOver s t cl

/-- One instruction has retired with the cluster's contents `c`: PC is `target`, and nothing else differs. -/
def Steps (s t : State) (cl : ClusterId) (c : ClusterSt) (target : Nat) : Prop :=
  Retired s t cl target ∧ t.cluster cl = { c with icount := c.icount + 1 } ∧ OnlyCluster cl (retireRegs cl) 0 s t

/-- One instruction has retired with S[rd] written. -/
def WritesS (s t : State) (cl : ClusterId) (rd : BitVec 5) (v : Word) (target : Nat) : Prop :=
  Steps s t cl ((s.cluster cl).setS rd v) target

/-- The registers that a vector instruction shows itself in: CDn_CL_STATUS, CDn_CL_RETIRED, CDn_CL_VSTATUS and CDn_CL_VCNT. -/
def vectorRegs (cl : ClusterId) : List Nat := retireRegs cl ++ [Reg.CL_VSTATUS cl.die cl.idx, Reg.CL_VCNT cl.die cl.idx]

/-- A vector instruction has retired with the cluster's contents `c`, one more counted in ISSUED; `n` free values were taken. -/
def VSteps (s t : State) (cl : ClusterId) (c : ClusterSt) (n : Nat) : Prop :=
  Retired s t cl (s.pc cl + 4) ∧ t.cluster cl = { c with icount := c.icount + 1 } ∧ OnlyCluster cl (vectorRegs cl) n s t
    ∧ t.rd (F.CL_VSTATUS_VL cl.die cl.idx) = c.vl % 2 ^ 9
    ∧ t.rd (F.CL_VCNT_ISSUED cl.die cl.idx) = min (s.rd (F.CL_VCNT_ISSUED cl.die cl.idx) + 1) (2 ^ 32 - 1)

/-- CDn_CL_VSTATUS shows the VFLAGS of the contents `c`. -/
def VFlagsShown (t : State) (cl : ClusterId) (c : ClusterSt) : Prop :=
  t.rd (F.CL_VSTATUS_NV cl.die cl.idx) = b2n (c.vflags.testBit 3) ∧ t.rd (F.CL_VSTATUS_DZ cl.die cl.idx) = b2n (c.vflags.testBit 2)
    ∧ t.rd (F.CL_VSTATUS_OF cl.die cl.idx) = b2n (c.vflags.testBit 1) ∧ t.rd (F.CL_VSTATUS_NFW cl.die cl.idx) = b2n (c.vflags.testBit 0)

/-- A vector instruction has retired into the vector queue, with the contents `c` and its own VL and VTYPE in the entry. -/
def VEnters (s t : State) (cl : ClusterId) (c : ClusterSt) (cast loadStore : Bool) : Prop :=
  let old := s.cluster cl
  t.pc cl = s.pc cl + 4 ∧ t.run cl = 1 ∧ t.reg (Reg.CL_RETIRED cl.die cl.idx) = s.reg (Reg.CL_RETIRED cl.die cl.idx) + 1
    ∧ t.cluster cl = { c with icount := c.icount + 1, vq := old.vq ++ [⟨old.vl, old.vtype, cast, loadStore, old.icount⟩] }
    ∧ t.rd (F.CL_VSTATUS_QUEUE cl.die cl.idx) = old.vq.length + 1
    ∧ OnlyCluster cl (vectorRegs cl ++ [Reg.CL_WGQ cl.die cl.idx]) 0 s t

/-- A vector instruction with the contents `c` has retired: out of an empty queue it leaves at once, and it waits behind what stands
in a queue with room (R178, R278). -/
def VTaken (s t : State) (cl : ClusterId) (c : ClusterSt) (loadStore : Bool) : Prop :=
  ((s.cluster cl).vq = [] → VSteps s t cl c (b2n loadStore)) ∧ VFlagsShown t cl c
    ∧ ((s.cluster cl).vq ≠ [] → VEnters s t cl c false loadStore)

/-- The sequencer issues the vector instruction `i` next, and the vector queue has room. -/
abbrev VFits (s : State) (cl : ClusterId) (i : Instr) : Prop := Fits s cl i (s.pc cl + 4) ∧ (s.cluster cl).vq.length < 16

end Sys2Proof.Machine
end

