-- ==== Sys2Proof/Certificates/Slice0/Obligations.lean ====
section
/-!
DEFINITION. The statements for the provers, family by family: what a command does where it completes, what it leaves alone, and what
holds of every state and step. Each docstring names the rules of spec/ that it formalises, or the choice of the model that it states.
-/

open Sys2Proof Sys2Proof.Machine

/-- A step runs the command at the front of the queue on the state with the queue's rest; with an empty queue the module idles, which is the model's
choice (DESIGN CHOICE, notes/assumptions/4.md). -/
def Obligations.StepRunsFront : Prop :=
  (∀ (c : Instr) (rest : List Instr) (s : State), s.pending = c :: rest → step s = exec c { s with pending := rest })
    ∧ ∀ s : State, s.pending = [] → step s = .next s

/-- At reset the lap clock is UNLOCKED at count 0, the ring is disabled and empty, every slot is EMPTY, every area without a staged value, the domain
runs, and every queue is disabled with both phases 1 (the register tables); nothing is armed, waiting or sent, and memory, the TAP and the queue of
commands meet their invariants. -/
def Obligations.ResetState : Prop :=
  let s := State.reset
  s.now = 0 ∧ s.rd F.LAP_STATUS_STATE = 0 ∧ s.rd F.STR_RING_EN = 0 ∧ s.ring.count = 0 ∧ s.ring.held = [] ∧ s.rd F.STR_START_STATE = 0
    ∧ (∀ j, j < 16 → s.slotState j = 0 ∧ s.jobOf j = none) ∧ (∀ a, a < 17 → s.areaState a = 0) ∧ s.stop = none
    ∧ (∀ q, q < 256 → s.rd (F.CPE_QRING_EN q) = 0 ∧ s.rd (F.SQ_STAT_SPHASE q) = 1 ∧ s.rd (F.SQ_STAT_CPHASE q) = 1)
    ∧ s.arms = [] ∧ s.pending = [] ∧ s.out = [] ∧ s.mem = [] ∧ s.memOk = true ∧ s.tapOk = true ∧ s.queueWf = true

/-- In every step EXTEST, CLAMP and HIGHZ are in force only while MRST_N is asserted (R763). -/
def Obligations.TapRule : Prop := ∀ s t : State, s.tapOk = true → step s = .next t → t.tapOk = true

/-- Every step keeps memory in its canonical form: addresses strictly rising. -/
def Obligations.MemoryCanonical : Prop := ∀ s t : State, s.memOk = true → step s = .next t → t.memOk = true

/-- No command changes the queue of those that wait, or takes back what the module has sent; so every step keeps the queue well formed. -/
def Obligations.QueueKept : Prop :=
  (∀ (c : Instr) (s t : State), exec c s = .next t → t.pending = s.pending ∧ s.out <+: t.out)
    ∧ ∀ s t : State, s.queueWf = true → step s = .next t → t.queueWf = true

/-- A detected condition takes the next SEQ. Its record of 32 bytes stands at the ring's next entry where R17 gives it one, and no other byte of memory
changes; a fatal record that finds no entry is held, and so is any record while the ring is disabled, as far as the store of 64 goes; a lower one that
finds only the last 16 entries is dropped and counted (R11, R14, R16 to R18, R670). Software consumes records by writing HEAD, and a write beyond what
is there does nothing; enabling the ring starts it at entry 0 with PHASE 1, and disabling it changes EN alone; a held record is written into a free
entry with the SEQ it was given; the overflow record carries the number of dropped records and the lap of the first (R16 to R19, R670, R778). With
nothing held or dropped, the first two write no record. LAP of a record is the count, or before the clock first locks the laps since module reset
(R11); after a stop the record is written to memory itself (R472). Before one, the home of the entry's line serves the write at once. -/
def Obligations.EventRing : Prop :=
  (∀ (s : State) (e : Ev), e.sev < 16 → e.code < 2 ^ 16 → e.src < 2 ^ 16 → (∀ x ∈ e.job, x < 2 ^ 12) → s.ringAway = false →
      let a := 4096 * s.rd F.STR_RING_BASE + 32 * s.ring.tail
      (s.stopped = false → HomeServes s (linesOf a 32)) →
      let t := s.emit e
      let fatal := decide (3 ≤ e.sev)
      t.ring.seq = (s.ring.seq + 1) % 8192
      ∧ (s.rd F.STR_RING_EN = 1 → ((fatal = true ∧ 0 < s.ringFree) ∨ (fatal = false ∧ s.ring.lost = 0 ∧ 16 < s.ringFree)) →
        let w := if s.stopped then ofLe ((List.range 32).map (fun i => t.rawByte (a + i))) else t.memNat a 32
        bits w 63 0 = s.recLap % 2 ^ 64 ∧ bit w 127 = s.ring.phase ∧ bit w 126 = e.job.isSome ∧ bit w 125 = s.locked ∧ bits w 124 112 = s.ring.seq % 8192
          ∧ bits w 111 108 = e.sev ∧ bits w 107 96 = e.job.getD 0 ∧ bits w 95 80 = e.src ∧ bits w 79 64 = e.code
          ∧ bits w 255 128 = e.payload % 2 ^ 128 ∧ t.ring.count = s.ring.count + 1 ∧ t.ring.held = s.ring.held
          ∧ (∀ b, b < a ∨ a + 32 ≤ b → t.memByte b = s.memByte b)
          ∧ (s.ring.tail + 1 ≠ s.ringSize → t.ring.tail = s.ring.tail + 1 ∧ t.ring.phase = s.ring.phase)
          ∧ (s.ring.tail + 1 = s.ringSize → t.ring.tail = 0 ∧ t.ring.phase = !s.ring.phase)
          ∧ t.rd F.STR_RING_CNT_WRITTEN = min (s.rd F.STR_RING_CNT_WRITTEN + 1) (2 ^ 32 - 1))
      ∧ ((s.rd F.STR_RING_EN = 0 ∨ (fatal = true ∧ s.ringFree = 0)) → s.ring.held.length < 64 → t.mem = s.mem ∧ t.ring.count = s.ring.count
        ∧ (∃ r : Rec, t.ring.held = s.ring.held ++ [r] ∧ r.seq = s.ring.seq ∧ r.code = e.code ∧ r.sev = e.sev ∧ r.payload = e.payload
          ∧ r.src = e.src ∧ r.lap = s.recLap))
      ∧ (s.rd F.STR_RING_EN = 1 → fatal = false → s.ringFree ≤ 16 → t.mem = s.mem ∧ t.ring.count = s.ring.count ∧ t.ring.held = s.ring.held
        ∧ t.ring.lost = s.ring.lost + 1 ∧ t.rd F.STR_RING_CNT_DROPPED = min (s.rd F.STR_RING_CNT_DROPPED + 1) 65535))
  ∧ (∀ (s : State) (val : Word), s.stopped = false →
      let size := s.ringSize
      let d := (val.toNat % 65536 % size + size - s.rd F.STR_RING_HEAD_HEAD % size) % size
      let a := 4096 * s.rd F.STR_RING_BASE + 32 * s.ring.tail
      (s.ring.held = [] → s.ring.lost = 0 →
        (d ≤ s.ring.count → ∃ t, exec (.ringHeadWrite val) s = .next t ∧ t.ring = { s.ring with count := s.ring.count - d }
          ∧ t.rd F.STR_RING_HEAD_HEAD = val.toNat % 65536 % size ∧ { t with regs := s.regs, ring := s.ring } = s
          ∧ SameRegs [Reg.STR_RING_HEAD] s t)
        ∧ (s.ring.count < d → exec (.ringHeadWrite val) s = .next s)
        ∧ (s.rd F.STR_RING_EN = 0 → bit val.toNat 63 = true → ∃ t, exec (.eventRingEnable val) s = .next t
          ∧ t.ring = { s.ring with tail := 0, phase := true, count := 0 } ∧ t.rd F.STR_RING_EN = 1
          ∧ t.rd F.STR_RING_LOG2 = bits val.toNat 62 58 ∧ t.rd F.STR_RING_BASE = bits val.toNat 45 12 ∧ t.rd F.STR_RING_HEAD_HEAD = 0
          ∧ { t with regs := s.regs, ring := s.ring } = s ∧ SameRegs [Reg.STR_RING, Reg.STR_RING_HEAD] s t))
      ∧ (s.rd F.STR_RING_EN = 1 → bit val.toNat 63 = false → ∃ t, exec (.eventRingDisable val) s = .next t ∧ t.rd F.STR_RING_EN = 0
        ∧ t.rd F.STR_RING_LOG2 = s.rd F.STR_RING_LOG2 ∧ t.rd F.STR_RING_BASE = s.rd F.STR_RING_BASE ∧ OnlyRegs [Reg.STR_RING] s t)
      ∧ (s.rd F.STR_RING_EN = 1 → s.ringAway = false → HomeServes s (linesOf a 32) →
        (∀ r rs, s.ring.held = r :: rs → s.ring.lost = 0 → ((3 ≤ r.sev ∧ 0 < s.ringFree) ∨ 16 < s.ringFree) →
          ∃ t, exec .heldRecordWrite s = .next t ∧ t.ring.held = rs ∧ t.memNat a 32 = r.toNat s.ring.phase
            ∧ t.ring.count = s.ring.count + 1 ∧ t.ring.seq = s.ring.seq ∧ t.rd F.STR_RING_CNT_HELD = rs.length % 256)
        ∧ (0 < s.ring.lost → 16 < s.ringFree → ∃ t, exec .eventRingOverflow s = .next t ∧ t.ring.lost = 0 ∧ t.ring.held = s.ring.held
          ∧ t.ring.seq = (s.ring.seq + 1) % 8192 ∧ bits (t.memNat a 32) 79 64 = 0x0120 ∧ bits (t.memNat a 32) 111 108 = 1
          ∧ bits (t.memNat a 32) 95 80 = 0xF800 ∧ bits (t.memNat a 32) 159 128 = s.ring.lost % 2 ^ 32
          ∧ bits (t.memNat a 32) 223 160 = s.ring.lostLap % 2 ^ 64)))

/-- A 64-bit write of a register that no other row of the table writes sets its RW fields, clears and sets what W1C and W1S select, and leaves all else,
by a command or over Crimon; a register whose write is another row's command is that command; a narrower write, or one where no register lies, does
nothing; a write of 1 to CRM_STOP.VALID clears the stop's registers (R6, R8, R9). A write of RS fields stages them, and is ignored and counted while
its area is ARMED or VOTED (R672, R673). A host core's read is answered with the register's value and its own TXN (R445); a read of LAP_COUNT takes
the phase of the moment into LAP_PHASE (a free value: DESIGN CHOICE, notes/assumptions/3.md). -/
def Obligations.RegisterWrites : Prop :=
  ∀ (s : State) (val : Word) (core : Option Nat), s.stopped = false →
    (∀ off, plainOff off = true → ∃ t, exec (.registerWrite off ⟨64, core⟩ val) s = .next t
      ∧ (accMask .rs off = 0 → t.reg off = (mergeMask (accMask .rw off) (s.reg off) val &&& ~~~ (val &&& accMask .w1c off))
          ||| (val &&& accMask .w1s off) ∧ OnlyRegs [off] s t)
      ∧ (accMask .rs off ≠ 0 → s.areaState (areaOf off) < 2 → t.stagedWord off &&& accMask .rs off = val &&& accMask .rs off
          ∧ { t with regs := s.regs, staged := s.staged } = s ∧ SameRegs [off, Reg.SHD_STAT (areaOf off)] s t))
    ∧ (∀ p ∈ [(Reg.STR_RING_HEAD, Instr.ringHeadWrite val), (Reg.CRM_BIAS_CMD, .biasCmd val), (Reg.XLT_FQ_BASE, .fqBaseWrite val),
        (Reg.XLT_SD_CMD, .shootdownCmd val), (Reg.STR_RING, if bit val.toNat 63 then .eventRingEnable val else .eventRingDisable val)],
      exec (.registerWrite p.1 ⟨64, core⟩ val) s = exec p.2 s)
    ∧ (∀ p ∈ [(1, Instr.shdCheck (bits val.toNat 60 56)), (2, .shdArm (bits val.toNat 60 56)), (3, .shdWithdraw (bits val.toNat 60 56)),
        (4, .shdDiscard (bits val.toNat 60 56)), (5, .shdApplyNow (bits val.toNat 60 56))],
      bits val.toNat 63 61 = p.1 → exec (.registerWrite Reg.SHD_CTL ⟨64, core⟩ val) s = exec p.2 s)
    ∧ (∀ (m : CrMsg) off width, width < 64 → m.op = 6 → m.cls = 0 →
      ∀ i ∈ [Instr.registerWrite off ⟨width, core⟩ val, .rsFieldWrite off width val, .regwr m width], exec i s = .next s)
    ∧ (∀ m : CrMsg, m.op = 6 → m.cls = 0 → m.word = val →
      exec (.regwr m 64) s = exec (.registerWrite (8 * m.addr) ⟨64, (agentOf m.src).map (fun a => 72 * a)⟩ val) s
        ∧ (plainOff (8 * m.addr) = true → accMask .rs (8 * m.addr) = 0 → ∃ t, exec (.regwr m 64) s = .next t
          ∧ t.reg (8 * m.addr) = (mergeMask (accMask .rw (8 * m.addr)) (s.reg (8 * m.addr)) val &&& ~~~ (val &&& accMask .w1c (8 * m.addr)))
            ||| (val &&& accMask .w1s (8 * m.addr)) ∧ OnlyRegs [8 * m.addr] s t))
    ∧ (∀ off, findReg off Machine.regTable = none → exec (.registerWrite off ⟨64, core⟩ val) s = .next s)
    ∧ (bit val.toNat 63 = true → ∃ t, exec (.registerWrite Reg.CRM_STOP ⟨64, core⟩ val) s = .next t ∧ t.reg Reg.CRM_STOP = 0
      ∧ t.reg Reg.CRM_STOP_LAP = 0 ∧ t.reg Reg.CRM_STOP_ADDR = 0
      ∧ OnlyRegs [Reg.CRM_STOP, Reg.CRM_STOP_LAP, Reg.CRM_STOP_ADDR] s t)
    ∧ (∀ off, accMask .rs off ≠ 0 →
      (s.areaState (areaOf off) < 2 → ∃ t, exec (.rsFieldWrite off 64 val) s = .next t
        ∧ t.stagedWord off = mergeMask (accMask .rs off) (s.stagedWord off) val
        ∧ { t with regs := s.regs, staged := s.staged } = s ∧ SameRegs [Reg.SHD_STAT (areaOf off)] s t)
      ∧ (2 ≤ s.areaState (areaOf off) → ∃ t, exec (.rsFieldWrite off 64 val) s = .next t
        ∧ t.rd F.SHD_CNT_WRITE_IGN = min (s.rd F.SHD_CNT_WRITE_IGN + 1) 65535 ∧ OnlyRegs [Reg.SHD_CNT] s t))
    ∧ (∀ off, accMask .rs off = 0 → exec (.rsFieldWrite off 64 val) s = .next s)
    ∧ ∀ m : CrMsg, m.op = 5 → m.cls = 0 → ∃ (t : State) (r : CrMsg), exec (.regrd m) s = .next t ∧ t.out = s.out ++ [.crimon r]
      ∧ r.op = 0x2A ∧ r.cls = 2 ∧ r.dst = m.src ∧ r.txn = m.txn ∧ r.addr = m.addr ∧ r.word = s.readWord (8 * m.addr)
      ∧ (8 * m.addr ≠ Reg.LAP_COUNT → { t with out := s.out } = s)
      ∧ (8 * m.addr = Reg.LAP_COUNT → { t with regs := s.regs, out := s.out, free := s.free } = s ∧ SameRegs [Reg.LAP_PHASE] s t)

/-- ALU writes S[RD] with the result that FN names, PC moves on by 4, and nothing else differs (R183). The immediate instructions write S[RD]: IMM is
sign-extended in ADDI, SLTI and LUI, zero-extended in ANDI, ORI, XORI and SLTIU, and a shift count below 64 in SHLI, SHRI and SARI (R184). S0 reads as
zero and discards what is written to it; every other S register reads as last written (R171). -/
def Obligations.ScalarResults : Prop :=
  (∀ (s : State) (cl : ClusterId) (f : FmtR), Fits s cl (.alu cl f) (s.pc cl + 4) →
      let a := (s.cluster cl).sreg f.rs1
      let b := (s.cluster cl).sreg f.rs2
      let n := b.toNat % 64
      (∀ p ∈ [(0, a + b), (1, a - b), (2, a &&& b), (3, a ||| b), (4, a ^^^ b), (5, a <<< n), (6, a >>> n), (7, a.sshiftRight n),
          (8, a * b), (9, BitVec.ofNat 64 (a.toNat * b.toNat / 2 ^ 64)), (10, if a.toInt < b.toInt then 1 else 0),
          (11, if a.toNat < b.toNat then 1 else 0), (12, if a.toInt < b.toInt then a else b), (13, if b.toInt < a.toInt then a else b),
          (14, if a.toNat < b.toNat then a else b), (15, if b.toNat < a.toNat then a else b)],
        f.fn.toNat = p.1 → ∃ t, exec (.alu cl f) s = .next t ∧ WritesS s t cl f.rd p.2 (s.pc cl + 4))
      ∧ (∀ p ∈ [(16, clz64 a.toNat), (17, popc64 a.toNat)],
        f.fn.toNat = p.1 → f.rs2 = 0 → ∃ t, exec (.alu cl f) s = .next t ∧ WritesS s t cl f.rd (BitVec.ofNat 64 p.2) (s.pc cl + 4)))
  ∧ (∀ (s : State) (cl : ClusterId) (f : FmtI),
      let a := (s.cluster cl).sreg f.rs1
      let x : Word := f.imm.signExtend 64
      let z : Word := f.imm.zeroExtend 64
      (∀ p ∈ [(Instr.addi cl f, a + x), (.andi cl f, a &&& z), (.ori cl f, a ||| z), (.xori cl f, a ^^^ z),
          (.slti cl f, if a.toInt < x.toInt then 1 else 0), (.sltiu cl f, if a.toNat < z.toNat then 1 else 0)],
        Fits s cl p.1 (s.pc cl + 4) → ∃ t, exec p.1 s = .next t ∧ WritesS s t cl f.rd p.2 (s.pc cl + 4))
      ∧ (f.imm.toNat < 64 → ∀ p ∈ [(Instr.shli cl f, a <<< f.imm.toNat), (.shri cl f, a >>> f.imm.toNat),
          (.sari cl f, a.sshiftRight f.imm.toNat)],
        Fits s cl p.1 (s.pc cl + 4) → ∃ t, exec p.1 s = .next t ∧ WritesS s t cl f.rd p.2 (s.pc cl + 4))
      ∧ ∀ g : FmtU, Fits s cl (.lui cl g) (s.pc cl + 4) →
        ∃ t, exec (.lui cl g) s = .next t ∧ WritesS s t cl g.rd (g.imm.signExtend 64 <<< 12) (s.pc cl + 4))
  ∧ (∀ (c : ClusterSt) (rd r : BitVec 5) (v : Word),
      c.sreg 0 = 0 ∧ c.setS 0 v = c ∧ (c.setS rd v).sreg r = (if r = 0 then 0 else if r = rd then v else c.sreg r))

/-- A branch whose condition holds goes to PC + 4 · OFF, any other to PC + 4; nothing else differs (R185, R186). JAL and JALR write PC + 4 to S[RD] and
jump; JALR reads S[RS1] before it writes S[RD] (R185). -/
def Obligations.ControlTransfers : Prop :=
  (∀ (s : State) (cl : ClusterId) (f : FmtB),
      let a := (s.cluster cl).sreg f.rs1
      let b := (s.cluster cl).sreg f.rs2
      ∀ p ∈ [(Instr.beq cl f, decide (a = b)), (.bne cl f, decide (a ≠ b)), (.blt cl f, decide (a.toInt < b.toInt)),
          (.bge cl f, decide (b.toInt ≤ a.toInt)), (.bltu cl f, decide (a.toNat < b.toNat)), (.bgeu cl f, decide (b.toNat ≤ a.toNat))],
        ∀ target : Nat, (target : Int) = s.pc cl + (if p.2 then 4 * f.off.toInt else 4) → Fits s cl p.1 target →
          ∃ t, exec p.1 s = .next t ∧ Steps s t cl (s.cluster cl) target)
  ∧ (∀ (s : State) (cl : ClusterId) (target : Nat),
      (∀ f : FmtU, Fits s cl (.jal cl f) target → (target : Int) = s.pc cl + 4 * f.imm.toInt →
        ∃ t, exec (.jal cl f) s = .next t ∧ WritesS s t cl f.rd (BitVec.ofNat 64 (s.pc cl + 4)) target)
      ∧ ∀ f : FmtI, Fits s cl (.jalr cl f) target → target = ((s.cluster cl).sreg f.rs1 + f.imm.signExtend 64).toNat →
        ∃ t, exec (.jalr cl f) s = .next t ∧ WritesS s t cl f.rd (BitVec.ofNat 64 (s.pc cl + 4)) target)

/-- LD, LW, ST, SW and TCPY move bytes of the tile store where the address is aligned, in range and not held back by the interlock of R179 (R187, R188). -/
def Obligations.TileAccess : Prop :=
  ∀ (s : State) (cl : ClusterId),
    let c := s.cluster cl
    (∀ f : FmtI, let a := memAddr c f.rs1 f.imm
      (Fits s cl (.ld cl f) (s.pc cl + 4) → a % 8 = 0 → a < tileSize → s.interlocked cl a 8 false = false →
        ∃ t, exec (.ld cl f) s = .next t ∧ WritesS s t cl f.rd (BitVec.ofNat 64 (c.tnat a 8)) (s.pc cl + 4))
      ∧ (Fits s cl (.lw cl f) (s.pc cl + 4) → a % 4 = 0 → a < tileSize → s.interlocked cl a 4 false = false →
        ∃ t, exec (.lw cl f) s = .next t ∧ WritesS s t cl f.rd (BitVec.ofNat 64 (c.tnat a 4)) (s.pc cl + 4)))
    ∧ (∀ f : FmtS, let a := memAddr c f.rs1 f.imm
      (Fits s cl (.st cl f) (s.pc cl + 4) → a % 8 = 0 → a < tileSize → s.interlocked cl a 8 true = false →
        ∃ t, exec (.st cl f) s = .next t ∧ Steps s t cl (c.setT a (leBytes 8 (c.sn f.rs2))) (s.pc cl + 4))
      ∧ (Fits s cl (.sw cl f) (s.pc cl + 4) → a % 4 = 0 → a < tileSize → s.interlocked cl a 4 true = false →
        ∃ t, exec (.sw cl f) s = .next t ∧ Steps s t cl (c.setT a (leBytes 4 (c.sn f.rs2))) (s.pc cl + 4)))
    ∧ ∀ f : Fmt5, let d := c.sn f.f19
      let a := c.sn f.f14
      let n := c.sn f.f9
      Fits s cl (.tcpy cl f) (s.pc cl + 4) → f.f24 = 0 → f.f4 = 0 → d % 64 = 0 → a % 64 = 0 → n % 64 = 0 → d + n ≤ tileSize → a + n ≤ tileSize → (n = 0 ∨ a + n ≤ d ∨ d + n ≤ a) →
      s.interlocked cl d n true = false → s.interlocked cl a n false = false →
      ∃ t, exec (.tcpy cl f) s = .next t ∧ Steps s t cl (c.setT d (c.tbytes a n)) (s.pc cl + 4)

/-- SRD puts the special register that IMM names into S[RD] (R174): LWAIT, HCON, LAP, DQSEQ, JOBID, CLID, MODIDX, STEP, RLAP, UNSCALE, HMARK, DMARK,
PACE and PSTEP. -/
def Obligations.SpecialReads : Prop :=
  ∀ (s : State) (cl : ClusterId) (f : FmtI) (j : Nat), Fits s cl (.srd cl f) (s.pc cl + 4) → s.slotOfCl cl = some j → f.rs1 = 0 →
    ∀ p ∈ [(0x001, (s.cluster cl).lwait.toNat), (0x002, (s.cluster cl).hcon.toNat), (0x003, s.rd F.LAP_COUNT_COUNT),
        (0x006, (s.cluster cl).dqseq), (0x008, s.rd (F.STR_SLOT_JOB_ID j)),
        (0x009, place 6 0 (s.logical cl) ||| place 12 8 (s.partOrd j (clPart cl)) ||| place 21 16 (s.partsOf j).length),
        (0x00A, place 12 0 (s.rd (F.HRD_ROLE_MODIDX j)) ||| place 29 16 (s.rd (F.HRD_ROLE_MEMBERS j))),
        (0x010, s.rd (F.NUM_STEP_STEP j)), (0x011, (s.slot j).rlap), (0x012, unsignedOf 8 (s.unscale j)),
        (0x014, s.rd (F.HRD_MARK_H j)), (0x015, s.rd (F.HRD_MARK_H j) - s.rd (F.HRD_SCHED_DRAIN_LEAD j)),
        (0x016, s.rd (F.STR_SLOT_PACE j)), (0x017, (s.cluster cl).pstep % 2 ^ 44)],
      f.imm.toNat = p.1 → ∃ t, exec (.srd cl f) s = .next t ∧ Retired s t cl (s.pc cl + 4)
        ∧ t.cluster cl = { (s.cluster cl).setS f.rd (BitVec.ofNat 64 p.2) with icount := (s.cluster cl).icount + 1 }
        ∧ OnlyCluster cl (retireRegs cl) 1 s t

/-- BAR puts the cluster into RUN 3 at its barrier, WLAP for a lap to come into RUN 2, HRDW with W into RUN 7 and DWAIT for a DQ that is outstanding into
RUN 4; CDn_CL_WAIT shows which, and nothing outside the cluster's contents and these registers changes (R215, R216, R218, R225). FENCE and HALT wait
at issue, with nothing changed, until everything before them is complete, and so does an HRDW behind another (R221, R230). -/
def Obligations.Waits : Prop :=
  (∀ (s : State) (cl : ClusterId),
      let c := s.cluster cl
      let waits (t : State) (run kind which target : Nat) : Prop :=
        t.run cl = run ∧ t.rd (F.CL_WAIT_KIND cl.die cl.idx) = kind ∧ t.rd (F.CL_WAIT_WHICH cl.die cl.idx) = which
          ∧ t.rd (F.CL_WAIT_TARGET cl.die cl.idx) = target % 2 ^ 40
          ∧ OnlyCluster cl [Reg.CL_STATUS cl.die cl.idx, Reg.CL_WAIT cl.die cl.idx] 0 s t
      (∀ f : FmtI, s.ready cl (.bar cl f) = true → f.imm.toNat < 32 → f.rd = 0 → f.rs1 = 0 → ∃ t, exec (.bar cl f) s = .next t
        ∧ waits t 3 2 f.imm.toNat 0 ∧ t.cluster cl = { c with wait := .bar (bit f.imm.toNat 4) (f.imm.toNat % 16) })
      ∧ (∀ f : FmtI, let a := memAddr c f.rs1 f.imm
        s.ready cl (.wlap cl f) = true → s.now < a → a ≤ 2 ^ 32 + s.now → ∃ t, exec (.wlap cl f) s = .next t ∧ waits t 2 1 0 a
          ∧ t.cluster cl = { c with lwait := BitVec.ofNat 64 a, wait := .wlap f.rd.toNat a })
      ∧ (∀ f : Fmt5, s.ready cl (.hrdw cl f) = true → f.f14 = 0 → f.f9 = 0 → f.f4 = 1 → c.hrdw = none → ∃ t, exec (.hrdw cl f) s = .next t
        ∧ waits t 7 4 0 0
        ∧ t.cluster cl = { c with hrdw := some ⟨c.sn f.f19 % 4, c.pstep, c.icount⟩, pstep := c.pstep + 1, wait := .hrdw f.f24.toNat c.pstep })
      ∧ (∀ f : Fmt5, s.ready cl (.hrdw cl f) = true → f.f14 = 0 → f.f9 = 0 → (f.f4 = 1 ∨ (f.f4 = 0 ∧ f.f24 = 0)) → c.hrdw.isSome = true →
        exec (.hrdw cl f) s = .next s)
      ∧ ∀ f : Fmt5, s.ready cl (.dwait cl f) = true → f.f24 = 0 → f.f14 = 0 → f.f9 = 0 →
        (f.f4 = 0 → c.sn f.f19 ≤ c.dqseq → (∃ d ∈ c.dqs, d.seq = c.sn f.f19) → c.sn f.f19 ≠ 0 → ∃ t, exec (.dwait cl f) s = .next t
          ∧ waits t 4 3 0 (c.sn f.f19) ∧ t.cluster cl = { c with wait := .dwait (c.sn f.f19) false })
        ∧ (f.f4 = 1 → (∃ d ∈ c.dqs, d.seq ≤ c.dqseq) → ∃ t, exec (.dwait cl f) s = .next t
          ∧ waits t 4 3 0 c.dqseq ∧ t.cluster cl = { c with wait := .dwait c.dqseq true }))
  ∧ ∀ (s : State) (cl : ClusterId) (f : Fmt5), f.f24 = 0 → f.f19 = 0 → f.f14 = 0 → f.f9 = 0 → f.f4 = 0 → (s.cluster cl).allDone = false →
      ∀ i ∈ [Instr.fence cl f, .halt cl f], s.ready cl i = true → exec i s = .next s

/-- BAR, WLAP, HRDW, DWAIT, FENCE and HALT complete. A WLAP whose lap has come retires at once, with the laps since it in S[RD] and LATE set (R218); an
HRDW without W, a DWAIT of a DQ that has completed, or of all with none outstanding, and a FENCE with everything before it complete retire at once
(R215, R221, R230); a HALT with everything before it complete stops in RUN 5, counted as retired (R230). A BAR of the last participant waits there,
and BARRIER_RELEASE then lets it go on at PC + 4 (R216, R217). A cluster that waits at its lap goes on: WLAP_COMPLETE writes the laps since T to S[RD],
0 when the count has just reached T, LATE telling which, and the cluster is RUNNING at PC + 4 (R218). Clusters that wait at one barrier leave it
together, each RUNNING at its PC + 4, once all of its participants wait there (R216, R217). -/
def Obligations.WaitsEnd : Prop :=
  (∀ (s : State) (cl : ClusterId),
      let c := s.cluster cl
      (∀ f : FmtI, let a := memAddr c f.rs1 f.imm
        Fits s cl (.wlap cl f) (s.pc cl + 4) → a ≤ s.now → ∃ t, exec (.wlap cl f) s = .next t ∧ Retired s t cl (s.pc cl + 4)
          ∧ t.cluster cl = { { c with lwait := BitVec.ofNat 64 a, late := true }.setS f.rd (BitVec.ofNat 64 (s.now - a)) with icount := c.icount + 1 })
      ∧ (∀ f : Fmt5, Fits s cl (.hrdw cl f) (s.pc cl + 4) → f.f24 = 0 → f.f14 = 0 → f.f9 = 0 → f.f4 = 0 → c.hrdw = none →
        ∃ t, exec (.hrdw cl f) s = .next t ∧
          Steps s t cl { c with hrdw := some ⟨c.sn f.f19 % 4, c.pstep, c.icount⟩, pstep := c.pstep + 1 } (s.pc cl + 4))
      ∧ (∀ f : Fmt5, Fits s cl (.dwait cl f) (s.pc cl + 4) → f.f24 = 0 → f.f14 = 0 → f.f9 = 0 →
        (f.f4 = 0 → c.sn f.f19 ≤ c.dqseq → (c.sn f.f19 = 0 ∨ ∀ d ∈ c.dqs, d.seq ≠ c.sn f.f19) →
          ∃ t, exec (.dwait cl f) s = .next t ∧ Steps s t cl c (s.pc cl + 4))
        ∧ (f.f4 = 1 → (∀ d ∈ c.dqs, c.dqseq < d.seq) → ∃ t, exec (.dwait cl f) s = .next t ∧ Steps s t cl c (s.pc cl + 4)))
      ∧ (∀ f : Fmt5, f.f24 = 0 → f.f19 = 0 → f.f14 = 0 → f.f9 = 0 → f.f4 = 0 →
        (Fits s cl (.fence cl f) (s.pc cl + 4) → c.allDone = true → ∃ t, exec (.fence cl f) s = .next t ∧ Steps s t cl c (s.pc cl + 4))
        ∧ (s.ready cl (.halt cl f) = true → c.allDone = true → cl.wf = true → ∃ t, exec (.halt cl f) s = .next t ∧ t.run cl = 5
          ∧ t.pc cl = s.pc cl ∧ t.rd (F.CL_RETIRED_COUNT cl.die cl.idx) = (s.rd (F.CL_RETIRED_COUNT cl.die cl.idx) + 1) % 2 ^ 64
          ∧ t.cluster cl = c ∧ t.mem = s.mem ∧ t.out = s.out))
      ∧ ∀ (f : FmtI) (j : Nat), s.ready cl (.bar cl f) = true → f.imm.toNat < 32 → f.rd = 0 → f.rs1 = 0 →
        let part := if bit f.imm.toNat 4 then some (cl.idx / 72) else none
        cl ∈ s.barMembers cl.die part j →
        (∀ k ∈ s.barMembers cl.die part j, (s.pc k + 4) % 4 = 0 ∧ s.pc k + 4 < (s.cluster k).code.length ∧ (s.cluster k).code.length ≤ 65536
          ∧ (k ≠ cl → s.run k = 3 ∧ (s.cluster k).wait = .bar part.isSome (f.imm.toNat % 16))) →
        ∃ t u, exec (.bar cl f) s = .next t ∧ exec (.barrierRelease cl.die part j (f.imm.toNat % 16)) t = .next u
          ∧ u.run cl = 1 ∧ u.pc cl = s.pc cl + 4 ∧ u.cluster cl = { c with wait := .none, icount := c.icount + 1 }
          ∧ u.mem = s.mem ∧ u.out = s.out)
  ∧ (∀ (s : State) (cl : ClusterId) (rd : BitVec 5) (T : Nat), s.run cl = 2 → (s.cluster cl).wait = .wlap rd.toNat T → T ≤ s.now →
      (s.pc cl + 4) % 4 = 0 → s.pc cl + 4 < (s.cluster cl).code.length → (s.cluster cl).code.length ≤ 65536 →
      ∃ t, exec (.wlapComplete cl) s = .next t ∧ t.run cl = 1 ∧ t.pc cl = s.pc cl + 4
        ∧ t.cluster cl = { ({ s.cluster cl with late := decide (T < s.now) }.setS rd (BitVec.ofNat 64 (s.now - T))) with
            wait := .none, icount := (s.cluster cl).icount + 1 }
        ∧ (T = s.now → OnlyCluster cl [Reg.CL_STATUS cl.die cl.idx, Reg.CL_RETIRED cl.die cl.idx, Reg.CL_WAIT cl.die cl.idx] 0 s t))
  ∧ (∀ (s : State) (die : Nat) (part : Option Nat) (j num : Nat), s.barMembers die part j ≠ [] →
      (∀ c ∈ s.barMembers die part j, s.run c = 3 ∧ (s.cluster c).wait = .bar part.isSome num
        ∧ (s.pc c + 4) % 4 = 0 ∧ s.pc c + 4 < (s.cluster c).code.length ∧ (s.cluster c).code.length ≤ 65536) →
      ∃ t, exec (.barrierRelease die part j num) s = .next t ∧ t.mem = s.mem ∧ t.out = s.out
        ∧ ∀ c ∈ s.barMembers die part j, t.run c = 1 ∧ t.pc c = s.pc c + 4 ∧ (t.cluster c).wait = .none)

/-- HRDW_RECORD ORs the bits into HCON with PRESENT and the step they count towards, once the work before the HRDW is complete, the WGQ is empty and the
Relay has taken every push (R221 to R223); HRDW_OUTCOME_RETURN writes 1 for a commit and 0 for a skip to S[RD], and the cluster goes on (R225). -/
def Obligations.HurdleWord : Prop :=
  ∀ (s : State) (cl : ClusterId) (j : Nat), s.slotOfCl cl = some j →
    (∀ h : HrdwSt, (s.cluster cl).hrdw = some h →
      ((s.cluster cl).workDone h.ord = true → s.tiesDone cl j h.pstep = true → ∃ t, exec (.hrdwRecord cl) s = .next t
        ∧ (t.cluster cl).hrdw = none ∧ t.mem = s.mem
        ∧ (t.cluster cl).hcon = BitVec.ofNat 64 (place 63 63 1 ||| place 59 16 (s.step j + b2n (s.slot j).marked)
          ||| ((s.cluster cl).hcon.toNat % 4 ||| h.bits)))
      ∧ ((s.cluster cl).wgq ≠ [] ∨ (s.cluster cl).push ≠ [] → exec (.hrdwRecord cl) s = .next s))
    ∧ ∀ (rd : BitVec 5) (st : Nat), (s.cluster cl).wait = .hrdw rd.toNat st → s.run cl = 7 →
      (s.cluster cl).hrdw = none → (s.slot j).resolved = true → st < s.step j → s.slotState j = 2 →
      (s.pc cl + 4) % 4 = 0 → s.pc cl + 4 < (s.cluster cl).code.length → (s.cluster cl).code.length ≤ 65536 →
      ∃ t, exec (.hrdwOutcomeReturn cl) s = .next t ∧ t.run cl = 1 ∧ t.pc cl = s.pc cl + 4
        ∧ t.cluster cl = { (s.cluster cl).setS rd (if (s.slot j).outcome then 1 else 0) with
            wait := .none, icount := (s.cluster cl).icount + 1 }
        ∧ OnlyCluster cl [Reg.CL_STATUS cl.die cl.idx, Reg.CL_RETIRED cl.die cl.idx, Reg.CL_WAIT cl.die cl.idx] 0 s t

/-- EVT writes PROGRAM_EVENT (0x0C38) with its code, the value of S[RS1], the logical index and PC / 4; below JOB_FATAL a second one in a lap is dropped
and counted; at JOB_FATAL it stops the job (R227, R228, R51). -/
def Obligations.ProgramEvents : Prop :=
  ∀ (s : State) (cl : ClusterId) (f : FmtI) (j : Nat), s.slotOfCl cl = some j → f.rd = 0 → f.imm.toNat < 2 ^ 11 →
    let c := s.cluster cl
    let e : Ev := ⟨bits f.imm.toNat 10 8, 0x0C38, srcOf cl.die cl.idx, s.jobOf j, place 7 0 f.imm.toNat ||| place 71 8 (c.sn f.rs1)
      ||| place 78 72 (s.logical cl) ||| place 92 79 (s.pc cl / 4)⟩
    (s.ready cl (.evt cl f) = true → bits f.imm.toNat 10 8 < 3 → c.evtLap ≠ some s.now →
      exec (.evt cl f) s = .next (((s.setCluster cl { c with evtLap := some s.now }).emit e).retire cl (s.pc cl + 4)))
    ∧ (Fits s cl (.evt cl f) (s.pc cl + 4) → bits f.imm.toNat 10 8 < 3 → c.evtLap = some s.now → ∃ t, exec (.evt cl f) s = .next t
      ∧ Retired s t cl (s.pc cl + 4) ∧ t.ring = s.ring ∧ t.mem = s.mem
      ∧ t.rd (F.CL_SEQCNT_EVT_DROP cl.die cl.idx) = min (s.rd (F.CL_SEQCNT_EVT_DROP cl.die cl.idx) + 1) 65535)
    ∧ (s.ready cl (.evt cl f) = true → bits f.imm.toNat 10 8 = 3 → exec (.evt cl f) s = .next ((s.failJob j e).retire cl (s.pc cl + 4)))

/-- The word of an instruction and the instruction of a word agree, field by field (R180, R182, R250). An exception leaves its record in CDn_CL_FAULT and
CDn_CL_EXC (code 0x0C30, the cause, the instruction word and its PC), the sequencer is in FAULT with every queued operation abandoned, and
SEQ_EXCEPTION, a JOB_FATAL record, stops the job (R231 to R233). An illegal opcode, an undefined FN, a nonzero unused field, or a special register that
R174 does not name raises ILLEGAL, cause 16, at the instruction (R181); a misaligned scalar access raises ALIGN, cause 19, with its address (R187). A
target outside the image, or not a multiple of 4, raises FETCH at the target, after the jump has retired, and so does a PC where no instruction of the
image stands (R186; that the INSN of such a record is a free value is the model's: DEDUCED, notes/assumptions/84.md). -/
def Obligations.Exceptions : Prop :=
  (∀ (cl : ClusterId) (w : Nat) (i : Instr), w < 2 ^ 32 → insnOf cl w = some i → insnWord i = some w)
  ∧ (∀ (i : Instr) (w : Nat), insnWord i = some w → w < 2 ^ 32 ∧ ∃ cl, insnOf cl w = some i)
  ∧ (∀ (s : State) (cl : ClusterId) (word cause addr : Nat), cl.wf = true →
      ∃ u e, s.raise cl word cause addr = (match s.slotOfCl cl with | some j => State.failJob u j e | none => State.emit u e)
        ∧ e.sev = 3 ∧ e.code = 0x0C30 ∧ e.src = srcOf cl.die cl.idx
        ∧ e.payload = (place 7 0 cause ||| place 21 8 (s.pc cl / 4) ||| place 53 22 word ||| place 74 54 addr ||| place 81 75 (s.logical cl))
        ∧ u.rd (F.CL_FAULT_CODE cl.die cl.idx) = 0x0C30 ∧ u.rd (F.CL_FAULT_CAUSE cl.die cl.idx) = cause % 256
        ∧ u.rd (F.CL_EXC_INSN cl.die cl.idx) = word % 2 ^ 32 ∧ u.rd (F.CL_EXC_PC cl.die cl.idx) = s.pc cl ∧ u.run cl = 6
        ∧ (u.cluster cl).dqs = [] ∧ (u.cluster cl).arrQ = [] ∧ (u.cluster cl).readQ = [] ∧ (u.cluster cl).wgq = [] ∧ (u.cluster cl).vq = []
        ∧ (u.cluster cl).sregs = (s.cluster cl).sregs ∧ u.mem = s.mem ∧ u.ring = s.ring)
  ∧ (∀ (s : State) (cl : ClusterId),
      (∀ f : FmtR, s.ready cl (.alu cl f) = true → 18 ≤ f.fn.toNat → exec (.alu cl f) s = .next (s.raise cl (wordR 0x01 f) 16 0))
      ∧ (∀ f : FmtI, s.ready cl (.srd cl f) = true → 0x18 ≤ f.imm.toNat → exec (.srd cl f) s = .next (s.raise cl (wordI 0x28 f) 16 0))
      ∧ (∀ f : FmtI, s.ready cl (.shli cl f) = true → 64 ≤ f.imm.toNat → exec (.shli cl f) s = .next (s.raise cl (wordI 0x06 f) 16 0))
      ∧ (∀ f : FmtI, s.ready cl (.ld cl f) = true → memAddr (s.cluster cl) f.rs1 f.imm % 8 ≠ 0 →
        exec (.ld cl f) s = .next (s.raise cl (wordI 0x20 f) 19 (memAddr (s.cluster cl) f.rs1 f.imm)))
      ∧ ∀ (r : FmtR) (m : FmtI) (b : FmtB) (u : FmtU) (x : FmtS) (v : Fmt5), s.canIssue cl = true →
        ∀ i ∈ [Instr.alu cl r, .addi cl m, .beq cl b, .lui cl u, .st cl x, .mma cl v, .vfv cl v],
          (∀ w, s.fetched cl = some w → insnOf cl w = none → exec i s = .next (s.raise cl w 16 0))
          ∧ (s.fetched cl = none → exec i s = .next (s.raiseFetch cl (s.pc cl))))
  ∧ (∀ (s : State) (cl : ClusterId) (f : FmtU), s.ready cl (.jal cl f) = true →
      let target := ((s.pc cl : Int) + 4 * f.imm.toInt)
      0 ≤ target → target < 2 ^ 32 → (s.cluster cl).code.length ≤ target.toNat →
      ∃ u : State, exec (.jal cl f) s = .next (u.raise cl (s.freeNat 0 % 2 ^ 32) 17 target.toNat)
        ∧ u.pc cl = target.toNat ∧ (u.cluster cl).sreg f.rd = (if f.rd = 0 then 0 else BitVec.ofNat 64 (s.pc cl + 4)))

/-- VFV, VFS, VFU and VSFU under a float type: each element below VL takes the operation on the values, rounded once, its flags are sticky, and elements
from VL on stay (R248, R252 to R255, R260, R265). VIV and VIS under an integer type, and VCMPV and VCMPS under any: element by element, a comparison
giving all ones or zero; no flag is set (R256, R257). One that finds the vector queue full waits at issue (R176, R178; when an instruction of an empty
queue leaves it is the model's: DESIGN CHOICE, notes/assumptions/12.md). -/
def Obligations.VectorElements : Prop :=
  (∀ (s : State) (cl : ClusterId) (f : Fmt5), (s.cluster cl).kind = 0 → f.f9 = 0 → f.f4.toNat < 6 →
      let c := s.cluster cl
      let a := vElems (c.vreg f.f19) c.sew c.vl
      (VFits s cl (.vfv cl f) → ∃ t, exec (.vfv cl f) s = .next t
        ∧ VTaken s t cl (c.putFloats f.f24 (floatMap c f.f4.toNat a (vElems (c.vreg f.f14) c.sew c.vl))) false)
      ∧ (VFits s cl (.vfs cl f) → ∃ t, exec (.vfs cl f) s = .next t
        ∧ VTaken s t cl (c.putFloats f.f24 (floatMap c f.f4.toNat a (List.replicate c.vl (c.sn f.f14 % 2 ^ c.sew)))) false)
      ∧ (f.f14 = 0 → (VFits s cl (.vfu cl f) → ∃ t, exec (.vfu cl f) s = .next t ∧ VTaken s t cl
          { c.setV f.f24 (vPut (c.vreg f.f24) c.sew (a.map (fun e => (floatUn c f.f4.toNat e).1))) with
            vflags := c.vflags ||| orFlags (a.map (fun e => (floatUn c f.f4.toNat e).2)) } false)
        ∧ (VFits s cl (.vsfu cl f) → ∃ t, exec (.vsfu cl f) s = .next t ∧ VTaken s t cl (c.putFloats f.f24 (a.map (fun e =>
            (sfu c.ffmt f.f4.toNat (c.fval e), elemFlags [c.fval e] (sfu c.ffmt f.f4.toNat (c.fval e)) (sfuDz f.f4.toNat (c.fval e)))))) false)))
  ∧ (∀ (s : State) (cl : ClusterId) (f : Fmt5), f.f9 = 0 →
      let c := s.cluster cl
      let a := vElems (c.vreg f.f19) c.sew c.vl
      let b := vElems (c.vreg f.f14) c.sew c.vl
      let x := List.replicate c.vl (c.sn f.f14 % 2 ^ c.sew)
      let put (es : List Nat) : ClusterSt := c.setV f.f24 (vPut (c.vreg f.f24) c.sew es)
      let int (bs : List Nat) : List Nat := (a.zip bs).map (fun p => (intBin c.sew (c.kind == 1) f.f4.toNat p.1 p.2).getD 0)
      let cmp (bs : List Nat) : List Nat := (a.zip bs).map (fun p => if cmpHolds c f.f4.toNat p.1 p.2 then 2 ^ c.sew - 1 else 0)
      (c.kind ≠ 0 → f.f4.toNat < 10 → (VFits s cl (.viv cl f) → ∃ t, exec (.viv cl f) s = .next t ∧ VTaken s t cl (put (int b)) false)
        ∧ (VFits s cl (.vis cl f) → ∃ t, exec (.vis cl f) s = .next t ∧ VTaken s t cl (put (int x)) false))
      ∧ (f.f4.toNat < 6 → (VFits s cl (.vcmpv cl f) → ∃ t, exec (.vcmpv cl f) s = .next t ∧ VTaken s t cl (put (cmp b)) false)
        ∧ (VFits s cl (.vcmps cl f) → ∃ t, exec (.vcmps cl f) s = .next t ∧ VTaken s t cl (put (cmp x)) false))
      ∧ (f.f4.toNat < 6 → 16 ≤ c.vq.length → ∀ i ∈ [Instr.vcmpv cl f, .vcmps cl f], s.ready cl i = true → ∃ t, exec i s = .next t
        ∧ t.rd (F.CL_WAIT_KIND cl.die cl.idx) = 5 ∧ t.rd (F.CL_WAIT_WHICH cl.die cl.idx) = 5 ∧ OnlyRegs [Reg.CL_WAIT cl.die cl.idx] s t))

/-- VSEL takes VS2 where VS1 is nonzero, else VS3; VRED writes element 0 alone; VDERIV, VSR and VXCVT write float elements with their flags; and VMV moves
between S and V registers, RDFL reading and clearing VFLAGS (R258, R259, R261 to R264, R266, R274). -/
def Obligations.VectorOther : Prop :=
  ∀ (s : State) (cl : ClusterId) (f : Fmt5),
    let c := s.cluster cl
    let e (r : BitVec 5) : List Nat := vElems (c.vreg r) c.sew c.vl
    let put (es : List Nat) : ClusterSt := c.setV f.f24 (vPut (c.vreg f.f24) c.sew es)
    let gives (i : Instr) (r : ClusterSt) : Prop := VFits s cl i → ∃ t, exec i s = .next t ∧ VTaken s t cl r false
    (f.f4 = 0 → gives (.vsel cl f) (put (((e f.f19).zip ((e f.f14).zip (e f.f9))).map (fun p => if p.1 ≠ 0 then p.2.1 else p.2.2))))
    ∧ (f.f4.toNat < 4 → f.f9 = 0 → f.f14 = 0 →
      (c.vl = 0 → (c.kind = 0 ∨ f.f4.toNat ≠ 3) → gives (.vred cl f) c)
      ∧ (c.vl ≠ 0 → c.kind ≠ 0 → f.f4.toNat ≠ 3 → gives (.vred cl f) (put [intRed c.sew (c.kind == 1) f.f4.toNat (e f.f19)]))
      ∧ (c.vl ≠ 0 → c.kind = 0 →
        let r := floatRed c.ffmt f.f4.toNat ((e f.f19).map c.fval)
        gives (.vred cl f) { put [encodeIeee c.ffmt r] with vflags := c.vflags ||| elemFlags ((e f.f19).map c.fval) r false }))
    ∧ (f.f4.toNat < 6 → c.kind = 0 → (f.f4.toNat ≠ 5 → f.f14 = 0) → (f.f4.toNat ≠ 1 → f.f4.toNat ≠ 5 → f.f9 = 0) →
      let x := c.fval (c.scalar f.f9)
      gives (.vderiv cl f) (c.putFloats f.f24 (((e f.f19).zip (e f.f14)).map (fun p =>
        (deriv c.ffmt f.f4.toNat (c.fval p.1) (c.fval p.2) x,
          elemFlags ([c.fval p.1] ++ (if f.f4.toNat = 5 then [c.fval p.2] else []) ++ (if f.f4.toNat = 1 ∨ f.f4.toNat = 5 then [x] else []))
            (deriv c.ffmt f.f4.toNat (c.fval p.1) (c.fval p.2) x) false)))))
    ∧ (∀ y g x : Fp, deriv c.ffmt 2 y g x = fpRound c.ffmt (fpMul y (fpAdd fpOne (fpNeg y)))
      ∧ deriv c.ffmt 3 y g x = fpRound c.ffmt (fpAdd fpOne (fpNeg (fpMul y y))) ∧ deriv c.ffmt 4 y g x = y
      ∧ deriv c.ffmt 5 y g x = fpRound c.ffmt (fpMul y (fpAdd g (fpNeg x))))
    ∧ (c.kind = 0 → c.sew = 32 →
      (∀ p ∈ [(1, 0), (2, 64)], f.f4.toNat = p.1 → f.f9 = 0 → f.f14 = 0 → gives (.vxcvt cl f) (c.putFloats f.f24 ((List.range c.vl).map (fun i =>
        let v := decodeElem 1 (vElem (c.vreg f.f19) 16 (p.2 + i))
        (fpRound fmtFp32 v, elemFlags [v] v false)))))
      ∧ (f.f4 = 0 → f.f9 = 0 → f.f14 = 0 →
        let rs := (e f.f19).map (fun v => toBf16 (fp32 (BitVec.ofNat 32 v)))
        gives (.vxcvt cl f) { c.setV f.f24 (vPut (c.vreg f.f24) 16 rs) with
          vflags := c.vflags ||| orFlags (((e f.f19).zip rs).map (fun p => elemFlags [decodeElem 0 p.1] (decodeElem 1 p.2) false)) })
      ∧ (bits (c.sn f.f9) 43 32 = 0 → bits (c.sn f.f4) 63 29 = 0 → bits (c.sn f.f4) 15 13 = 0 →
        (c.vl = 0 → gives (.vsr cl f) c)
        ∧ (c.vl ≠ 0 → bits (c.sn f.f4) 12 0 + c.vl ≤ 8192 → gives (.vsr cl f) (c.putFloats f.f24
          ((((vElems (c.vreg f.f19) 32 c.vl).zip (vElems (c.vreg f.f14) 32 c.vl)).zipIdx).map (fun p =>
            let r := vsrElem (s.seed ((s.slotOfCl cl).getD 0)) c.pstep (bits (c.sn f.f9) 63 44) (bits (c.sn f.f9) 31 0) (bits (c.sn f.f4) 28 16)
              (bits (c.sn f.f4) 12 0 + p.2) (c.fval p.1.1) (c.fval p.1.2)
            (r, elemFlags [c.fval p.1.1, c.fval p.1.2] r false)))))))
    ∧ (f.f9 = 0 →
      (f.f4 = 0 → c.sn f.f14 < 256 / 2 ^ (c.vtype % 4) →
        gives (.vmv cl f) (c.setS f.f24 (BitVec.ofNat 64 (vElem (c.vreg f.f19) c.sew (c.sn f.f14)))))
      ∧ (f.f4 = 1 → f.f19 = 0 → gives (.vmv cl f) (put (List.replicate c.vl (c.sn f.f14 % 2 ^ c.sew))))
      ∧ (f.f4 = 2 → f.f14 = 0 → gives (.vmv cl f) (put (e f.f19)))
      ∧ (f.f4 = 3 → f.f14 = 0 → f.f19 = 0 → gives (.vmv cl f) (put (List.range c.vl)))
      ∧ (f.f4 = 4 → f.f14 = 0 → f.f19 = 0 → gives (.vmv cl f) ({ c with vflags := 0 }.setS f.f24 (BitVec.ofNat 64 c.vflags))))

/-- Vector loads and stores move VL elements between a V register and the tile store, contiguous, strided or broadcast, where every element is aligned, in
range and not interlocked; a GUARD store of finite values stores them, and of any other raises GUARD at the first and stores nothing (R267 to R269). -/
def Obligations.VectorMemory : Prop :=
  ∀ (s : State) (cl : ClusterId) (f : Fmt5), f.f9 = 0 →
    let c := s.cluster cl
    let es := c.sew / 8
    let vals := vElems (c.vreg f.f24) c.sew c.vl
    let fits (as : List Nat) (write : Bool) : Prop :=
      ∀ a ∈ as, a % es = 0 ∧ a + es ≤ tileSize ∧ s.interlocked cl a es write = false
    let load (as : List Nat) : ClusterSt := c.setV f.f24 (vPut (c.vreg f.f24) c.sew (as.map (fun a => c.tnat a es)))
    let store (as : List Nat) : ClusterSt := storeElems es c (as.zip vals)
    let seq := elemAddrs c.vl (c.sn f.f19) (es : Int)
    let str := elemAddrs c.vl (c.sn f.f19) (c.sreg f.f14).toInt
    let one := elemAddrs c.vl (c.sn f.f19) 0
    let gives (i : Instr) (r : ClusterSt) : Prop := VFits s cl i → ∃ t, exec i s = .next t ∧ VTaken s t cl r true
    let may : Prop := f.f4 = 0 ∨ (f.f4 = 1 ∧ c.kind = 0 ∧ ∀ v ∈ vals, fpNonfinite (decodeElem c.fcode v) = false)
    (f.f4 = 0 → f.f14 = 0 → fits seq false → gives (.vld cl f) (load seq))
    ∧ (f.f4 = 0 → fits str false → gives (.vlds cl f) (load str))
    ∧ (f.f4 = 0 → f.f14 = 0 → fits one false → gives (.vldb cl f) (load one))
    ∧ (may → f.f14 = 0 → fits seq true → gives (.vst cl f) (store seq))
    ∧ (may → fits str true → gives (.vsts cl f) (store str))
    ∧ (f.f4 = 1 → c.kind = 0 → ∀ p, (seq.zip vals).find? (fun x => fpNonfinite (decodeElem c.fcode x.2)) = some p → f.f14 = 0 → fits seq true →
      s.ready cl (.vst cl f) = true → exec (.vst cl f) s = .next (s.raise cl (word5 0x44 f) 30 p.1))

/-- SETVL takes VTYPE from IMM and sets VL, and S[RD], to the smaller of S[RS1] and VLMAX (R244, R246). VPUTS and VGETS move 64 FP32 elements between a V
register and half a row of an accumulator slot that no merge or readout is due on (R276, R277). A VCVT of FP32 elements to BF16 writes each rounded
value in the tile store, at once where nothing holds it; one of no elements casts nothing (R270 to R273). -/
def Obligations.VectorState : Prop :=
  (∀ (s : State) (cl : ClusterId) (f : FmtI), Fits s cl (.setvl cl f) (s.pc cl + 4) → f.imm.toNat < 16 → f.imm.toNat % 4 ≠ 3 →
      f.imm.toNat / 4 ≠ 3 → f.imm ≠ 0 →
      let vl := min ((s.cluster cl).sn f.rs1) (256 / 2 ^ (f.imm.toNat % 4))
      ∃ t, exec (.setvl cl f) s = .next t
        ∧ Steps s t cl ({ s.cluster cl with vl := vl, vtype := f.imm.toNat }.setS f.rd (BitVec.ofNat 64 vl)) (s.pc cl + 4))
  ∧ (∀ (s : State) (cl : ClusterId) (f : Fmt5), cl.wf = true → f.f9 = 0 →
      let c := s.cluster cl
      let k := f.f24.toNat
      (f.f4 = 0 → k < 16 → c.sn f.f14 < 128 → c.kind = 0 → c.sew = 32 → c.vl = 64 → s.slotCode cl k ≠ 3 → c.openSlot ≠ some k → c.wgqHas k = false →
        c.mergePending k c.icount = false → (∀ r ∈ c.readQ, r.slot ≠ k) →
        (VFits s cl (.vgets cl f) → ∃ t, exec (.vgets cl f) s = .next t ∧ VTaken s t cl (c.setV f.f19 (vPut (c.vreg f.f19) 32 ((List.range 64).map
          (fun i => (sget (fun _ => 0) (c.aslot k).vals (128 * (c.sn f.f14 % 64) + 64 * (c.sn f.f14 / 64 % 2) + i)).toNat)))) false)
        ∧ (VFits s cl (.vputs cl f) → ∃ t, exec (.vputs cl f) s = .next t ∧ t.pc cl = s.pc cl + 4 ∧ t.mem = s.mem
          ∧ ((t.cluster cl).aslot k).merges = (c.aslot k).merges ∧ (t.cluster cl).vregs = c.vregs
          ∧ (∀ i, i < 8192 → sget (fun _ => 0) ((t.cluster cl).aslot k).vals i =
            (let b := 128 * (c.sn f.f14 % 64) + 64 * (c.sn f.f14 / 64 % 2)
            if b ≤ i ∧ i < b + 64 then BitVec.ofNat 32 (vElem (c.vreg f.f19) 32 (i - b)) else sget (fun _ => 0) (c.aslot k).vals i))
          ∧ t.slotCode cl k = (if s.slotCode cl k = 0 then 1 else s.slotCode cl k)))
      ∧ (f.f4 = 0 → c.kind = 0 → c.vl = 0 → s.castTarget ((s.slotOfCl cl).getD 0) false (bits (c.sn f.f14) 15 0) = none →
        VFits s cl (.vcvt cl f) → ∃ t, exec (.vcvt cl f) s = .next t ∧ VTaken s t cl c false)
      ∧ ∀ j tg, s.slotOfCl cl = some j → f.f4.toNat < 2 →
        s.castTarget j (f.f4 = 1) (if f.f4 = 1 then bits (c.sn f.f14) 3 0 else bits (c.sn f.f14) 15 0) = some tg → tg.fmt = 1 → tg.twin = false →
        c.kind = 0 → c.sew = 32 → 0 < c.vl → bits (c.sn f.f19) 52 32 = 0 → bits (c.sn f.f19) 20 0 % 2 = 0 →
        bits (c.sn f.f19) 20 0 + 2 * c.vl ≤ tileSize → c.wgq = [] → c.castQ = [] → c.vq = [] → c.readQ = [] → s.castWaits j c.pstep tg = false →
        VFits s cl (.vcvt cl f) → ∃ t, exec (.vcvt cl f) s = .next t ∧ t.pc cl = s.pc cl + 4 ∧ (t.cluster cl).castQ = []
          ∧ (t.cluster cl).vregs = c.vregs ∧ (t.cluster cl).tile = (c.setT (bits (c.sn f.f19) 20 0) ((vElems (c.vreg f.f24) c.sew c.vl).flatMap (fun e =>
            leBytes 2 (castBf16 (s.castMult j tg) (c.fval e)).1))).tile)

/-- MCFG sets the array's configuration and takes its place behind the products of the array queue; MLDA and MLDB put the record at S[RS1] behind the
load queue; MMA and MACC put a product of S[RS1] K-steps behind the array queue, MMA closing the accumulation of its slot and MACC leaving it open; a
deferred MMA enters the WGQ (R178, R189 to R194, R282, R283). MDRN, MTIE and RPUSH enter the readout queue with their slot, REL and what S[RS1] and
S[RS2] held, and the sequencer goes on; the tile store is written only when the readout ends (R176, R198, R201, R203). -/
def Obligations.MatrixIssues : Prop :=
  (∀ (s : State) (cl : ClusterId) (f : Fmt5),
      let c := s.cluster cl
      let a := c.sn f.f19
      let b := c.sn f.f14
      let k := f.f24.toNat
      let fits (i : Instr) : Prop := Fits s cl i (s.pc cl + 4)
      (fits (.mcfg cl f) → f.f24 = 0 → f.f9 = 0 → f.f4 = 0 → bits a 47 0 = 0 → bits b 43 32 = 0 → family (bits a 63 60) ≠ 0 →
        family (bits a 63 60) = family (bits a 59 56) → 1 ≤ bits a 55 48 → bits a 55 48 ≤ 128 → c.openSlot = none → c.arrQ.length < 8 →
        let g : MCfg := ⟨bits a 63 60, bits a 59 56, bits a 55 48, bits b 63 44, bits b 31 0⟩
        ∃ t, exec (.mcfg cl f) s = .next t ∧ Steps s t cl
          { c with cfg := some g, arrQ := passMcfg (c.arrQ ++ [mcfgEnt g c.icount c.pstep]) } (s.pc cl + 4))
      ∧ ∀ g, c.cfg = some g →
        (f.f24 = 0 → f.f14 = 0 → f.f9 = 0 → f.f4.toNat < 2 → a % 64 = 0 → c.loadQ.length < 8 →
          ∀ p ∈ [(Instr.mlda cl f, false, g.fmtA), (Instr.mldb cl f, true, g.fmtB)], fits p.1 →
            let n := recBytes p.2.2 p.2.1
            a + n ≤ tileSize → s.interlocked cl a n false = false → ∃ t, exec p.1 s = .next t ∧ Steps s t cl
              (fillBufs c (c.loadQ ++ [⟨p.2.1, p.2.2, bit f.f4.toNat 0, c.tbytes a n, c.icount⟩])) (s.pc cl + 4))
        ∧ (k < 16 → 1 ≤ a → a ≤ 65535 → s.slotCode cl k ≠ 3 → (c.openSlot = none ∨ c.openSlot = some k) →
          (f.f14 = 0 → f.f9 = 0 → f.f4 = 0 → c.wgqHas k = false → c.arrQ.length < 8 →
            ∀ p ∈ [(Instr.mma cl f, true), (Instr.macc cl f, false)], fits p.1 → ∃ t, exec p.1 s = .next t ∧ Steps s t cl { c with
              arrQ := c.arrQ ++ [⟨k, a, 0, p.2, g, c.icount, c.pstep, 0, 0, false, false, 0⟩]
              openSlot := if p.2 then none else some k } (s.pc cl + 4))
          ∧ (fits (.mma cl f) → f.f4.toNat < 8 → bit f.f4.toNat 0 = true → b % 64 = 0 → c.sn f.f9 % 64 = 0 → panelOver g a b (c.sn f.f9) = none →
            c.wgq.length < 64 → ∃ t, exec (.mma cl f) s = .next t ∧ t.pc cl = s.pc cl + 4 ∧ t.mem = s.mem
              ∧ t.rd (F.CL_WGQ_ENTRIES cl.die cl.idx) = c.wgq.length + 1
              ∧ t.cluster cl = { c with icount := c.icount + 1, wgq := c.wgq ++
                [⟨k, a, 0, true, g, c.icount, c.pstep, b, c.sn f.f9, bit f.f4.toNat 1, bit f.f4.toNat 2, 1⟩] })))
  ∧ (∀ (s : State) (cl : ClusterId) (f : Fmt5),
      let c := s.cluster cl
      let k := f.f24.toNat
      let a := c.sn f.f19
      let b := c.sn f.f14
      let x := bit f.f4.toNat 1
      let fits (i : Instr) : Prop := Fits s cl i (s.pc cl + 4)
      let enters (t : State) (r : ReadEnt) : Prop := t.pc cl = s.pc cl + 4 ∧ (t.cluster cl).readQ = c.readQ ++ [r]
        ∧ (t.cluster cl).tile = c.tile ∧ t.mem = s.mem ∧ t.out = s.out ∧ SameClusters cl s t
      k < 16 → f.f9 = 0 → c.readQ.length < 8 →
      (∀ t, s.castTarget ((s.slotOfCl cl).getD 0) x (if x then bits b 3 0 else bits b 15 0) = some t → f.f4.toNat < 8 → t.fmt < 7 →
        (t.twin = true → 2 ≤ t.fmt) → bits a 20 0 % 64 = 0 → (t.twin = true → bits a 52 32 % 64 = 0) →
        bits a 20 0 + drainBytes t.fmt ≤ tileSize → (t.twin = true → bits a 52 32 + drainBytes t.fmt ≤ tileSize) →
        s.slotBarred cl c k = false → fits (.mdrn cl f) → ∃ u, exec (.mdrn cl f) s = .next u ∧ enters u
          ⟨0, k, bit f.f4.toNat 0, c.sreg f.f19, c.sreg f.f14, x, bit f.f4.toNat 2, c.icount, c.pstep, false, 0⟩)
      ∧ (f.f14 = 0 → f.f4.toNat < 2 → c.openSlot ≠ some k → c.wgqHas k = false →
        (s.tieGroup ((s.slotOfCl cl).getD 0) (bits a 2 0) (bits a 13 8)).isSome = true → fits (.mtie cl f) →
        ∃ u, exec (.mtie cl f) s = .next u ∧ enters u ⟨1, k, bit f.f4.toNat 0, c.sreg f.f19, 0, false, false, c.icount, c.pstep, false, 0⟩)
      ∧ (f.f14 = 0 → f.f4.toNat < 2 → s.slotBarred cl c k = false → fits (.rpush cl f) → ∃ u, exec (.rpush cl f) s = .next u ∧ enters u
          ⟨2, k, bit f.f4.toNat 0, c.sreg f.f19, 0, false, false, c.icount, c.pstep, false, 0⟩))

/-- A K-step adds one K-step's exact products to the chunk accumulators and takes one record from each operand buffer, or, for a running deferred
product, reads its own panels; both operands have the formats of the product's own MCFG (R85), which for a record loaded under another MCFG is the
model's choice (DESIGN CHOICE, notes/assumptions/101.md), as is the step that keys a chunk of several instructions (100.md); the chunk ends at its length or with the last K-step of an MMA, and goes to the merge latches if these are free (R86,
R97, R98, R105, R193, R195). A merge adds the chunk to its slot element by element with stochastic rounding, counts one merge in the slot, and frees the
merge latches or takes the chunk that waited (R101, R105, R156); a deferred product starts when the array is idle (R284); an RPUSH copies its slot into
the push buffer, and nothing else differs (R112). -/
def Obligations.ArrayMoves : Prop :=
  (∀ (s : State) (cl : ClusterId) (j : Nat) (e : ArrEnt), s.slotOfCl cl = some j → s.rotHeld cl = false → (s.cluster cl).chunkEnded = false →
      let c := s.cluster cl
      (∀ (a b : OpRec) (es : List ArrEnt) (as bs : List OpRec), c.wgq = [] → c.arrQ = e :: es → c.aBuf = a :: as → c.bBuf = b :: bs →
        ∃ t, exec (.kStep cl) s = .next t ∧ t.mem = s.mem ∧ SameClusters cl s t
          ∧ t.rd (F.CL_BUSY_BUSY cl.die cl.idx) = (s.rd (F.CL_BUSY_BUSY cl.die cl.idx) + kCycles e.cfg.fmtA) % 2 ^ 64
          ∧ (t.cluster cl).arrQ = (if e.done + 1 = e.ksteps then passMcfg es else { e with done := e.done + 1 } :: es)
          ∧ (c.chunkK + 1 ≠ e.cfg.chunk → e.done + 1 ≠ e.ksteps → (t.cluster cl).acc = kStepAcc c.acc (s.operand e.cfg.fmtA a) (s.operand e.cfg.fmtB b)
            ∧ (t.cluster cl).chunkK = c.chunkK + 1 ∧ (t.cluster cl).latch = c.latch)
          ∧ ((c.chunkK + 1 = e.cfg.chunk ∨ (e.ends = true ∧ e.done + 1 = e.ksteps)) → c.latch = none →
            (t.cluster cl).latch = some ⟨e.slot, e.cfg, e.pstep, e.ord⟩ ∧ (t.cluster cl).latchVals = kStepAcc c.acc (s.operand e.cfg.fmtA a) (s.operand e.cfg.fmtB b)
              ∧ (t.cluster cl).acc = [] ∧ (t.cluster cl).chunkK = 0))
      ∧ ∀ es, c.wgq = e :: es → e.wstate = 2 → (c.chunk.isSome = true ∨ c.drainPrio = true ∨ c.arrayFree = true) →
        let na := recBytes e.cfg.fmtA false
        let nb := recBytes e.cfg.fmtB true
        let pa := e.aBase + na * e.done
        let pb := e.bBase + nb * e.done
        s.drainBefore cl j e.ord [(pa, na), (pb, nb)] = false → c.chunkK + 1 ≠ e.cfg.chunk → e.done + 1 ≠ e.ksteps →
        ∃ t, exec (.kStep cl) s = .next t ∧ t.mem = s.mem ∧ SameClusters cl s t ∧ (t.cluster cl).wgq = { e with done := e.done + 1 } :: es
          ∧ (t.cluster cl).acc = kStepAcc c.acc ⟨false, e.cfg.fmtA, e.aTrans, c.tbytes pa na, e.ord⟩ ⟨true, e.cfg.fmtB, e.bTrans, c.tbytes pb nb, e.ord⟩
          ∧ (t.cluster cl).chunkK = c.chunkK + 1 ∧ (t.cluster cl).tile = c.tile ∧ (t.cluster cl).aBuf = c.aBuf ∧ (t.cluster cl).bBuf = c.bBuf)
  ∧ (∀ (s : State) (cl : ClusterId) (j : Nat), s.slotOfCl cl = some j →
      let c := s.cluster cl
      (∀ k, c.latch = some k → (∀ r ∈ c.readQ, r.slot = k.slot → k.ord ≤ r.ord) →
        ∃ t, exec (.mergeDone cl) s = .next t
          ∧ (c.chunkEnded = false → (t.cluster cl).latch = none)
          ∧ (c.chunkEnded = true → (t.cluster cl).latch = c.chunk ∧ (t.cluster cl).latchVals = c.acc ∧ (t.cluster cl).chunkEnded = false)
          ∧ ((t.cluster cl).aslot k.slot).merges = (c.aslot k.slot).merges + 1
          ∧ (∀ e, e < 8192 → sget (fun _ => 0) ((t.cluster cl).aslot k.slot).vals e = mergeElem (s.seed j) k ((c.aslot k.slot).merges % 8192) e
              (sget (fun _ => 0) (c.aslot k.slot).vals e) (sget (fun _ => .fin false 0 0) c.latchVals e)))
      ∧ (∀ e es, c.wgq = e :: es → (e.wstate = 1 ∨ e.wstate = 3) → s.rotHeld cl = false → c.chunk = none → c.chunkEnded = false →
        c.arrOpen = false → c.arrQ = [] → (c.drainPrio = true ∨ (c.loadQ = [] ∧ c.aBuf = [] ∧ c.bBuf = [] ∧ c.openSlot = none)) →
        ∃ t, exec (.wgqRun cl) s = .next t ∧ t.mem = s.mem
          ∧ t.cluster cl = { c with wgq := { e with wstate := 2 } :: es } ∧ t.rd (F.CL_WGQ_HEAD cl.die cl.idx) = 2)
      ∧ (∀ r rs, c.readQ = r :: rs → r.kind = 2 → r.done = false → c.push.length < 2 → c.mergePending r.slot r.ord = false →
        ∃ t, exec (.pushBufferEnter cl) s = .next t ∧ { t with clusters := s.clusters } = s ∧ SameClusters cl s t
          ∧ t.cluster cl = { c with readQ := { r with done := true } :: rs, push := c.push ++
            [⟨(c.aslot r.slot).vals, bits r.a.toNat 63 44, bits r.a.toNat 31 0, r.pstep, false⟩] }))

/-- At the end of a readout an MDRN's copies stand in the tile store, with REL the slot is FREE and holds no tile, and a waiting cast behind it proceeds;
the readout of an RPUSH or an MTIE ends once its tile has been taken (R109, R111, R112, R199). A SEED cast that its resolve lap releases writes as the
cast unit does then (R145). The home applies the uses of a tied tile in order: each adds the sender's slot to the tie slot, and the last one pushes the
sum and returns the tie slot to +0 (R201, R202, R321). That a TIE slot stays TIE at the end of a readout is the model's (DESIGN CHOICE,
notes/assumptions/99.md). -/
def Obligations.ReadoutsEnd : Prop :=
  (∀ (s : State) (cl : ClusterId) (j : Nat), s.slotOfCl cl = some j →
      let c := s.cluster cl
      let released (t : State) (r : ReadEnt) : Prop := (cl.wf = true → t.slotCode cl r.slot = if s.slotCode cl r.slot = 3 then 3 else if r.rel then 0 else 1)
        ∧ (t.cluster cl).aslot r.slot = if r.rel then (⟨[], 0, 0⟩ : AccSlot) else c.aslot r.slot
      (∀ r, c.readQ = [r] → r.slot < 16 → c.castQ = [] → c.mergePending r.slot r.ord = false →
        (∀ tg, r.kind = 0 → c.wgq = [] → s.castTarget j r.x (if r.x then bits r.b.toNat 3 0 else bits r.b.toNat 15 0) = some tg →
          s.castWaits j r.pstep tg = false → ∃ t, exec (.readoutEnd cl) s = .next t ∧ (t.cluster cl).readQ = [] ∧ released t r
            ∧ (let row := c.setT (bits r.a.toNat 20 0) (drainRow (c.aslot r.slot).vals tg.fmt (s.castMult j tg) r.t).1
              (t.cluster cl).tile = if tg.twin then
                (row.setT (bits r.a.toNat 52 32) (drainCol (c.aslot r.slot).vals tg.fmt (s.castMult j tg) r.t).1).tile else row.tile))
        ∧ (r.kind ≠ 0 → r.done = true → ∃ t, exec (.readoutEnd cl) s = .next t ∧ (t.cluster cl).readQ = [] ∧ released t r
          ∧ (t.cluster cl).tile = c.tile ∧ t.mem = s.mem)
        ∧ (r.kind ≠ 0 → r.done = false → exec (.readoutEnd cl) s = .next s))
      ∧ ∀ q, c.castQ = [q] → s.castReady cl j q = true → ∃ t, exec (.seedCastRelease cl) s = .next t ∧ (t.cluster cl).castQ = []
          ∧ (t.cluster cl).tile = ((s.castVec cl j q).cluster cl).tile)
  ∧ (∀ (s : State) (cl home : ClusterId) (j k : Nat) (r : ReadEnt) (rs : List ReadEnt) (g : TieGroup) (p : Program),
      let c := s.cluster cl
      let use := bits r.a.toNat 13 8
      let src := c.aslot r.slot
      s.slotOfCl cl = some j → c.readQ = r :: rs → r.kind = 1 → r.done = false → c.mergePending r.slot r.ord = false →
      (s.slot j).prog = some p → s.tieGroup j (bits r.a.toNat 2 0) use = some g → s.tiePlace j p.ties g src.tile = some (home, k) →
      src.tile < g.tiles → (s.tie j g.group src.tile).uses = use → r.pstep = (s.slot j).startStep + (s.tie j g.group src.tile).steps →
      (s.cluster home).push.length < 2 →
      let sum := addTiles ((s.cluster home).aslot k).vals src.vals
      ∃ t, exec (.tieUseApply cl) s = .next t ∧ t.mem = s.mem ∧ { t with clusters := s.clusters, ties := s.ties } = s
        ∧ (use + 1 ≠ g.uses → ((t.cluster home).aslot k).vals = sum ∧ (t.cluster home).push = (s.cluster home).push
          ∧ t.tie j g.group src.tile = ⟨use + 1, (s.tie j g.group src.tile).steps⟩)
        ∧ (use + 1 = g.uses → ((t.cluster home).aslot k).vals = []
          ∧ (t.cluster home).push = (s.cluster home).push ++ [⟨sum, g.sum, src.tile, r.pstep, true⟩]
          ∧ t.tie j g.group src.tile = ⟨0, (s.tie j g.group src.tile).steps + 1⟩))

/-- A DQ of a plain region, of one row or several, gives its number to S[RD] and is outstanding (R204, R205, R213); when it completes, a read has put the
region's bytes into the tile store in order, and it is no longer outstanding (R205, R206, R214). -/
def Obligations.DmaMoves : Prop :=
  ∀ (s : State) (cl : ClusterId) (j : Nat), s.slotOfCl cl = some j →
    let c := s.cluster cl
    (∀ (f : Fmt5) (x : DmaDesc), Fits s cl (.dq cl f) (s.pc cl + 4) →
      let r1 := c.sn f.f19
      let r2 := c.sn f.f14
      let r3 := c.sn f.f9
      let wr := bit f.f4.toNat 0
      let two := bit f.f4.toNat 2
      let len := bits r2 62 42
      let rows := if two then bits r3 43 32 + 1 else 1
      let stride := if two then bits r3 20 0 else 0
      let d : DqEnt := ⟨c.dqseq + 1, bits r1 63 48, wr, false, bits r1 20 0, len, bits r2 20 0, rows, stride, 0, bits r3 61 58, bits r3 57 51,
        bits r3 50 44, 0, false, none, false, false, c.pstep⟩
      s.descOf j (bits r1 63 48) = some x → f.f4.toNat < 8 → bit f.f4.toNat 1 = false → bits r3 63 62 = 0 → bits r3 31 21 = 0 →
      bits r1 47 21 = 0 → bits r2 41 21 = 0 →
      x.epoched = false → x.stash = none → (if wr then bit x.flags 1 else bit x.flags 0) = true →
      bits r2 20 0 + (rows - 1) * stride + len ≤ x.length → stride % 64 = 0 →
      bits r1 20 0 % 64 = 0 → len % 64 = 0 → len ≠ 0 → bits r2 20 0 % 64 = 0 → bits r1 20 0 + rows * len ≤ tileSize → c.dqs.length < 16 →
      ∃ t, exec (.dq cl f) s = .next t ∧ Steps s t cl ({ c with dqseq := c.dqseq + 1, dqs := c.dqs ++ [d] }.setS
          f.f24 (BitVec.ofNat 64 (c.dqseq + 1))) (s.pc cl + 4))
    ∧ ∀ (d : DqEnt) (x : DmaDesc), c.dqs.find? (fun y => y.seq == d.seq) = some d → s.descOf j d.desc = some x → s.stopped = false →
      d.waitsEpoch = false → d.held = none → d.mc = 0 → x.stash = none →
      (∀ k ∈ dqPages x d, ∃ fr, (dqFrames x d.e)[k]? = some (some fr)) →
      let ls := s.dqLines cl.die j x d
      HomeServes s ls →
      ∃ t, exec (.dqComplete cl d.seq) s = .next t ∧ (∀ y ∈ (t.cluster cl).dqs, y.seq ≠ d.seq)
        ∧ (d.write = false → (t.cluster cl).tile
          = (c.setT d.ts ((State.dqTouch (s.accessNow ls []) cl.die j x d).dqBytes cl.die j x d)).tile)
        ∧ (d.write = true → (t.cluster cl).tile = c.tile)

/-- A cluster with an uncorrectable error reads FAILED with LOGICAL 127, and a corrected one is only counted (R91, R116); at the commit lap of a rotation
the outgoing cluster is held where its pre-copy is complete (a free value), and the rotation is declined otherwise; after the hold, once its readout and
cast work has drained, the incoming one has its logical index, its registers and its contents, and is ACTIVE in its place (R120, R121, R785); from the
drain mark on WGQ heads come first (R288). -/
def Obligations.ClusterRoles : Prop :=
  ∀ s : State,
    (∀ (cl : ClusterId) (cause addr : Nat), cl.wf = true → cause < 6 → s.role cl ≠ 3 → ∃ t, exec (.clusterFault cl cause addr) s = .next t
      ∧ t.role cl = 3 ∧ t.logical cl = 127)
    ∧ (∀ (cl : ClusterId) (addr : Nat), cl.wf = true → ∀ p ∈ [(6, F.CL_ECC_TS_CE cl.die cl.idx), (7, F.CL_ECC_ACC_CE cl.die cl.idx)],
      ∃ t, exec (.clusterFault cl p.1 addr) s = .next t ∧ t.rd p.2 = min (s.rd p.2 + 1) (2 ^ p.2.width - 1)
        ∧ OnlyRegs [Reg.CL_ECC cl.die cl.idx, Reg.CD_ECC cl.die] s t)
    ∧ (∀ (n q : Nat) (r : RotSt), n < 8 → q < 4 → r.out < 288 → r.inn < 288 → r.out ≠ r.inn → s.rot (4 * n + q) = some r →
      ((s.due 4 (4 * n + q)).isSome = true → s.turn 6 = true → s.stopped = false → (s.cluster ⟨n, r.out⟩).arrayIdle = true →
        s.role ⟨n, r.inn⟩ = 1 → (s.cluster ⟨n, r.inn⟩).tested = true → ∃ t, exec (.clusterRotation n q) s = .next t ∧ t.latched = t.regs
          ∧ t.clusters = s.clusters ∧ (∀ a ∈ t.arms, ¬(a.kind = 4 ∧ a.who = 4 * n + q))
          ∧ (s.freeNat 0 % 2 = 0 → t.mem = s.mem ∧ t.rot (4 * n + q) = some { r with holding := true })
          ∧ (s.freeNat 0 % 2 = 1 → t.rot (4 * n + q) = none))
      ∧ (r.holding = true → s.role ⟨n, r.out⟩ = 4 → s.role ⟨n, r.inn⟩ = 1 → (s.cluster ⟨n, r.out⟩).readQ = [] → (s.cluster ⟨n, r.out⟩).castQ = [] →
        ∀ hold, ∃ t, exec (.clusterRotated n q hold) s = .next t ∧ t.rot (4 * n + q) = none
          ∧ t.role ⟨n, r.inn⟩ = 0 ∧ t.role ⟨n, r.out⟩ = 1 ∧ t.logical ⟨n, r.inn⟩ = s.logical ⟨n, r.out⟩ ∧ t.logical ⟨n, r.out⟩ = 127
          ∧ t.pc ⟨n, r.inn⟩ = s.pc ⟨n, r.out⟩ ∧ t.run ⟨n, r.inn⟩ = s.run ⟨n, r.out⟩
          ∧ t.cluster ⟨n, r.inn⟩ =
            { s.cluster ⟨n, r.out⟩ with
              tested := (s.cluster ⟨n, r.inn⟩).tested
              lastTest := (s.cluster ⟨n, r.inn⟩).lastTest
              lostIdx := (s.cluster ⟨n, r.inn⟩).lostIdx }))
    ∧ ∀ j, s.slotState j = 2 → (s.slot j).drained = false → s.rd (F.HRD_MARK_H j) - s.rd (F.HRD_SCHED_DRAIN_LEAD j) ≤ s.now →
      ∃ t, exec (.drainMark j) s = .next t ∧ (t.slot j).drained = true
        ∧ ∀ c ∈ s.clustersOf j, (s.cluster c).wgq ≠ [] → (t.cluster c).drainPrio = true

/-- At a lap mark the count advances by one, what the ports delivered becomes the last lap's, RL fields show the registers as they now are, and one LMOS
that carries the count leaves on every port in UP (R10, R52, R60). An armed event whose lap has passed is never applied: the job of one that is
job-scoped stops (R48). A lap-clock master leaves UNLOCKED with the count of LAP_START, and a module in ACQUIRING takes the count, the port, the hops
and the epoch of the one mark that a measured port delivered (R55, R56, R64). -/
def Obligations.LapMarks : Prop :=
  (∀ s : State, 2 ≤ s.rd F.LAP_STATUS_STATE → s.lap.demoted = false → (s.lap.originates = true ∨ s.lap.marks = []) → s.votes = [] →
      (∀ a ∈ s.arms, (s.now + 1) % 2 ^ 64 < a.t) → (∀ j, j < 16 → (s.slot j).ck.dec = none) →
      ∃ t, exec .lapMark s = .next t ∧ t.now = (s.now + 1) % 2 ^ 64 ∧ t.mem = s.mem ∧ t.clusters = s.clusters ∧ t.latched = t.regs
        ∧ t.lap.marks = [] ∧ t.lap.last = s.lap.marks ∧ t.arms = s.arms ∧ t.lap.sinceReset = s.lap.sinceReset + 1
        ∧ t.lap.quiet = (if s.lap.marks = [] then s.lap.quiet + 1 else 1)
        ∧ (s.rd F.LAP_STATUS_STATE = 3 → t.rd F.LAP_HOLD_HOLD_LAPS = (s.rd F.LAP_HOLD_HOLD_LAPS + 1) % 2 ^ 32)
        ∧ ∃ w : BitVec 128, bits w.toNat 127 120 = 0x6C ∧ bits w.toNat 79 16 = t.now ∧ bits w.toNat 111 96 = s.rd F.LAP_STATUS_EPOCH
          ∧ t.out = s.out ++ ((List.range 52).filter s.portUp).map (fun p => .orderedSet p w))
  ∧ (∀ (s : State) (k j T : Nat), 1 ≤ k → k ≤ 3 → j < 16 → s.arms = [⟨k, j, T, true⟩] → T ≤ s.now → s.now + 1 < 2 ^ 64 → s.slotState j = 2 →
      s.stopped = false → s.votes = [] → 2 ≤ s.rd F.LAP_STATUS_STATE → s.lap.demoted = false → s.lap.originates = true →
      ∃ t, exec .lapMark s = .next t ∧ t.now = s.now + 1 ∧ t.slotState j = 4 ∧ t.arms = [])
  ∧ (∀ s : State, s.lap.demoted = false → s.arms = [] → s.votes = [] →
      (s.rd F.LAP_STATUS_STATE = 0 → s.rd F.LAP_STATUS_ROLE = 1 → s.rails = true → 6 ≤ s.rd F.STR_START_STATE → s.rd F.STR_START_STATE ≤ 8 →
        ∃ t, exec .lapMark s = .next t ∧ t.reg Reg.LAP_COUNT = s.reg Reg.LAP_START
          ∧ t.rd F.LAP_STATUS_STATE = (if s.rd F.LAP_CFG_REF_EN = 1 then 1 else 2) ∧ t.rd F.LAP_STATUS_HOPS = 0 ∧ t.lap.originates = true)
      ∧ ∀ m, s.lap.marks = [m] → s.rd F.LAP_STATUS_STATE = 1 → s.lap.originates = false → s.lap.adopted = false → s.lap.lockHops = none →
        m.port < 52 → s.rd (F.LAP_PORT_DELAY_VALID m.port) = 1 → (∀ j, j < 16 → (s.slot j).ck.dec = none) → ∃ t, exec .lapMark s = .next t ∧ t.now = (m.lap % 2 ^ 64 + 1) % 2 ^ 64
          ∧ t.rd F.LAP_STATUS_UPSTREAM = m.port ∧ t.rd F.LAP_STATUS_HOPS = (m.hops + 1) % 16 ∧ t.rd F.LAP_STATUS_EPOCH = m.epoch % 65536
          ∧ t.rd F.LAP_STATUS_MASTER = m.master % 8192 ∧ t.rd F.LAP_STATUS_STATE = 1 ∧ t.mem = s.mem)

/-- The lap clock's transitions: LOCKED after 64 laps with a small phase error, HOLDOVER when every port has been silent for 4 laps, every RUNNING job
stopped when it has lasted 10 s, LOCKED again after 64 good laps of RELOCKING, another upstream after 2 silent laps, and a standby that becomes master
with the next epoch (R56, R69, R70, R72, R73, R75, R76); that such a one is LOCKED is the model's (DEDUCED, notes/assumptions/98.md). -/
def Obligations.LapTransitions : Prop :=
  ∀ s : State,
    (s.rd F.LAP_STATUS_STATE = 1 → ((s.lap.adopted = true ∧ 64 ≤ s.okRun) ∨ s.lap.originates = true) → ∃ t, exec .lapLockAcquired s = .next t
      ∧ t.rd F.LAP_STATUS_STATE = 2 ∧ (s.rd F.STR_START_STATE = 6 → t.rd F.STR_START_STATE = 8))
    ∧ ((s.rd F.LAP_STATUS_STATE = 2 ∨ s.rd F.LAP_STATUS_STATE = 4) → s.lap.originates = false → 4 ≤ s.lap.quiet → ∃ u : State,
      exec .lapLockLost s = .next (u.emit ⟨2, 0x0201, srcModule 0, none, place 7 0 0 ||| place 71 8 s.lap.lastLap⟩)
      ∧ u.rd F.LAP_STATUS_STATE = 3 ∧ u.rd F.LAP_HOLD_HOLD_LAPS = 0 ∧ u.rd F.LAP_CNT_LOCK_LOSS = min (s.rd F.LAP_CNT_LOCK_LOSS + 1) 65535
      ∧ { u with regs := s.regs, lap := s.lap } = s ∧ SameRegs [Reg.LAP_STATUS, Reg.LAP_HOLD, Reg.LAP_CNT] s u)
    ∧ (s.rd F.LAP_STATUS_STATE = 3 → s.lap.reported = false → tenSeconds ≤ s.rd F.LAP_HOLD_HOLD_LAPS → ∃ t, exec .lapHoldover s = .next t
      ∧ t.lap.reported = true ∧ ∀ j, j < 16 → s.slotState j = 2 → t.slotState j = 4)
    ∧ (s.rd F.LAP_STATUS_STATE = 4 → 64 ≤ s.okRun → ∃ u : State, exec .lapRelocked s = .next (u.emit ⟨0, 0x0206, srcModule 0, none,
      place 31 0 s.lap.relockLaps ||| place 47 32 (s.rd F.LAP_STATUS_EPOCH)⟩) ∧ u.rd F.LAP_STATUS_STATE = 2)
    ∧ ((s.rd F.LAP_STATUS_STATE = 2 ∨ s.rd F.LAP_STATUS_STATE = 4) → s.lap.originates = false → 2 ≤ s.lap.quietUp →
      ∀ m, s.bestMark s.lap.last = some m → ∃ u : State, exec .lapUpstreamSwitch s = .next (u.emit ⟨1, 0x0207, srcModule 0, none,
        place 5 0 (s.rd F.LAP_STATUS_UPSTREAM) ||| place 11 6 m.port⟩) ∧ u.rd F.LAP_STATUS_UPSTREAM = m.port % 64
        ∧ u.rd F.LAP_STATUS_HOPS = (m.hops + 1) % 16 ∧ u.rd F.LAP_CNT_UP_SWITCH = min (s.rd F.LAP_CNT_UP_SWITCH + 1) 65535 ∧ u.mem = s.mem)
    ∧ (s.rd F.LAP_STATUS_ROLE = 2 → 2 ≤ s.rd F.LAP_STATUS_STATE → 8 ≤ s.lap.quietEpoch → s.lap.stuck = false →
      16 ≤ ((List.range 52).filter (fun p => s.portUp p && s.rd (F.ACM_PORT_STAT_ROLE p) == 0)).length →
      ∃ u : State, exec .lapMasterTakeover s = .next (u.emit ⟨1, 0x0203, srcModule 0, none,
        place 15 0 (s.rd F.LAP_STATUS_EPOCH + 1) ||| place 28 16 (s.rd F.LAP_STATUS_MASTER)⟩)
        ∧ u.rd F.LAP_STATUS_STATE = 2 ∧ u.rd F.LAP_STATUS_ROLE = 1 ∧ u.rd F.LAP_STATUS_HOPS = 0
        ∧ u.rd F.LAP_STATUS_EPOCH = (s.rd F.LAP_STATUS_EPOCH + 1) % 65536 ∧ u.lap.originates = true ∧ u.lap.takeoverLeft = 4096)

/-- A mark with a bad CHECK is counted and ignored; a valid one is kept for the lap mark with its phase error, its arrival less the port's delay and a lap of 1,024 ns for each
lap of difference, and one of a later epoch
deposes a master (R61 to R63, R66, R780). A delay request is answered with its sequence number; the response to this module's request gives the port's
delay, half of the round trip less the turnaround, shown VALID from the next lap mark (R65, R408). A master's PPS edge captures the count and shows PPS;
the loss of a reference is recorded and ends the discipline, and its return resumes it (R57 to R59); a read of LAP_COUNT takes the phase of the moment
into LAP_PHASE, and changes no other register (R55). -/
def Obligations.LapSources : Prop :=
  (∀ (s : State) (port : Nat) (w : BitVec 128), s.portUp port = true →
      (∀ arr, bits w.toNat 127 120 = 0x6C → checkGood w = false →
        exec (.lmosReceive port w arr) s = .next (s.inc (F.ACM_PORT_CNT_LMOS_ERR port)))
      ∧ (∀ arr, bits w.toNat 127 120 = 0x6C → checkGood w = true → bit w.toNat 117 = false → s.lap.topEpoch ≤ bits w.toNat 111 96 →
        bits w.toNat 79 16 ≤ s.now + 1 → s.now ≤ bits w.toNat 79 16 + 1 →
        (s.rd F.LAP_STATUS_ROLE ≠ 1 → ∃ t, exec (.lmosReceive port w arr) s = .next t
          ∧ ⟨port, bits w.toNat 111 96, bits w.toNat 115 112, bits w.toNat 95 83, bits w.toNat 79 16, bit w.toNat 118,
            arr - (s.rd (F.LAP_PORT_DELAY_DELAY port) : Int) + 1024 * ((s.now : Int) - (bits w.toNat 79 16 : Int))⟩ ∈ t.lap.marks
          ∧ t.lap.lastLap = bits w.toNat 79 16 ∧ t.lap.topEpoch = bits w.toNat 111 96
          ∧ { t with lap := s.lap, regs := s.regs } = s ∧ SameRegs [Reg.LAP_STATUS] s t)
        ∧ (s.rd F.LAP_STATUS_ROLE = 1 → s.rd F.LAP_STATUS_EPOCH < bits w.toNat 111 96 → ∃ t, exec (.lmosReceive port w arr) s = .next t
          ∧ t.lap.demoted = true ∧ t.lap.topEpoch = bits w.toNat 111 96 ∧ { t with lap := s.lap } = s))
      ∧ (∀ turn, bits w.toNat 127 120 = 0x64 → checkGood w = true → ∃ r : BitVec 128,
        exec (.dreqReceive port w turn) s = .next { s with out := s.out ++ [.orderedSet port r] } ∧ bits r.toNat 127 120 = 0x65
          ∧ bits r.toNat 63 44 = turn % 2 ^ 20 ∧ bits r.toNat 43 16 = bits w.toNat 43 16)
      ∧ ∀ trip, bits w.toNat 127 120 = 0x65 → checkGood w = true → s.lap.asked.contains port = true →
        bits w.toNat 43 16 = (s.port port).dreq % 2 ^ 28 → ∃ t, exec (.drspReceive port w trip) s = .next t
          ∧ t.rd (F.LAP_PORT_DELAY_DELAY port) = (trip - bits w.toNat 63 44) / 2 % 2 ^ 20 ∧ port ∈ t.lap.measured ∧ port ∉ t.lap.asked
          ∧ { t with lap := s.lap, regs := s.regs } = s ∧ SameRegs [Reg.LAP_PORT_DELAY port] s t)
  ∧ (∀ s : State,
      (s.rd F.LAP_STATUS_ROLE = 1 → ∃ t, exec .laprefPpsEdge s = .next t ∧ t.rd F.LAP_PPS_CAPTURE_LAP = s.now % 2 ^ 54
        ∧ t.rd F.LAP_STATUS_PPS = 1 ∧ (s.rd F.LAP_CFG_REF_EN = 1 → s.lap.ref10M = true → t.rd F.LAP_STATUS_REFD = 1
          ∧ t.rd F.LAP_PPS_CAPTURE_PHASE = if s.lap.ppsOdd then 512 else 0)
        ∧ { t with regs := s.regs, lap := s.lap, free := s.free } = s ∧ SameRegs [Reg.LAP_STATUS, Reg.LAP_PPS_CAPTURE] s t)
      ∧ (∀ m p : Bool, s.rd F.LAP_STATUS_ROLE = 1 → (m || p) = true → ∃ u : State, exec (.laprefLost m p) s = .next (u.emit
        ⟨1, 0x0204, srcModule 0, none, place 0 0 (b2n m) ||| place 1 1 (b2n p)⟩) ∧ u.rd F.LAP_STATUS_REFD = 0
        ∧ { u with regs := s.regs, lap := s.lap } = s ∧ SameRegs [Reg.LAP_STATUS] s u)
      ∧ (s.rd F.LAP_STATUS_ROLE = 1 → ∃ t, exec .laprefRestored s = .next t ∧ t.rd F.LAP_STATUS_REF10M = 1 ∧ t.rd F.LAP_STATUS_PPS = 1
        ∧ t.rd F.LAP_STATUS_REFD = s.rd F.LAP_CFG_REF_EN ∧ { t with regs := s.regs, lap := s.lap } = s ∧ SameRegs [Reg.LAP_STATUS] s t)
      ∧ ∃ t, exec .lapCountRead s = .next t ∧ t.now = s.now ∧ { t with regs := s.regs, free := s.free } = s ∧ SameRegs [Reg.LAP_PHASE] s t)

/-- A valid message of a pre-vote, a pace vote, a Hurdle or a halt vote that reaches the collector of its level by the closing lap is held there with the
others, and nothing else happens until a lap mark (R366, R367, R639, R684, R706). At its closing lap a collector below the root is closed and sends what
it holds, reduced, to each collector of the level above, on the vote's channel and routes (R366 to R368, R373, R684). -/
def Obligations.Collectors : Prop :=
  (∀ (s : State) (m : Msg) (j : Nat), s.slotOfJob (voteJob m) = some j →
      let job := s.rd (F.STR_SLOT_JOB_ID j)
      let me := s.modIdx j
      let takes (v : VoteSpec) (k : Nat) : Prop := voteGood v.kind m = true ∧ collects (s.members j) v.mirror me k = true
        ∧ voteSender v.kind m < s.members j ∧ voteSender v.kind m / treeSpan k = me / treeSpan k
        ∧ s.now ≤ voteClosing v.kind v.base (s.members j) k ∧ k ∉ (s.vote v.kind job v.key).closed
      let held (v : VoteSpec) (k : Nat) (t : State) : Prop := { t with votes := s.votes, free := s.free } = s
        ∧ t.vote v.kind job v.key = { s.vote v.kind job v.key with msgs := (s.vote v.kind job v.key).msgs ++ [(k, m)] }
      let pre := s.preVote j (voteKey 0 m)
      let pace := s.paceVote j (voteKey 1 m)
      let halt := s.ckVote j (s.kLap j)
      (s.inPre j = true → (takes pre 1 → ∃ t, exec (.svoteReceive m) s = .next t ∧ held pre 1 t)
        ∧ (takes pre (m.byte 3 + 1) → ∃ t, exec (.spartReceive m) s = .next t ∧ held pre (m.byte 3 + 1) t))
      ∧ (s.slotState j = 2 → (s.slot j).paceAt = some (voteKey 1 m) →
        (m.byte 0 = 0x70 → takes pace 1 → ∃ t, exec (.pconReceive m) s = .next t ∧ held pace 1 t)
        ∧ (m.byte 0 = 0x71 → takes pace (m.byte 3 + 1) → ∃ t, exec (.ppartReceive m) s = .next t ∧ held pace (m.byte 3 + 1) t))
      ∧ (s.inVote j = true → voteKey 2 m = s.step j →
        (takes (s.hurdleVote j) 1 → ∃ t, exec (.hurdleContribReceive m) s = .next t ∧ held (s.hurdleVote j) 1 t)
        ∧ (takes (s.hurdleVote j) (m.byte 3 + 1) → ∃ t, exec (.hurdlePartialReceive m) s = .next t ∧ held (s.hurdleVote j) (m.byte 3 + 1) t))
      ∧ (s.slotState j = 3 → voteKey 3 m = s.kLap j → (m.byte 0 = 0x43 → takes halt 1 → ∃ t, exec (.ckconReceive m) s = .next t ∧ held halt 1 t)
        ∧ (m.byte 0 = 0x44 → takes halt (m.byte 3 + 1) → ∃ t, exec (.ckpartReceive m) s = .next t ∧ held halt (m.byte 3 + 1) t)))
  ∧ (∀ (s : State) (j k : Nat),
      let job := s.rd (F.STR_SLOT_JOB_ID j)
      let n := s.members j
      let me := s.modIdx j
      let above (v : VoteSpec) : List Nat := nodeCollectors n v.mirror (k + 1) (me / treeSpan (k + 1))
      let due (v : VoteSpec) : Prop := collects n v.mirror me k = true ∧ k ≠ treeLevels n ∧ voteClosing v.kind v.base n k ≤ s.now
        ∧ k ∉ (s.vote v.kind job v.key).closed ∧ me ∉ above v
      let sent (v : VoteSpec) : State := (above v).foldl (fun (t : State) d => t.sendVote v d (v.part s k ((s.vote v.kind job v.key).tally n me k)))
        (s.setVote { s.vote v.kind job v.key with closed := (s.vote v.kind job v.key).closed ++ [k] })
      (∀ t, s.slotOfJob job = some j → s.inPre j = true → due (s.preVote j t) →
        exec (.prevoteCollectorClose job t k) s = .next (sent (s.preVote j t)))
      ∧ (∀ mark, (s.slot j).paceAt = some mark → s.slotState j = 2 → due (s.paceVote j mark) →
        exec (.paceCollectorClose j k) s = .next (sent (s.paceVote j mark)).tick)
      ∧ (s.inVote j = true → (s.slot j).marked = true → due (s.hurdleVote j) → exec (.hurdleCollectorClose j k) s = .next (sent (s.hurdleVote j)))
      ∧ (s.slotState j = 3 → due (s.ckVote j (s.kLap j)) → exec (.ckptCollectorClose j k) s = .next (sent (s.ckVote j (s.kLap j)))))

/-- What a decision does at a member that collects nothing: an SDEC that passes makes its arm VOTED and one that fails ends it (R688); a PDEC arms the
pace change at M + 4,096 (R641); an outcome by H + 16 arms the resolve lap and is held (R370, R375); a CKDEC by K + 16 gives Z, from which the next
mark counts (R704, R709). -/
def Obligations.DecisionsTaken : Prop :=
  ∀ (s : State) (m : Msg) (j : Nat), s.slotOfJob (voteJob m) = some j → s.modIdx j ≠ 0 →
    (∀ k ∈ [1, 2, 3], ∀ b, collects (s.members j) b (s.modIdx j) k = false) →
    (voteGood 0 m = true → s.inPre j = true → s.areaState j = 2 → s.rd (F.SHD_STAT_JOB j) = 1 → ⟨0, j, m.le 8 8, true⟩ ∈ s.arms →
      ∃ t, exec (.sdecReceive m) s = .next t ∧ t.rd (F.SHD_VOTE_FAIL j) = m.byte 6 % 128
        ∧ (m.byte 6 = 0 → t.areaState j = 3 ∧ t.arms = s.arms ∧ t.mem = s.mem)
        ∧ (m.byte 6 ≠ 0 → t.areaState j ≤ 1 ∧ ∀ a ∈ t.arms, ¬(a.kind = 0 ∧ a.who = j)))
    ∧ (voteGood 1 m = true → m.byte 0 = 0x72 → s.slotState j = 2 → (s.slot j).paceAt = some (voteKey 1 m) → (s.slot j).paceMsg = none →
      (s.vote 7 (voteJob m) (voteKey 1 m)).closed = [] → s.now ≤ 4080 + voteKey 1 m → s.armReason (4096 + voteKey 1 m) true = none →
      ∃ t, exec (.pdecReceive m) s = .next t ∧ t.arms = s.arms ++ [⟨1, j, 4096 + voteKey 1 m, true⟩] ∧ (t.slot j).paceMsg = some m
        ∧ t.rd (F.PCE_VOTE_DECIDED j) = m.byte 0xE % 16 ∧ t.rd (F.PCE_VOTE_LATE j) = 0 ∧ t.mem = s.mem ∧ t.out = s.out)
    ∧ (voteGood 2 m = true → s.slotState j = 2 → voteKey 2 m = s.step j → (s.vote 5 (voteJob m) (voteKey 2 m)).closed = [] →
      (s.slot j).outMsg = none → (s.slot j).outLate = none → s.now ≤ s.hMark j + 16 → s.armReason (m.le 0x18 8) true = none →
      ∃ t, exec (.hurdleOutcomeReceive m) s = .next t ∧ ⟨2, j, m.le 0x18 8, true⟩ ∈ t.arms ∧ (t.slot j).outMsg = some m)
    ∧ (voteGood 3 m = true → m.byte 0 = 0x45 → s.slotState j = 3 → voteKey 3 m = s.kLap j → (s.vote 8 (voteJob m) (voteKey 3 m)).closed = [] →
      (s.ck j).dec = none → s.now ≤ s.kLap j + 16 → bit (m.byte 0x22) 0 = false → ∃ t, exec (.ckdecReceive m) s = .next t
        ∧ (t.ck j).dec = some m ∧ t.rd (F.RES_RESUME_Z j) = m.le 0x18 8 % 2 ^ 64 ∧ t.mem = s.mem ∧ t.out = s.out
        ∧ t.rd (F.HRD_MARK_H j) = (m.le 0x18 8 + s.rd (F.HRD_SCHED_HURDLE_OFFSET j)) % 2 ^ 64)

/-- SHD_CTL on an area: a check shows its result and records a failure; an accepted module-scoped arm is held for its lap, and a withdrawal up to T − 16
removes it; DISCARD makes every staged value live again; a job-scoped area without a decision at T − 16 stops its job (R674, R675, R80, R672, R689). A
swap of area 16, armed for this lap or applied at once while nothing runs, makes every staged value live; the arm is gone, and a swap by arm shows its
values in RL fields from this lap on (R677, R678, R10). -/
def Obligations.ShadowSet : Prop :=
  (∀ (s : State) (a : Nat), a ≤ 16 →
      (s.checkBusy a = 0 → exec (.shdCheck a) s = .next (s.wr (F.SHD_STAT_RESULT a) 0))
      ∧ (s.checkBusy a ≠ 0 → ∃ u e, exec (.shdCheck a) s = .next (State.emit u e) ∧ e.sev = 1 ∧ e.code = 0x0110
        ∧ bits e.payload 11 5 = s.checkBusy a % 128 ∧ u.rd (F.SHD_STAT_RESULT a) = s.checkBusy a % 128
        ∧ OnlyRegs [Reg.SHD_STAT a, Reg.SHD_CNT] s u)
      ∧ (s.checkBusy a = 0 → s.jobScoped a = false → s.armReason (s.rd F.SHD_ARM_T_T) true = none → ∃ t, exec (.shdArm a) s = .next t
        ∧ t.arms = s.arms ++ [⟨0, a, s.rd F.SHD_ARM_T_T, false⟩] ∧ t.areaState a = 2
        ∧ t.rd (F.SHD_STAT_TARGET a) = s.rd F.SHD_ARM_T_T % 2 ^ 40 ∧ { t with arms := s.arms, regs := s.regs } = s ∧ SameRegs [Reg.SHD_STAT a] s t)
      ∧ (∀ T, s.arms = [⟨0, a, T, false⟩] → s.now + 16 ≤ T → ∃ t, exec (.shdWithdraw a) s = .next t ∧ t.arms = [] ∧ t.areaState a ≤ 1
        ∧ { t with arms := s.arms, regs := s.regs } = s ∧ SameRegs [Reg.SHD_STAT a] s t)
      ∧ (s.areaState a < 2 → ∃ t, exec (.shdDiscard a) s = .next t ∧ (∀ off ∈ rsRegs a, t.stagedWord off = t.liveWord off) ∧ t.areaState a = 0
        ∧ { t with staged := s.staged, regs := s.regs } = s ∧ SameRegs [Reg.SHD_STAT a] s t)
      ∧ (∀ T, a < 16 → s.arms = [⟨0, a, T, true⟩] → s.areaState a = 2 → T ≤ s.now + 16 → ∃ t, exec (.prevoteLate a) s = .next t
        ∧ t.areaState a ≤ 1 ∧ t.arms = [] ∧ (s.slotState a = 2 → t.slotState a = 4)))
  ∧ (∀ s : State, s.check16 = 0 →
      let swapped (t : State) : Prop := t.areaState 16 = 0 ∧ ∀ off ∈ rsRegs 16,
        t.reg off &&& accMask .rs off = s.stagedWord off &&& accMask .rs off ∧ t.stagedWord off = t.liveWord off
      (s.arms = [⟨0, 16, s.now, false⟩] → s.areaState 16 = 2 → s.rd (F.SHD_STAT_JOB 16) = 0 → s.stopped = false →
        ∃ t, exec .shadowSwap s = .next t ∧ swapped t ∧ t.arms = [] ∧ t.latched = t.regs)
      ∧ (s.areaState 16 < 2 → s.rd F.LAP_STATUS_STATE < 2 → s.allEmpty = true → ∃ t, exec (.shdApplyNow 16) s = .next t ∧ swapped t
        ∧ t.rd (F.SHD_STAT_RESULT 16) = 0))

/-- A power sample shows the readings of the bus converters and of the input, and a voltage outside 40 to 58 V turns the regulators off with MON_TRIP
latched (R617, R620); a converter that fails lowers the limits (R621). A droop stretches a cluster's clock until its supply has recovered, and is
counted with its cycles (R645); a reading of 100 °C holds the slots that its sensor constrains at g 8, until every such reading is below 98 °C; 103.5
°C turns the regulators off (R647). -/
def Obligations.PowerAndHeat : Prop :=
  (∀ s : State, s.rails = true →
      (∀ r : PowerReadings, 44000 ≤ r.inputAvgMv → r.inputAvgMv ≤ 56000 → ∃ t, exec (.powerSample r) s = .next t
        ∧ t.rd F.MON_INPUT_MV = r.inputAvgMv ∧ t.power.count = s.power.count + 1
        ∧ ∀ k x, k < 8 → r.converters[k]? = some x → t.rd (F.MON_BUS_IN_MV k) = x.1 % 2 ^ 16 ∧ t.rd (F.MON_BUS_IN_CA k) = x.2.1 % 2 ^ 14
          ∧ t.rd (F.MON_BUS_OUT_W k) = x.2.2.1 % 2 ^ 16)
      ∧ (∀ r : PowerReadings, (r.inputAvgMv < 40000 ∨ 58000 < r.inputAvgMv) → ∃ t, exec (.powerSample r) s = .next t ∧ t.rails = false
        ∧ t.tripped = true ∧ t.rd F.MON_TRIP_VALID = 1 ∧ t.rd F.MON_TRIP_CAUSE = 1 ∧ t.rd F.MON_TRIP_LAP = s.now % 2 ^ 39 ∧ t.mem = [] ∧ t.slots = [])
      ∧ ∀ k, k < 8 → s.rd (F.MON_BUS_OK k) = 1 → s.convFailed < 2 → ∃ u : State, exec (.converterFault k) s = .next (u.emit
        ⟨2, 0x0307, srcModule 0, none, place 2 0 k ||| place 6 3 (s.convFailed + 1) ||| place 22 7 (u.peakW (s.convFailed + 1))
          ||| place 38 23 (u.susW (s.convFailed + 1))⟩) ∧ u.rd (F.MON_BUS_OK k) = 0 ∧ u.convFailed = s.convFailed + 1
          ∧ OnlyRegs [Reg.MON_BUS k, Reg.PCE_STATUS] s u)
  ∧ (∀ s : State,
      (∀ cl : ClusterId, s.power.droops.contains (clKey cl) = false → ∃ t, exec (.droopDetect cl) s = .next t
        ∧ t.power.droops = s.power.droops ++ [clKey cl] ∧ t.rd (F.CL_PWR_DROOPS cl.die cl.idx) = min (s.rd (F.CL_PWR_DROOPS cl.die cl.idx) + 1) 65535
        ∧ { t with regs := s.regs, power := s.power } = s ∧ SameRegs [Reg.CL_PWR cl.die cl.idx] s t)
      ∧ (∀ (cl : ClusterId) (n : Nat), s.power.droops.contains (clKey cl) = true → 8 ≤ n → ∃ t, exec (.droopRecovered cl n) s = .next t
        ∧ clKey cl ∉ t.power.droops
        ∧ t.rd (F.CL_PWR_STRETCH cl.die cl.idx) = min (s.rd (F.CL_PWR_STRETCH cl.die cl.idx) + n) (2 ^ 32 - 1)
        ∧ { t with regs := s.regs, power := s.power, slots := s.slots } = s ∧ SameRegs [Reg.CL_PWR cl.die cl.idx] s t)
      ∧ (∀ n v, s.rails = true → n < 640 → 1600 ≤ v → s.power.hot.contains n = false → ∃ u e, exec (.thermalFastHold n v) s = .next (State.emit u e)
        ∧ e.sev = 2 ∧ e.code = 0x0303 ∧ u.rd (F.MON_TEMP_TEMP n) = v % 4096 ∧ u.power.hot = s.power.hot ++ [n] ∧ u.power.cap = 8
        ∧ (∀ j ∈ s.sensorSlots n, j ∈ u.power.capped) ∧ SameRegs [Reg.MON_TEMP n, Reg.PCE_STATUS] s u)
      ∧ (s.power.hot ≠ [] → (∀ n ∈ s.power.hot, s.rd (F.MON_TEMP_TEMP n) < 1568) →
        exec .thermalHoldRelease s = .next { s with power := { s.power with hot := [] } })
      ∧ ∀ n v, s.rails = true → n < 640 → 1656 ≤ v → ∃ t, exec (.thermalTrip n v) s = .next t ∧ t.rails = false ∧ t.tripped = true
        ∧ t.rd F.MON_TRIP_VALID = 1 ∧ t.rd F.MON_TRIP_CAUSE = 0 ∧ t.rd F.MON_TRIP_SENSOR = n ∧ t.rd F.MON_TRIP_READING = v % 4096)

/-- At a pace mark every RUNNING slot enters its vote, what was reported once per interval may be reported again, and RL fields show the registers as they
are (R635, R640, R10); at M + 4,096 the job's partitions take the decided pace, with PACE_CHANGE (R641, R644); a member without a decision at M +
4,080 adopts the larger of its live pace and its proposal, and arms the change (R642); one that can no longer arm it stops the job (R78, R81). Both
commands that apply an event come after the events that R47 puts before theirs. -/
def Obligations.PaceMarks : Prop :=
  ∀ s : State,
    (s.now % 4096 = 0 → s.power.mark ≠ some s.now → s.stopped = false → s.turn 4 = true → ∃ t, exec .paceMark s = .next t ∧ t.power.mark = some s.now ∧ t.power.count = 0 ∧ t.told = [] ∧ t.latched = t.regs
        ∧ ∀ j, j < 16 → s.slotState j = 2 → (t.slot j).paceAt = some s.now)
    ∧ (∀ j m, j < 16 → (s.due 1 j).isSome = true → (s.slot j).paceMsg = some m → s.slotState j = 2 → voteKey 1 m + 4096 = s.now →
      m.byte 0xE % 16 ≤ 8 → m.byte 0xE % 16 ≠ s.rd (F.PCE_SLOT_LIVE j) → s.stopped = false → s.turn 3 = true → ∃ u e, exec (.paceChange j) s = .next (State.emit u e).latch
        ∧ e.sev = 0 ∧ e.code = 0x0301 ∧ bits e.payload 3 0 = s.rd (F.PCE_SLOT_LIVE j) ∧ bits e.payload 7 4 = m.byte 0xE % 16
        ∧ u.rd (F.PCE_SLOT_LIVE j) = m.byte 0xE % 16 ∧ u.rd (F.STR_SLOT_PACE j) = m.byte 0xE % 16
        ∧ (∀ p ∈ s.partsOf j, u.rd (F.CD_PART_PACE (p / 4) (p % 4)) = m.byte 0xE % 16)
        ∧ u.rd F.PCE_CNT_CHANGES = min (s.rd F.PCE_CNT_CHANGES + 1) 65535 ∧ u.mem = s.mem ∧ u.clusters = s.clusters)
    ∧ ∀ j mark, j < 16 → (s.slot j).paceAt = some mark → s.slotState j = 2 → (s.slot j).paceMsg = none → 4080 + mark ≤ s.now → s.now ≤ 4096 + mark →
      (s.armReason (4096 + mark) true = none → ∃ u : State, exec (.paceVoteLate j) s = .next ((u.emit ⟨2, 0x0305, srcModule 0, s.jobOf j,
        place 3 0 (max (s.rd (F.PCE_SLOT_LIVE j)) (s.rd (F.PCE_SLOT_PROPOSED j))) ||| place 67 4 mark⟩).addArm ⟨1, j, 4096 + mark, true⟩)
        ∧ u.rd (F.PCE_VOTE_LATE j) = 1 ∧ (∀ x, (u.slot j).paceMsg = some x → voteKey 1 x = mark % 2 ^ 64)
        ∧ u.rd F.PCE_CNT_VOTE_LATE = min (s.rd F.PCE_CNT_VOTE_LATE + 1) 65535 ∧ u.mem = s.mem ∧ u.arms = s.arms)
      ∧ ∀ r, s.armReason (4096 + mark) true = some r → ∃ t, exec (.paceVoteLate j) s = .next t ∧ t.slotState j = 4 ∧ t.rd F.LAP_REJECT_REASON = r
        ∧ t.rd F.LAP_REJECT_KIND = 1

/-- At H a RUNNING member that collects nothing takes its contribution from the flags in force and sends it, with its CRC, on every route to the
collectors of its level-1 node, and HCON of its clusters is clear again (R223, R361, R362, R365, R373). At C the step resolves: STEP moves on, the outcome stands in
HRD_OUTCOME and HRD_RESULT, and the next mark counts from the flip lap after a commit and from C + 16 after a skip; a skip lowers LS by one above its
floor, a commit keeps LS in LS_PREV (R148, R326, R327, R375, R376). Without an outcome at H + 16 the job stops (R377). -/
def Obligations.HurdleRuns : Prop :=
  (∀ (s : State) (j : Nat), j < 16 → s.stopped = false → s.slotState j = 2 → (s.slot j).marked = false → s.hMark j ≤ s.now → 1 < s.members j →
      (∀ c ∈ s.clustersOf j, s.hconHas c (s.step j) = true) → s.relayUnfinished j = none → s.relayDead = false →
      HomeServes s (linesOf (s.darkAddr j 0) (32 * s.rd (F.NUM_DARK_CFG_ENTRIES j))) →
      s.modIdx j ∉ nodeCollectors (s.members j) s.classX 1 (s.modIdx j / 32) →
      ∃ t : State, exec (.hurdleMark j) s = .next (State.latch ((nodeCollectors (s.members j) s.classX 1 (s.modIdx j / 32)).foldl (fun (u : State) d =>
          u.sendVote (s.hurdleVote j) d ((msgOf 0x40 [(0, 1, 0x48), (1, 2, s.rd (F.STR_SLOT_JOB_ID j)), (4, 6, s.step j), (0xA, 2, s.modIdx j),
            (0x10, 8, t.rd (F.HRD_CONTRIB_WORD j))]).withCrc 0xC)) t))
        ∧ (t.slot j).marked = true ∧ (∀ c ∈ s.clustersOf j, (t.cluster c).hcon = 0) ∧ t.mem = s.mem ∧ t.out = s.out ∧ t.arms = s.arms
        ∧ bits (t.rd (F.HRD_CONTRIB_WORD j)) 62 62 = b2n (s.rd (F.NUM_FLAGS_OVF j) == 1 || s.rd (F.HRD_FLAGS_CLIP j) == 1)
        ∧ bits (t.rd (F.HRD_CONTRIB_WORD j)) 63 63 = b2n ((s.clustersOf j).any (fun c => bit (s.cluster c).hcon.toNat 0)
          || s.rd (F.HRD_FLAGS_ABORT j) == 1)
        ∧ bits (t.rd (F.HRD_CONTRIB_WORD j)) 55 52 = s.rd (F.PCE_SLOT_PROPOSED j) ∧ t.rd (F.HRD_FLAGS_ABORT j) = 0)
  ∧ (∀ (s : State) (j : Nat), j < 16 → s.slotState j = 2 → s.stopped = false → (∀ e ∈ s.engSwap, e < 20) →
      (∀ m, (s.due 2 j).isSome = true → (s.slot j).outMsg = some m →
        let kind := bits (m.le 0x20 4) 31 30
        let resolved (t : State) : Prop := t.step j = (s.step j + 1) % 2 ^ 44 ∧ t.rd (F.HRD_RESULT_KIND j) = kind
          ∧ t.rd (F.HRD_OUTCOME_WORD j) = m.le 0x10 8 % 2 ^ 64 ∧ (t.slot j).resolved = true ∧ (t.slot j).outcome = (kind == 0)
          ∧ (t.slot j).marked = false ∧ (t.slot j).rlap = s.now ∧ (∀ a ∈ t.arms, ¬(a.kind = 2 ∧ a.who = j)) ∧ t.latched = t.regs
          ∧ t.hMark j = (s.now + (if kind = 0 then s.flipOffset j else 16) + s.rd (F.HRD_SCHED_HURDLE_OFFSET j)) % 2 ^ 64
        (kind = 1 → ∃ t, exec (.hurdleOutcomeApply j) s = .next t ∧ resolved t
          ∧ (s.rdInt (F.NUM_JOB_CFG_LS_MIN j) < s.rdInt (F.NUM_SCALE_LS j) → t.rdInt (F.NUM_SCALE_LS j) = s.rdInt (F.NUM_SCALE_LS j) - 1
            ∧ t.rd (F.NUM_SCALE_CLEAN j) = 0))
        ∧ (kind = 0 → bit (m.le 0x10 8) 60 = false → ∃ t, exec (.hurdleOutcomeApply j) s = .next t ∧ resolved t
          ∧ t.rdInt (F.NUM_SCALE_LS_PREV j) = s.rdInt (F.NUM_SCALE_LS j) ∧ (t.slot j).flipLap = some (s.now + s.flipOffset j)))
      ∧ ((s.slot j).marked = true → (s.slot j).outMsg = none → s.hMark j + 16 ≤ s.now → ∃ u e, exec (.hurdleLate j) s = .next (State.failJob u j e)
        ∧ e.sev = 3 ∧ e.code = 0x0705 ∧ bits e.payload 43 0 = s.step j ∧ u.rd (F.HRD_RESULT_LATE j) = 1))

/-- At the flip lap, after the pace changes, the FILLING version of a shard whose writes have completed becomes LIVE with the next epoch, and LIVE becomes
RETIRED; a shard that could not flip, or whose flip lap has passed, does the same at a later lap mark, with EPOCH_FLIP_LATE and the laps it was late
(R47, R48, R314, R315). A RETIRED version that a mark has passed and nobody holds becomes FREE, or
FILLING where a write waits (R313). -/
def Obligations.EpochFlips : Prop :=
  ∀ (s : State) (j n h v : Nat), j < 16 → n < 8 → h < 256 → v < 2 →
    let flipped (t : State) : Prop := t.verState n j h v = 2 ∧ t.verState n j h (1 - v) = 3
      ∧ t.rd (F.CD_EPOCH_EPOCH n j h) = (s.rd (F.CD_EPOCH_EPOCH n j h) + 1) % 2 ^ 32
    (∀ f, s.verIn n j h 1 = some v → s.usedShards j = [(n, h)] → (s.shard n j h).late = none → (s.slot j).flipLap = some f → (s.slot j).flipDone = false →
      s.slotState j = 2 → s.turn 4 = true →
      (s.canFlip j n h = true → f = s.now → ∃ t, exec (.epochFlip j) s = .next t ∧ flipped t ∧ (t.slot j).flipDone = true ∧ t.mem = s.mem ∧ t.latched = t.regs)
      ∧ (f < s.now ∨ (f = s.now ∧ s.canFlip j n h = false) → ∃ t, exec (.epochFlip j) s = .next t ∧ (t.shard n j h).late = some f
        ∧ (t.slot j).flipDone = true ∧ (∀ w, t.verState n j h w = s.verState n j h w) ∧ t.mem = s.mem))
    ∧ (∀ f, s.verIn n j h 1 = some v → s.canFlip j n h = true → (s.shard n j h).late = some f → f < s.now → s.turn 4 = true →
      ∃ u e, exec (.epochFlipLate j n h) s = .next (State.emit u e).latch ∧ flipped u ∧ e.sev = 1 ∧ e.code = 0x0C08 ∧ bits e.payload 7 0 = h
        ∧ bits e.payload 71 40 = (s.now - f) % 2 ^ 32 ∧ (u.shard n j h).late = none ∧ u.mem = s.mem)
    ∧ (s.verIn n j h 3 = some v → (s.shard n j h).markSince = true → (s.shard n j h).holders = [] → s.refsTo n j h v = 0 →
      ∃ t, exec (.epochRelease j n h) s = .next t ∧ t.verState n j h v = s.rd (F.CD_EPOCH_WAIT n j h)
        ∧ t.verState n j h (1 - v) = s.verState n j h (1 - v) ∧ t.rd (F.CD_EPOCH_WAIT n j h) = 0 ∧ t.mem = s.mem)

/-- A push of the step in progress leaves the push buffer encoded at the agreed exponent of one contributor, and goes to the adder of its level-1 node on
another module, held until it is acknowledged (R330 to R335, R339, R347, R353); where that node is here and has no credit it waits (R330, R357). -/
def Obligations.RelayPushes : Prop :=
  ∀ (s : State) (cl : ClusterId) (j pos : Nat) (e : PushEnt) (es : List PushEnt) (p : PlanTile),
    s.slotOfCl cl = some j → (s.cluster cl).push = e :: es → s.slotState j = 2 → s.stopped = false → e.pstep = s.step j → s.engineGone j e.tile = false →
    (∀ x ∈ (s.relay j).pushed, x % 2 ^ 32 ≠ e.tile) → s.planOf j e.tile = some p → p.pos (s.modIdx j) = some pos → e.tile < 2 ^ 32 →
    let up := p.adder e.tile 1 (pos / 32)
    (up = s.modIdx j → s.credit j e.tile 1 (s.asks.takeWhile (fun a => decide (a.cl ≠ some cl))) = false →
      exec (.relayPushTake cl) s = .next (s.pushAsks cl j e.tile))
    ∧ (up ≠ s.modIdx j → MemSound s → ∃ (u t : State) (b : RelayBlock), exec (.relayPushTake cl) s = .next t ∧ t = (u.relaySend j up 0 e.tile 0 b).tick
      ∧ (t.cluster cl).push = es ∧ (t.relay j).sent = (s.relay j).sent ++ [⟨s.relayTag, up, 0, e.tile, 0, b⟩] ∧ t.relayTag = s.relayTag + 1
      ∧ b.tile = e.tile ∧ b.count = 1 ∧ b.hop = 0
      ∧ b.payload = (encodeTile e.vals (s.rd (F.NUM_SCALE_PCM_WG j)) (s.agreed j e.tile 1)).1
      ∧ 2 ^ 32 * e.tensor + e.tile ∈ (t.relay j).pushed)

/-- A valid sum block for a node of this module is its input, acknowledged; a finished sum at an owner stands decoded in its DEST area; a block of an
unknown job is dropped and counted, one of another step is dropped with abort at the next mark (R348 to R358). A scale return writes the next step's
bank of the scale table and 0x80 in this step's, and is acknowledged (R341); an acknowledgement ends the wait for its block, and one that asks for the
block again sends it again (R353); a Relay engine that fails is FAILED, what it held for every job is lost, and its die's reserve is to take over
(R360). -/
def Obligations.RelayArrivals : Prop :=
  (∀ (s : State) (port j : Nat) (b : RelayBlock) (p : PlanTile), s.relaySlot b.job = some j → s.slotState j = 2 → s.stopped = false →
      MemSound s → (s.relayChecks = true → bits b.hdr.toNat 31 0 = relayCrc b.hdr.toNat b.payload) →
      let v := s.readPlan j b.tile
      (b.sepoch ≠ s.step j % 65536 → ∃ t, exec (.relayBlockReceive port b) s = .next t ∧ t.rd (F.HRD_FLAGS_ABORT j) = 1 ∧ t.slots = s.slots)
      ∧ (b.sepoch = s.step j % 65536 → s.engineGone j b.tile = false → s.planOf j b.tile = some p →
        (∀ q pos, s.asks = [] → (b.tile, b.hop + 1) ∉ (s.relay j).made → b.hop ≠ treeLevels p.contributors.length → p.pos b.sender = some q → p.pos (s.modIdx j) = some pos →
          p.adder b.tile (b.hop + 1) (q / treeSpan (b.hop + 1)) = s.modIdx j → s.contextFree j b.tile (b.hop + 1) [] = true →
          (∀ x ∈ (s.relay j).nodes, ¬(x.tile = b.tile ∧ x.level = b.hop + 1)) →
          1 < treeChildren p.contributors.length (b.hop + 1) (pos / treeSpan (b.hop + 1)) → ∃ t, exec (.relayBlockReceive port b) s = .next t
            ∧ ⟨b.tile, b.hop + 1, [b], false⟩ ∈ (t.relay j).nodes ∧ t.ports = (v.relayReply j b.sender b.tile true).ports
            ∧ t.out = (v.relayReply j b.sender b.tile true).out ∧ t.mem = (v.relayReply j b.sender b.tile true).mem)
        ∧ (b.hop = treeLevels p.contributors.length → p.owners.contains (s.modIdx j) = true → b.payload.length = 8192 →
          HomeServes s (linesOf (p.dest + 0x8000 * (b.tile - p.lo)) 0x8000) → ∃ t, exec (.relayBlockReceive port b) s = .next t
            ∧ t = ((v.ownerStore p b).relayReply j b.sender b.tile true).tick ∧ t.slots = s.slots
            ∧ ∀ e, e < 8192 → (v.ownerStore p b).memNat (p.dest + 0x8000 * (b.tile - p.lo) + 4 * e) 4 =
              (toFp32 (fpScale (decodeElem 7 (b.payload.getD e 0).toNat) b.xa)).toNat)))
  ∧ (∀ (s : State) (port j : Nat),
      (∀ (b : RelayBlock) (p : PlanTile), s.relaySlot b.job = some j → s.slotState j = 2 → s.stopped = false →
        (s.relayChecks = true → bits b.hdr.toNat 31 0 = relayCrc b.hdr.toNat b.payload) → b.sepoch = s.step j % 65536 → b.count = 1 →
        let w := ofLe (b.payload.take 8)
        let u := (s.readPlan j (bits w 63 32)).scaleDown j p (bits w 63 32) (signed 8 (bits w 31 24))
        s.planOf j (bits w 63 32) = some p → (p.pos (s.modIdx j)).isSome = true → bits w 63 32 < s.rd (F.RLY_CFG_SCALE_ENTRIES j) → MemSound s →
        let z := u.scaleStore j (bits w 63 32) (signed 8 (bits w 31 24))
        HomeServes s [s.scaleAddr j 0 (bits w 63 32) / 64, s.scaleAddr j 1 (bits w 63 32) / 64] → ∃ t, exec (.scaleReturnReceive port b) s = .next t
          ∧ t = (z.relayReply j b.sender b.tile true).tick
          ∧ z.memNat (s.scaleAddr j ((s.step j + 1) % 2) (bits w 63 32)) 1 = bits w 31 24
          ∧ z.memNat (s.scaleAddr j (s.step j % 2) (bits w 63 32)) 1 = 0x80
          ∧ ∀ k ∈ (t.relay j).expect, k % 2 ^ 32 ≠ bits w 63 32)
      ∧ (∀ tag x, s.relayWaits tag = some (j, x) →
        (s.asks = [] → ∃ t, exec (.relayAckReceive tag true) s = .next t ∧ (∀ y ∈ (t.relay j).sent, y.tag ≠ tag) ∧ t.out = s.out ∧ t.mem = s.mem)
        ∧ exec (.relayAckReceive tag false) s = .next (s.sendMember j 0 x.dest 1 x.block.bytes))
      ∧ ∀ e, e < 20 → s.rd (F.RLY_ENG_ROLE e) = 0 → s.rd (F.RLY_ENG_LOGICAL e) < 16 → e % 5 ≠ 4 → s.engSwap = [] →
        let lost (t : State) : Prop := ∀ i, i < 16 → (s.slotState i = 2 → s.rd (F.RLY_ENG_LOGICAL e) ∈ (t.relay i).dead)
          ∧ ∀ x ∈ (t.relay i).nodes, x.tile % 16 = s.rd (F.RLY_ENG_LOGICAL e) → x.inputs = [] ∧ x.done = false
        (s.rd (F.RLY_ENG_ROLE (5 * (e / 5) + 4)) = 1 → ∃ t, exec (.relayEngineFail e) s = .next t ∧ t.rd (F.RLY_ENG_ROLE e) = 2 ∧ t.engSwap = [e] ∧ lost t
          ∧ { t with regs := s.regs, engSwap := s.engSwap, slots := s.slots, asks := s.asks } = s
          ∧ SameRegs ((List.range 20).map Reg.RLY_ENG) s t)
        ∧ (s.rd (F.RLY_ENG_ROLE (5 * (e / 5) + 4)) ≠ 1 → ∃ u v, exec (.relayEngineFail e) s = .next (State.emit u v) ∧ v.sev = 2 ∧ v.code = 0x070A
          ∧ u.rd (F.RLY_ENG_ROLE e) = 2 ∧ u.rd (F.RLY_ENG_LOGICAL e) = 31 ∧ u.relayDead = true ∧ lost u ∧ u.mem = s.mem))

/-- A doorbell with a TAIL inside the ring is the queue's tail, plain or ordered with no earlier write of its core; one outside is counted and ignored
(R517, R521); a core's earlier writes hold an ordered one (R447). HALT and RESUME stop and resume fetching (R526); clearing EN at an IDLE or HALTED
queue starts its ring again (R517); a new completion head gives entries back (R529). -/
def Obligations.QueueControl : Prop :=
  ∀ (s : State) (q : Nat) (val : Word), q < 256 →
    let only (t : State) : Prop := { t with regs := s.regs, queues := s.queues } = s ∧ SameQueues q s t
    (s.stopped = false → ∀ core, s.odbs.any (fun x => x.core == core) = false → s.odbWaits ⟨core, q, val.toNat, s.wrNo⟩ = false →
      (s.rd (F.CPE_QRING_EN q) = 1 → val.toNat % 65536 < s.qSize q → ∃ t, exec (.sqDoorbell q val) s = .next t
        ∧ exec (.sqOrderedDoorbell core q val) s = .next t ∧ only t ∧ SameRegs [Reg.SQ_STAT q] s t
        ∧ t.queue q = { s.queue q with tail := val.toNat % 65536 })
      ∧ (s.qSize q ≤ val.toNat % 65536 ∨ s.rd (F.CPE_QRING_EN q) = 0 → exec (.sqDoorbell q val) s = .next (s.inc (F.SQ_CNT_DB_IGNORED q))
        ∧ exec (.sqOrderedDoorbell core q val) s = .next (s.inc (F.SQ_CNT_DB_IGNORED q))))
    ∧ (s.stopped = false → ∀ core, s.odbWaits ⟨core, q, val.toNat, s.wrNo⟩ = true →
      exec (.sqOrderedDoorbell core q val) s = .next { s with odbs := s.odbs ++ [⟨core, q, val.toNat, s.wrNo⟩] })
    ∧ (s.rd (F.CPE_QRING_EN q) = 1 →
      ((s.queue q).halted = false → ∃ t, exec (.sqHalt q) s = .next t ∧ t.queue q = { s.queue q with halted := true }
        ∧ t.rd (F.SQ_STAT_REASON q) = 3 ∧ t.rd (F.SQ_STAT_STATE q) = 3)
      ∧ ((s.queue q).halted = true → ∃ t, exec (.sqResume q) s = .next t ∧ only t ∧ SameRegs [Reg.SQ_STAT q] s t
        ∧ t.queue q = { s.queue q with halted := false, rereads := 0, stale := false } ∧ t.rd (F.SQ_STAT_REASON q) = 0))
    ∧ (bit val.toNat 63 = false → (s.qState q (s.queue q) = 1 ∨ s.qState q (s.queue q) = 3) → ∃ t, exec (.queueDisable q val) s = .next t
      ∧ t.rd (F.CPE_QRING_EN q) = 0 ∧ t.rd (F.SQ_STAT_HEAD q) = 0 ∧ t.rd (F.SQ_STAT_SPHASE q) = 1 ∧ t.rd (F.SQ_STAT_CPHASE q) = 1
      ∧ (t.queue q).cmds = (s.queue q).cmds.filter (fun c => decide (2 ≤ c.stage)) ∧ (t.queue q).done = (s.queue q).done ∧ (t.queue q).halted = false ∧ (t.queue q).tail = 0)
    ∧ ∃ t, exec (.cqHeadWrite q val) s = .next t ∧ only t ∧ t.rd (F.SQ_CQH_HEAD q) = val.toNat % 65536
      ∧ (val.toNat % 65536 < s.qSize q → (s.queue q).ctail < s.qSize q → ((t.queue q).ccount + val.toNat % 65536) % s.qSize q = (s.queue q).ctail)

/-- The entry at HEAD is read in ring order: with the expected PHASE it is accepted, HEAD moves on and the phase turns at the wrap; otherwise the queue
reads it again, and after eight stale re-reads halts (R523, R524). A free engine takes the one command that is offered to it (R534); a NOP ends with
OK; the next ended command's record is written with its time, before its phase is (R527 to R531). -/
def Obligations.CommandsRun : Prop :=
  (∀ (s : State) (q : Nat), q < 256 → s.canFetch q = true → HomeServes s [s.headLine q] →
      let w := s.headEntry q
      let head := s.rd (F.SQ_STAT_HEAD q)
      let accepted (t : State) : Prop := s.cmdStatus q w = none → head < s.qSize q → s.qSize q ≤ 32768 →
        t.rd (F.SQ_STAT_HEAD q) = (if head + 1 = s.qSize q then 0 else head + 1)
        ∧ t.rd (F.SQ_STAT_SPHASE q) = (if head + 1 = s.qSize q then 1 - s.rd (F.SQ_STAT_SPHASE q) else s.rd (F.SQ_STAT_SPHASE q))
        ∧ (∃ c, (t.queue q).cmds = (s.queue q).cmds ++ [c] ∧ c.entry = head + 65536 * (s.queue q).gen ∧ c.w = w ∧ c.stage ≤ 1) ∧ (t.queue q).stale = false ∧ t.mem = s.mem
      ((s.queue q).stale = false →
        (bit w 63 = (s.rd (F.SQ_STAT_SPHASE q) == 1) → ∃ t, exec (.submissionFetch q) s = .next t ∧ accepted t)
        ∧ (bit w 63 ≠ (s.rd (F.SQ_STAT_SPHASE q) == 1) → ∃ t, exec (.submissionFetch q) s = .next t
          ∧ t.queue q = { s.queue q with stale := true, rereads := 0 } ∧ t.rd (F.SQ_STAT_HEAD q) = head))
      ∧ ((s.queue q).stale = true →
        (bit w 63 = (s.rd (F.SQ_STAT_SPHASE q) == 1) → ∃ t, exec (.submissionReread q) s = .next t ∧ accepted t)
        ∧ (bit w 63 ≠ (s.rd (F.SQ_STAT_SPHASE q) == 1) → 7 ≤ (s.queue q).rereads → ∃ t, exec (.submissionReread q) s = .next t
          ∧ (t.queue q).halted = true ∧ t.rd (F.SQ_STAT_REASON q) = 1)))
  ∧ (∀ (s : State) (q : Nat), s.stopped = false → q < 256 →
      (∀ e c, e < 24 → s.eng e = none → (∀ h, engineHome e = some h → s.hdAway.contains h = false) → s.offer e q = some c →
        (∀ p, p < 256 → p ≠ q → s.offer e p = none) → ∃ t, exec (.commandDispatch e) s = .next t ∧ t.eng e = some ⟨q, c.entry, [], 0, none, if s.rd (F.CPE_QBIND_CTX q) < 16 then s.slotState (s.rd (F.CPE_QBIND_CTX q)) else 0⟩
          ∧ { c with stage := 2 } ∈ (t.queue q).cmds ∧ t.rd (F.CPE_ENG_STATE e) = 1 ∧ t.rd (F.CPE_ENG_QUEUE e) = q
          ∧ t.rd (F.CPE_ENG_ENTRY e) = c.entry % 4096 ∧ t.mem = s.mem)
      ∧ (∀ c, (s.queue q).nextCmd = some c → c.op = 0x3F → ∃ t d, exec (.nop q) s = .next t ∧ (t.queue q).done = (s.queue q).done ++ [d]
        ∧ d.entry = c.entry ∧ d.status = 0 ∧ (∀ x ∈ (t.queue q).cmds, x.entry ≠ c.entry) ∧ t.mem = s.mem)
      ∧ ∀ c cs, (s.queue q).done = c :: cs → (s.queue q).ccount < s.qSize q → c.status = 0 →
        let a := 4096 * s.rd (F.CPE_QCPL_BASE q) + 16 * (s.queue q).ctail
        HomeServes s [a / 64] → ∃ t, exec (.commandComplete q) s = .next t ∧ (t.queue q).done = cs ∧ (t.queue q).ccount = (s.queue q).ccount + 1
          ∧ t.memNat (a + 8) 8 = s.now ∧ t.memNat a 8 = (place 63 63 (s.rd (F.SQ_STAT_CPHASE q)) ||| place 62 56 c.op ||| place 55 48 c.status
            ||| place 47 32 (bits c.w 47 32) ||| place 31 16 c.entry ||| place 15 0 c.detail)
          ∧ t.rd (F.SQ_CNT_COMPLETED q) = min (s.rd (F.SQ_CNT_COMPLETED q) + 1) (2 ^ 32 - 1))

/-- While no home is busy with the lines, every destination line of a COPY receives its source line, and of a SNAPSHOT the line of the LIVE version; the
command ends with OK and the engine is free (R535 to R537, R545, R546). A peer write sends the next of its messages with the next tag and the bytes that
memory holds, to the module that the job's table names (R419, R542); the last acknowledgement ends it with OK, a refused one with PEER_REJECT and a lost one with PEER_LOST, and the engine is free (R543). -/
def Obligations.CopiesMove : Prop :=
  (∀ (s : State) (e : Nat) (x : EngSt) (c : CmdSt), e < 16 → x.q < 256 → s.engCmd e = some (x, c) → s.stopped = false → s.walking x = false → c.stage = 2 →
      s.tracker = [] → bits c.w 111 64 % 64 = 0 → Quiet s → MemSound s →
      let apart (src dst : Nat → Nat) (n : Nat) : Prop := (∀ i k, i < n → k < n → src i ≠ dst k) ∧ ∀ i k, i < n → k < n → i ≠ k → dst i ≠ dst k
      let ended (t : State) : Prop := t.eng e = none ∧ t.rd (F.CPE_ENG_STATE e) = 0 ∧ ∃ d ∈ (t.queue x.q).done, d.entry = x.entry ∧ d.status = 0
      (c.op = 1 → bits c.w 175 128 % 64 = 0 →
        let len := bits c.w 223 192
        let src (i : Nat) : Nat := frameByte (s.frameList x.q x.entry 0 (pagesOf (bits c.w 111 64) len)) (bits c.w 111 64) (64 * i)
        let dst (i : Nat) : Nat := frameByte (s.frameList x.q x.entry 1 (pagesOf (bits c.w 175 128) len)) (bits c.w 175 128) (64 * i)
        apart src dst (len / 64) → ∃ t, exec (.copy e) s = .next t ∧ ended t ∧ ∀ i, i < len / 64 → t.memBytes (dst i) 64 = s.memBytes (src i) 64)
      ∧ ∀ d v, c.op = 3 → c.wait = false → c.ver = none → s.engHeld = [] → x.slotSt = 2 →
        s.descOf (s.rd (F.CPE_QBIND_CTX x.q)) (bits c.w 143 128) = some d → pagesOf (bits c.w 111 64) d.length ≤ c.pages → d.epoched = true → bit c.w 1 = false →
        s.verIn (shardOf d).1 (s.rd (F.CPE_QBIND_CTX x.q)) (shardOf d).2 2 = some v → dqVa d (v == 1) % 64 = 0 →
        (∀ k, k < pagesOf (dqVa d (v == 1)) d.length → ∃ f, (dqFrames d (v == 1))[k]? = some (some f)) →
        let src (i : Nat) : Nat := frameByte (dqFrames d (v == 1)) (dqVa d (v == 1)) (64 * i)
        let dst (i : Nat) : Nat := frameByte (s.frameList x.q x.entry 1 (pagesOf (bits c.w 111 64) d.length)) (bits c.w 111 64) (64 * i)
        let ep := s.rd (F.CD_EPOCH_EPOCH (shardOf d).1 (s.rd (F.CPE_QBIND_CTX x.q)) (shardOf d).2)
        let after (u : State) (v : Ev) : State := (State.emit u v).finish e x 0 (ep % 65536)
        apart src dst (d.length / 64) → ∃ u v, exec (.snapshot e) s = .next (after u v) ∧ v.sev = 0 ∧ v.code = 0x0605 ∧ bits v.payload 42 11 = ep
          ∧ ended (after u v) ∧ ∀ i, i < d.length / 64 → u.memBytes (dst i) 64 = s.memBytes (src i) 64)
  ∧ (∀ (s : State) (e : Nat) (x : EngSt) (c : CmdSt), 16 ≤ e → e < 24 → x.q < 256 → s.engCmd e = some (x, c) → c.op = 2 → s.stopped = false →
      let j := s.rd (F.CPE_QBIND_CTX x.q)
      let cuts := peerCuts (bits c.w 173 128) 34 0 (bits c.w 223 192)
      let ended (t : State) (status : Nat) : Prop := t.eng e = none ∧ ∃ d ∈ (t.queue x.q).done, d.entry = x.entry ∧ d.status = status
      (∀ o n, s.walking x = false → c.stage = 2 → x.slotSt ≠ 0 → x.slotSt ≠ 4 → cuts[x.next]? = some (o, n) → s.peerTag < 2 ^ 32 →
        (∀ x ∈ s.tracker, x.noted = true) → Quiet s → MemSound s →
        let fs := s.frameList x.q x.entry 0 (pagesOf (bits c.w 111 64) (bits c.w 223 192))
        let data := (List.range (n / 64)).flatMap (fun i => s.memBytes (frameByte fs (bits c.w 111 64) (o + 64 * i)) 64)
        ∃ u t : State, exec (.peerWrite e) s = .next t ∧ { u with regs := s.regs, dirs := s.dirs, tracker := s.tracker } = s
          ∧ t = ((({ u.sendMember j 1 (bits c.w 236 224) 1
            (leBytes 16 (peerHdr (u.rd (F.STR_SLOT_JOB_ID j)) (bits c.w 173 128 + o) n s.peerTag).toNat ++ data) with
              peerTag := (s.peerTag + 1) % 2 ^ 32 } : State).setEng e
                { x with msgs := x.msgs ++ [(s.peerTag, x.next)], next := x.next + 1 }).countMoved e n).tick
          ∧ t.eng e = some { x with msgs := x.msgs ++ [(s.peerTag, x.next)], next := x.next + 1 })
      ∧ ∀ tag n, x.msgs = [(tag, n)] →
        (x.next = cuts.length → ∃ t, exec (.peerAckReceive e tag true) s = .next t ∧ ended t 0 ∧ t.mem = s.mem)
        ∧ (MemSound s → ∃ t, exec (.peerAckReceive e tag false) s = .next t ∧ ended t 6
          ∧ t.rd F.CPE_CNT_PEER_REJECT = min (s.rd F.CPE_CNT_PEER_REJECT + 1) 65535)
        ∧ (MemSound s → ∃ t, exec (.peerLost e tag) s = .next t ∧ ended t 7 ∧ t.rd F.CPE_CNT_PEER_LOST = min (s.rd F.CPE_CNT_PEER_LOST + 1) 65535))

/-- A LOAD whose container passes every check leaves its program in the slot, and PROGRAM_LOADED ends it with OK; one that is refused stops the slot (R238
to R240, R548); a slot that has drained is EMPTY and holds no job (R549, R664). -/
def Obligations.ProgramLoads : Prop :=
  ∀ (s : State) (q j : Nat), s.stopped = false → j < 16 →
    (∀ c, (∀ i, i < 16 → (s.slot i).loadQ ≠ some q) → (s.queue q).nextCmd = some c → c.op = 0x10 → bits c.w 131 128 = j → s.slotState j = 1 →
      (s.slot j).loadQ = none →
      (s.slot j).loadSlot = false →
      let s1 := ((s.putCmd q { c with stage := 2 }).setSlot j { s.slot j with loadQ := some q, loadDone := false, loadAsk := true }).showWalkers
      let s2 := s1.setSlot j { s1.slot j with loadHeld := none }
      (s1.slot j).loadSlot = true →
      (∀ u, s2.tryLoad j (bits c.w 111 64) = .done u → ∃ t, exec (.load q) s = .next t ∧ (t.slot j).loadDone = true
        ∧ (t.slot j).prog = (u.slot j).prog ∧ { t with regs := u.regs, slots := u.slots, walks := u.walks, walkTurn := u.walkTurn } = u)
      ∧ ∀ u e, s2.tryLoad j (bits c.w 111 64) = .refused u e → u.slotState j = 1 → ∃ t, exec (.load q) s = .next t ∧ t.slotState j = 4)
    ∧ (∀ p, s.slotState j = 1 → (s.slot j).loadQ = some q → (s.slot j).prog = some p → (s.slot j).loadDone = true → MemSound s →
      (∃ c ∈ (s.queue q).cmds, c.stage = 2 ∧ c.op = 0x10 ∧ bits c.w 131 128 = j) → ∀ us, ∃ t, exec (.programLoaded j us) s = .next t
        ∧ (t.slot j).loadQ = none ∧ (t.slot j).prog = some p ∧ ∃ d ∈ (t.queue q).done, d.op = 0x10 ∧ d.status = 0)
    ∧ (s.slotState j = 5 → s.draining j = false → ∃ t, exec (.slotDrainComplete j) s = .next t ∧ t.slotState j = 0
      ∧ t.rd (F.STR_SLOT_ACTIVE j) = 0 ∧ t.rd (F.STR_SLOT_JOB_ID j) = 0 ∧ t.slot j = SlotSt.init)

/-- The walk of a mapped page that holds a walker slot writes its frame, marked valid, into the command's frame list, and its command is ready once no walk of it is left (R487,
R488, R492); a walk that faults takes a free record, OPEN, and waits (R493, R497). A retry makes an OPEN record RESUMING and lets its held walks go
on; an abort ends their commands with FAULT; a record that no engine waits for is FREE; a write of the fault queue's base starts it again at entry 0
(R494, R496, R498). -/
def Obligations.Translation : Prop :=
  (∀ (s : State) (w : WalkSt) (c : CmdSt), s.walks = [w] → s.stopped = false → MemSound s → s.walkReady w = true → s.walkBusy w.ctx w.vpage = false → w.held = none → w.pages = 1 → w.next = 0 →
      w.q < 256 → w.side = 0 → (s.queue w.q).cmds.find? (fun c => c.entry == w.entry) = some c → c.stage = 0 →
      (∀ e, s.walkPage w.ctx w.vpage w.write = .entry e → HomeServes s [s.frameAddr w.q w.entry 0 0 / 64] → ∃ t, exec (.walkComplete w.id) s = .next t ∧ t.walks = []
        ∧ t.memNat (s.frameAddr w.q w.entry 0 0) 8 = frameWord (entryFrame e) ∧ { c with stage := 1 } ∈ (t.queue w.q).cmds)
      ∧ ∀ cause level entry r, s.walkPage w.ctx w.vpage w.write = .fault cause level entry → r < 64 → s.recState r = 0 →
        (∀ i, i < r → s.recState i ≠ 0) → (∀ i, i < 64 → s.recState i ≠ 1) → ∃ t, exec (.walkComplete w.id) s = .next t ∧ t.recState r = 1
          ∧ t.rd (F.XLT_REC_CTX r) = w.ctx % 32 ∧ t.rd (F.XLT_REC_CAUSE r) = cause % 16 ∧ t.rd (F.XLT_REC_VA r) = w.vpage % 2 ^ 36
          ∧ t.rd (F.XLT_REC_COUNT r) = 1 ∧ t.walks = [{ w with held := some (r, false), noRec := false, slot := false }])
  ∧ (∀ (s : State) (r : Nat), r < 64 →
      (s.recState r = 1 → ∃ t, exec (.faultResumeRetry r) s = .next t ∧ t.recState r = 2 ∧ SameRegs [Reg.XLT_REC r, Reg.XLT_STATUS] s t
        ∧ t.mem = s.mem ∧ t.queues = s.queues
        ∧ (∀ w ∈ s.walks, (∃ b, w.held = some (r, b)) → ∃ g, { w with held := some (r, true), slot := g } ∈ t.walks)
        ∧ ∀ w ∈ s.walks, (∀ b, w.held ≠ some (r, b)) → ∃ g, { w with slot := g } ∈ t.walks)
      ∧ (∀ w c, s.recState r = 1 → s.stopped = false → MemSound s → s.walks = [w] → w.held = some (r, false) → w.q < 256 → (s.queue w.q).cmds = [c] → c.entry = w.entry →
        bits (s.rd (F.XLT_RECENG_ENGINES r)) 47 40 = 0 → s.engHeld = [] → (∀ j, j < 16 → (s.slot j).loadHeld = none) →
        ∃ t, exec (.faultResumeAbort r) s = .next t ∧ t.recState r = 2 ∧ t.walks = []
          ∧ ∃ d ∈ (t.queue w.q).done, d.entry = c.entry ∧ d.status = 1 ∧ d.detail = r)
      ∧ (s.recState r = 2 → s.recHeld r = false → ∃ t, exec (.faultRecordFree r) s = .next t ∧ t.reg (Reg.XLT_REC r) = 0
        ∧ t.reg (Reg.XLT_RECENG r) = 0 ∧ { t with regs := s.regs, slots := s.slots, walks := s.walks, walkTurn := s.walkTurn } = s
        ∧ (∀ j, { t.slot j with loadSlot := (s.slot j).loadSlot } = s.slot j)
        ∧ SameRegs [Reg.XLT_REC r, Reg.XLT_RECENG r, Reg.XLT_STATUS] s t)
      ∧ ∀ v, ∃ t, exec (.fqBaseWrite v) s = .next t ∧ t.fqTail = 0 ∧ t.fqPhase = true ∧ t.rd F.XLT_FQ_BASE_BASE = bits v.toNat 45 11
        ∧ SameRegs [Reg.XLT_FQ_BASE] s t ∧ { t with regs := s.regs, fqTail := s.fqTail, fqPhase := s.fqPhase } = s)

/-- A shootdown is accepted while fewer than 8 wait, for a range inside the space of an enabled context, and refused with its reason otherwise (R500); it
ends in order, after the lap of its acceptance, with its token, its lap and the count (R501, R502); at the laps of its period, once each, a decay halves
the counts of its die's tracker (R506). -/
def Obligations.Shootdowns : Prop :=
  ∀ (s : State) (v : Word), s.stopped = false →
    let ctx := s.rd F.XLT_SD_ADDR_CTX
    let va := s.rd F.XLT_SD_ADDR_VA
    let pages := bits v.toNat 35 0 + 1
    (s.sds.length < 8 → va + pages ≤ 2 ^ 36 → s.ctxOn ctx = true → ∃ t a b, exec (.shootdownCmd v) s = .next t
      ∧ t.sds = s.sds ++ [⟨bits v.toNat 62 48, bit v.toNat 63, ctx, va, pages, a, b, s.now⟩] ∧ t.rd F.XLT_SD_STAT_RESULT = 0
      ∧ t.rd F.XLT_SD_STAT_QUEUED = s.sds.length + 1 ∧ ∀ x ∈ t.tracker, ¬(x.ctx = ctx ∧ va ≤ x.vpage ∧ x.vpage < va + pages))
    ∧ (8 ≤ s.sds.length → exec (.shootdownCmd v) s = .next (s.wr F.XLT_SD_STAT_RESULT 1))
    ∧ (s.sds.length < 8 → 2 ^ 36 < va + pages → exec (.shootdownCmd v) s = .next (s.wr F.XLT_SD_STAT_RESULT 2))
    ∧ (s.sds.length < 8 → va + pages ≤ 2 ^ 36 → s.ctxOn ctx = false → exec (.shootdownCmd v) s = .next (s.wr F.XLT_SD_STAT_RESULT 3))
    ∧ (∀ d ds n, s.sds = d :: ds → ds.length < 8 → d.since < s.now → d.notify = false → ∃ t, exec (.shootdownComplete n) s = .next t ∧ t.sds = ds
      ∧ t.rd F.XLT_SD_STAT_DONE_TOKEN = d.token % 2 ^ 15 ∧ t.rd F.XLT_SD_LAP_LAP = s.now ∧ t.rd F.XLT_SD_STAT_QUEUED = ds.length
      ∧ t.rd F.XLT_SD_STAT_COUNT = min (s.rd F.XLT_SD_STAT_COUNT + 1) 65535 ∧ { t with regs := s.regs, sds := s.sds } = s
      ∧ SameRegs [Reg.XLT_STATUS, Reg.XLT_SD_STAT, Reg.XLT_SD_LAP] s t)
    ∧ ∀ h, (s.now % (4096 * 2 ^ s.rd (F.XLT_TRK_DECAY h)) = 0 → sget (fun _ => 0) s.decayed h ≠ s.now + 1 →
        ∃ t, exec (.trackerDecay h) s = .next t ∧ t.tracker.map (·.count) = s.tracker.map (fun x => if x.h = h then x.count / 2 else x.count)
        ∧ t.tracker.map (·.frame) = s.tracker.map (·.frame) ∧ sget (fun _ => 0) t.decayed h = s.now + 1
        ∧ { t with tracker := s.tracker, decayed := s.decayed } = s)
      ∧ (s.now % (4096 * 2 ^ s.rd (F.XLT_TRK_DECAY h)) ≠ 0 → exec (.trackerDecay h) s = .next s)

/-- Before the fabric starts a laser module shows itself and nothing more; when a serving one is pulled, its ports leave UP (R385, R386, R769). Training
goes stage by stage: from DOWN it begins, at IDENTIFY the port sends who it is, the identity that the wiring rules expect leads to READY and another
back to DOWN, and READY to UP; a retrain ends in READY; a third time-out in a row is recorded as cause 4; a port whose attempt failed tries again
(R394, R409 to R412). -/
def Obligations.PortTraining : Prop :=
  ∀ s : State,
    (∀ (d : Nat) (inserted latched fault : Bool) (okMask temp power : Nat), d < 4 →
      (s.fabricOn = false → (s.rd (F.ACM_LASER_PRESENT d) = 1 → inserted = true ∧ latched = true) →
        (fault = true → s.rd (F.ACM_LASER_FAULT d) = 1) → ∃ t, exec (.laserStatusChange d inserted latched fault okMask temp power) s = .next t
          ∧ t.rd (F.ACM_LASER_PRESENT d) = b2n (inserted && latched) ∧ t.rd (F.ACM_LASER_READY d) = 0
          ∧ t.rd (F.ACM_LASER_FAULT d) = b2n fault ∧ t.rd (F.ACM_LASER_OK d) = okMask % 256 ∧ t.rd (F.ACM_LASER_TEMP d) = temp % 256
          ∧ OnlyRegs [Reg.ACM_LASER d, Reg.STR_PINS] s t)
      ∧ (s.fabricOn = true → s.rd (F.ACM_LASER_PRESENT d) = 1 → ∃ t, exec (.laserStatusChange d false latched fault okMask temp power) s = .next t
          ∧ t.rd (F.ACM_LASER_PRESENT d) = 0 ∧ t.rd (F.ACM_LASER_READY d) = 0 ∧ ∀ k, k < 13 → s.portState (13 * d + k) = 7 → t.portState (13 * d + k) = 1))
    ∧ ∀ p, p < 52 → s.fabricOn = true → s.rd (F.ACM_LASER_READY (p / 13)) = 1 →
      (∀ peer : PeerId,
        (∀ x ∈ [(1, 2), (2, 3), (3, 4), (8, 6)], s.portState p = x.1 → (s.port p).retry = false → ∃ t, exec (.portTrainStageDone p peer) s = .next t
          ∧ t.portState p = x.2 ∧ t.mem = s.mem ∧ t.out = s.out)
        ∧ (s.portState p = 4 → ∃ t, exec (.portTrainStageDone p peer) s = .next t ∧ t.portState p = 5 ∧ t.mem = s.mem
          ∧ t.out = s.out ++ [.identify p (s.rd F.ACM_CFG_FI) p (s.rd (F.ACM_PORT_STAT_ROLE p)) (s.rd F.ACM_CFG_PODS)])
        ∧ (s.portState p = 5 → s.expectedPeer p = some (peer.fi, peer.port) → peer.role = s.rd (F.ACM_PORT_STAT_ROLE p) →
          peer.pods = s.rd F.ACM_CFG_PODS → s.linkStale p = true → ∃ t, exec (.portTrainStageDone p peer) s = .next t ∧ t.portState p = 6 ∧ t.rd (F.ACM_PORT_STAT_PEER_FI p) = peer.fi % 8192
            ∧ t.rd (F.ACM_PORT_STAT_PEER_PORT p) = peer.port % 64 ∧ (t.port p).rx = 0 ∧ (t.port p).tx = 0 ∧ (t.port p).replay = [] ∧ t.mem = s.mem)
        ∧ (s.portState p = 5 → s.expectedPeer p ≠ some (peer.fi, peer.port) ∨ peer.role ≠ s.rd (F.ACM_PORT_STAT_ROLE p)
          ∨ peer.pods ≠ s.rd F.ACM_CFG_PODS → ∃ t, exec (.portTrainStageDone p peer) s = .next t
          ∧ t.portState p = 1 ∧ t.rd (F.ACM_PORT_CNT_MISMATCH p) = min (s.rd (F.ACM_PORT_CNT_MISMATCH p) + 1) 255)
        ∧ (s.portState p = 6 → ∃ t, exec (.portTrainStageDone p peer) s = .next t ∧ t.portState p = 7 ∧ (t.port p).left = none))
      ∧ (2 ≤ s.portState p → s.portState p ≤ 6 → (s.port p).retraining = false →
        ((s.port p).tries ≠ 2 → ∃ t, exec (.portTrainTimeout p) s = .next t ∧ t.portState p = 1 ∧ (t.port p).tries = (s.port p).tries + 1
          ∧ t.mem = s.mem)
        ∧ ((s.port p).tries = 2 → ∃ t, exec (.portTrainTimeout p) s = .next t ∧ t.portState p = 1 ∧ t.rd (F.ACM_PORT_STAT_CAUSE p) = 4
          ∧ t.rd (F.ACM_PORT_CNT_DOWN p) = min (s.rd (F.ACM_PORT_CNT_DOWN p) + 1) 255))
      ∧ (s.portState p = 1 → (s.port p).retry = true → (s.expectedPeer p).isSome = true → ∃ t, exec (.portRetry p) s = .next t
        ∧ t.portState p = 2 ∧ t.mem = s.mem)

/-- A retrain takes an UP port into RETRAIN and is counted; a diagnosis beyond the port takes it DOWN with cause 2, of its own engine to FAILED with cause
1 while a reserve engine is free, and one after a swap DOWN with cause 5; the reserve takes over at a later mark; what a port's replay held is discarded
1,024 laps after it left UP (R411, R413 to R417). A flit in sequence is acknowledged and its credit returned; one with a bad CRC or out of sequence is
asked for again, and the eighth time in a row the port retrains (R402, R403, R406, R411). A peer write inside its window is performed and acknowledged,
any other refused with PEER_WRITE_REJECTED (R419, R420). -/
def Obligations.LinksAndPeers : Prop :=
  ∀ s : State,
    let control (y : Flit) (ack nak vc cls n : Nat) : Prop := y.crcOk = true ∧ y.f 95 92 = 5 ∧ y.f 75 64 = ack % 4096 ∧ y.f 63 63 = nak
      ∧ y.f 62 61 = vc ∧ y.f 60 58 = cls ∧ y.f 57 52 = n
    (∀ p, p < 52 →
      (∀ why, s.portUp p = true → (why = .nakRun → (s.port p).nakRun = true) → ∃ t, exec (.portRetrain p why) s = .next t ∧ t.portState p = 8
        ∧ t.rd (F.ACM_PORT_CNT_RETRAIN p) = min (s.rd (F.ACM_PORT_CNT_RETRAIN p) + 1) 255)
      ∧ (s.portState p ∉ [0, 9, 10, 11] → (s.port p).swapFrom.isSome = true → ∀ fault, ∃ t, exec (.portDiagnosis p fault) s = .next t
        ∧ t.portState p = 1 ∧ t.rd (F.ACM_PORT_STAT_CAUSE p) = 5)
      ∧ (s.portState p ∉ [0, 9, 10, 11] → (s.port p).swapFrom = none →
        (∃ t, exec (.portDiagnosis p .beyond) s = .next t ∧ t.portState p = 1 ∧ t.rd (F.ACM_PORT_STAT_CAUSE p) = 2)
        ∧ ((s.swapWaiters (p / 13)).length < (s.freeReserves (p / 13)).length → ∃ t, exec (.portDiagnosis p .localEngine) s = .next t
          ∧ t.portState p = 9 ∧ t.rd (F.ACM_PORT_STAT_CAUSE p) = 1 ∧ (t.port p).swapWait = some s.now))
      ∧ (∀ l, (s.port p).left = some l → s.portUp p = false → l + 1024 ≤ s.now → ∃ t, exec (.replayStateDiscard p) s = .next t
        ∧ t.port p = { s.port p with rx := 0, tx := 0, replay := [], credits := [], queue := [], busy := [], via := [] }
        ∧ { t with ports := s.ports, out := s.out } = s)
      ∧ ∀ x : Flit, s.portUp p = true → ((s.port p).naks = 7 → x.crcOk = false → ∃ t, exec (.flitReceive p x) s = .next t ∧ t.portState p = 8)
        ∧ ((s.port p).naks < 7 → (s.port p).nakIn.2 < 8 → (s.port p).queue = [] →
        (x.crcOk = false → ∃ t y, exec (.flitReceive p x) s = .next t ∧ t.out = s.out ++ [.flit p y] ∧ control y (s.port p).rx 1 0 0 0 ∧ t.mem = s.mem
          ∧ t.rd (F.ACM_PORT_CNT_CRC_ERR p) = min (s.rd (F.ACM_PORT_CNT_CRC_ERR p) + 1) 65535)
        ∧ (x.crcOk = true → x.f 63 63 = 0 → x.f 57 52 = 0 → 1 ≤ x.f 95 92 → x.f 95 92 < 5 →
          (x.f 87 76 ≠ (s.port p).rx → ∃ t y, exec (.flitReceive p x) s = .next t ∧ t.out = s.out ++ [.flit p y] ∧ control y (s.port p).rx 1 0 0 0
            ∧ (t.port p).rx = (s.port p).rx ∧ t.mem = s.mem)
          ∧ (x.f 87 76 = (s.port p).rx → x.f 51 39 = s.rd F.ACM_CFG_FI → s.stopped = false → ∃ t y z, exec (.flitReceive p x) s = .next t
            ∧ t.out = s.out ++ [.flit p y, .flit p z] ∧ control y ((s.port p).rx + 1) 0 0 0 0
            ∧ control z ((s.port p).rx + 1) 0 (x.f 91 90) x.bufferClass 1
            ∧ (t.port p).rx = ((s.port p).rx + 1) % 4096 ∧ t.mem = s.mem
            ∧ let old := (x.f 75 64 + 4096 - (((s.port p).replay.head?.map (fun r => r.f 87 76)).getD (x.f 75 64))) % 4096
              (t.port p).replay = if old ≤ (s.port p).replay.length then (s.port p).replay.drop old else (s.port p).replay))))
    ∧ (∀ d p r rs l, d < 4 → s.swapWaiters d = [p] → (s.port p).swapWait = some l → l < s.now → s.freeReserves d = r :: rs → s.portState p = 9 → ∃ t, exec (.reserveEngineSwap d) s = .next t
      ∧ t.portState p = 8 ∧ t.rd (F.ACM_PORT_STAT_ENGINE p) = r % 13 ∧ t.rd (F.ACM_PORT_STAT_SWAPPED p) = 1 ∧ t.portState r = 0
      ∧ (t.port p).swapWait = none ∧ t.mem = s.mem)
    ∧ ∀ (srcFi job a len tag : Nat) (hdr : BitVec 128) (data : List Byte), s.stopped = false → bits hdr.toNat 127 120 = 0x50 →
      bits hdr.toNat 119 108 = job → bits hdr.toNat 107 62 = a → bits hdr.toNat 61 45 = len → bits hdr.toNat 31 0 = tag → len ≠ 0 → len ≤ 65536 →
      data.length = len →
      let inside (j : Nat) : Prop := 2 ^ 21 * s.rd (F.ACM_PEERWIN_BASE j) ≤ a
        ∧ a + len ≤ 2 ^ 21 * s.rd (F.ACM_PEERWIN_BASE j) + 2 ^ 30 * s.rd (F.ACM_PEERWIN_SIZE j)
      (∀ j, s.slotOfJob job = some j → inside j → HomeServes s (linesOf a len) →
        ∃ u : State, exec (.peerWriteReceive srcFi hdr data) s = .next (u.sendAck srcFi tag true) ∧ u.memBytes a len = data ∧ u.out = s.out
          ∧ u.queues = s.queues ∧ ∀ b, b < a ∨ a + len ≤ b → u.memByte b = s.memByte b)
      ∧ ((∀ j, s.slotOfJob job = some j → ¬inside j) → ∃ e, exec (.peerWriteReceive srcFi hdr data) s = .next ((s.emit e).sendAck srcFi tag false)
        ∧ e.sev = 1 ∧ e.code = 0x0808 ∧ bits e.payload 11 0 = job ∧ bits e.payload 71 26 = a)

/-- A home serves a request of host origin to a SHARED page by the line's directory: UNCACHED grants E, SHARED grants S or snoops the others, OWNED snoops
the owner, and a device's whole-line write stands in memory (R435, R448, R449); one to a DEVICE page is held (R457). The answers that a home waits
for: RspI corrects the entry and the request is served again, RspS leaves a sharer, RspFwd closes the request of a line that the owner forwarded,
RspWbPend waits for the owner's WbData where that is still under way, and WbData from the owner stands in memory (R434 to R437). -/
def Obligations.Homes : Prop :=
  (∀ (s : State) (m : CrMsg) (h a b : Nat), s.stopped = false → homeOf (64 * m.addr) = some h → agentOf m.src = some a → b < 2 → b ≠ a →
      m.host = true → m.spec = false → s.txns = [] → s.gone = [] → s.eccErrs = [] → s.hdAway.contains h = false → NoneWaits s →
      let d := s.dir m.addr
      let op (r : CrMsg) (code dst : Nat) : Prop := r.op = code ∧ r.dst = dst ∧ r.txn = m.txn ∧ r.addr = m.addr
      let answers (t : State) (code st : Nat) (v : Line) (e : DirSt) : Prop := t.txns = [] ∧ t.dir m.addr = e
        ∧ ∃ r : CrMsg, t.out = s.out ++ [.crimon r] ∧ op r code m.src ∧ r.state = st ∧ r.data = v
      let snoops (t : State) (code : Nat) (fwd : Bool) : Prop :=
        t.txns = [⟨h, m.addr, m.op, m.src, m.txn, true, false, m.data, 2, [b]⟩] ∧ t.dir m.addr = d
          ∧ ∃ r : CrMsg, t.out = s.out ++ [.crimon r] ∧ op r code (agentSrc b) ∧ r.fwd = fwd ∧ r.reqr = m.src
      (s.lineBias m.addr = 0 →
        (m.cls = 0 → m.op = 1 → ∃ t, exec (.rdshr m) s = .next t
          ∧ (d = ⟨none, []⟩ → answers t 0x30 2 (s.rawLine m.addr) ⟨some a, []⟩)
          ∧ (d = ⟨none, [b]⟩ → answers t 0x30 1 (s.rawLine m.addr) ⟨none, [b, a]⟩)
          ∧ (d = ⟨some b, []⟩ → snoops t 0x10 false))
        ∧ (m.cls = 0 → m.op = 2 → ∃ t, exec (.rdown m) s = .next t
          ∧ (d = ⟨none, []⟩ → answers t 0x30 2 (s.rawLine m.addr) ⟨some a, []⟩)
          ∧ (d = ⟨none, [b]⟩ → snoops t 0x11 false)
          ∧ (d = ⟨some b, []⟩ → snoops t 0x11 true))
        ∧ (m.cls = 0 → m.op = 3 → ∃ t, exec (.upgr m) s = .next t
          ∧ (d = ⟨none, [a]⟩ → answers t 0x28 2 0 ⟨some a, []⟩)
          ∧ (d = ⟨none, []⟩ → answers t 0x30 2 (s.rawLine m.addr) ⟨some a, []⟩))
        ∧ (m.cls = 0 → m.op = 4 → ∃ t, exec (.rdna m) s = .next t
          ∧ (d.owner = none → answers t 0x30 0 (s.rawLine m.addr) d)
          ∧ (d = ⟨some b, []⟩ → snoops t 0x12 false))
        ∧ (m.cls = 3 → m.op = 0x33 → d = ⟨none, []⟩ → ∃ t, exec (.wrinvfull m) s = .next t ∧ answers t 0x28 0 0 ⟨none, []⟩
          ∧ t.rawLine m.addr = m.data))
      ∧ (s.lineBias m.addr = 1 → m.cls = 0 → m.op = 1 → ∃ t, exec (.rdshr m) s = .next t ∧ t.out = s.out ∧ t.mem = s.mem
        ∧ t.txns = [⟨h, m.addr, 1, m.src, m.txn, true, false, m.data, 1, []⟩]))
  ∧ (∀ (s : State) (m : CrMsg) (h a r ns : Nat) (t : Txn), s.stopped = false → homeOf (64 * m.addr) = some h → agentOf m.src = some a → ns ≤ 96 →
      agentOf t.src = some r → r ≠ a → t.home = h → t.line = m.addr → t.op = 1 → t.host = true → t.spec = false → t.txn < 4096 →
      s.lineBias m.addr = 0 → s.gone = [] → s.eccErrs = [] → NoneWaits s →
      let data (u : State) (st : Nat) (v : Line) : Prop := u.txns = []
        ∧ ∃ d : CrMsg, u.out = s.out ++ [.crimon d] ∧ d.op = 0x30 ∧ d.dst = t.src ∧ d.txn = t.txn ∧ d.state = st ∧ d.data = v
      (m.cls = 2 → m.reqr = t.src → m.txn = t.txn → s.txns = [{ t with st := 2, await := [a] }] → s.dir m.addr = ⟨some a, []⟩ →
        (m.op = 0x20 → ∃ u, exec (.rspi m ns) s = .next u ∧ u.dir m.addr = ⟨some r, []⟩ ∧ data u 2 (s.rawLine m.addr))
        ∧ (m.op = 0x21 → ∃ u, exec (.rsps m ns) s = .next u ∧ u.dir m.addr = ⟨none, [a, r]⟩ ∧ data u 1 (s.rawLine m.addr))
        ∧ (m.op = 0x22 → s.wbs = [] → ∃ u, exec (.rspfwd m ns) s = .next u ∧ u.dir m.addr = ⟨none, [a, r]⟩ ∧ u.txns = [] ∧ u.out = s.out)
        ∧ (∀ v, m.op = 0x23 → s.wbs = [(a, m.addr, v)] → ∃ u, exec (.rspwbpend m ns) s = .next u ∧ u.txns = [{ t with st := 4, await := [a] }]
          ∧ u.out = s.out ∧ u.mem = s.mem)
        ∧ (m.op = 0x23 → s.wbs = [] → ∃ u, exec (.rspwbpend m ns) s = .next u ∧ u.dir m.addr = ⟨some r, []⟩ ∧ data u 2 (s.rawLine m.addr)))
      ∧ (m.cls = 3 → m.op = 0x32 → (s.dir m.addr).owner = some a →
        (s.txns = [] → ∃ u, exec (.wbdata m) s = .next u ∧ u.rawLine m.addr = m.data ∧ u.dir m.addr = ⟨none, []⟩ ∧ u.out = s.out)
        ∧ (s.txns = [{ t with st := 4, await := [a] }] → s.dir m.addr = ⟨some a, []⟩ → ∃ u, exec (.wbdata m) s = .next u
          ∧ u.dir m.addr = ⟨some r, []⟩ ∧ data u 2 m.data)))

/-- A caching agent answers a snoop by the line's state: RspI where it holds none; from S RspS or RspI; from E and M it forwards the line to the requester
and, where that leaves M, writes it back (R434); a snoop within a tenure is held and answered at its end (R439). -/
def Obligations.AgentSnoops : Prop :=
  ∀ (s : State) (m : CrMsg) (a : Nat), s.stopped = false → agentOf m.dst = some a → m.cls = 1 → s.wbs = [] → s.reqs = [] → NoneWaits s →
    let line := m.addr
    let sends (t : State) (ops : List Nat) (d : Line) : Prop := ∃ rs : List CrMsg, t.out = s.out ++ rs.map Out.crimon ∧ rs.map CrMsg.op = ops
      ∧ (∀ r ∈ rs, r.txn = m.txn ∧ r.addr = line ∧ r.dst = (if r.op = 0x31 then m.reqr else m.src)) ∧ (∀ r ∈ rs, r.op = 0x31 → r.data = d)
      ∧ (∀ r ∈ rs, r.op = 0x32 → r.data = d)
    let snps := [(Instr.snpshr m, 0x10), (.snpinv m, 0x11), (.snpcur m, 0x12), (.snpflush m, 0x13)]
    (s.tenures = [] →
      (∀ i ∈ snps, m.op = i.2 → s.held a line = none → ∃ t, exec i.1 s = .next t ∧ sends t [0x20] 0 ∧ t.lines = s.lines ∧ t.mem = s.mem)
      ∧ ∀ c, s.held a line = some c → 1 ≤ c.st → c.st ≤ 3 →
        (m.op = 0x10 → ∃ t, exec (.snpshr m) s = .next t ∧ sends t (if c.st = 1 then [0x21] else if c.st = 2 then [0x31, 0x22] else [0x31, 0x32, 0x22]) c.data
          ∧ t.held a line = some { c with st := 1 } ∧ t.wbs = (if c.st = 3 then [(a, line, c.data)] else []))
        ∧ (m.op = 0x11 → ∃ t, exec (.snpinv m) s = .next t ∧ sends t (if m.fwd = true ∧ 2 ≤ c.st then [0x31, 0x22] else [0x20]) c.data
          ∧ t.held a line = none ∧ t.wbs = [])
        ∧ (m.op = 0x12 → ∃ t, exec (.snpcur m) s = .next t ∧ sends t (if c.st = 1 then [0x21] else [0x31, 0x22]) c.data ∧ t.lines = s.lines)
        ∧ (m.op = 0x13 → ∃ t, exec (.snpflush m) s = .next t ∧ sends t (if c.st = 3 then [0x32, 0x20] else [0x20]) c.data
          ∧ t.held a line = none ∧ t.wbs = (if c.st = 3 then [(a, line, c.data)] else [])))
    ∧ (s.tenures = [(a, line)] →
      (m.op = 0x11 → exec (.snpinv m) s = .next { s with heldSnps := s.heldSnps ++ [(a, m)] })
      ∧ (s.heldSnps = [(a, m)] → s.held a line = none → s.txns = [] → ∃ t, exec (.tenureEnd a line) s = .next t ∧ t.tenures = [] ∧ t.heldSnps = []
        ∧ sends t [0x20] 0))

/-- A core's access hits in its die's cache, silently making E an M line, or becomes the request of R434, under a TXN that no open transaction of the agent
has and with a place for its line: RdShr, RdOwn, Upgr, RdNA or a write (R429, R432, R434); while a request for the line is open it waits; an address that
is not populated faults (R446, R477). An evicted M line is written back (R434). -/
def Obligations.HostAccesses : Prop :=
  ∀ (s : State) (core addr width : Nat) (data : Line), s.coreRuns core = true → (addr < windowBase ∨ windowBase + 2 ^ 28 ≤ addr) →
    let a := core / 72
    let line := addr / 64
    let asks (t : State) (op h store : Nat) : Prop := ∃ (r : CrMsg) (q : Req), t.out = s.out ++ [.crimon r] ∧ r.op = op ∧ r.src = agentSrc a
      ∧ r.dst = homeSrc h ∧ r.addr = line ∧ s.freeTxn a = some r.txn ∧ q.txn = r.txn ∧ t.reqs = s.reqs ++ [q] ∧ q.op = op ∧ q.core = core ∧ q.line = line ∧ q.store = store
      ∧ t.lines = s.lines ∧ t.mem = s.mem
    (s.lineWaits a line = true → s.hostBars addr = none →
      exec (.hostLoad core addr width .load .uncached) s = .next { s with
          hostWaits := s.hostWaits ++ [(s.wrNo, .hostLoad core addr width .load .uncached)] }
      ∧ exec (.hostStore core addr width data .uncached false) s = .next { s with
          wrNo := s.wrNo + 1
          hostWaits := s.hostWaits ++ [(s.wrNo, .hostStore core addr width data .uncached false)] })
    ∧ (∀ h n, homeOf addr = some h → inBiasTable addr = false → s.hdAway.contains h = false → s.lineWaits a line = false → s.freeTxn a = some n →
      s.placeFree a = true →
      (∀ c, s.held a line = some c →
        exec (.hostLoad core addr width .load .cached) s = .next { s.useL2 core line false with out := s.out ++ [.coreData core c.data] }
        ∧ (2 ≤ c.st → ∃ t, exec (.hostStore core addr width data .cached false) s = .next t
          ∧ t.held a line = some ⟨a, line, 3, mergeLine c.data data (addr % 64) width⟩
          ∧ { t with lines := s.lines, l2 := s.l2, wrNo := s.wrNo } = s)
        ∧ (c.st = 1 → ∃ t, exec (.hostStore core addr width data .cached false) s = .next t ∧ asks t 3 h 1))
      ∧ (s.held a line = none → (∃ t, exec (.hostLoad core addr width .load .cached) s = .next t ∧ asks t 1 h 0)
        ∧ ∃ t, exec (.hostStore core addr width data .cached false) s = .next t ∧ asks t 2 h 1)
      ∧ (∃ t, exec (.hostLoad core addr width .load .uncached) s = .next t ∧ asks t 4 h 0)
      ∧ ∃ t, exec (.hostStore core addr width data .uncached false) s = .next t ∧ asks t (if addr % 64 = 0 ∧ width = 64 then 0x33 else 2) h 2)
    ∧ (homeOf addr = none → exec (.hostLoad core addr width .load .cached) s = .next { s with out := s.out ++ [.coreFault core 5] }
      ∧ exec (.hostStore core addr width data .cached false) s = .next { s with wrNo := s.wrNo + 1, out := s.out ++ [.coreFault core 7] })
    ∧ ∀ c n, s.held a line = some c → s.freeTxn a = some n → (a, line) ∉ s.tenures → NoneWaits s → ∃ t, exec (.hostEvict a line) s = .next t ∧ t.held a line = none ∧ t.mem = s.mem
      ∧ (c.st = 3 → t.wbs = s.wbs ++ [(a, line, c.data)] ∧ ∃ r : CrMsg, t.out = s.out ++ [.crimon r] ∧ r.op = 0x32 ∧ r.addr = line % 2 ^ 40
        ∧ r.data = c.data)
      ∧ (c.st ≠ 3 → t.wbs = s.wbs ∧ t.out = s.out)

/-- What returns to a caching agent: a fill enters the cache in the state granted and the access that waited retires within the tenure, Cmp makes an
Upgr's line M, CmpFault is an access fault at the core, and RegData its register's value (R432, R439, R440, R445, R460). A credit is counted (R428), a
doorbell is its queue's tail (R446, R521), and a Withdraw is in force from its receipt at the home (R467). -/
def Obligations.AgentFills : Prop :=
  ∀ (s : State) (m : CrMsg) (a : Nat) (q : Req), s.stopped = false →
    (agentOf m.dst = some a → m.host = true → s.coresOff a = false → s.txns = [] → NoneWaits s → s.reqs = [q] → q.agent = a → q.txn = m.txn → q.line = m.addr →
      let loaded (t : State) : Prop := t.held a m.addr = some ⟨a, m.addr, m.state, m.data⟩ ∧ t.reqs = [] ∧ (a, m.addr) ∈ t.tenures
        ∧ t.out = s.out ++ [.coreData q.core m.data] ∧ t.mem = s.mem
      let stored (t : State) : Prop := t.held a m.addr = some ⟨a, m.addr, 3, mergeLine m.data q.data (q.addr % 64) q.width⟩ ∧ t.reqs = []
        ∧ (a, m.addr) ∈ t.tenures ∧ t.out = s.out ∧ t.mem = s.mem
      (m.op = 0x30 → m.cls = 3 → m.state ≠ 0 →
        (q.op = 1 → q.store = 0 → q.kind = .load → ∃ t, exec (.data m) s = .next t ∧ loaded t)
        ∧ (q.op = 2 → q.store = 1 → ∃ t, exec (.data m) s = .next t ∧ stored t))
      ∧ (m.op = 0x31 → m.cls = 3 → m.state ≠ 0 →
        (q.op = 1 → q.store = 0 → q.kind = .load → ∃ t, exec (.fwddata m) s = .next t ∧ loaded t)
        ∧ (q.op = 2 → q.store = 1 → ∃ t, exec (.fwddata m) s = .next t ∧ stored t))
      ∧ (∀ c, m.op = 0x28 → m.cls = 2 → q.op = 3 → s.held a m.addr = some c →
        (q.stale = false → ∃ t, exec (.cmp m) s = .next t ∧ t.reqs = []
          ∧ t.held a m.addr = some ⟨a, m.addr, 3, mergeLine c.data q.data (q.addr % 64) q.width⟩ ∧ t.mem = s.mem)
        ∧ (q.stale = true → ∃ t r, exec (.cmp m) s = .next t ∧ t.out = s.out ++ [.crimon r] ∧ r.op = 3 ∧ r.txn = q.txn
          ∧ t.held a m.addr = some c ∧ t.mem = s.mem))
      ∧ (m.op = 0x29 → m.cls = 2 → q.store ≠ 3 → exec (.cmpfault m) s = .next { s with
          reqs := []
          out := s.out ++ [.coreFault q.core (if q.store ≠ 0 then 7 else if q.kind = .fetch then 1 else 5)] })
      ∧ (m.op = 0x2A → m.cls = 2 → q.op = 5 → exec (.regdata m) s = .next { s with
          reqs := []
          out := s.out ++ [.coreData q.core m.data] }))
    ∧ (m.op = 0x2B → m.cls = 2 →
      let n := sget (fun _ => 0) s.credits (65536 * m.src + m.dst) + 1
      (n ≤ s.sentTo m.dst m.src → ∃ t, exec (.credit m) s = .next t ∧ { t with credits := s.credits } = s
        ∧ sget (fun _ => 0) t.credits (65536 * m.src + m.dst) = n)
      ∧ (agentOf m.dst = some a → s.sentTo m.dst m.src < n → exec (.credit m) s = .next (s.stopDetect 3 6 m.src 0)))
    ∧ (m.op = 7 → m.cls = 0 → m.addr < 256 → s.rd (F.CPE_QRING_EN m.addr) = 1 → m.word.toNat % 65536 < s.qSize m.addr →
      ∃ t, exec (.doorbell m) s = .next t ∧ t.queue m.addr = { s.queue m.addr with tail := m.word.toNat % 65536 } ∧ t.mem = s.mem ∧ t.out = s.out)
    ∧ (m.op = 8 → m.cls = 0 → agentOf m.src = some a → s.txns = [] → NoneWaits s → s.rd (F.CRM_AGENT_STATE a) ≠ 0 → ∃ t, exec (.withdraw m) s = .next t ∧ (m.dst / 2048, a) ∈ t.gone
      ∧ ((∀ h, h < 10 → h ≠ m.dst / 2048 → (h, a) ∈ s.gone) → t.rd (F.CRM_AGENT_STATE a) = 2) ∧ t.mem = s.mem ∧ t.out = s.out)

/-- A bias command is refused while one is in progress, across homes, or for DEVICE_LOCKED without LOCK_EN; an accepted one ends with the bias of every
page set, once no host copy and no device write is left (R454 to R456). A held access flips its page to SHARED and is served (R457, R458). A die link takes the next flit in order and asks
for a replay after any other; a retrain spends a spare of its direction for each failed lane, ends UP with LINK_RETRAIN, and fails where there is none
(R463 to R466). -/
def Obligations.BiasAndLinks : Prop :=
  ∀ s : State,
    (∀ v : Word, s.stopped = false →
      let b := bits v.toNat 63 62
      let n := bits v.toNat 61 53
      let f := bits v.toNat 45 12
      (s.rd F.CRM_BIAS_STAT_BUSY = 1 → exec (.biasCmd v) s = .next (s.wr F.CRM_BIAS_STAT_RESULT 2))
      ∧ (s.rd F.CRM_BIAS_STAT_BUSY = 0 →
        (homeOf (4096 * f) ≠ homeOf (4096 * (f + n)) → exec (.biasCmd v) s = .next (s.wr F.CRM_BIAS_STAT_RESULT 1))
        ∧ ∀ h, homeOf (4096 * f) = some h → homeOf (4096 * (f + n)) = some h →
          (b = 2 → s.rd F.CRM_CFG_LOCK_EN = 0 → exec (.biasCmd v) s = .next (s.wr F.CRM_BIAS_STAT_RESULT 3))
          ∧ (b ≠ 3 → (b = 2 → s.rd F.CRM_CFG_LOCK_EN = 1) → ∃ t, exec (.biasCmd v) s = .next t ∧ t.biasCmd = some ⟨b, f, n, []⟩
            ∧ t.rd F.CRM_BIAS_STAT_BUSY = 1 ∧ t.rd F.CRM_BIAS_STAT_RESULT = 0 ∧ t.bias = s.bias ∧ SameRegs [Reg.CRM_BIAS_STAT] s t)))
    ∧ (∀ b ns, s.stopped = false → s.biasCmd = some b → b.undone = [] → b.count < 512 → s.txns = [] → s.memQ = [] → s.lines = [] → s.dirs = [] → s.flushes = [] → s.wbs = [] → s.reqs = [] →
      ∃ u e, exec (.biasCmdDone ns) s = .next (State.emit u e)
      ∧ e.sev = 0 ∧ e.code = 0x0406 ∧ bits e.payload 12 3 = b.count + 1 ∧ u.biasCmd = none ∧ u.rd F.CRM_BIAS_STAT_BUSY = 0
      ∧ u.rd F.CRM_BIAS_STAT_DONE = b.count + 1 ∧ ∀ f, sget (fun _ => 0) u.bias f = (if b.frame ≤ f ∧ f ≤ b.frame + b.count then b.bias
        else sget (fun _ => 0) s.bias f))
    ∧ (∀ (t : Txn) (a h frame ns : Nat), s.stopped = false → s.txns = [t] → t.home = h → h < 10 → t.st = 1 → t.line / 64 = frame → t.op = 1 →
      t.host = true → agentOf t.src = some a → s.dir t.line = ⟨none, []⟩ → MemSound s → NoneWaits s → ∃ u, exec (.biasFlip h frame ns) s = .next u
        ∧ sget (fun _ => 0) u.bias frame = 0 ∧ u.txns = [] ∧ u.dir t.line = ⟨some a, []⟩
        ∧ u.rd (F.CRM_HOME_FLIPS h) = min (s.rd (F.CRM_HOME_FLIPS h) + 1) 65535)
    ∧ ∀ l, l < 26 →
      (∀ seq ok, s.rd (F.CRM_LINK_STATE l) = 0 → ∃ t, exec (.dieFlitReceive l seq ok) s = .next t
        ∧ (ok = true ∧ seq = sget (fun _ => 0) s.linkSeq l → sget (fun _ => 0) t.linkSeq l = (seq + 1) % 4096 ∧ { t with linkSeq := s.linkSeq } = s)
        ∧ (¬(ok = true ∧ seq = sget (fun _ => 0) s.linkSeq l) → SameRegs [Reg.CRM_LINK l] s t
          ∧ t.out = s.out ++ [.dieReplay l (sget (fun _ => 0) s.linkSeq l)] ∧ { t with regs := s.regs, out := s.out } = s
          ∧ t.rd (F.CRM_LINK_REPLAYS l) = min (s.rd (F.CRM_LINK_REPLAYS l) + 1) 65535))
      ∧ (∀ why n, s.rd (F.CRM_LINK_STATE l) = 0 → ∃ t, exec (.dieLinkRetrainEnter l why n) s = .next t
        ∧ t.rd (F.CRM_LINK_RETRAINS l) = min (s.rd (F.CRM_LINK_RETRAINS l) + 1) 16383
        ∧ (let used := sget (fun _ => ((0, 0) : Nat × Nat)) s.laneUse l
          let most := max (used.1 + n.1) (used.2 + n.2)
          sget (fun _ => ((0, 0) : Nat × Nat)) t.laneUse l = (used.1 + n.1, used.2 + n.2) ∧ t.rd (F.CRM_LINK_SPARES l) = 2 - most
            ∧ (most ≤ 2 → t.rd (F.CRM_LINK_STATE l) = 1 ∧ t.stop = s.stop) ∧ (2 < most → t.rd (F.CRM_LINK_STATE l) = 2 ∧ t.stopped = true)))
      ∧ ∀ ns k, s.rd (F.CRM_LINK_STATE l) = 1 → ∃ u e, exec (.linkRetrain l ns k) s = .next (State.emit u e) ∧ e.sev = 1 ∧ e.code = 0x0401
        ∧ u.rd (F.CRM_LINK_STATE l) = 0 ∧ u.rd (F.CRM_LINK_LAST_STALL_NS l) = min ns 4095 ∧ u.mem = s.mem
        ∧ SameRegs [Reg.CRM_LINK l, Reg.CRM_STATUS] s u

/-- The domain stops on a message of an unknown OP or in the wrong class, on a snoop without a response in 1 µs, on a failed die link, and on a withdrawal
that has not ended in 1 ms (R443, R466, R468, R469); STOP_N is asserted (R748). When the stop is complete, CRM_STOP holds its cause and detail, every
cluster is HALTED or in FAULT, and every slot is FAULTED, a job that was RUNNING owing a vote (R472, R473). -/
def Obligations.DomainStops : Prop :=
  ∀ s : State,
    let stops (t : State) (cause detail agent line : Nat) : Prop := t.stop = some ⟨cause, detail, agent, line, s.now, false, false⟩ ∧ t.mem = s.mem
      ∧ t.rd F.STR_PINS_STOP = 1
    (s.stopped = false →
      (∀ m : CrMsg, opClass m.op = none → ∃ t, exec (.rdshr m) s = .next t ∧ stops t 3 1 m.src m.addr)
      ∧ (∀ (m : CrMsg) c, opClass m.op = some c → c ≠ m.cls → ∃ t, exec (.data m) s = .next t ∧ stops t 3 2 m.src m.addr)
      ∧ (∀ t line a, s.waiting line a = some t → ∃ u, exec (.snoopTimeout t.home line a) s = .next u ∧ stops u 2 0 (agentSrc a) line)
      ∧ (∀ l, l < 26 → s.rd (F.CRM_LINK_STATE l) = 1 → ∃ t, exec (.dieLinkFail l) s = .next t ∧ stops t 5 l (srcOf 31 l) 0
        ∧ t.rd (F.CRM_LINK_STATE l) = 2)
      ∧ (∀ a, s.rd (F.CRM_AGENT_STATE a) = 1 → ∃ t, exec (.withdrawTimeout a) s = .next t ∧ stops t 6 0 (agentSrc a) 0))
    ∧ ∀ x, s.stop = some x → x.latched = false → ∃ t, exec .domainStop s = .next t
      ∧ (∃ cut, t.stop = some { x with latched := true, cut := cut } ∧ (x.cause ≠ 5 → x.cause ≠ 7 → cut = false))
      ∧ t.rd F.CRM_STATUS_DOMAIN = 1 ∧ t.rd F.CRM_STOP_VALID = 1 ∧ t.rd F.CRM_STOP_CAUSE = x.cause % 16 ∧ t.rd F.CRM_STOP_DETAIL = x.detail % 256
      ∧ t.rd F.CRM_STOP_LAP_LAP = x.lap % 2 ^ 64 ∧ t.rd F.CRM_STOP_ADDR_LINE = x.line % 2 ^ 40
      ∧ (∀ j, j < 16 → t.slotState j = 4 ∧ (s.slotState j = 2 → (t.slot j).owesVote = true)) ∧ ((∀ p ∈ s.ctxs, p.1 < 1024) → (∀ p ∈ s.engs, p.1 < 40 ∧ p.2.q < 256) →
        ∀ cl : ClusterId, cl.wf = true → t.run cl = (if s.run cl = 6 then 6 else 5))

/-- A reset of a host die runs in its phases: accepted where no rule of R562 and R568 refuses it, its agent withdrawing (R564, R569), then held (R564,
R569, R571), then released, core 72h fetching from its vector (R564, R572); a quiesce that runs out resets nothing (R570). HDRST_N outside such a
reset stops the domain (R575). A root-port link that trains, goes down or enters DPC containment shows it in STR_PCIE_p, with PCIE_LINK (R557). An
inbound request moves bytes of memory, a DEVICE page becoming SHARED; one that the IOMMU refuses is answered as unsupported (R559, R560). -/
def Obligations.HostComplex : Prop :=
  (∀ (s : State) (h : Nat), h < 2 →
      let st := s.rd (F.STR_HOST_STATE h)
      let free := s.stopped = false ∧ (st = 0 ∨ st = 4)
      let withdrawn := (∀ x, x < 10 → (x, h) ∈ s.gone) ∧ ∀ t ∈ s.txns, t.agent ≠ some h
      let vec := 4 * s.rd (F.STR_HOSTVEC_VEC h)
      let phase (e : Ev) (kind p us : Nat) : Prop := e.sev = 0 ∧ e.code = 0x0140
        ∧ e.payload = (place 0 0 h ||| place 2 1 kind ||| place 4 3 p ||| place 36 5 us)
      (∀ from_ : Option Nat, free → (∀ c ∈ from_, c / 72 ≠ h) →
        (∃ u e t, exec (.hostCcReset from_ h) s = .next t ∧ t = (State.emit u e).withdraw h ∧ phase e 1 0 0 ∧ u.rd (F.STR_HOST_STATE h) = 1
          ∧ t.rd (F.CRM_AGENT_STATE h) = 1
          ∧ (MemSound s → (∀ c ∈ s.lines, c.agent ≠ h) → (∀ r ∈ s.reqs, r.agent ≠ h) → (∀ w ∈ s.wbs, w.1 ≠ h) → (∀ x ∈ s.heldSnps, x.1 ≠ h) →
            ∃ ms : List CrMsg, t.out = (State.emit u e).out ++ ms.map Out.crimon ∧ ms.map CrMsg.op = List.replicate 10 8
              ∧ ms.map CrMsg.dst = (List.range 10).map homeSrc ∧ ∀ m ∈ ms, m.src = agentSrc h))
        ∧ ((∀ j, j < 16 → s.slotState j = 0 ∨ s.slotState j = 4) → ∃ t, exec (.hostDieReset from_ h) s = .next t
          ∧ t.rd (F.STR_HOST_STATE h) = 2 ∧ t.rd (F.STR_PCIE_UP h) = 0
          ∧ t.rd (F.CRM_AGENT_STATE h) = (if s.engs = [] then 1 else s.rd (F.CRM_AGENT_STATE h))
          ∧ ∀ q, q < 256 → s.rd (F.CPE_QRING_EN q) = 1 → (t.queue q).halted = true ∧ t.rd (F.SQ_STAT_REASON q) = 3)
        ∧ (s.slotState 0 = 2 → ∃ u e, exec (.hostDieReset from_ h) s = .next (State.emit u e) ∧ e.sev = 1 ∧ e.code = 0x0141
          ∧ u.rd (F.STR_HOST_REFUSAL h) = 1 ∧ OnlyRegs [Reg.STR_HOST h] s u))
      ∧ (∀ c, free → c / 72 = h → ∃ u e, exec (.hostCcReset (some c) h) s = .next (State.emit u e) ∧ e.sev = 1 ∧ e.code = 0x0141
        ∧ u.rd (F.STR_HOST_REFUSAL h) = 5 ∧ OnlyRegs [Reg.STR_HOST h] s u)
      ∧ (∀ us, s.stopped = false → withdrawn →
        (st = 1 → ∃ u e, exec (.ccWithdrawDone h us) s = .next (State.emit u e) ∧ phase e 1 1 us ∧ u.rd (F.STR_HOST_STATE h) = 3
          ∧ SameRegs [Reg.STR_HOST h] s u ∧ { u with regs := s.regs, l2 := s.l2, imsic := s.imsic } = s
          ∧ (∀ x ∈ u.l2, x.1 / 72 ≠ h) ∧ ∀ x ∈ u.imsic, x.1 / 64 / 72 ≠ h)
        ∧ (st = 2 → s.engs = [] → s.rd (F.CRM_AGENT_STATE h) ≠ 0 → (∀ t ∈ s.txns, t.home ≠ 8 + h) → s.memQ = [] →
          s.hostCopies (dieLine h) = false → ∃ u e, exec (.hdQuiesceDone h us) s = .next (State.emit u e) ∧ phase e 2 1 us
          ∧ u.rd (F.STR_HOST_STATE h) = 3 ∧ 8 + h ∈ u.hdAway ∧ ∀ x ∈ u.tracker, x.h ≠ h))
      ∧ (∀ us, s.stopped = false → st = 2 → s.engs = [] → s.rd (F.CRM_AGENT_STATE h) = 0 → exec (.hdQuiesceDone h us) s = .next (s.withdraw h))
      ∧ (s.stopped = false → st = 3 → sget (fun _ => 0) s.hostPhase h = 1 → ∃ t, exec (.ccResetRelease h) s = .next t.servePcie
        ∧ t.rd (F.STR_HOST_STATE h) = 4 ∧ t.rd (F.CRM_AGENT_STATE h) = 0 ∧ t.out = s.out ++ [.coreStart (72 * h) vec] ∧ (∀ g ∈ t.gone, g.2 ≠ h)
        ∧ t.rd (F.STR_HOST_CC_RESETS h) = min (s.rd (F.STR_HOST_CC_RESETS h) + 1) 65535 ∧ SameRegs [Reg.STR_HOST h, Reg.CRM_AGENT h] s t)
      ∧ (∀ us, st = 4 → ∃ u e, exec (.ccFirstFetch h us) s = .next (State.emit u e) ∧ phase e 1 2 us ∧ u.rd (F.STR_HOST_STATE h) = 0
        ∧ SameRegs [Reg.STR_HOST h] s u)
      ∧ (st = 2 → s.stopped = false → ∃ u e, exec (.hdQuiesceTimeout h) s = .next (State.emit u e).settle ∧ e.sev = 1 ∧ e.code = 0x0141
        ∧ e.payload = (place 0 0 h ||| place 2 1 2 ||| place 5 3 2 ||| place 9 6 0) ∧ u.rd (F.STR_HOST_STATE h) = 0
        ∧ u.rd (F.STR_HOST_REFUSAL h) = 2 ∧ u.rd (F.CRM_AGENT_STATE h) = 0 ∧ u.queues = s.queues)
      ∧ (∀ us, s.stopped = false → st = 3 → sget (fun _ => 0) s.hostPhase h = 2 → ∃ u e, exec (.hdResetRelease h us) s = .next (State.emit u e)
        ∧ phase e 2 2 us ∧ u.rd (F.STR_HOST_STATE h) = 0 ∧ u.rd (F.CRM_AGENT_STATE h) = 0 ∧ 8 + h ∉ u.hdAway
        ∧ u.rd (F.STR_HOST_HD_RESETS h) = min (s.rd (F.STR_HOST_HD_RESETS h) + 1) 255 ∧ u.out = s.out ++ [.coreStart (72 * h) vec])
      ∧ (s.stopped = false → s.dieHeld h = false → ∃ t, exec (.hdrstAssert h) s = .next t ∧ t.stop = some ⟨7, h, 0, 0, s.now, false, false⟩ ∧ t.mem = s.mem))
  ∧ (∀ (s : State) (p : Nat), p < 2 →
      (∀ speed width flit, s.contained p = false → s.pcieTrains p speed width flit = true → ∃ u e, exec (.pcieLink p (.up speed width flit)) s = .next (State.emit u e) ∧ e.sev = 1 ∧ e.code = 0x0142
        ∧ u.rd (F.STR_PCIE_UP p) = 1 ∧ u.rd (F.STR_PCIE_SPEED p) = speed % 16 ∧ u.rd (F.STR_PCIE_WIDTH p) = width % 32
        ∧ u.rd (F.STR_PCIE_FLIT p) = b2n flit ∧ OnlyRegs [Reg.STR_PCIE p] s u)
      ∧ (∀ ev ∈ [(PcieEvent.down, 1), (.dpc, 2)], ∃ u e, exec (.pcieLink p ev.1) s = .next (State.emit u e) ∧ e.sev = ev.2 ∧ e.code = 0x0142
        ∧ bits e.payload 2 1 = ev.2 ∧ u.rd (F.STR_PCIE_UP p) = 0 ∧ u.rd (F.STR_PCIE_WIDTH p) = 0 ∧ SameRegs [Reg.STR_PCIE p] s u
        ∧ { u with regs := s.regs, pcieHeld := s.pcieHeld } = s)
      ∧ ∀ r : PcieReq, s.stopped = false → s.rd (F.STR_PCIE_UP p) = 1 → s.pcieHeld = [] → (s.rd (F.STR_HOST_STATE p) = 0 ∨ s.rd (F.STR_HOST_STATE p) = 4) →
        (r.addr = none → (r.write = true → exec (.pcieInbound p r) s = .next s)
          ∧ (r.write = false → exec (.pcieInbound p r) s = .next { s with out := s.out ++ [.pcieUnsupported p] }))
        ∧ ∀ a n, r.addr = some a → 0 < n → n = (if r.write then r.data.length else r.len) → a % 4096 + n ≤ 4096 → a + n ≤ windowBase →
          s.hostBars a = none → s.hostBars (a + n - 1) = none → sget (fun _ => 0) s.bias (a / 4096) < 2 → s.txns = [] → s.memQ = [] → s.reqs = [] → s.tenures = [] →
          s.wbs = [] → MemSound s → (∀ c ∈ s.lines, c.line ∈ linesOf a n → c.agent < 2 ∧ s.held c.agent c.line = some c
            ∧ (c.agent ≠ p → 2 ≤ c.st → s.held p c.line = none)) → ∃ t, exec (.pcieInbound p r) s = .next t ∧ sget (fun _ => 0) t.bias (a / 4096) = 0 ∧ (r.write = true → t.memBytes a n = r.data)
            ∧ (sget (fun _ => 0) s.bias (a / 4096) = 0 → (r.write = true → t.out = s.out)
              ∧ (r.write = false → t.out = s.out ++ [.pcieData p (s.memBytes a n)]
                ∧ ((∀ c ∈ s.lines, c.agent = p) → t.mem = s.mem))))

/-- CTX_OPEN opens a context with its parameter block, or ends with status 2, 12 or 11; CTX_CLOSE closes it; SURF_BIND with FIRST sets a surface's
geometry and its slice, and without a bound surface ends with status 12 (R577, R588, R593, R594). A frame that ends completes its command with OK and
the number of its status entry, writes the entry (kind 0 DECODE, 1 ENCODE, 2 CONVERT, its flags and the lap), counts itself in the context and in
FRAMES, and frees its engine (R599, R600, R602, R607, R614); a firmware that gives no QP in time is counted, and the engine takes the last frame's
(R603). Which level suits a picture follows the codec standards' own tables (PRESUMED, notes/assumptions/31.md). -/
def Obligations.Prism : Prop :=
  let tame (s : State) : Prop := Quiet s ∧ MemSound s ∧ (∀ p ∈ s.dirs, ∀ a ∈ p.2.owner.toList ++ p.2.sharers, a < 2) ∧ ∀ y ∈ s.tracker, y.h < 2
  (∀ (s : State) (e : Nat) (x : EngSt) (c : CmdSt), e < 16 → x.q < 256 → c.ver = none → tame s →
      let k := bits c.w 9 0
      let tctx := s.rd (F.CPE_QBIND_CTX x.q)
      let va := bits c.w 111 64
      let ended (t : State) (status detail : Nat) : Prop := t.eng (24 + e) = none ∧ ∃ d ∈ (t.queue x.q).done, d.entry = x.entry ∧ d.status = status
        ∧ d.detail = detail
      (s.prismCmd e 0x20 = some (x, c) →
        let par := ofLe ((List.range 256).map (fun i => s.memByte (frameByte (s.frameList x.q x.entry 0 (pagesOf va 256)) va i)))
        let need := n64 (parW par) (parH par) * (if parB par 2 = 8 then 6400 else 12544)
        let good (t : Nat) : Prop := ∃ u, s.surf tctx t = some u ∧ t / 1024 = e ∧ u.fmt = 5 ∧ need ≤ u.bytes
        (parOk par = false → ∃ t, exec (.ctxOpen e) s = .next t ∧ ended t 2 0 ∧ t.ctxs = s.ctxs)
        ∧ (parOk par = true → (∀ i, i < parB par 8 → good (parPool par i)) →
          (s.ctx k = none → ∃ t, exec (.ctxOpen e) s = .next t ∧ ended t 0 0 ∧ t.ctx k = some ⟨tctx, par, 0, 0, none, none, false, 0, []⟩
            ∧ t.rd (F.PRM_CTX_OPEN (k / 64) (k % 64)) = 1 ∧ t.rd (F.PRM_CTX_WIDTH (k / 64) (k % 64)) = parW par % 2 ^ 14
            ∧ ((∀ y ∈ s.tracker, y.noted = true) → t.mem = s.mem))
          ∧ (s.ctx k ≠ none → ∃ t, exec (.ctxOpen e) s = .next t ∧ ended t 11 k ∧ t.ctxs = s.ctxs)))
      ∧ (s.prismCmd e 0x21 = some (x, c) →
        (∀ cx, s.ctx k = some cx → cx.tctx = tctx → ∃ t, exec (.ctxClose e) s = .next t ∧ ended t 0 0 ∧ t.ctx k = none
          ∧ t.rd (F.PRM_CTX_OPEN (k / 64) (k % 64)) = 0 ∧ t.mem = s.mem)
        ∧ (s.ctx k = none → ∃ t, exec (.ctxClose e) s = .next t ∧ ended t 11 k ∧ t.ctxs = s.ctxs))
      ∧ (s.prismCmd e 0x22 = some (x, c) →
        let t := bits c.w 13 0
        let len := bits c.w 159 128
        t % 1024 < s.rd (F.PRM_SURF_SURFACES e) →
        (bit c.w 20 = true → geometryOk (bits c.w 167 160) (bits c.w 207 192) (bits c.w 223 208) (256 * bits c.w 239 224) = true →
          ∃ u, exec (.surfBind e) s = .next u ∧ ended u 0 0 ∧ sget (fun _ => none) u.surfs t = some ⟨tctx, bits c.w 167 160, bits c.w 207 192,
            bits c.w 223 208, 256 * bits c.w 239 224, [⟨bits c.w 19 14, va, len, s.frameList x.q x.entry 0 (pagesOf va len)⟩]⟩)
        ∧ (bit c.w 20 = false → s.surf tctx t = none → ∃ u, exec (.surfBind e) s = .next u ∧ ended u 12 t ∧ u.surfs = s.surfs)))
  ∧ (∀ (s : State) (e : Nat) (x : EngSt) (c : CmdSt) (cx : CtxSt), e < 16 → x.q < 256 → c.ver = none → tame s →
      let k := bits c.w 9 0
      let a := 2 ^ 18 * s.rd (F.PRM_STATUS_BASE e) + 4096 * (k % 64) + 64 * (cx.count % 64)
      let walked (n : Nat) : Prop := ∀ u, sget (fun _ => none) s.surfs n = some u → ∀ y ∈ u.slices, ∀ f ∈ y.frames, f ≠ none
      let ends (t : State) (kind : Nat) : Prop := t.eng (24 + e) = none
        ∧ (∃ d ∈ (t.queue x.q).done, d.entry = x.entry ∧ d.status = 0 ∧ d.detail = cx.count % 64)
        ∧ bits (t.memNat a 64) 63 56 = kind ∧ bits (t.memNat a 64) 383 320 = s.now
        ∧ (∃ z, t.ctx k = some z ∧ z.count = cx.count + 1 ∧ z.frames = cx.frames + 1 ∧ z.par = cx.par)
        ∧ t.rd (F.PRM_ENG_STAT_FRAMES e) = min (s.rd (F.PRM_ENG_STAT_FRAMES e) + 1) (2 ^ 32 - 1)
      let w := parOutW cx.par
      let h := parOutH cx.par
      let bs := bits c.w 77 64
      let out := bits c.w 205 192
      let dst := bits c.w 173 160
      s.ctx k = some cx → cx.tctx = s.rd (F.CPE_QBIND_CTX x.q) →
      (∀ r : FrameResult, parB cx.par 1 = 0 → s.streamOk cx.tctx e bs = true → s.pictureOk cx.tctx e out w h = true → s.oddOut cx.tctx out w h = false →
        (s.prismCmd e 0x23 = some (x, c) → walked bs → walked out → walked (parPool cx.par r.pool) →
          (∀ p ∈ r.ref, walked (parPool cx.par p)) → ∃ t, exec (.decode e r) s = .next t ∧ ends t 0
          ∧ bits (t.memNat a 64) 31 0 = r.order % 2 ^ 32 ∧ bit (t.memNat a 64) 50 = false
          ∧ bit (t.memNat a 64) 48 = (r.syntaxError || r.truncated || r.unsupported || r.refDamaged))
        ∧ (s.prismAny e = some (x, c) → c.op = 0x23 → ∃ t, exec (.prismWatchdog e r) s = .next t ∧ ends t 0 ∧ bit (t.memNat a 64) 48 = true
          ∧ bit (t.memNat a 64) 50 = true))
      ∧ (∀ r : EncodeResult, s.prismCmd e 0x24 = some (x, c) → s.encodeRefused e x c = none → walked bs → walked dst →
        walked (parPool cx.par r.pool) → ∃ t, exec (.encode e r) s = .next t ∧ ends t 1 ∧ bits (t.memNat a 64) 31 0 = r.order % 2 ^ 32)
      ∧ (∀ cycles, s.prismCmd e 0x25 = some (x, c) → walked bs → walked dst →
        s.pictureOk cx.tctx e bs (parN cx.par 0x40 2 + parN cx.par 0x44 2) (parN cx.par 0x42 2 + parN cx.par 0x46 2) = true →
        s.pictureOk cx.tctx e dst w h = true → s.oddOut cx.tctx dst w h = false → ∃ t, exec (.convert e cycles) s = .next t ∧ ends t 2)
      ∧ (s.prismCmd e 0x24 = some (x, c) → x.next = 0 → ∃ u ev, exec (.prismRcTimeout e) s = .next (State.emit u ev) ∧ ev.sev = 1 ∧ ev.code = 0x0A04
        ∧ u.eng (24 + e) = some { x with next := cx.qp.getD (if bit c.w 10 then parB cx.par 0x52 else parB cx.par 0x51) + 1 }
        ∧ u.rd (F.PRM_CNT_RC_TIMEOUT e) = min (s.rd (F.PRM_CNT_RC_TIMEOUT e) + 1) 4095 ∧ u.mem = s.mem))

/-- Each start step that ends well begins the next: step 1 with the accepted image and its build, step 3 with the rails in regulation, step 4 with every
page SHARED and every line UNCACHED, step 5 with both host dies' cores started; a step 1 to 4 that fails leaves FAILED with its cause and unit and the
regulators off (R656, R661, R665, R666, R668); from step 4 on the rails must stand (R747). A lap clock that has not locked in time is recorded (R669). A module reset puts every register of its
domain to its reset value and memory to nothing written, and keeps the registers of a stop and of a trip (R474, R744 to R748); its release begins step
1, the module owning the flash bus (R666, R751). Standby power answers on MGMT_RDY, and its removal keeps the fuses alone (R741, R745). -/
def Obligations.StartAndReset : Prop :=
  (∀ s : State, s.mrst = false → s.standby = true →
      let at_ (n : Nat) : Prop := s.rd F.STR_START_STATE = n
      let goes (r : StartResult) (n m : Nat) (t : State) : Prop := exec (.startStepComplete n r) s = .next t ∧ t.rd F.STR_START_STATE = m
      (∀ (d0 d1 : List Byte) (a b : FlashSlot) (msA msB : Nat), at_ 1 → s.tripped = false →
        let s0 := s.pin F.STR_PINS_XSPI_OWN 3 false
        let one := if preferred d0 d1 = 0 then a else b
        let magic := 0x4C4C455749465542
        ∃ t, exec (.startStepComplete 1 (.flash d0 d1 a b msA msB)) s = .next t
          ∧ (s0.imageReject one = none → t.rd F.STR_START_STATE = 2 ∧ t.rd F.STR_IMAGE_SLOT = preferred d0 d1 % 2
            ∧ t.rd F.STR_IMAGE_FALLBACK = 0 ∧ t.rd F.STR_BUILD_BUILD = imgLe one.bytes 0x10 8 % 2 ^ 64
            ∧ t.image = one.bytes.take (imgSize one.bytes) ∧ t.rd F.STR_PINS_XSPI_OWN = 0)
          ∧ (imgLe a.bytes 0 8 ≠ magic → imgLe b.bytes 0 8 ≠ magic → t.rd F.STR_START_STATE = 9 ∧ t.rd F.STR_START_FAIL_STEP = 1
            ∧ t.rd F.STR_START_CAUSE = 1 ∧ t.rails = false ∧ t.rd F.STR_PINS_PWRGD = 0))
      ∧ (at_ 2 → ∃ t, goes .done 2 3 t ∧ ∀ p, p < 9 → t.rd (F.PCE_TABLE_FREQ_MHZ p) = bits (imgPace s.image p) 63 52)
      ∧ (at_ 3 → ∃ t, goes .done 3 4 t ∧ t.rails = true ∧ t.rd F.STR_PINS_PWRGD = 1 ∧ t.mem = s.mem)
      ∧ (at_ 4 → s.rails = true → ∃ t, goes .done 4 5 t ∧ t.bias = [] ∧ t.dirs = [] ∧ t.lines = [] ∧ t.mem = s.mem)
      ∧ (at_ 5 → s.rails = true → ∃ t, goes .done 5 6 t ∧ (∀ h, h < 2 → .coreStart (72 * h) (4 * s.rd (F.STR_HOSTVEC_VEC h)) ∈ t.out
        ∧ t.rd (F.STR_HOST_STATE h) = 0) ∧ t.rd F.LAP_STATUS_ROLE = s.rd F.LAP_CFG_ROLE)
      ∧ (at_ 6 → s.rails = true → ∃ t, goes .done 6 7 t ∧ SameRegs [Reg.STR_START] s t ∧ t.mem = s.mem)
      ∧ (∀ n cause unit, (n = 3 ∨ n = 4 ∧ s.rails = true) → at_ n → ∃ t, goes (.failed cause unit) n 9 t ∧ t.rd F.STR_START_FAIL_STEP = n
        ∧ t.rd F.STR_START_CAUSE = cause % 256 ∧ t.rd F.STR_START_UNIT = unit % 65536 ∧ t.rails = false ∧ t.rd F.STR_PINS_PWRGD = 0)
      ∧ ((at_ 6 ∨ at_ 7) → s.rd F.STR_START_FAIL_STEP ≠ 7 → ∃ u e, exec .startLockTimeout s = .next (State.emit u e) ∧ e.sev = 2 ∧ e.code = 0x0104
        ∧ u.rd F.STR_START_FAIL_STEP = 7 ∧ u.rd F.STR_START_CAUSE = 7 ∧ OnlyRegs [Reg.STR_START] s u))
  ∧ (∀ s : State,
      let kept := [Reg.CRM_STOP, Reg.CRM_STOP_LAP, Reg.CRM_STOP_ADDR, Reg.MON_TRIP, Reg.STR_FUSE]
      (s.mrst = false → s.standby = true → ∃ t, exec .moduleReset s = .next t ∧ t.mrst = true ∧ t.mem = [] ∧ t.slots = [] ∧ t.stop = none
        ∧ t.pending = s.pending ∧ t.rails = false ∧ (∀ off ∈ kept, t.reg off = s.reg off)
        ∧ (∀ off, off ∉ kept → off ≠ Reg.STR_PINS → t.reg off = resetWord off)
        ∧ t.rd F.STR_PINS_PWRGD = 0 ∧ t.rd F.STR_PINS_STOP = 0 ∧ t.rd F.STR_PINS_THERMTRIP = 0)
      ∧ (s.standby = true → s.rd F.STR_START_STATE = 0 → ∃ t, exec .moduleResetRelease s = .next t ∧ t.mrst = false
        ∧ t.rd F.STR_START_STATE = 1 ∧ t.rd F.STR_PINS_XSPI_OWN = 1 ∧ t.mem = s.mem ∧ SameRegs [Reg.STR_START, Reg.STR_PINS] s t)
      ∧ (s.standby = false → exec .standbyPowerUp s = .next { s with standby := true, out := s.out ++ [.contact 4 true] })
      ∧ (s.standby = true → ∃ t, exec .powerRemoval s = .next t ∧ t.standby = false ∧ t.mrst = true ∧ t.mem = [] ∧ t.reg Reg.STR_FUSE = s.reg Reg.STR_FUSE
        ∧ ∀ off, off ≠ Reg.STR_FUSE → off ≠ Reg.STR_PINS → t.reg off = resetWord off))

/-- At K a RUNNING slot is HALTED with every cluster of its job held (R701 to R703, R706); from K + 2 the member sends its END and digests its segments in
order (R706, R711, R712); an acknowledged message counts, a refused one makes the copy incomplete (R716, R717); at Z the slot is RUNNING again and an
incomplete copy is counted (R709, R718); without a decision by K + 16 the job stops (R710). -/
def Obligations.CheckpointHalts : Prop :=
  ∀ (s : State) (j : Nat), j < 16 →
    ((s.due 3 j).isSome = true → s.turn 5 = true → s.slotState j = 2 → s.stopped = false → (∀ c ∈ s.clustersOf j, s.run c = 1) →
      (∀ p ∈ s.engs, p.1 < 40 ∧ p.2.q < 256) → ∃ t, exec (.ckptHaltStart j) s = .next t ∧ t.slotState j = 3 ∧ t.rd (F.RES_HALT_K j) = s.now ∧ (∀ c ∈ s.clustersOf j, (t.cluster c).held = true)
        ∧ t.rd (F.RES_CNT_HALTS j) = min (s.rd (F.RES_CNT_HALTS j) + 1) 65535 ∧ t.rd (F.RES_CKPT_STAT_STATE j) = 0
        ∧ (∀ a ∈ t.arms, ¬(a.kind = 3 ∧ a.who = j)) ∧ t.latched = t.regs)
    ∧ (s.slotState j = 3 → s.stopped = false →
      ((s.ck j).sent = false → s.kLap j + 2 ≤ s.now → 1 < s.members j →
        s.modIdx j ∉ nodeCollectors (s.members j) s.classX 1 (s.modIdx j / 32) →
        ∃ m : Msg, m.byte 0 = 0x43 ∧ m.le 0x10 8 = s.kLap j % 2 ^ 64 ∧ m.le 0x18 8 = (s.ck j).endLap % 2 ^ 64 ∧
          let u := (nodeCollectors (s.members j) s.classX 1 (s.modIdx j / 32)).foldl (fun (t : State) d => t.sendVote (s.ckVote j (s.kLap j)) d m)
            (s.setCk j { s.ck j with sent := true })
          ((s.ck j).cause.isSome = true → exec (.ckptCaptureStart j) s = .next u.tick)
          ∧ ((s.ck j).cause = none → MemSound s → (∀ p ∈ s.dirs, ∀ a ∈ p.2.owner.toList ++ p.2.sharers, a < 2) →
            ∃ t, exec (.ckptCaptureStart j) s = .next t ∧ (t.ck j).sent = true ∧ t.slotState j = 3
              ∧ (t.ck j).digests = (segsOf (s.ck j).regions).map (fun x => ofLe (sha256 (u.memBytes x.1 x.2)))))
      ∧ ((s.ck j).dec = none → s.kLap j + 16 ≤ s.now → ∃ u e, exec (.ckptVoteTimeout j) s = .next (State.failJob u j e) ∧ e.sev = 3
        ∧ e.code = 0x0B05 ∧ bits e.payload 43 0 = s.step j ∧ bit e.payload 44 = true ∧ u.regs = s.regs)
      ∧ ((s.ck j).capturing = true → (s.ck j).cause = none → ∀ seg chunk,
        (∃ t, exec (.ckptAckReceive j seg chunk false) s = .next t ∧ t.ck j = { s.ck j with cause := some 1 } ∧ { t with slots := s.slots } = s)
        ∧ (seg ≠ 16383 → ∃ t, exec (.ckptAckReceive j seg chunk true) s = .next t ∧ (seg, chunk) ∈ (t.ck j).acked))
      ∧ ∀ m, (s.ck j).dec = some m → s.now = m.le 0x18 8 → s.turn 5 = true → MemSound s → (∀ p ∈ s.dirs, ∀ a ∈ p.2.owner.toList ++ p.2.sharers, a < 2) →
        ∃ t, exec (.ckptResume j) s = .next t ∧ t.slotState j = 2
        ∧ (∀ c ∈ s.clustersOf j, (t.cluster c).held = false) ∧ t.latched = t.regs
        ∧ t.rd (F.RES_CNT_INCOMPLETE j) = (if (s.ck j).complete then s.rd (F.RES_CNT_INCOMPLETE j)
          else min (s.rd (F.RES_CNT_INCOMPLETE j) + 1) 65535))

/-- A chunk reaches its place in the holder's copy area and is acknowledged, or refused where the area does not hold it (R716); a forward that ends is
recorded and counted (R719); a verify of the marked segments passes when each has its digest, and one whose manifest is not valid fails (R723 to
R725). -/
def Obligations.CopiesAndVerifies : Prop :=
  ∀ (s : State) (j : Nat), j < 16 →
    (∀ (srcFi src seg chunk len tag : Nat) (two : Bool) (data : List Byte), s.stopped = false → s.slotOfJob (s.rd (F.STR_SLOT_JOB_ID j)) = some j →
      src < 2 ^ 13 → seg < 2 ^ 14 → chunk < 2 ^ 10 → 0 < len → len ≤ 65536 → tag < 2 ^ 32 → data.length = len →
      let hdr := ckHdr (s.rd (F.STR_SLOT_JOB_ID j)) src two seg chunk len tag
      let area := s.copyArea j two
      let off := if seg = 16383 then 65536 * chunk else 2 ^ 19 + seg * segBytes + 65536 * chunk
      ((if two then (s.ck j).area2 else (s.ck j).area1).begun = true → off + len ≤ area.2 → HomeServes s (linesOf (area.1 + off) len) →
        ∃ u : State, exec (.ckptMessageReceive srcFi hdr data) s = .next (u.sendAck srcFi tag true).tick ∧ u.memBytes (area.1 + off) len = data
          ∧ u.out = s.out ∧ u.slots = s.slots ∧ ∀ b, b < area.1 + off ∨ area.1 + off + len ≤ b → u.memByte b = s.memByte b)
      ∧ (area.2 < off + len → exec (.ckptMessageReceive srcFi hdr data) s = .next (s.sendAck srcFi tag false).tick))
    ∧ (∀ src ab ms, (s.ck j).area1.forwarding = true → (s.ck j).area1.src = some src → ∃ u e, exec (.ckptForwardEnd j src ab ms) s = .next (State.emit u e)
      ∧ e.sev = 0 ∧ e.code = 0x0B09 ∧ bit e.payload 26 = ab ∧ (u.ck j).area1.forwarding = false
      ∧ (ab = false → u.rd (F.RES_CNT_FORWARDED j) = min (s.rd (F.RES_CNT_FORWARDED j) + 1) 65535))
    ∧ (s.rd (F.RES_VERIFY_STATE j) ≠ 1 →
      let begins (t : State) (op : Nat) : Prop := t.ck j = { s.ck j with vop := op } ∧ t.rd (F.RES_VERIFY_STATE j) = 1
        ∧ { t with regs := s.regs, slots := s.slots } = s ∧ SameRegs [Reg.RES_VERIFY j] s t
      (∃ t, exec (.verifyAll j) s = .next t ∧ begins t 1) ∧ ∃ t, exec (.verifyMarked j) s = .next t ∧ begins t 2)
    ∧ (∀ ms, s.stopped = false → s.rd (F.RES_VERIFY_STATE j) = 1 → MemSound s → (∀ p ∈ s.dirs, ∀ a ∈ p.2.owner.toList ++ p.2.sharers, a < 2) →
      let a := 4096 * s.rd (F.RES_VBASE_BASE j)
      ((s.ck j).vop = 2 → (∀ x ∈ (segsOf (s.regTable j)).zipIdx, bit (s.memNat (0x7F800 + a + x.2 / 8) 1) (x.2 % 8) = true →
          ofLe (sha256 (s.memBytes x.1.1 x.1.2)) = s.memNat (a + 0x100 + 32 * s.memNat (a + 0x10) 2 + 32 * x.2) 32) →
        ∃ t, exec (.verifyDone j ms) s = .next t ∧ t.rd (F.RES_VERIFY_STATE j) = 2 ∧ t.rd (F.RES_VERIFY_RESTORE j) = 1
          ∧ t.rd (F.RES_VERIFY_BAD j) = 0 ∧ (t.ck j).vop = 0)
      ∧ ((s.ck j).vop = 1 → s.manifestValid a = false → ∃ t, exec (.verifyDone j ms) s = .next t ∧ t.rd (F.RES_VERIFY_STATE j) = 3
        ∧ t.rd (F.RES_VERIFY_CAUSE j) = 1 ∧ (t.ck j).vop = 0))

/-- The Resilience block arms a self-test window for a reserve cluster that nothing else is being tested in (R78, R730, R731). At its lap the window opens
on the cluster, which reads TESTING while it lasts, or on a reserve port, and its end is armed; at the end a cluster that passes returns to its role, and
one that fails is FAILED with LOGICAL 127 (R730 to R732). An ACTIVE cluster that has gone 16 periods without a test is deferred (R735). The lead of
16 laps with which a window is armed is the model's choice (DESIGN CHOICE, notes/assumptions/65.md). -/
def Obligations.SelfTests : Prop :=
  ∀ (s : State) (cl : ClusterId), cl.wf = true →
    let who (kind die unit : Nat) : Nat := kind * 2 ^ 20 + die * 2 ^ 10 + unit
    let opens (w : Nat) : Prop := (s.due 5 w).isSome = true ∧ s.turn 7 = true
    (s.stopped = false → s.tests = [] →
      (s.role cl = 1 → (∀ a ∈ s.arms, a.kind ≠ 5) → s.armReason (s.now + 16) true = none →
        exec (.selftestWindowOpen 1 cl.die cl.idx) s = .next { s with arms := s.arms ++ [⟨5, who 1 cl.die cl.idx, s.now + 16, false⟩] })
      ∧ (s.role cl = 1 → opens (who 1 cl.die cl.idx) → (s.dropArms 5 (who 1 cl.die cl.idx)).armReason (s.now + 1024) true = none →
        ∃ t, exec (.selftestWindowOpen 1 cl.die cl.idx) s = .next t ∧ t.tests = [⟨1, cl.die, cl.idx, 1⟩] ∧ t.role cl = 2
          ∧ ⟨6, who 1 cl.die cl.idx, s.now + 1024, false⟩ ∈ t.arms ∧ t.latched = t.regs ∧ t.mem = s.mem)
      ∧ ∀ d u, d < 4 → u < 13 → s.portState (13 * d + u) = 10 → opens (who 2 (10 + d) u) →
        (s.dropArms 5 (who 2 (10 + d) u)).armReason (s.now + 2048) true = none → ∃ t, exec (.selftestWindowOpen 2 (10 + d) u) s = .next t
          ∧ t.tests = [⟨2, 10 + d, u, 10⟩] ∧ t.portState (13 * d + u) = 11 ∧ ⟨6, who 2 (10 + d) u, s.now + 2048, false⟩ ∈ t.arms)
    ∧ (∀ r : TestResult, s.stopped = false → s.tests = [⟨1, cl.die, cl.idx, 1⟩] → s.role cl = 2 → (s.due 6 (who 1 cl.die cl.idx)).isSome = true →
      s.turn 7 = true →
      (r.passed = true → ∃ u e, exec (.selftestWindowClose 1 cl.die cl.idx r) s = .next ((State.emit u e).latch) ∧ e.sev = 0 ∧ e.code = 0x0B08
        ∧ u.role cl = 1 ∧ u.tests = [] ∧ (u.cluster cl).tested = true ∧ u.rd F.RES_TEST_CNT_PASSED = min (s.rd F.RES_TEST_CNT_PASSED + 1) 65535)
      ∧ (r.passed = false → ∃ u e, exec (.selftestWindowClose 1 cl.die cl.idx r) s = .next ((State.emit u e).latch) ∧ e.sev = 1 ∧ e.code = 0x0B08
        ∧ u.role cl = 3 ∧ u.logical cl = 127 ∧ u.tests = [] ∧ u.rd F.RES_TEST_CNT_FAILED = min (s.rd F.RES_TEST_CNT_FAILED + 1) 65535))
    ∧ (s.role cl = 0 → (s.slotOfCl cl).isSome = true → s.deferred.contains (clKey cl) = false →
      (s.cluster cl).lastTest + 4096 * (16 * s.rd F.RES_CFG_TEST_PERIOD) ≤ s.now → ∃ u e, exec (.selftestDeferred cl) s = .next (State.emit u e)
        ∧ e.sev = 1 ∧ e.code = 0x0B04 ∧ u.deferred = s.deferred ++ [clKey cl]
        ∧ u.rd F.RES_TEST_CNT_DEFERRED = min (s.rd F.RES_TEST_CNT_DEFERRED + 1) 65535 ∧ OnlyRegs [Reg.RES_TEST_CNT] { s with deferred := u.deferred } u)

/-- The management path reads a register with status 0, with 1 while it has no power and 3 for a bad offset (R758, R760), and writes only STR_HRST,
CRM_STOP.VALID and MON_TRIP.VALID, any other with status 2 (R759); SETAASA and ENTDAA assign the dynamic address (R754); PLDM answers with the state
of a sensor (R755). -/
def Obligations.ManagementAccess : Prop :=
  ∀ s : State, s.standby = true →
    let answers (i : Instr) (o : Out) : Prop := exec i s = .next { s with out := s.out ++ [o] }
    (∀ off, off % 8 = 0 → (off < 0xD00000 ∨ (0x1000000 ≤ off ∧ off < 0x1800000)) → off ≠ Reg.LAP_COUNT → s.rails = true → answers (.mgmtRead off) (.mgmtResponse 0 (s.readWord off)))
    ∧ (∀ off ∈ [Reg.STR_START, Reg.CRM_STOP, Reg.MON_TRIP], answers (.mgmtRead off) (.mgmtResponse 0 (s.readWord off)))
    ∧ (∀ off, off ∉ offReadable → s.rails = false → answers (.mgmtRead off) (.mgmtResponse 1 0))
    ∧ (∀ off, off % 8 ≠ 0 → s.rails = true → answers (.mgmtRead off) (.mgmtResponse 3 0))
    ∧ (∀ off v, off ≠ Reg.STR_HRST → off ≠ Reg.CRM_STOP → off ≠ Reg.MON_TRIP → answers (.mgmtWrite off v) (.mgmtResponse 2 0))
    ∧ (∀ v : Word, bit v.toNat 63 = true →
      (∃ t, exec (.mgmtWrite Reg.CRM_STOP v) s = .next t ∧ t.out = s.out ++ [.mgmtResponse 0 0] ∧ t.reg Reg.CRM_STOP = 0 ∧ t.reg Reg.CRM_STOP_LAP = 0
        ∧ t.reg Reg.CRM_STOP_ADDR = 0 ∧ SameRegs [Reg.CRM_STOP, Reg.CRM_STOP_LAP, Reg.CRM_STOP_ADDR] s t)
      ∧ ∃ t, exec (.mgmtWrite Reg.MON_TRIP v) s = .next t ∧ t.out = s.out ++ [.mgmtResponse 0 0] ∧ t.rd F.MON_TRIP_VALID = 0
        ∧ t.rd F.MON_TRIP_READING = s.rd F.MON_TRIP_READING ∧ SameRegs [Reg.MON_TRIP] s t)
    ∧ (∀ v : Word, (s.rails = false → answers (.mgmtWrite Reg.STR_HRST v) (.mgmtResponse 1 0))
      ∧ ∀ p ∈ [(1, Instr.hostCcReset none (bits v.toNat 61 61)), (2, .hostDieReset none (bits v.toNat 61 61))], s.rails = true →
        bits v.toNat 63 62 = p.1 → exec (.mgmtWrite Reg.STR_HRST v) s = exec p.2 { s with out := s.out ++ [.mgmtResponse 0 0] })
    ∧ (∃ t, exec .i3cSetaasa s = .next t ∧ t.rd F.STR_PINS_I3C_DA = 0x38 + s.rd F.STR_PINS_MGMT_ADDR ∧ OnlyRegs [Reg.STR_PINS] s t)
    ∧ (∀ addr, addr < 128 → ∃ t, exec (.i3cEntdaa addr) s = .next t ∧ t.rd F.STR_PINS_I3C_DA = addr ∧ OnlyRegs [Reg.STR_PINS] s t)
    ∧ (∀ p ∈ [(0, s.rd F.STR_START_STATE), (1, s.rd F.LAP_STATUS_STATE), (2, s.rd F.CRM_STATUS_DOMAIN), (3, s.rd F.MON_TRIP_VALID)],
      answers (.pldmCommand (.stateSensor p.1)) (.pldmResponse 0 p.2))
    ∧ (s.rails = true → ∃ t, exec (.pldmCommand (.numericSensor 0)) s = .next t ∧ t.out = s.out ++ [.pldmResponse 0 (s.rd F.MON_INPUT_MV)]
      ∧ { t with out := s.out, free := s.free } = s)

/-- SPDM answers in the order of a connection: version, capabilities, algorithms, and from then on digests, certificate, challenge and measurements, which
read zero for indices 1 to 5 before the image is accepted; a request out of order is refused (R755, R756). -/
def Obligations.SpdmSession : Prop :=
  ∀ s : State, s.standby = true →
    let answers (i : Instr) (need next code v : Nat) : Prop := ∃ t, exec i s = .next t ∧ { t with spdm := s.spdm, out := s.out, free := s.free } = s
      ∧ (s.spdm < need → t.out = s.out ++ [.spdm 0x7F 4] ∧ t.spdm = s.spdm)
      ∧ (need ≤ s.spdm → t.out = s.out ++ [.spdm code v] ∧ t.spdm = max s.spdm next)
    (exec .spdmGetVersion s = .next { s with spdm := 1, out := s.out ++ [.spdm 0x04 0x12] })
    ∧ (∃ v, answers .spdmGetCapabilities 1 2 0x61 v) ∧ answers .spdmNegotiateAlgorithms 2 3 0x63 0x280
    ∧ answers .spdmGetDigests 3 3 0x01 (ofBe (sha384 certChain))
    ∧ (∀ o n, answers (.spdmGetCertificate o n) 3 3 0x02 (ofLe ((certChain.drop o).take n)))
    ∧ (∀ nonce, ∃ v, answers (.spdmChallenge nonce) 3 3 0x03 v)
    ∧ answers (.spdmGetMeasurements 0) 3 3 0x60 6 ∧ answers (.spdmGetMeasurements 6) 3 3 0x60 (s.reg Reg.STR_ID).toNat
    ∧ (s.rd F.STR_START_STATE ≤ 1 → ∀ i, 1 ≤ i → i ≤ 5 → answers (.spdmGetMeasurements i) 3 3 0x60 0)
    ∧ (s.rd F.STR_START_STATE = 8 → answers (.spdmGetMeasurements 1) 3 3 0x60 s.imgDigest
      ∧ answers (.spdmGetMeasurements 2) 3 3 0x60 (s.rd F.STR_BUILD_BUILD))

/-- The TAP's instructions: IDCODE gives 0x0808A0C3 and BYPASS a zero bit; SAMPLE/PRELOAD takes what is shifted in; EXTEST, CLAMP and HIGHZ are in force
only while MRST_N is asserted, and act as BYPASS otherwise; REGREAD captures a register with its status (R763 to R765). -/
def Obligations.TapInstructions : Prop :=
  ∀ s : State, s.standby = true →
    let loads (i : Instr) (ir v : Nat) : Prop := ∃ t, exec i s = .next t ∧ t.jtag = { s.jtag with ir := ir } ∧ t.out = s.out ++ [.jtagData v]
      ∧ { t with regs := s.regs, jtag := s.jtag, out := s.out } = s ∧ SameRegs [Reg.STR_PINS] s t
    loads .bypass 0xFF 0 ∧ loads .idcode 0x01 0x0808A0C3
    ∧ (s.mrst = true → loads .extest 0x06 s.jtag.bsr ∧ loads .clamp 0x04 0 ∧ loads .highz 0x05 0)
    ∧ (s.mrst = false → loads .extest 0xFF 0 ∧ loads .clamp 0xFF 0 ∧ loads .highz 0xFF 0)
    ∧ (∀ w, ∃ t, exec (.samplePreload w) s = .next t ∧ t.jtag = { s.jtag with ir := 0x02, bsr := w } ∧ t.mem = s.mem ∧ SameRegs [Reg.STR_PINS] s t)
    ∧ ∀ dr : BitVec 72, let off := 8 * bits dr.toNat 27 3
      off ≠ Reg.LAP_COUNT → ∃ t, exec (.regread dr) s = .next t ∧ t.jtag.ir = 0x20 ∧ t.out = s.out ++ [.jtagData t.jtag.capture]
        ∧ (s.rails = true → (off < 0xD00000 ∨ (0x1000000 ≤ off ∧ off < 0x1800000)) → t.jtag.capture = (s.readWord off).toNat)
        ∧ (s.rails = true → ¬(off < 0xD00000 ∨ (0x1000000 ≤ off ∧ off < 0x1800000)) → t.jtag.capture = 2 * 2 ^ 64)
        ∧ (s.rails = false → off ∈ offReadable → t.jtag.capture = (s.readWord off).toNat)
        ∧ (s.rails = false → off ∉ offReadable → t.jtag.capture = 2 ^ 64) ∧ t.mem = s.mem ∧ SameRegs [Reg.STR_PINS] s t
end

