-- ==== Sys2Proof/Laws/Sparse.lean ====
section
/-!
SUPPORT. Sparse data: a read after a write to the same key gives the value written, a write leaves every other key alone, and every
operation keeps the canonical form. The same for memory.
-/

namespace Sys2Proof.Machine

variable {α : Type}

theorem serase_cons (p : Nat × α) (m : Sparse α) (k : Nat) :
    serase (p :: m) k = if p.1 = k then serase m k else p :: serase m k := by
  unfold serase
  by_cases h : p.1 = k <;> simp [h]

theorem sget_serase_ne (d : Nat → α) (m : Sparse α) {k j : Nat} (h : k ≠ j) : sget d (serase m j) k = sget d m k := by
  induction m with
  | nil => rfl
  | cons p m ih =>
    obtain ⟨i, v⟩ := p
    rw [serase_cons]
    split
    · rename_i hi
      have : i ≠ k := fun e => h (e.symm.trans hi)
      simp [sget, ih, this]
    · simp [sget, ih]

theorem sget_serase_self (d : Nat → α) (m : Sparse α) (k : Nat) : sget d (serase m k) k = d k := by
  induction m with
  | nil => rfl
  | cons p m ih =>
    obtain ⟨i, v⟩ := p
    rw [serase_cons]
    split
    · exact ih
    · rename_i hi
      have : i ≠ k := hi
      simp [sget, ih, this]

theorem sget_sinsert_self (d : Nat → α) (m : Sparse α) (k : Nat) (v : α) (h : ∀ p ∈ m, p.1 ≠ k) : sget d (sinsert m k v) k = v := by
  induction m with
  | nil => simp [sinsert, sget]
  | cons p m ih =>
    obtain ⟨i, w⟩ := p
    have hi : i ≠ k := h (i, w) (by simp)
    have ih' := ih (fun p hp => h p (by simp [hp]))
    unfold sinsert
    split <;> simp [sget, hi, ih']

theorem sget_sinsert_ne (d : Nat → α) (m : Sparse α) {k j : Nat} (v : α) (h : k ≠ j) : sget d (sinsert m j v) k = sget d m k := by
  induction m with
  | nil => simp [sinsert, sget, Ne.symm h]
  | cons p m ih =>
    obtain ⟨i, w⟩ := p
    unfold sinsert
    split
    · simp [sget, Ne.symm h]
    · by_cases hi : i = k <;> simp [sget, hi, ih]

theorem serase_keys (m : Sparse α) (k : Nat) : ∀ p ∈ serase m k, p.1 ≠ k := by
  intro p hp
  have := List.of_mem_filter hp
  simpa using this

/-- A read after a write: the value written at its key, every other key as before. -/
theorem sget_sset [DecidableEq α] (d : Nat → α) (m : Sparse α) (j k : Nat) (v : α) :
    sget d (sset d m j v) k = if k = j then v else sget d m k := by
  unfold sset
  by_cases h : k = j
  · subst h
    split
    · simp [sget_serase_self, *]
    · simp [sget_sinsert_self d _ k v (serase_keys m k)]
  · split
    · simp [sget_serase_ne d m h]
    · simp [sget_sinsert_ne d _ v h, sget_serase_ne d m h]

@[simp] theorem sget_sset_self [DecidableEq α] (d : Nat → α) (m : Sparse α) (k : Nat) (v : α) : sget d (sset d m k v) k = v := by
  simp [sget_sset]

theorem sget_sset_ne [DecidableEq α] (d : Nat → α) (m : Sparse α) {j k : Nat} (v : α) (h : k ≠ j) :
    sget d (sset d m j v) k = sget d m k := by
  simp [sget_sset, h]

@[simp] theorem sget_nil (d : Nat → α) (k : Nat) : sget d [] k = d k := rfl

/-! The canonical form. -/

theorem serase_sorted (m : Sparse α) (k : Nat) (h : (m.map (·.1)).Pairwise (· < ·)) : ((serase m k).map (·.1)).Pairwise (· < ·) :=
  h.sublist (List.Sublist.map _ List.filter_sublist)

theorem mem_sinsert (m : Sparse α) (k : Nat) (v : α) (p : Nat × α) (h : p ∈ sinsert m k v) : p = (k, v) ∨ p ∈ m := by
  induction m with
  | nil => simpa [sinsert] using h
  | cons q m ih =>
    obtain ⟨i, w⟩ := q
    unfold sinsert at h
    split at h
    · simp only [List.mem_cons] at h ⊢
      tauto
    · simp only [List.mem_cons] at h ⊢
      rcases h with h | h
      · tauto
      · rcases ih h with h | h <;> tauto

theorem sinsert_sorted (m : Sparse α) (k : Nat) (v : α) (h : (m.map (·.1)).Pairwise (· < ·)) (hk : ∀ p ∈ m, p.1 ≠ k) :
    ((sinsert m k v).map (·.1)).Pairwise (· < ·) := by
  induction m with
  | nil => simp [sinsert]
  | cons q m ih =>
    obtain ⟨i, w⟩ := q
    simp only [List.map_cons, List.pairwise_cons, List.mem_map, forall_exists_index, and_imp, forall_apply_eq_imp_iff₂] at h
    have hi : i ≠ k := hk (i, w) (by simp)
    unfold sinsert
    split
    · rename_i hlt
      simp only [List.map_cons, List.pairwise_cons, List.mem_cons, List.mem_map, forall_eq_or_imp, forall_exists_index, and_imp,
        forall_apply_eq_imp_iff₂]
      exact ⟨⟨hlt, fun p hp => lt_trans hlt (h.1 p hp)⟩, h.1, h.2⟩
    · rename_i hlt
      simp only [List.map_cons, List.pairwise_cons, List.mem_map, forall_exists_index, and_imp, forall_apply_eq_imp_iff₂]
      refine ⟨fun p hp => ?_, ih h.2 (fun p hp => hk p (by simp [hp]))⟩
      rcases mem_sinsert m k v p hp with rfl | hp
      · show i < k
        omega
      · exact h.1 p hp

/-- Every write keeps the canonical form. -/
theorem swf_sset [DecidableEq α] (d : Nat → α) (m : Sparse α) (k : Nat) (v : α) (h : swf d m = true) : swf d (sset d m k v) = true := by
  simp only [swf, Bool.and_eq_true, decide_eq_true_eq, List.all_eq_true] at h ⊢
  obtain ⟨hs, hd⟩ := h
  have hs' := serase_sorted m k hs
  unfold sset
  split
  · exact ⟨hs', fun p hp => hd p (List.mem_of_mem_filter hp)⟩
  · rename_i hv
    refine ⟨sinsert_sorted _ k v hs' (serase_keys m k), fun p hp => ?_⟩
    rcases mem_sinsert _ k v p hp with rfl | hp
    · exact hv
    · exact hd p (List.mem_of_mem_filter hp)

/-! Memory. -/

theorem cellGet_eq_sget (m : List (Nat × Byte)) (k : Nat) : cellGet m k = sget (fun _ => none) (m.map (fun p => (p.1, some p.2))) k := by
  induction m with
  | nil => rfl
  | cons p m ih =>
    obtain ⟨i, v⟩ := p
    simp only [cellGet, List.map_cons, sget, ih]

theorem map_sinsert {β : Type} (f : α → β) (m : Sparse α) (k : Nat) (v : α) :
    (sinsert m k v).map (fun p => (p.1, f p.2)) = sinsert (m.map (fun p => (p.1, f p.2))) k (f v) := by
  induction m with
  | nil => rfl
  | cons p m ih =>
    obtain ⟨i, w⟩ := p
    simp only [sinsert, List.map_cons]
    split <;> simp [ih]

theorem map_serase {β : Type} (f : α → β) (m : Sparse α) (k : Nat) :
    (serase m k).map (fun p => (p.1, f p.2)) = serase (m.map (fun p => (p.1, f p.2))) k := by
  unfold serase
  rw [List.filter_map]
  rfl

/-- A byte of memory reads as written, and every other byte as before. -/
theorem cellGet_cellSet (m : List (Nat × Byte)) (a k : Nat) (v : Byte) :
    cellGet (cellSet m a v) k = if k = a then some v else cellGet m k := by
  rw [cellGet_eq_sget, cellGet_eq_sget, cellSet, map_sinsert, map_serase]
  by_cases h : k = a
  · subst h
    simp [sget_sinsert_self _ _ k _ (serase_keys _ k)]
  · simp [h, sget_sinsert_ne _ _ _ h, sget_serase_ne _ _ h]

/-- Writing a byte keeps the canonical form of memory. -/
theorem Memory.wf_cellSet (m : List (Nat × Byte)) (a : Nat) (v : Byte) (h : Memory.wf m = true) : Memory.wf (cellSet m a v) = true := by
  simp only [Memory.wf, decide_eq_true_eq] at h ⊢
  exact sinsert_sorted _ a v (serase_sorted m a h) (serase_keys m a)

/-- Forgetting a byte keeps the canonical form of memory. -/
theorem Memory.wf_cellErase (m : List (Nat × Byte)) (a : Nat) (h : Memory.wf m = true) : Memory.wf (cellErase m a) = true := by
  simp only [Memory.wf, decide_eq_true_eq] at h ⊢
  exact serase_sorted m a h

/-- Memory with nothing listed is canonical. -/
theorem Memory.wf_nil : Memory.wf [] = true := rfl

end Sys2Proof.Machine
end

