-- ==== Sys2Proof/Laws/State.lean ====
section
/-!
SUPPORT. One lemma per field per basic update of State, true by rfl: what each update leaves alone. No later proof unfolds a record
update.
-/

namespace Sys2Proof.Machine

section
variable (s : State)

/-! State.setReg changes regs alone. -/

@[simp] theorem State.setReg_pending (off : Nat) (v : Word) : (s.setReg off v).pending = s.pending := (rfl)
@[simp] theorem State.setReg_free (off : Nat) (v : Word) : (s.setReg off v).free = s.free := (rfl)
@[simp] theorem State.setReg_latched (off : Nat) (v : Word) : (s.setReg off v).latched = s.latched := (rfl)
@[simp] theorem State.setReg_staged (off : Nat) (v : Word) : (s.setReg off v).staged = s.staged := (rfl)
@[simp] theorem State.setReg_mem (off : Nat) (v : Word) : (s.setReg off v).mem = s.mem := (rfl)
@[simp] theorem State.setReg_out (off : Nat) (v : Word) : (s.setReg off v).out = s.out := (rfl)
@[simp] theorem State.setReg_ring (off : Nat) (v : Word) : (s.setReg off v).ring = s.ring := (rfl)
@[simp] theorem State.setReg_lap (off : Nat) (v : Word) : (s.setReg off v).lap = s.lap := (rfl)
@[simp] theorem State.setReg_arms (off : Nat) (v : Word) : (s.setReg off v).arms = s.arms := (rfl)
@[simp] theorem State.setReg_votes (off : Nat) (v : Word) : (s.setReg off v).votes = s.votes := (rfl)
@[simp] theorem State.setReg_hdAway (off : Nat) (v : Word) : (s.setReg off v).hdAway = s.hdAway := (rfl)
@[simp] theorem State.setReg_clusters (off : Nat) (v : Word) : (s.setReg off v).clusters = s.clusters := (rfl)
@[simp] theorem State.setReg_stash (off : Nat) (v : Word) : (s.setReg off v).stash = s.stash := (rfl)
@[simp] theorem State.setReg_shards (off : Nat) (v : Word) : (s.setReg off v).shards = s.shards := (rfl)
@[simp] theorem State.setReg_ties (off : Nat) (v : Word) : (s.setReg off v).ties = s.ties := (rfl)
@[simp] theorem State.setReg_slots (off : Nat) (v : Word) : (s.setReg off v).slots = s.slots := (rfl)
@[simp] theorem State.setReg_lines (off : Nat) (v : Word) : (s.setReg off v).lines = s.lines := (rfl)
@[simp] theorem State.setReg_wbs (off : Nat) (v : Word) : (s.setReg off v).wbs = s.wbs := (rfl)
@[simp] theorem State.setReg_dirs (off : Nat) (v : Word) : (s.setReg off v).dirs = s.dirs := (rfl)
@[simp] theorem State.setReg_bias (off : Nat) (v : Word) : (s.setReg off v).bias = s.bias := (rfl)
@[simp] theorem State.setReg_txns (off : Nat) (v : Word) : (s.setReg off v).txns = s.txns := (rfl)
@[simp] theorem State.setReg_reqs (off : Nat) (v : Word) : (s.setReg off v).reqs = s.reqs := (rfl)
@[simp] theorem State.setReg_reqNo (off : Nat) (v : Word) : (s.setReg off v).reqNo = s.reqNo := (rfl)
@[simp] theorem State.setReg_tenures (off : Nat) (v : Word) : (s.setReg off v).tenures = s.tenures := (rfl)
@[simp] theorem State.setReg_heldSnps (off : Nat) (v : Word) : (s.setReg off v).heldSnps = s.heldSnps := (rfl)
@[simp] theorem State.setReg_gone (off : Nat) (v : Word) : (s.setReg off v).gone = s.gone := (rfl)
@[simp] theorem State.setReg_credits (off : Nat) (v : Word) : (s.setReg off v).credits = s.credits := (rfl)
@[simp] theorem State.setReg_linkWhy (off : Nat) (v : Word) : (s.setReg off v).linkWhy = s.linkWhy := (rfl)
@[simp] theorem State.setReg_linkSeq (off : Nat) (v : Word) : (s.setReg off v).linkSeq = s.linkSeq := (rfl)
@[simp] theorem State.setReg_stop (off : Nat) (v : Word) : (s.setReg off v).stop = s.stop := (rfl)
@[simp] theorem State.setReg_biasCmd (off : Nat) (v : Word) : (s.setReg off v).biasCmd = s.biasCmd := (rfl)
@[simp] theorem State.setReg_tracker (off : Nat) (v : Word) : (s.setReg off v).tracker = s.tracker := (rfl)
@[simp] theorem State.setReg_nqTail (off : Nat) (v : Word) : (s.setReg off v).nqTail = s.nqTail := (rfl)
@[simp] theorem State.setReg_nqPhase (off : Nat) (v : Word) : (s.setReg off v).nqPhase = s.nqPhase := (rfl)
@[simp] theorem State.setReg_nqCount (off : Nat) (v : Word) : (s.setReg off v).nqCount = s.nqCount := (rfl)
@[simp] theorem State.setReg_walks (off : Nat) (v : Word) : (s.setReg off v).walks = s.walks := (rfl)
@[simp] theorem State.setReg_walkNo (off : Nat) (v : Word) : (s.setReg off v).walkNo = s.walkNo := (rfl)
@[simp] theorem State.setReg_fqTail (off : Nat) (v : Word) : (s.setReg off v).fqTail = s.fqTail := (rfl)
@[simp] theorem State.setReg_fqPhase (off : Nat) (v : Word) : (s.setReg off v).fqPhase = s.fqPhase := (rfl)
@[simp] theorem State.setReg_sds (off : Nat) (v : Word) : (s.setReg off v).sds = s.sds := (rfl)
@[simp] theorem State.setReg_queues (off : Nat) (v : Word) : (s.setReg off v).queues = s.queues := (rfl)
@[simp] theorem State.setReg_engs (off : Nat) (v : Word) : (s.setReg off v).engs = s.engs := (rfl)
@[simp] theorem State.setReg_rrobin (off : Nat) (v : Word) : (s.setReg off v).rrobin = s.rrobin := (rfl)
@[simp] theorem State.setReg_ctxs (off : Nat) (v : Word) : (s.setReg off v).ctxs = s.ctxs := (rfl)
@[simp] theorem State.setReg_surfs (off : Nat) (v : Word) : (s.setReg off v).surfs = s.surfs := (rfl)
@[simp] theorem State.setReg_engHeld (off : Nat) (v : Word) : (s.setReg off v).engHeld = s.engHeld := (rfl)
@[simp] theorem State.setReg_moved (off : Nat) (v : Word) : (s.setReg off v).moved = s.moved := (rfl)
@[simp] theorem State.setReg_peerTag (off : Nat) (v : Word) : (s.setReg off v).peerTag = s.peerTag := (rfl)
@[simp] theorem State.setReg_odbs (off : Nat) (v : Word) : (s.setReg off v).odbs = s.odbs := (rfl)
@[simp] theorem State.setReg_since (off : Nat) (v : Word) : (s.setReg off v).since = s.since := (rfl)
@[simp] theorem State.setReg_told (off : Nat) (v : Word) : (s.setReg off v).told = s.told := (rfl)
@[simp] theorem State.setReg_hostPhase (off : Nat) (v : Word) : (s.setReg off v).hostPhase = s.hostPhase := (rfl)
@[simp] theorem State.setReg_rots (off : Nat) (v : Word) : (s.setReg off v).rots = s.rots := (rfl)
@[simp] theorem State.setReg_template (off : Nat) (v : Word) : (s.setReg off v).template = s.template := (rfl)
@[simp] theorem State.setReg_ports (off : Nat) (v : Word) : (s.setReg off v).ports = s.ports := (rfl)
@[simp] theorem State.setReg_tests (off : Nat) (v : Word) : (s.setReg off v).tests = s.tests := (rfl)
@[simp] theorem State.setReg_deferred (off : Nat) (v : Word) : (s.setReg off v).deferred = s.deferred := (rfl)
@[simp] theorem State.setReg_power (off : Nat) (v : Word) : (s.setReg off v).power = s.power := (rfl)
@[simp] theorem State.setReg_degr (off : Nat) (v : Word) : (s.setReg off v).degr = s.degr := (rfl)
@[simp] theorem State.setReg_relayTag (off : Nat) (v : Word) : (s.setReg off v).relayTag = s.relayTag := (rfl)
@[simp] theorem State.setReg_engSwap (off : Nat) (v : Word) : (s.setReg off v).engSwap = s.engSwap := (rfl)
@[simp] theorem State.setReg_relayDead (off : Nat) (v : Word) : (s.setReg off v).relayDead = s.relayDead := (rfl)
@[simp] theorem State.setReg_mrst (off : Nat) (v : Word) : (s.setReg off v).mrst = s.mrst := (rfl)
@[simp] theorem State.setReg_rails (off : Nat) (v : Word) : (s.setReg off v).rails = s.rails := (rfl)
@[simp] theorem State.setReg_tripped (off : Nat) (v : Word) : (s.setReg off v).tripped = s.tripped := (rfl)
@[simp] theorem State.setReg_standby (off : Nat) (v : Word) : (s.setReg off v).standby = s.standby := (rfl)
@[simp] theorem State.setReg_jtag (off : Nat) (v : Word) : (s.setReg off v).jtag = s.jtag := (rfl)
@[simp] theorem State.setReg_spdm (off : Nat) (v : Word) : (s.setReg off v).spdm = s.spdm := (rfl)
@[simp] theorem State.setReg_image (off : Nat) (v : Word) : (s.setReg off v).image = s.image := (rfl)
@[simp] theorem State.setReg_imgDigest (off : Nat) (v : Word) : (s.setReg off v).imgDigest = s.imgDigest := (rfl)
@[simp] theorem State.setReg_wbTxns (off : Nat) (v : Word) : (s.setReg off v).wbTxns = s.wbTxns := (rfl)
@[simp] theorem State.setReg_eccErrs (off : Nat) (v : Word) : (s.setReg off v).eccErrs = s.eccErrs := (rfl)
@[simp] theorem State.setReg_laneUse (off : Nat) (v : Word) : (s.setReg off v).laneUse = s.laneUse := (rfl)
@[simp] theorem State.setReg_walkTurn (off : Nat) (v : Word) : (s.setReg off v).walkTurn = s.walkTurn := (rfl)
@[simp] theorem State.setReg_decayed (off : Nat) (v : Word) : (s.setReg off v).decayed = s.decayed := (rfl)
@[simp] theorem State.setReg_asks (off : Nat) (v : Word) : (s.setReg off v).asks = s.asks := (rfl)
@[simp] theorem State.setReg_msgNo (off : Nat) (v : Word) : (s.setReg off v).msgNo = s.msgNo := (rfl)
@[simp] theorem State.setReg_mgmtDrops (off : Nat) (v : Word) : (s.setReg off v).mgmtDrops = s.mgmtDrops := (rfl)
@[simp] theorem State.setReg_l2 (off : Nat) (v : Word) : (s.setReg off v).l2 = s.l2 := (rfl)
@[simp] theorem State.setReg_imsic (off : Nat) (v : Word) : (s.setReg off v).imsic = s.imsic := (rfl)
@[simp] theorem State.setReg_pcieHeld (off : Nat) (v : Word) : (s.setReg off v).pcieHeld = s.pcieHeld := (rfl)
@[simp] theorem State.setReg_devReqs (off : Nat) (v : Word) : (s.setReg off v).devReqs = s.devReqs := (rfl)
@[simp] theorem State.setReg_memQ (off : Nat) (v : Word) : (s.setReg off v).memQ = s.memQ := (rfl)
@[simp] theorem State.setReg_flushes (off : Nat) (v : Word) : (s.setReg off v).flushes = s.flushes := (rfl)
@[simp] theorem State.setReg_leaving (off : Nat) (v : Word) : (s.setReg off v).leaving = s.leaving := (rfl)
@[simp] theorem State.setReg_hostWaits (off : Nat) (v : Word) : (s.setReg off v).hostWaits = s.hostWaits := (rfl)
@[simp] theorem State.setReg_wrNo (off : Nat) (v : Word) : (s.setReg off v).wrNo = s.wrNo := (rfl)

/-! State.wr changes regs alone. -/

@[simp] theorem State.wr_pending (f : Fld) (v : Nat) : (s.wr f v).pending = s.pending := (rfl)
@[simp] theorem State.wr_free (f : Fld) (v : Nat) : (s.wr f v).free = s.free := (rfl)
@[simp] theorem State.wr_latched (f : Fld) (v : Nat) : (s.wr f v).latched = s.latched := (rfl)
@[simp] theorem State.wr_staged (f : Fld) (v : Nat) : (s.wr f v).staged = s.staged := (rfl)
@[simp] theorem State.wr_mem (f : Fld) (v : Nat) : (s.wr f v).mem = s.mem := (rfl)
@[simp] theorem State.wr_out (f : Fld) (v : Nat) : (s.wr f v).out = s.out := (rfl)
@[simp] theorem State.wr_ring (f : Fld) (v : Nat) : (s.wr f v).ring = s.ring := (rfl)
@[simp] theorem State.wr_lap (f : Fld) (v : Nat) : (s.wr f v).lap = s.lap := (rfl)
@[simp] theorem State.wr_arms (f : Fld) (v : Nat) : (s.wr f v).arms = s.arms := (rfl)
@[simp] theorem State.wr_votes (f : Fld) (v : Nat) : (s.wr f v).votes = s.votes := (rfl)
@[simp] theorem State.wr_hdAway (f : Fld) (v : Nat) : (s.wr f v).hdAway = s.hdAway := (rfl)
@[simp] theorem State.wr_clusters (f : Fld) (v : Nat) : (s.wr f v).clusters = s.clusters := (rfl)
@[simp] theorem State.wr_stash (f : Fld) (v : Nat) : (s.wr f v).stash = s.stash := (rfl)
@[simp] theorem State.wr_shards (f : Fld) (v : Nat) : (s.wr f v).shards = s.shards := (rfl)
@[simp] theorem State.wr_ties (f : Fld) (v : Nat) : (s.wr f v).ties = s.ties := (rfl)
@[simp] theorem State.wr_slots (f : Fld) (v : Nat) : (s.wr f v).slots = s.slots := (rfl)
@[simp] theorem State.wr_lines (f : Fld) (v : Nat) : (s.wr f v).lines = s.lines := (rfl)
@[simp] theorem State.wr_wbs (f : Fld) (v : Nat) : (s.wr f v).wbs = s.wbs := (rfl)
@[simp] theorem State.wr_dirs (f : Fld) (v : Nat) : (s.wr f v).dirs = s.dirs := (rfl)
@[simp] theorem State.wr_bias (f : Fld) (v : Nat) : (s.wr f v).bias = s.bias := (rfl)
@[simp] theorem State.wr_txns (f : Fld) (v : Nat) : (s.wr f v).txns = s.txns := (rfl)
@[simp] theorem State.wr_reqs (f : Fld) (v : Nat) : (s.wr f v).reqs = s.reqs := (rfl)
@[simp] theorem State.wr_reqNo (f : Fld) (v : Nat) : (s.wr f v).reqNo = s.reqNo := (rfl)
@[simp] theorem State.wr_tenures (f : Fld) (v : Nat) : (s.wr f v).tenures = s.tenures := (rfl)
@[simp] theorem State.wr_heldSnps (f : Fld) (v : Nat) : (s.wr f v).heldSnps = s.heldSnps := (rfl)
@[simp] theorem State.wr_gone (f : Fld) (v : Nat) : (s.wr f v).gone = s.gone := (rfl)
@[simp] theorem State.wr_credits (f : Fld) (v : Nat) : (s.wr f v).credits = s.credits := (rfl)
@[simp] theorem State.wr_linkWhy (f : Fld) (v : Nat) : (s.wr f v).linkWhy = s.linkWhy := (rfl)
@[simp] theorem State.wr_linkSeq (f : Fld) (v : Nat) : (s.wr f v).linkSeq = s.linkSeq := (rfl)
@[simp] theorem State.wr_stop (f : Fld) (v : Nat) : (s.wr f v).stop = s.stop := (rfl)
@[simp] theorem State.wr_biasCmd (f : Fld) (v : Nat) : (s.wr f v).biasCmd = s.biasCmd := (rfl)
@[simp] theorem State.wr_tracker (f : Fld) (v : Nat) : (s.wr f v).tracker = s.tracker := (rfl)
@[simp] theorem State.wr_nqTail (f : Fld) (v : Nat) : (s.wr f v).nqTail = s.nqTail := (rfl)
@[simp] theorem State.wr_nqPhase (f : Fld) (v : Nat) : (s.wr f v).nqPhase = s.nqPhase := (rfl)
@[simp] theorem State.wr_nqCount (f : Fld) (v : Nat) : (s.wr f v).nqCount = s.nqCount := (rfl)
@[simp] theorem State.wr_walks (f : Fld) (v : Nat) : (s.wr f v).walks = s.walks := (rfl)
@[simp] theorem State.wr_walkNo (f : Fld) (v : Nat) : (s.wr f v).walkNo = s.walkNo := (rfl)
@[simp] theorem State.wr_fqTail (f : Fld) (v : Nat) : (s.wr f v).fqTail = s.fqTail := (rfl)
@[simp] theorem State.wr_fqPhase (f : Fld) (v : Nat) : (s.wr f v).fqPhase = s.fqPhase := (rfl)
@[simp] theorem State.wr_sds (f : Fld) (v : Nat) : (s.wr f v).sds = s.sds := (rfl)
@[simp] theorem State.wr_queues (f : Fld) (v : Nat) : (s.wr f v).queues = s.queues := (rfl)
@[simp] theorem State.wr_engs (f : Fld) (v : Nat) : (s.wr f v).engs = s.engs := (rfl)
@[simp] theorem State.wr_rrobin (f : Fld) (v : Nat) : (s.wr f v).rrobin = s.rrobin := (rfl)
@[simp] theorem State.wr_ctxs (f : Fld) (v : Nat) : (s.wr f v).ctxs = s.ctxs := (rfl)
@[simp] theorem State.wr_surfs (f : Fld) (v : Nat) : (s.wr f v).surfs = s.surfs := (rfl)
@[simp] theorem State.wr_engHeld (f : Fld) (v : Nat) : (s.wr f v).engHeld = s.engHeld := (rfl)
@[simp] theorem State.wr_moved (f : Fld) (v : Nat) : (s.wr f v).moved = s.moved := (rfl)
@[simp] theorem State.wr_peerTag (f : Fld) (v : Nat) : (s.wr f v).peerTag = s.peerTag := (rfl)
@[simp] theorem State.wr_odbs (f : Fld) (v : Nat) : (s.wr f v).odbs = s.odbs := (rfl)
@[simp] theorem State.wr_since (f : Fld) (v : Nat) : (s.wr f v).since = s.since := (rfl)
@[simp] theorem State.wr_told (f : Fld) (v : Nat) : (s.wr f v).told = s.told := (rfl)
@[simp] theorem State.wr_hostPhase (f : Fld) (v : Nat) : (s.wr f v).hostPhase = s.hostPhase := (rfl)
@[simp] theorem State.wr_rots (f : Fld) (v : Nat) : (s.wr f v).rots = s.rots := (rfl)
@[simp] theorem State.wr_template (f : Fld) (v : Nat) : (s.wr f v).template = s.template := (rfl)
@[simp] theorem State.wr_ports (f : Fld) (v : Nat) : (s.wr f v).ports = s.ports := (rfl)
@[simp] theorem State.wr_tests (f : Fld) (v : Nat) : (s.wr f v).tests = s.tests := (rfl)
@[simp] theorem State.wr_deferred (f : Fld) (v : Nat) : (s.wr f v).deferred = s.deferred := (rfl)
@[simp] theorem State.wr_power (f : Fld) (v : Nat) : (s.wr f v).power = s.power := (rfl)
@[simp] theorem State.wr_degr (f : Fld) (v : Nat) : (s.wr f v).degr = s.degr := (rfl)
@[simp] theorem State.wr_relayTag (f : Fld) (v : Nat) : (s.wr f v).relayTag = s.relayTag := (rfl)
@[simp] theorem State.wr_engSwap (f : Fld) (v : Nat) : (s.wr f v).engSwap = s.engSwap := (rfl)
@[simp] theorem State.wr_relayDead (f : Fld) (v : Nat) : (s.wr f v).relayDead = s.relayDead := (rfl)
@[simp] theorem State.wr_mrst (f : Fld) (v : Nat) : (s.wr f v).mrst = s.mrst := (rfl)
@[simp] theorem State.wr_rails (f : Fld) (v : Nat) : (s.wr f v).rails = s.rails := (rfl)
@[simp] theorem State.wr_tripped (f : Fld) (v : Nat) : (s.wr f v).tripped = s.tripped := (rfl)
@[simp] theorem State.wr_standby (f : Fld) (v : Nat) : (s.wr f v).standby = s.standby := (rfl)
@[simp] theorem State.wr_jtag (f : Fld) (v : Nat) : (s.wr f v).jtag = s.jtag := (rfl)
@[simp] theorem State.wr_spdm (f : Fld) (v : Nat) : (s.wr f v).spdm = s.spdm := (rfl)
@[simp] theorem State.wr_image (f : Fld) (v : Nat) : (s.wr f v).image = s.image := (rfl)
@[simp] theorem State.wr_imgDigest (f : Fld) (v : Nat) : (s.wr f v).imgDigest = s.imgDigest := (rfl)
@[simp] theorem State.wr_wbTxns (f : Fld) (v : Nat) : (s.wr f v).wbTxns = s.wbTxns := (rfl)
@[simp] theorem State.wr_eccErrs (f : Fld) (v : Nat) : (s.wr f v).eccErrs = s.eccErrs := (rfl)
@[simp] theorem State.wr_laneUse (f : Fld) (v : Nat) : (s.wr f v).laneUse = s.laneUse := (rfl)
@[simp] theorem State.wr_walkTurn (f : Fld) (v : Nat) : (s.wr f v).walkTurn = s.walkTurn := (rfl)
@[simp] theorem State.wr_decayed (f : Fld) (v : Nat) : (s.wr f v).decayed = s.decayed := (rfl)
@[simp] theorem State.wr_asks (f : Fld) (v : Nat) : (s.wr f v).asks = s.asks := (rfl)
@[simp] theorem State.wr_msgNo (f : Fld) (v : Nat) : (s.wr f v).msgNo = s.msgNo := (rfl)
@[simp] theorem State.wr_mgmtDrops (f : Fld) (v : Nat) : (s.wr f v).mgmtDrops = s.mgmtDrops := (rfl)
@[simp] theorem State.wr_l2 (f : Fld) (v : Nat) : (s.wr f v).l2 = s.l2 := (rfl)
@[simp] theorem State.wr_imsic (f : Fld) (v : Nat) : (s.wr f v).imsic = s.imsic := (rfl)
@[simp] theorem State.wr_pcieHeld (f : Fld) (v : Nat) : (s.wr f v).pcieHeld = s.pcieHeld := (rfl)
@[simp] theorem State.wr_devReqs (f : Fld) (v : Nat) : (s.wr f v).devReqs = s.devReqs := (rfl)
@[simp] theorem State.wr_memQ (f : Fld) (v : Nat) : (s.wr f v).memQ = s.memQ := (rfl)
@[simp] theorem State.wr_flushes (f : Fld) (v : Nat) : (s.wr f v).flushes = s.flushes := (rfl)
@[simp] theorem State.wr_leaving (f : Fld) (v : Nat) : (s.wr f v).leaving = s.leaving := (rfl)
@[simp] theorem State.wr_hostWaits (f : Fld) (v : Nat) : (s.wr f v).hostWaits = s.hostWaits := (rfl)
@[simp] theorem State.wr_wrNo (f : Fld) (v : Nat) : (s.wr f v).wrNo = s.wrNo := (rfl)

/-! State.wrB changes regs alone. -/

@[simp] theorem State.wrB_pending (f : Fld) (b : Bool) : (s.wrB f b).pending = s.pending := (rfl)
@[simp] theorem State.wrB_free (f : Fld) (b : Bool) : (s.wrB f b).free = s.free := (rfl)
@[simp] theorem State.wrB_latched (f : Fld) (b : Bool) : (s.wrB f b).latched = s.latched := (rfl)
@[simp] theorem State.wrB_staged (f : Fld) (b : Bool) : (s.wrB f b).staged = s.staged := (rfl)
@[simp] theorem State.wrB_mem (f : Fld) (b : Bool) : (s.wrB f b).mem = s.mem := (rfl)
@[simp] theorem State.wrB_out (f : Fld) (b : Bool) : (s.wrB f b).out = s.out := (rfl)
@[simp] theorem State.wrB_ring (f : Fld) (b : Bool) : (s.wrB f b).ring = s.ring := (rfl)
@[simp] theorem State.wrB_lap (f : Fld) (b : Bool) : (s.wrB f b).lap = s.lap := (rfl)
@[simp] theorem State.wrB_arms (f : Fld) (b : Bool) : (s.wrB f b).arms = s.arms := (rfl)
@[simp] theorem State.wrB_votes (f : Fld) (b : Bool) : (s.wrB f b).votes = s.votes := (rfl)
@[simp] theorem State.wrB_hdAway (f : Fld) (b : Bool) : (s.wrB f b).hdAway = s.hdAway := (rfl)
@[simp] theorem State.wrB_clusters (f : Fld) (b : Bool) : (s.wrB f b).clusters = s.clusters := (rfl)
@[simp] theorem State.wrB_stash (f : Fld) (b : Bool) : (s.wrB f b).stash = s.stash := (rfl)
@[simp] theorem State.wrB_shards (f : Fld) (b : Bool) : (s.wrB f b).shards = s.shards := (rfl)
@[simp] theorem State.wrB_ties (f : Fld) (b : Bool) : (s.wrB f b).ties = s.ties := (rfl)
@[simp] theorem State.wrB_slots (f : Fld) (b : Bool) : (s.wrB f b).slots = s.slots := (rfl)
@[simp] theorem State.wrB_lines (f : Fld) (b : Bool) : (s.wrB f b).lines = s.lines := (rfl)
@[simp] theorem State.wrB_wbs (f : Fld) (b : Bool) : (s.wrB f b).wbs = s.wbs := (rfl)
@[simp] theorem State.wrB_dirs (f : Fld) (b : Bool) : (s.wrB f b).dirs = s.dirs := (rfl)
@[simp] theorem State.wrB_bias (f : Fld) (b : Bool) : (s.wrB f b).bias = s.bias := (rfl)
@[simp] theorem State.wrB_txns (f : Fld) (b : Bool) : (s.wrB f b).txns = s.txns := (rfl)
@[simp] theorem State.wrB_reqs (f : Fld) (b : Bool) : (s.wrB f b).reqs = s.reqs := (rfl)
@[simp] theorem State.wrB_reqNo (f : Fld) (b : Bool) : (s.wrB f b).reqNo = s.reqNo := (rfl)
@[simp] theorem State.wrB_tenures (f : Fld) (b : Bool) : (s.wrB f b).tenures = s.tenures := (rfl)
@[simp] theorem State.wrB_heldSnps (f : Fld) (b : Bool) : (s.wrB f b).heldSnps = s.heldSnps := (rfl)
@[simp] theorem State.wrB_gone (f : Fld) (b : Bool) : (s.wrB f b).gone = s.gone := (rfl)
@[simp] theorem State.wrB_credits (f : Fld) (b : Bool) : (s.wrB f b).credits = s.credits := (rfl)
@[simp] theorem State.wrB_linkWhy (f : Fld) (b : Bool) : (s.wrB f b).linkWhy = s.linkWhy := (rfl)
@[simp] theorem State.wrB_linkSeq (f : Fld) (b : Bool) : (s.wrB f b).linkSeq = s.linkSeq := (rfl)
@[simp] theorem State.wrB_stop (f : Fld) (b : Bool) : (s.wrB f b).stop = s.stop := (rfl)
@[simp] theorem State.wrB_biasCmd (f : Fld) (b : Bool) : (s.wrB f b).biasCmd = s.biasCmd := (rfl)
@[simp] theorem State.wrB_tracker (f : Fld) (b : Bool) : (s.wrB f b).tracker = s.tracker := (rfl)
@[simp] theorem State.wrB_nqTail (f : Fld) (b : Bool) : (s.wrB f b).nqTail = s.nqTail := (rfl)
@[simp] theorem State.wrB_nqPhase (f : Fld) (b : Bool) : (s.wrB f b).nqPhase = s.nqPhase := (rfl)
@[simp] theorem State.wrB_nqCount (f : Fld) (b : Bool) : (s.wrB f b).nqCount = s.nqCount := (rfl)
@[simp] theorem State.wrB_walks (f : Fld) (b : Bool) : (s.wrB f b).walks = s.walks := (rfl)
@[simp] theorem State.wrB_walkNo (f : Fld) (b : Bool) : (s.wrB f b).walkNo = s.walkNo := (rfl)
@[simp] theorem State.wrB_fqTail (f : Fld) (b : Bool) : (s.wrB f b).fqTail = s.fqTail := (rfl)
@[simp] theorem State.wrB_fqPhase (f : Fld) (b : Bool) : (s.wrB f b).fqPhase = s.fqPhase := (rfl)
@[simp] theorem State.wrB_sds (f : Fld) (b : Bool) : (s.wrB f b).sds = s.sds := (rfl)
@[simp] theorem State.wrB_queues (f : Fld) (b : Bool) : (s.wrB f b).queues = s.queues := (rfl)
@[simp] theorem State.wrB_engs (f : Fld) (b : Bool) : (s.wrB f b).engs = s.engs := (rfl)
@[simp] theorem State.wrB_rrobin (f : Fld) (b : Bool) : (s.wrB f b).rrobin = s.rrobin := (rfl)
@[simp] theorem State.wrB_ctxs (f : Fld) (b : Bool) : (s.wrB f b).ctxs = s.ctxs := (rfl)
@[simp] theorem State.wrB_surfs (f : Fld) (b : Bool) : (s.wrB f b).surfs = s.surfs := (rfl)
@[simp] theorem State.wrB_engHeld (f : Fld) (b : Bool) : (s.wrB f b).engHeld = s.engHeld := (rfl)
@[simp] theorem State.wrB_moved (f : Fld) (b : Bool) : (s.wrB f b).moved = s.moved := (rfl)
@[simp] theorem State.wrB_peerTag (f : Fld) (b : Bool) : (s.wrB f b).peerTag = s.peerTag := (rfl)
@[simp] theorem State.wrB_odbs (f : Fld) (b : Bool) : (s.wrB f b).odbs = s.odbs := (rfl)
@[simp] theorem State.wrB_since (f : Fld) (b : Bool) : (s.wrB f b).since = s.since := (rfl)
@[simp] theorem State.wrB_told (f : Fld) (b : Bool) : (s.wrB f b).told = s.told := (rfl)
@[simp] theorem State.wrB_hostPhase (f : Fld) (b : Bool) : (s.wrB f b).hostPhase = s.hostPhase := (rfl)
@[simp] theorem State.wrB_rots (f : Fld) (b : Bool) : (s.wrB f b).rots = s.rots := (rfl)
@[simp] theorem State.wrB_template (f : Fld) (b : Bool) : (s.wrB f b).template = s.template := (rfl)
@[simp] theorem State.wrB_ports (f : Fld) (b : Bool) : (s.wrB f b).ports = s.ports := (rfl)
@[simp] theorem State.wrB_tests (f : Fld) (b : Bool) : (s.wrB f b).tests = s.tests := (rfl)
@[simp] theorem State.wrB_deferred (f : Fld) (b : Bool) : (s.wrB f b).deferred = s.deferred := (rfl)
@[simp] theorem State.wrB_power (f : Fld) (b : Bool) : (s.wrB f b).power = s.power := (rfl)
@[simp] theorem State.wrB_degr (f : Fld) (b : Bool) : (s.wrB f b).degr = s.degr := (rfl)
@[simp] theorem State.wrB_relayTag (f : Fld) (b : Bool) : (s.wrB f b).relayTag = s.relayTag := (rfl)
@[simp] theorem State.wrB_engSwap (f : Fld) (b : Bool) : (s.wrB f b).engSwap = s.engSwap := (rfl)
@[simp] theorem State.wrB_relayDead (f : Fld) (b : Bool) : (s.wrB f b).relayDead = s.relayDead := (rfl)
@[simp] theorem State.wrB_mrst (f : Fld) (b : Bool) : (s.wrB f b).mrst = s.mrst := (rfl)
@[simp] theorem State.wrB_rails (f : Fld) (b : Bool) : (s.wrB f b).rails = s.rails := (rfl)
@[simp] theorem State.wrB_tripped (f : Fld) (b : Bool) : (s.wrB f b).tripped = s.tripped := (rfl)
@[simp] theorem State.wrB_standby (f : Fld) (b : Bool) : (s.wrB f b).standby = s.standby := (rfl)
@[simp] theorem State.wrB_jtag (f : Fld) (b : Bool) : (s.wrB f b).jtag = s.jtag := (rfl)
@[simp] theorem State.wrB_spdm (f : Fld) (b : Bool) : (s.wrB f b).spdm = s.spdm := (rfl)
@[simp] theorem State.wrB_image (f : Fld) (b : Bool) : (s.wrB f b).image = s.image := (rfl)
@[simp] theorem State.wrB_imgDigest (f : Fld) (b : Bool) : (s.wrB f b).imgDigest = s.imgDigest := (rfl)
@[simp] theorem State.wrB_wbTxns (f : Fld) (b : Bool) : (s.wrB f b).wbTxns = s.wbTxns := (rfl)
@[simp] theorem State.wrB_eccErrs (f : Fld) (b : Bool) : (s.wrB f b).eccErrs = s.eccErrs := (rfl)
@[simp] theorem State.wrB_laneUse (f : Fld) (b : Bool) : (s.wrB f b).laneUse = s.laneUse := (rfl)
@[simp] theorem State.wrB_walkTurn (f : Fld) (b : Bool) : (s.wrB f b).walkTurn = s.walkTurn := (rfl)
@[simp] theorem State.wrB_decayed (f : Fld) (b : Bool) : (s.wrB f b).decayed = s.decayed := (rfl)
@[simp] theorem State.wrB_asks (f : Fld) (b : Bool) : (s.wrB f b).asks = s.asks := (rfl)
@[simp] theorem State.wrB_msgNo (f : Fld) (b : Bool) : (s.wrB f b).msgNo = s.msgNo := (rfl)
@[simp] theorem State.wrB_mgmtDrops (f : Fld) (b : Bool) : (s.wrB f b).mgmtDrops = s.mgmtDrops := (rfl)
@[simp] theorem State.wrB_l2 (f : Fld) (b : Bool) : (s.wrB f b).l2 = s.l2 := (rfl)
@[simp] theorem State.wrB_imsic (f : Fld) (b : Bool) : (s.wrB f b).imsic = s.imsic := (rfl)
@[simp] theorem State.wrB_pcieHeld (f : Fld) (b : Bool) : (s.wrB f b).pcieHeld = s.pcieHeld := (rfl)
@[simp] theorem State.wrB_devReqs (f : Fld) (b : Bool) : (s.wrB f b).devReqs = s.devReqs := (rfl)
@[simp] theorem State.wrB_memQ (f : Fld) (b : Bool) : (s.wrB f b).memQ = s.memQ := (rfl)
@[simp] theorem State.wrB_flushes (f : Fld) (b : Bool) : (s.wrB f b).flushes = s.flushes := (rfl)
@[simp] theorem State.wrB_leaving (f : Fld) (b : Bool) : (s.wrB f b).leaving = s.leaving := (rfl)
@[simp] theorem State.wrB_hostWaits (f : Fld) (b : Bool) : (s.wrB f b).hostWaits = s.hostWaits := (rfl)
@[simp] theorem State.wrB_wrNo (f : Fld) (b : Bool) : (s.wrB f b).wrNo = s.wrNo := (rfl)

/-! State.wrInt changes regs alone. -/

@[simp] theorem State.wrInt_pending (f : Fld) (v : Int) : (s.wrInt f v).pending = s.pending := (rfl)
@[simp] theorem State.wrInt_free (f : Fld) (v : Int) : (s.wrInt f v).free = s.free := (rfl)
@[simp] theorem State.wrInt_latched (f : Fld) (v : Int) : (s.wrInt f v).latched = s.latched := (rfl)
@[simp] theorem State.wrInt_staged (f : Fld) (v : Int) : (s.wrInt f v).staged = s.staged := (rfl)
@[simp] theorem State.wrInt_mem (f : Fld) (v : Int) : (s.wrInt f v).mem = s.mem := (rfl)
@[simp] theorem State.wrInt_out (f : Fld) (v : Int) : (s.wrInt f v).out = s.out := (rfl)
@[simp] theorem State.wrInt_ring (f : Fld) (v : Int) : (s.wrInt f v).ring = s.ring := (rfl)
@[simp] theorem State.wrInt_lap (f : Fld) (v : Int) : (s.wrInt f v).lap = s.lap := (rfl)
@[simp] theorem State.wrInt_arms (f : Fld) (v : Int) : (s.wrInt f v).arms = s.arms := (rfl)
@[simp] theorem State.wrInt_votes (f : Fld) (v : Int) : (s.wrInt f v).votes = s.votes := (rfl)
@[simp] theorem State.wrInt_hdAway (f : Fld) (v : Int) : (s.wrInt f v).hdAway = s.hdAway := (rfl)
@[simp] theorem State.wrInt_clusters (f : Fld) (v : Int) : (s.wrInt f v).clusters = s.clusters := (rfl)
@[simp] theorem State.wrInt_stash (f : Fld) (v : Int) : (s.wrInt f v).stash = s.stash := (rfl)
@[simp] theorem State.wrInt_shards (f : Fld) (v : Int) : (s.wrInt f v).shards = s.shards := (rfl)
@[simp] theorem State.wrInt_ties (f : Fld) (v : Int) : (s.wrInt f v).ties = s.ties := (rfl)
@[simp] theorem State.wrInt_slots (f : Fld) (v : Int) : (s.wrInt f v).slots = s.slots := (rfl)
@[simp] theorem State.wrInt_lines (f : Fld) (v : Int) : (s.wrInt f v).lines = s.lines := (rfl)
@[simp] theorem State.wrInt_wbs (f : Fld) (v : Int) : (s.wrInt f v).wbs = s.wbs := (rfl)
@[simp] theorem State.wrInt_dirs (f : Fld) (v : Int) : (s.wrInt f v).dirs = s.dirs := (rfl)
@[simp] theorem State.wrInt_bias (f : Fld) (v : Int) : (s.wrInt f v).bias = s.bias := (rfl)
@[simp] theorem State.wrInt_txns (f : Fld) (v : Int) : (s.wrInt f v).txns = s.txns := (rfl)
@[simp] theorem State.wrInt_reqs (f : Fld) (v : Int) : (s.wrInt f v).reqs = s.reqs := (rfl)
@[simp] theorem State.wrInt_reqNo (f : Fld) (v : Int) : (s.wrInt f v).reqNo = s.reqNo := (rfl)
@[simp] theorem State.wrInt_tenures (f : Fld) (v : Int) : (s.wrInt f v).tenures = s.tenures := (rfl)
@[simp] theorem State.wrInt_heldSnps (f : Fld) (v : Int) : (s.wrInt f v).heldSnps = s.heldSnps := (rfl)
@[simp] theorem State.wrInt_gone (f : Fld) (v : Int) : (s.wrInt f v).gone = s.gone := (rfl)
@[simp] theorem State.wrInt_credits (f : Fld) (v : Int) : (s.wrInt f v).credits = s.credits := (rfl)
@[simp] theorem State.wrInt_linkWhy (f : Fld) (v : Int) : (s.wrInt f v).linkWhy = s.linkWhy := (rfl)
@[simp] theorem State.wrInt_linkSeq (f : Fld) (v : Int) : (s.wrInt f v).linkSeq = s.linkSeq := (rfl)
@[simp] theorem State.wrInt_stop (f : Fld) (v : Int) : (s.wrInt f v).stop = s.stop := (rfl)
@[simp] theorem State.wrInt_biasCmd (f : Fld) (v : Int) : (s.wrInt f v).biasCmd = s.biasCmd := (rfl)
@[simp] theorem State.wrInt_tracker (f : Fld) (v : Int) : (s.wrInt f v).tracker = s.tracker := (rfl)
@[simp] theorem State.wrInt_nqTail (f : Fld) (v : Int) : (s.wrInt f v).nqTail = s.nqTail := (rfl)
@[simp] theorem State.wrInt_nqPhase (f : Fld) (v : Int) : (s.wrInt f v).nqPhase = s.nqPhase := (rfl)
@[simp] theorem State.wrInt_nqCount (f : Fld) (v : Int) : (s.wrInt f v).nqCount = s.nqCount := (rfl)
@[simp] theorem State.wrInt_walks (f : Fld) (v : Int) : (s.wrInt f v).walks = s.walks := (rfl)
@[simp] theorem State.wrInt_walkNo (f : Fld) (v : Int) : (s.wrInt f v).walkNo = s.walkNo := (rfl)
@[simp] theorem State.wrInt_fqTail (f : Fld) (v : Int) : (s.wrInt f v).fqTail = s.fqTail := (rfl)
@[simp] theorem State.wrInt_fqPhase (f : Fld) (v : Int) : (s.wrInt f v).fqPhase = s.fqPhase := (rfl)
@[simp] theorem State.wrInt_sds (f : Fld) (v : Int) : (s.wrInt f v).sds = s.sds := (rfl)
@[simp] theorem State.wrInt_queues (f : Fld) (v : Int) : (s.wrInt f v).queues = s.queues := (rfl)
@[simp] theorem State.wrInt_engs (f : Fld) (v : Int) : (s.wrInt f v).engs = s.engs := (rfl)
@[simp] theorem State.wrInt_rrobin (f : Fld) (v : Int) : (s.wrInt f v).rrobin = s.rrobin := (rfl)
@[simp] theorem State.wrInt_ctxs (f : Fld) (v : Int) : (s.wrInt f v).ctxs = s.ctxs := (rfl)
@[simp] theorem State.wrInt_surfs (f : Fld) (v : Int) : (s.wrInt f v).surfs = s.surfs := (rfl)
@[simp] theorem State.wrInt_engHeld (f : Fld) (v : Int) : (s.wrInt f v).engHeld = s.engHeld := (rfl)
@[simp] theorem State.wrInt_moved (f : Fld) (v : Int) : (s.wrInt f v).moved = s.moved := (rfl)
@[simp] theorem State.wrInt_peerTag (f : Fld) (v : Int) : (s.wrInt f v).peerTag = s.peerTag := (rfl)
@[simp] theorem State.wrInt_odbs (f : Fld) (v : Int) : (s.wrInt f v).odbs = s.odbs := (rfl)
@[simp] theorem State.wrInt_since (f : Fld) (v : Int) : (s.wrInt f v).since = s.since := (rfl)
@[simp] theorem State.wrInt_told (f : Fld) (v : Int) : (s.wrInt f v).told = s.told := (rfl)
@[simp] theorem State.wrInt_hostPhase (f : Fld) (v : Int) : (s.wrInt f v).hostPhase = s.hostPhase := (rfl)
@[simp] theorem State.wrInt_rots (f : Fld) (v : Int) : (s.wrInt f v).rots = s.rots := (rfl)
@[simp] theorem State.wrInt_template (f : Fld) (v : Int) : (s.wrInt f v).template = s.template := (rfl)
@[simp] theorem State.wrInt_ports (f : Fld) (v : Int) : (s.wrInt f v).ports = s.ports := (rfl)
@[simp] theorem State.wrInt_tests (f : Fld) (v : Int) : (s.wrInt f v).tests = s.tests := (rfl)
@[simp] theorem State.wrInt_deferred (f : Fld) (v : Int) : (s.wrInt f v).deferred = s.deferred := (rfl)
@[simp] theorem State.wrInt_power (f : Fld) (v : Int) : (s.wrInt f v).power = s.power := (rfl)
@[simp] theorem State.wrInt_degr (f : Fld) (v : Int) : (s.wrInt f v).degr = s.degr := (rfl)
@[simp] theorem State.wrInt_relayTag (f : Fld) (v : Int) : (s.wrInt f v).relayTag = s.relayTag := (rfl)
@[simp] theorem State.wrInt_engSwap (f : Fld) (v : Int) : (s.wrInt f v).engSwap = s.engSwap := (rfl)
@[simp] theorem State.wrInt_relayDead (f : Fld) (v : Int) : (s.wrInt f v).relayDead = s.relayDead := (rfl)
@[simp] theorem State.wrInt_mrst (f : Fld) (v : Int) : (s.wrInt f v).mrst = s.mrst := (rfl)
@[simp] theorem State.wrInt_rails (f : Fld) (v : Int) : (s.wrInt f v).rails = s.rails := (rfl)
@[simp] theorem State.wrInt_tripped (f : Fld) (v : Int) : (s.wrInt f v).tripped = s.tripped := (rfl)
@[simp] theorem State.wrInt_standby (f : Fld) (v : Int) : (s.wrInt f v).standby = s.standby := (rfl)
@[simp] theorem State.wrInt_jtag (f : Fld) (v : Int) : (s.wrInt f v).jtag = s.jtag := (rfl)
@[simp] theorem State.wrInt_spdm (f : Fld) (v : Int) : (s.wrInt f v).spdm = s.spdm := (rfl)
@[simp] theorem State.wrInt_image (f : Fld) (v : Int) : (s.wrInt f v).image = s.image := (rfl)
@[simp] theorem State.wrInt_imgDigest (f : Fld) (v : Int) : (s.wrInt f v).imgDigest = s.imgDigest := (rfl)
@[simp] theorem State.wrInt_wbTxns (f : Fld) (v : Int) : (s.wrInt f v).wbTxns = s.wbTxns := (rfl)
@[simp] theorem State.wrInt_eccErrs (f : Fld) (v : Int) : (s.wrInt f v).eccErrs = s.eccErrs := (rfl)
@[simp] theorem State.wrInt_laneUse (f : Fld) (v : Int) : (s.wrInt f v).laneUse = s.laneUse := (rfl)
@[simp] theorem State.wrInt_walkTurn (f : Fld) (v : Int) : (s.wrInt f v).walkTurn = s.walkTurn := (rfl)
@[simp] theorem State.wrInt_decayed (f : Fld) (v : Int) : (s.wrInt f v).decayed = s.decayed := (rfl)
@[simp] theorem State.wrInt_asks (f : Fld) (v : Int) : (s.wrInt f v).asks = s.asks := (rfl)
@[simp] theorem State.wrInt_msgNo (f : Fld) (v : Int) : (s.wrInt f v).msgNo = s.msgNo := (rfl)
@[simp] theorem State.wrInt_mgmtDrops (f : Fld) (v : Int) : (s.wrInt f v).mgmtDrops = s.mgmtDrops := (rfl)
@[simp] theorem State.wrInt_l2 (f : Fld) (v : Int) : (s.wrInt f v).l2 = s.l2 := (rfl)
@[simp] theorem State.wrInt_imsic (f : Fld) (v : Int) : (s.wrInt f v).imsic = s.imsic := (rfl)
@[simp] theorem State.wrInt_pcieHeld (f : Fld) (v : Int) : (s.wrInt f v).pcieHeld = s.pcieHeld := (rfl)
@[simp] theorem State.wrInt_devReqs (f : Fld) (v : Int) : (s.wrInt f v).devReqs = s.devReqs := (rfl)
@[simp] theorem State.wrInt_memQ (f : Fld) (v : Int) : (s.wrInt f v).memQ = s.memQ := (rfl)
@[simp] theorem State.wrInt_flushes (f : Fld) (v : Int) : (s.wrInt f v).flushes = s.flushes := (rfl)
@[simp] theorem State.wrInt_leaving (f : Fld) (v : Int) : (s.wrInt f v).leaving = s.leaving := (rfl)
@[simp] theorem State.wrInt_hostWaits (f : Fld) (v : Int) : (s.wrInt f v).hostWaits = s.hostWaits := (rfl)
@[simp] theorem State.wrInt_wrNo (f : Fld) (v : Int) : (s.wrInt f v).wrNo = s.wrNo := (rfl)

/-! State.add changes regs alone. -/

@[simp] theorem State.add_pending (f : Fld) (n : Nat) : (s.add f n).pending = s.pending := (rfl)
@[simp] theorem State.add_free (f : Fld) (n : Nat) : (s.add f n).free = s.free := (rfl)
@[simp] theorem State.add_latched (f : Fld) (n : Nat) : (s.add f n).latched = s.latched := (rfl)
@[simp] theorem State.add_staged (f : Fld) (n : Nat) : (s.add f n).staged = s.staged := (rfl)
@[simp] theorem State.add_mem (f : Fld) (n : Nat) : (s.add f n).mem = s.mem := (rfl)
@[simp] theorem State.add_out (f : Fld) (n : Nat) : (s.add f n).out = s.out := (rfl)
@[simp] theorem State.add_ring (f : Fld) (n : Nat) : (s.add f n).ring = s.ring := (rfl)
@[simp] theorem State.add_lap (f : Fld) (n : Nat) : (s.add f n).lap = s.lap := (rfl)
@[simp] theorem State.add_arms (f : Fld) (n : Nat) : (s.add f n).arms = s.arms := (rfl)
@[simp] theorem State.add_votes (f : Fld) (n : Nat) : (s.add f n).votes = s.votes := (rfl)
@[simp] theorem State.add_hdAway (f : Fld) (n : Nat) : (s.add f n).hdAway = s.hdAway := (rfl)
@[simp] theorem State.add_clusters (f : Fld) (n : Nat) : (s.add f n).clusters = s.clusters := (rfl)
@[simp] theorem State.add_stash (f : Fld) (n : Nat) : (s.add f n).stash = s.stash := (rfl)
@[simp] theorem State.add_shards (f : Fld) (n : Nat) : (s.add f n).shards = s.shards := (rfl)
@[simp] theorem State.add_ties (f : Fld) (n : Nat) : (s.add f n).ties = s.ties := (rfl)
@[simp] theorem State.add_slots (f : Fld) (n : Nat) : (s.add f n).slots = s.slots := (rfl)
@[simp] theorem State.add_lines (f : Fld) (n : Nat) : (s.add f n).lines = s.lines := (rfl)
@[simp] theorem State.add_wbs (f : Fld) (n : Nat) : (s.add f n).wbs = s.wbs := (rfl)
@[simp] theorem State.add_dirs (f : Fld) (n : Nat) : (s.add f n).dirs = s.dirs := (rfl)
@[simp] theorem State.add_bias (f : Fld) (n : Nat) : (s.add f n).bias = s.bias := (rfl)
@[simp] theorem State.add_txns (f : Fld) (n : Nat) : (s.add f n).txns = s.txns := (rfl)
@[simp] theorem State.add_reqs (f : Fld) (n : Nat) : (s.add f n).reqs = s.reqs := (rfl)
@[simp] theorem State.add_reqNo (f : Fld) (n : Nat) : (s.add f n).reqNo = s.reqNo := (rfl)
@[simp] theorem State.add_tenures (f : Fld) (n : Nat) : (s.add f n).tenures = s.tenures := (rfl)
@[simp] theorem State.add_heldSnps (f : Fld) (n : Nat) : (s.add f n).heldSnps = s.heldSnps := (rfl)
@[simp] theorem State.add_gone (f : Fld) (n : Nat) : (s.add f n).gone = s.gone := (rfl)
@[simp] theorem State.add_credits (f : Fld) (n : Nat) : (s.add f n).credits = s.credits := (rfl)
@[simp] theorem State.add_linkWhy (f : Fld) (n : Nat) : (s.add f n).linkWhy = s.linkWhy := (rfl)
@[simp] theorem State.add_linkSeq (f : Fld) (n : Nat) : (s.add f n).linkSeq = s.linkSeq := (rfl)
@[simp] theorem State.add_stop (f : Fld) (n : Nat) : (s.add f n).stop = s.stop := (rfl)
@[simp] theorem State.add_biasCmd (f : Fld) (n : Nat) : (s.add f n).biasCmd = s.biasCmd := (rfl)
@[simp] theorem State.add_tracker (f : Fld) (n : Nat) : (s.add f n).tracker = s.tracker := (rfl)
@[simp] theorem State.add_nqTail (f : Fld) (n : Nat) : (s.add f n).nqTail = s.nqTail := (rfl)
@[simp] theorem State.add_nqPhase (f : Fld) (n : Nat) : (s.add f n).nqPhase = s.nqPhase := (rfl)
@[simp] theorem State.add_nqCount (f : Fld) (n : Nat) : (s.add f n).nqCount = s.nqCount := (rfl)
@[simp] theorem State.add_walks (f : Fld) (n : Nat) : (s.add f n).walks = s.walks := (rfl)
@[simp] theorem State.add_walkNo (f : Fld) (n : Nat) : (s.add f n).walkNo = s.walkNo := (rfl)
@[simp] theorem State.add_fqTail (f : Fld) (n : Nat) : (s.add f n).fqTail = s.fqTail := (rfl)
@[simp] theorem State.add_fqPhase (f : Fld) (n : Nat) : (s.add f n).fqPhase = s.fqPhase := (rfl)
@[simp] theorem State.add_sds (f : Fld) (n : Nat) : (s.add f n).sds = s.sds := (rfl)
@[simp] theorem State.add_queues (f : Fld) (n : Nat) : (s.add f n).queues = s.queues := (rfl)
@[simp] theorem State.add_engs (f : Fld) (n : Nat) : (s.add f n).engs = s.engs := (rfl)
@[simp] theorem State.add_rrobin (f : Fld) (n : Nat) : (s.add f n).rrobin = s.rrobin := (rfl)
@[simp] theorem State.add_ctxs (f : Fld) (n : Nat) : (s.add f n).ctxs = s.ctxs := (rfl)
@[simp] theorem State.add_surfs (f : Fld) (n : Nat) : (s.add f n).surfs = s.surfs := (rfl)
@[simp] theorem State.add_engHeld (f : Fld) (n : Nat) : (s.add f n).engHeld = s.engHeld := (rfl)
@[simp] theorem State.add_moved (f : Fld) (n : Nat) : (s.add f n).moved = s.moved := (rfl)
@[simp] theorem State.add_peerTag (f : Fld) (n : Nat) : (s.add f n).peerTag = s.peerTag := (rfl)
@[simp] theorem State.add_odbs (f : Fld) (n : Nat) : (s.add f n).odbs = s.odbs := (rfl)
@[simp] theorem State.add_since (f : Fld) (n : Nat) : (s.add f n).since = s.since := (rfl)
@[simp] theorem State.add_told (f : Fld) (n : Nat) : (s.add f n).told = s.told := (rfl)
@[simp] theorem State.add_hostPhase (f : Fld) (n : Nat) : (s.add f n).hostPhase = s.hostPhase := (rfl)
@[simp] theorem State.add_rots (f : Fld) (n : Nat) : (s.add f n).rots = s.rots := (rfl)
@[simp] theorem State.add_template (f : Fld) (n : Nat) : (s.add f n).template = s.template := (rfl)
@[simp] theorem State.add_ports (f : Fld) (n : Nat) : (s.add f n).ports = s.ports := (rfl)
@[simp] theorem State.add_tests (f : Fld) (n : Nat) : (s.add f n).tests = s.tests := (rfl)
@[simp] theorem State.add_deferred (f : Fld) (n : Nat) : (s.add f n).deferred = s.deferred := (rfl)
@[simp] theorem State.add_power (f : Fld) (n : Nat) : (s.add f n).power = s.power := (rfl)
@[simp] theorem State.add_degr (f : Fld) (n : Nat) : (s.add f n).degr = s.degr := (rfl)
@[simp] theorem State.add_relayTag (f : Fld) (n : Nat) : (s.add f n).relayTag = s.relayTag := (rfl)
@[simp] theorem State.add_engSwap (f : Fld) (n : Nat) : (s.add f n).engSwap = s.engSwap := (rfl)
@[simp] theorem State.add_relayDead (f : Fld) (n : Nat) : (s.add f n).relayDead = s.relayDead := (rfl)
@[simp] theorem State.add_mrst (f : Fld) (n : Nat) : (s.add f n).mrst = s.mrst := (rfl)
@[simp] theorem State.add_rails (f : Fld) (n : Nat) : (s.add f n).rails = s.rails := (rfl)
@[simp] theorem State.add_tripped (f : Fld) (n : Nat) : (s.add f n).tripped = s.tripped := (rfl)
@[simp] theorem State.add_standby (f : Fld) (n : Nat) : (s.add f n).standby = s.standby := (rfl)
@[simp] theorem State.add_jtag (f : Fld) (n : Nat) : (s.add f n).jtag = s.jtag := (rfl)
@[simp] theorem State.add_spdm (f : Fld) (n : Nat) : (s.add f n).spdm = s.spdm := (rfl)
@[simp] theorem State.add_image (f : Fld) (n : Nat) : (s.add f n).image = s.image := (rfl)
@[simp] theorem State.add_imgDigest (f : Fld) (n : Nat) : (s.add f n).imgDigest = s.imgDigest := (rfl)
@[simp] theorem State.add_wbTxns (f : Fld) (n : Nat) : (s.add f n).wbTxns = s.wbTxns := (rfl)
@[simp] theorem State.add_eccErrs (f : Fld) (n : Nat) : (s.add f n).eccErrs = s.eccErrs := (rfl)
@[simp] theorem State.add_laneUse (f : Fld) (n : Nat) : (s.add f n).laneUse = s.laneUse := (rfl)
@[simp] theorem State.add_walkTurn (f : Fld) (n : Nat) : (s.add f n).walkTurn = s.walkTurn := (rfl)
@[simp] theorem State.add_decayed (f : Fld) (n : Nat) : (s.add f n).decayed = s.decayed := (rfl)
@[simp] theorem State.add_asks (f : Fld) (n : Nat) : (s.add f n).asks = s.asks := (rfl)
@[simp] theorem State.add_msgNo (f : Fld) (n : Nat) : (s.add f n).msgNo = s.msgNo := (rfl)
@[simp] theorem State.add_mgmtDrops (f : Fld) (n : Nat) : (s.add f n).mgmtDrops = s.mgmtDrops := (rfl)
@[simp] theorem State.add_l2 (f : Fld) (n : Nat) : (s.add f n).l2 = s.l2 := (rfl)
@[simp] theorem State.add_imsic (f : Fld) (n : Nat) : (s.add f n).imsic = s.imsic := (rfl)
@[simp] theorem State.add_pcieHeld (f : Fld) (n : Nat) : (s.add f n).pcieHeld = s.pcieHeld := (rfl)
@[simp] theorem State.add_devReqs (f : Fld) (n : Nat) : (s.add f n).devReqs = s.devReqs := (rfl)
@[simp] theorem State.add_memQ (f : Fld) (n : Nat) : (s.add f n).memQ = s.memQ := (rfl)
@[simp] theorem State.add_flushes (f : Fld) (n : Nat) : (s.add f n).flushes = s.flushes := (rfl)
@[simp] theorem State.add_leaving (f : Fld) (n : Nat) : (s.add f n).leaving = s.leaving := (rfl)
@[simp] theorem State.add_hostWaits (f : Fld) (n : Nat) : (s.add f n).hostWaits = s.hostWaits := (rfl)
@[simp] theorem State.add_wrNo (f : Fld) (n : Nat) : (s.add f n).wrNo = s.wrNo := (rfl)

/-! State.inc changes regs alone. -/

@[simp] theorem State.inc_pending (f : Fld) : (s.inc f).pending = s.pending := (rfl)
@[simp] theorem State.inc_free (f : Fld) : (s.inc f).free = s.free := (rfl)
@[simp] theorem State.inc_latched (f : Fld) : (s.inc f).latched = s.latched := (rfl)
@[simp] theorem State.inc_staged (f : Fld) : (s.inc f).staged = s.staged := (rfl)
@[simp] theorem State.inc_mem (f : Fld) : (s.inc f).mem = s.mem := (rfl)
@[simp] theorem State.inc_out (f : Fld) : (s.inc f).out = s.out := (rfl)
@[simp] theorem State.inc_ring (f : Fld) : (s.inc f).ring = s.ring := (rfl)
@[simp] theorem State.inc_lap (f : Fld) : (s.inc f).lap = s.lap := (rfl)
@[simp] theorem State.inc_arms (f : Fld) : (s.inc f).arms = s.arms := (rfl)
@[simp] theorem State.inc_votes (f : Fld) : (s.inc f).votes = s.votes := (rfl)
@[simp] theorem State.inc_hdAway (f : Fld) : (s.inc f).hdAway = s.hdAway := (rfl)
@[simp] theorem State.inc_clusters (f : Fld) : (s.inc f).clusters = s.clusters := (rfl)
@[simp] theorem State.inc_stash (f : Fld) : (s.inc f).stash = s.stash := (rfl)
@[simp] theorem State.inc_shards (f : Fld) : (s.inc f).shards = s.shards := (rfl)
@[simp] theorem State.inc_ties (f : Fld) : (s.inc f).ties = s.ties := (rfl)
@[simp] theorem State.inc_slots (f : Fld) : (s.inc f).slots = s.slots := (rfl)
@[simp] theorem State.inc_lines (f : Fld) : (s.inc f).lines = s.lines := (rfl)
@[simp] theorem State.inc_wbs (f : Fld) : (s.inc f).wbs = s.wbs := (rfl)
@[simp] theorem State.inc_dirs (f : Fld) : (s.inc f).dirs = s.dirs := (rfl)
@[simp] theorem State.inc_bias (f : Fld) : (s.inc f).bias = s.bias := (rfl)
@[simp] theorem State.inc_txns (f : Fld) : (s.inc f).txns = s.txns := (rfl)
@[simp] theorem State.inc_reqs (f : Fld) : (s.inc f).reqs = s.reqs := (rfl)
@[simp] theorem State.inc_reqNo (f : Fld) : (s.inc f).reqNo = s.reqNo := (rfl)
@[simp] theorem State.inc_tenures (f : Fld) : (s.inc f).tenures = s.tenures := (rfl)
@[simp] theorem State.inc_heldSnps (f : Fld) : (s.inc f).heldSnps = s.heldSnps := (rfl)
@[simp] theorem State.inc_gone (f : Fld) : (s.inc f).gone = s.gone := (rfl)
@[simp] theorem State.inc_credits (f : Fld) : (s.inc f).credits = s.credits := (rfl)
@[simp] theorem State.inc_linkWhy (f : Fld) : (s.inc f).linkWhy = s.linkWhy := (rfl)
@[simp] theorem State.inc_linkSeq (f : Fld) : (s.inc f).linkSeq = s.linkSeq := (rfl)
@[simp] theorem State.inc_stop (f : Fld) : (s.inc f).stop = s.stop := (rfl)
@[simp] theorem State.inc_biasCmd (f : Fld) : (s.inc f).biasCmd = s.biasCmd := (rfl)
@[simp] theorem State.inc_tracker (f : Fld) : (s.inc f).tracker = s.tracker := (rfl)
@[simp] theorem State.inc_nqTail (f : Fld) : (s.inc f).nqTail = s.nqTail := (rfl)
@[simp] theorem State.inc_nqPhase (f : Fld) : (s.inc f).nqPhase = s.nqPhase := (rfl)
@[simp] theorem State.inc_nqCount (f : Fld) : (s.inc f).nqCount = s.nqCount := (rfl)
@[simp] theorem State.inc_walks (f : Fld) : (s.inc f).walks = s.walks := (rfl)
@[simp] theorem State.inc_walkNo (f : Fld) : (s.inc f).walkNo = s.walkNo := (rfl)
@[simp] theorem State.inc_fqTail (f : Fld) : (s.inc f).fqTail = s.fqTail := (rfl)
@[simp] theorem State.inc_fqPhase (f : Fld) : (s.inc f).fqPhase = s.fqPhase := (rfl)
@[simp] theorem State.inc_sds (f : Fld) : (s.inc f).sds = s.sds := (rfl)
@[simp] theorem State.inc_queues (f : Fld) : (s.inc f).queues = s.queues := (rfl)
@[simp] theorem State.inc_engs (f : Fld) : (s.inc f).engs = s.engs := (rfl)
@[simp] theorem State.inc_rrobin (f : Fld) : (s.inc f).rrobin = s.rrobin := (rfl)
@[simp] theorem State.inc_ctxs (f : Fld) : (s.inc f).ctxs = s.ctxs := (rfl)
@[simp] theorem State.inc_surfs (f : Fld) : (s.inc f).surfs = s.surfs := (rfl)
@[simp] theorem State.inc_engHeld (f : Fld) : (s.inc f).engHeld = s.engHeld := (rfl)
@[simp] theorem State.inc_moved (f : Fld) : (s.inc f).moved = s.moved := (rfl)
@[simp] theorem State.inc_peerTag (f : Fld) : (s.inc f).peerTag = s.peerTag := (rfl)
@[simp] theorem State.inc_odbs (f : Fld) : (s.inc f).odbs = s.odbs := (rfl)
@[simp] theorem State.inc_since (f : Fld) : (s.inc f).since = s.since := (rfl)
@[simp] theorem State.inc_told (f : Fld) : (s.inc f).told = s.told := (rfl)
@[simp] theorem State.inc_hostPhase (f : Fld) : (s.inc f).hostPhase = s.hostPhase := (rfl)
@[simp] theorem State.inc_rots (f : Fld) : (s.inc f).rots = s.rots := (rfl)
@[simp] theorem State.inc_template (f : Fld) : (s.inc f).template = s.template := (rfl)
@[simp] theorem State.inc_ports (f : Fld) : (s.inc f).ports = s.ports := (rfl)
@[simp] theorem State.inc_tests (f : Fld) : (s.inc f).tests = s.tests := (rfl)
@[simp] theorem State.inc_deferred (f : Fld) : (s.inc f).deferred = s.deferred := (rfl)
@[simp] theorem State.inc_power (f : Fld) : (s.inc f).power = s.power := (rfl)
@[simp] theorem State.inc_degr (f : Fld) : (s.inc f).degr = s.degr := (rfl)
@[simp] theorem State.inc_relayTag (f : Fld) : (s.inc f).relayTag = s.relayTag := (rfl)
@[simp] theorem State.inc_engSwap (f : Fld) : (s.inc f).engSwap = s.engSwap := (rfl)
@[simp] theorem State.inc_relayDead (f : Fld) : (s.inc f).relayDead = s.relayDead := (rfl)
@[simp] theorem State.inc_mrst (f : Fld) : (s.inc f).mrst = s.mrst := (rfl)
@[simp] theorem State.inc_rails (f : Fld) : (s.inc f).rails = s.rails := (rfl)
@[simp] theorem State.inc_tripped (f : Fld) : (s.inc f).tripped = s.tripped := (rfl)
@[simp] theorem State.inc_standby (f : Fld) : (s.inc f).standby = s.standby := (rfl)
@[simp] theorem State.inc_jtag (f : Fld) : (s.inc f).jtag = s.jtag := (rfl)
@[simp] theorem State.inc_spdm (f : Fld) : (s.inc f).spdm = s.spdm := (rfl)
@[simp] theorem State.inc_image (f : Fld) : (s.inc f).image = s.image := (rfl)
@[simp] theorem State.inc_imgDigest (f : Fld) : (s.inc f).imgDigest = s.imgDigest := (rfl)
@[simp] theorem State.inc_wbTxns (f : Fld) : (s.inc f).wbTxns = s.wbTxns := (rfl)
@[simp] theorem State.inc_eccErrs (f : Fld) : (s.inc f).eccErrs = s.eccErrs := (rfl)
@[simp] theorem State.inc_laneUse (f : Fld) : (s.inc f).laneUse = s.laneUse := (rfl)
@[simp] theorem State.inc_walkTurn (f : Fld) : (s.inc f).walkTurn = s.walkTurn := (rfl)
@[simp] theorem State.inc_decayed (f : Fld) : (s.inc f).decayed = s.decayed := (rfl)
@[simp] theorem State.inc_asks (f : Fld) : (s.inc f).asks = s.asks := (rfl)
@[simp] theorem State.inc_msgNo (f : Fld) : (s.inc f).msgNo = s.msgNo := (rfl)
@[simp] theorem State.inc_mgmtDrops (f : Fld) : (s.inc f).mgmtDrops = s.mgmtDrops := (rfl)
@[simp] theorem State.inc_l2 (f : Fld) : (s.inc f).l2 = s.l2 := (rfl)
@[simp] theorem State.inc_imsic (f : Fld) : (s.inc f).imsic = s.imsic := (rfl)
@[simp] theorem State.inc_pcieHeld (f : Fld) : (s.inc f).pcieHeld = s.pcieHeld := (rfl)
@[simp] theorem State.inc_devReqs (f : Fld) : (s.inc f).devReqs = s.devReqs := (rfl)
@[simp] theorem State.inc_memQ (f : Fld) : (s.inc f).memQ = s.memQ := (rfl)
@[simp] theorem State.inc_flushes (f : Fld) : (s.inc f).flushes = s.flushes := (rfl)
@[simp] theorem State.inc_leaving (f : Fld) : (s.inc f).leaving = s.leaving := (rfl)
@[simp] theorem State.inc_hostWaits (f : Fld) : (s.inc f).hostWaits = s.hostWaits := (rfl)
@[simp] theorem State.inc_wrNo (f : Fld) : (s.inc f).wrNo = s.wrNo := (rfl)

/-! State.setSlot changes slots alone. -/

@[simp] theorem State.setSlot_pending (j : Nat) (v : SlotSt) : (s.setSlot j v).pending = s.pending := (rfl)
@[simp] theorem State.setSlot_free (j : Nat) (v : SlotSt) : (s.setSlot j v).free = s.free := (rfl)
@[simp] theorem State.setSlot_regs (j : Nat) (v : SlotSt) : (s.setSlot j v).regs = s.regs := (rfl)
@[simp] theorem State.setSlot_latched (j : Nat) (v : SlotSt) : (s.setSlot j v).latched = s.latched := (rfl)
@[simp] theorem State.setSlot_staged (j : Nat) (v : SlotSt) : (s.setSlot j v).staged = s.staged := (rfl)
@[simp] theorem State.setSlot_mem (j : Nat) (v : SlotSt) : (s.setSlot j v).mem = s.mem := (rfl)
@[simp] theorem State.setSlot_out (j : Nat) (v : SlotSt) : (s.setSlot j v).out = s.out := (rfl)
@[simp] theorem State.setSlot_ring (j : Nat) (v : SlotSt) : (s.setSlot j v).ring = s.ring := (rfl)
@[simp] theorem State.setSlot_lap (j : Nat) (v : SlotSt) : (s.setSlot j v).lap = s.lap := (rfl)
@[simp] theorem State.setSlot_arms (j : Nat) (v : SlotSt) : (s.setSlot j v).arms = s.arms := (rfl)
@[simp] theorem State.setSlot_votes (j : Nat) (v : SlotSt) : (s.setSlot j v).votes = s.votes := (rfl)
@[simp] theorem State.setSlot_hdAway (j : Nat) (v : SlotSt) : (s.setSlot j v).hdAway = s.hdAway := (rfl)
@[simp] theorem State.setSlot_clusters (j : Nat) (v : SlotSt) : (s.setSlot j v).clusters = s.clusters := (rfl)
@[simp] theorem State.setSlot_stash (j : Nat) (v : SlotSt) : (s.setSlot j v).stash = s.stash := (rfl)
@[simp] theorem State.setSlot_shards (j : Nat) (v : SlotSt) : (s.setSlot j v).shards = s.shards := (rfl)
@[simp] theorem State.setSlot_ties (j : Nat) (v : SlotSt) : (s.setSlot j v).ties = s.ties := (rfl)
@[simp] theorem State.setSlot_lines (j : Nat) (v : SlotSt) : (s.setSlot j v).lines = s.lines := (rfl)
@[simp] theorem State.setSlot_wbs (j : Nat) (v : SlotSt) : (s.setSlot j v).wbs = s.wbs := (rfl)
@[simp] theorem State.setSlot_dirs (j : Nat) (v : SlotSt) : (s.setSlot j v).dirs = s.dirs := (rfl)
@[simp] theorem State.setSlot_bias (j : Nat) (v : SlotSt) : (s.setSlot j v).bias = s.bias := (rfl)
@[simp] theorem State.setSlot_txns (j : Nat) (v : SlotSt) : (s.setSlot j v).txns = s.txns := (rfl)
@[simp] theorem State.setSlot_reqs (j : Nat) (v : SlotSt) : (s.setSlot j v).reqs = s.reqs := (rfl)
@[simp] theorem State.setSlot_reqNo (j : Nat) (v : SlotSt) : (s.setSlot j v).reqNo = s.reqNo := (rfl)
@[simp] theorem State.setSlot_tenures (j : Nat) (v : SlotSt) : (s.setSlot j v).tenures = s.tenures := (rfl)
@[simp] theorem State.setSlot_heldSnps (j : Nat) (v : SlotSt) : (s.setSlot j v).heldSnps = s.heldSnps := (rfl)
@[simp] theorem State.setSlot_gone (j : Nat) (v : SlotSt) : (s.setSlot j v).gone = s.gone := (rfl)
@[simp] theorem State.setSlot_credits (j : Nat) (v : SlotSt) : (s.setSlot j v).credits = s.credits := (rfl)
@[simp] theorem State.setSlot_linkWhy (j : Nat) (v : SlotSt) : (s.setSlot j v).linkWhy = s.linkWhy := (rfl)
@[simp] theorem State.setSlot_linkSeq (j : Nat) (v : SlotSt) : (s.setSlot j v).linkSeq = s.linkSeq := (rfl)
@[simp] theorem State.setSlot_stop (j : Nat) (v : SlotSt) : (s.setSlot j v).stop = s.stop := (rfl)
@[simp] theorem State.setSlot_biasCmd (j : Nat) (v : SlotSt) : (s.setSlot j v).biasCmd = s.biasCmd := (rfl)
@[simp] theorem State.setSlot_tracker (j : Nat) (v : SlotSt) : (s.setSlot j v).tracker = s.tracker := (rfl)
@[simp] theorem State.setSlot_nqTail (j : Nat) (v : SlotSt) : (s.setSlot j v).nqTail = s.nqTail := (rfl)
@[simp] theorem State.setSlot_nqPhase (j : Nat) (v : SlotSt) : (s.setSlot j v).nqPhase = s.nqPhase := (rfl)
@[simp] theorem State.setSlot_nqCount (j : Nat) (v : SlotSt) : (s.setSlot j v).nqCount = s.nqCount := (rfl)
@[simp] theorem State.setSlot_walks (j : Nat) (v : SlotSt) : (s.setSlot j v).walks = s.walks := (rfl)
@[simp] theorem State.setSlot_walkNo (j : Nat) (v : SlotSt) : (s.setSlot j v).walkNo = s.walkNo := (rfl)
@[simp] theorem State.setSlot_fqTail (j : Nat) (v : SlotSt) : (s.setSlot j v).fqTail = s.fqTail := (rfl)
@[simp] theorem State.setSlot_fqPhase (j : Nat) (v : SlotSt) : (s.setSlot j v).fqPhase = s.fqPhase := (rfl)
@[simp] theorem State.setSlot_sds (j : Nat) (v : SlotSt) : (s.setSlot j v).sds = s.sds := (rfl)
@[simp] theorem State.setSlot_queues (j : Nat) (v : SlotSt) : (s.setSlot j v).queues = s.queues := (rfl)
@[simp] theorem State.setSlot_engs (j : Nat) (v : SlotSt) : (s.setSlot j v).engs = s.engs := (rfl)
@[simp] theorem State.setSlot_rrobin (j : Nat) (v : SlotSt) : (s.setSlot j v).rrobin = s.rrobin := (rfl)
@[simp] theorem State.setSlot_ctxs (j : Nat) (v : SlotSt) : (s.setSlot j v).ctxs = s.ctxs := (rfl)
@[simp] theorem State.setSlot_surfs (j : Nat) (v : SlotSt) : (s.setSlot j v).surfs = s.surfs := (rfl)
@[simp] theorem State.setSlot_engHeld (j : Nat) (v : SlotSt) : (s.setSlot j v).engHeld = s.engHeld := (rfl)
@[simp] theorem State.setSlot_moved (j : Nat) (v : SlotSt) : (s.setSlot j v).moved = s.moved := (rfl)
@[simp] theorem State.setSlot_peerTag (j : Nat) (v : SlotSt) : (s.setSlot j v).peerTag = s.peerTag := (rfl)
@[simp] theorem State.setSlot_odbs (j : Nat) (v : SlotSt) : (s.setSlot j v).odbs = s.odbs := (rfl)
@[simp] theorem State.setSlot_since (j : Nat) (v : SlotSt) : (s.setSlot j v).since = s.since := (rfl)
@[simp] theorem State.setSlot_told (j : Nat) (v : SlotSt) : (s.setSlot j v).told = s.told := (rfl)
@[simp] theorem State.setSlot_hostPhase (j : Nat) (v : SlotSt) : (s.setSlot j v).hostPhase = s.hostPhase := (rfl)
@[simp] theorem State.setSlot_rots (j : Nat) (v : SlotSt) : (s.setSlot j v).rots = s.rots := (rfl)
@[simp] theorem State.setSlot_template (j : Nat) (v : SlotSt) : (s.setSlot j v).template = s.template := (rfl)
@[simp] theorem State.setSlot_ports (j : Nat) (v : SlotSt) : (s.setSlot j v).ports = s.ports := (rfl)
@[simp] theorem State.setSlot_tests (j : Nat) (v : SlotSt) : (s.setSlot j v).tests = s.tests := (rfl)
@[simp] theorem State.setSlot_deferred (j : Nat) (v : SlotSt) : (s.setSlot j v).deferred = s.deferred := (rfl)
@[simp] theorem State.setSlot_power (j : Nat) (v : SlotSt) : (s.setSlot j v).power = s.power := (rfl)
@[simp] theorem State.setSlot_degr (j : Nat) (v : SlotSt) : (s.setSlot j v).degr = s.degr := (rfl)
@[simp] theorem State.setSlot_relayTag (j : Nat) (v : SlotSt) : (s.setSlot j v).relayTag = s.relayTag := (rfl)
@[simp] theorem State.setSlot_engSwap (j : Nat) (v : SlotSt) : (s.setSlot j v).engSwap = s.engSwap := (rfl)
@[simp] theorem State.setSlot_relayDead (j : Nat) (v : SlotSt) : (s.setSlot j v).relayDead = s.relayDead := (rfl)
@[simp] theorem State.setSlot_mrst (j : Nat) (v : SlotSt) : (s.setSlot j v).mrst = s.mrst := (rfl)
@[simp] theorem State.setSlot_rails (j : Nat) (v : SlotSt) : (s.setSlot j v).rails = s.rails := (rfl)
@[simp] theorem State.setSlot_tripped (j : Nat) (v : SlotSt) : (s.setSlot j v).tripped = s.tripped := (rfl)
@[simp] theorem State.setSlot_standby (j : Nat) (v : SlotSt) : (s.setSlot j v).standby = s.standby := (rfl)
@[simp] theorem State.setSlot_jtag (j : Nat) (v : SlotSt) : (s.setSlot j v).jtag = s.jtag := (rfl)
@[simp] theorem State.setSlot_spdm (j : Nat) (v : SlotSt) : (s.setSlot j v).spdm = s.spdm := (rfl)
@[simp] theorem State.setSlot_image (j : Nat) (v : SlotSt) : (s.setSlot j v).image = s.image := (rfl)
@[simp] theorem State.setSlot_imgDigest (j : Nat) (v : SlotSt) : (s.setSlot j v).imgDigest = s.imgDigest := (rfl)
@[simp] theorem State.setSlot_wbTxns (j : Nat) (v : SlotSt) : (s.setSlot j v).wbTxns = s.wbTxns := (rfl)
@[simp] theorem State.setSlot_eccErrs (j : Nat) (v : SlotSt) : (s.setSlot j v).eccErrs = s.eccErrs := (rfl)
@[simp] theorem State.setSlot_laneUse (j : Nat) (v : SlotSt) : (s.setSlot j v).laneUse = s.laneUse := (rfl)
@[simp] theorem State.setSlot_walkTurn (j : Nat) (v : SlotSt) : (s.setSlot j v).walkTurn = s.walkTurn := (rfl)
@[simp] theorem State.setSlot_decayed (j : Nat) (v : SlotSt) : (s.setSlot j v).decayed = s.decayed := (rfl)
@[simp] theorem State.setSlot_asks (j : Nat) (v : SlotSt) : (s.setSlot j v).asks = s.asks := (rfl)
@[simp] theorem State.setSlot_msgNo (j : Nat) (v : SlotSt) : (s.setSlot j v).msgNo = s.msgNo := (rfl)
@[simp] theorem State.setSlot_mgmtDrops (j : Nat) (v : SlotSt) : (s.setSlot j v).mgmtDrops = s.mgmtDrops := (rfl)
@[simp] theorem State.setSlot_l2 (j : Nat) (v : SlotSt) : (s.setSlot j v).l2 = s.l2 := (rfl)
@[simp] theorem State.setSlot_imsic (j : Nat) (v : SlotSt) : (s.setSlot j v).imsic = s.imsic := (rfl)
@[simp] theorem State.setSlot_pcieHeld (j : Nat) (v : SlotSt) : (s.setSlot j v).pcieHeld = s.pcieHeld := (rfl)
@[simp] theorem State.setSlot_devReqs (j : Nat) (v : SlotSt) : (s.setSlot j v).devReqs = s.devReqs := (rfl)
@[simp] theorem State.setSlot_memQ (j : Nat) (v : SlotSt) : (s.setSlot j v).memQ = s.memQ := (rfl)
@[simp] theorem State.setSlot_flushes (j : Nat) (v : SlotSt) : (s.setSlot j v).flushes = s.flushes := (rfl)
@[simp] theorem State.setSlot_leaving (j : Nat) (v : SlotSt) : (s.setSlot j v).leaving = s.leaving := (rfl)
@[simp] theorem State.setSlot_hostWaits (j : Nat) (v : SlotSt) : (s.setSlot j v).hostWaits = s.hostWaits := (rfl)
@[simp] theorem State.setSlot_wrNo (j : Nat) (v : SlotSt) : (s.setSlot j v).wrNo = s.wrNo := (rfl)

/-! State.setCluster changes clusters alone. -/

@[simp] theorem State.setCluster_pending (cl : ClusterId) (v : ClusterSt) : (s.setCluster cl v).pending = s.pending := (rfl)
@[simp] theorem State.setCluster_free (cl : ClusterId) (v : ClusterSt) : (s.setCluster cl v).free = s.free := (rfl)
@[simp] theorem State.setCluster_regs (cl : ClusterId) (v : ClusterSt) : (s.setCluster cl v).regs = s.regs := (rfl)
@[simp] theorem State.setCluster_latched (cl : ClusterId) (v : ClusterSt) : (s.setCluster cl v).latched = s.latched := (rfl)
@[simp] theorem State.setCluster_staged (cl : ClusterId) (v : ClusterSt) : (s.setCluster cl v).staged = s.staged := (rfl)
@[simp] theorem State.setCluster_mem (cl : ClusterId) (v : ClusterSt) : (s.setCluster cl v).mem = s.mem := (rfl)
@[simp] theorem State.setCluster_out (cl : ClusterId) (v : ClusterSt) : (s.setCluster cl v).out = s.out := (rfl)
@[simp] theorem State.setCluster_ring (cl : ClusterId) (v : ClusterSt) : (s.setCluster cl v).ring = s.ring := (rfl)
@[simp] theorem State.setCluster_lap (cl : ClusterId) (v : ClusterSt) : (s.setCluster cl v).lap = s.lap := (rfl)
@[simp] theorem State.setCluster_arms (cl : ClusterId) (v : ClusterSt) : (s.setCluster cl v).arms = s.arms := (rfl)
@[simp] theorem State.setCluster_votes (cl : ClusterId) (v : ClusterSt) : (s.setCluster cl v).votes = s.votes := (rfl)
@[simp] theorem State.setCluster_hdAway (cl : ClusterId) (v : ClusterSt) : (s.setCluster cl v).hdAway = s.hdAway := (rfl)
@[simp] theorem State.setCluster_stash (cl : ClusterId) (v : ClusterSt) : (s.setCluster cl v).stash = s.stash := (rfl)
@[simp] theorem State.setCluster_shards (cl : ClusterId) (v : ClusterSt) : (s.setCluster cl v).shards = s.shards := (rfl)
@[simp] theorem State.setCluster_ties (cl : ClusterId) (v : ClusterSt) : (s.setCluster cl v).ties = s.ties := (rfl)
@[simp] theorem State.setCluster_slots (cl : ClusterId) (v : ClusterSt) : (s.setCluster cl v).slots = s.slots := (rfl)
@[simp] theorem State.setCluster_lines (cl : ClusterId) (v : ClusterSt) : (s.setCluster cl v).lines = s.lines := (rfl)
@[simp] theorem State.setCluster_wbs (cl : ClusterId) (v : ClusterSt) : (s.setCluster cl v).wbs = s.wbs := (rfl)
@[simp] theorem State.setCluster_dirs (cl : ClusterId) (v : ClusterSt) : (s.setCluster cl v).dirs = s.dirs := (rfl)
@[simp] theorem State.setCluster_bias (cl : ClusterId) (v : ClusterSt) : (s.setCluster cl v).bias = s.bias := (rfl)
@[simp] theorem State.setCluster_txns (cl : ClusterId) (v : ClusterSt) : (s.setCluster cl v).txns = s.txns := (rfl)
@[simp] theorem State.setCluster_reqs (cl : ClusterId) (v : ClusterSt) : (s.setCluster cl v).reqs = s.reqs := (rfl)
@[simp] theorem State.setCluster_reqNo (cl : ClusterId) (v : ClusterSt) : (s.setCluster cl v).reqNo = s.reqNo := (rfl)
@[simp] theorem State.setCluster_tenures (cl : ClusterId) (v : ClusterSt) : (s.setCluster cl v).tenures = s.tenures := (rfl)
@[simp] theorem State.setCluster_heldSnps (cl : ClusterId) (v : ClusterSt) : (s.setCluster cl v).heldSnps = s.heldSnps := (rfl)
@[simp] theorem State.setCluster_gone (cl : ClusterId) (v : ClusterSt) : (s.setCluster cl v).gone = s.gone := (rfl)
@[simp] theorem State.setCluster_credits (cl : ClusterId) (v : ClusterSt) : (s.setCluster cl v).credits = s.credits := (rfl)
@[simp] theorem State.setCluster_linkWhy (cl : ClusterId) (v : ClusterSt) : (s.setCluster cl v).linkWhy = s.linkWhy := (rfl)
@[simp] theorem State.setCluster_linkSeq (cl : ClusterId) (v : ClusterSt) : (s.setCluster cl v).linkSeq = s.linkSeq := (rfl)
@[simp] theorem State.setCluster_stop (cl : ClusterId) (v : ClusterSt) : (s.setCluster cl v).stop = s.stop := (rfl)
@[simp] theorem State.setCluster_biasCmd (cl : ClusterId) (v : ClusterSt) : (s.setCluster cl v).biasCmd = s.biasCmd := (rfl)
@[simp] theorem State.setCluster_tracker (cl : ClusterId) (v : ClusterSt) : (s.setCluster cl v).tracker = s.tracker := (rfl)
@[simp] theorem State.setCluster_nqTail (cl : ClusterId) (v : ClusterSt) : (s.setCluster cl v).nqTail = s.nqTail := (rfl)
@[simp] theorem State.setCluster_nqPhase (cl : ClusterId) (v : ClusterSt) : (s.setCluster cl v).nqPhase = s.nqPhase := (rfl)
@[simp] theorem State.setCluster_nqCount (cl : ClusterId) (v : ClusterSt) : (s.setCluster cl v).nqCount = s.nqCount := (rfl)
@[simp] theorem State.setCluster_walks (cl : ClusterId) (v : ClusterSt) : (s.setCluster cl v).walks = s.walks := (rfl)
@[simp] theorem State.setCluster_walkNo (cl : ClusterId) (v : ClusterSt) : (s.setCluster cl v).walkNo = s.walkNo := (rfl)
@[simp] theorem State.setCluster_fqTail (cl : ClusterId) (v : ClusterSt) : (s.setCluster cl v).fqTail = s.fqTail := (rfl)
@[simp] theorem State.setCluster_fqPhase (cl : ClusterId) (v : ClusterSt) : (s.setCluster cl v).fqPhase = s.fqPhase := (rfl)
@[simp] theorem State.setCluster_sds (cl : ClusterId) (v : ClusterSt) : (s.setCluster cl v).sds = s.sds := (rfl)
@[simp] theorem State.setCluster_queues (cl : ClusterId) (v : ClusterSt) : (s.setCluster cl v).queues = s.queues := (rfl)
@[simp] theorem State.setCluster_engs (cl : ClusterId) (v : ClusterSt) : (s.setCluster cl v).engs = s.engs := (rfl)
@[simp] theorem State.setCluster_rrobin (cl : ClusterId) (v : ClusterSt) : (s.setCluster cl v).rrobin = s.rrobin := (rfl)
@[simp] theorem State.setCluster_ctxs (cl : ClusterId) (v : ClusterSt) : (s.setCluster cl v).ctxs = s.ctxs := (rfl)
@[simp] theorem State.setCluster_surfs (cl : ClusterId) (v : ClusterSt) : (s.setCluster cl v).surfs = s.surfs := (rfl)
@[simp] theorem State.setCluster_engHeld (cl : ClusterId) (v : ClusterSt) : (s.setCluster cl v).engHeld = s.engHeld := (rfl)
@[simp] theorem State.setCluster_moved (cl : ClusterId) (v : ClusterSt) : (s.setCluster cl v).moved = s.moved := (rfl)
@[simp] theorem State.setCluster_peerTag (cl : ClusterId) (v : ClusterSt) : (s.setCluster cl v).peerTag = s.peerTag := (rfl)
@[simp] theorem State.setCluster_odbs (cl : ClusterId) (v : ClusterSt) : (s.setCluster cl v).odbs = s.odbs := (rfl)
@[simp] theorem State.setCluster_since (cl : ClusterId) (v : ClusterSt) : (s.setCluster cl v).since = s.since := (rfl)
@[simp] theorem State.setCluster_told (cl : ClusterId) (v : ClusterSt) : (s.setCluster cl v).told = s.told := (rfl)
@[simp] theorem State.setCluster_hostPhase (cl : ClusterId) (v : ClusterSt) : (s.setCluster cl v).hostPhase = s.hostPhase := (rfl)
@[simp] theorem State.setCluster_rots (cl : ClusterId) (v : ClusterSt) : (s.setCluster cl v).rots = s.rots := (rfl)
@[simp] theorem State.setCluster_template (cl : ClusterId) (v : ClusterSt) : (s.setCluster cl v).template = s.template := (rfl)
@[simp] theorem State.setCluster_ports (cl : ClusterId) (v : ClusterSt) : (s.setCluster cl v).ports = s.ports := (rfl)
@[simp] theorem State.setCluster_tests (cl : ClusterId) (v : ClusterSt) : (s.setCluster cl v).tests = s.tests := (rfl)
@[simp] theorem State.setCluster_deferred (cl : ClusterId) (v : ClusterSt) : (s.setCluster cl v).deferred = s.deferred := (rfl)
@[simp] theorem State.setCluster_power (cl : ClusterId) (v : ClusterSt) : (s.setCluster cl v).power = s.power := (rfl)
@[simp] theorem State.setCluster_degr (cl : ClusterId) (v : ClusterSt) : (s.setCluster cl v).degr = s.degr := (rfl)
@[simp] theorem State.setCluster_relayTag (cl : ClusterId) (v : ClusterSt) : (s.setCluster cl v).relayTag = s.relayTag := (rfl)
@[simp] theorem State.setCluster_engSwap (cl : ClusterId) (v : ClusterSt) : (s.setCluster cl v).engSwap = s.engSwap := (rfl)
@[simp] theorem State.setCluster_relayDead (cl : ClusterId) (v : ClusterSt) : (s.setCluster cl v).relayDead = s.relayDead := (rfl)
@[simp] theorem State.setCluster_mrst (cl : ClusterId) (v : ClusterSt) : (s.setCluster cl v).mrst = s.mrst := (rfl)
@[simp] theorem State.setCluster_rails (cl : ClusterId) (v : ClusterSt) : (s.setCluster cl v).rails = s.rails := (rfl)
@[simp] theorem State.setCluster_tripped (cl : ClusterId) (v : ClusterSt) : (s.setCluster cl v).tripped = s.tripped := (rfl)
@[simp] theorem State.setCluster_standby (cl : ClusterId) (v : ClusterSt) : (s.setCluster cl v).standby = s.standby := (rfl)
@[simp] theorem State.setCluster_jtag (cl : ClusterId) (v : ClusterSt) : (s.setCluster cl v).jtag = s.jtag := (rfl)
@[simp] theorem State.setCluster_spdm (cl : ClusterId) (v : ClusterSt) : (s.setCluster cl v).spdm = s.spdm := (rfl)
@[simp] theorem State.setCluster_image (cl : ClusterId) (v : ClusterSt) : (s.setCluster cl v).image = s.image := (rfl)
@[simp] theorem State.setCluster_imgDigest (cl : ClusterId) (v : ClusterSt) : (s.setCluster cl v).imgDigest = s.imgDigest := (rfl)
@[simp] theorem State.setCluster_wbTxns (cl : ClusterId) (v : ClusterSt) : (s.setCluster cl v).wbTxns = s.wbTxns := (rfl)
@[simp] theorem State.setCluster_eccErrs (cl : ClusterId) (v : ClusterSt) : (s.setCluster cl v).eccErrs = s.eccErrs := (rfl)
@[simp] theorem State.setCluster_laneUse (cl : ClusterId) (v : ClusterSt) : (s.setCluster cl v).laneUse = s.laneUse := (rfl)
@[simp] theorem State.setCluster_walkTurn (cl : ClusterId) (v : ClusterSt) : (s.setCluster cl v).walkTurn = s.walkTurn := (rfl)
@[simp] theorem State.setCluster_decayed (cl : ClusterId) (v : ClusterSt) : (s.setCluster cl v).decayed = s.decayed := (rfl)
@[simp] theorem State.setCluster_asks (cl : ClusterId) (v : ClusterSt) : (s.setCluster cl v).asks = s.asks := (rfl)
@[simp] theorem State.setCluster_msgNo (cl : ClusterId) (v : ClusterSt) : (s.setCluster cl v).msgNo = s.msgNo := (rfl)
@[simp] theorem State.setCluster_mgmtDrops (cl : ClusterId) (v : ClusterSt) : (s.setCluster cl v).mgmtDrops = s.mgmtDrops := (rfl)
@[simp] theorem State.setCluster_l2 (cl : ClusterId) (v : ClusterSt) : (s.setCluster cl v).l2 = s.l2 := (rfl)
@[simp] theorem State.setCluster_imsic (cl : ClusterId) (v : ClusterSt) : (s.setCluster cl v).imsic = s.imsic := (rfl)
@[simp] theorem State.setCluster_pcieHeld (cl : ClusterId) (v : ClusterSt) : (s.setCluster cl v).pcieHeld = s.pcieHeld := (rfl)
@[simp] theorem State.setCluster_devReqs (cl : ClusterId) (v : ClusterSt) : (s.setCluster cl v).devReqs = s.devReqs := (rfl)
@[simp] theorem State.setCluster_memQ (cl : ClusterId) (v : ClusterSt) : (s.setCluster cl v).memQ = s.memQ := (rfl)
@[simp] theorem State.setCluster_flushes (cl : ClusterId) (v : ClusterSt) : (s.setCluster cl v).flushes = s.flushes := (rfl)
@[simp] theorem State.setCluster_leaving (cl : ClusterId) (v : ClusterSt) : (s.setCluster cl v).leaving = s.leaving := (rfl)
@[simp] theorem State.setCluster_hostWaits (cl : ClusterId) (v : ClusterSt) : (s.setCluster cl v).hostWaits = s.hostWaits := (rfl)
@[simp] theorem State.setCluster_wrNo (cl : ClusterId) (v : ClusterSt) : (s.setCluster cl v).wrNo = s.wrNo := (rfl)

/-! State.send changes out alone. -/

@[simp] theorem State.send_pending (o : Out) : (s.send o).pending = s.pending := (rfl)
@[simp] theorem State.send_free (o : Out) : (s.send o).free = s.free := (rfl)
@[simp] theorem State.send_regs (o : Out) : (s.send o).regs = s.regs := (rfl)
@[simp] theorem State.send_latched (o : Out) : (s.send o).latched = s.latched := (rfl)
@[simp] theorem State.send_staged (o : Out) : (s.send o).staged = s.staged := (rfl)
@[simp] theorem State.send_mem (o : Out) : (s.send o).mem = s.mem := (rfl)
@[simp] theorem State.send_ring (o : Out) : (s.send o).ring = s.ring := (rfl)
@[simp] theorem State.send_lap (o : Out) : (s.send o).lap = s.lap := (rfl)
@[simp] theorem State.send_arms (o : Out) : (s.send o).arms = s.arms := (rfl)
@[simp] theorem State.send_votes (o : Out) : (s.send o).votes = s.votes := (rfl)
@[simp] theorem State.send_hdAway (o : Out) : (s.send o).hdAway = s.hdAway := (rfl)
@[simp] theorem State.send_clusters (o : Out) : (s.send o).clusters = s.clusters := (rfl)
@[simp] theorem State.send_stash (o : Out) : (s.send o).stash = s.stash := (rfl)
@[simp] theorem State.send_shards (o : Out) : (s.send o).shards = s.shards := (rfl)
@[simp] theorem State.send_ties (o : Out) : (s.send o).ties = s.ties := (rfl)
@[simp] theorem State.send_slots (o : Out) : (s.send o).slots = s.slots := (rfl)
@[simp] theorem State.send_lines (o : Out) : (s.send o).lines = s.lines := (rfl)
@[simp] theorem State.send_wbs (o : Out) : (s.send o).wbs = s.wbs := (rfl)
@[simp] theorem State.send_dirs (o : Out) : (s.send o).dirs = s.dirs := (rfl)
@[simp] theorem State.send_bias (o : Out) : (s.send o).bias = s.bias := (rfl)
@[simp] theorem State.send_txns (o : Out) : (s.send o).txns = s.txns := (rfl)
@[simp] theorem State.send_reqs (o : Out) : (s.send o).reqs = s.reqs := (rfl)
@[simp] theorem State.send_reqNo (o : Out) : (s.send o).reqNo = s.reqNo := (rfl)
@[simp] theorem State.send_tenures (o : Out) : (s.send o).tenures = s.tenures := (rfl)
@[simp] theorem State.send_heldSnps (o : Out) : (s.send o).heldSnps = s.heldSnps := (rfl)
@[simp] theorem State.send_gone (o : Out) : (s.send o).gone = s.gone := (rfl)
@[simp] theorem State.send_credits (o : Out) : (s.send o).credits = s.credits := (rfl)
@[simp] theorem State.send_linkWhy (o : Out) : (s.send o).linkWhy = s.linkWhy := (rfl)
@[simp] theorem State.send_linkSeq (o : Out) : (s.send o).linkSeq = s.linkSeq := (rfl)
@[simp] theorem State.send_stop (o : Out) : (s.send o).stop = s.stop := (rfl)
@[simp] theorem State.send_biasCmd (o : Out) : (s.send o).biasCmd = s.biasCmd := (rfl)
@[simp] theorem State.send_tracker (o : Out) : (s.send o).tracker = s.tracker := (rfl)
@[simp] theorem State.send_nqTail (o : Out) : (s.send o).nqTail = s.nqTail := (rfl)
@[simp] theorem State.send_nqPhase (o : Out) : (s.send o).nqPhase = s.nqPhase := (rfl)
@[simp] theorem State.send_nqCount (o : Out) : (s.send o).nqCount = s.nqCount := (rfl)
@[simp] theorem State.send_walks (o : Out) : (s.send o).walks = s.walks := (rfl)
@[simp] theorem State.send_walkNo (o : Out) : (s.send o).walkNo = s.walkNo := (rfl)
@[simp] theorem State.send_fqTail (o : Out) : (s.send o).fqTail = s.fqTail := (rfl)
@[simp] theorem State.send_fqPhase (o : Out) : (s.send o).fqPhase = s.fqPhase := (rfl)
@[simp] theorem State.send_sds (o : Out) : (s.send o).sds = s.sds := (rfl)
@[simp] theorem State.send_queues (o : Out) : (s.send o).queues = s.queues := (rfl)
@[simp] theorem State.send_engs (o : Out) : (s.send o).engs = s.engs := (rfl)
@[simp] theorem State.send_rrobin (o : Out) : (s.send o).rrobin = s.rrobin := (rfl)
@[simp] theorem State.send_ctxs (o : Out) : (s.send o).ctxs = s.ctxs := (rfl)
@[simp] theorem State.send_surfs (o : Out) : (s.send o).surfs = s.surfs := (rfl)
@[simp] theorem State.send_engHeld (o : Out) : (s.send o).engHeld = s.engHeld := (rfl)
@[simp] theorem State.send_moved (o : Out) : (s.send o).moved = s.moved := (rfl)
@[simp] theorem State.send_peerTag (o : Out) : (s.send o).peerTag = s.peerTag := (rfl)
@[simp] theorem State.send_odbs (o : Out) : (s.send o).odbs = s.odbs := (rfl)
@[simp] theorem State.send_since (o : Out) : (s.send o).since = s.since := (rfl)
@[simp] theorem State.send_told (o : Out) : (s.send o).told = s.told := (rfl)
@[simp] theorem State.send_hostPhase (o : Out) : (s.send o).hostPhase = s.hostPhase := (rfl)
@[simp] theorem State.send_rots (o : Out) : (s.send o).rots = s.rots := (rfl)
@[simp] theorem State.send_template (o : Out) : (s.send o).template = s.template := (rfl)
@[simp] theorem State.send_ports (o : Out) : (s.send o).ports = s.ports := (rfl)
@[simp] theorem State.send_tests (o : Out) : (s.send o).tests = s.tests := (rfl)
@[simp] theorem State.send_deferred (o : Out) : (s.send o).deferred = s.deferred := (rfl)
@[simp] theorem State.send_power (o : Out) : (s.send o).power = s.power := (rfl)
@[simp] theorem State.send_degr (o : Out) : (s.send o).degr = s.degr := (rfl)
@[simp] theorem State.send_relayTag (o : Out) : (s.send o).relayTag = s.relayTag := (rfl)
@[simp] theorem State.send_engSwap (o : Out) : (s.send o).engSwap = s.engSwap := (rfl)
@[simp] theorem State.send_relayDead (o : Out) : (s.send o).relayDead = s.relayDead := (rfl)
@[simp] theorem State.send_mrst (o : Out) : (s.send o).mrst = s.mrst := (rfl)
@[simp] theorem State.send_rails (o : Out) : (s.send o).rails = s.rails := (rfl)
@[simp] theorem State.send_tripped (o : Out) : (s.send o).tripped = s.tripped := (rfl)
@[simp] theorem State.send_standby (o : Out) : (s.send o).standby = s.standby := (rfl)
@[simp] theorem State.send_jtag (o : Out) : (s.send o).jtag = s.jtag := (rfl)
@[simp] theorem State.send_spdm (o : Out) : (s.send o).spdm = s.spdm := (rfl)
@[simp] theorem State.send_image (o : Out) : (s.send o).image = s.image := (rfl)
@[simp] theorem State.send_imgDigest (o : Out) : (s.send o).imgDigest = s.imgDigest := (rfl)
@[simp] theorem State.send_wbTxns (o : Out) : (s.send o).wbTxns = s.wbTxns := (rfl)
@[simp] theorem State.send_eccErrs (o : Out) : (s.send o).eccErrs = s.eccErrs := (rfl)
@[simp] theorem State.send_laneUse (o : Out) : (s.send o).laneUse = s.laneUse := (rfl)
@[simp] theorem State.send_walkTurn (o : Out) : (s.send o).walkTurn = s.walkTurn := (rfl)
@[simp] theorem State.send_decayed (o : Out) : (s.send o).decayed = s.decayed := (rfl)
@[simp] theorem State.send_asks (o : Out) : (s.send o).asks = s.asks := (rfl)
@[simp] theorem State.send_msgNo (o : Out) : (s.send o).msgNo = s.msgNo := (rfl)
@[simp] theorem State.send_mgmtDrops (o : Out) : (s.send o).mgmtDrops = s.mgmtDrops := (rfl)
@[simp] theorem State.send_l2 (o : Out) : (s.send o).l2 = s.l2 := (rfl)
@[simp] theorem State.send_imsic (o : Out) : (s.send o).imsic = s.imsic := (rfl)
@[simp] theorem State.send_pcieHeld (o : Out) : (s.send o).pcieHeld = s.pcieHeld := (rfl)
@[simp] theorem State.send_devReqs (o : Out) : (s.send o).devReqs = s.devReqs := (rfl)
@[simp] theorem State.send_memQ (o : Out) : (s.send o).memQ = s.memQ := (rfl)
@[simp] theorem State.send_flushes (o : Out) : (s.send o).flushes = s.flushes := (rfl)
@[simp] theorem State.send_leaving (o : Out) : (s.send o).leaving = s.leaving := (rfl)
@[simp] theorem State.send_hostWaits (o : Out) : (s.send o).hostWaits = s.hostWaits := (rfl)
@[simp] theorem State.send_wrNo (o : Out) : (s.send o).wrNo = s.wrNo := (rfl)

/-! State.tick changes free alone. -/

@[simp] theorem State.tick_pending : (s.tick).pending = s.pending := (rfl)
@[simp] theorem State.tick_regs : (s.tick).regs = s.regs := (rfl)
@[simp] theorem State.tick_latched : (s.tick).latched = s.latched := (rfl)
@[simp] theorem State.tick_staged : (s.tick).staged = s.staged := (rfl)
@[simp] theorem State.tick_mem : (s.tick).mem = s.mem := (rfl)
@[simp] theorem State.tick_out : (s.tick).out = s.out := (rfl)
@[simp] theorem State.tick_ring : (s.tick).ring = s.ring := (rfl)
@[simp] theorem State.tick_lap : (s.tick).lap = s.lap := (rfl)
@[simp] theorem State.tick_arms : (s.tick).arms = s.arms := (rfl)
@[simp] theorem State.tick_votes : (s.tick).votes = s.votes := (rfl)
@[simp] theorem State.tick_hdAway : (s.tick).hdAway = s.hdAway := (rfl)
@[simp] theorem State.tick_clusters : (s.tick).clusters = s.clusters := (rfl)
@[simp] theorem State.tick_stash : (s.tick).stash = s.stash := (rfl)
@[simp] theorem State.tick_shards : (s.tick).shards = s.shards := (rfl)
@[simp] theorem State.tick_ties : (s.tick).ties = s.ties := (rfl)
@[simp] theorem State.tick_slots : (s.tick).slots = s.slots := (rfl)
@[simp] theorem State.tick_lines : (s.tick).lines = s.lines := (rfl)
@[simp] theorem State.tick_wbs : (s.tick).wbs = s.wbs := (rfl)
@[simp] theorem State.tick_dirs : (s.tick).dirs = s.dirs := (rfl)
@[simp] theorem State.tick_bias : (s.tick).bias = s.bias := (rfl)
@[simp] theorem State.tick_txns : (s.tick).txns = s.txns := (rfl)
@[simp] theorem State.tick_reqs : (s.tick).reqs = s.reqs := (rfl)
@[simp] theorem State.tick_reqNo : (s.tick).reqNo = s.reqNo := (rfl)
@[simp] theorem State.tick_tenures : (s.tick).tenures = s.tenures := (rfl)
@[simp] theorem State.tick_heldSnps : (s.tick).heldSnps = s.heldSnps := (rfl)
@[simp] theorem State.tick_gone : (s.tick).gone = s.gone := (rfl)
@[simp] theorem State.tick_credits : (s.tick).credits = s.credits := (rfl)
@[simp] theorem State.tick_linkWhy : (s.tick).linkWhy = s.linkWhy := (rfl)
@[simp] theorem State.tick_linkSeq : (s.tick).linkSeq = s.linkSeq := (rfl)
@[simp] theorem State.tick_stop : (s.tick).stop = s.stop := (rfl)
@[simp] theorem State.tick_biasCmd : (s.tick).biasCmd = s.biasCmd := (rfl)
@[simp] theorem State.tick_tracker : (s.tick).tracker = s.tracker := (rfl)
@[simp] theorem State.tick_nqTail : (s.tick).nqTail = s.nqTail := (rfl)
@[simp] theorem State.tick_nqPhase : (s.tick).nqPhase = s.nqPhase := (rfl)
@[simp] theorem State.tick_nqCount : (s.tick).nqCount = s.nqCount := (rfl)
@[simp] theorem State.tick_walks : (s.tick).walks = s.walks := (rfl)
@[simp] theorem State.tick_walkNo : (s.tick).walkNo = s.walkNo := (rfl)
@[simp] theorem State.tick_fqTail : (s.tick).fqTail = s.fqTail := (rfl)
@[simp] theorem State.tick_fqPhase : (s.tick).fqPhase = s.fqPhase := (rfl)
@[simp] theorem State.tick_sds : (s.tick).sds = s.sds := (rfl)
@[simp] theorem State.tick_queues : (s.tick).queues = s.queues := (rfl)
@[simp] theorem State.tick_engs : (s.tick).engs = s.engs := (rfl)
@[simp] theorem State.tick_rrobin : (s.tick).rrobin = s.rrobin := (rfl)
@[simp] theorem State.tick_ctxs : (s.tick).ctxs = s.ctxs := (rfl)
@[simp] theorem State.tick_surfs : (s.tick).surfs = s.surfs := (rfl)
@[simp] theorem State.tick_engHeld : (s.tick).engHeld = s.engHeld := (rfl)
@[simp] theorem State.tick_moved : (s.tick).moved = s.moved := (rfl)
@[simp] theorem State.tick_peerTag : (s.tick).peerTag = s.peerTag := (rfl)
@[simp] theorem State.tick_odbs : (s.tick).odbs = s.odbs := (rfl)
@[simp] theorem State.tick_since : (s.tick).since = s.since := (rfl)
@[simp] theorem State.tick_told : (s.tick).told = s.told := (rfl)
@[simp] theorem State.tick_hostPhase : (s.tick).hostPhase = s.hostPhase := (rfl)
@[simp] theorem State.tick_rots : (s.tick).rots = s.rots := (rfl)
@[simp] theorem State.tick_template : (s.tick).template = s.template := (rfl)
@[simp] theorem State.tick_ports : (s.tick).ports = s.ports := (rfl)
@[simp] theorem State.tick_tests : (s.tick).tests = s.tests := (rfl)
@[simp] theorem State.tick_deferred : (s.tick).deferred = s.deferred := (rfl)
@[simp] theorem State.tick_power : (s.tick).power = s.power := (rfl)
@[simp] theorem State.tick_degr : (s.tick).degr = s.degr := (rfl)
@[simp] theorem State.tick_relayTag : (s.tick).relayTag = s.relayTag := (rfl)
@[simp] theorem State.tick_engSwap : (s.tick).engSwap = s.engSwap := (rfl)
@[simp] theorem State.tick_relayDead : (s.tick).relayDead = s.relayDead := (rfl)
@[simp] theorem State.tick_mrst : (s.tick).mrst = s.mrst := (rfl)
@[simp] theorem State.tick_rails : (s.tick).rails = s.rails := (rfl)
@[simp] theorem State.tick_tripped : (s.tick).tripped = s.tripped := (rfl)
@[simp] theorem State.tick_standby : (s.tick).standby = s.standby := (rfl)
@[simp] theorem State.tick_jtag : (s.tick).jtag = s.jtag := (rfl)
@[simp] theorem State.tick_spdm : (s.tick).spdm = s.spdm := (rfl)
@[simp] theorem State.tick_image : (s.tick).image = s.image := (rfl)
@[simp] theorem State.tick_imgDigest : (s.tick).imgDigest = s.imgDigest := (rfl)
@[simp] theorem State.tick_wbTxns : (s.tick).wbTxns = s.wbTxns := (rfl)
@[simp] theorem State.tick_eccErrs : (s.tick).eccErrs = s.eccErrs := (rfl)
@[simp] theorem State.tick_laneUse : (s.tick).laneUse = s.laneUse := (rfl)
@[simp] theorem State.tick_walkTurn : (s.tick).walkTurn = s.walkTurn := (rfl)
@[simp] theorem State.tick_decayed : (s.tick).decayed = s.decayed := (rfl)
@[simp] theorem State.tick_asks : (s.tick).asks = s.asks := (rfl)
@[simp] theorem State.tick_msgNo : (s.tick).msgNo = s.msgNo := (rfl)
@[simp] theorem State.tick_mgmtDrops : (s.tick).mgmtDrops = s.mgmtDrops := (rfl)
@[simp] theorem State.tick_l2 : (s.tick).l2 = s.l2 := (rfl)
@[simp] theorem State.tick_imsic : (s.tick).imsic = s.imsic := (rfl)
@[simp] theorem State.tick_pcieHeld : (s.tick).pcieHeld = s.pcieHeld := (rfl)
@[simp] theorem State.tick_devReqs : (s.tick).devReqs = s.devReqs := (rfl)
@[simp] theorem State.tick_memQ : (s.tick).memQ = s.memQ := (rfl)
@[simp] theorem State.tick_flushes : (s.tick).flushes = s.flushes := (rfl)
@[simp] theorem State.tick_leaving : (s.tick).leaving = s.leaving := (rfl)
@[simp] theorem State.tick_hostWaits : (s.tick).hostWaits = s.hostWaits := (rfl)
@[simp] theorem State.tick_wrNo : (s.tick).wrNo = s.wrNo := (rfl)

/-! State.stage changes staged alone. -/

@[simp] theorem State.stage_pending (off : Nat) (v : Word) : (s.stage off v).pending = s.pending := (rfl)
@[simp] theorem State.stage_free (off : Nat) (v : Word) : (s.stage off v).free = s.free := (rfl)
@[simp] theorem State.stage_regs (off : Nat) (v : Word) : (s.stage off v).regs = s.regs := (rfl)
@[simp] theorem State.stage_latched (off : Nat) (v : Word) : (s.stage off v).latched = s.latched := (rfl)
@[simp] theorem State.stage_mem (off : Nat) (v : Word) : (s.stage off v).mem = s.mem := (rfl)
@[simp] theorem State.stage_out (off : Nat) (v : Word) : (s.stage off v).out = s.out := (rfl)
@[simp] theorem State.stage_ring (off : Nat) (v : Word) : (s.stage off v).ring = s.ring := (rfl)
@[simp] theorem State.stage_lap (off : Nat) (v : Word) : (s.stage off v).lap = s.lap := (rfl)
@[simp] theorem State.stage_arms (off : Nat) (v : Word) : (s.stage off v).arms = s.arms := (rfl)
@[simp] theorem State.stage_votes (off : Nat) (v : Word) : (s.stage off v).votes = s.votes := (rfl)
@[simp] theorem State.stage_hdAway (off : Nat) (v : Word) : (s.stage off v).hdAway = s.hdAway := (rfl)
@[simp] theorem State.stage_clusters (off : Nat) (v : Word) : (s.stage off v).clusters = s.clusters := (rfl)
@[simp] theorem State.stage_stash (off : Nat) (v : Word) : (s.stage off v).stash = s.stash := (rfl)
@[simp] theorem State.stage_shards (off : Nat) (v : Word) : (s.stage off v).shards = s.shards := (rfl)
@[simp] theorem State.stage_ties (off : Nat) (v : Word) : (s.stage off v).ties = s.ties := (rfl)
@[simp] theorem State.stage_slots (off : Nat) (v : Word) : (s.stage off v).slots = s.slots := (rfl)
@[simp] theorem State.stage_lines (off : Nat) (v : Word) : (s.stage off v).lines = s.lines := (rfl)
@[simp] theorem State.stage_wbs (off : Nat) (v : Word) : (s.stage off v).wbs = s.wbs := (rfl)
@[simp] theorem State.stage_dirs (off : Nat) (v : Word) : (s.stage off v).dirs = s.dirs := (rfl)
@[simp] theorem State.stage_bias (off : Nat) (v : Word) : (s.stage off v).bias = s.bias := (rfl)
@[simp] theorem State.stage_txns (off : Nat) (v : Word) : (s.stage off v).txns = s.txns := (rfl)
@[simp] theorem State.stage_reqs (off : Nat) (v : Word) : (s.stage off v).reqs = s.reqs := (rfl)
@[simp] theorem State.stage_reqNo (off : Nat) (v : Word) : (s.stage off v).reqNo = s.reqNo := (rfl)
@[simp] theorem State.stage_tenures (off : Nat) (v : Word) : (s.stage off v).tenures = s.tenures := (rfl)
@[simp] theorem State.stage_heldSnps (off : Nat) (v : Word) : (s.stage off v).heldSnps = s.heldSnps := (rfl)
@[simp] theorem State.stage_gone (off : Nat) (v : Word) : (s.stage off v).gone = s.gone := (rfl)
@[simp] theorem State.stage_credits (off : Nat) (v : Word) : (s.stage off v).credits = s.credits := (rfl)
@[simp] theorem State.stage_linkWhy (off : Nat) (v : Word) : (s.stage off v).linkWhy = s.linkWhy := (rfl)
@[simp] theorem State.stage_linkSeq (off : Nat) (v : Word) : (s.stage off v).linkSeq = s.linkSeq := (rfl)
@[simp] theorem State.stage_stop (off : Nat) (v : Word) : (s.stage off v).stop = s.stop := (rfl)
@[simp] theorem State.stage_biasCmd (off : Nat) (v : Word) : (s.stage off v).biasCmd = s.biasCmd := (rfl)
@[simp] theorem State.stage_tracker (off : Nat) (v : Word) : (s.stage off v).tracker = s.tracker := (rfl)
@[simp] theorem State.stage_nqTail (off : Nat) (v : Word) : (s.stage off v).nqTail = s.nqTail := (rfl)
@[simp] theorem State.stage_nqPhase (off : Nat) (v : Word) : (s.stage off v).nqPhase = s.nqPhase := (rfl)
@[simp] theorem State.stage_nqCount (off : Nat) (v : Word) : (s.stage off v).nqCount = s.nqCount := (rfl)
@[simp] theorem State.stage_walks (off : Nat) (v : Word) : (s.stage off v).walks = s.walks := (rfl)
@[simp] theorem State.stage_walkNo (off : Nat) (v : Word) : (s.stage off v).walkNo = s.walkNo := (rfl)
@[simp] theorem State.stage_fqTail (off : Nat) (v : Word) : (s.stage off v).fqTail = s.fqTail := (rfl)
@[simp] theorem State.stage_fqPhase (off : Nat) (v : Word) : (s.stage off v).fqPhase = s.fqPhase := (rfl)
@[simp] theorem State.stage_sds (off : Nat) (v : Word) : (s.stage off v).sds = s.sds := (rfl)
@[simp] theorem State.stage_queues (off : Nat) (v : Word) : (s.stage off v).queues = s.queues := (rfl)
@[simp] theorem State.stage_engs (off : Nat) (v : Word) : (s.stage off v).engs = s.engs := (rfl)
@[simp] theorem State.stage_rrobin (off : Nat) (v : Word) : (s.stage off v).rrobin = s.rrobin := (rfl)
@[simp] theorem State.stage_ctxs (off : Nat) (v : Word) : (s.stage off v).ctxs = s.ctxs := (rfl)
@[simp] theorem State.stage_surfs (off : Nat) (v : Word) : (s.stage off v).surfs = s.surfs := (rfl)
@[simp] theorem State.stage_engHeld (off : Nat) (v : Word) : (s.stage off v).engHeld = s.engHeld := (rfl)
@[simp] theorem State.stage_moved (off : Nat) (v : Word) : (s.stage off v).moved = s.moved := (rfl)
@[simp] theorem State.stage_peerTag (off : Nat) (v : Word) : (s.stage off v).peerTag = s.peerTag := (rfl)
@[simp] theorem State.stage_odbs (off : Nat) (v : Word) : (s.stage off v).odbs = s.odbs := (rfl)
@[simp] theorem State.stage_since (off : Nat) (v : Word) : (s.stage off v).since = s.since := (rfl)
@[simp] theorem State.stage_told (off : Nat) (v : Word) : (s.stage off v).told = s.told := (rfl)
@[simp] theorem State.stage_hostPhase (off : Nat) (v : Word) : (s.stage off v).hostPhase = s.hostPhase := (rfl)
@[simp] theorem State.stage_rots (off : Nat) (v : Word) : (s.stage off v).rots = s.rots := (rfl)
@[simp] theorem State.stage_template (off : Nat) (v : Word) : (s.stage off v).template = s.template := (rfl)
@[simp] theorem State.stage_ports (off : Nat) (v : Word) : (s.stage off v).ports = s.ports := (rfl)
@[simp] theorem State.stage_tests (off : Nat) (v : Word) : (s.stage off v).tests = s.tests := (rfl)
@[simp] theorem State.stage_deferred (off : Nat) (v : Word) : (s.stage off v).deferred = s.deferred := (rfl)
@[simp] theorem State.stage_power (off : Nat) (v : Word) : (s.stage off v).power = s.power := (rfl)
@[simp] theorem State.stage_degr (off : Nat) (v : Word) : (s.stage off v).degr = s.degr := (rfl)
@[simp] theorem State.stage_relayTag (off : Nat) (v : Word) : (s.stage off v).relayTag = s.relayTag := (rfl)
@[simp] theorem State.stage_engSwap (off : Nat) (v : Word) : (s.stage off v).engSwap = s.engSwap := (rfl)
@[simp] theorem State.stage_relayDead (off : Nat) (v : Word) : (s.stage off v).relayDead = s.relayDead := (rfl)
@[simp] theorem State.stage_mrst (off : Nat) (v : Word) : (s.stage off v).mrst = s.mrst := (rfl)
@[simp] theorem State.stage_rails (off : Nat) (v : Word) : (s.stage off v).rails = s.rails := (rfl)
@[simp] theorem State.stage_tripped (off : Nat) (v : Word) : (s.stage off v).tripped = s.tripped := (rfl)
@[simp] theorem State.stage_standby (off : Nat) (v : Word) : (s.stage off v).standby = s.standby := (rfl)
@[simp] theorem State.stage_jtag (off : Nat) (v : Word) : (s.stage off v).jtag = s.jtag := (rfl)
@[simp] theorem State.stage_spdm (off : Nat) (v : Word) : (s.stage off v).spdm = s.spdm := (rfl)
@[simp] theorem State.stage_image (off : Nat) (v : Word) : (s.stage off v).image = s.image := (rfl)
@[simp] theorem State.stage_imgDigest (off : Nat) (v : Word) : (s.stage off v).imgDigest = s.imgDigest := (rfl)
@[simp] theorem State.stage_wbTxns (off : Nat) (v : Word) : (s.stage off v).wbTxns = s.wbTxns := (rfl)
@[simp] theorem State.stage_eccErrs (off : Nat) (v : Word) : (s.stage off v).eccErrs = s.eccErrs := (rfl)
@[simp] theorem State.stage_laneUse (off : Nat) (v : Word) : (s.stage off v).laneUse = s.laneUse := (rfl)
@[simp] theorem State.stage_walkTurn (off : Nat) (v : Word) : (s.stage off v).walkTurn = s.walkTurn := (rfl)
@[simp] theorem State.stage_decayed (off : Nat) (v : Word) : (s.stage off v).decayed = s.decayed := (rfl)
@[simp] theorem State.stage_asks (off : Nat) (v : Word) : (s.stage off v).asks = s.asks := (rfl)
@[simp] theorem State.stage_msgNo (off : Nat) (v : Word) : (s.stage off v).msgNo = s.msgNo := (rfl)
@[simp] theorem State.stage_mgmtDrops (off : Nat) (v : Word) : (s.stage off v).mgmtDrops = s.mgmtDrops := (rfl)
@[simp] theorem State.stage_l2 (off : Nat) (v : Word) : (s.stage off v).l2 = s.l2 := (rfl)
@[simp] theorem State.stage_imsic (off : Nat) (v : Word) : (s.stage off v).imsic = s.imsic := (rfl)
@[simp] theorem State.stage_pcieHeld (off : Nat) (v : Word) : (s.stage off v).pcieHeld = s.pcieHeld := (rfl)
@[simp] theorem State.stage_devReqs (off : Nat) (v : Word) : (s.stage off v).devReqs = s.devReqs := (rfl)
@[simp] theorem State.stage_memQ (off : Nat) (v : Word) : (s.stage off v).memQ = s.memQ := (rfl)
@[simp] theorem State.stage_flushes (off : Nat) (v : Word) : (s.stage off v).flushes = s.flushes := (rfl)
@[simp] theorem State.stage_leaving (off : Nat) (v : Word) : (s.stage off v).leaving = s.leaving := (rfl)
@[simp] theorem State.stage_hostWaits (off : Nat) (v : Word) : (s.stage off v).hostWaits = s.hostWaits := (rfl)
@[simp] theorem State.stage_wrNo (off : Nat) (v : Word) : (s.stage off v).wrNo = s.wrNo := (rfl)

/-! State.addArm changes arms alone. -/

@[simp] theorem State.addArm_pending (a : Arm) : (s.addArm a).pending = s.pending := (rfl)
@[simp] theorem State.addArm_free (a : Arm) : (s.addArm a).free = s.free := (rfl)
@[simp] theorem State.addArm_regs (a : Arm) : (s.addArm a).regs = s.regs := (rfl)
@[simp] theorem State.addArm_latched (a : Arm) : (s.addArm a).latched = s.latched := (rfl)
@[simp] theorem State.addArm_staged (a : Arm) : (s.addArm a).staged = s.staged := (rfl)
@[simp] theorem State.addArm_mem (a : Arm) : (s.addArm a).mem = s.mem := (rfl)
@[simp] theorem State.addArm_out (a : Arm) : (s.addArm a).out = s.out := (rfl)
@[simp] theorem State.addArm_ring (a : Arm) : (s.addArm a).ring = s.ring := (rfl)
@[simp] theorem State.addArm_lap (a : Arm) : (s.addArm a).lap = s.lap := (rfl)
@[simp] theorem State.addArm_votes (a : Arm) : (s.addArm a).votes = s.votes := (rfl)
@[simp] theorem State.addArm_hdAway (a : Arm) : (s.addArm a).hdAway = s.hdAway := (rfl)
@[simp] theorem State.addArm_clusters (a : Arm) : (s.addArm a).clusters = s.clusters := (rfl)
@[simp] theorem State.addArm_stash (a : Arm) : (s.addArm a).stash = s.stash := (rfl)
@[simp] theorem State.addArm_shards (a : Arm) : (s.addArm a).shards = s.shards := (rfl)
@[simp] theorem State.addArm_ties (a : Arm) : (s.addArm a).ties = s.ties := (rfl)
@[simp] theorem State.addArm_slots (a : Arm) : (s.addArm a).slots = s.slots := (rfl)
@[simp] theorem State.addArm_lines (a : Arm) : (s.addArm a).lines = s.lines := (rfl)
@[simp] theorem State.addArm_wbs (a : Arm) : (s.addArm a).wbs = s.wbs := (rfl)
@[simp] theorem State.addArm_dirs (a : Arm) : (s.addArm a).dirs = s.dirs := (rfl)
@[simp] theorem State.addArm_bias (a : Arm) : (s.addArm a).bias = s.bias := (rfl)
@[simp] theorem State.addArm_txns (a : Arm) : (s.addArm a).txns = s.txns := (rfl)
@[simp] theorem State.addArm_reqs (a : Arm) : (s.addArm a).reqs = s.reqs := (rfl)
@[simp] theorem State.addArm_reqNo (a : Arm) : (s.addArm a).reqNo = s.reqNo := (rfl)
@[simp] theorem State.addArm_tenures (a : Arm) : (s.addArm a).tenures = s.tenures := (rfl)
@[simp] theorem State.addArm_heldSnps (a : Arm) : (s.addArm a).heldSnps = s.heldSnps := (rfl)
@[simp] theorem State.addArm_gone (a : Arm) : (s.addArm a).gone = s.gone := (rfl)
@[simp] theorem State.addArm_credits (a : Arm) : (s.addArm a).credits = s.credits := (rfl)
@[simp] theorem State.addArm_linkWhy (a : Arm) : (s.addArm a).linkWhy = s.linkWhy := (rfl)
@[simp] theorem State.addArm_linkSeq (a : Arm) : (s.addArm a).linkSeq = s.linkSeq := (rfl)
@[simp] theorem State.addArm_stop (a : Arm) : (s.addArm a).stop = s.stop := (rfl)
@[simp] theorem State.addArm_biasCmd (a : Arm) : (s.addArm a).biasCmd = s.biasCmd := (rfl)
@[simp] theorem State.addArm_tracker (a : Arm) : (s.addArm a).tracker = s.tracker := (rfl)
@[simp] theorem State.addArm_nqTail (a : Arm) : (s.addArm a).nqTail = s.nqTail := (rfl)
@[simp] theorem State.addArm_nqPhase (a : Arm) : (s.addArm a).nqPhase = s.nqPhase := (rfl)
@[simp] theorem State.addArm_nqCount (a : Arm) : (s.addArm a).nqCount = s.nqCount := (rfl)
@[simp] theorem State.addArm_walks (a : Arm) : (s.addArm a).walks = s.walks := (rfl)
@[simp] theorem State.addArm_walkNo (a : Arm) : (s.addArm a).walkNo = s.walkNo := (rfl)
@[simp] theorem State.addArm_fqTail (a : Arm) : (s.addArm a).fqTail = s.fqTail := (rfl)
@[simp] theorem State.addArm_fqPhase (a : Arm) : (s.addArm a).fqPhase = s.fqPhase := (rfl)
@[simp] theorem State.addArm_sds (a : Arm) : (s.addArm a).sds = s.sds := (rfl)
@[simp] theorem State.addArm_queues (a : Arm) : (s.addArm a).queues = s.queues := (rfl)
@[simp] theorem State.addArm_engs (a : Arm) : (s.addArm a).engs = s.engs := (rfl)
@[simp] theorem State.addArm_rrobin (a : Arm) : (s.addArm a).rrobin = s.rrobin := (rfl)
@[simp] theorem State.addArm_ctxs (a : Arm) : (s.addArm a).ctxs = s.ctxs := (rfl)
@[simp] theorem State.addArm_surfs (a : Arm) : (s.addArm a).surfs = s.surfs := (rfl)
@[simp] theorem State.addArm_engHeld (a : Arm) : (s.addArm a).engHeld = s.engHeld := (rfl)
@[simp] theorem State.addArm_moved (a : Arm) : (s.addArm a).moved = s.moved := (rfl)
@[simp] theorem State.addArm_peerTag (a : Arm) : (s.addArm a).peerTag = s.peerTag := (rfl)
@[simp] theorem State.addArm_odbs (a : Arm) : (s.addArm a).odbs = s.odbs := (rfl)
@[simp] theorem State.addArm_since (a : Arm) : (s.addArm a).since = s.since := (rfl)
@[simp] theorem State.addArm_told (a : Arm) : (s.addArm a).told = s.told := (rfl)
@[simp] theorem State.addArm_hostPhase (a : Arm) : (s.addArm a).hostPhase = s.hostPhase := (rfl)
@[simp] theorem State.addArm_rots (a : Arm) : (s.addArm a).rots = s.rots := (rfl)
@[simp] theorem State.addArm_template (a : Arm) : (s.addArm a).template = s.template := (rfl)
@[simp] theorem State.addArm_ports (a : Arm) : (s.addArm a).ports = s.ports := (rfl)
@[simp] theorem State.addArm_tests (a : Arm) : (s.addArm a).tests = s.tests := (rfl)
@[simp] theorem State.addArm_deferred (a : Arm) : (s.addArm a).deferred = s.deferred := (rfl)
@[simp] theorem State.addArm_power (a : Arm) : (s.addArm a).power = s.power := (rfl)
@[simp] theorem State.addArm_degr (a : Arm) : (s.addArm a).degr = s.degr := (rfl)
@[simp] theorem State.addArm_relayTag (a : Arm) : (s.addArm a).relayTag = s.relayTag := (rfl)
@[simp] theorem State.addArm_engSwap (a : Arm) : (s.addArm a).engSwap = s.engSwap := (rfl)
@[simp] theorem State.addArm_relayDead (a : Arm) : (s.addArm a).relayDead = s.relayDead := (rfl)
@[simp] theorem State.addArm_mrst (a : Arm) : (s.addArm a).mrst = s.mrst := (rfl)
@[simp] theorem State.addArm_rails (a : Arm) : (s.addArm a).rails = s.rails := (rfl)
@[simp] theorem State.addArm_tripped (a : Arm) : (s.addArm a).tripped = s.tripped := (rfl)
@[simp] theorem State.addArm_standby (a : Arm) : (s.addArm a).standby = s.standby := (rfl)
@[simp] theorem State.addArm_jtag (a : Arm) : (s.addArm a).jtag = s.jtag := (rfl)
@[simp] theorem State.addArm_spdm (a : Arm) : (s.addArm a).spdm = s.spdm := (rfl)
@[simp] theorem State.addArm_image (a : Arm) : (s.addArm a).image = s.image := (rfl)
@[simp] theorem State.addArm_imgDigest (a : Arm) : (s.addArm a).imgDigest = s.imgDigest := (rfl)
@[simp] theorem State.addArm_wbTxns (a : Arm) : (s.addArm a).wbTxns = s.wbTxns := (rfl)
@[simp] theorem State.addArm_eccErrs (a : Arm) : (s.addArm a).eccErrs = s.eccErrs := (rfl)
@[simp] theorem State.addArm_laneUse (a : Arm) : (s.addArm a).laneUse = s.laneUse := (rfl)
@[simp] theorem State.addArm_walkTurn (a : Arm) : (s.addArm a).walkTurn = s.walkTurn := (rfl)
@[simp] theorem State.addArm_decayed (a : Arm) : (s.addArm a).decayed = s.decayed := (rfl)
@[simp] theorem State.addArm_asks (a : Arm) : (s.addArm a).asks = s.asks := (rfl)
@[simp] theorem State.addArm_msgNo (a : Arm) : (s.addArm a).msgNo = s.msgNo := (rfl)
@[simp] theorem State.addArm_mgmtDrops (a : Arm) : (s.addArm a).mgmtDrops = s.mgmtDrops := (rfl)
@[simp] theorem State.addArm_l2 (a : Arm) : (s.addArm a).l2 = s.l2 := (rfl)
@[simp] theorem State.addArm_imsic (a : Arm) : (s.addArm a).imsic = s.imsic := (rfl)
@[simp] theorem State.addArm_pcieHeld (a : Arm) : (s.addArm a).pcieHeld = s.pcieHeld := (rfl)
@[simp] theorem State.addArm_devReqs (a : Arm) : (s.addArm a).devReqs = s.devReqs := (rfl)
@[simp] theorem State.addArm_memQ (a : Arm) : (s.addArm a).memQ = s.memQ := (rfl)
@[simp] theorem State.addArm_flushes (a : Arm) : (s.addArm a).flushes = s.flushes := (rfl)
@[simp] theorem State.addArm_leaving (a : Arm) : (s.addArm a).leaving = s.leaving := (rfl)
@[simp] theorem State.addArm_hostWaits (a : Arm) : (s.addArm a).hostWaits = s.hostWaits := (rfl)
@[simp] theorem State.addArm_wrNo (a : Arm) : (s.addArm a).wrNo = s.wrNo := (rfl)

/-! State.dropArms changes arms alone. -/

@[simp] theorem State.dropArms_pending (kind who : Nat) : (s.dropArms kind who).pending = s.pending := (rfl)
@[simp] theorem State.dropArms_free (kind who : Nat) : (s.dropArms kind who).free = s.free := (rfl)
@[simp] theorem State.dropArms_regs (kind who : Nat) : (s.dropArms kind who).regs = s.regs := (rfl)
@[simp] theorem State.dropArms_latched (kind who : Nat) : (s.dropArms kind who).latched = s.latched := (rfl)
@[simp] theorem State.dropArms_staged (kind who : Nat) : (s.dropArms kind who).staged = s.staged := (rfl)
@[simp] theorem State.dropArms_mem (kind who : Nat) : (s.dropArms kind who).mem = s.mem := (rfl)
@[simp] theorem State.dropArms_out (kind who : Nat) : (s.dropArms kind who).out = s.out := (rfl)
@[simp] theorem State.dropArms_ring (kind who : Nat) : (s.dropArms kind who).ring = s.ring := (rfl)
@[simp] theorem State.dropArms_lap (kind who : Nat) : (s.dropArms kind who).lap = s.lap := (rfl)
@[simp] theorem State.dropArms_votes (kind who : Nat) : (s.dropArms kind who).votes = s.votes := (rfl)
@[simp] theorem State.dropArms_hdAway (kind who : Nat) : (s.dropArms kind who).hdAway = s.hdAway := (rfl)
@[simp] theorem State.dropArms_clusters (kind who : Nat) : (s.dropArms kind who).clusters = s.clusters := (rfl)
@[simp] theorem State.dropArms_stash (kind who : Nat) : (s.dropArms kind who).stash = s.stash := (rfl)
@[simp] theorem State.dropArms_shards (kind who : Nat) : (s.dropArms kind who).shards = s.shards := (rfl)
@[simp] theorem State.dropArms_ties (kind who : Nat) : (s.dropArms kind who).ties = s.ties := (rfl)
@[simp] theorem State.dropArms_slots (kind who : Nat) : (s.dropArms kind who).slots = s.slots := (rfl)
@[simp] theorem State.dropArms_lines (kind who : Nat) : (s.dropArms kind who).lines = s.lines := (rfl)
@[simp] theorem State.dropArms_wbs (kind who : Nat) : (s.dropArms kind who).wbs = s.wbs := (rfl)
@[simp] theorem State.dropArms_dirs (kind who : Nat) : (s.dropArms kind who).dirs = s.dirs := (rfl)
@[simp] theorem State.dropArms_bias (kind who : Nat) : (s.dropArms kind who).bias = s.bias := (rfl)
@[simp] theorem State.dropArms_txns (kind who : Nat) : (s.dropArms kind who).txns = s.txns := (rfl)
@[simp] theorem State.dropArms_reqs (kind who : Nat) : (s.dropArms kind who).reqs = s.reqs := (rfl)
@[simp] theorem State.dropArms_reqNo (kind who : Nat) : (s.dropArms kind who).reqNo = s.reqNo := (rfl)
@[simp] theorem State.dropArms_tenures (kind who : Nat) : (s.dropArms kind who).tenures = s.tenures := (rfl)
@[simp] theorem State.dropArms_heldSnps (kind who : Nat) : (s.dropArms kind who).heldSnps = s.heldSnps := (rfl)
@[simp] theorem State.dropArms_gone (kind who : Nat) : (s.dropArms kind who).gone = s.gone := (rfl)
@[simp] theorem State.dropArms_credits (kind who : Nat) : (s.dropArms kind who).credits = s.credits := (rfl)
@[simp] theorem State.dropArms_linkWhy (kind who : Nat) : (s.dropArms kind who).linkWhy = s.linkWhy := (rfl)
@[simp] theorem State.dropArms_linkSeq (kind who : Nat) : (s.dropArms kind who).linkSeq = s.linkSeq := (rfl)
@[simp] theorem State.dropArms_stop (kind who : Nat) : (s.dropArms kind who).stop = s.stop := (rfl)
@[simp] theorem State.dropArms_biasCmd (kind who : Nat) : (s.dropArms kind who).biasCmd = s.biasCmd := (rfl)
@[simp] theorem State.dropArms_tracker (kind who : Nat) : (s.dropArms kind who).tracker = s.tracker := (rfl)
@[simp] theorem State.dropArms_nqTail (kind who : Nat) : (s.dropArms kind who).nqTail = s.nqTail := (rfl)
@[simp] theorem State.dropArms_nqPhase (kind who : Nat) : (s.dropArms kind who).nqPhase = s.nqPhase := (rfl)
@[simp] theorem State.dropArms_nqCount (kind who : Nat) : (s.dropArms kind who).nqCount = s.nqCount := (rfl)
@[simp] theorem State.dropArms_walks (kind who : Nat) : (s.dropArms kind who).walks = s.walks := (rfl)
@[simp] theorem State.dropArms_walkNo (kind who : Nat) : (s.dropArms kind who).walkNo = s.walkNo := (rfl)
@[simp] theorem State.dropArms_fqTail (kind who : Nat) : (s.dropArms kind who).fqTail = s.fqTail := (rfl)
@[simp] theorem State.dropArms_fqPhase (kind who : Nat) : (s.dropArms kind who).fqPhase = s.fqPhase := (rfl)
@[simp] theorem State.dropArms_sds (kind who : Nat) : (s.dropArms kind who).sds = s.sds := (rfl)
@[simp] theorem State.dropArms_queues (kind who : Nat) : (s.dropArms kind who).queues = s.queues := (rfl)
@[simp] theorem State.dropArms_engs (kind who : Nat) : (s.dropArms kind who).engs = s.engs := (rfl)
@[simp] theorem State.dropArms_rrobin (kind who : Nat) : (s.dropArms kind who).rrobin = s.rrobin := (rfl)
@[simp] theorem State.dropArms_ctxs (kind who : Nat) : (s.dropArms kind who).ctxs = s.ctxs := (rfl)
@[simp] theorem State.dropArms_surfs (kind who : Nat) : (s.dropArms kind who).surfs = s.surfs := (rfl)
@[simp] theorem State.dropArms_engHeld (kind who : Nat) : (s.dropArms kind who).engHeld = s.engHeld := (rfl)
@[simp] theorem State.dropArms_moved (kind who : Nat) : (s.dropArms kind who).moved = s.moved := (rfl)
@[simp] theorem State.dropArms_peerTag (kind who : Nat) : (s.dropArms kind who).peerTag = s.peerTag := (rfl)
@[simp] theorem State.dropArms_odbs (kind who : Nat) : (s.dropArms kind who).odbs = s.odbs := (rfl)
@[simp] theorem State.dropArms_since (kind who : Nat) : (s.dropArms kind who).since = s.since := (rfl)
@[simp] theorem State.dropArms_told (kind who : Nat) : (s.dropArms kind who).told = s.told := (rfl)
@[simp] theorem State.dropArms_hostPhase (kind who : Nat) : (s.dropArms kind who).hostPhase = s.hostPhase := (rfl)
@[simp] theorem State.dropArms_rots (kind who : Nat) : (s.dropArms kind who).rots = s.rots := (rfl)
@[simp] theorem State.dropArms_template (kind who : Nat) : (s.dropArms kind who).template = s.template := (rfl)
@[simp] theorem State.dropArms_ports (kind who : Nat) : (s.dropArms kind who).ports = s.ports := (rfl)
@[simp] theorem State.dropArms_tests (kind who : Nat) : (s.dropArms kind who).tests = s.tests := (rfl)
@[simp] theorem State.dropArms_deferred (kind who : Nat) : (s.dropArms kind who).deferred = s.deferred := (rfl)
@[simp] theorem State.dropArms_power (kind who : Nat) : (s.dropArms kind who).power = s.power := (rfl)
@[simp] theorem State.dropArms_degr (kind who : Nat) : (s.dropArms kind who).degr = s.degr := (rfl)
@[simp] theorem State.dropArms_relayTag (kind who : Nat) : (s.dropArms kind who).relayTag = s.relayTag := (rfl)
@[simp] theorem State.dropArms_engSwap (kind who : Nat) : (s.dropArms kind who).engSwap = s.engSwap := (rfl)
@[simp] theorem State.dropArms_relayDead (kind who : Nat) : (s.dropArms kind who).relayDead = s.relayDead := (rfl)
@[simp] theorem State.dropArms_mrst (kind who : Nat) : (s.dropArms kind who).mrst = s.mrst := (rfl)
@[simp] theorem State.dropArms_rails (kind who : Nat) : (s.dropArms kind who).rails = s.rails := (rfl)
@[simp] theorem State.dropArms_tripped (kind who : Nat) : (s.dropArms kind who).tripped = s.tripped := (rfl)
@[simp] theorem State.dropArms_standby (kind who : Nat) : (s.dropArms kind who).standby = s.standby := (rfl)
@[simp] theorem State.dropArms_jtag (kind who : Nat) : (s.dropArms kind who).jtag = s.jtag := (rfl)
@[simp] theorem State.dropArms_spdm (kind who : Nat) : (s.dropArms kind who).spdm = s.spdm := (rfl)
@[simp] theorem State.dropArms_image (kind who : Nat) : (s.dropArms kind who).image = s.image := (rfl)
@[simp] theorem State.dropArms_imgDigest (kind who : Nat) : (s.dropArms kind who).imgDigest = s.imgDigest := (rfl)
@[simp] theorem State.dropArms_wbTxns (kind who : Nat) : (s.dropArms kind who).wbTxns = s.wbTxns := (rfl)
@[simp] theorem State.dropArms_eccErrs (kind who : Nat) : (s.dropArms kind who).eccErrs = s.eccErrs := (rfl)
@[simp] theorem State.dropArms_laneUse (kind who : Nat) : (s.dropArms kind who).laneUse = s.laneUse := (rfl)
@[simp] theorem State.dropArms_walkTurn (kind who : Nat) : (s.dropArms kind who).walkTurn = s.walkTurn := (rfl)
@[simp] theorem State.dropArms_decayed (kind who : Nat) : (s.dropArms kind who).decayed = s.decayed := (rfl)
@[simp] theorem State.dropArms_asks (kind who : Nat) : (s.dropArms kind who).asks = s.asks := (rfl)
@[simp] theorem State.dropArms_msgNo (kind who : Nat) : (s.dropArms kind who).msgNo = s.msgNo := (rfl)
@[simp] theorem State.dropArms_mgmtDrops (kind who : Nat) : (s.dropArms kind who).mgmtDrops = s.mgmtDrops := (rfl)
@[simp] theorem State.dropArms_l2 (kind who : Nat) : (s.dropArms kind who).l2 = s.l2 := (rfl)
@[simp] theorem State.dropArms_imsic (kind who : Nat) : (s.dropArms kind who).imsic = s.imsic := (rfl)
@[simp] theorem State.dropArms_pcieHeld (kind who : Nat) : (s.dropArms kind who).pcieHeld = s.pcieHeld := (rfl)
@[simp] theorem State.dropArms_devReqs (kind who : Nat) : (s.dropArms kind who).devReqs = s.devReqs := (rfl)
@[simp] theorem State.dropArms_memQ (kind who : Nat) : (s.dropArms kind who).memQ = s.memQ := (rfl)
@[simp] theorem State.dropArms_flushes (kind who : Nat) : (s.dropArms kind who).flushes = s.flushes := (rfl)
@[simp] theorem State.dropArms_leaving (kind who : Nat) : (s.dropArms kind who).leaving = s.leaving := (rfl)
@[simp] theorem State.dropArms_hostWaits (kind who : Nat) : (s.dropArms kind who).hostWaits = s.hostWaits := (rfl)
@[simp] theorem State.dropArms_wrNo (kind who : Nat) : (s.dropArms kind who).wrNo = s.wrNo := (rfl)

/-! State.latch changes latched alone. -/

@[simp] theorem State.latch_pending : (s.latch).pending = s.pending := (rfl)
@[simp] theorem State.latch_free : (s.latch).free = s.free := (rfl)
@[simp] theorem State.latch_regs : (s.latch).regs = s.regs := (rfl)
@[simp] theorem State.latch_staged : (s.latch).staged = s.staged := (rfl)
@[simp] theorem State.latch_mem : (s.latch).mem = s.mem := (rfl)
@[simp] theorem State.latch_out : (s.latch).out = s.out := (rfl)
@[simp] theorem State.latch_ring : (s.latch).ring = s.ring := (rfl)
@[simp] theorem State.latch_lap : (s.latch).lap = s.lap := (rfl)
@[simp] theorem State.latch_arms : (s.latch).arms = s.arms := (rfl)
@[simp] theorem State.latch_votes : (s.latch).votes = s.votes := (rfl)
@[simp] theorem State.latch_hdAway : (s.latch).hdAway = s.hdAway := (rfl)
@[simp] theorem State.latch_clusters : (s.latch).clusters = s.clusters := (rfl)
@[simp] theorem State.latch_stash : (s.latch).stash = s.stash := (rfl)
@[simp] theorem State.latch_shards : (s.latch).shards = s.shards := (rfl)
@[simp] theorem State.latch_ties : (s.latch).ties = s.ties := (rfl)
@[simp] theorem State.latch_slots : (s.latch).slots = s.slots := (rfl)
@[simp] theorem State.latch_lines : (s.latch).lines = s.lines := (rfl)
@[simp] theorem State.latch_wbs : (s.latch).wbs = s.wbs := (rfl)
@[simp] theorem State.latch_dirs : (s.latch).dirs = s.dirs := (rfl)
@[simp] theorem State.latch_bias : (s.latch).bias = s.bias := (rfl)
@[simp] theorem State.latch_txns : (s.latch).txns = s.txns := (rfl)
@[simp] theorem State.latch_reqs : (s.latch).reqs = s.reqs := (rfl)
@[simp] theorem State.latch_reqNo : (s.latch).reqNo = s.reqNo := (rfl)
@[simp] theorem State.latch_tenures : (s.latch).tenures = s.tenures := (rfl)
@[simp] theorem State.latch_heldSnps : (s.latch).heldSnps = s.heldSnps := (rfl)
@[simp] theorem State.latch_gone : (s.latch).gone = s.gone := (rfl)
@[simp] theorem State.latch_credits : (s.latch).credits = s.credits := (rfl)
@[simp] theorem State.latch_linkWhy : (s.latch).linkWhy = s.linkWhy := (rfl)
@[simp] theorem State.latch_linkSeq : (s.latch).linkSeq = s.linkSeq := (rfl)
@[simp] theorem State.latch_stop : (s.latch).stop = s.stop := (rfl)
@[simp] theorem State.latch_biasCmd : (s.latch).biasCmd = s.biasCmd := (rfl)
@[simp] theorem State.latch_tracker : (s.latch).tracker = s.tracker := (rfl)
@[simp] theorem State.latch_nqTail : (s.latch).nqTail = s.nqTail := (rfl)
@[simp] theorem State.latch_nqPhase : (s.latch).nqPhase = s.nqPhase := (rfl)
@[simp] theorem State.latch_nqCount : (s.latch).nqCount = s.nqCount := (rfl)
@[simp] theorem State.latch_walks : (s.latch).walks = s.walks := (rfl)
@[simp] theorem State.latch_walkNo : (s.latch).walkNo = s.walkNo := (rfl)
@[simp] theorem State.latch_fqTail : (s.latch).fqTail = s.fqTail := (rfl)
@[simp] theorem State.latch_fqPhase : (s.latch).fqPhase = s.fqPhase := (rfl)
@[simp] theorem State.latch_sds : (s.latch).sds = s.sds := (rfl)
@[simp] theorem State.latch_queues : (s.latch).queues = s.queues := (rfl)
@[simp] theorem State.latch_engs : (s.latch).engs = s.engs := (rfl)
@[simp] theorem State.latch_rrobin : (s.latch).rrobin = s.rrobin := (rfl)
@[simp] theorem State.latch_ctxs : (s.latch).ctxs = s.ctxs := (rfl)
@[simp] theorem State.latch_surfs : (s.latch).surfs = s.surfs := (rfl)
@[simp] theorem State.latch_engHeld : (s.latch).engHeld = s.engHeld := (rfl)
@[simp] theorem State.latch_moved : (s.latch).moved = s.moved := (rfl)
@[simp] theorem State.latch_peerTag : (s.latch).peerTag = s.peerTag := (rfl)
@[simp] theorem State.latch_odbs : (s.latch).odbs = s.odbs := (rfl)
@[simp] theorem State.latch_since : (s.latch).since = s.since := (rfl)
@[simp] theorem State.latch_told : (s.latch).told = s.told := (rfl)
@[simp] theorem State.latch_hostPhase : (s.latch).hostPhase = s.hostPhase := (rfl)
@[simp] theorem State.latch_rots : (s.latch).rots = s.rots := (rfl)
@[simp] theorem State.latch_template : (s.latch).template = s.template := (rfl)
@[simp] theorem State.latch_ports : (s.latch).ports = s.ports := (rfl)
@[simp] theorem State.latch_tests : (s.latch).tests = s.tests := (rfl)
@[simp] theorem State.latch_deferred : (s.latch).deferred = s.deferred := (rfl)
@[simp] theorem State.latch_power : (s.latch).power = s.power := (rfl)
@[simp] theorem State.latch_degr : (s.latch).degr = s.degr := (rfl)
@[simp] theorem State.latch_relayTag : (s.latch).relayTag = s.relayTag := (rfl)
@[simp] theorem State.latch_engSwap : (s.latch).engSwap = s.engSwap := (rfl)
@[simp] theorem State.latch_relayDead : (s.latch).relayDead = s.relayDead := (rfl)
@[simp] theorem State.latch_mrst : (s.latch).mrst = s.mrst := (rfl)
@[simp] theorem State.latch_rails : (s.latch).rails = s.rails := (rfl)
@[simp] theorem State.latch_tripped : (s.latch).tripped = s.tripped := (rfl)
@[simp] theorem State.latch_standby : (s.latch).standby = s.standby := (rfl)
@[simp] theorem State.latch_jtag : (s.latch).jtag = s.jtag := (rfl)
@[simp] theorem State.latch_spdm : (s.latch).spdm = s.spdm := (rfl)
@[simp] theorem State.latch_image : (s.latch).image = s.image := (rfl)
@[simp] theorem State.latch_imgDigest : (s.latch).imgDigest = s.imgDigest := (rfl)
@[simp] theorem State.latch_wbTxns : (s.latch).wbTxns = s.wbTxns := (rfl)
@[simp] theorem State.latch_eccErrs : (s.latch).eccErrs = s.eccErrs := (rfl)
@[simp] theorem State.latch_laneUse : (s.latch).laneUse = s.laneUse := (rfl)
@[simp] theorem State.latch_walkTurn : (s.latch).walkTurn = s.walkTurn := (rfl)
@[simp] theorem State.latch_decayed : (s.latch).decayed = s.decayed := (rfl)
@[simp] theorem State.latch_asks : (s.latch).asks = s.asks := (rfl)
@[simp] theorem State.latch_msgNo : (s.latch).msgNo = s.msgNo := (rfl)
@[simp] theorem State.latch_mgmtDrops : (s.latch).mgmtDrops = s.mgmtDrops := (rfl)
@[simp] theorem State.latch_l2 : (s.latch).l2 = s.l2 := (rfl)
@[simp] theorem State.latch_imsic : (s.latch).imsic = s.imsic := (rfl)
@[simp] theorem State.latch_pcieHeld : (s.latch).pcieHeld = s.pcieHeld := (rfl)
@[simp] theorem State.latch_devReqs : (s.latch).devReqs = s.devReqs := (rfl)
@[simp] theorem State.latch_memQ : (s.latch).memQ = s.memQ := (rfl)
@[simp] theorem State.latch_flushes : (s.latch).flushes = s.flushes := (rfl)
@[simp] theorem State.latch_leaving : (s.latch).leaving = s.leaving := (rfl)
@[simp] theorem State.latch_hostWaits : (s.latch).hostWaits = s.hostWaits := (rfl)
@[simp] theorem State.latch_wrNo : (s.latch).wrNo = s.wrNo := (rfl)

/-! State.rawSet changes mem alone. -/

@[simp] theorem State.rawSet_pending (a : Nat) (v : Byte) : (s.rawSet a v).pending = s.pending := (rfl)
@[simp] theorem State.rawSet_free (a : Nat) (v : Byte) : (s.rawSet a v).free = s.free := (rfl)
@[simp] theorem State.rawSet_regs (a : Nat) (v : Byte) : (s.rawSet a v).regs = s.regs := (rfl)
@[simp] theorem State.rawSet_latched (a : Nat) (v : Byte) : (s.rawSet a v).latched = s.latched := (rfl)
@[simp] theorem State.rawSet_staged (a : Nat) (v : Byte) : (s.rawSet a v).staged = s.staged := (rfl)
@[simp] theorem State.rawSet_out (a : Nat) (v : Byte) : (s.rawSet a v).out = s.out := (rfl)
@[simp] theorem State.rawSet_ring (a : Nat) (v : Byte) : (s.rawSet a v).ring = s.ring := (rfl)
@[simp] theorem State.rawSet_lap (a : Nat) (v : Byte) : (s.rawSet a v).lap = s.lap := (rfl)
@[simp] theorem State.rawSet_arms (a : Nat) (v : Byte) : (s.rawSet a v).arms = s.arms := (rfl)
@[simp] theorem State.rawSet_votes (a : Nat) (v : Byte) : (s.rawSet a v).votes = s.votes := (rfl)
@[simp] theorem State.rawSet_hdAway (a : Nat) (v : Byte) : (s.rawSet a v).hdAway = s.hdAway := (rfl)
@[simp] theorem State.rawSet_clusters (a : Nat) (v : Byte) : (s.rawSet a v).clusters = s.clusters := (rfl)
@[simp] theorem State.rawSet_stash (a : Nat) (v : Byte) : (s.rawSet a v).stash = s.stash := (rfl)
@[simp] theorem State.rawSet_shards (a : Nat) (v : Byte) : (s.rawSet a v).shards = s.shards := (rfl)
@[simp] theorem State.rawSet_ties (a : Nat) (v : Byte) : (s.rawSet a v).ties = s.ties := (rfl)
@[simp] theorem State.rawSet_slots (a : Nat) (v : Byte) : (s.rawSet a v).slots = s.slots := (rfl)
@[simp] theorem State.rawSet_lines (a : Nat) (v : Byte) : (s.rawSet a v).lines = s.lines := (rfl)
@[simp] theorem State.rawSet_wbs (a : Nat) (v : Byte) : (s.rawSet a v).wbs = s.wbs := (rfl)
@[simp] theorem State.rawSet_dirs (a : Nat) (v : Byte) : (s.rawSet a v).dirs = s.dirs := (rfl)
@[simp] theorem State.rawSet_bias (a : Nat) (v : Byte) : (s.rawSet a v).bias = s.bias := (rfl)
@[simp] theorem State.rawSet_txns (a : Nat) (v : Byte) : (s.rawSet a v).txns = s.txns := (rfl)
@[simp] theorem State.rawSet_reqs (a : Nat) (v : Byte) : (s.rawSet a v).reqs = s.reqs := (rfl)
@[simp] theorem State.rawSet_reqNo (a : Nat) (v : Byte) : (s.rawSet a v).reqNo = s.reqNo := (rfl)
@[simp] theorem State.rawSet_tenures (a : Nat) (v : Byte) : (s.rawSet a v).tenures = s.tenures := (rfl)
@[simp] theorem State.rawSet_heldSnps (a : Nat) (v : Byte) : (s.rawSet a v).heldSnps = s.heldSnps := (rfl)
@[simp] theorem State.rawSet_gone (a : Nat) (v : Byte) : (s.rawSet a v).gone = s.gone := (rfl)
@[simp] theorem State.rawSet_credits (a : Nat) (v : Byte) : (s.rawSet a v).credits = s.credits := (rfl)
@[simp] theorem State.rawSet_linkWhy (a : Nat) (v : Byte) : (s.rawSet a v).linkWhy = s.linkWhy := (rfl)
@[simp] theorem State.rawSet_linkSeq (a : Nat) (v : Byte) : (s.rawSet a v).linkSeq = s.linkSeq := (rfl)
@[simp] theorem State.rawSet_stop (a : Nat) (v : Byte) : (s.rawSet a v).stop = s.stop := (rfl)
@[simp] theorem State.rawSet_biasCmd (a : Nat) (v : Byte) : (s.rawSet a v).biasCmd = s.biasCmd := (rfl)
@[simp] theorem State.rawSet_tracker (a : Nat) (v : Byte) : (s.rawSet a v).tracker = s.tracker := (rfl)
@[simp] theorem State.rawSet_nqTail (a : Nat) (v : Byte) : (s.rawSet a v).nqTail = s.nqTail := (rfl)
@[simp] theorem State.rawSet_nqPhase (a : Nat) (v : Byte) : (s.rawSet a v).nqPhase = s.nqPhase := (rfl)
@[simp] theorem State.rawSet_nqCount (a : Nat) (v : Byte) : (s.rawSet a v).nqCount = s.nqCount := (rfl)
@[simp] theorem State.rawSet_walks (a : Nat) (v : Byte) : (s.rawSet a v).walks = s.walks := (rfl)
@[simp] theorem State.rawSet_walkNo (a : Nat) (v : Byte) : (s.rawSet a v).walkNo = s.walkNo := (rfl)
@[simp] theorem State.rawSet_fqTail (a : Nat) (v : Byte) : (s.rawSet a v).fqTail = s.fqTail := (rfl)
@[simp] theorem State.rawSet_fqPhase (a : Nat) (v : Byte) : (s.rawSet a v).fqPhase = s.fqPhase := (rfl)
@[simp] theorem State.rawSet_sds (a : Nat) (v : Byte) : (s.rawSet a v).sds = s.sds := (rfl)
@[simp] theorem State.rawSet_queues (a : Nat) (v : Byte) : (s.rawSet a v).queues = s.queues := (rfl)
@[simp] theorem State.rawSet_engs (a : Nat) (v : Byte) : (s.rawSet a v).engs = s.engs := (rfl)
@[simp] theorem State.rawSet_rrobin (a : Nat) (v : Byte) : (s.rawSet a v).rrobin = s.rrobin := (rfl)
@[simp] theorem State.rawSet_ctxs (a : Nat) (v : Byte) : (s.rawSet a v).ctxs = s.ctxs := (rfl)
@[simp] theorem State.rawSet_surfs (a : Nat) (v : Byte) : (s.rawSet a v).surfs = s.surfs := (rfl)
@[simp] theorem State.rawSet_engHeld (a : Nat) (v : Byte) : (s.rawSet a v).engHeld = s.engHeld := (rfl)
@[simp] theorem State.rawSet_moved (a : Nat) (v : Byte) : (s.rawSet a v).moved = s.moved := (rfl)
@[simp] theorem State.rawSet_peerTag (a : Nat) (v : Byte) : (s.rawSet a v).peerTag = s.peerTag := (rfl)
@[simp] theorem State.rawSet_odbs (a : Nat) (v : Byte) : (s.rawSet a v).odbs = s.odbs := (rfl)
@[simp] theorem State.rawSet_since (a : Nat) (v : Byte) : (s.rawSet a v).since = s.since := (rfl)
@[simp] theorem State.rawSet_told (a : Nat) (v : Byte) : (s.rawSet a v).told = s.told := (rfl)
@[simp] theorem State.rawSet_hostPhase (a : Nat) (v : Byte) : (s.rawSet a v).hostPhase = s.hostPhase := (rfl)
@[simp] theorem State.rawSet_rots (a : Nat) (v : Byte) : (s.rawSet a v).rots = s.rots := (rfl)
@[simp] theorem State.rawSet_template (a : Nat) (v : Byte) : (s.rawSet a v).template = s.template := (rfl)
@[simp] theorem State.rawSet_ports (a : Nat) (v : Byte) : (s.rawSet a v).ports = s.ports := (rfl)
@[simp] theorem State.rawSet_tests (a : Nat) (v : Byte) : (s.rawSet a v).tests = s.tests := (rfl)
@[simp] theorem State.rawSet_deferred (a : Nat) (v : Byte) : (s.rawSet a v).deferred = s.deferred := (rfl)
@[simp] theorem State.rawSet_power (a : Nat) (v : Byte) : (s.rawSet a v).power = s.power := (rfl)
@[simp] theorem State.rawSet_degr (a : Nat) (v : Byte) : (s.rawSet a v).degr = s.degr := (rfl)
@[simp] theorem State.rawSet_relayTag (a : Nat) (v : Byte) : (s.rawSet a v).relayTag = s.relayTag := (rfl)
@[simp] theorem State.rawSet_engSwap (a : Nat) (v : Byte) : (s.rawSet a v).engSwap = s.engSwap := (rfl)
@[simp] theorem State.rawSet_relayDead (a : Nat) (v : Byte) : (s.rawSet a v).relayDead = s.relayDead := (rfl)
@[simp] theorem State.rawSet_mrst (a : Nat) (v : Byte) : (s.rawSet a v).mrst = s.mrst := (rfl)
@[simp] theorem State.rawSet_rails (a : Nat) (v : Byte) : (s.rawSet a v).rails = s.rails := (rfl)
@[simp] theorem State.rawSet_tripped (a : Nat) (v : Byte) : (s.rawSet a v).tripped = s.tripped := (rfl)
@[simp] theorem State.rawSet_standby (a : Nat) (v : Byte) : (s.rawSet a v).standby = s.standby := (rfl)
@[simp] theorem State.rawSet_jtag (a : Nat) (v : Byte) : (s.rawSet a v).jtag = s.jtag := (rfl)
@[simp] theorem State.rawSet_spdm (a : Nat) (v : Byte) : (s.rawSet a v).spdm = s.spdm := (rfl)
@[simp] theorem State.rawSet_image (a : Nat) (v : Byte) : (s.rawSet a v).image = s.image := (rfl)
@[simp] theorem State.rawSet_imgDigest (a : Nat) (v : Byte) : (s.rawSet a v).imgDigest = s.imgDigest := (rfl)
@[simp] theorem State.rawSet_wbTxns (a : Nat) (v : Byte) : (s.rawSet a v).wbTxns = s.wbTxns := (rfl)
@[simp] theorem State.rawSet_eccErrs (a : Nat) (v : Byte) : (s.rawSet a v).eccErrs = s.eccErrs := (rfl)
@[simp] theorem State.rawSet_laneUse (a : Nat) (v : Byte) : (s.rawSet a v).laneUse = s.laneUse := (rfl)
@[simp] theorem State.rawSet_walkTurn (a : Nat) (v : Byte) : (s.rawSet a v).walkTurn = s.walkTurn := (rfl)
@[simp] theorem State.rawSet_decayed (a : Nat) (v : Byte) : (s.rawSet a v).decayed = s.decayed := (rfl)
@[simp] theorem State.rawSet_asks (a : Nat) (v : Byte) : (s.rawSet a v).asks = s.asks := (rfl)
@[simp] theorem State.rawSet_msgNo (a : Nat) (v : Byte) : (s.rawSet a v).msgNo = s.msgNo := (rfl)
@[simp] theorem State.rawSet_mgmtDrops (a : Nat) (v : Byte) : (s.rawSet a v).mgmtDrops = s.mgmtDrops := (rfl)
@[simp] theorem State.rawSet_l2 (a : Nat) (v : Byte) : (s.rawSet a v).l2 = s.l2 := (rfl)
@[simp] theorem State.rawSet_imsic (a : Nat) (v : Byte) : (s.rawSet a v).imsic = s.imsic := (rfl)
@[simp] theorem State.rawSet_pcieHeld (a : Nat) (v : Byte) : (s.rawSet a v).pcieHeld = s.pcieHeld := (rfl)
@[simp] theorem State.rawSet_devReqs (a : Nat) (v : Byte) : (s.rawSet a v).devReqs = s.devReqs := (rfl)
@[simp] theorem State.rawSet_memQ (a : Nat) (v : Byte) : (s.rawSet a v).memQ = s.memQ := (rfl)
@[simp] theorem State.rawSet_flushes (a : Nat) (v : Byte) : (s.rawSet a v).flushes = s.flushes := (rfl)
@[simp] theorem State.rawSet_leaving (a : Nat) (v : Byte) : (s.rawSet a v).leaving = s.leaving := (rfl)
@[simp] theorem State.rawSet_hostWaits (a : Nat) (v : Byte) : (s.rawSet a v).hostWaits = s.hostWaits := (rfl)
@[simp] theorem State.rawSet_wrNo (a : Nat) (v : Byte) : (s.rawSet a v).wrNo = s.wrNo := (rfl)

/-! State.setEng changes engs alone. -/

@[simp] theorem State.setEng_pending (e : Nat) (v : EngSt) : (s.setEng e v).pending = s.pending := (rfl)
@[simp] theorem State.setEng_free (e : Nat) (v : EngSt) : (s.setEng e v).free = s.free := (rfl)
@[simp] theorem State.setEng_regs (e : Nat) (v : EngSt) : (s.setEng e v).regs = s.regs := (rfl)
@[simp] theorem State.setEng_latched (e : Nat) (v : EngSt) : (s.setEng e v).latched = s.latched := (rfl)
@[simp] theorem State.setEng_staged (e : Nat) (v : EngSt) : (s.setEng e v).staged = s.staged := (rfl)
@[simp] theorem State.setEng_mem (e : Nat) (v : EngSt) : (s.setEng e v).mem = s.mem := (rfl)
@[simp] theorem State.setEng_out (e : Nat) (v : EngSt) : (s.setEng e v).out = s.out := (rfl)
@[simp] theorem State.setEng_ring (e : Nat) (v : EngSt) : (s.setEng e v).ring = s.ring := (rfl)
@[simp] theorem State.setEng_lap (e : Nat) (v : EngSt) : (s.setEng e v).lap = s.lap := (rfl)
@[simp] theorem State.setEng_arms (e : Nat) (v : EngSt) : (s.setEng e v).arms = s.arms := (rfl)
@[simp] theorem State.setEng_votes (e : Nat) (v : EngSt) : (s.setEng e v).votes = s.votes := (rfl)
@[simp] theorem State.setEng_hdAway (e : Nat) (v : EngSt) : (s.setEng e v).hdAway = s.hdAway := (rfl)
@[simp] theorem State.setEng_clusters (e : Nat) (v : EngSt) : (s.setEng e v).clusters = s.clusters := (rfl)
@[simp] theorem State.setEng_stash (e : Nat) (v : EngSt) : (s.setEng e v).stash = s.stash := (rfl)
@[simp] theorem State.setEng_shards (e : Nat) (v : EngSt) : (s.setEng e v).shards = s.shards := (rfl)
@[simp] theorem State.setEng_ties (e : Nat) (v : EngSt) : (s.setEng e v).ties = s.ties := (rfl)
@[simp] theorem State.setEng_slots (e : Nat) (v : EngSt) : (s.setEng e v).slots = s.slots := (rfl)
@[simp] theorem State.setEng_lines (e : Nat) (v : EngSt) : (s.setEng e v).lines = s.lines := (rfl)
@[simp] theorem State.setEng_wbs (e : Nat) (v : EngSt) : (s.setEng e v).wbs = s.wbs := (rfl)
@[simp] theorem State.setEng_dirs (e : Nat) (v : EngSt) : (s.setEng e v).dirs = s.dirs := (rfl)
@[simp] theorem State.setEng_bias (e : Nat) (v : EngSt) : (s.setEng e v).bias = s.bias := (rfl)
@[simp] theorem State.setEng_txns (e : Nat) (v : EngSt) : (s.setEng e v).txns = s.txns := (rfl)
@[simp] theorem State.setEng_reqs (e : Nat) (v : EngSt) : (s.setEng e v).reqs = s.reqs := (rfl)
@[simp] theorem State.setEng_reqNo (e : Nat) (v : EngSt) : (s.setEng e v).reqNo = s.reqNo := (rfl)
@[simp] theorem State.setEng_tenures (e : Nat) (v : EngSt) : (s.setEng e v).tenures = s.tenures := (rfl)
@[simp] theorem State.setEng_heldSnps (e : Nat) (v : EngSt) : (s.setEng e v).heldSnps = s.heldSnps := (rfl)
@[simp] theorem State.setEng_gone (e : Nat) (v : EngSt) : (s.setEng e v).gone = s.gone := (rfl)
@[simp] theorem State.setEng_credits (e : Nat) (v : EngSt) : (s.setEng e v).credits = s.credits := (rfl)
@[simp] theorem State.setEng_linkWhy (e : Nat) (v : EngSt) : (s.setEng e v).linkWhy = s.linkWhy := (rfl)
@[simp] theorem State.setEng_linkSeq (e : Nat) (v : EngSt) : (s.setEng e v).linkSeq = s.linkSeq := (rfl)
@[simp] theorem State.setEng_stop (e : Nat) (v : EngSt) : (s.setEng e v).stop = s.stop := (rfl)
@[simp] theorem State.setEng_biasCmd (e : Nat) (v : EngSt) : (s.setEng e v).biasCmd = s.biasCmd := (rfl)
@[simp] theorem State.setEng_tracker (e : Nat) (v : EngSt) : (s.setEng e v).tracker = s.tracker := (rfl)
@[simp] theorem State.setEng_nqTail (e : Nat) (v : EngSt) : (s.setEng e v).nqTail = s.nqTail := (rfl)
@[simp] theorem State.setEng_nqPhase (e : Nat) (v : EngSt) : (s.setEng e v).nqPhase = s.nqPhase := (rfl)
@[simp] theorem State.setEng_nqCount (e : Nat) (v : EngSt) : (s.setEng e v).nqCount = s.nqCount := (rfl)
@[simp] theorem State.setEng_walks (e : Nat) (v : EngSt) : (s.setEng e v).walks = s.walks := (rfl)
@[simp] theorem State.setEng_walkNo (e : Nat) (v : EngSt) : (s.setEng e v).walkNo = s.walkNo := (rfl)
@[simp] theorem State.setEng_fqTail (e : Nat) (v : EngSt) : (s.setEng e v).fqTail = s.fqTail := (rfl)
@[simp] theorem State.setEng_fqPhase (e : Nat) (v : EngSt) : (s.setEng e v).fqPhase = s.fqPhase := (rfl)
@[simp] theorem State.setEng_sds (e : Nat) (v : EngSt) : (s.setEng e v).sds = s.sds := (rfl)
@[simp] theorem State.setEng_queues (e : Nat) (v : EngSt) : (s.setEng e v).queues = s.queues := (rfl)
@[simp] theorem State.setEng_rrobin (e : Nat) (v : EngSt) : (s.setEng e v).rrobin = s.rrobin := (rfl)
@[simp] theorem State.setEng_ctxs (e : Nat) (v : EngSt) : (s.setEng e v).ctxs = s.ctxs := (rfl)
@[simp] theorem State.setEng_surfs (e : Nat) (v : EngSt) : (s.setEng e v).surfs = s.surfs := (rfl)
@[simp] theorem State.setEng_engHeld (e : Nat) (v : EngSt) : (s.setEng e v).engHeld = s.engHeld := (rfl)
@[simp] theorem State.setEng_moved (e : Nat) (v : EngSt) : (s.setEng e v).moved = s.moved := (rfl)
@[simp] theorem State.setEng_peerTag (e : Nat) (v : EngSt) : (s.setEng e v).peerTag = s.peerTag := (rfl)
@[simp] theorem State.setEng_odbs (e : Nat) (v : EngSt) : (s.setEng e v).odbs = s.odbs := (rfl)
@[simp] theorem State.setEng_since (e : Nat) (v : EngSt) : (s.setEng e v).since = s.since := (rfl)
@[simp] theorem State.setEng_told (e : Nat) (v : EngSt) : (s.setEng e v).told = s.told := (rfl)
@[simp] theorem State.setEng_hostPhase (e : Nat) (v : EngSt) : (s.setEng e v).hostPhase = s.hostPhase := (rfl)
@[simp] theorem State.setEng_rots (e : Nat) (v : EngSt) : (s.setEng e v).rots = s.rots := (rfl)
@[simp] theorem State.setEng_template (e : Nat) (v : EngSt) : (s.setEng e v).template = s.template := (rfl)
@[simp] theorem State.setEng_ports (e : Nat) (v : EngSt) : (s.setEng e v).ports = s.ports := (rfl)
@[simp] theorem State.setEng_tests (e : Nat) (v : EngSt) : (s.setEng e v).tests = s.tests := (rfl)
@[simp] theorem State.setEng_deferred (e : Nat) (v : EngSt) : (s.setEng e v).deferred = s.deferred := (rfl)
@[simp] theorem State.setEng_power (e : Nat) (v : EngSt) : (s.setEng e v).power = s.power := (rfl)
@[simp] theorem State.setEng_degr (e : Nat) (v : EngSt) : (s.setEng e v).degr = s.degr := (rfl)
@[simp] theorem State.setEng_relayTag (e : Nat) (v : EngSt) : (s.setEng e v).relayTag = s.relayTag := (rfl)
@[simp] theorem State.setEng_engSwap (e : Nat) (v : EngSt) : (s.setEng e v).engSwap = s.engSwap := (rfl)
@[simp] theorem State.setEng_relayDead (e : Nat) (v : EngSt) : (s.setEng e v).relayDead = s.relayDead := (rfl)
@[simp] theorem State.setEng_mrst (e : Nat) (v : EngSt) : (s.setEng e v).mrst = s.mrst := (rfl)
@[simp] theorem State.setEng_rails (e : Nat) (v : EngSt) : (s.setEng e v).rails = s.rails := (rfl)
@[simp] theorem State.setEng_tripped (e : Nat) (v : EngSt) : (s.setEng e v).tripped = s.tripped := (rfl)
@[simp] theorem State.setEng_standby (e : Nat) (v : EngSt) : (s.setEng e v).standby = s.standby := (rfl)
@[simp] theorem State.setEng_jtag (e : Nat) (v : EngSt) : (s.setEng e v).jtag = s.jtag := (rfl)
@[simp] theorem State.setEng_spdm (e : Nat) (v : EngSt) : (s.setEng e v).spdm = s.spdm := (rfl)
@[simp] theorem State.setEng_image (e : Nat) (v : EngSt) : (s.setEng e v).image = s.image := (rfl)
@[simp] theorem State.setEng_imgDigest (e : Nat) (v : EngSt) : (s.setEng e v).imgDigest = s.imgDigest := (rfl)
@[simp] theorem State.setEng_wbTxns (e : Nat) (v : EngSt) : (s.setEng e v).wbTxns = s.wbTxns := (rfl)
@[simp] theorem State.setEng_eccErrs (e : Nat) (v : EngSt) : (s.setEng e v).eccErrs = s.eccErrs := (rfl)
@[simp] theorem State.setEng_laneUse (e : Nat) (v : EngSt) : (s.setEng e v).laneUse = s.laneUse := (rfl)
@[simp] theorem State.setEng_walkTurn (e : Nat) (v : EngSt) : (s.setEng e v).walkTurn = s.walkTurn := (rfl)
@[simp] theorem State.setEng_decayed (e : Nat) (v : EngSt) : (s.setEng e v).decayed = s.decayed := (rfl)
@[simp] theorem State.setEng_asks (e : Nat) (v : EngSt) : (s.setEng e v).asks = s.asks := (rfl)
@[simp] theorem State.setEng_msgNo (e : Nat) (v : EngSt) : (s.setEng e v).msgNo = s.msgNo := (rfl)
@[simp] theorem State.setEng_mgmtDrops (e : Nat) (v : EngSt) : (s.setEng e v).mgmtDrops = s.mgmtDrops := (rfl)
@[simp] theorem State.setEng_l2 (e : Nat) (v : EngSt) : (s.setEng e v).l2 = s.l2 := (rfl)
@[simp] theorem State.setEng_imsic (e : Nat) (v : EngSt) : (s.setEng e v).imsic = s.imsic := (rfl)
@[simp] theorem State.setEng_pcieHeld (e : Nat) (v : EngSt) : (s.setEng e v).pcieHeld = s.pcieHeld := (rfl)
@[simp] theorem State.setEng_devReqs (e : Nat) (v : EngSt) : (s.setEng e v).devReqs = s.devReqs := (rfl)
@[simp] theorem State.setEng_memQ (e : Nat) (v : EngSt) : (s.setEng e v).memQ = s.memQ := (rfl)
@[simp] theorem State.setEng_flushes (e : Nat) (v : EngSt) : (s.setEng e v).flushes = s.flushes := (rfl)
@[simp] theorem State.setEng_leaving (e : Nat) (v : EngSt) : (s.setEng e v).leaving = s.leaving := (rfl)
@[simp] theorem State.setEng_hostWaits (e : Nat) (v : EngSt) : (s.setEng e v).hostWaits = s.hostWaits := (rfl)
@[simp] theorem State.setEng_wrNo (e : Nat) (v : EngSt) : (s.setEng e v).wrNo = s.wrNo := (rfl)

end

end Sys2Proof.Machine
end

