-- ==== Sys2Proof/Laws/Registers.lean ====
section
/-!
SUPPORT. Registers and numbered units: a field reads as it was written, and writing one field leaves every other register and every
other field of its own register alone.
-/

namespace Sys2Proof
open Sys2Proof

theorem testBit_bits (w hi lo i : Nat) : (bits w hi lo).testBit i = (decide (i < hi + 1 - lo) && w.testBit (lo + i)) := by
  simp [bits, Nat.testBit_mod_two_pow, Nat.testBit_shiftRight]

theorem testBit_place (hi lo v i : Nat) :
    (place hi lo v).testBit i = (decide (lo ≤ i) && decide (i - lo < hi + 1 - lo) && v.testBit (i - lo)) := by
  simp [place, Nat.testBit_shiftLeft, Nat.testBit_mod_two_pow, Bool.and_assoc]

end Sys2Proof

namespace Sys2Proof.Machine

theorem testBit_putBits (w : Word) (hi lo v i : Nat) (hhi : hi < 64) :
    (putBits w hi lo v).toNat.testBit i =
      if lo ≤ i ∧ i ≤ hi then v.testBit (i - lo) else w.toNat.testBit i := by
  by_cases hi64 : i < 64
  · have h2 : i - lo < 64 := by omega
    rw [BitVec.testBit_toNat, BitVec.testBit_toNat, putBits]
    simp only [BitVec.getLsbD_or, BitVec.getLsbD_and, BitVec.getLsbD_not, BitVec.getLsbD_ofNat, testBit_place, hi64, decide_true,
      Bool.true_and, Nat.testBit_two_pow_sub_one]
    by_cases h : lo ≤ i ∧ i ≤ hi
    · have h3 : i - lo < hi + 1 - lo := by omega
      simp [h, h2, h3]
    · rw [if_neg h]
      have h3 : (decide (lo ≤ i) && decide (i - lo < hi + 1 - lo)) = false := by
        rw [Bool.and_eq_false_iff, decide_eq_false_iff_not, decide_eq_false_iff_not]
        omega
      simp [h3]
  · have hx : ∀ x : Word, x.toNat.testBit i = false := fun x =>
      Nat.testBit_lt_two_pow (lt_of_lt_of_le x.isLt (Nat.pow_le_pow_right (by omega) (by omega)))
    rw [hx, hx, if_neg (by omega)]

/-- A field reads as it was put, at its width. -/
theorem bits_putBits_self (w : Word) (hi lo v : Nat) (h : hi < 64) :
    bits (putBits w hi lo v).toNat hi lo = v % 2 ^ (hi + 1 - lo) := by
  apply Nat.eq_of_testBit_eq
  intro i
  rw [testBit_bits, Nat.testBit_mod_two_pow, testBit_putBits w hi lo v _ h]
  by_cases hi2 : i < hi + 1 - lo
  · rw [if_pos (by omega)]
    simp
  · simp [hi2]

/-- Putting one field leaves a field of other bits alone. -/
theorem bits_putBits_ne (w : Word) (hi lo v hi' lo' : Nat) (h : hi < 64) (hd : hi' < lo ∨ hi < lo') :
    bits (putBits w hi lo v).toNat hi' lo' = bits w.toNat hi' lo' := by
  apply Nat.eq_of_testBit_eq
  intro i
  rw [testBit_bits, testBit_bits, testBit_putBits w hi lo v _ h]
  by_cases hi2 : i < hi' + 1 - lo'
  · rw [if_neg (by omega)]
  · simp [hi2]

/-- The whole register as a field. -/
theorem putBits_whole (w : Word) (v : Nat) : putBits w 63 0 v = BitVec.ofNat 64 v := by
  apply BitVec.eq_of_toNat_eq
  have h := bits_putBits_self w 63 0 v (by omega)
  simpa [bits, Nat.mod_eq_of_lt (putBits w 63 0 v).isLt] using h

section
variable (s : State)

theorem State.setReg_reg (off : Nat) (v : Word) (o : Nat) : (s.setReg off v).reg o = if o = off then v else s.reg o :=
  sget_sset _ _ _ _ _

@[simp] theorem State.setReg_reg_self (off : Nat) (v : Word) : (s.setReg off v).reg off = v := by simp [State.setReg_reg]

theorem State.setReg_reg_ne {off o : Nat} (v : Word) (h : o ≠ off) : (s.setReg off v).reg o = s.reg o := by
  simp [State.setReg_reg, h]

/-- What one register reads after a field was written. -/
theorem State.wr_reg (f : Fld) (v o : Nat) : (s.wr f v).reg o = if o = f.off then putBits (s.reg f.off) f.hi f.lo v else s.reg o := by
  rw [State.wr, State.setReg_reg]

@[simp] theorem State.wr_reg_self (f : Fld) (v : Nat) : (s.wr f v).reg f.off = putBits (s.reg f.off) f.hi f.lo v := by
  simp [State.wr_reg]

theorem State.wr_reg_ne (f : Fld) (v : Nat) {o : Nat} (h : o ≠ f.off) : (s.wr f v).reg o = s.reg o := by simp [State.wr_reg, h]

/-- A field reads as written. -/
theorem State.rd_wr_self (f : Fld) (v : Nat) (h : f.hi < 64) : (s.wr f v).rd f = v % 2 ^ (f.hi + 1 - f.lo) := by
  rw [State.rd, State.wr_reg_self, bits_putBits_self _ _ _ _ h]

/-- A field of another register reads as before. -/
theorem State.rd_wr_ne (f g : Fld) (v : Nat) (h : f.off ≠ g.off) : (s.wr g v).rd f = s.rd f := by
  rw [State.rd, State.wr_reg_ne s g v h, State.rd]

/-- A field of other bits of the same register reads as before. -/
theorem State.rd_wr_disj (f g : Fld) (v : Nat) (hg : g.hi < 64) (h : f.hi < g.lo ∨ g.hi < f.lo) : (s.wr g v).rd f = s.rd f := by
  by_cases ho : f.off = g.off
  · rw [State.rd, ho, State.wr_reg_self, bits_putBits_ne _ _ _ _ _ _ hg h, State.rd, ho]
  · exact State.rd_wr_ne s f g v ho

theorem State.setReg_rd_ne (f : Fld) {off : Nat} (v : Word) (h : f.off ≠ off) : (s.setReg off v).rd f = s.rd f := by
  rw [State.rd, State.setReg_reg_ne s v h, State.rd]

/-! Updates that touch no register. -/

theorem State.reg_of_regs {t : State} (h : t.regs = s.regs) (o : Nat) : t.reg o = s.reg o := by rw [State.reg, h, State.reg]
theorem State.rd_of_regs {t : State} (h : t.regs = s.regs) (f : Fld) : t.rd f = s.rd f := by rw [State.rd, State.reg_of_regs s h, State.rd]

@[simp] theorem State.setSlot_reg (j : Nat) (v : SlotSt) (o : Nat) : (s.setSlot j v).reg o = s.reg o := (rfl)
@[simp] theorem State.setCluster_reg (cl : ClusterId) (v : ClusterSt) (o : Nat) : (s.setCluster cl v).reg o = s.reg o := (rfl)
@[simp] theorem State.send_reg (x : Out) (o : Nat) : (s.send x).reg o = s.reg o := (rfl)
@[simp] theorem State.tick_reg (o : Nat) : s.tick.reg o = s.reg o := (rfl)
@[simp] theorem State.addArm_reg (a : Arm) (o : Nat) : (s.addArm a).reg o = s.reg o := (rfl)
@[simp] theorem State.dropArms_reg (k w o : Nat) : (s.dropArms k w).reg o = s.reg o := (rfl)
@[simp] theorem State.latch_reg (o : Nat) : s.latch.reg o = s.reg o := (rfl)
@[simp] theorem State.rawSet_reg (a : Nat) (v : Byte) (o : Nat) : (s.rawSet a v).reg o = s.reg o := (rfl)
@[simp] theorem State.setSlot_rd (j : Nat) (v : SlotSt) (f : Fld) : (s.setSlot j v).rd f = s.rd f := (rfl)
@[simp] theorem State.setCluster_rd (cl : ClusterId) (v : ClusterSt) (f : Fld) : (s.setCluster cl v).rd f = s.rd f := (rfl)
@[simp] theorem State.send_rd (x : Out) (f : Fld) : (s.send x).rd f = s.rd f := (rfl)
@[simp] theorem State.tick_rd (f : Fld) : s.tick.rd f = s.rd f := (rfl)
@[simp] theorem State.addArm_rd (a : Arm) (f : Fld) : (s.addArm a).rd f = s.rd f := (rfl)
@[simp] theorem State.dropArms_rd (k w : Nat) (f : Fld) : (s.dropArms k w).rd f = s.rd f := (rfl)
@[simp] theorem State.latch_rd (f : Fld) : s.latch.rd f = s.rd f := (rfl)
@[simp] theorem State.rawSet_rd (a : Nat) (v : Byte) (f : Fld) : (s.rawSet a v).rd f = s.rd f := (rfl)

/-! Slots and clusters. -/

theorem State.setSlot_slot (j k : Nat) (v : SlotSt) : (s.setSlot j v).slot k = if k = j then v else s.slot k := sget_sset _ _ _ _ _
@[simp] theorem State.setSlot_slot_self (j : Nat) (v : SlotSt) : (s.setSlot j v).slot j = v := by simp [State.setSlot_slot]

/-- Two clusters that exist have different numbers. -/
theorem clKey_inj {c d : ClusterId} (hc : c.wf = true) (hd : d.wf = true) (h : clKey c = clKey d) : c = d := by
  simp only [ClusterId.wf, Bool.and_eq_true, decide_eq_true_eq] at hc hd
  obtain ⟨n, i⟩ := c
  obtain ⟨m, k⟩ := d
  simp only [clKey] at h hc hd
  have h1 : n = m := by omega
  subst h1
  simp only [ClusterId.mk.injEq, true_and]
  omega

theorem State.setCluster_cluster (c d : ClusterId) (v : ClusterSt) :
    (s.setCluster c v).cluster d = if clKey d = clKey c then v else s.cluster d := sget_sset _ _ _ _ _
@[simp] theorem State.setCluster_cluster_self (c : ClusterId) (v : ClusterSt) : (s.setCluster c v).cluster c = v := by
  simp [State.setCluster_cluster]

@[simp] theorem State.wr_cluster (f : Fld) (v : Nat) (c : ClusterId) : (s.wr f v).cluster c = s.cluster c := (rfl)
@[simp] theorem State.wr_slot (f : Fld) (v j : Nat) : (s.wr f v).slot j = s.slot j := (rfl)
@[simp] theorem State.setReg_cluster (o : Nat) (v : Word) (c : ClusterId) : (s.setReg o v).cluster c = s.cluster c := (rfl)
@[simp] theorem State.setReg_slot (o : Nat) (v : Word) (j : Nat) : (s.setReg o v).slot j = s.slot j := (rfl)
@[simp] theorem State.tick_cluster (c : ClusterId) : s.tick.cluster c = s.cluster c := (rfl)
@[simp] theorem State.tick_slot (j : Nat) : s.tick.slot j = s.slot j := (rfl)

end

end Sys2Proof.Machine
end

