-- ==== Sys2Proof/Laws/Sequencer.lean ====
section
/-!
SUPPORT. What the issue of one instruction does when it retires inside its image (State.issue, State.retire), stated once: an
instruction that only changes its own cluster steps to `Steps`.
-/

namespace Sys2Proof.Machine
open Sys2Proof

theorem clStatus_ne_retired (n k : Nat) : Reg.CL_RETIRED n k ≠ Reg.CL_STATUS n k := by
  simp only [Reg.CL_STATUS, Reg.CL_RETIRED]
  omega

theorem clWait_ne_status (n k : Nat) : Reg.CL_WAIT n k ≠ Reg.CL_STATUS n k := by
  simp only [Reg.CL_STATUS, Reg.CL_WAIT]
  omega

theorem clWait_ne_retired (n k : Nat) : Reg.CL_WAIT n k ≠ Reg.CL_RETIRED n k := by
  simp only [Reg.CL_RETIRED, Reg.CL_WAIT]
  omega

theorem State.retired_wr_pc (s : State) (cl : ClusterId) (v : Nat) :
    (s.wr (F.CL_STATUS_PC cl.die cl.idx) v).rd (F.CL_RETIRED_COUNT cl.die cl.idx) = s.rd (F.CL_RETIRED_COUNT cl.die cl.idx) :=
  State.rd_wr_ne _ _ _ _ (clStatus_ne_retired _ _)

/-! The end of a wait for a full queue (R176). -/

/-- Any register but CDn_CL_WAIT reads as before. -/
theorem State.endQueueWait_reg_ne (s : State) (cl : ClusterId) {o : Nat} (h : o ≠ Reg.CL_WAIT cl.die cl.idx) :
    (s.endQueueWait cl).reg o = s.reg o := by
  unfold State.endQueueWait State.showWait
  split
  · simp [State.wr_reg, F.CL_WAIT_KIND, F.CL_WAIT_WHICH, F.CL_WAIT_TARGET, h]
  · rfl

theorem State.endQueueWait_rd_ne (s : State) (cl : ClusterId) (f : Fld) (h : f.off ≠ Reg.CL_WAIT cl.die cl.idx) :
    (s.endQueueWait cl).rd f = s.rd f := by
  rw [State.rd, State.endQueueWait_reg_ne s cl h, State.rd]

/-- Nothing but registers changes. -/
theorem State.endQueueWait_regs (s : State) (cl : ClusterId) : ∃ r, s.endQueueWait cl = { s with regs := r } := by
  unfold State.endQueueWait
  split
  · exact ⟨_, rfl⟩
  · exact ⟨s.regs, rfl⟩

@[simp] theorem State.endQueueWait_cluster (s : State) (cl d : ClusterId) : (s.endQueueWait cl).cluster d = s.cluster d := by
  unfold State.endQueueWait
  split <;> rfl

@[simp] theorem State.endQueueWait_clusters (s : State) (cl : ClusterId) : (s.endQueueWait cl).clusters = s.clusters := by
  unfold State.endQueueWait
  split <;> rfl

@[simp] theorem State.endQueueWait_free (s : State) (cl : ClusterId) : (s.endQueueWait cl).free = s.free := by
  unfold State.endQueueWait
  split <;> rfl

/-- CDn_CL_WAIT shows no wait where it showed one for a queue, and is as before where it did not. -/
theorem State.endQueueWait_over (s : State) (cl : ClusterId) : WaitOver s (s.endQueueWait cl) cl := by
  refine ⟨fun h => ?_, fun h => ?_⟩ <;> unfold State.endQueueWait
  · rw [if_pos h]
    unfold State.showWait
    refine ⟨?_, ?_, ?_⟩
    · rw [State.rd_wr_disj _ _ _ _ (by simp [F.CL_WAIT_TARGET]) (by simp [F.CL_WAIT_TARGET, F.CL_WAIT_KIND]),
        State.rd_wr_disj _ _ _ _ (by simp [F.CL_WAIT_WHICH]) (by simp [F.CL_WAIT_WHICH, F.CL_WAIT_KIND]),
        State.rd_wr_self _ _ _ (by simp [F.CL_WAIT_KIND])]
      simp
    · rw [State.rd_wr_disj _ _ _ _ (by simp [F.CL_WAIT_TARGET]) (by simp [F.CL_WAIT_TARGET, F.CL_WAIT_WHICH]),
        State.rd_wr_self _ _ _ (by simp [F.CL_WAIT_WHICH])]
      simp
    · rw [State.rd_wr_self _ _ _ (by simp [F.CL_WAIT_TARGET])]
      simp
  · rw [if_neg h]

/-- Retiring inside the image: the wait for a queue is over, PC and the count of retired instructions move on, and nothing else
(R186). -/
theorem retire_inside (s : State) (cl : ClusterId) (target : Nat) (h4 : target % 4 = 0) (hl : target < (s.cluster cl).code.length)
    (h64 : (s.cluster cl).code.length ≤ 65536) :
    s.retire cl target =
      ((((s.endQueueWait cl).wr (F.CL_STATUS_PC cl.die cl.idx) target).wr (F.CL_RETIRED_COUNT cl.die cl.idx)
        (s.rd (F.CL_RETIRED_COUNT cl.die cl.idx) + 1)).setCluster cl { s.cluster cl with icount := (s.cluster cl).icount + 1 }) := by
  have ht : target % 2 ^ 32 = target := Nat.mod_eq_of_lt (by omega)
  have hr : (s.endQueueWait cl).rd (F.CL_RETIRED_COUNT cl.die cl.idx) = s.rd (F.CL_RETIRED_COUNT cl.die cl.idx) :=
    State.endQueueWait_rd_ne s cl _ (Ne.symm (clWait_ne_retired _ _))
  unfold State.retire
  simp only [ht, State.retired_wr_pc, State.wr_cluster, State.endQueueWait_cluster, hr]
  rw [if_pos]
  simp [h4, hl]

/-- A cluster written and then retired inside its image: nothing differs but that cluster, PC, the count of retired instructions and
the end of a wait for a queue. -/
theorem retire_steps (s : State) (cl : ClusterId) (c : ClusterSt) (target : Nat) (h4 : target % 4 = 0) (hl : target < c.code.length)
    (h64 : c.code.length ≤ 65536) : Steps s ((s.setCluster cl c).retire cl target) cl c target := by
  rw [retire_inside _ _ _ h4 (by simpa using hl) (by simpa using h64)]
  have hne := clStatus_ne_retired cl.die cl.idx
  have hws := clWait_ne_status cl.die cl.idx
  have hwr := clWait_ne_retired cl.die cl.idx
  have hq (o : Nat) (h : o ≠ Reg.CL_WAIT cl.die cl.idx) : ((s.setCluster cl c).endQueueWait cl).reg o = s.reg o := by
    rw [State.endQueueWait_reg_ne _ _ h, State.setCluster_reg]
  refine ⟨⟨?_, ?_, ?_⟩, ?_, ?_, ?_, ?_, ?_⟩
  · simp [State.wr_reg, F.CL_STATUS_PC, F.CL_RETIRED_COUNT, Ne.symm hne, hq _ (Ne.symm hws)]
  · rw [State.setCluster_reg]
    refine (State.wr_reg_self _ (F.CL_RETIRED_COUNT cl.die cl.idx) _).trans ?_
    show putBits (State.reg _ (Reg.CL_RETIRED cl.die cl.idx)) 63 0 _ = _
    rw [State.wr_reg_ne _ (F.CL_STATUS_PC cl.die cl.idx) _ hne, hq _ (Ne.symm hwr)]
    apply BitVec.eq_of_toNat_eq
    simp [F.CL_RETIRED_COUNT, putBits_whole, State.rd, bits, Nat.mod_eq_of_lt (s.reg (Reg.CL_RETIRED cl.die cl.idx)).isLt]
  · have h := (s.setCluster cl c).endQueueWait_over cl
    simpa [WaitOver, State.rd, State.wr_reg, F.CL_STATUS_PC, F.CL_RETIRED_COUNT, F.CL_WAIT_KIND, F.CL_WAIT_WHICH, F.CL_WAIT_TARGET,
      hws, hwr] using h
  · simp
  · obtain ⟨r, hr⟩ := (s.setCluster cl c).endQueueWait_regs cl
    rw [hr]
    simp
  · simp
  · intro off hoff
    simp only [retireRegs, List.mem_cons, List.not_mem_nil, or_false, not_or] at hoff
    simp [State.wr_reg, F.CL_STATUS_PC, F.CL_RETIRED_COUNT, hoff.1, hoff.2.1, hq _ hoff.2.2]
  · intro k hk
    simp [State.setCluster, sget_sset, hk]

/-! Issue. -/

/-- The opcode of a word of format R, I, S, B, U or M. -/
theorem bits_word {op : Nat} (h : op < 128) (n : Nat) (hn : n < 2 ^ 25) : bits (place 31 25 op ||| n) 31 25 = op := by
  have h1 : place 31 25 op = op * 2 ^ 25 := by
    simp [place, Nat.shiftLeft_eq, Nat.mod_eq_of_lt h]
  rw [h1, Nat.mul_comm, ← Nat.two_pow_add_eq_or_of_lt hn]
  simp only [bits, Nat.shiftRight_eq_div_pow]
  omega

/-- An instruction that is ready issues: what happens is its body alone. -/
theorem issue_ready (s : State) (cl : ClusterId) (i : Instr) (word : Nat) (body : ClusterSt → Issue) (h : s.ready cl i = true)
    (hw : insnWord i = some word) (hi : (insnOf cl word).isSome = true) :
    s.issue cl word body = (match body (s.cluster cl) with
      | .exc cause addr => ok (s.raise cl word cause addr)
      | .wait s' => ok s'
      | .ret s' => ok (s'.retire cl (s.pc cl + 4))
      | .jump s' t => ok (s'.retire cl t)) := by
  simp only [State.ready, hw, Bool.and_eq_true, beq_iff_eq] at h
  unfold State.issue
  rw [if_pos h.1.1, h.2]
  have hn : (insnOf cl word).isNone = false := by
    cases hx : insnOf cl word <;> simp_all
  simp only [hn, Bool.false_eq_true, if_false, ne_eq, not_true_eq_false]
  all_goals (cases body (s.cluster cl) <;> rfl)

/-- An instruction whose effect is the cluster's new contents `c`, with the image as it was, steps. -/
theorem issue_steps (s : State) (cl : ClusterId) (i : Instr) (word : Nat) (body : ClusterSt → Issue) (c : ClusterSt)
    (h : Fits s cl i (s.pc cl + 4)) (hw : insnWord i = some word) (hi : (insnOf cl word).isSome = true)
    (hb : body (s.cluster cl) = .ret (s.setCluster cl c)) (hc : c.code = (s.cluster cl).code) :
    ∃ t, s.issue cl word body = .next t ∧ Steps s t cl c (s.pc cl + 4) := by
  obtain ⟨hr, h4, hl, h64⟩ := h
  refine ⟨(s.setCluster cl c).retire cl (s.pc cl + 4), ?_, retire_steps s cl c _ h4 (by rw [hc]; exact hl) (by rw [hc]; exact h64)⟩
  rw [issue_ready s cl i word body hr hw hi, hb]

/-- The same for a jump. -/
theorem issue_jumps (s : State) (cl : ClusterId) (i : Instr) (word : Nat) (body : ClusterSt → Issue) (c : ClusterSt) (target : Nat)
    (h : Fits s cl i target) (hw : insnWord i = some word) (hi : (insnOf cl word).isSome = true)
    (hb : body (s.cluster cl) = .jump (s.setCluster cl c) target) (hc : c.code = (s.cluster cl).code) :
    ∃ t, s.issue cl word body = .next t ∧ Steps s t cl c target := by
  obtain ⟨hr, h4, hl, h64⟩ := h
  refine ⟨(s.setCluster cl c).retire cl target, ?_, retire_steps s cl c _ h4 (by rw [hc]; exact hl) (by rw [hc]; exact h64)⟩
  rw [issue_ready s cl i word body hr hw hi, hb]

@[simp] theorem ClusterSt.setS_code (c : ClusterSt) (r : BitVec 5) (v : Word) : (c.setS r v).code = c.code := by
  unfold ClusterSt.setS
  split <;> rfl

/-- A read of S[r] after a write of S[rd]: S0 reads zero and discards what is written (R171). -/
theorem ClusterSt.sreg_setS (c : ClusterSt) (rd r : BitVec 5) (v : Word) :
    (c.setS rd v).sreg r = if r = 0 then 0 else if r = rd then v else c.sreg r := by
  unfold ClusterSt.sreg ClusterSt.setS
  by_cases hr : r = 0
  · simp [hr]
  · by_cases hd : rd = 0
    · subst hd
      simp only [if_true, if_neg hr]
    · simp only [hr, hd, if_false, sget_sset]
      by_cases h : r = rd
      · simp [h]
      · have : r.toNat ≠ rd.toNat := fun e => h (BitVec.eq_of_toNat_eq e)
        simp [h, this]

/-- Writing a cluster with what it holds changes nothing that can be read. -/
theorem ClusterSt.setS_zero (c : ClusterSt) (v : Word) : c.setS 0 v = c := by
  simp [ClusterSt.setS]

end Sys2Proof.Machine
end

