-- ==== Sys2Proof/Tests/Slice0.lean ====
section
/-!
SUPPORT. Tests. The states at the start are small ones that each meet the hypotheses of a statement's clause; the theorem
`witness_<Statement>_<clause>` shows that they meet them together. The theorems `test_…` check well-formedness, one ill-formed
term for each check, and the manual's own worked examples.
 -/

set_option maxRecDepth 20000

namespace Sys2Proof.Tests

open Sys2Proof.Machine

/-- Fields written in order. -/
def setF (s : State) (l : List (Fld × Nat)) : State := l.foldl (fun (t : State) p => t.wr p.1 p.2) s
/-- Bytes put into memory. -/
def put (s : State) (a : Nat) (bs : List Byte) : State := s.setBytes a bs
def cl0 : ClusterId := ⟨0, 0⟩
def cl1 : ClusterId := ⟨0, 1⟩
/-- An image of 16 words. -/
def img : List Byte := List.replicate 64 0
/-- Slot 0 holds job 7, RUNNING, on partition 0 of CD0. -/
def wJob : State := setF State.reset [(F.STR_SLOT_STATE 0, 2), (F.STR_SLOT_ACTIVE 0, 1), (F.STR_SLOT_JOB_ID 0, 7), (F.STR_SLOT_PARTITIONS 0, 1)]
/-- CD0.C000 of that job holds `c`. -/
def wCl (c : ClusterSt) : State := (wJob.wr (F.CL_STATUS_RUN 0 0) 1).setCluster cl0 { c with code := img }
/-- A cluster with these S registers. -/
def regsC (l : List (BitVec 5 × Nat)) : ClusterSt := l.foldl (fun (c : ClusterSt) p => c.setS p.1 (BitVec.ofNat 64 p.2)) ClusterSt.init
/-- S1 = 7, S2 = 5, S3 = 64, S4 = 128. -/
def wRun : State := wCl (regsC [(1, 7), (2, 5), (3, 64), (4, 128)])
/-- An image that begins with `i`, which CD0.C000 fetches next. -/
def runs (i : Instr) (s : State) : State :=
  s.setCluster cl0 { s.cluster cl0 with code := leBytes 4 ((insnWord i).getD 0) ++ List.replicate 60 0 }
def wRing : State := setF State.reset [(F.STR_RING_EN, 1), (F.STR_RING_LOG2, 8), (F.STR_RING_BASE, 16)]
def evA : Ev := ⟨1, 0x0401, 0xF800, some 7, 5⟩
def evF : Ev := ⟨3, 0x0C30, 0xF800, none, 5⟩
def recF : Rec := ⟨3, false, true, 9, 3, 0, 0xF800, 0x0C30, 5⟩
def wRingFull : State := { wRing with ring := { wRing.ring with count := 256 } }
def wRingHeld : State := { wRing with ring := { wRing.ring with held := [recF] } }
def wRingLost : State := { wRing with ring := { wRing.ring with lost := 3, lostLap := 2 } }
def wRingTwo : State := { wRing with ring := { wRing.ring with count := 2, tail := 2 } }
/-- A Crimon message; `fl` is HOST, SPEC, FWD in bits 2 to 0. -/
def crm (cls op src dst txn reqr st fl addr : Nat) (data : Line) : CrMsg :=
  ⟨BitVec.ofNat 128 (place 127 126 cls ||| place 125 120 op ||| place 119 104 src ||| place 103 88 dst ||| place 87 76 txn ||| place 75 60 reqr
    ||| place 59 58 st ||| place 57 55 fl ||| place 39 0 addr), data⟩
def msgW : CrMsg := crm 0 6 (agentSrc 0) (homeSrc 8) 5 0 0 0 (Reg.STR_RING_IRQ / 8) 77
def msgR : CrMsg := crm 0 5 (agentSrc 0) (homeSrc 8) 5 0 0 0 (Reg.STR_ID / 8) 0
def msg9 : CrMsg := crm 0 6 (agentSrc 0) (homeSrc 8) 5 0 0 0 (Reg.STR_RING_IRQ / 8) 77
def fR (rd rs1 rs2 fn : Nat) : FmtR := ⟨BitVec.ofNat 5 rd, BitVec.ofNat 5 rs1, BitVec.ofNat 5 rs2, BitVec.ofNat 10 fn⟩
def fI (rd rs1 imm : Nat) : FmtI := ⟨BitVec.ofNat 5 rd, BitVec.ofNat 5 rs1, BitVec.ofNat 15 imm⟩
def f5 (a b c d e : Nat) : Fmt5 := ⟨BitVec.ofNat 5 a, BitVec.ofNat 5 b, BitVec.ofNat 5 c, BitVec.ofNat 5 d, BitVec.ofNat 5 e⟩
def dqE (seq : Nat) : DqEnt := ⟨seq, 3, false, false, 64, 64, 0, 1, 0, 0, 0, 0, 0, 0, false, none, false, false, 0⟩
/-- DQ 1 is outstanding. -/
def wDq : State := wCl { (regsC [(1, 1)]) with dqseq := 1, dqs := [dqE 1] }
def wDq2 : State := wCl { (regsC [(1, 1)]) with dqseq := 2 }
def wMark : State := { State.reset with pending := [.lapMark] }
def bOff : FmtB := ⟨1, 2, 8⟩
def fS8 : FmtS := ⟨1, 3, 8⟩
def fS4 : FmtS := ⟨1, 3, 4⟩
def fU4 : FmtU := ⟨3, 4⟩
def fU8 : FmtU := ⟨1, 8⟩
def fUfar : FmtU := ⟨1, 400⟩
/-- CD0.C000 waits for lap 0 in WLAP. -/
def wWlap : State := (wCl { (regsC []) with wait := .wlap 3 0, late := true }).wr (F.CL_STATUS_RUN 0 0) 2
/-- CD0.C000, alone in the partition's barrier, waits at number 1 of it. -/
def wBar : State := ((setF wJob ((List.range 71).map (fun i => (F.CL_STATUS_ROLE 0 (i + 1), 1)))).wr (F.CL_STATUS_RUN 0 0) 3).setCluster cl0
  { ClusterSt.init with code := img, wait := .bar true 1 }
/-- An HRDW is issued and nothing before it is left. -/
def wHrdw : State := wCl { (regsC []) with hrdw := some ⟨2, 0, 0⟩ }
/-- CD0.C000 waits in HRDW for the outcome of step 0, which was a commit; step 1 is in progress. -/
def wHrdwWait : State := ((setF (wCl { (regsC []) with wait := .hrdw 3 0 }) [(F.CL_STATUS_RUN 0 0, 7), (F.NUM_STEP_STEP 0, 1)]).setSlot 0
  { SlotSt.init with resolved := true, outcome := true })
def wEvt : State := wCl { (regsC [(1, 7)]) with evtLap := some 0 }
/-- Four FP32 elements in V1 and V2, S5 = 64. -/
def vec (vl vtype : Nat) : ClusterSt :=
  let c := regsC [(1, 1), (5, 64), (6, 8), (7, 0)]
  { c with vl := vl, vtype := vtype, vregs := [(1, BitVec.ofNat 2048 0x40000000_3F800000), (2, BitVec.ofNat 2048 0x3F800000_40400000)] }
def wVf : State := wCl (vec 4 2)
def wVi : State := wCl (vec 4 6)
def wV0 : State := wCl (vec 0 2)
def wV64 : State := wCl (vec 64 2)
def mcfg : MCfg := ⟨1, 1, 1, 3, 4⟩
/-- S1 = 7, S2 = 5, S3 = 64, S4 = 128, S6 and S7 an MCFG of BF16 with a chunk of 2, and MCFG has run. -/
def wCfg : State := wCl { (regsC [(1, 7), (2, 5), (3, 64), (4, 128), (6, 1 * 2^60 + 1 * 2^56 + 2 * 2^48), (7, 3 * 2^44 + 4), (8, 1)]) with cfg := some mcfg }
def dd : DmaDesc := ⟨0x10000, 0, 4096, 3, 0, 0, [some 16], [], none, 0⟩
def tieG (uses : Nat) : TieGroup := ⟨0, 0, uses, 1, 3, []⟩
def prog (uses : Nat) : Program := ⟨[32], [0], [dd], [tieG uses], 0, 0⟩
def wProgC (c : ClusterSt) : State := (wCl c).setSlot 0 { SlotSt.init with prog := some (prog 2) }
def wProg1C (c : ClusterSt) : State := (wCl c).setSlot 0 { SlotSt.init with prog := some (prog 1) }
/-- S1 = 7, S3 = 64, S6 = 0 with a DQ's length 64 in bits 62 to 42. -/
def dqE0 : DqEnt := ⟨1, 0, false, false, 64, 64, 0, 1, 0, 0, 0, 0, 0, 0, false, none, false, false, 0⟩
def wDqIssue : State := wProgC (regsC [(3, 64), (6, 64 * 2^42)])
def wDqDone : State := put (wProgC { ClusterSt.init with dqseq := 1, dqs := [dqE0] }) 0x10000 (List.replicate 64 3)
def wIssue : State := wProgC (regsC [(3, 64), (6, 0)])
def a0 : OpRec := ⟨false, 1, false, List.replicate 8192 0, 0⟩
def b0 : OpRec := ⟨true, 1, false, List.replicate 8192 0, 0⟩
def arrE (n done : Nat) : ArrEnt := ⟨1, n, done, true, ⟨1, 1, 2, 3, 4⟩, 0, 0, 0, 0, false, false, 0⟩
def wKgo : State := wCl { ClusterSt.init with arrQ := [arrE 9 0], aBuf := [a0], bBuf := [b0] }
def wKend : State := wCl { ClusterSt.init with arrQ := [arrE 1 0], aBuf := [a0], bBuf := [b0] }
def chunk1 : ChunkId := ⟨1, mcfg, 0, 0⟩
/-- An HRDW waits for the WGQ. -/
def wHrdwBusy : State := wCl { (regsC []) with hrdw := some ⟨2, 0, 0⟩, wgq := [{ arrE 9 0 with wstate := 1 }] }
def cfg2 : MCfg := ⟨1, 1, 2, 3, 4⟩
/-- A running deferred product after the drain mark. -/
def wgqGo : ArrEnt := { arrE 9 0 with wstate := 2, cfg := cfg2, bBase := 0x4000 }
def wWgqGo : State := wCl { ClusterSt.init with wgq := [wgqGo], drainPrio := true }
def wMerge : State := wCl { ClusterSt.init with latch := some chunk1 }
def wgqE : ArrEnt := { arrE 9 0 with wstate := 1 }
def wMergeNext : State := wCl { ClusterSt.init with latch := some chunk1, chunk := some chunk1, chunkEnded := true }
def wWgq : State := wCl { ClusterSt.init with wgq := [wgqE] }
def readE (kind : Nat) (a b : Nat) : ReadEnt := ⟨kind, 2, true, BitVec.ofNat 64 a, BitVec.ofNat 64 b, false, false, 0, 0, false, 0⟩
def wPush : State := wCl { ClusterSt.init with readQ := [readE 2 0 0] }
def wRead : State := wProgC { ClusterSt.init with readQ := [readE 0 64 0] }
def castJ : CastJob := ⟨List.replicate 4 0, 1, true, 2, 64, 128, 0, 0⟩
def wCast : State := wProgC { ClusterSt.init with castQ := [castJ] }
def wTie : State := wProgC { ClusterSt.init with readQ := [readE 1 0 0] }
def wTie1 : State := wProg1C { ClusterSt.init with readQ := [readE 1 0 0] }
def wV0p : State := wProgC (vec 0 2)
def tg0 : CastTarget := (wIssue.castTarget 0 false 0).getD ⟨0, false, true, 0, false, 0, 0⟩
def wRot (holding : Bool) : State :=
  { (setF wJob [(F.CL_STATUS_ROLE 0 0, 4), (F.CL_STATUS_ROLE 0 71, 1)]) with rots := [(0, some ⟨0, 71, 2, holding⟩)], arms := [⟨4, 0, 0, false⟩] }
def rot0 (holding : Bool) : RotSt := ⟨0, 71, 2, holding⟩
def wDrain : State := (setF wJob [(F.HRD_MARK_H 0, 40), (F.HRD_SCHED_DRAIN_LEAD 0, 64)]).setCluster cl0 { ClusterSt.init with wgq := [wgqE] }
def wMaster : State := { (setF State.reset [(F.LAP_STATUS_ROLE, 1), (F.STR_START_STATE, 6), (F.LAP_CFG_REF_EN, 1)]) with rails := true }
def mk0 : MarkIn := ⟨5, 3, 2, 9, 100, true, 0⟩
def wAcq : State :=
  let s := setF State.reset [(F.LAP_STATUS_STATE, 1), (F.LAP_PORT_DELAY_VALID 5, 1)]
  { s with lap := { s.lap with marks := [mk0] } }
def wLapS (f : LapSt → LapSt) (st role : Nat) : State :=
  let s := setF State.reset [(F.LAP_STATUS_STATE, st), (F.LAP_STATUS_ROLE, role)]
  { s with lap := f s.lap }
def wLock : State := wLapS (fun l => { l with adopted := true, okLaps := 64 }) 1 0
def wQuiet : State := wLapS (fun l => { l with quiet := 4 }) 2 0
def wHold : State := (wLapS id 3 0).wr F.LAP_HOLD_HOLD_LAPS tenSeconds
def wRelock : State := wLapS (fun l => { l with okLaps := 64, relockLaps := 90 }) 4 0
def wSwitch : State := setF (wLapS (fun l => { l with quietUp := 2, last := [mk0] }) 2 0) [(F.LAP_STATUS_EPOCH, 3), (F.LAP_PORT_DELAY_VALID 5, 1), (F.ACM_PORT_STAT_STATE 5, 7)]
def wTake : State := setF (wLapS (fun l => { l with quietEpoch := 8 }) 2 2) ((List.range 29).map (fun p => (F.ACM_PORT_STAT_STATE p, 7)))
def osW (w : Nat) : BitVec 128 := BitVec.ofNat 128 (w * 65536 + crc16Check (w * 65536))
def lmosW : BitVec 128 := osW ((place 127 120 0x6C ||| place 111 96 3 ||| place 79 16 1) / 65536)
def lmosBad : BitVec 128 := lmosW ^^^ 1
def dreqW : BitVec 128 := osW ((place 127 120 0x64 ||| place 43 16 17) / 65536)
def drspW : BitVec 128 := osW ((place 127 120 0x65 ||| place 43 16 17 ||| place 63 44 100) / 65536)
def wUp : State :=
  let s := (setF State.reset [(F.ACM_PORT_STAT_STATE 5, 7), (F.LAP_STATUS_ROLE, 1), (F.LAP_CFG_REF_EN, 1)])
  { s with lap := { s.lap with asked := [5] }, ports := [(5, { PortSt.init with dreq := 17 })] }
def wLap : State := ((State.reset.wr F.LAP_STATUS_STATE 2).wr F.LAP_COUNT_COUNT 41)
/-- Job 7 in slot 0, 64 members, this module index `me`. -/
def wVote (me : Nat) (l : List (Fld × Nat)) : State := setF wJob ([(F.HRD_ROLE_MODIDX 0, me), (F.HRD_ROLE_MEMBERS 0, 64), (F.LAP_STATUS_STATE, 2)] ++ l)
def svote : Msg := (msgOf 0x40 [(0, 1, 0x76), (1, 2, 7), (4, 2, 33), (8, 8, 100)]).withCrc 0x3C
def spart : Msg := (msgOf 0x40 [(0, 1, 0x77), (1, 2, 7), (3, 1, 1), (4, 2, 32), (8, 8, 100)]).withCrc 0x3C
def sdec (fail : Nat) : Msg := (msgOf 0x40 [(0, 1, 0x78), (1, 2, 7), (6, 1, fail), (8, 8, 100)]).withCrc 0x3C
def pcon : Msg := (msgOf 0x20 [(0, 1, 0x70), (1, 2, 7), (4, 8, 4096), (0xC, 2, 33)]).withCrc 0x18
def ppart : Msg := (msgOf 0x20 [(0, 1, 0x71), (1, 2, 7), (3, 1, 1), (4, 8, 4096), (0xC, 2, 32)]).withCrc 0x18
def pdec : Msg := (msgOf 0x20 [(0, 1, 0x72), (1, 2, 7), (4, 8, 4096), (0xE, 1, 5)]).withCrc 0x18
def hcon : Msg := (msgOf 0x40 [(0, 1, 0x48), (1, 2, 7), (4, 6, 0), (0xA, 2, 33)]).withCrc 0xC
def hpart : Msg := (msgOf 0x44 [(0, 1, 0x49), (1, 2, 7), (3, 1, 1), (4, 6, 0), (0xA, 2, 32)]).withCrc 0xC
def hout (kind : Nat) : Msg := (msgOf 0x40 [(0, 1, 0x4A), (1, 2, 7), (4, 6, 0), (0x18, 8, 132), (0x20, 4, kind * 2 ^ 30)]).withCrc 0xC
def ckcon : Msg := (msgOf 0x40 [(0, 1, 0x43), (1, 2, 7), (4, 2, 33), (0x10, 8, 100)]).withCrc 8
def ckpart : Msg := (msgOf 0x44 [(0, 1, 0x44), (1, 2, 7), (3, 1, 1), (4, 2, 32), (0x10, 8, 100)]).withCrc 8
def ckdec : Msg := (msgOf 0x40 [(0, 1, 0x45), (1, 2, 7), (0x10, 8, 100), (0x18, 8, 400)]).withCrc 8
def pace (s : State) : State := (s.wr F.LAP_COUNT_COUNT 4100).setSlot 0 { s.slot 0 with paceAt := some 4096 }
def hurdle (s : State) : State := (setF s [(F.HRD_MARK_H 0, 100), (F.LAP_COUNT_COUNT, 102)]).setSlot 0 { s.slot 0 with marked := true }
def halt (s : State) : State := setF s [(F.STR_SLOT_STATE 0, 3), (F.RES_HALT_K 0, 100), (F.LAP_COUNT_COUNT, 103)]
def late (s : State) (n : Nat) : State := s.wr F.LAP_COUNT_COUNT n
def wCol (me : Nat) : State := wVote me []
def wArmed : State := { (wVote 33 [(F.SHD_STAT_STATE 0, 2), (F.SHD_STAT_JOB 0, 1)]) with arms := [⟨0, 0, 100, true⟩] }
def cfg16 (l : List (Fld × Nat)) : State := setF State.reset ([(F.LAP_STATUS_STATE, 2), (F.ACM_CFG_PODS, 1), (F.SHD_ARM_T_T, 64)] ++ l)
def wCfg16 : State := cfg16 []
def wArmed16 (t : Nat) : State := { (cfg16 [(F.SHD_STAT_STATE 16, 2)]) with arms := [⟨0, 16, t, false⟩] }
def wStaged16 : State := (wCfg16.stage Reg.LAP_CFG 1).wr (F.SHD_STAT_STATE 16) 1
def wApply : State := (cfg16 [(F.LAP_STATUS_STATE, 0)]).stage Reg.LAP_CFG 1
def wPreLate : State := { wJob with arms := [⟨0, 0, 16, true⟩], regs := (setF wJob [(F.SHD_STAT_STATE 0, 2)]).regs }
def wPower : State := { wJob with rails := true }
def reads (mv : Nat) : PowerReadings := ⟨mv, mv, 900, List.replicate 8 (mv, 300, 1500, 1600), [], [], []⟩
def wHot (v : Nat) : State := { (setF wPower [(F.MON_TEMP_TEMP 5, v)]) with power := { PowerSt.init with hot := [5], cap := 8 } }
def wDroop : State := { wJob with power := { PowerSt.init with droops := [0] } }
def wPaceMark : State := late wJob 8192
def pdec5 : Msg := (msgOf 0x20 [(0, 1, 0x72), (1, 2, 7), (4, 8, 4096), (0xE, 1, 5)]).withCrc 0x18
def wPaceDue : State :=
  let s := late wJob 8192
  { (s.setSlot 0 { s.slot 0 with paceMsg := some pdec5 }) with arms := [⟨1, 0, 8192, true⟩] }
def wPaceLate : State :=
  let s := late wJob 8180
  s.setSlot 0 { s.slot 0 with paceAt := some 4096 }
/-- Slot 0 holds one cluster in service, whose HCON is present for step 0. -/
def wMarkH : State := (setF (wVote 33 ((List.range 71).map (fun i => (F.CL_STATUS_ROLE 0 (i + 1), 1)))) [(F.HRD_MARK_H 0, 100), (F.LAP_COUNT_COUNT, 100)]).setCluster cl0
  { ClusterSt.init with code := img, hcon := BitVec.ofNat 64 (2 ^ 63) }
def wResolve (kind : Nat) : State :=
  let s := setF wJob [(F.HRD_MARK_H 0, 100), (F.LAP_COUNT_COUNT, 132), (F.NUM_SCALE_LS 0, 12), (F.NUM_JOB_CFG_LS_MIN 0, 4)]
  { (s.setSlot 0 { s.slot 0 with marked := true, outMsg := some (hout kind) }) with arms := [⟨2, 0, 132, true⟩] }
def wHLate : State :=
  let s := setF wJob [(F.HRD_MARK_H 0, 100), (F.LAP_COUNT_COUNT, 116)]
  s.setSlot 0 { s.slot 0 with marked := true }
/-- Shard 0 of die 0: version 0 is FILLING, version 1 LIVE. -/
def ddE : DmaDesc := ⟨0x10000, 0x20000, 4096, 7, 0, 0, [some 16], [some 32], none, 0⟩
def wShard : State := (setF wJob [(F.CD_EPOCH_STATE0 0 0 0, 1), (F.CD_EPOCH_STATE1 0 0 0, 2)])
def wFlip : State := wShard.setSlot 0 { SlotSt.init with prog := some ⟨[32], [0], [ddE], [], 0, 0⟩, flipLap := some 0 }
def wFlipLate : State := (wShard.setSlot 0 { SlotSt.init with prog := some ⟨[32], [0], [ddE], [], 0, 0⟩ }).setShard 0 0 0 ⟨[], false, false, some 0⟩
def wRetired : State := (setF wJob [(F.CD_EPOCH_STATE0 0 0 0, 3), (F.CD_EPOCH_STATE1 0 0 0, 2)]).setShard 0 0 0 ⟨[], true, false, none⟩
/-- Bytes from an address, as memory cells. -/
def at_ (a : Nat) (bs : List Byte) : List Host.Cell := bs.zipIdx.map (fun p => (a + p.2, p.1))
def le (n v : Nat) : List Byte := leBytes n v
def mem (s : State) (m : List Host.Cell) : State := { s with mem := m }
/-- Job 7 with a Relay plan: tiles 0 to 10, 64 contributors, member 33 the owner. -/
def wPlan (me : Nat) : State :=
  mem (wVote me [(F.STR_ROLE_CLASS, 0), (F.RLY_PLAN_PLAN 0, 1), (F.RLY_CFG_PLAN_ENTRIES 0, 1), (F.RLY_LIST_LIST 0, 1), (F.RLY_SCALE_SCALE 0, 0x300),
      (F.RLY_CFG_SCALE_ENTRIES 0, 64), (F.RLY_JOB_ID_IDS 0, 2 ^ 15 + 7), (F.RLY_ENG_LOGICAL 1, 1),
      (F.RLY_ENG_LOGICAL 2, 2)])
    (at_ 32 (le 4 0 ++ le 4 10 ++ le 8 0 ++ le 8 (5 * 2 ^ 15)) ++ at_ 32768 (le 4 64 ++ (List.range 64).flatMap (le 2))
      ++ at_ (65 * 32768) (le 4 1 ++ le 2 33))
def planT : PlanTile := ⟨0, 5 * 2 ^ 15, List.range 64, [33]⟩
def pushE : PushEnt := ⟨[], 3, 2, 0, false⟩
def wPushed : State := (wPlan 33).setCluster cl0 { ClusterSt.init with push := [pushE] }
def blk (tile step count hop sender : Nat) (payload : List Byte) : RelayBlock :=
  ⟨BitVec.ofNat 256 (place 247 236 7 ||| place 235 216 3 ||| place 215 184 tile ||| place 183 168 step ||| place 167 154 count ||| place 153 152 hop
    ||| place 119 107 sender), payload⟩
def zeros : List Byte := List.replicate 8192 0
def blkIn : RelayBlock := blk 1 0 1 0 40 zeros
def blkOwner : RelayBlock := blk 2 0 64 2 0 zeros
def blkOld : RelayBlock := blk 2 9 64 2 0 zeros
def blkScale : RelayBlock := blk 0 0 1 0 0 (le 8 (2 * 2 ^ 32 + 5 * 2 ^ 24))
def sentB : RSent := ⟨4, 12, 0, 2, 0, blkIn⟩
def wSent : State := wJob.setSlot 0 { SlotSt.init with relay := { SlotSt.init.relay with sent := [sentB] } }
/-- Queue 3 is enabled with 16 entries, its ring at 0x40000, its completion ring at 0x50000 and its frame lists at 0x60000. -/
def qF (cls : Nat) (l : List (Fld × Nat)) : List (Fld × Nat) :=
  [(F.CPE_QRING_EN 3, 1), (F.CPE_QRING_LOG2 3, 4), (F.CPE_QRING_BASE 3, 0x40), (F.CPE_QCPL_BASE 3, 0x50), (F.CPE_QFRAME_BASE 3, 0x30),
    (F.CPE_QBIND_CLASS 3, cls), (F.CPE_QBIND_CTX 3, 0), (F.CPE_QBIND_ENGINES 3, 0xFFFF)] ++ l
def wQ (cls : Nat) (v : QueueSt) (l : List (Fld × Nat)) : State := (setF wJob (qF cls l)).setQueue 3 v
def q0 : QueueSt := QueueSt.init
def wQ0 : State := wQ 0 q0 []
def wWrites : State := { wQ0 with reqs := [⟨0, 5, 2, 1, 4, 320, 8, .load, 1, 0, false, none, false, 0⟩], wrNo := 1 }
def wHalted : State := wQ 0 { q0 with halted := true } []
def nopW (ph : Nat) : Nat := place 63 63 ph ||| place 62 56 0x3F
def wFetch (ph : Nat) (stale : Bool) : State := mem (wQ 0 { q0 with tail := 2, stale := stale, rereads := 7 } []) (at_ 0x40000 (le 64 (nopW ph)))
def copyW : Nat := place 62 56 1 ||| place 111 64 0x1000 ||| place 175 128 0x2000 ||| place 223 192 64
def cmd (w stage : Nat) : CmdSt := ⟨0, w, stage, 0, 0, false, none, 0, 0⟩
def wOffer : State := wQ 0 { q0 with cmds := [cmd copyW 1] } []
def wNop : State := wQ 0 { q0 with cmds := [cmd (nopW 1) 1] } []
def wEnded : State := wQ 0 { q0 with done := [cmd (nopW 1) 3] } []
def engE (next : Nat) (msgs : List (Nat × Nat)) : EngSt := ⟨3, 0, msgs, next, none, 2⟩
def wRuns (cls e w next : Nat) (msgs : List (Nat × Nat)) (l : List (Fld × Nat)) : State :=
  { (wQ cls { q0 with cmds := [cmd w 2] } l) with engs := [(e, engE next msgs)] }
def frm (f : Nat) : List Byte := le 8 (2 ^ 63 + f * 4096)
def wCopy : State := mem (wRuns 0 2 copyW 0 [] []) (at_ 0x60000 (frm 0x70) ++ at_ 0x61000 (frm 0x71) ++ at_ 0x70000 (List.replicate 64 9))
def snapW : Nat := place 62 56 3 ||| place 111 64 0x2000
/-- The walk of its one destination page was asked for. -/
def snapC : CmdSt := { cmd snapW 2 with pages := 1 }
def wSnap : State :=
  let s := mem (wRuns 0 2 snapW 0 [] [(F.CD_EPOCH_STATE0 0 0 0, 2)]) (at_ 0x61000 (frm 0x71))
  (s.setSlot 0 { SlotSt.init with prog := some ⟨[32], [0], [ddE], [], 0, 0⟩ }).setQueue 3 { q0 with cmds := [snapC] }
def peerW : Nat := place 62 56 2 ||| place 111 64 0x1000 ||| place 173 128 0x2000 ||| place 223 192 64 ||| place 236 224 5
def wPeer : State := mem (wRuns 1 17 peerW 0 [] [(F.ACM_JOBMAP_BASE 0, 1)]) (at_ 0x400A (le 2 (2 ^ 15 + 77)) ++ at_ 0x60000 (frm 0x70) ++ at_ 0x70000 (List.replicate 64 9))
def wAcked : State := wRuns 1 17 peerW 1 [(9, 0)] []
/-- Page tables of context 16: virtual page 0 is frame 0x20, readable; and the smallest container that passes every check. -/
def tables : List Host.Cell := at_ 0x10000 (le 8 (0x11 * 4096 + 1)) ++ at_ 0x11000 (le 8 (0x12 * 4096 + 1)) ++ at_ 0x12000 (le 8 (0x13 * 4096 + 1))
  ++ at_ 0x13000 (le 8 (0x20 * 4096 + 3)) ++ at_ 0x15000 (le 8 0)
def secB (off size ty cnt : Nat) : List Byte := le 8 off ++ le 4 size ++ le 2 ty ++ le 2 cnt
def code0 : List Byte := le 8 8 ++ List.replicate 56 0
def container (digest : List Byte) : List Byte :=
  le 8 0x0000504554535A48 ++ le 4 1 ++ le 4 0 ++ le 8 0x140 ++ le 8 0 ++ secB 0x100 64 1 1 ++ secB 0x100 0 2 0 ++ secB 0x100 0 3 0
    ++ List.replicate 144 0 ++ digest ++ code0
def wLoad (l : List (Fld × Nat)) (bs : List Byte) : State :=
  mem (wQ 3 { q0 with cmds := [cmd (place 62 56 0x10 ||| place 131 128 1) 1] }
    ([(F.XLT_CTX_EN 16, 1), (F.XLT_CTX_ROOT 16, 0x10), (F.STR_SLOT_STATE 1, 1)] ++ l)) (tables ++ at_ 0x20000 bs)
def wContainer : State := wLoad [] (container (sha256 code0))
def wBadMagic : State := wLoad [] (List.replicate 256 1)
def wLoaded : State :=
  ((wQ 3 { q0 with cmds := [cmd (place 62 56 0x10) 2] } []).setSlot 0 { SlotSt.init with prog := some (prog 1), loadQ := some 3, loadDone := true }).wr
    (F.STR_SLOT_STATE 0) 1
def wDrained : State := wJob.wr (F.STR_SLOT_STATE 0) 5
/-- The load into slot 1 has asked for its walks, and `loading` holds its fault no more. -/
def asking (s : State) (c : CmdSt) : State :=
  ((s.putCmd 3 { c with stage := 2 }).setSlot 1 { s.slot 1 with loadQ := some 3, loadDone := false, loadAsk := true }).showWalkers
def loading (s : State) (c : CmdSt) : State := (asking s c).setSlot 1 { (asking s c).slot 1 with loadHeld := none }
def loadCmd : CmdSt := cmd (place 62 56 0x10 ||| place 131 128 1) 1
def wDone : State := match (loading wContainer loadCmd).tryLoad 1 0 with | .done s => s | _ => State.reset
def wRefused : State := match (loading wBadMagic loadCmd).tryLoad 1 0 with | .refused s _ => s | _ => State.reset
def walkE (held : Option (Nat × Bool)) : WalkSt := ⟨1, 3, 0, 0, 16, 0, 1, false, 0, held, false, true⟩
def wWalk (root : Nat) (held : Option (Nat × Bool)) : State :=
  { mem (wQ 0 { q0 with cmds := [cmd copyW 0] } [(F.XLT_CTX_EN 16, 1), (F.XLT_CTX_ROOT 16, root), (F.XLT_REC_STATE 0, if held.isSome then 1 else 0)]) tables with
    walks := [walkE held] }
def pageE : Nat := 0x20 * 4096 + 3
def wRec (st : Nat) : State := State.reset.wr (F.XLT_REC_STATE 0) st
def sd (v : Nat) : State := setF State.reset [(F.XLT_SD_ADDR_CTX, 16), (F.XLT_SD_ADDR_VA, v), (F.XLT_CTX_EN 16, 1)]
def sdE : SdSt := ⟨5, false, 16, 0, 1, 0, 0, 0⟩
def wSds (n : Nat) : State := { sd 0 with sds := List.replicate n sdE }
def wTrk : State := { State.reset with tracker := [⟨0, 7, 16, 3, 9, 0, false, false⟩] }
def fab (l : List (Fld × Nat)) : State :=
  { (setF State.reset ([(F.STR_START_STATE, 8), (F.ACM_LASER_READY 0, 1), (F.ACM_LASER_PRESENT 0, 1), (F.ACM_CFG_PODS, 1)] ++ l)) with rails := true }
def port (v : PortSt) (l : List (Fld × Nat)) : State := { fab l with ports := [(0, v)] }
def p0 : PortSt := PortSt.init
def flit (seq fi : Nat) (good : Bool) : Flit :=
  let x : Flit := Flit.seal ⟨BitVec.ofNat 96 (place 95 92 1 ||| place 87 76 seq ||| place 51 39 fi), List.replicate 240 0, 0⟩
  { x with crc := if good then x.crc else x.crc + 1 }
def wPorts (st : Nat) : State := fab [(F.ACM_PORT_STAT_STATE 0, st)]
def wSwap : State := port { p0 with swapWait := some 0, failedEng := some 0 } [(F.ACM_PORT_STAT_STATE 0, 9), (F.ACM_PORT_STAT_STATE 12, 10), (F.LAP_COUNT_COUNT, 1)]
def peerH : BitVec 128 := BitVec.ofNat 128 (place 127 120 0x50 ||| place 119 108 7 ||| place 107 62 0x200040 ||| place 61 45 64 ||| place 31 0 9)
def wWin : State := setF wJob [(F.ACM_PEERWIN_BASE 0, 1), (F.ACM_PEERWIN_SIZE 0, 1)]
def nines : List Byte := List.replicate 64 9
def idE (fi port pods : Nat) : PeerId := ⟨fi, port, 0, pods⟩
/-- A request of agent 0 for line 5 of home 0, TXN 9. -/
def req (cls op : Nat) : CrMsg := crm cls op (agentSrc 0) (homeSrc 0) 9 0 0 4 5 77
def dirS (d : DirSt) : State := { State.reset with dirs := if d = ⟨none, []⟩ then [] else [(5, d)] }
def wDev : State := { State.reset with bias := [(0, 1)] }
def txnE (st : Nat) : Txn := ⟨0, 5, 1, agentSrc 1, 9, true, false, 0, st, [0]⟩
/-- Agent 0 owns line 5, and home 0 waits for its answer to agent 1's request. -/
def wWait (st : Nat) : State := { dirS ⟨some 0, []⟩ with txns := [txnE st] }
def rsp (cls op : Nat) : CrMsg := crm cls op (agentSrc 0) (homeSrc 0) 9 (agentSrc 1) 0 0 5 77
def snp (op fwd : Nat) : CrMsg := crm 1 op (homeSrc 0) (agentSrc 0) 9 (agentSrc 1) 0 fwd 5 0
def wLine (st : Nat) : State := { State.reset with lines := [⟨0, 5, st, 33⟩] }
def lineE (st : Nat) : CacheLine := ⟨0, 5, st, 33⟩
def wTen : State := { State.reset with tenures := [(0, 5)] }
def wHeldSnp : State := { wTen with heldSnps := [(0, snp 0x11 0)] }
def reqE (op store : Nat) : Req := ⟨0, 5, op, 9, 4, 320, 8, .load, store, 55, false, none, false, 0⟩
def wReq (op store : Nat) : State := { State.reset with reqs := [reqE op store] }
def wUpgr : State := { wLine 1 with reqs := [reqE 3 1] }
def fill (cls op : Nat) : CrMsg := crm cls op (homeSrc 0) (agentSrc 0) 9 0 2 4 5 77
def bell : CrMsg := crm 0 7 (agentSrc 0) (homeSrc 8) 9 0 0 0 3 5
def wdraw : CrMsg := crm 0 8 (agentSrc 0) (homeSrc 2) 9 0 0 0 0 0
def biasW (b n f : Nat) : Word := BitVec.ofNat 64 (place 63 62 b ||| place 61 53 n ||| place 45 12 f)
def wBias : State := { State.reset.wr F.CRM_BIAS_STAT_BUSY 1 with biasCmd := some ⟨1, 7, 3, []⟩ }
def biasE : BiasSt := ⟨1, 7, 3, []⟩
def txnH : Txn := ⟨0, 5, 1, agentSrc 1, 9, true, false, 0, 1, []⟩
def wFlips : State := { wDev with txns := [txnH] }
def bad : CrMsg := crm 0 0x3F (agentSrc 0) (homeSrc 0) 9 0 0 4 5 77
def wStop : State := { wJob with stop := some ⟨3, 1, 0, 5, 0, false, false⟩ }
def stopE : StopSt := ⟨3, 1, 0, 5, 0, false, false⟩
def host (st : Nat) (ph : Nat) : State := { State.reset.wr (F.STR_HOST_STATE 0) st with hostPhase := if ph = 0 then [] else [(0, ph)] }
/-- Agent 0 has withdrawn from every home. -/
def wGone (st : Nat) : State := { host st 0 with gone := (List.range 10).map (fun x => (x, 0)) }
def rdReq (a n : Nat) : PcieReq := ⟨3, some a, false, [], n⟩
def wrReq (a : Nat) : PcieReq := ⟨3, some a, true, nines, 0⟩
def noReq (w : Bool) : PcieReq := ⟨3, none, w, nines, 64⟩
/-- A parameter block of HEVC, 8 bits, `size` samples square, one pool surface, number 1. -/
def par (dir size : Nat) : Nat := (msgOf 256 [(1, 1, dir), (2, 1, 8), (3, 1, 20), (4, 2, size), (6, 2, size), (8, 1, 1), (9, 1, 1), (0x10, 2, 1), (0x48, 2, size), (0x4A, 2, size),
  (0x44, 2, size), (0x46, 2, size), (0x58, 4, 30), (0x5C, 4, 1)]).w
def slice (n : Nat) (fs : List Nat) : SliceSt := ⟨0, 0, n, fs.map some⟩
def surfs : Sparse (Option SurfSt) := [(1, some ⟨0, 5, 0, 0, 0, [slice 32768 (List.range 8)]⟩), (2, some ⟨0, 0, 0, 0, 0, [slice 4096 [9]]⟩),
  (3, some ⟨0, 3, 128, 128, 256, []⟩), (4, some ⟨0, 3, 128, 128, 256, []⟩)]
def wPrism (w next : Nat) (ctxs : List (Nat × CtxSt)) (m : List Host.Cell) (l : List (Fld × Nat)) : State :=
  { mem (wRuns 2 24 w next [] ([(F.PRM_SURF_SURFACES 0, 8), (F.PRM_STATUS_BASE 0, 2)] ++ l)) m with surfs := surfs, ctxs := ctxs.map (fun p => (p.1, some p.2)) }
def ctxS (dir : Nat) : CtxSt := ⟨0, par dir 128, 0, 0, none, none, false, 0, []⟩
def openW : Nat := place 62 56 0x20 ||| place 111 64 0x1000
def openCells (p : Nat) : List Host.Cell := at_ 0x60000 (frm 0x70) ++ at_ 0x70000 (le 256 p)
def closeW : Nat := place 62 56 0x21
def bindW (first : Nat) (t : Nat) : Nat := place 62 56 0x22 ||| place 13 0 t ||| place 20 20 first ||| place 111 64 0x1000 ||| place 159 128 4096 ||| place 167 160 3
  ||| place 207 192 64 ||| place 223 208 64 ||| place 239 224 1
def decW : Nat := place 62 56 0x23 ||| place 77 64 2 ||| place 205 192 3
def encW : Nat := place 62 56 0x24 ||| place 77 64 3 ||| place 173 160 2 ||| place 255 224 4000
def conW : Nat := place 62 56 0x25 ||| place 77 64 3 ||| place 173 160 4
def frame : FrameResult := ⟨0, 0, 5, true, false, false, false, [], false, 0, 4, 0, 100, 1000, none⟩
def encR : EncodeResult := ⟨8, [10, 10, 10, 10], 0, 2, 30, 0, 5, 1000⟩
def start (st : Nat) (l : List (Fld × Nat)) : State := { (setF State.reset ([(F.STR_START_STATE, st)] ++ l)) with standby := true, mrst := false, rails := decide (3 < st) }
def noImg : FlashSlot := ⟨true, []⟩
def powered (on : Bool) : State := { State.reset with standby := true, rails := on, mrst := false }
def inReset : State := { State.reset with standby := true, mrst := true }
def wHaltDue : State := { (wJob.setCluster cl0 { ClusterSt.init with code := img }) with arms := [⟨3, 0, 0, true⟩], regs := (setF wJob ((List.range 71).map (fun i => (F.CL_STATUS_ROLE 0 (i + 1), 1)) ++ [(F.CL_STATUS_RUN 0 0, 1)])).regs }
def ck (s : State) (v : CkptSt) : State := s.setSlot 0 { s.slot 0 with ck := v }
def ck0 : CkptSt := CkptSt.init
def wCapture (cause : Option Nat) : State := ck (halt (wVote 33 [])) { ck0 with cause := cause, endLap := 100 }
def wNoDec : State := late (halt (wVote 33 [])) 116
def wCapturing : State := ck (halt (wVote 33 [])) { ck0 with capturing := true }
def wResume : State := late (ck (halt (wVote 33 [])) { ck0 with dec := some ckdec }) 400
def wArea (f : Bool) : State := ck (setF wJob [(F.RES_PART_BASE 0, 1), (F.RES_PART_SIZE_GIB 0, 1)]) { ck0 with area1 := ⟨some 5, true, f⟩ }
def wVerify (op : Nat) : State := ck (wJob.wr (F.RES_VERIFY_STATE 0) 1) { ck0 with vop := op }
def wVerifyAll : State := mem (wVerify 1) (at_ 0 (le 8 1))
def reserveCl : State := State.reset.wr (F.CL_STATUS_ROLE 0 0) 1
def wTest : State := { State.reset.wr (F.CL_STATUS_ROLE 0 0) 2 with tests := [⟨1, 0, 0, 1⟩] }
def tres (p : Bool) : TestResult := ⟨p, 3⟩
def wDefer : State := late (wJob.wr F.RES_CFG_TEST_PERIOD 1) 65536
def drW (off : Nat) : BitVec 72 := BitVec.ofNat 72 off

/-- No page is locked where the bias table lists none. -/
theorem noLocked {s : State} (h : s.bias = []) : ∀ l, s.biasOf l ≠ 3 := by
  intro l
  show sget (fun _ => 0) s.bias (l / 64) ≠ 3
  rw [h]
  exact (by decide : (0 : Nat) ≠ 3)
theorem sound {s : State} (he : s.eccErrs = []) (hb : s.bias = []) : MemSound s := ⟨he, noLocked hb⟩
/-- Where nothing is open, nothing waits and no array holds an error, the homes serve every line. -/
theorem serves {s : State} (ht : s.txns = []) (hm : s.memQ = []) (hr : s.reqs = []) (hn : s.tenures = []) (hw : s.wbs = []) (he : s.eccErrs = [])
    (hb : s.bias = []) (ls : List Nat) : HomeServes s ls := by
  intro l _
  refine ⟨?_, noLocked hb l, ?_, ?_, ?_⟩
  · simp [State.lineBusy, State.lineMoving, ht, hm, hr, hn, hw]
  all_goals rw [he]; exact Nat.zero_le 1
/-- No page of `wDev` is locked: its one entry is DEVICE. -/
theorem devLocked {s : State} (h : s.bias = [(0, 1)]) : ∀ l, s.biasOf l ≠ 3 := by
  intro l
  show sget (fun _ => 0) s.bias (l / 64) ≠ 3
  rw [h]
  simp only [sget]
  split <;> decide
/-- What the statement on Prism asks of the state as a whole. -/
def calm (s : State) : Prop := Quiet s ∧ MemSound s ∧ (∀ p ∈ s.dirs, ∀ a ∈ p.2.owner.toList ++ p.2.sharers, a < 2) ∧ ∀ y ∈ s.tracker, y.h < 2
theorem calmOf {s : State} (hq : Quiet s) (hm : MemSound s) (hd : s.dirs = []) (ht : s.tracker = []) : calm s :=
  ⟨hq, hm, by simp [hd], by simp [ht]⟩
theorem witness_StepRunsFront_front :
    wMark.pending = [Instr.lapMark] := by decide
theorem witness_StepRunsFront_idle :
    State.reset.pending = [] := by decide
theorem witness_EventRing_written :
    HomeServes wRing (linesOf (4096 * wRing.rd F.STR_RING_BASE + 32 * wRing.ring.tail) 32) ∧ evA.sev < 16 ∧ evA.code < 2 ^ 16 ∧ evA.src < 2 ^ 16 ∧ (∀ x ∈ evA.job, x < 2 ^ 12) ∧ wRing.ringAway = false ∧ wRing.rd F.STR_RING_EN = 1 ∧
    (decide (3 ≤ evA.sev) = false ∧ wRing.ring.lost = 0 ∧ 16 < wRing.ringFree) := ⟨serves rfl rfl rfl rfl rfl rfl rfl _, by decide⟩
theorem witness_EventRing_writtenFatal :
    HomeServes wRing (linesOf (4096 * wRing.rd F.STR_RING_BASE + 32 * wRing.ring.tail) 32) ∧ evF.sev < 16 ∧ evF.code < 2 ^ 16 ∧ evF.src < 2 ^ 16 ∧ (∀ x ∈ evF.job, x < 2 ^ 12) ∧ wRing.ringAway = false ∧ wRing.rd F.STR_RING_EN = 1 ∧
    (decide (3 ≤ evF.sev) = true ∧ 0 < wRing.ringFree) := ⟨serves rfl rfl rfl rfl rfl rfl rfl _, by decide⟩
theorem witness_EventRing_held :
    HomeServes State.reset (linesOf (4096 * State.reset.rd F.STR_RING_BASE + 32 * State.reset.ring.tail) 32) ∧ evA.sev < 16 ∧ evA.code < 2 ^ 16 ∧ evA.src < 2 ^ 16 ∧ (∀ x ∈ evA.job, x < 2 ^ 12) ∧ State.reset.ringAway = false ∧
    State.reset.rd F.STR_RING_EN = 0 ∧ State.reset.ring.held.length < 64 := ⟨serves rfl rfl rfl rfl rfl rfl rfl _, by decide⟩
theorem witness_EventRing_heldFatal :
    HomeServes wRingFull (linesOf (4096 * wRingFull.rd F.STR_RING_BASE + 32 * wRingFull.ring.tail) 32) ∧ evF.sev < 16 ∧ evF.code < 2 ^ 16 ∧ evF.src < 2 ^ 16 ∧ (∀ x ∈ evF.job, x < 2 ^ 12) ∧ wRingFull.ringAway = false ∧
    (decide (3 ≤ evF.sev) = true ∧ wRingFull.ringFree = 0) ∧ wRingFull.ring.held.length < 64 := ⟨serves rfl rfl rfl rfl rfl rfl rfl _, by decide⟩
theorem witness_EventRing_dropped :
    HomeServes wRingFull (linesOf (4096 * wRingFull.rd F.STR_RING_BASE + 32 * wRingFull.ring.tail) 32) ∧ evA.sev < 16 ∧ evA.code < 2 ^ 16 ∧ evA.src < 2 ^ 16 ∧ (∀ x ∈ evA.job, x < 2 ^ 12) ∧ wRingFull.ringAway = false ∧
    wRingFull.rd F.STR_RING_EN = 1 ∧ decide (3 ≤ evA.sev) = false ∧ wRingFull.ringFree ≤ 16 := ⟨serves rfl rfl rfl rfl rfl rfl rfl _, by decide⟩
theorem witness_EventRing_head :
    wRingTwo.stopped = false ∧ wRingTwo.ring.held = [] ∧ wRingTwo.ring.lost = 0 ∧
    ((1 : BitVec 64).toNat % 65536 % wRingTwo.ringSize + wRingTwo.ringSize - wRingTwo.rd F.STR_RING_HEAD_HEAD % wRingTwo.ringSize) % wRingTwo.ringSize ≤ wRingTwo.ring.count := by decide
theorem witness_EventRing_headBeyond :
    wRingTwo.stopped = false ∧ wRingTwo.ring.held = [] ∧ wRingTwo.ring.lost = 0 ∧
    wRingTwo.ring.count < ((3 : BitVec 64).toNat % 65536 % wRingTwo.ringSize + wRingTwo.ringSize - wRingTwo.rd F.STR_RING_HEAD_HEAD % wRingTwo.ringSize) % wRingTwo.ringSize := by decide
theorem witness_EventRing_enable :
    State.reset.stopped = false ∧ State.reset.ring.held = [] ∧ State.reset.ring.lost = 0 ∧ State.reset.rd F.STR_RING_EN = 0 ∧
    bit (BitVec.ofNat 64 (2 ^ 63 + 2 ^ 61)).toNat 63 = true := by decide
theorem witness_EventRing_disable :
    wRing.stopped = false ∧ wRing.rd F.STR_RING_EN = 1 ∧ bit ((0 : BitVec 64).toNat) 63 = false := by decide
theorem witness_EventRing_heldWritten :
    HomeServes wRingHeld (linesOf (4096 * wRingHeld.rd F.STR_RING_BASE + 32 * wRingHeld.ring.tail) 32) ∧ wRingHeld.stopped = false ∧ wRingHeld.rd F.STR_RING_EN = 1 ∧ wRingHeld.ringAway = false ∧ wRingHeld.ring.held = [recF] ∧
    wRingHeld.ring.lost = 0 ∧ (3 ≤ recF.sev ∧ 0 < wRingHeld.ringFree) := ⟨serves rfl rfl rfl rfl rfl rfl rfl _, by decide⟩
theorem witness_EventRing_overflow :
    HomeServes wRingLost (linesOf (4096 * wRingLost.rd F.STR_RING_BASE + 32 * wRingLost.ring.tail) 32) ∧ wRingLost.stopped = false ∧ wRingLost.rd F.STR_RING_EN = 1 ∧ wRingLost.ringAway = false ∧ 0 < wRingLost.ring.lost ∧ 16 < wRingLost.ringFree := ⟨serves rfl rfl rfl rfl rfl rfl rfl _, by decide⟩
theorem witness_RegisterWrites_rw :
    wRing.stopped = false ∧ msgW.op = 6 ∧ msgW.cls = 0 ∧ plainOff (8 * msgW.addr) = true ∧
    accMask .rs (8 * msgW.addr) = 0 ∧ msgW.word = 77 := by decide
theorem witness_RegisterWrites_narrow :
    wRing.stopped = false ∧ 32 < 64 ∧ msgW.op = 6 ∧ msgW.cls = 0 := by decide
theorem witness_RegisterWrites_none :
    wRing.stopped = false ∧ findReg 65528 regTable = none := by decide
theorem witness_RegisterWrites_stop :
    wRing.stopped = false ∧ bit (BitVec.ofNat 64 (2 ^ 63)).toNat 63 = true := by decide
theorem witness_RegisterWrites_stage :
    wRing.stopped = false ∧ plainOff Reg.LAP_CFG = true ∧ accMask Access.rs Reg.LAP_CFG ≠ 0 ∧ wRing.areaState (areaOf Reg.LAP_CFG) < 2 := by decide
theorem witness_RegisterWrites_ignored :
    (wRing.wr (F.SHD_STAT_STATE 16) 2).stopped = false ∧ accMask Access.rs Reg.LAP_CFG ≠ 0 ∧
    2 ≤ (wRing.wr (F.SHD_STAT_STATE 16) 2).areaState (areaOf Reg.LAP_CFG) := by decide
theorem witness_RegisterWrites_read :
    wRing.stopped = false ∧ msgR.op = 5 ∧ msgR.cls = 0 ∧ 8 * msgR.addr ≠ Reg.LAP_COUNT := by decide
def rScalarResultsAlu : State := runs (.alu cl0 (fR 3 1 2 0)) wRun
theorem witness_ScalarResults_alu :
    Fits rScalarResultsAlu cl0 (.alu cl0 (fR 3 1 2 0)) (rScalarResultsAlu.pc cl0 + 4) ∧
    ((fR 3 1 2 0).fn.toNat = (0, (rScalarResultsAlu.cluster cl0).sreg (fR 3 1 2 0).rs1 + (rScalarResultsAlu.cluster cl0).sreg (fR 3 1 2 0).rs2).1) := by decide
def rScalarResultsPopc : State := runs (.alu cl0 (fR 3 1 0 17)) wRun
theorem witness_ScalarResults_popc :
    Fits rScalarResultsPopc cl0 (.alu cl0 (fR 3 1 0 17)) (rScalarResultsPopc.pc cl0 + 4) ∧ ((fR 3 1 0 17).fn.toNat = (17, popc64 (BitVec.toNat ((rScalarResultsPopc.cluster cl0).sreg (fR 3 1 0 17).rs1))).1) ∧
    (fR 3 1 0 17).rs2 = 0 := by decide
def rScalarResultsImm : State := runs (.addi cl0 (fI 3 1 5)) wRun
theorem witness_ScalarResults_imm :
    Fits rScalarResultsImm cl0 (.addi cl0 (fI 3 1 5)) (rScalarResultsImm.pc cl0 + 4) := by decide
def rScalarResultsShift : State := runs (.shli cl0 (fI 3 1 5)) wRun
theorem witness_ScalarResults_shift :
    Fits rScalarResultsShift cl0 (.shli cl0 (fI 3 1 5)) (rScalarResultsShift.pc cl0 + 4) ∧ (fI 3 1 5).imm.toNat < 64 := by decide
def rScalarResultsLui : State := runs (.lui cl0 fU4) wRun
theorem witness_ScalarResults_lui :
    Fits rScalarResultsLui cl0 (.lui cl0 fU4) (rScalarResultsLui.pc cl0 + 4) := by decide
def rControlTransfersTaken : State := runs (.bne cl0 bOff) wRun
theorem witness_ControlTransfers_taken :
    (↑32 = ↑(rControlTransfersTaken.pc cl0) + if (Instr.bne cl0 bOff, decide ((rControlTransfersTaken.cluster cl0).sreg bOff.rs1 ≠ (rControlTransfersTaken.cluster cl0).sreg bOff.rs2)).2 = true then 4 * bOff.off.toInt else 4) ∧
    Fits rControlTransfersTaken cl0 (.bne cl0 bOff) 32 := by decide
def rControlTransfersNot : State := runs (.beq cl0 bOff) wRun
theorem witness_ControlTransfers_not :
    (↑4 = ↑(rControlTransfersNot.pc cl0) + if (Instr.beq cl0 bOff, decide ((rControlTransfersNot.cluster cl0).sreg bOff.rs1 = (rControlTransfersNot.cluster cl0).sreg bOff.rs2)).2 = true then 4 * bOff.off.toInt else 4) ∧
    Fits rControlTransfersNot cl0 (.beq cl0 bOff) 4 := by decide
def rControlTransfersJal : State := runs (.jal cl0 fU8) wRun
theorem witness_ControlTransfers_jal :
    Fits rControlTransfersJal cl0 (.jal cl0 fU8) 32 ∧ ↑32 = ↑(rControlTransfersJal.pc cl0) + 4 * fU8.imm.toInt := by decide
def rControlTransfersJalr : State := runs (.jalr cl0 (fI 1 2 3)) wRun
theorem witness_ControlTransfers_jalr :
    Fits rControlTransfersJalr cl0 (.jalr cl0 (fI 1 2 3)) 8 ∧ 8 = BitVec.toNat ((rControlTransfersJalr.cluster cl0).sreg (fI 1 2 3).rs1 + BitVec.signExtend 64 (fI 1 2 3).imm) := by decide
def rTileAccessLd : State := runs (.ld cl0 (fI 3 3 8)) wRun
theorem witness_TileAccess_ld :
    Fits rTileAccessLd cl0 (.ld cl0 (fI 3 3 8)) (rTileAccessLd.pc cl0 + 4) ∧ memAddr (rTileAccessLd.cluster cl0) (fI 3 3 8).rs1 (fI 3 3 8).imm % 8 = 0 ∧
    memAddr (rTileAccessLd.cluster cl0) (fI 3 3 8).rs1 (fI 3 3 8).imm < tileSize ∧
    rTileAccessLd.interlocked cl0 (memAddr (rTileAccessLd.cluster cl0) (fI 3 3 8).rs1 (fI 3 3 8).imm) 8 false = false := by decide
def rTileAccessLw : State := runs (.lw cl0 (fI 3 3 4)) wRun
theorem witness_TileAccess_lw :
    Fits rTileAccessLw cl0 (.lw cl0 (fI 3 3 4)) (rTileAccessLw.pc cl0 + 4) ∧ memAddr (rTileAccessLw.cluster cl0) (fI 3 3 4).rs1 (fI 3 3 4).imm % 4 = 0 ∧
    memAddr (rTileAccessLw.cluster cl0) (fI 3 3 4).rs1 (fI 3 3 4).imm < tileSize ∧
    rTileAccessLw.interlocked cl0 (memAddr (rTileAccessLw.cluster cl0) (fI 3 3 4).rs1 (fI 3 3 4).imm) 4 false = false := by decide
def rTileAccessSt : State := runs (.st cl0 fS8) wRun
theorem witness_TileAccess_st :
    Fits rTileAccessSt cl0 (.st cl0 fS8) (rTileAccessSt.pc cl0 + 4) ∧ memAddr (rTileAccessSt.cluster cl0) fS8.rs1 fS8.imm % 8 = 0 ∧ memAddr (rTileAccessSt.cluster cl0) fS8.rs1 fS8.imm < tileSize ∧
    rTileAccessSt.interlocked cl0 (memAddr (rTileAccessSt.cluster cl0) fS8.rs1 fS8.imm) 8 true = false := by decide
def rTileAccessSw : State := runs (.sw cl0 fS4) wRun
theorem witness_TileAccess_sw :
    Fits rTileAccessSw cl0 (.sw cl0 fS4) (rTileAccessSw.pc cl0 + 4) ∧ memAddr (rTileAccessSw.cluster cl0) fS4.rs1 fS4.imm % 4 = 0 ∧ memAddr (rTileAccessSw.cluster cl0) fS4.rs1 fS4.imm < tileSize ∧
    rTileAccessSw.interlocked cl0 (memAddr (rTileAccessSw.cluster cl0) fS4.rs1 fS4.imm) 4 true = false := by decide
def rTileAccessTcpy : State := runs (.tcpy cl0 (f5 0 3 4 3 0)) wRun
theorem witness_TileAccess_tcpy :
    Fits rTileAccessTcpy cl0 (.tcpy cl0 (f5 0 3 4 3 0)) (rTileAccessTcpy.pc cl0 + 4) ∧ (f5 0 3 4 3 0).f24 = 0 ∧ (f5 0 3 4 3 0).f4 = 0 ∧ (rTileAccessTcpy.cluster cl0).sn (f5 0 3 4 3 0).f19 % 64 = 0 ∧
    (rTileAccessTcpy.cluster cl0).sn (f5 0 3 4 3 0).f14 % 64 = 0 ∧ (rTileAccessTcpy.cluster cl0).sn (f5 0 3 4 3 0).f9 % 64 = 0 ∧
    (rTileAccessTcpy.cluster cl0).sn (f5 0 3 4 3 0).f19 + (rTileAccessTcpy.cluster cl0).sn (f5 0 3 4 3 0).f9 ≤ tileSize ∧
    (rTileAccessTcpy.cluster cl0).sn (f5 0 3 4 3 0).f14 + (rTileAccessTcpy.cluster cl0).sn (f5 0 3 4 3 0).f9 ≤ tileSize ∧
    ((rTileAccessTcpy.cluster cl0).sn (f5 0 3 4 3 0).f9 = 0 ∨ (rTileAccessTcpy.cluster cl0).sn (f5 0 3 4 3 0).f14 + (rTileAccessTcpy.cluster cl0).sn (f5 0 3 4 3 0).f9 ≤ (rTileAccessTcpy.cluster cl0).sn (f5 0 3 4 3 0).f19 ∨ (rTileAccessTcpy.cluster cl0).sn (f5 0 3 4 3 0).f19 + (rTileAccessTcpy.cluster cl0).sn (f5 0 3 4 3 0).f9 ≤ (rTileAccessTcpy.cluster cl0).sn (f5 0 3 4 3 0).f14) ∧
    rTileAccessTcpy.interlocked cl0 ((rTileAccessTcpy.cluster cl0).sn (f5 0 3 4 3 0).f19) ((rTileAccessTcpy.cluster cl0).sn (f5 0 3 4 3 0).f9) true = false ∧
    rTileAccessTcpy.interlocked cl0 ((rTileAccessTcpy.cluster cl0).sn (f5 0 3 4 3 0).f14) ((rTileAccessTcpy.cluster cl0).sn (f5 0 3 4 3 0).f9) false = false := by decide
def rSpecialReadsLap : State := runs (.srd cl0 (fI 3 0 3)) wRun
theorem witness_SpecialReads_lap :
    Fits (rSpecialReadsLap.wr F.LAP_COUNT_COUNT 99) cl0 (.srd cl0 (fI 3 0 3)) ((rSpecialReadsLap.wr F.LAP_COUNT_COUNT 99).pc cl0 + 4) ∧ (rSpecialReadsLap.wr F.LAP_COUNT_COUNT 99).slotOfCl cl0 = some 0 ∧
    (fI 3 0 3).rs1 = 0 ∧ ((fI 3 0 3).imm.toNat = (3, (rSpecialReadsLap.wr F.LAP_COUNT_COUNT 99).rd F.LAP_COUNT_COUNT).1) := by decide
def rWaitsBar : State := runs (.bar cl0 (fI 0 0 17)) wRun
theorem witness_Waits_bar :
    rWaitsBar.ready cl0 (.bar cl0 (fI 0 0 17)) = true ∧ (fI 0 0 17).imm.toNat < 32 ∧ (fI 0 0 17).rd = 0 ∧ (fI 0 0 17).rs1 = 0 := by decide
def rWaitsWlap : State := runs (.wlap cl0 (fI 3 1 0)) wRun
theorem witness_Waits_wlap :
    rWaitsWlap.ready cl0 (.wlap cl0 (fI 3 1 0)) = true ∧ rWaitsWlap.now < memAddr (rWaitsWlap.cluster cl0) (fI 3 1 0).rs1 (fI 3 1 0).imm ∧
    memAddr (rWaitsWlap.cluster cl0) (fI 3 1 0).rs1 (fI 3 1 0).imm ≤ rWaitsWlap.now + 2 ^ 32 := by decide
def rWaitsPast : State := runs (.wlap cl0 (fI 3 0 0)) wRun
theorem witness_WaitsEnd_wlapPast :
    Fits rWaitsPast cl0 (.wlap cl0 (fI 3 0 0)) (rWaitsPast.pc cl0 + 4) ∧ memAddr (rWaitsPast.cluster cl0) (fI 3 0 0).rs1 (fI 3 0 0).imm ≤ rWaitsPast.now := by decide
def rWaitsSecond : State := runs (.hrdw cl0 (f5 0 1 0 0 0)) wHrdw
theorem witness_Waits_hrdwSecond :
    rWaitsSecond.ready cl0 (.hrdw cl0 (f5 0 1 0 0 0)) = true ∧ (f5 0 1 0 0 0).f14 = 0 ∧ (f5 0 1 0 0 0).f9 = 0 ∧ ((f5 0 1 0 0 0).f4 = 0 ∧ (f5 0 1 0 0 0).f24 = 0) ∧
    (rWaitsSecond.cluster cl0).hrdw.isSome = true := by decide
def rWaitsAll : State := runs (.dwait cl0 (f5 0 0 0 0 1)) wDq
theorem witness_Waits_dwaitAll :
    rWaitsAll.ready cl0 (.dwait cl0 (f5 0 0 0 0 1)) = true ∧ (f5 0 0 0 0 1).f24 = 0 ∧ (f5 0 0 0 0 1).f14 = 0 ∧ (f5 0 0 0 0 1).f9 = 0 ∧ (f5 0 0 0 0 1).f4 = 1 ∧
    (∃ d ∈ (rWaitsAll.cluster cl0).dqs, d.seq ≤ (rWaitsAll.cluster cl0).dqseq) := by decide
def rWaitsNone : State := runs (.dwait cl0 (f5 0 0 0 0 1)) wDq2
theorem witness_WaitsEnd_dwaitNone :
    Fits rWaitsNone cl0 (.dwait cl0 (f5 0 0 0 0 1)) (rWaitsNone.pc cl0 + 4) ∧ (f5 0 0 0 0 1).f24 = 0 ∧ (f5 0 0 0 0 1).f14 = 0 ∧ (f5 0 0 0 0 1).f9 = 0 ∧
    (f5 0 0 0 0 1).f4 = 1 ∧
    (∀ d ∈ (rWaitsNone.cluster cl0).dqs, (rWaitsNone.cluster cl0).dqseq < d.seq) := by decide
def rWaitsHrdw : State := runs (.hrdw cl0 (f5 3 1 0 0 1)) wRun
theorem witness_Waits_hrdw :
    rWaitsHrdw.ready cl0 (.hrdw cl0 (f5 3 1 0 0 1)) = true ∧ (f5 3 1 0 0 1).f14 = 0 ∧ (f5 3 1 0 0 1).f9 = 0 ∧ (f5 3 1 0 0 1).f4 = 1 ∧ (rWaitsHrdw.cluster cl0).hrdw = none := by decide
def rWaitsDwait : State := runs (.dwait cl0 (f5 0 1 0 0 0)) wDq
theorem witness_Waits_dwait :
    rWaitsDwait.ready cl0 (.dwait cl0 (f5 0 1 0 0 0)) = true ∧ (f5 0 1 0 0 0).f24 = 0 ∧ (f5 0 1 0 0 0).f14 = 0 ∧ (f5 0 1 0 0 0).f9 = 0 ∧ (f5 0 1 0 0 0).f4 = 0 ∧
    (rWaitsDwait.cluster cl0).sn (f5 0 1 0 0 0).f19 ≤ (rWaitsDwait.cluster cl0).dqseq ∧
    (∃ d ∈ (rWaitsDwait.cluster cl0).dqs, d.seq = (rWaitsDwait.cluster cl0).sn (f5 0 1 0 0 0).f19) ∧ (rWaitsDwait.cluster cl0).sn (f5 0 1 0 0 0).f19 ≠ 0 := by decide
def rWaitsHrdwRuns : State := runs (.hrdw cl0 (f5 0 1 0 0 0)) wRun
theorem witness_WaitsEnd_hrdwRuns :
    Fits rWaitsHrdwRuns cl0 (.hrdw cl0 (f5 0 1 0 0 0)) (rWaitsHrdwRuns.pc cl0 + 4) ∧ (f5 0 1 0 0 0).f24 = 0 ∧ (f5 0 1 0 0 0).f14 = 0 ∧ (f5 0 1 0 0 0).f9 = 0 ∧ (f5 0 1 0 0 0).f4 = 0 ∧
    (rWaitsHrdwRuns.cluster cl0).hrdw = none := by decide
def rWaitsDwaitDone : State := runs (.dwait cl0 (f5 0 1 0 0 0)) wDq2
theorem witness_WaitsEnd_dwaitDone :
    Fits rWaitsDwaitDone cl0 (.dwait cl0 (f5 0 1 0 0 0)) (rWaitsDwaitDone.pc cl0 + 4) ∧ (f5 0 1 0 0 0).f24 = 0 ∧ (f5 0 1 0 0 0).f14 = 0 ∧ (f5 0 1 0 0 0).f9 = 0 ∧ (f5 0 1 0 0 0).f4 = 0 ∧
    (rWaitsDwaitDone.cluster cl0).sn (f5 0 1 0 0 0).f19 ≤ (rWaitsDwaitDone.cluster cl0).dqseq ∧
    (∀ d ∈ (rWaitsDwaitDone.cluster cl0).dqs, d.seq ≠ (rWaitsDwaitDone.cluster cl0).sn (f5 0 1 0 0 0).f19) := by decide
def rWaitsFence : State := runs (.fence cl0 (f5 0 0 0 0 0)) wRun
theorem witness_WaitsEnd_fence :
    Fits rWaitsFence cl0 (.fence cl0 (f5 0 0 0 0 0)) (rWaitsFence.pc cl0 + 4) ∧ (f5 0 0 0 0 0).f24 = 0 ∧ (f5 0 0 0 0 0).f19 = 0 ∧ (f5 0 0 0 0 0).f14 = 0 ∧ (f5 0 0 0 0 0).f9 = 0 ∧
    (f5 0 0 0 0 0).f4 = 0 ∧ (rWaitsFence.cluster cl0).allDone = true := by decide
def rWaitsHalt : State := runs (.halt cl0 (f5 0 0 0 0 0)) wRun
theorem witness_WaitsEnd_halt :
    rWaitsHalt.ready cl0 (.halt cl0 (f5 0 0 0 0 0)) = true ∧ (rWaitsHalt.cluster cl0).allDone = true ∧ cl0.wf = true ∧ (f5 0 0 0 0 0).f24 = 0 ∧
    (f5 0 0 0 0 0).f19 = 0 ∧ (f5 0 0 0 0 0).f14 = 0 ∧ (f5 0 0 0 0 0).f9 = 0 ∧ (f5 0 0 0 0 0).f4 = 0 := by decide
def rWaitsBusy : State := runs (.halt cl0 (f5 0 0 0 0 0)) wDq
theorem witness_Waits_haltBusy :
    rWaitsBusy.ready cl0 (.halt cl0 (f5 0 0 0 0 0)) = true ∧ (rWaitsBusy.cluster cl0).allDone = false ∧ (f5 0 0 0 0 0).f24 = 0 ∧
    (f5 0 0 0 0 0).f19 = 0 ∧ (f5 0 0 0 0 0).f14 = 0 ∧ (f5 0 0 0 0 0).f9 = 0 ∧ (f5 0 0 0 0 0).f4 = 0 := by decide
theorem witness_WaitsEnd_wlap :
    wWlap.run cl0 = 2 ∧ (wWlap.cluster cl0).wait = SeqWait.wlap ((3 : BitVec 64).toNat) wWlap.now ∧ (wWlap.pc cl0 + 4) % 4 = 0 ∧
    wWlap.pc cl0 + 4 < (wWlap.cluster cl0).code.length ∧ (wWlap.cluster cl0).code.length ≤ 65536 := by decide
/-- CD0.C000 is the only participant of its partition's barriers, and BAR 1 of the partition is next. -/
def rWaitsEndBar : State := runs (.bar cl0 (fI 0 0 17)) ((setF wRun ((List.range 71).map (fun i => (F.CL_STATUS_ROLE 0 (i + 1), 1)))))
theorem witness_WaitsEnd_last :
    rWaitsEndBar.ready cl0 (.bar cl0 (fI 0 0 17)) = true ∧ (fI 0 0 17).imm.toNat < 32 ∧ (fI 0 0 17).rd = 0 ∧ (fI 0 0 17).rs1 = 0 ∧
    (if bit (fI 0 0 17).imm.toNat 4 then some (cl0.idx / 72) else none) = some 0 ∧ cl0 ∈ rWaitsEndBar.barMembers cl0.die (some 0) 0 ∧
    (∀ k ∈ rWaitsEndBar.barMembers cl0.die (some 0) 0, (rWaitsEndBar.pc k + 4) % 4 = 0 ∧ rWaitsEndBar.pc k + 4 < (rWaitsEndBar.cluster k).code.length ∧ (rWaitsEndBar.cluster k).code.length ≤ 65536 ∧ (k ≠ cl0 → rWaitsEndBar.run k = 3 ∧ (rWaitsEndBar.cluster k).wait = .bar true 1)) := by decide
theorem witness_WaitsEnd_bar :
    wBar.barMembers 0 (some 0) 0 ≠ [] ∧
    (∀ c ∈ wBar.barMembers 0 (some 0) 0, wBar.run c = 3 ∧ (wBar.cluster c).wait = SeqWait.bar (some 0).isSome 1 ∧ (wBar.pc c + 4) % 4 = 0 ∧ wBar.pc c + 4 < (wBar.cluster c).code.length ∧ (wBar.cluster c).code.length ≤ 65536) := by decide
theorem witness_HurdleWord_record :
    wHrdw.slotOfCl cl0 = some 0 ∧ ((wHrdw.cluster cl0).hrdw = some { bits := 2, pstep := 0, ord := 0 }) ∧ (wHrdw.cluster cl0).workDone 0 = true ∧
    wHrdw.tiesDone cl0 0 0 = true := by decide
theorem witness_HurdleWord_busy :
    wHrdwBusy.slotOfCl cl0 = some 0 ∧ ((wHrdwBusy.cluster cl0).hrdw = some { bits := 2, pstep := 0, ord := 0 }) ∧ (wHrdwBusy.cluster cl0).wgq ≠ [] := by decide
theorem witness_HurdleWord_outcome :
    wHrdwWait.slotOfCl cl0 = some 0 ∧ (wHrdwWait.cluster cl0).wait = SeqWait.hrdw ((3 : BitVec 64).toNat) 0 ∧ wHrdwWait.run cl0 = 7 ∧
    (wHrdwWait.cluster cl0).hrdw = none ∧ (wHrdwWait.slot 0).resolved = true ∧ 0 < wHrdwWait.step 0 ∧
    wHrdwWait.slotState 0 = 2 ∧ (wHrdwWait.pc cl0 + 4) % 4 = 0 ∧ wHrdwWait.pc cl0 + 4 < (wHrdwWait.cluster cl0).code.length ∧
    (wHrdwWait.cluster cl0).code.length ≤ 65536 := by decide
def rProgramEventsFirst : State := runs (.evt cl0 (fI 0 1 5)) wRun
theorem witness_ProgramEvents_first :
    Fits rProgramEventsFirst cl0 (.evt cl0 (fI 0 1 5)) (rProgramEventsFirst.pc cl0 + 4) ∧ rProgramEventsFirst.slotOfCl cl0 = some 0 ∧ (fI 0 1 5).rd = 0 ∧ bits (fI 0 1 5).imm.toNat 10 8 < 3 ∧
    (fI 0 1 5).imm.toNat < 2 ^ 11 ∧ (rProgramEventsFirst.cluster cl0).evtLap ≠ some rProgramEventsFirst.now := by decide
def rProgramEventsDropped : State := runs (.evt cl0 (fI 0 1 5)) wEvt
theorem witness_ProgramEvents_dropped :
    Fits rProgramEventsDropped cl0 (.evt cl0 (fI 0 1 5)) (rProgramEventsDropped.pc cl0 + 4) ∧ rProgramEventsDropped.slotOfCl cl0 = some 0 ∧ (fI 0 1 5).rd = 0 ∧ bits (fI 0 1 5).imm.toNat 10 8 < 3 ∧
    (fI 0 1 5).imm.toNat < 2 ^ 11 ∧ (rProgramEventsDropped.cluster cl0).evtLap = some rProgramEventsDropped.now := by decide
def rEvtFatal : State := runs (.evt cl0 (fI 0 1 0x305)) wRun
theorem witness_ProgramEvents_fatal :
    rEvtFatal.slotOfCl cl0 = some 0 ∧ (fI 0 1 0x305).rd = 0 ∧ (fI 0 1 0x305).imm.toNat < 2 ^ 11 ∧ rEvtFatal.ready cl0 (.evt cl0 (fI 0 1 0x305)) = true ∧
    bits (fI 0 1 0x305).imm.toNat 10 8 = 3 := by decide
def rExceptionsFn : State := runs (.alu cl0 (fR 3 1 2 18)) wRun
theorem witness_Exceptions_fn :
    rExceptionsFn.ready cl0 (.alu cl0 (fR 3 1 2 18)) = true ∧ 18 ≤ (fR 3 1 2 18).fn.toNat := by decide
def rExceptionsSpecial : State := runs (.srd cl0 (fI 3 0 24)) wRun
theorem witness_Exceptions_special :
    rExceptionsSpecial.ready cl0 (.srd cl0 (fI 3 0 24)) = true ∧ 24 ≤ (fI 3 0 24).imm.toNat := by decide
def rExceptionsShift : State := runs (.shli cl0 (fI 3 1 64)) wRun
theorem witness_Exceptions_shift :
    rExceptionsShift.ready cl0 (.shli cl0 (fI 3 1 64)) = true ∧ 64 ≤ (fI 3 1 64).imm.toNat := by decide
def rExceptionsAlign : State := runs (.ld cl0 (fI 3 3 4)) wRun
theorem witness_Exceptions_align :
    rExceptionsAlign.ready cl0 (.ld cl0 (fI 3 3 4)) = true ∧ memAddr (rExceptionsAlign.cluster cl0) (fI 3 3 4).rs1 (fI 3 3 4).imm % 8 ≠ 0 := by decide
def rExceptionsFetch : State := runs (.jal cl0 fUfar) wRun
theorem witness_Exceptions_fetch :
    rExceptionsFetch.ready cl0 (.jal cl0 fUfar) = true ∧ 0 ≤ ↑(rExceptionsFetch.pc cl0) + 4 * fUfar.imm.toInt ∧ ↑(rExceptionsFetch.pc cl0) + 4 * fUfar.imm.toInt < 2 ^ 32 ∧
    (rExceptionsFetch.cluster cl0).code.length ≤ (↑(rExceptionsFetch.pc cl0) + 4 * fUfar.imm.toInt).toNat := by decide
theorem witness_Exceptions_record :
    cl0.wf = true := by decide
def wBadWord : State := wRun.setCluster cl0 { wRun.cluster cl0 with code := List.replicate 64 0xFF }
theorem witness_Exceptions_opcode :
    wBadWord.canIssue cl0 = true ∧ wBadWord.fetched cl0 = some 0xFFFFFFFF ∧ insnOf cl0 0xFFFFFFFF = none := by decide
def wNoWord : State := wRun.setCluster cl0 { wRun.cluster cl0 with code := [] }
theorem witness_Exceptions_noWord :
    wNoWord.canIssue cl0 = true ∧ wNoWord.fetched cl0 = none := by decide
theorem witness_Exceptions_words :
    insnOf cl0 (wordR 1 (fR 3 1 2 5)) = some (.alu cl0 (fR 3 1 2 5)) ∧ insnWord (.alu cl0 (fR 3 1 2 5)) = some (wordR 1 (fR 3 1 2 5)) := by decide
def rVectorElementsFloat : State := runs (.vfv cl0 (f5 3 1 2 0 2)) wVf
theorem witness_VectorElements_float :
    VFits rVectorElementsFloat cl0 (.vfv cl0 (f5 3 1 2 0 2)) ∧ (rVectorElementsFloat.cluster cl0).kind = 0 ∧ (f5 3 1 2 0 2).f9 = 0 ∧ (f5 3 1 2 0 2).f4.toNat < 6 := by decide
def rVectorElementsVfu : State := runs (.vfu cl0 (f5 3 1 0 0 2)) wVf
theorem witness_VectorElements_vfu :
    VFits rVectorElementsVfu cl0 (.vfu cl0 (f5 3 1 0 0 2)) ∧ (rVectorElementsVfu.cluster cl0).kind = 0 ∧ (f5 3 1 0 0 2).f9 = 0 ∧ (f5 3 1 0 0 2).f4.toNat < 6 ∧ (f5 3 1 0 0 2).f14 = 0 := by decide
def rVectorElementsInt : State := runs (.viv cl0 (f5 3 1 2 0 2)) wVi
theorem witness_VectorElements_int :
    VFits rVectorElementsInt cl0 (.viv cl0 (f5 3 1 2 0 2)) ∧ (f5 3 1 2 0 2).f9 = 0 ∧ (rVectorElementsInt.cluster cl0).kind ≠ 0 ∧ (f5 3 1 2 0 2).f4.toNat < 10 := by decide
def rVectorElementsCmp : State := runs (.vcmpv cl0 (f5 3 1 2 0 2)) wVf
theorem witness_VectorElements_cmp :
    VFits rVectorElementsCmp cl0 (.vcmpv cl0 (f5 3 1 2 0 2)) ∧ (f5 3 1 2 0 2).f9 = 0 ∧ (f5 3 1 2 0 2).f4.toNat < 6 := by decide
def vFull : ClusterSt := { vec 4 2 with vq := List.replicate 16 ⟨4, 2, true, false, 0⟩ }
def rVectorFull : State := runs (.vcmpv cl0 (f5 3 1 2 0 2)) (wCl vFull)
theorem witness_VectorElements_full :
    (f5 3 1 2 0 2).f9 = 0 ∧ (f5 3 1 2 0 2).f4.toNat < 6 ∧ 16 ≤ (rVectorFull.cluster cl0).vq.length ∧ rVectorFull.ready cl0 (.vcmpv cl0 (f5 3 1 2 0 2)) = true := by decide
def rVectorOtherVsel : State := runs (.vsel cl0 (f5 3 1 2 1 0)) wVf
theorem witness_VectorOther_vsel :
    VFits rVectorOtherVsel cl0 (.vsel cl0 (f5 3 1 2 1 0)) ∧ (f5 3 1 2 1 0).f4 = 0 := by decide
def rVectorOtherVredInt : State := runs (.vred cl0 (f5 3 1 0 0 1)) wVi
theorem witness_VectorOther_vredInt :
    VFits rVectorOtherVredInt cl0 (.vred cl0 (f5 3 1 0 0 1)) ∧ (f5 3 1 0 0 1).f4.toNat < 4 ∧ (f5 3 1 0 0 1).f9 = 0 ∧ (f5 3 1 0 0 1).f14 = 0 ∧ (rVectorOtherVredInt.cluster cl0).vl ≠ 0 ∧
    (rVectorOtherVredInt.cluster cl0).kind ≠ 0 ∧ (f5 3 1 0 0 1).f4.toNat ≠ 3 := by decide
def rVectorOtherVredFloat : State := runs (.vred cl0 (f5 3 1 0 0 0)) wVf
theorem witness_VectorOther_vredFloat :
    VFits rVectorOtherVredFloat cl0 (.vred cl0 (f5 3 1 0 0 0)) ∧ (f5 3 1 0 0 0).f4.toNat < 4 ∧ (f5 3 1 0 0 0).f9 = 0 ∧ (f5 3 1 0 0 0).f14 = 0 ∧ (rVectorOtherVredFloat.cluster cl0).vl ≠ 0 ∧
    (rVectorOtherVredFloat.cluster cl0).kind = 0 := by decide
def rVectorOtherVderiv : State := runs (.vderiv cl0 (f5 3 1 0 0 2)) wVf
theorem witness_VectorOther_vderiv :
    VFits rVectorOtherVderiv cl0 (.vderiv cl0 (f5 3 1 0 0 2)) ∧ (f5 3 1 0 0 2).f4.toNat = 2 ∧ (f5 3 1 0 0 2).f14 = 0 ∧ (f5 3 1 0 0 2).f9 = 0 ∧ (rVectorOtherVderiv.cluster cl0).kind = 0 := by decide
def rVectorOtherVxcvt : State := runs (.vxcvt cl0 (f5 3 1 0 0 1)) wVf
theorem witness_VectorOther_vxcvt :
    VFits rVectorOtherVxcvt cl0 (.vxcvt cl0 (f5 3 1 0 0 1)) ∧ (rVectorOtherVxcvt.cluster cl0).kind = 0 ∧ (rVectorOtherVxcvt.cluster cl0).sew = 32 ∧ (f5 3 1 0 0 1).f4.toNat = 1 ∧
    (f5 3 1 0 0 1).f9 = 0 ∧ (f5 3 1 0 0 1).f14 = 0 := by decide
def rVectorOtherVsr : State := runs (.vsr cl0 (f5 3 1 2 7 7)) wVf
theorem witness_VectorOther_vsr :
    VFits rVectorOtherVsr cl0 (.vsr cl0 (f5 3 1 2 7 7)) ∧ (rVectorOtherVsr.cluster cl0).kind = 0 ∧ (rVectorOtherVsr.cluster cl0).sew = 32 ∧
    bits ((rVectorOtherVsr.cluster cl0).sn (f5 3 1 2 7 7).f9) 43 32 = 0 ∧ bits ((rVectorOtherVsr.cluster cl0).sn (f5 3 1 2 7 7).f4) 63 29 = 0 ∧
    bits ((rVectorOtherVsr.cluster cl0).sn (f5 3 1 2 7 7).f4) 15 13 = 0 ∧ (rVectorOtherVsr.cluster cl0).vl ≠ 0 ∧
    bits ((rVectorOtherVsr.cluster cl0).sn (f5 3 1 2 7 7).f4) 12 0 + (rVectorOtherVsr.cluster cl0).vl ≤ 8192 := by decide
def rVectorOtherVmvRead : State := runs (.vmv cl0 (f5 3 1 7 0 0)) wVf
theorem witness_VectorOther_vmvRead :
    VFits rVectorOtherVmvRead cl0 (.vmv cl0 (f5 3 1 7 0 0)) ∧ (f5 3 1 7 0 0).f9 = 0 ∧ (f5 3 1 7 0 0).f4 = 0 ∧
    (rVectorOtherVmvRead.cluster cl0).sn (f5 3 1 7 0 0).f14 < 256 / 2 ^ ((rVectorOtherVmvRead.cluster cl0).vtype % 4) := by decide
def rVectorOtherRdfl : State := runs (.vmv cl0 (f5 3 0 0 0 4)) wVf
theorem witness_VectorOther_rdfl :
    VFits rVectorOtherRdfl cl0 (.vmv cl0 (f5 3 0 0 0 4)) ∧ (f5 3 0 0 0 4).f9 = 0 ∧ (f5 3 0 0 0 4).f4 = 4 ∧ (f5 3 0 0 0 4).f14 = 0 ∧ (f5 3 0 0 0 4).f19 = 0 := by decide
def rVectorMemoryVld : State := runs (.vld cl0 (f5 3 5 0 0 0)) wVf
theorem witness_VectorMemory_vld :
    VFits rVectorMemoryVld cl0 (.vld cl0 (f5 3 5 0 0 0)) ∧ (f5 3 5 0 0 0).f9 = 0 ∧ (f5 3 5 0 0 0).f4 = 0 ∧ (f5 3 5 0 0 0).f14 = 0 ∧
    (∀ a ∈ elemAddrs (rVectorMemoryVld.cluster cl0).vl ((rVectorMemoryVld.cluster cl0).sn (f5 3 5 0 0 0).f19) ↑((rVectorMemoryVld.cluster cl0).sew / 8), a % ((rVectorMemoryVld.cluster cl0).sew / 8) = 0 ∧ a + (rVectorMemoryVld.cluster cl0).sew / 8 ≤ tileSize ∧ rVectorMemoryVld.interlocked cl0 a ((rVectorMemoryVld.cluster cl0).sew / 8) false = false) := by decide
def rVectorMemoryVlds : State := runs (.vlds cl0 (f5 3 5 6 0 0)) wVf
theorem witness_VectorMemory_vlds :
    VFits rVectorMemoryVlds cl0 (.vlds cl0 (f5 3 5 6 0 0)) ∧ (f5 3 5 6 0 0).f9 = 0 ∧ (f5 3 5 6 0 0).f4 = 0 ∧
    (∀ a ∈ elemAddrs (rVectorMemoryVlds.cluster cl0).vl ((rVectorMemoryVlds.cluster cl0).sn (f5 3 5 6 0 0).f19) (BitVec.toInt ((rVectorMemoryVlds.cluster cl0).sreg (f5 3 5 6 0 0).f14)), a % ((rVectorMemoryVlds.cluster cl0).sew / 8) = 0 ∧ a + (rVectorMemoryVlds.cluster cl0).sew / 8 ≤ tileSize ∧ rVectorMemoryVlds.interlocked cl0 a ((rVectorMemoryVlds.cluster cl0).sew / 8) false = false) := by decide
def rVectorMemoryVldb : State := runs (.vldb cl0 (f5 3 5 0 0 0)) wVf
theorem witness_VectorMemory_vldb :
    VFits rVectorMemoryVldb cl0 (.vldb cl0 (f5 3 5 0 0 0)) ∧ (f5 3 5 0 0 0).f9 = 0 ∧ (f5 3 5 0 0 0).f4 = 0 ∧ (f5 3 5 0 0 0).f14 = 0 ∧
    (∀ a ∈ elemAddrs (rVectorMemoryVldb.cluster cl0).vl ((rVectorMemoryVldb.cluster cl0).sn (f5 3 5 0 0 0).f19) 0, a % ((rVectorMemoryVldb.cluster cl0).sew / 8) = 0 ∧ a + (rVectorMemoryVldb.cluster cl0).sew / 8 ≤ tileSize ∧ rVectorMemoryVldb.interlocked cl0 a ((rVectorMemoryVldb.cluster cl0).sew / 8) false = false) := by decide
def rVectorMemoryVst : State := runs (.vst cl0 (f5 1 5 0 0 0)) wVf
theorem witness_VectorMemory_vst :
    VFits rVectorMemoryVst cl0 (.vst cl0 (f5 1 5 0 0 0)) ∧ (f5 1 5 0 0 0).f9 = 0 ∧ (f5 1 5 0 0 0).f4 = 0 ∧ (f5 1 5 0 0 0).f14 = 0 ∧
    (∀ a ∈ elemAddrs (rVectorMemoryVst.cluster cl0).vl ((rVectorMemoryVst.cluster cl0).sn (f5 1 5 0 0 0).f19) ↑((rVectorMemoryVst.cluster cl0).sew / 8), a % ((rVectorMemoryVst.cluster cl0).sew / 8) = 0 ∧ a + (rVectorMemoryVst.cluster cl0).sew / 8 ≤ tileSize ∧ rVectorMemoryVst.interlocked cl0 a ((rVectorMemoryVst.cluster cl0).sew / 8) true = false) := by decide
def rGuard : State := runs (.vst cl0 (f5 1 5 0 0 1)) wVf
theorem witness_VectorMemory_guard :
    VFits rGuard cl0 (.vst cl0 (f5 1 5 0 0 1)) ∧ (f5 1 5 0 0 1).f4 = 1 ∧ (rGuard.cluster cl0).kind = 0 ∧
    (∀ v ∈ vElems ((rGuard.cluster cl0).vreg (f5 1 5 0 0 1).f24) (rGuard.cluster cl0).sew (rGuard.cluster cl0).vl, fpNonfinite (decodeElem (rGuard.cluster cl0).fcode v) = false) := by decide
/-- V1 begins with an infinity. -/
def rGuardInf : State := runs (.vst cl0 (f5 1 5 0 0 1)) (wCl { vec 4 2 with vregs := [(1, BitVec.ofNat 2048 0x7F800000)] })
theorem witness_VectorMemory_guardRaises :
    rGuardInf.ready cl0 (.vst cl0 (f5 1 5 0 0 1)) = true ∧ (rGuardInf.cluster cl0).kind = 0 ∧
    ((elemAddrs (rGuardInf.cluster cl0).vl ((rGuardInf.cluster cl0).sn (f5 1 5 0 0 1).f19) ↑((rGuardInf.cluster cl0).sew / 8)).zip
      (vElems ((rGuardInf.cluster cl0).vreg (f5 1 5 0 0 1).f24) (rGuardInf.cluster cl0).sew (rGuardInf.cluster cl0).vl)).find?
        (fun x => fpNonfinite (decodeElem (rGuardInf.cluster cl0).fcode x.2)) = some (64, 0x7F800000) := by decide
def rVectorMemoryVsts : State := runs (.vsts cl0 (f5 1 5 6 0 0)) wVf
theorem witness_VectorMemory_vsts :
    VFits rVectorMemoryVsts cl0 (.vsts cl0 (f5 1 5 6 0 0)) ∧ (f5 1 5 6 0 0).f9 = 0 ∧ (f5 1 5 6 0 0).f4 = 0 ∧
    (∀ a ∈ elemAddrs (rVectorMemoryVsts.cluster cl0).vl ((rVectorMemoryVsts.cluster cl0).sn (f5 1 5 6 0 0).f19) (BitVec.toInt ((rVectorMemoryVsts.cluster cl0).sreg (f5 1 5 6 0 0).f14)), a % ((rVectorMemoryVsts.cluster cl0).sew / 8) = 0 ∧ a + (rVectorMemoryVsts.cluster cl0).sew / 8 ≤ tileSize ∧ rVectorMemoryVsts.interlocked cl0 a ((rVectorMemoryVsts.cluster cl0).sew / 8) true = false) := by decide
def rVectorStateSetvl : State := runs (.setvl cl0 (fI 3 1 2)) wRun
theorem witness_VectorState_setvl :
    Fits rVectorStateSetvl cl0 (.setvl cl0 (fI 3 1 2)) (rVectorStateSetvl.pc cl0 + 4) ∧ (fI 3 1 2).imm.toNat < 16 ∧ (fI 3 1 2).imm.toNat % 4 ≠ 3 ∧ (fI 3 1 2).imm.toNat / 4 ≠ 3 ∧
    (fI 3 1 2).imm ≠ 0 := by decide
def rVectorStateSlots : State := runs (.vputs cl0 (f5 2 1 1 0 0)) wV64
theorem witness_VectorState_slots :
    VFits rVectorStateSlots cl0 (.vputs cl0 (f5 2 1 1 0 0)) ∧ cl0.wf = true ∧ (f5 2 1 1 0 0).f9 = 0 ∧ (f5 2 1 1 0 0).f4 = 0 ∧ (f5 2 1 1 0 0).f24.toNat < 16 ∧
    (rVectorStateSlots.cluster cl0).sn (f5 2 1 1 0 0).f14 < 128 ∧ (rVectorStateSlots.cluster cl0).kind = 0 ∧ (rVectorStateSlots.cluster cl0).sew = 32 ∧ (rVectorStateSlots.cluster cl0).vl = 64 ∧
    rVectorStateSlots.slotCode cl0 (f5 2 1 1 0 0).f24.toNat ≠ 3 ∧ (rVectorStateSlots.cluster cl0).openSlot ≠ some (f5 2 1 1 0 0).f24.toNat ∧
    (rVectorStateSlots.cluster cl0).wgqHas (f5 2 1 1 0 0).f24.toNat = false ∧
    (rVectorStateSlots.cluster cl0).mergePending (f5 2 1 1 0 0).f24.toNat (rVectorStateSlots.cluster cl0).icount = false ∧
    (∀ r ∈ (rVectorStateSlots.cluster cl0).readQ, r.slot ≠ (f5 2 1 1 0 0).f24.toNat) := by decide
def rVectorStateVcvt : State := runs (.vcvt cl0 (f5 2 1 6 0 0)) wV0p
theorem witness_VectorState_vcvt :
    VFits rVectorStateVcvt cl0 (.vcvt cl0 (f5 2 1 6 0 0)) ∧ cl0.wf = true ∧ (f5 2 1 6 0 0).f9 = 0 ∧ (f5 2 1 6 0 0).f4 = 0 ∧ (rVectorStateVcvt.cluster cl0).kind = 0 ∧
    (rVectorStateVcvt.cluster cl0).vl = 0 ∧ rVectorStateVcvt.castTarget ((rVectorStateVcvt.slotOfCl cl0).getD 0) false (bits ((rVectorStateVcvt.cluster cl0).sn (f5 2 1 6 0 0).f14) 15 0) = none := by decide
def rVcvt : State := runs (.vcvt cl0 (f5 1 5 1 0 1)) (wProgC (vec 4 2))
def tgB : CastTarget := ⟨1, false, false, 0, false, 0, 0⟩
theorem witness_VectorState_vcvtWrites :
    cl0.wf = true ∧ (f5 1 5 1 0 1).f9 = 0 ∧ rVcvt.slotOfCl cl0 = some 0 ∧ (f5 1 5 1 0 1).f4 = 1 ∧
    rVcvt.castTarget 0 true (bits ((rVcvt.cluster cl0).sn (f5 1 5 1 0 1).f14) 3 0) = some tgB ∧ tgB.fmt = 1 ∧ tgB.twin = false ∧ (rVcvt.cluster cl0).kind = 0 ∧
    (rVcvt.cluster cl0).sew = 32 ∧ 0 < (rVcvt.cluster cl0).vl ∧ bits ((rVcvt.cluster cl0).sn (f5 1 5 1 0 1).f19) 52 32 = 0 ∧
    bits ((rVcvt.cluster cl0).sn (f5 1 5 1 0 1).f19) 20 0 % 2 = 0 ∧
    bits ((rVcvt.cluster cl0).sn (f5 1 5 1 0 1).f19) 20 0 + 2 * (rVcvt.cluster cl0).vl ≤ tileSize ∧ (rVcvt.cluster cl0).wgq = [] ∧ (rVcvt.cluster cl0).castQ = [] ∧
    (rVcvt.cluster cl0).vq = [] ∧ (rVcvt.cluster cl0).readQ = [] ∧ rVcvt.castWaits 0 (rVcvt.cluster cl0).pstep tgB = false ∧
    VFits rVcvt cl0 (.vcvt cl0 (f5 1 5 1 0 1)) := by decide
def rMatrixIssuesMcfg : State := runs (.mcfg cl0 (f5 0 6 7 0 0)) wCfg
theorem witness_MatrixIssues_mcfg :
    Fits rMatrixIssuesMcfg cl0 (.mcfg cl0 (f5 0 6 7 0 0)) (rMatrixIssuesMcfg.pc cl0 + 4) ∧ (f5 0 6 7 0 0).f24 = 0 ∧ (f5 0 6 7 0 0).f9 = 0 ∧ (f5 0 6 7 0 0).f4 = 0 ∧
    bits ((rMatrixIssuesMcfg.cluster cl0).sn (f5 0 6 7 0 0).f19) 47 0 = 0 ∧ bits ((rMatrixIssuesMcfg.cluster cl0).sn (f5 0 6 7 0 0).f14) 43 32 = 0 ∧
    family (bits ((rMatrixIssuesMcfg.cluster cl0).sn (f5 0 6 7 0 0).f19) 63 60) ≠ 0 ∧
    family (bits ((rMatrixIssuesMcfg.cluster cl0).sn (f5 0 6 7 0 0).f19) 63 60) = family (bits ((rMatrixIssuesMcfg.cluster cl0).sn (f5 0 6 7 0 0).f19) 59 56) ∧
    1 ≤ bits ((rMatrixIssuesMcfg.cluster cl0).sn (f5 0 6 7 0 0).f19) 55 48 ∧ bits ((rMatrixIssuesMcfg.cluster cl0).sn (f5 0 6 7 0 0).f19) 55 48 ≤ 128 ∧
    (rMatrixIssuesMcfg.cluster cl0).openSlot = none ∧ (rMatrixIssuesMcfg.cluster cl0).arrQ.length < 8 := by decide
def rMatrixIssuesLoad : State := runs (.mlda cl0 (f5 0 3 0 0 0)) wCfg
theorem witness_MatrixIssues_load :
    Fits rMatrixIssuesLoad cl0 (.mlda cl0 (f5 0 3 0 0 0)) (rMatrixIssuesLoad.pc cl0 + 4) ∧ (rMatrixIssuesLoad.cluster cl0).cfg = some mcfg ∧ (f5 0 3 0 0 0).f24 = 0 ∧ (f5 0 3 0 0 0).f14 = 0 ∧
    (f5 0 3 0 0 0).f9 = 0 ∧ (f5 0 3 0 0 0).f4.toNat < 2 ∧ (rMatrixIssuesLoad.cluster cl0).sn (f5 0 3 0 0 0).f19 % 64 = 0 ∧
    (rMatrixIssuesLoad.cluster cl0).loadQ.length < 8 ∧
    ((rMatrixIssuesLoad.cluster cl0).sn (f5 0 3 0 0 0).f19 + recBytes (Instr.mlda cl0 (f5 0 3 0 0 0), false, mcfg.fmtA).2.2 (Instr.mlda cl0 (f5 0 3 0 0 0), false, mcfg.fmtA).2.1 ≤ tileSize) ∧
    (rMatrixIssuesLoad.interlocked cl0 ((rMatrixIssuesLoad.cluster cl0).sn (f5 0 3 0 0 0).f19) (recBytes (Instr.mlda cl0 (f5 0 3 0 0 0), false, mcfg.fmtA).2.2 (Instr.mlda cl0 (f5 0 3 0 0 0), false, mcfg.fmtA).2.1) false = false) := by decide
def rMatrixIssuesMma : State := runs (.mma cl0 (f5 1 1 0 0 0)) wCfg
theorem witness_MatrixIssues_mma :
    Fits rMatrixIssuesMma cl0 (.mma cl0 (f5 1 1 0 0 0)) (rMatrixIssuesMma.pc cl0 + 4) ∧ (rMatrixIssuesMma.cluster cl0).cfg = some mcfg ∧ (f5 1 1 0 0 0).f24.toNat < 16 ∧
    1 ≤ (rMatrixIssuesMma.cluster cl0).sn (f5 1 1 0 0 0).f19 ∧ (rMatrixIssuesMma.cluster cl0).sn (f5 1 1 0 0 0).f19 ≤ 65535 ∧
    rMatrixIssuesMma.slotCode cl0 (f5 1 1 0 0 0).f24.toNat ≠ 3 ∧
    ((rMatrixIssuesMma.cluster cl0).openSlot = none ∨ (rMatrixIssuesMma.cluster cl0).openSlot = some (f5 1 1 0 0 0).f24.toNat) ∧ (f5 1 1 0 0 0).f14 = 0 ∧
    (f5 1 1 0 0 0).f9 = 0 ∧ (f5 1 1 0 0 0).f4 = 0 ∧ (rMatrixIssuesMma.cluster cl0).wgqHas (f5 1 1 0 0 0).f24.toNat = false ∧
    (rMatrixIssuesMma.cluster cl0).arrQ.length < 8 := by decide
def rMatrixIssuesDeferred : State := runs (.mma cl0 (f5 1 8 3 4 1)) wCfg
theorem witness_MatrixIssues_deferred :
    Fits rMatrixIssuesDeferred cl0 (.mma cl0 (f5 1 8 3 4 1)) (rMatrixIssuesDeferred.pc cl0 + 4) ∧ (rMatrixIssuesDeferred.cluster cl0).cfg = some mcfg ∧ (f5 1 8 3 4 1).f24.toNat < 16 ∧
    1 ≤ (rMatrixIssuesDeferred.cluster cl0).sn (f5 1 8 3 4 1).f19 ∧ (rMatrixIssuesDeferred.cluster cl0).sn (f5 1 8 3 4 1).f19 ≤ 65535 ∧
    rMatrixIssuesDeferred.slotCode cl0 (f5 1 8 3 4 1).f24.toNat ≠ 3 ∧
    ((rMatrixIssuesDeferred.cluster cl0).openSlot = none ∨ (rMatrixIssuesDeferred.cluster cl0).openSlot = some (f5 1 8 3 4 1).f24.toNat) ∧ (f5 1 8 3 4 1).f4.toNat < 8 ∧
    bit (f5 1 8 3 4 1).f4.toNat 0 = true ∧ (rMatrixIssuesDeferred.cluster cl0).sn (f5 1 8 3 4 1).f14 % 64 = 0 ∧ (rMatrixIssuesDeferred.cluster cl0).sn (f5 1 8 3 4 1).f9 % 64 = 0 ∧
    panelOver mcfg ((rMatrixIssuesDeferred.cluster cl0).sn (f5 1 8 3 4 1).f19) ((rMatrixIssuesDeferred.cluster cl0).sn (f5 1 8 3 4 1).f14) ((rMatrixIssuesDeferred.cluster cl0).sn (f5 1 8 3 4 1).f9) = none ∧
    (rMatrixIssuesDeferred.cluster cl0).wgq.length < 64 := by decide
def rMatrixIssuesMdrn : State := runs (.mdrn cl0 (f5 1 3 6 0 0)) wIssue
theorem witness_MatrixIssues_mdrn :
    Fits rMatrixIssuesMdrn cl0 (.mdrn cl0 (f5 1 3 6 0 0)) (rMatrixIssuesMdrn.pc cl0 + 4) ∧ (f5 1 3 6 0 0).f24.toNat < 16 ∧ (f5 1 3 6 0 0).f9 = 0 ∧ (rMatrixIssuesMdrn.cluster cl0).readQ.length < 8 ∧
    (rMatrixIssuesMdrn.castTarget ((rMatrixIssuesMdrn.slotOfCl cl0).getD 0) (bit (f5 1 3 6 0 0).f4.toNat 1) (if bit (f5 1 3 6 0 0).f4.toNat 1 = true then bits ((rMatrixIssuesMdrn.cluster cl0).sn (f5 1 3 6 0 0).f14) 3 0 else bits ((rMatrixIssuesMdrn.cluster cl0).sn (f5 1 3 6 0 0).f14) 15 0) = some tg0) ∧
    (f5 1 3 6 0 0).f4.toNat < 8 ∧ tg0.fmt < 7 ∧ (tg0.twin = true → 2 ≤ tg0.fmt) ∧
    bits ((rMatrixIssuesMdrn.cluster cl0).sn (f5 1 3 6 0 0).f19) 20 0 % 64 = 0 ∧
    (tg0.twin = true → bits ((rMatrixIssuesMdrn.cluster cl0).sn (f5 1 3 6 0 0).f19) 52 32 % 64 = 0) ∧
    bits ((rMatrixIssuesMdrn.cluster cl0).sn (f5 1 3 6 0 0).f19) 20 0 + drainBytes tg0.fmt ≤ tileSize ∧
    (tg0.twin = true → bits ((rMatrixIssuesMdrn.cluster cl0).sn (f5 1 3 6 0 0).f19) 52 32 + drainBytes tg0.fmt ≤ tileSize) ∧
    rMatrixIssuesMdrn.slotBarred cl0 (rMatrixIssuesMdrn.cluster cl0) (f5 1 3 6 0 0).f24.toNat = false := by decide
def rMatrixIssuesMtie : State := runs (.mtie cl0 (f5 1 6 0 0 0)) wIssue
theorem witness_MatrixIssues_mtie :
    Fits rMatrixIssuesMtie cl0 (.mtie cl0 (f5 1 6 0 0 0)) (rMatrixIssuesMtie.pc cl0 + 4) ∧ (f5 1 6 0 0 0).f24.toNat < 16 ∧ (f5 1 6 0 0 0).f9 = 0 ∧ (rMatrixIssuesMtie.cluster cl0).readQ.length < 8 ∧
    (f5 1 6 0 0 0).f14 = 0 ∧ (f5 1 6 0 0 0).f4.toNat < 2 ∧ (rMatrixIssuesMtie.cluster cl0).openSlot ≠ some (f5 1 6 0 0 0).f24.toNat ∧
    (rMatrixIssuesMtie.cluster cl0).wgqHas (f5 1 6 0 0 0).f24.toNat = false ∧
    (rMatrixIssuesMtie.tieGroup ((rMatrixIssuesMtie.slotOfCl cl0).getD 0) (bits ((rMatrixIssuesMtie.cluster cl0).sn (f5 1 6 0 0 0).f19) 2 0) (bits ((rMatrixIssuesMtie.cluster cl0).sn (f5 1 6 0 0 0).f19) 13 8)).isSome = true := by decide
def rMatrixIssuesRpush : State := runs (.rpush cl0 (f5 1 6 0 0 0)) wIssue
theorem witness_MatrixIssues_rpush :
    Fits rMatrixIssuesRpush cl0 (.rpush cl0 (f5 1 6 0 0 0)) (rMatrixIssuesRpush.pc cl0 + 4) ∧ (f5 1 6 0 0 0).f24.toNat < 16 ∧ (f5 1 6 0 0 0).f9 = 0 ∧ (rMatrixIssuesRpush.cluster cl0).readQ.length < 8 ∧
    (f5 1 6 0 0 0).f14 = 0 ∧ (f5 1 6 0 0 0).f4.toNat < 2 ∧ rMatrixIssuesRpush.slotBarred cl0 (rMatrixIssuesRpush.cluster cl0) (f5 1 6 0 0 0).f24.toNat = false := by decide
theorem witness_ArrayMoves_kStep :
    wKgo.slotOfCl cl0 = some 0 ∧ wKgo.rotHeld cl0 = false ∧ (wKgo.cluster cl0).chunkEnded = false ∧ (wKgo.cluster cl0).wgq = [] ∧
    (wKgo.cluster cl0).arrQ = [arrE 9 0] ∧ (wKgo.cluster cl0).aBuf = [a0] ∧ (wKgo.cluster cl0).bBuf = [b0] := by refine ⟨?_, ?_, ?_, ?_, ?_, ?_, ?_⟩ <;> first | rfl | decide
theorem witness_ArrayMoves_kStepEnd :
    wKend.slotOfCl cl0 = some 0 ∧ wKend.rotHeld cl0 = false ∧ (wKend.cluster cl0).chunkEnded = false ∧ (wKend.cluster cl0).wgq = [] ∧
    (wKend.cluster cl0).arrQ = [arrE 1 0] ∧ (wKend.cluster cl0).aBuf = [a0] ∧ (wKend.cluster cl0).bBuf = [b0] := by refine ⟨?_, ?_, ?_, ?_, ?_, ?_, ?_⟩ <;> first | rfl | decide
theorem witness_ArrayMoves_kStepWgq :
    wWgqGo.slotOfCl cl0 = some 0 ∧ wWgqGo.rotHeld cl0 = false ∧ (wWgqGo.cluster cl0).chunkEnded = false ∧ (wWgqGo.cluster cl0).wgq = [wgqGo] ∧ wgqGo.wstate = 2 ∧
    (wWgqGo.cluster cl0).drainPrio = true ∧ wWgqGo.drainBefore cl0 0 wgqGo.ord [(0, recBytes 1 false), (0x4000, recBytes 1 true)] = false ∧
    (wWgqGo.cluster cl0).chunkK + 1 ≠ wgqGo.cfg.chunk ∧ wgqGo.done + 1 ≠ wgqGo.ksteps := by decide
theorem witness_ArrayMoves_merge :
    wMerge.slotOfCl cl0 = some 0 ∧ (wMerge.cluster cl0).latch = some chunk1 ∧ (∀ r ∈ (wMerge.cluster cl0).readQ, r.slot = chunk1.slot → chunk1.ord ≤ r.ord) ∧
    (wMerge.cluster cl0).chunkEnded = false := by decide
theorem witness_ArrayMoves_mergeNext :
    wMergeNext.slotOfCl cl0 = some 0 ∧ (wMergeNext.cluster cl0).latch = some chunk1 ∧ (∀ r ∈ (wMergeNext.cluster cl0).readQ, r.slot = chunk1.slot → chunk1.ord ≤ r.ord) ∧
    (wMergeNext.cluster cl0).chunkEnded = true := by decide
theorem witness_ArrayMoves_wgq :
    wWgq.slotOfCl cl0 = some 0 ∧ wWgq.rotHeld cl0 = false ∧ (wWgq.cluster cl0).wgq = [wgqE] ∧ wgqE.wstate = 1 ∧
    (wWgq.cluster cl0).chunk = none ∧ (wWgq.cluster cl0).chunkEnded = false ∧ (wWgq.cluster cl0).arrOpen = false ∧ (wWgq.cluster cl0).arrQ = [] ∧
    (wWgq.cluster cl0).loadQ = [] ∧ (wWgq.cluster cl0).aBuf = [] ∧ (wWgq.cluster cl0).bBuf = [] ∧ (wWgq.cluster cl0).openSlot = none := by decide
theorem witness_ArrayMoves_push :
    wPush.slotOfCl cl0 = some 0 ∧ (wPush.cluster cl0).readQ = [readE 2 0 0] ∧ (readE 2 0 0).kind = 2 ∧
    (readE 2 0 0).done = false ∧ (wPush.cluster cl0).push.length < 2 ∧
    (wPush.cluster cl0).mergePending (readE 2 0 0).slot (readE 2 0 0).ord = false := by decide
theorem witness_ReadoutsEnd_mdrn :
    wRead.slotOfCl cl0 = some 0 ∧ (wRead.cluster cl0).readQ = [readE 0 64 0] ∧ (readE 0 64 0).slot < 16 ∧
    (wRead.cluster cl0).castQ = [] ∧ (wRead.cluster cl0).wgq = [] ∧
    (wRead.cluster cl0).mergePending (readE 0 64 0).slot (readE 0 64 0).ord = false ∧
    (wRead.castTarget 0 (readE 0 64 0).x (if (readE 0 64 0).x = true then bits (BitVec.toNat (readE 0 64 0).b) 3 0 else bits (BitVec.toNat (readE 0 64 0).b) 15 0) = some tg0) ∧
    wRead.castWaits 0 (readE 0 64 0).pstep tg0 = false ∧ (readE 0 64 0).kind = 0 ∧ tg0.twin = false := by decide
theorem witness_ReadoutsEnd_pushTaken :
    (wCl { ClusterSt.init with readQ := [{ readE 2 0 0 with done := true }] }).slotOfCl cl0 = some 0 ∧ (readE 2 0 0).kind ≠ 0 ∧ (readE 2 0 0).slot < 16 ∧
    ((wCl { ClusterSt.init with readQ := [{ readE 2 0 0 with done := true }] }).cluster cl0).readQ = [{ readE 2 0 0 with done := true }] := by decide
theorem witness_ReadoutsEnd_pushWaits :
    wPush.slotOfCl cl0 = some 0 ∧ (wPush.cluster cl0).readQ = [readE 2 0 0] ∧ (readE 2 0 0).slot < 16 ∧ (wPush.cluster cl0).castQ = [] ∧
    (wPush.cluster cl0).mergePending (readE 2 0 0).slot (readE 2 0 0).ord = false ∧ (readE 2 0 0).kind ≠ 0 ∧ (readE 2 0 0).done = false := by decide
theorem witness_ReadoutsEnd_cast :
    wCast.slotOfCl cl0 = some 0 ∧ (wCast.cluster cl0).castQ = [castJ] ∧ wCast.castReady cl0 0 castJ = true := by decide
theorem witness_ReadoutsEnd_tie :
    wTie.slotOfCl cl0 = some 0 ∧ (wTie.cluster cl0).readQ = [readE 1 0 0] ∧ (readE 1 0 0).kind = 1 ∧
    (readE 1 0 0).done = false ∧ (wTie.cluster cl0).mergePending (readE 1 0 0).slot (readE 1 0 0).ord = false ∧
    (wTie.slot 0).prog = some (prog 2) ∧
    wTie.tieGroup 0 (bits (BitVec.toNat (readE 1 0 0).a) 2 0) (bits (BitVec.toNat (readE 1 0 0).a) 13 8) = some (tieG 2) ∧
    (wTie.tiePlace 0 (prog 2).ties (tieG 2) ((wTie.cluster cl0).aslot (readE 1 0 0).slot).tile = some (cl0, 15)) ∧
    ((wTie.cluster cl0).aslot (readE 1 0 0).slot).tile < (tieG 2).tiles ∧
    (wTie.tie 0 (tieG 2).group ((wTie.cluster cl0).aslot (readE 1 0 0).slot).tile).uses = bits (BitVec.toNat (readE 1 0 0).a) 13 8 ∧
    (readE 1 0 0).pstep = (wTie.slot 0).startStep + (wTie.tie 0 (tieG 2).group ((wTie.cluster cl0).aslot (readE 1 0 0).slot).tile).steps ∧
    (wTie.cluster cl0).push.length < 2 := by decide
theorem witness_ReadoutsEnd_tieLast :
    wTie1.slotOfCl cl0 = some 0 ∧ (wTie1.cluster cl0).readQ = [readE 1 0 0] ∧ (readE 1 0 0).kind = 1 ∧
    (readE 1 0 0).done = false ∧ (wTie1.cluster cl0).mergePending (readE 1 0 0).slot (readE 1 0 0).ord = false ∧
    (wTie1.slot 0).prog = some (prog 1) ∧
    wTie1.tieGroup 0 (bits (BitVec.toNat (readE 1 0 0).a) 2 0) (bits (BitVec.toNat (readE 1 0 0).a) 13 8) = some (tieG 1) ∧
    (wTie1.tiePlace 0 (prog 1).ties (tieG 1) ((wTie1.cluster cl0).aslot (readE 1 0 0).slot).tile = some (cl0, 15)) ∧
    ((wTie1.cluster cl0).aslot (readE 1 0 0).slot).tile < (tieG 1).tiles ∧
    (wTie1.tie 0 (tieG 1).group ((wTie1.cluster cl0).aslot (readE 1 0 0).slot).tile).uses = bits (BitVec.toNat (readE 1 0 0).a) 13 8 ∧
    (readE 1 0 0).pstep = (wTie1.slot 0).startStep + (wTie1.tie 0 (tieG 1).group ((wTie1.cluster cl0).aslot (readE 1 0 0).slot).tile).steps ∧
    (wTie1.cluster cl0).push.length < 2 := by decide
def rDmaMovesIssue : State := runs (.dq cl0 (f5 8 3 6 0 0)) wDqIssue
theorem witness_DmaMoves_issue :
    rDmaMovesIssue.slotOfCl cl0 = some 0 ∧ Fits rDmaMovesIssue cl0 (.dq cl0 (f5 8 3 6 0 0)) (rDmaMovesIssue.pc cl0 + 4) ∧
    rDmaMovesIssue.descOf 0 (bits ((rDmaMovesIssue.cluster cl0).sn (f5 8 3 6 0 0).f19) 63 48) = some dd ∧ (f5 8 3 6 0 0).f4.toNat < 8 ∧
    bit (f5 8 3 6 0 0).f4.toNat 1 = false ∧ bit (f5 8 3 6 0 0).f4.toNat 2 = false ∧ bits ((rDmaMovesIssue.cluster cl0).sn (f5 8 3 6 0 0).f9) 63 62 = 0 ∧
    bits ((rDmaMovesIssue.cluster cl0).sn (f5 8 3 6 0 0).f9) 31 21 = 0 ∧ bits ((rDmaMovesIssue.cluster cl0).sn (f5 8 3 6 0 0).f19) 47 21 = 0 ∧
    bits ((rDmaMovesIssue.cluster cl0).sn (f5 8 3 6 0 0).f14) 41 21 = 0 ∧ dd.epoched = false ∧ dd.stash = none ∧
    ((if bit (f5 8 3 6 0 0).f4.toNat 0 = true then bit dd.flags 1 else bit dd.flags 0) = true) ∧
    bits ((rDmaMovesIssue.cluster cl0).sn (f5 8 3 6 0 0).f14) 20 0 + bits ((rDmaMovesIssue.cluster cl0).sn (f5 8 3 6 0 0).f14) 62 42 ≤ dd.length ∧
    bits ((rDmaMovesIssue.cluster cl0).sn (f5 8 3 6 0 0).f19) 20 0 % 64 = 0 ∧ bits ((rDmaMovesIssue.cluster cl0).sn (f5 8 3 6 0 0).f14) 62 42 % 64 = 0 ∧
    bits ((rDmaMovesIssue.cluster cl0).sn (f5 8 3 6 0 0).f14) 62 42 ≠ 0 ∧ bits ((rDmaMovesIssue.cluster cl0).sn (f5 8 3 6 0 0).f14) 20 0 % 64 = 0 ∧
    bits ((rDmaMovesIssue.cluster cl0).sn (f5 8 3 6 0 0).f19) 20 0 + bits ((rDmaMovesIssue.cluster cl0).sn (f5 8 3 6 0 0).f14) 62 42 ≤ tileSize ∧
    (rDmaMovesIssue.cluster cl0).dqs.length < 16 := by decide
/-- Two rows of 64 bytes, 128 apart: S4 holds ROWS − 1 in bits 43 to 32 and the stride. -/
def rDqRows : State := runs (.dq cl0 (f5 8 3 6 4 4)) (wProgC (regsC [(3, 64), (6, 64 * 2^42), (4, 2^32 + 128)]))
theorem witness_DmaMoves_rows :
    rDqRows.slotOfCl cl0 = some 0 ∧ Fits rDqRows cl0 (.dq cl0 (f5 8 3 6 4 4)) (rDqRows.pc cl0 + 4) ∧ bit (f5 8 3 6 4 4).f4.toNat 2 = true ∧
    bit (f5 8 3 6 4 4).f4.toNat 1 = false ∧ bits ((rDqRows.cluster cl0).sn (f5 8 3 6 4 4).f9) 43 32 + 1 = 2 ∧
    bits ((rDqRows.cluster cl0).sn (f5 8 3 6 4 4).f9) 20 0 = 128 ∧ 0 + (2 - 1) * 128 + 64 ≤ dd.length := by decide
theorem witness_DmaMoves_complete :
    HomeServes wDqDone (wDqDone.dqLines 0 0 dd dqE0) ∧ wDqDone.slotOfCl cl0 = some 0 ∧ (List.find? (fun y => y.seq == dqE0.seq) (wDqDone.cluster cl0).dqs = some dqE0) ∧
    wDqDone.descOf 0 dqE0.desc = some dd ∧ wDqDone.stopped = false ∧ dqE0.waitsEpoch = false ∧ dqE0.held = none ∧ dqE0.mc = 0 ∧ dd.stash = none ∧
    (∀ k ∈ dqPages dd dqE0, ((dqFrames dd dqE0.e)[k]?).join.isSome = true) := ⟨serves rfl rfl rfl rfl rfl rfl rfl _, by decide⟩
theorem witness_ClusterRoles_fault :
    cl0.wf = true ∧ wRun.role cl0 ≠ 3 := by decide
theorem witness_ClusterRoles_corrected :
    cl0.wf = true ∧ (6, F.CL_ECC_TS_CE cl0.die cl0.idx) ∈ [(6, F.CL_ECC_TS_CE cl0.die cl0.idx), (7, F.CL_ECC_ACC_CE cl0.die cl0.idx)] := ⟨rfl, by simp⟩
theorem witness_ClusterRoles_commit :
    0 < 8 ∧ 0 < 4 ∧ (rot0 false).out < 288 ∧ (rot0 false).inn < 288 ∧ (rot0 false).out ≠ (rot0 false).inn ∧
    (wRot false).rot (4 * 0 + 0) = some (rot0 false) ∧ ((wRot false).due 4 (4 * 0 + 0)).isSome = true ∧ (wRot false).turn 6 = true ∧ (wRot false).stopped = false ∧
    (((wRot false).cluster { die := 0, idx := (rot0 false).out }).arrayIdle = true) ∧
    ((wRot false).role { die := 0, idx := (rot0 false).inn } = 1) ∧ (((wRot false).cluster { die := 0, idx := (rot0 false).inn }).tested = true) := by decide
theorem witness_ClusterRoles_rotated :
    0 < 8 ∧ 0 < 4 ∧ (rot0 true).out < 288 ∧ (rot0 true).inn < 288 ∧ (rot0 true).out ≠ (rot0 true).inn ∧
    (wRot true).rot (4 * 0 + 0) = some (rot0 true) ∧ (rot0 true).holding = true ∧ (wRot true).role ⟨0, (rot0 true).out⟩ = 4 ∧ (wRot true).role ⟨0, (rot0 true).inn⟩ = 1 ∧
    ((wRot true).cluster ⟨0, (rot0 true).out⟩).readQ = [] ∧ ((wRot true).cluster ⟨0, (rot0 true).out⟩).castQ = [] := by decide
theorem witness_ClusterRoles_drain :
    wDrain.slotState 0 = 2 ∧ (wDrain.slot 0).drained = false ∧ wDrain.rd (F.HRD_MARK_H 0) - wDrain.rd (F.HRD_SCHED_DRAIN_LEAD 0) ≤ wDrain.now := by decide
theorem witness_LapMarks_advances :
    2 ≤ wLap.rd F.LAP_STATUS_STATE ∧ wLap.lap.demoted = false ∧ (wLap.lap.originates = true ∨ wLap.lap.marks = []) ∧ wLap.votes = [] ∧
    (∀ a ∈ wLap.arms, (wLap.now + 1) % 2 ^ 64 < a.t) ∧
    (∀ j < 16, (wLap.slot j).ck.dec = none) := by decide
/-- Job 7's halt was armed for lap 41, which passes. -/
def wPassed : State :=
  let s := setF wJob [(F.LAP_STATUS_STATE, 2), (F.LAP_COUNT_COUNT, 41)]
  { s with arms := [⟨3, 0, 41, true⟩], lap := { s.lap with originates := true } }
theorem witness_LapMarks_passed :
    1 ≤ 3 ∧ 3 ≤ 3 ∧ 0 < 16 ∧ wPassed.arms = [⟨3, 0, 41, true⟩] ∧ 41 ≤ wPassed.now ∧ wPassed.now + 1 < 2 ^ 64 ∧ wPassed.slotState 0 = 2 ∧ wPassed.stopped = false ∧
    wPassed.votes = [] ∧ 2 ≤ wPassed.rd F.LAP_STATUS_STATE ∧ wPassed.lap.demoted = false ∧ wPassed.lap.originates = true := by decide
theorem witness_LapMarks_masterStarts :
    wMaster.lap.demoted = false ∧ wMaster.arms = [] ∧ wMaster.votes = [] ∧ wMaster.rd F.LAP_STATUS_STATE = 0 ∧ wMaster.rd F.LAP_STATUS_ROLE = 1 ∧ wMaster.rails = true ∧
    6 ≤ wMaster.rd F.STR_START_STATE ∧ wMaster.rd F.STR_START_STATE ≤ 8 ∧ wMaster.rd F.LAP_CFG_REF_EN = 1 := by decide
theorem witness_LapMarks_adopts :
    wAcq.lap.demoted = false ∧ wAcq.arms = [] ∧ wAcq.votes = [] ∧ wAcq.lap.marks = [mk0] ∧ wAcq.rd F.LAP_STATUS_STATE = 1 ∧ wAcq.lap.originates = false ∧ wAcq.lap.adopted = false ∧
    wAcq.lap.lockHops = none ∧ mk0.port < 52 ∧ wAcq.rd (F.LAP_PORT_DELAY_VALID mk0.port) = 1 ∧
    (∀ j < 16, (wAcq.slot j).ck.dec = none) := by decide
theorem witness_LapTransitions_locks :
    wLock.rd F.LAP_STATUS_STATE = 1 ∧ wLock.lap.adopted = true ∧ 64 ≤ wLock.okRun := by decide
theorem witness_LapTransitions_lost :
    wQuiet.rd F.LAP_STATUS_STATE = 2 ∧ wQuiet.lap.originates = false ∧ 4 ≤ wQuiet.lap.quiet := by decide
theorem witness_LapTransitions_holdover :
    wHold.rd F.LAP_STATUS_STATE = 3 ∧ wHold.lap.reported = false ∧ tenSeconds ≤ wHold.rd F.LAP_HOLD_HOLD_LAPS := by decide
theorem witness_LapTransitions_relocked :
    wRelock.rd F.LAP_STATUS_STATE = 4 ∧ 64 ≤ wRelock.okRun := by decide
theorem witness_LapTransitions_switch :
    wSwitch.rd F.LAP_STATUS_STATE = 2 ∧ wSwitch.lap.originates = false ∧ 2 ≤ wSwitch.lap.quietUp ∧ wSwitch.bestMark wSwitch.lap.last = some mk0 := by decide
theorem witness_LapTransitions_takeover :
    wTake.rd F.LAP_STATUS_ROLE = 2 ∧ 2 ≤ wTake.rd F.LAP_STATUS_STATE ∧ 8 ≤ wTake.lap.quietEpoch ∧ wTake.lap.stuck = false ∧
    (16 ≤ (List.filter (fun p => wTake.portUp p && wTake.rd (F.ACM_PORT_STAT_ROLE p) == 0) (List.range 52)).length) := by decide
theorem witness_LapSources_bad :
    wUp.portUp 5 = true ∧ bits lmosBad.toNat 127 120 = 108 ∧ checkGood lmosBad = false := by decide
def wFollow : State := State.reset.wr (F.ACM_PORT_STAT_STATE 5) 7
theorem witness_LapSources_mark :
    wFollow.portUp 5 = true ∧ bits lmosW.toNat 127 120 = 108 ∧ checkGood lmosW = true ∧ bit lmosW.toNat 117 = false ∧ wFollow.lap.topEpoch ≤ bits lmosW.toNat 111 96 ∧
    bits lmosW.toNat 79 16 ≤ wFollow.now + 1 ∧ wFollow.now ≤ bits lmosW.toNat 79 16 + 1 ∧ wFollow.rd F.LAP_STATUS_ROLE ≠ 1 := by decide
def wOrig : State := { wUp with lap := { wUp.lap with originates := true } }
theorem witness_LapSources_deposed :
    wOrig.portUp 5 = true ∧ bits lmosW.toNat 127 120 = 108 ∧ checkGood lmosW = true ∧ bit lmosW.toNat 117 = false ∧ wOrig.lap.topEpoch ≤ bits lmosW.toNat 111 96 ∧
    bits lmosW.toNat 79 16 ≤ wOrig.now + 1 ∧ wOrig.now ≤ bits lmosW.toNat 79 16 + 1 ∧ wOrig.rd F.LAP_STATUS_ROLE = 1 ∧
    wOrig.rd F.LAP_STATUS_EPOCH < bits lmosW.toNat 111 96 := by decide
theorem witness_LapSources_dreq :
    bits dreqW.toNat 127 120 = 100 ∧ checkGood dreqW = true ∧ wUp.portUp 5 = true := by decide
theorem witness_LapSources_drsp :
    bits drspW.toNat 127 120 = 101 ∧ checkGood drspW = true ∧ wUp.portUp 5 = true ∧ wUp.lap.asked.contains 5 = true ∧
    (bits drspW.toNat 43 16 = (sget (fun x => PortSt.init) wUp.ports 5).dreq % 2 ^ 28) := by decide
theorem witness_LapSources_pps :
    wUp.rd F.LAP_STATUS_ROLE = 1 := by decide
theorem witness_LapSources_lost :
    wUp.rd F.LAP_STATUS_ROLE = 1 ∧ (true || false) = true := by decide
theorem witness_LapSources_restored :
    wUp.rd F.LAP_STATUS_ROLE = 1 := by decide
theorem witness_Collectors_svote :
    (wCol 32).slotOfJob (voteJob svote) = some 0 ∧ (wCol 32).inPre 0 = true ∧ voteGood ((wCol 32).preVote 0 (voteKey 0 svote)).kind svote = true ∧
    collects ((wCol 32).members 0) ((wCol 32).preVote 0 (voteKey 0 svote)).mirror ((wCol 32).modIdx 0) 1 = true ∧
    voteSender ((wCol 32).preVote 0 (voteKey 0 svote)).kind svote < (wCol 32).members 0 ∧
    voteSender ((wCol 32).preVote 0 (voteKey 0 svote)).kind svote / treeSpan 1 = (wCol 32).modIdx 0 / treeSpan 1 ∧
    (wCol 32).now ≤ voteClosing ((wCol 32).preVote 0 (voteKey 0 svote)).kind ((wCol 32).preVote 0 (voteKey 0 svote)).base ((wCol 32).members 0) 1 ∧
    1 ∉ ((wCol 32).vote ((wCol 32).preVote 0 (voteKey 0 svote)).kind ((wCol 32).rd (F.STR_SLOT_JOB_ID 0)) ((wCol 32).preVote 0 (voteKey 0 svote)).key).closed := by decide
theorem witness_Collectors_spart :
    (wCol 0).slotOfJob (voteJob spart) = some 0 ∧ (wCol 0).inPre 0 = true ∧ voteGood ((wCol 0).preVote 0 (voteKey 0 spart)).kind spart = true ∧
    collects ((wCol 0).members 0) ((wCol 0).preVote 0 (voteKey 0 spart)).mirror ((wCol 0).modIdx 0) (spart.byte 3 + 1) = true ∧
    voteSender ((wCol 0).preVote 0 (voteKey 0 spart)).kind spart < (wCol 0).members 0 ∧
    voteSender ((wCol 0).preVote 0 (voteKey 0 spart)).kind spart / treeSpan (spart.byte 3 + 1) = (wCol 0).modIdx 0 / treeSpan (spart.byte 3 + 1) ∧
    (wCol 0).now ≤ voteClosing ((wCol 0).preVote 0 (voteKey 0 spart)).kind ((wCol 0).preVote 0 (voteKey 0 spart)).base ((wCol 0).members 0) (spart.byte 3 + 1) ∧
    spart.byte 3 + 1 ∉ ((wCol 0).vote ((wCol 0).preVote 0 (voteKey 0 spart)).kind ((wCol 0).rd (F.STR_SLOT_JOB_ID 0)) ((wCol 0).preVote 0 (voteKey 0 spart)).key).closed := by decide
theorem witness_Collectors_pcon :
    (pace (wCol 32)).slotOfJob (voteJob pcon) = some 0 ∧ (pace (wCol 32)).slotState 0 = 2 ∧
    ((pace (wCol 32)).slot 0).paceAt = some (voteKey 1 pcon) ∧ pcon.byte 0 = 112 ∧
    voteGood ((pace (wCol 32)).paceVote 0 (voteKey 1 pcon)).kind pcon = true ∧
    collects ((pace (wCol 32)).members 0) ((pace (wCol 32)).paceVote 0 (voteKey 1 pcon)).mirror ((pace (wCol 32)).modIdx 0) 1 = true ∧
    voteSender ((pace (wCol 32)).paceVote 0 (voteKey 1 pcon)).kind pcon < (pace (wCol 32)).members 0 ∧
    voteSender ((pace (wCol 32)).paceVote 0 (voteKey 1 pcon)).kind pcon / treeSpan 1 = (pace (wCol 32)).modIdx 0 / treeSpan 1 ∧
    (pace (wCol 32)).now ≤ voteClosing ((pace (wCol 32)).paceVote 0 (voteKey 1 pcon)).kind ((pace (wCol 32)).paceVote 0 (voteKey 1 pcon)).base ((pace (wCol 32)).members 0) 1 ∧
    1 ∉ ((pace (wCol 32)).vote ((pace (wCol 32)).paceVote 0 (voteKey 1 pcon)).kind ((pace (wCol 32)).rd (F.STR_SLOT_JOB_ID 0)) ((pace (wCol 32)).paceVote 0 (voteKey 1 pcon)).key).closed := by decide
theorem witness_Collectors_ppart :
    (pace (wCol 0)).slotOfJob (voteJob ppart) = some 0 ∧ (pace (wCol 0)).slotState 0 = 2 ∧
    ((pace (wCol 0)).slot 0).paceAt = some (voteKey 1 ppart) ∧ ppart.byte 0 = 113 ∧
    voteGood ((pace (wCol 0)).paceVote 0 (voteKey 1 ppart)).kind ppart = true ∧
    collects ((pace (wCol 0)).members 0) ((pace (wCol 0)).paceVote 0 (voteKey 1 ppart)).mirror ((pace (wCol 0)).modIdx 0) (ppart.byte 3 + 1) = true ∧
    voteSender ((pace (wCol 0)).paceVote 0 (voteKey 1 ppart)).kind ppart < (pace (wCol 0)).members 0 ∧
    voteSender ((pace (wCol 0)).paceVote 0 (voteKey 1 ppart)).kind ppart / treeSpan (ppart.byte 3 + 1) = (pace (wCol 0)).modIdx 0 / treeSpan (ppart.byte 3 + 1) ∧
    (pace (wCol 0)).now ≤ voteClosing ((pace (wCol 0)).paceVote 0 (voteKey 1 ppart)).kind ((pace (wCol 0)).paceVote 0 (voteKey 1 ppart)).base ((pace (wCol 0)).members 0) (ppart.byte 3 + 1) ∧
    ppart.byte 3 + 1 ∉ ((pace (wCol 0)).vote ((pace (wCol 0)).paceVote 0 (voteKey 1 ppart)).kind ((pace (wCol 0)).rd (F.STR_SLOT_JOB_ID 0)) ((pace (wCol 0)).paceVote 0 (voteKey 1 ppart)).key).closed := by decide
theorem witness_Collectors_hcon :
    (hurdle (wCol 32)).slotOfJob (voteJob hcon) = some 0 ∧ (hurdle (wCol 32)).inVote 0 = true ∧ voteKey 2 hcon = (hurdle (wCol 32)).step 0 ∧
    voteGood ((hurdle (wCol 32)).hurdleVote 0).kind hcon = true ∧
    collects ((hurdle (wCol 32)).members 0) ((hurdle (wCol 32)).hurdleVote 0).mirror ((hurdle (wCol 32)).modIdx 0) 1 = true ∧
    voteSender ((hurdle (wCol 32)).hurdleVote 0).kind hcon < (hurdle (wCol 32)).members 0 ∧
    voteSender ((hurdle (wCol 32)).hurdleVote 0).kind hcon / treeSpan 1 = (hurdle (wCol 32)).modIdx 0 / treeSpan 1 ∧
    (hurdle (wCol 32)).now ≤ voteClosing ((hurdle (wCol 32)).hurdleVote 0).kind ((hurdle (wCol 32)).hurdleVote 0).base ((hurdle (wCol 32)).members 0) 1 ∧
    1 ∉ ((hurdle (wCol 32)).vote ((hurdle (wCol 32)).hurdleVote 0).kind ((hurdle (wCol 32)).rd (F.STR_SLOT_JOB_ID 0)) ((hurdle (wCol 32)).hurdleVote 0).key).closed := by decide
theorem witness_Collectors_hpart :
    (hurdle (wCol 0)).slotOfJob (voteJob hpart) = some 0 ∧ (hurdle (wCol 0)).inVote 0 = true ∧ voteKey 2 hpart = (hurdle (wCol 0)).step 0 ∧
    voteGood ((hurdle (wCol 0)).hurdleVote 0).kind hpart = true ∧
    collects ((hurdle (wCol 0)).members 0) ((hurdle (wCol 0)).hurdleVote 0).mirror ((hurdle (wCol 0)).modIdx 0) (hpart.byte 3 + 1) = true ∧
    voteSender ((hurdle (wCol 0)).hurdleVote 0).kind hpart < (hurdle (wCol 0)).members 0 ∧
    voteSender ((hurdle (wCol 0)).hurdleVote 0).kind hpart / treeSpan (hpart.byte 3 + 1) = (hurdle (wCol 0)).modIdx 0 / treeSpan (hpart.byte 3 + 1) ∧
    (hurdle (wCol 0)).now ≤ voteClosing ((hurdle (wCol 0)).hurdleVote 0).kind ((hurdle (wCol 0)).hurdleVote 0).base ((hurdle (wCol 0)).members 0) (hpart.byte 3 + 1) ∧
    hpart.byte 3 + 1 ∉ ((hurdle (wCol 0)).vote ((hurdle (wCol 0)).hurdleVote 0).kind ((hurdle (wCol 0)).rd (F.STR_SLOT_JOB_ID 0)) ((hurdle (wCol 0)).hurdleVote 0).key).closed := by decide
theorem witness_Collectors_ckcon :
    (halt (wCol 32)).slotOfJob (voteJob ckcon) = some 0 ∧ (halt (wCol 32)).slotState 0 = 3 ∧ voteKey 3 ckcon = (halt (wCol 32)).kLap 0 ∧
    ckcon.byte 0 = 67 ∧ voteGood ((halt (wCol 32)).ckVote 0 ((halt (wCol 32)).kLap 0)).kind ckcon = true ∧
    collects ((halt (wCol 32)).members 0) ((halt (wCol 32)).ckVote 0 ((halt (wCol 32)).kLap 0)).mirror ((halt (wCol 32)).modIdx 0) 1 = true ∧
    voteSender ((halt (wCol 32)).ckVote 0 ((halt (wCol 32)).kLap 0)).kind ckcon < (halt (wCol 32)).members 0 ∧
    voteSender ((halt (wCol 32)).ckVote 0 ((halt (wCol 32)).kLap 0)).kind ckcon / treeSpan 1 = (halt (wCol 32)).modIdx 0 / treeSpan 1 ∧
    (halt (wCol 32)).now ≤ voteClosing ((halt (wCol 32)).ckVote 0 ((halt (wCol 32)).kLap 0)).kind ((halt (wCol 32)).ckVote 0 ((halt (wCol 32)).kLap 0)).base ((halt (wCol 32)).members 0) 1 ∧
    1 ∉ ((halt (wCol 32)).vote ((halt (wCol 32)).ckVote 0 ((halt (wCol 32)).kLap 0)).kind ((halt (wCol 32)).rd (F.STR_SLOT_JOB_ID 0)) ((halt (wCol 32)).ckVote 0 ((halt (wCol 32)).kLap 0)).key).closed := by decide
theorem witness_Collectors_ckpart :
    (halt (wCol 0)).slotOfJob (voteJob ckpart) = some 0 ∧ (halt (wCol 0)).slotState 0 = 3 ∧ voteKey 3 ckpart = (halt (wCol 0)).kLap 0 ∧
    ckpart.byte 0 = 68 ∧ voteGood ((halt (wCol 0)).ckVote 0 ((halt (wCol 0)).kLap 0)).kind ckpart = true ∧
    collects ((halt (wCol 0)).members 0) ((halt (wCol 0)).ckVote 0 ((halt (wCol 0)).kLap 0)).mirror ((halt (wCol 0)).modIdx 0) (ckpart.byte 3 + 1) = true ∧
    voteSender ((halt (wCol 0)).ckVote 0 ((halt (wCol 0)).kLap 0)).kind ckpart < (halt (wCol 0)).members 0 ∧
    voteSender ((halt (wCol 0)).ckVote 0 ((halt (wCol 0)).kLap 0)).kind ckpart / treeSpan (ckpart.byte 3 + 1) = (halt (wCol 0)).modIdx 0 / treeSpan (ckpart.byte 3 + 1) ∧
    (halt (wCol 0)).now ≤ voteClosing ((halt (wCol 0)).ckVote 0 ((halt (wCol 0)).kLap 0)).kind ((halt (wCol 0)).ckVote 0 ((halt (wCol 0)).kLap 0)).base ((halt (wCol 0)).members 0) (ckpart.byte 3 + 1) ∧
    ckpart.byte 3 + 1 ∉ ((halt (wCol 0)).vote ((halt (wCol 0)).ckVote 0 ((halt (wCol 0)).kLap 0)).kind ((halt (wCol 0)).rd (F.STR_SLOT_JOB_ID 0)) ((halt (wCol 0)).ckVote 0 ((halt (wCol 0)).kLap 0)).key).closed := by decide
theorem witness_Collectors_preCloses :
    (late (wCol 32) 60).slotOfJob ((late (wCol 32) 60).rd (F.STR_SLOT_JOB_ID 0)) = some 0 ∧ (late (wCol 32) 60).inPre 0 = true ∧
    collects ((late (wCol 32) 60).members 0) ((late (wCol 32) 60).preVote 0 100).mirror ((late (wCol 32) 60).modIdx 0) 1 = true ∧
    1 ≠ treeLevels ((late (wCol 32) 60).members 0) ∧
    voteClosing ((late (wCol 32) 60).preVote 0 100).kind ((late (wCol 32) 60).preVote 0 100).base ((late (wCol 32) 60).members 0) 1 ≤ (late (wCol 32) 60).now ∧
    1 ∉ ((late (wCol 32) 60).vote ((late (wCol 32) 60).preVote 0 100).kind ((late (wCol 32) 60).rd (F.STR_SLOT_JOB_ID 0)) ((late (wCol 32) 60).preVote 0 100).key).closed ∧
    (late (wCol 32) 60).modIdx 0 ∉ nodeCollectors ((late (wCol 32) 60).members 0) ((late (wCol 32) 60).preVote 0 100).mirror (1 + 1) ((late (wCol 32) 60).modIdx 0 / treeSpan (1 + 1)) := by decide
theorem witness_Collectors_paceCloses :
    ((late (pace (wCol 32)) 4101).slot 0).paceAt = some 4096 ∧ (late (pace (wCol 32)) 4101).slotState 0 = 2 ∧
    collects ((late (pace (wCol 32)) 4101).members 0) ((late (pace (wCol 32)) 4101).paceVote 0 4096).mirror ((late (pace (wCol 32)) 4101).modIdx 0) 1 = true ∧
    1 ≠ treeLevels ((late (pace (wCol 32)) 4101).members 0) ∧
    voteClosing ((late (pace (wCol 32)) 4101).paceVote 0 4096).kind ((late (pace (wCol 32)) 4101).paceVote 0 4096).base ((late (pace (wCol 32)) 4101).members 0) 1 ≤ (late (pace (wCol 32)) 4101).now ∧
    1 ∉ ((late (pace (wCol 32)) 4101).vote ((late (pace (wCol 32)) 4101).paceVote 0 4096).kind ((late (pace (wCol 32)) 4101).rd (F.STR_SLOT_JOB_ID 0)) ((late (pace (wCol 32)) 4101).paceVote 0 4096).key).closed ∧
    (late (pace (wCol 32)) 4101).modIdx 0 ∉ nodeCollectors ((late (pace (wCol 32)) 4101).members 0) ((late (pace (wCol 32)) 4101).paceVote 0 4096).mirror (1 + 1) ((late (pace (wCol 32)) 4101).modIdx 0 / treeSpan (1 + 1)) := by decide
theorem witness_Collectors_hurdleCloses :
    (late (hurdle (wCol 32)) 105).inVote 0 = true ∧ ((late (hurdle (wCol 32)) 105).slot 0).marked = true ∧
    collects ((late (hurdle (wCol 32)) 105).members 0) ((late (hurdle (wCol 32)) 105).hurdleVote 0).mirror ((late (hurdle (wCol 32)) 105).modIdx 0) 1 = true ∧
    1 ≠ treeLevels ((late (hurdle (wCol 32)) 105).members 0) ∧
    voteClosing ((late (hurdle (wCol 32)) 105).hurdleVote 0).kind ((late (hurdle (wCol 32)) 105).hurdleVote 0).base ((late (hurdle (wCol 32)) 105).members 0) 1 ≤ (late (hurdle (wCol 32)) 105).now ∧
    1 ∉ ((late (hurdle (wCol 32)) 105).vote ((late (hurdle (wCol 32)) 105).hurdleVote 0).kind ((late (hurdle (wCol 32)) 105).rd (F.STR_SLOT_JOB_ID 0)) ((late (hurdle (wCol 32)) 105).hurdleVote 0).key).closed ∧
    (late (hurdle (wCol 32)) 105).modIdx 0 ∉ nodeCollectors ((late (hurdle (wCol 32)) 105).members 0) ((late (hurdle (wCol 32)) 105).hurdleVote 0).mirror (1 + 1) ((late (hurdle (wCol 32)) 105).modIdx 0 / treeSpan (1 + 1)) := by decide
theorem witness_Collectors_ckCloses :
    (late (halt (wCol 32)) 105).slotState 0 = 3 ∧
    collects ((late (halt (wCol 32)) 105).members 0) ((late (halt (wCol 32)) 105).ckVote 0 ((late (halt (wCol 32)) 105).kLap 0)).mirror ((late (halt (wCol 32)) 105).modIdx 0) 1 = true ∧
    1 ≠ treeLevels ((late (halt (wCol 32)) 105).members 0) ∧
    voteClosing ((late (halt (wCol 32)) 105).ckVote 0 ((late (halt (wCol 32)) 105).kLap 0)).kind ((late (halt (wCol 32)) 105).ckVote 0 ((late (halt (wCol 32)) 105).kLap 0)).base ((late (halt (wCol 32)) 105).members 0) 1 ≤ (late (halt (wCol 32)) 105).now ∧
    1 ∉ ((late (halt (wCol 32)) 105).vote ((late (halt (wCol 32)) 105).ckVote 0 ((late (halt (wCol 32)) 105).kLap 0)).kind ((late (halt (wCol 32)) 105).rd (F.STR_SLOT_JOB_ID 0)) ((late (halt (wCol 32)) 105).ckVote 0 ((late (halt (wCol 32)) 105).kLap 0)).key).closed ∧
    (late (halt (wCol 32)) 105).modIdx 0 ∉ nodeCollectors ((late (halt (wCol 32)) 105).members 0) ((late (halt (wCol 32)) 105).ckVote 0 ((late (halt (wCol 32)) 105).kLap 0)).mirror (1 + 1) ((late (halt (wCol 32)) 105).modIdx 0 / treeSpan (1 + 1)) := by decide
theorem witness_DecisionsTaken_sdec :
    wArmed.slotOfJob (voteJob (sdec 0)) = some 0 ∧ wArmed.modIdx 0 ≠ 0 ∧
    (∀ k ∈ [1, 2, 3], ∀ (b : Bool), collects (wArmed.members 0) b (wArmed.modIdx 0) k = false) ∧ voteGood 0 (sdec 0) = true ∧
    wArmed.inPre 0 = true ∧ wArmed.areaState 0 = 2 ∧ wArmed.rd (F.SHD_STAT_JOB 0) = 1 ∧
    ({ kind := 0, who := 0, t := (sdec 0).le 8 8, job := true } ∈ wArmed.arms) := by decide
theorem witness_DecisionsTaken_sdecFails :
    wArmed.slotOfJob (voteJob (sdec 5)) = some 0 ∧ wArmed.modIdx 0 ≠ 0 ∧
    (∀ k ∈ [1, 2, 3], ∀ (b : Bool), collects (wArmed.members 0) b (wArmed.modIdx 0) k = false) ∧ voteGood 0 (sdec 5) = true ∧
    wArmed.inPre 0 = true ∧ wArmed.areaState 0 = 2 ∧ wArmed.rd (F.SHD_STAT_JOB 0) = 1 ∧
    ({ kind := 0, who := 0, t := (sdec 5).le 8 8, job := true } ∈ wArmed.arms) := by decide
theorem witness_DecisionsTaken_pdec :
    (pace (wCol 33)).slotOfJob (voteJob pdec) = some 0 ∧ (pace (wCol 33)).modIdx 0 ≠ 0 ∧
    (∀ k ∈ [1, 2, 3], ∀ (b : Bool), collects ((pace (wCol 33)).members 0) b ((pace (wCol 33)).modIdx 0) k = false) ∧ voteGood 1 pdec = true ∧
    pdec.byte 0 = 114 ∧ (pace (wCol 33)).slotState 0 = 2 ∧ ((pace (wCol 33)).slot 0).paceAt = some (voteKey 1 pdec) ∧
    ((pace (wCol 33)).slot 0).paceMsg = none ∧ ((pace (wCol 33)).vote 7 (voteJob pdec) (voteKey 1 pdec)).closed = [] ∧
    (pace (wCol 33)).now ≤ 4080 + voteKey 1 pdec ∧ (pace (wCol 33)).armReason (4096 + voteKey 1 pdec) true = none := by decide
theorem witness_DecisionsTaken_outcome :
    (hurdle (wCol 33)).slotOfJob (voteJob (hout 0)) = some 0 ∧ (hurdle (wCol 33)).modIdx 0 ≠ 0 ∧
    (∀ k ∈ [1, 2, 3], ∀ (b : Bool), collects ((hurdle (wCol 33)).members 0) b ((hurdle (wCol 33)).modIdx 0) k = false) ∧
    voteGood 2 (hout 0) = true ∧ (hurdle (wCol 33)).slotState 0 = 2 ∧ voteKey 2 (hout 0) = (hurdle (wCol 33)).step 0 ∧
    ((hurdle (wCol 33)).vote 5 (voteJob (hout 0)) (voteKey 2 (hout 0))).closed = [] ∧ ((hurdle (wCol 33)).slot 0).outMsg = none ∧
    ((hurdle (wCol 33)).slot 0).outLate = none ∧ (hurdle (wCol 33)).now ≤ (hurdle (wCol 33)).hMark 0 + 16 ∧
    (hurdle (wCol 33)).armReason ((hout 0).le 24 8) true = none := by decide
theorem witness_DecisionsTaken_ckdec :
    (halt (wCol 33)).slotOfJob (voteJob ckdec) = some 0 ∧ (halt (wCol 33)).modIdx 0 ≠ 0 ∧
    (∀ k ∈ [1, 2, 3], ∀ (b : Bool), collects ((halt (wCol 33)).members 0) b ((halt (wCol 33)).modIdx 0) k = false) ∧ voteGood 3 ckdec = true ∧
    ckdec.byte 0 = 69 ∧ (halt (wCol 33)).slotState 0 = 3 ∧ voteKey 3 ckdec = (halt (wCol 33)).kLap 0 ∧
    ((halt (wCol 33)).vote 8 (voteJob ckdec) (voteKey 3 ckdec)).closed = [] ∧ ((halt (wCol 33)).ck 0).dec = none ∧
    (halt (wCol 33)).now ≤ (halt (wCol 33)).kLap 0 + 16 ∧ bit (ckdec.byte 34) 0 = false := by decide
theorem witness_ShadowSet_check :
    16 ≤ 16 ∧ wCfg16.checkBusy 16 = 0 := by decide
theorem witness_ShadowSet_checkFails :
    0 ≤ 16 ∧ wJob.checkBusy 0 ≠ 0 := by decide
theorem witness_ShadowSet_arm :
    16 ≤ 16 ∧ wCfg16.checkBusy 16 = 0 ∧ wCfg16.jobScoped 16 = false ∧ wCfg16.armReason (wCfg16.rd F.SHD_ARM_T_T) true = none := by decide
theorem witness_ShadowSet_withdraw :
    16 ≤ 16 ∧ ((wArmed16 64).arms = [{ kind := 0, who := 16, t := 64, job := false }]) ∧ (wArmed16 64).now + 16 ≤ 64 := by decide
theorem witness_ShadowSet_discard :
    16 ≤ 16 ∧ wStaged16.areaState 16 < 2 := by decide
theorem witness_ShadowSet_late :
    0 ≤ 16 ∧ 0 < 16 ∧ (wPreLate.arms = [{ kind := 0, who := 0, t := 16, job := true }]) ∧ wPreLate.areaState 0 = 2 ∧ 16 ≤ wPreLate.now + 16 := by decide
theorem witness_ShadowSet_swap :
    (wArmed16 0).check16 = 0 ∧ ((wArmed16 0).arms = [{ kind := 0, who := 16, t := (wArmed16 0).now, job := false }]) ∧
    (wArmed16 0).areaState 16 = 2 ∧ (wArmed16 0).rd (F.SHD_STAT_JOB 16) = 0 ∧ (wArmed16 0).stopped = false := by decide
theorem witness_ShadowSet_applies :
    wApply.check16 = 0 ∧ wApply.areaState 16 < 2 ∧ wApply.rd F.LAP_STATUS_STATE < 2 ∧ wApply.allEmpty = true := by decide
theorem witness_PowerAndHeat_sample :
    wPower.rails = true ∧ 44000 ≤ (reads 48000).inputAvgMv ∧ (reads 48000).inputAvgMv ≤ 56000 := by decide
theorem witness_PowerAndHeat_trip :
    wPower.rails = true ∧ (reads 39000).inputAvgMv < 40000 := by decide
theorem witness_PowerAndHeat_converter :
    wPower.rails = true ∧ 3 < 8 ∧ wPower.rd (F.MON_BUS_OK 3) = 1 ∧ wPower.convFailed < 2 := by decide
theorem witness_PowerAndHeat_droop :
    wJob.power.droops.contains (clKey cl0) = false := by decide
theorem witness_PowerAndHeat_recovered :
    wDroop.power.droops.contains (clKey cl0) = true ∧ 8 ≤ 12 := by decide
theorem witness_PowerAndHeat_fastHold :
    wPower.rails = true ∧ 5 < 640 ∧ 1600 ≤ 1610 ∧ wPower.power.hot.contains 5 = false := by decide
theorem witness_PowerAndHeat_release :
    (wHot 1500).power.hot ≠ [] ∧ (∀ n ∈ (wHot 1500).power.hot, (wHot 1500).rd (F.MON_TEMP_TEMP n) < 1568) := by decide
theorem witness_PowerAndHeat_thermalTrip :
    wPower.rails = true ∧ 5 < 640 ∧ 1656 ≤ 1660 := by decide
theorem witness_PaceMarks_mark :
    wPaceMark.now % 4096 = 0 ∧ wPaceMark.power.mark ≠ some wPaceMark.now ∧ wPaceMark.stopped = false ∧
    wPaceMark.turn 4 = true := by decide
theorem witness_PaceMarks_change :
    0 < 16 ∧ (wPaceDue.due 1 0).isSome = true ∧ (wPaceDue.slot 0).paceMsg = some pdec5 ∧ wPaceDue.slotState 0 = 2 ∧
    voteKey 1 pdec5 + 4096 = wPaceDue.now ∧ pdec5.byte 14 % 16 ≤ 8 ∧ pdec5.byte 14 % 16 ≠ wPaceDue.rd (F.PCE_SLOT_LIVE 0) ∧
    wPaceDue.stopped = false ∧
    wPaceDue.turn 3 = true := by decide
def wPaceLate16 : State := setF wPaceLate [(F.LAP_COUNT_COUNT, 8176), (F.LAP_STATUS_STATE, 2)]
theorem witness_PaceMarks_late :
    0 < 16 ∧ (wPaceLate16.slot 0).paceAt = some 4096 ∧ wPaceLate16.slotState 0 = 2 ∧ (wPaceLate16.slot 0).paceMsg = none ∧ 4080 + 4096 ≤ wPaceLate16.now ∧
    wPaceLate16.now ≤ 4096 + 4096 ∧ wPaceLate16.armReason (4096 + 4096) true = none := by decide
theorem witness_PaceMarks_refused :
    0 < 16 ∧ (wPaceLate.slot 0).paceAt = some 4096 ∧ wPaceLate.slotState 0 = 2 ∧ (wPaceLate.slot 0).paceMsg = none ∧ 4080 + 4096 ≤ wPaceLate.now ∧
    wPaceLate.now ≤ 4096 + 4096 ∧ wPaceLate.armReason (4096 + 4096) true = some 4 := by decide
theorem witness_HurdleRuns_mark :
    HomeServes wMarkH (linesOf (wMarkH.darkAddr 0 0) (32 * wMarkH.rd (F.NUM_DARK_CFG_ENTRIES 0))) ∧ wMarkH.stopped = false ∧ wMarkH.slotState 0 = 2 ∧ (wMarkH.slot 0).marked = false ∧ wMarkH.hMark 0 ≤ wMarkH.now ∧
    (∀ c ∈ wMarkH.clustersOf 0, wMarkH.hconHas c (wMarkH.step 0) = true) ∧ wMarkH.relayUnfinished 0 = none ∧ wMarkH.relayDead = false ∧
    wMarkH.modIdx 0 ∉ nodeCollectors (wMarkH.members 0) wMarkH.classX 1 (wMarkH.modIdx 0 / 32) ∧
    0 < 16 ∧ 1 < wMarkH.members 0 := ⟨serves rfl rfl rfl rfl rfl rfl rfl _, by decide⟩
theorem witness_HurdleRuns_commit :
    0 < 16 ∧ (wResolve 0).slotState 0 = 2 ∧ (wResolve 0).stopped = false ∧ (∀ e ∈ (wResolve 0).engSwap, e < 20) ∧
    ((wResolve 0).due 2 0).isSome = true ∧ ((wResolve 0).slot 0).outMsg = some (hout 0) ∧ bits ((hout 0).le 32 4) 31 30 = 0 ∧
    bit ((hout 0).le 16 8) 60 = false := by decide
theorem witness_HurdleRuns_skip :
    0 < 16 ∧ (wResolve 1).slotState 0 = 2 ∧ (wResolve 1).stopped = false ∧ (∀ e ∈ (wResolve 1).engSwap, e < 20) ∧
    ((wResolve 1).due 2 0).isSome = true ∧ ((wResolve 1).slot 0).outMsg = some (hout 1) ∧ bits ((hout 1).le 32 4) 31 30 = 1 := by decide
theorem witness_HurdleRuns_late :
    0 < 16 ∧ wHLate.slotState 0 = 2 ∧ wHLate.stopped = false ∧ (∀ e ∈ wHLate.engSwap, e < 20) ∧ (wHLate.slot 0).marked = true ∧
    (wHLate.slot 0).outMsg = none ∧ wHLate.hMark 0 + 16 ≤ wHLate.now := by decide
theorem witness_EpochFlips_flip :
    0 < 16 ∧ 0 < 8 ∧ 0 < 256 ∧ 0 < 2 ∧ wFlip.verIn 0 0 0 1 = some 0 ∧ (wFlip.usedShards 0 = [(0, 0)]) ∧ (wFlip.shard 0 0 0).late = none ∧
    (wFlip.slot 0).flipLap = some 0 ∧ (wFlip.slot 0).flipDone = false ∧ wFlip.slotState 0 = 2 ∧ wFlip.turn 4 = true ∧ wFlip.canFlip 0 0 0 = true ∧
    0 = wFlip.now := by decide
def wFlipPast : State := wFlip.wr F.LAP_COUNT_COUNT 3
theorem witness_EpochFlips_missed :
    0 < 16 ∧ 0 < 8 ∧ 0 < 256 ∧ 0 < 2 ∧ wFlipPast.verIn 0 0 0 1 = some 0 ∧ (wFlipPast.usedShards 0 = [(0, 0)]) ∧ (wFlipPast.shard 0 0 0).late = none ∧
    (wFlipPast.slot 0).flipLap = some 0 ∧ (wFlipPast.slot 0).flipDone = false ∧ wFlipPast.slotState 0 = 2 ∧ wFlipPast.turn 4 = true ∧ 0 < wFlipPast.now := by decide
def wFlipLate1 : State := (wFlipLate.wr F.LAP_COUNT_COUNT 1).setShard 0 0 0 { wFlipLate.shard 0 0 0 with late := some 0 }
theorem witness_EpochFlips_late :
    0 < 16 ∧ 0 < 8 ∧ 0 < 256 ∧ 0 < 2 ∧ wFlipLate1.verIn 0 0 0 1 = some 0 ∧ wFlipLate1.canFlip 0 0 0 = true ∧ (wFlipLate1.shard 0 0 0).late = some 0 ∧
    0 < wFlipLate1.now ∧ wFlipLate1.turn 4 = true := by decide
theorem witness_EpochFlips_release :
    0 < 16 ∧ 0 < 8 ∧ 0 < 256 ∧ 0 < 2 ∧ wRetired.verIn 0 0 0 3 = some 0 ∧ (wRetired.shard 0 0 0).markSince = true ∧
    (wRetired.shard 0 0 0).holders = [] ∧ wRetired.refsTo 0 0 0 0 = 0 := by decide
theorem witness_RelayPushes :
    MemSound wPushed ∧ wPushed.slotOfCl cl0 = some 0 ∧ (wPushed.cluster cl0).push = [pushE] ∧ wPushed.slotState 0 = 2 ∧ wPushed.stopped = false ∧ pushE.pstep = wPushed.step 0 ∧
    wPushed.engineGone 0 pushE.tile = false ∧ (∀ x ∈ (wPushed.relay 0).pushed, x % 2 ^ 32 ≠ pushE.tile) ∧
    wPushed.planOf 0 pushE.tile = some planT ∧ planT.pos (wPushed.modIdx 0) = some 33 ∧ pushE.tile < 2 ^ 32 ∧
    planT.adder pushE.tile 1 (33 / 32) ≠ wPushed.modIdx 0 := ⟨sound rfl rfl, by decide⟩
/-- Module 34, the adder of tile 2, whose sixteen contexts serve other tiles. -/
def wPushFull : State :=
  let s := (wPlan 34).setCluster cl0 { ClusterSt.init with push := [pushE] }
  s.setSlot 0 { s.slot 0 with relay := { (s.relay 0) with nodes := (List.range 16).map (fun i => ⟨18 + 16 * i, 1, [], false⟩) } }
theorem witness_RelayPushes_waits :
    wPushFull.slotOfCl cl0 = some 0 ∧ (wPushFull.cluster cl0).push = [pushE] ∧ wPushFull.slotState 0 = 2 ∧ wPushFull.stopped = false ∧ pushE.pstep = wPushFull.step 0 ∧
    wPushFull.engineGone 0 pushE.tile = false ∧ (∀ x ∈ (wPushFull.relay 0).pushed, x % 2 ^ 32 ≠ pushE.tile) ∧
    wPushFull.planOf 0 pushE.tile = some planT ∧ planT.pos (wPushFull.modIdx 0) = some 34 ∧ pushE.tile < 2 ^ 32 ∧
    planT.adder pushE.tile 1 (34 / 32) = wPushFull.modIdx 0 ∧ wPushFull.credit 0 pushE.tile 1 (wPushFull.asks.takeWhile (fun a => decide (a.cl ≠ some cl0))) = false := by decide
theorem witness_RelayArrivals_old :
    MemSound (wPlan 33) ∧ (wPlan 33).relaySlot blkOld.job = some 0 ∧ (wPlan 33).slotState 0 = 2 ∧ (wPlan 33).stopped = false ∧
    ((wPlan 33).relayChecks = true → bits blkOld.hdr.toNat 31 0 = relayCrc blkOld.hdr.toNat blkOld.payload) ∧
    blkOld.sepoch ≠ (wPlan 33).step 0 % 65536 := ⟨sound rfl rfl, by decide⟩
theorem witness_RelayArrivals_input :
    MemSound (wPlan 33) ∧ (wPlan 33).relaySlot blkIn.job = some 0 ∧ (wPlan 33).slotState 0 = 2 ∧ (wPlan 33).stopped = false ∧
    ((wPlan 33).relayChecks = true → bits blkIn.hdr.toNat 31 0 = relayCrc blkIn.hdr.toNat blkIn.payload) ∧
    blkIn.sepoch = (wPlan 33).step 0 % 65536 ∧ (wPlan 33).engineGone 0 blkIn.tile = false ∧ (wPlan 33).asks = [] ∧ (blkIn.tile, blkIn.hop + 1) ∉ ((wPlan 33).relay 0).made ∧ (wPlan 33).planOf 0 blkIn.tile = some planT ∧
    blkIn.hop ≠ treeLevels planT.contributors.length ∧ planT.pos blkIn.sender = some 40 ∧ planT.pos ((wPlan 33).modIdx 0) = some 33 ∧
    planT.adder blkIn.tile (blkIn.hop + 1) (40 / treeSpan (blkIn.hop + 1)) = (wPlan 33).modIdx 0 ∧
    (wPlan 33).contextFree 0 blkIn.tile (blkIn.hop + 1) [] = true ∧
    (∀ x ∈ ((wPlan 33).relay 0).nodes, ¬(x.tile = blkIn.tile ∧ x.level = blkIn.hop + 1)) ∧
    1 < treeChildren planT.contributors.length (blkIn.hop + 1) (33 / treeSpan (blkIn.hop + 1)) := ⟨sound rfl rfl, by decide⟩
theorem witness_RelayArrivals_owner :
    (wPlan 33).relaySlot blkOwner.job = some 0 ∧ (wPlan 33).slotState 0 = 2 ∧ (wPlan 33).stopped = false ∧
    ((wPlan 33).relayChecks = true → bits blkOwner.hdr.toNat 31 0 = relayCrc blkOwner.hdr.toNat blkOwner.payload) ∧
    blkOwner.sepoch = (wPlan 33).step 0 % 65536 ∧ (wPlan 33).engineGone 0 blkOwner.tile = false ∧
    (wPlan 33).planOf 0 blkOwner.tile = some planT ∧ blkOwner.hop = treeLevels planT.contributors.length ∧
    planT.owners.contains ((wPlan 33).modIdx 0) = true ∧ blkOwner.payload.length = 8192 ∧ MemSound (wPlan 33) ∧
    HomeServes (wPlan 33) (linesOf (planT.dest + 0x8000 * (blkOwner.tile - planT.lo)) 0x8000) := by
  refine ⟨?_, ?_, ?_, ?_, ?_, ?_, ?_, ?_, ?_, ?_, sound rfl rfl, serves rfl rfl rfl rfl rfl rfl rfl _⟩ <;> first | rfl | decide
theorem witness_RelayArrivals_scale :
    (wPlan 33).relaySlot blkScale.job = some 0 ∧ (wPlan 33).slotState 0 = 2 ∧ (wPlan 33).stopped = false ∧
    ((wPlan 33).relayChecks = true → bits blkScale.hdr.toNat 31 0 = relayCrc blkScale.hdr.toNat blkScale.payload) ∧
    blkScale.sepoch = (wPlan 33).step 0 % 65536 ∧ blkScale.count = 1 ∧
    (wPlan 33).planOf 0 (bits (ofLe (List.take 8 blkScale.payload)) 63 32) = some planT ∧
    bits (ofLe (List.take 8 blkScale.payload)) 63 32 < (wPlan 33).rd (F.RLY_CFG_SCALE_ENTRIES 0) ∧
    (planT.pos ((wPlan 33).modIdx 0)).isSome = true ∧ MemSound (wPlan 33) ∧
    HomeServes (wPlan 33) [(wPlan 33).scaleAddr 0 0 (bits (ofLe (List.take 8 blkScale.payload)) 63 32) / 64,
      (wPlan 33).scaleAddr 0 1 (bits (ofLe (List.take 8 blkScale.payload)) 63 32) / 64] := by
  refine ⟨?_, ?_, ?_, ?_, ?_, ?_, ?_, ?_, ?_, sound rfl rfl, serves rfl rfl rfl rfl rfl rfl rfl _⟩ <;> first | rfl | decide
theorem witness_RelayArrivals_ack :
    (wSent.relayWaits 4 = some (0, sentB)) ∧ wSent.asks = [] := ⟨rfl, rfl⟩
theorem witness_RelayArrivals_nak :
    (wSent.relayWaits 4 = some (0, sentB)) := rfl
theorem witness_RelayArrivals_engine :
    2 < 20 ∧ (wJob.wr (F.RLY_ENG_ROLE 4) 1).rd (F.RLY_ENG_ROLE 2) = 0 ∧ (wJob.wr (F.RLY_ENG_ROLE 4) 1).rd (F.RLY_ENG_LOGICAL 2) < 16 ∧ 2 % 5 ≠ 4 ∧
    (wJob.wr (F.RLY_ENG_ROLE 4) 1).engSwap = [] ∧ (wJob.wr (F.RLY_ENG_ROLE 4) 1).rd (F.RLY_ENG_ROLE (5 * (2 / 5) + 4)) = 1 := by decide
theorem witness_RelayArrivals_engineDead :
    2 < 20 ∧ (wJob.wr (F.RLY_ENG_ROLE 4) 2).rd (F.RLY_ENG_ROLE 2) = 0 ∧ (wJob.wr (F.RLY_ENG_ROLE 4) 2).rd (F.RLY_ENG_LOGICAL 2) < 16 ∧ 2 % 5 ≠ 4 ∧
    (wJob.wr (F.RLY_ENG_ROLE 4) 2).engSwap = [] ∧ (wJob.wr (F.RLY_ENG_ROLE 4) 2).rd (F.RLY_ENG_ROLE (5 * (2 / 5) + 4)) ≠ 1 := by decide
theorem witness_QueueControl_doorbell :
    3 < 256 ∧ wQ0.stopped = false ∧ wQ0.odbs.any (fun x => x.core == 4) = false ∧ wQ0.odbWaits ⟨4, 3, 5, wQ0.wrNo⟩ = false ∧ wQ0.rd (F.CPE_QRING_EN 3) = 1 ∧ (5 : BitVec 64).toNat % 65536 < wQ0.qSize 3 := by decide
theorem witness_QueueControl_ordered :
    3 < 256 ∧ wQ0.stopped = false ∧ wQ0.odbs.any (fun x => x.core == 4) = false ∧ wQ0.odbWaits ⟨4, 3, 5, wQ0.wrNo⟩ = false ∧ wQ0.rd (F.CPE_QRING_EN 3) = 1 ∧ (5 : BitVec 64).toNat % 65536 < wQ0.qSize 3 := by decide
theorem witness_QueueControl_beyond :
    3 < 256 ∧ wQ0.stopped = false ∧ wQ0.odbs.any (fun x => x.core == 4) = false ∧ wQ0.odbWaits ⟨4, 3, 16, wQ0.wrNo⟩ = false ∧ wQ0.qSize 3 ≤ (16 : BitVec 64).toNat % 65536 := by decide
theorem witness_QueueControl_disabled :
    3 < 256 ∧ State.reset.stopped = false ∧ State.reset.odbs.any (fun x => x.core == 4) = false ∧ State.reset.odbWaits ⟨4, 3, 5, State.reset.wrNo⟩ = false ∧ State.reset.rd (F.CPE_QRING_EN 3) = 0 := by decide
theorem witness_QueueControl_held :
    3 < 256 ∧ wWrites.stopped = false ∧ wWrites.odbWaits ⟨4, 3, 5, wWrites.wrNo⟩ = true := by decide
theorem witness_QueueControl_halt :
    3 < 256 ∧ wQ0.rd (F.CPE_QRING_EN 3) = 1 ∧ (wQ0.queue 3).halted = false := by decide
theorem witness_QueueControl_resume :
    3 < 256 ∧ wHalted.rd (F.CPE_QRING_EN 3) = 1 ∧ (wHalted.queue 3).halted = true := by decide
theorem witness_QueueControl_disable :
    3 < 256 ∧ bit ((5 : BitVec 64).toNat) 63 = false ∧ wHalted.qState 3 (wHalted.queue 3) = 3 := by decide
theorem witness_QueueControl_cqHead :
    3 < 256 := by decide
theorem witness_CommandsRun_fetch :
    HomeServes (wFetch 1 false) [(wFetch 1 false).headLine 3] ∧ 3 < 256 ∧ (wFetch 1 false).canFetch 3 = true ∧ ((wFetch 1 false).queue 3).stale = false ∧
    bit ((wFetch 1 false).headEntry 3) 63 = ((wFetch 1 false).rd (F.SQ_STAT_SPHASE 3) == 1) := ⟨serves rfl rfl rfl rfl rfl rfl rfl _, by decide⟩
theorem witness_CommandsRun_stale :
    HomeServes (wFetch 0 false) [(wFetch 0 false).headLine 3] ∧ 3 < 256 ∧ (wFetch 0 false).canFetch 3 = true ∧ ((wFetch 0 false).queue 3).stale = false ∧
    bit ((wFetch 0 false).headEntry 3) 63 ≠ ((wFetch 0 false).rd (F.SQ_STAT_SPHASE 3) == 1) := ⟨serves rfl rfl rfl rfl rfl rfl rfl _, by decide⟩
theorem witness_CommandsRun_reread :
    HomeServes (wFetch 1 true) [(wFetch 1 true).headLine 3] ∧ 3 < 256 ∧ (wFetch 1 true).canFetch 3 = true ∧ ((wFetch 1 true).queue 3).stale = true ∧
    bit ((wFetch 1 true).headEntry 3) 63 = ((wFetch 1 true).rd (F.SQ_STAT_SPHASE 3) == 1) := ⟨serves rfl rfl rfl rfl rfl rfl rfl _, by decide⟩
theorem witness_CommandsRun_halts :
    HomeServes (wFetch 0 true) [(wFetch 0 true).headLine 3] ∧ 3 < 256 ∧ (wFetch 0 true).canFetch 3 = true ∧ ((wFetch 0 true).queue 3).stale = true ∧
    bit ((wFetch 0 true).headEntry 3) 63 ≠ ((wFetch 0 true).rd (F.SQ_STAT_SPHASE 3) == 1) ∧ 7 ≤ ((wFetch 0 true).queue 3).rereads := ⟨serves rfl rfl rfl rfl rfl rfl rfl _, by decide⟩
theorem witness_CommandsRun_dispatch :
    wOffer.stopped = false ∧ 3 < 256 ∧ 2 < 24 ∧ wOffer.eng 2 = none ∧ (∀ (h : ℕ), engineHome 2 = some h → wOffer.hdAway.contains h = false) ∧
    wOffer.offer 2 3 = some (cmd copyW 1) ∧ (∀ p < 256, p ≠ 3 → wOffer.offer 2 p = none) := by decide
theorem witness_CommandsRun_nop :
    wNop.stopped = false ∧ 3 < 256 ∧ (wNop.queue 3).nextCmd = some (cmd (nopW 1) 1) ∧ (cmd (nopW 1) 1).op = 63 := by decide
theorem witness_CommandsRun_complete :
    HomeServes wEnded [(4096 * wEnded.rd (F.CPE_QCPL_BASE 3) + 16 * (wEnded.queue 3).ctail) / 64] ∧ wEnded.stopped = false ∧ 3 < 256 ∧ (wEnded.queue 3).done = [cmd (nopW 1) 3] ∧ (wEnded.queue 3).ccount < wEnded.qSize 3 ∧
    (cmd (nopW 1) 3).status = 0 := ⟨serves rfl rfl rfl rfl rfl rfl rfl _, by decide⟩
theorem witness_CopiesMove_copy :
    (2 < 16 ∧ (engE 0 []).q < 256 ∧ (wCopy.engCmd 2 = some (engE 0 [], cmd copyW 2)) ∧ wCopy.stopped = false ∧ wCopy.walking (engE 0 []) = false ∧
    (cmd copyW 2).stage = 2 ∧ wCopy.tracker = [] ∧ bits (cmd copyW 2).w 111 64 % 64 = 0 ∧ (cmd copyW 2).op = 1 ∧
    bits (cmd copyW 2).w 175 128 % 64 = 0 ∧
    ((∀ i < bits (cmd copyW 2).w 223 192 / 64, ∀ k < bits (cmd copyW 2).w 223 192 / 64, frameByte (wCopy.frameList (engE 0 []).q (engE 0 []).entry 0 (pagesOf (bits (cmd copyW 2).w 111 64) (bits (cmd copyW 2).w 223 192))) (bits (cmd copyW 2).w 111 64) (64 * i) ≠ frameByte (wCopy.frameList (engE 0 []).q (engE 0 []).entry 1 (pagesOf (bits (cmd copyW 2).w 175 128) (bits (cmd copyW 2).w 223 192))) (bits (cmd copyW 2).w 175 128) (64 * k)) ∧ ∀ i < bits (cmd copyW 2).w 223 192 / 64, ∀ k < bits (cmd copyW 2).w 223 192 / 64, i ≠ k → frameByte (wCopy.frameList (engE 0 []).q (engE 0 []).entry 1 (pagesOf (bits (cmd copyW 2).w 175 128) (bits (cmd copyW 2).w 223 192))) (bits (cmd copyW 2).w 175 128) (64 * i) ≠ frameByte (wCopy.frameList (engE 0 []).q (engE 0 []).entry 1 (pagesOf (bits (cmd copyW 2).w 175 128) (bits (cmd copyW 2).w 223 192))) (bits (cmd copyW 2).w 175 128) (64 * k)) ∧
    wCopy.walking (engE 0 []) = false) ∧
    Quiet wCopy ∧ MemSound wCopy := ⟨by decide, ⟨rfl, rfl, rfl, rfl, rfl⟩, sound rfl rfl⟩
theorem witness_CopiesMove_snapshot :
    (2 < 16 ∧ (engE 0 []).q < 256 ∧ (wSnap.engCmd 2 = some (engE 0 [], snapC)) ∧ wSnap.stopped = false ∧ wSnap.walking (engE 0 []) = false ∧
    snapC.stage = 2 ∧ wSnap.tracker = [] ∧ bits snapC.w 111 64 % 64 = 0 ∧ snapC.op = 3 ∧ snapC.wait = false ∧
    wSnap.engHeld = [] ∧ wSnap.rd (F.CPE_QBIND_CTX (engE 0 []).q) < 16 ∧ wSnap.slotState (wSnap.rd (F.CPE_QBIND_CTX (engE 0 []).q)) = 2 ∧
    wSnap.descOf (wSnap.rd (F.CPE_QBIND_CTX (engE 0 []).q)) (bits snapC.w 143 128) = some ddE ∧ ddE.epoched = true ∧
    bit snapC.w 1 = false ∧ wSnap.verIn (shardOf ddE).1 (wSnap.rd (F.CPE_QBIND_CTX (engE 0 []).q)) (shardOf ddE).2 2 = some 0 ∧
    dqVa ddE (0 == 1) % 64 = 0 ∧ (∀ k < pagesOf (dqVa ddE (0 == 1)) ddE.length, ((dqFrames ddE (0 == 1))[k]?).join.isSome = true) ∧
    ((∀ i < ddE.length / 64, ∀ k < ddE.length / 64, frameByte (dqFrames ddE (0 == 1)) (dqVa ddE (0 == 1)) (64 * i) ≠ frameByte (wSnap.frameList (engE 0 []).q (engE 0 []).entry 1 (pagesOf (bits snapC.w 111 64) ddE.length)) (bits snapC.w 111 64) (64 * k)) ∧ ∀ i < ddE.length / 64, ∀ k < ddE.length / 64, i ≠ k → frameByte (wSnap.frameList (engE 0 []).q (engE 0 []).entry 1 (pagesOf (bits snapC.w 111 64) ddE.length)) (bits snapC.w 111 64) (64 * i) ≠ frameByte (wSnap.frameList (engE 0 []).q (engE 0 []).entry 1 (pagesOf (bits snapC.w 111 64) ddE.length)) (bits snapC.w 111 64) (64 * k)) ∧
    wSnap.walking (engE 0 []) = false ∧
    snapC.ver = none ∧ (engE 0 []).slotSt = 2 ∧ pagesOf (bits snapC.w 111 64) ddE.length ≤ snapC.pages) ∧
    Quiet wSnap ∧ MemSound wSnap := ⟨by decide, ⟨rfl, rfl, rfl, rfl, rfl⟩, sound rfl rfl⟩
theorem witness_CopiesMove_peer :
    (16 ≤ 17 ∧ 17 < 24 ∧ (engE 0 []).q < 256 ∧ (wPeer.engCmd 17 = some (engE 0 [], cmd peerW 2)) ∧ (cmd peerW 2).op = 2 ∧ wPeer.stopped = false ∧
    wPeer.walking (engE 0 []) = false ∧ (cmd peerW 2).stage = 2 ∧ wPeer.rd (F.CPE_QBIND_CTX (engE 0 []).q) < 16 ∧
    wPeer.slotState (wPeer.rd (F.CPE_QBIND_CTX (engE 0 []).q)) = 2 ∧
    ((peerCuts (bits (cmd peerW 2).w 173 128) 34 0 (bits (cmd peerW 2).w 223 192))[(engE 0 []).next]? = some (0, 64)) ∧ wPeer.peerTag < 2 ^ 32 ∧
    (∀ x ∈ wPeer.tracker, x.noted = true) ∧ (engE 0 []).slotSt ≠ 0 ∧ (engE 0 []).slotSt ≠ 4) ∧
    Quiet wPeer ∧ MemSound wPeer := ⟨by decide, ⟨rfl, rfl, rfl, rfl, rfl⟩, sound rfl rfl⟩
theorem witness_CopiesMove_acks :
    16 ≤ 17 ∧ 17 < 24 ∧ ((engE 1 [(9, 0)]).q < 256) ∧ (wAcked.engCmd 17 = some (engE 1 [(9, 0)], cmd peerW 2)) ∧ (cmd peerW 2).op = 2 ∧
    wAcked.stopped = false ∧ ((engE 1 [(9, 0)]).msgs = [(9, 0)]) ∧
    ((engE 1 [(9, 0)]).next = (peerCuts (bits (cmd peerW 2).w 173 128) 34 0 (bits (cmd peerW 2).w 223 192)).length) := by decide
theorem witness_CopiesMove_refused :
    MemSound wAcked ∧ 16 ≤ 17 ∧ 17 < 24 ∧ ((engE 1 [(9, 0)]).q < 256) ∧ (wAcked.engCmd 17 = some (engE 1 [(9, 0)], cmd peerW 2)) ∧ (cmd peerW 2).op = 2 ∧
    wAcked.stopped = false ∧ ((engE 1 [(9, 0)]).msgs = [(9, 0)]) := ⟨sound rfl rfl, by decide⟩
theorem witness_ProgramLoads_done :
    wContainer.stopped = false ∧ 1 < 16 ∧ (wContainer.slot 1).loadSlot = false ∧ ((asking wContainer loadCmd).slot 1).loadSlot = true ∧ (∀ i < 16, (wContainer.slot i).loadQ ≠ some 3) ∧ (wContainer.queue 3).nextCmd = some loadCmd ∧
    loadCmd.op = 16 ∧ bits loadCmd.w 131 128 = 1 ∧ wContainer.slotState 1 = 1 ∧ (wContainer.slot 1).loadQ = none ∧
    ((match (loading wContainer loadCmd).tryLoad 1 0 with | .done t => decide (t = wDone) | _ => false) = true) := by decide +kernel
theorem witness_ProgramLoads_refused :
    wBadMagic.stopped = false ∧ 1 < 16 ∧ (wBadMagic.slot 1).loadSlot = false ∧ ((asking wBadMagic loadCmd).slot 1).loadSlot = true ∧ (∀ i < 16, (wBadMagic.slot i).loadQ ≠ some 3) ∧ (wBadMagic.queue 3).nextCmd = some loadCmd ∧
    loadCmd.op = 16 ∧ bits loadCmd.w 131 128 = 1 ∧ wBadMagic.slotState 1 = 1 ∧ (wBadMagic.slot 1).loadQ = none ∧
    ((match (loading wBadMagic loadCmd).tryLoad 1 0 with | .refused _ (LoadErr.prog 0 0) => true | _ => false) = true) ∧
    wRefused.slotState 1 = 1 := by decide +kernel
theorem witness_ProgramLoads_loaded :
    MemSound wLoaded ∧ wLoaded.stopped = false ∧ 0 < 16 ∧ (wLoaded.slot 0).loadQ = some 3 ∧ (wLoaded.slot 0).prog = some (prog 1) ∧
    wLoaded.slotState 0 = 1 ∧ (wLoaded.slot 0).loadDone = true ∧ (∃ c ∈ (wLoaded.queue 3).cmds, c.stage = 2 ∧ c.op = 16 ∧ bits c.w 131 128 = 0) := ⟨sound rfl rfl, by decide⟩
theorem witness_ProgramLoads_drained :
    wDrained.stopped = false ∧ 0 < 16 ∧ wDrained.slotState 0 = 5 ∧ wDrained.draining 0 = false := by decide
theorem witness_Translation_walk :
    HomeServes (wWalk 16 none) [(wWalk 16 none).frameAddr (walkE none).q (walkE none).entry 0 0 / 64] ∧ MemSound (wWalk 16 none) ∧ (wWalk 16 none).walks = [walkE none] ∧ (wWalk 16 none).stopped = false ∧ (wWalk 16 none).walkReady (walkE none) = true ∧
    (wWalk 16 none).walkBusy (walkE none).ctx (walkE none).vpage = false ∧ (walkE none).held = none ∧ (walkE none).pages = 1 ∧ (walkE none).next = 0 ∧ (walkE none).side = 0 ∧
    (List.find? (fun c => c.entry == (walkE none).entry) ((wWalk 16 none).queue (walkE none).q).cmds = some (cmd copyW 0)) ∧
    (cmd copyW 0).stage = 0 ∧ (wWalk 16 none).walkPage (walkE none).ctx (walkE none).vpage (walkE none).write = WalkOut.entry pageE ∧
    (walkE none).q < 256 := ⟨serves rfl rfl rfl rfl rfl rfl rfl _, sound rfl rfl, by decide⟩
theorem witness_Translation_fault :
    MemSound (wWalk 21 none) ∧ (wWalk 21 none).walks = [walkE none] ∧ (wWalk 21 none).stopped = false ∧ (wWalk 21 none).walkReady (walkE none) = true ∧
    (wWalk 21 none).walkBusy (walkE none).ctx (walkE none).vpage = false ∧ (walkE none).held = none ∧ (walkE none).pages = 1 ∧ (walkE none).next = 0 ∧ (walkE none).side = 0 ∧
    (List.find? (fun c => c.entry == (walkE none).entry) ((wWalk 21 none).queue (walkE none).q).cmds = some (cmd copyW 0)) ∧
    (cmd copyW 0).stage = 0 ∧ (wWalk 21 none).walkPage (walkE none).ctx (walkE none).vpage (walkE none).write = WalkOut.fault 0 3 0 ∧ 0 < 64 ∧
    (wWalk 21 none).recState 0 = 0 ∧ (∀ i < 0, (wWalk 21 none).recState i ≠ 0) ∧ (∀ i < 64, (wWalk 21 none).recState i ≠ 1) ∧
    (walkE none).q < 256 := ⟨sound rfl rfl, by decide⟩
theorem witness_Translation_retry :
    0 < 64 ∧ ((wWalk 16 (some (0, false))).recState 0 = 1) := by decide
theorem witness_Translation_abort :
    MemSound (wWalk 16 (some (0, false))) ∧ 0 < 64 ∧ (wWalk 16 (some (0, false))).stopped = false ∧ ((wWalk 16 (some (0, false))).recState 0 = 1) ∧ ((wWalk 16 (some (0, false))).walks = [walkE (some (0, false))]) ∧
    ((walkE (some (0, false))).held = some (0, false)) ∧ ((walkE (some (0, false))).q < 256) ∧
    (((wWalk 16 (some (0, false))).queue (walkE (some (0, false))).q).cmds = [cmd copyW 0]) ∧
    ((cmd copyW 0).entry = (walkE (some (0, false))).entry) ∧ (bits ((wWalk 16 (some (0, false))).rd (F.XLT_RECENG_ENGINES 0)) 47 40 = 0) ∧
    ((wWalk 16 (some (0, false))).engHeld = []) ∧ (∀ j < 16, ((wWalk 16 (some (0, false))).slot j).loadHeld = none) := ⟨sound rfl rfl, by decide⟩
theorem witness_Translation_free :
    0 < 64 ∧ (wRec 2).recState 0 = 2 ∧ (wRec 2).recHeld 0 = false := by decide
theorem witness_Translation_fqBase :
    0 < 64 := by decide
theorem witness_Shootdowns_accepted :
    (sd 4).stopped = false ∧ (sd 4).sds.length < 8 ∧ (sd 4).rd F.XLT_SD_ADDR_VA + (bits ((3 : BitVec 64).toNat) 35 0 + 1) ≤ 2 ^ 36 ∧
    (sd 4).ctxOn ((sd 4).rd F.XLT_SD_ADDR_CTX) = true := by decide
theorem witness_Shootdowns_full :
    (wSds 8).stopped = false ∧ 8 ≤ (wSds 8).sds.length := by decide
theorem witness_Shootdowns_range :
    (sd (2 ^ 36 - 1)).stopped = false ∧ (sd (2 ^ 36 - 1)).sds.length < 8 ∧
    2 ^ 36 < (sd (2 ^ 36 - 1)).rd F.XLT_SD_ADDR_VA + (bits ((3 : BitVec 64).toNat) 35 0 + 1) := by decide
theorem witness_Shootdowns_context :
    State.reset.stopped = false ∧ State.reset.sds.length < 8 ∧
    State.reset.rd F.XLT_SD_ADDR_VA + (bits ((3 : BitVec 64).toNat) 35 0 + 1) ≤ 2 ^ 36 ∧
    State.reset.ctxOn (State.reset.rd F.XLT_SD_ADDR_CTX) = false := by decide
/-- Two shootdowns of lap 0, at lap 1. -/
def wSdEnds : State := (wSds 2).wr F.LAP_COUNT_COUNT 1
theorem witness_Shootdowns_complete :
    wSdEnds.stopped = false ∧ (wSdEnds.sds = [sdE, sdE]) ∧ [sdE].length < 8 ∧ sdE.notify = false ∧
    sdE.since < wSdEnds.now := by decide
theorem witness_Shootdowns_decay :
    wTrk.stopped = false ∧ wTrk.now % (4096 * 2 ^ wTrk.rd (F.XLT_TRK_DECAY 0)) = 0 ∧ sget (fun _ => 0) wTrk.decayed 0 ≠ wTrk.now + 1 := by decide
theorem witness_Shootdowns_decayOff :
    (wTrk.wr F.LAP_COUNT_COUNT 1).stopped = false ∧
    (wTrk.wr F.LAP_COUNT_COUNT 1).now % (4096 * 2 ^ (wTrk.wr F.LAP_COUNT_COUNT 1).rd (F.XLT_TRK_DECAY 0)) ≠ 0 := by decide
theorem witness_PortTraining_laser :
    0 < 4 ∧ State.reset.fabricOn = false ∧ (State.reset.rd (F.ACM_LASER_PRESENT 0) = 1 → true = true ∧ true = true) ∧
    (false = true → State.reset.rd (F.ACM_LASER_FAULT 0) = 1) := by decide
theorem witness_PortTraining_pulled :
    0 < 4 ∧ (wPorts 7).fabricOn = true ∧ (wPorts 7).rd (F.ACM_LASER_PRESENT 0) = 1 := by decide
theorem witness_PortTraining_stage :
    0 < 52 ∧ (wPorts 3).fabricOn = true ∧ (wPorts 3).rd (F.ACM_LASER_READY (0 / 13)) = 1 ∧ ((wPorts 3).portState 0 = (3, 4).1) ∧
    ((wPorts 3).port 0).retry = false := by decide
theorem witness_PortTraining_retrained :
    0 < 52 ∧ (wPorts 8).fabricOn = true ∧ (wPorts 8).rd (F.ACM_LASER_READY (0 / 13)) = 1 ∧ ((wPorts 8).portState 0 = (8, 6).1) ∧ ((wPorts 8).port 0).retry = false := by decide
theorem witness_PortTraining_identify :
    0 < 52 ∧ (wPorts 4).fabricOn = true ∧ (wPorts 4).rd (F.ACM_LASER_READY (0 / 13)) = 1 ∧ (wPorts 4).portState 0 = 4 := by decide
theorem witness_PortTraining_ready :
    0 < 52 ∧ (wPorts 5).fabricOn = true ∧ (wPorts 5).rd (F.ACM_LASER_READY (0 / 13)) = 1 ∧ (wPorts 5).portState 0 = 5 ∧
    ((wPorts 5).expectedPeer 0 = some ((idE 1 45 1).fi, (idE 1 45 1).port)) ∧ (idE 1 45 1).pods = (wPorts 5).rd F.ACM_CFG_PODS ∧
    (idE 1 45 1).role = (wPorts 5).rd (F.ACM_PORT_STAT_ROLE 0) ∧ (wPorts 5).linkStale 0 = true := by decide
theorem witness_PortTraining_mismatch :
    0 < 52 ∧ (wPorts 5).fabricOn = true ∧ (wPorts 5).rd (F.ACM_LASER_READY (0 / 13)) = 1 ∧ (wPorts 5).portState 0 = 5 ∧
    ((wPorts 5).expectedPeer 0 ≠ some ((idE 9 45 1).fi, (idE 9 45 1).port)) := by decide
theorem witness_PortTraining_up :
    0 < 52 ∧ (wPorts 6).fabricOn = true ∧ (wPorts 6).rd (F.ACM_LASER_READY (0 / 13)) = 1 ∧ (wPorts 6).portState 0 = 6 := by decide
theorem witness_PortTraining_timeout :
    0 < 52 ∧ (wPorts 3).fabricOn = true ∧ (wPorts 3).rd (F.ACM_LASER_READY (0 / 13)) = 1 ∧ 2 ≤ (wPorts 3).portState 0 ∧
    (wPorts 3).portState 0 ≤ 6 ∧ ((wPorts 3).port 0).retraining = false ∧ ((wPorts 3).port 0).tries ≠ 2 := by decide
theorem witness_PortTraining_third :
    0 < 52 ∧ ((port ({ p0 with tries := 2 }) [(F.ACM_PORT_STAT_STATE 0, 3)]).fabricOn = true) ∧
    ((port ({ p0 with tries := 2 }) [(F.ACM_PORT_STAT_STATE 0, 3)]).rd (F.ACM_LASER_READY (0 / 13)) = 1) ∧
    (2 ≤ (port ({ p0 with tries := 2 }) [(F.ACM_PORT_STAT_STATE 0, 3)]).portState 0) ∧
    ((port ({ p0 with tries := 2 }) [(F.ACM_PORT_STAT_STATE 0, 3)]).portState 0 ≤ 6) ∧
    (((port ({ p0 with tries := 2 }) [(F.ACM_PORT_STAT_STATE 0, 3)]).port 0).retraining = false) ∧
    (((port ({ p0 with tries := 2 }) [(F.ACM_PORT_STAT_STATE 0, 3)]).port 0).tries = 2) := by decide
theorem witness_PortTraining_retry :
    0 < 52 ∧ ((port ({ p0 with tries := 1, retry := true }) [(F.ACM_PORT_STAT_STATE 0, 1)]).fabricOn = true) ∧
    ((port ({ p0 with tries := 1, retry := true }) [(F.ACM_PORT_STAT_STATE 0, 1)]).rd (F.ACM_LASER_READY (0 / 13)) = 1) ∧
    ((port ({ p0 with tries := 1, retry := true }) [(F.ACM_PORT_STAT_STATE 0, 1)]).portState 0 = 1) ∧
    (((port ({ p0 with tries := 1, retry := true }) [(F.ACM_PORT_STAT_STATE 0, 1)]).port 0).retry = true) ∧
    (((port ({ p0 with tries := 1, retry := true }) [(F.ACM_PORT_STAT_STATE 0, 1)]).expectedPeer 0).isSome = true) := by decide
theorem witness_LinksAndPeers_retrain :
    0 < 52 ∧ (wPorts 7).portUp 0 = true ∧ (RetrainTrigger.fecLock = .nakRun → ((wPorts 7).port 0).nakRun = true) := by decide
theorem witness_LinksAndPeers_beyond :
    0 < 52 ∧ (wPorts 8).portState 0 ∉ [0, 9, 10, 11] ∧ ((wPorts 8).port 0).swapFrom = none := by decide
def wSwapped : State := port { p0 with swapFrom := some 0 } [(F.ACM_PORT_STAT_STATE 0, 8)]
theorem witness_LinksAndPeers_swapped :
    0 < 52 ∧ wSwapped.portState 0 ∉ [0, 9, 10, 11] ∧ (wSwapped.port 0).swapFrom.isSome = true := by decide
def wReserve : State := fab [(F.ACM_PORT_STAT_STATE 0, 8), (F.ACM_PORT_STAT_STATE 12, 10)]
theorem witness_LinksAndPeers_local :
    0 < 52 ∧ wReserve.portState 0 ∉ [0, 9, 10, 11] ∧ (wReserve.port 0).swapFrom = none ∧
    (wReserve.swapWaiters (0 / 13)).length < (wReserve.freeReserves (0 / 13)).length := by decide
theorem witness_LinksAndPeers_discard :
    0 < 52 ∧ (((port ({ p0 with left := some 0 }) [(F.ACM_PORT_STAT_STATE 0, 1), (F.LAP_COUNT_COUNT, 1024)]).port 0).left = some 0) ∧
    ((port ({ p0 with left := some 0 }) [(F.ACM_PORT_STAT_STATE 0, 1), (F.LAP_COUNT_COUNT, 1024)]).portUp 0 = false) ∧
    (0 + 1024 ≤ (port ({ p0 with left := some 0 }) [(F.ACM_PORT_STAT_STATE 0, 1), (F.LAP_COUNT_COUNT, 1024)]).now) := by decide
theorem witness_LinksAndPeers_crc :
    0 < 52 ∧ (wPorts 7).portUp 0 = true ∧ ((wPorts 7).port 0).naks < 7 ∧ ((wPorts 7).port 0).nakIn.2 < 8 ∧ ((wPorts 7).port 0).queue = [] ∧ (flit 0 0 false).crcOk = false := by decide +kernel
def wNak7 : State := port { p0 with naks := 7 } [(F.ACM_PORT_STAT_STATE 0, 7)]
theorem witness_LinksAndPeers_eighth :
    0 < 52 ∧ wNak7.portUp 0 = true ∧ (wNak7.port 0).naks = 7 ∧ (flit 0 0 false).crcOk = false := by decide +kernel
theorem witness_LinksAndPeers_order :
    0 < 52 ∧ (wPorts 7).portUp 0 = true ∧ ((wPorts 7).port 0).naks < 7 ∧ ((wPorts 7).port 0).nakIn.2 < 8 ∧ ((wPorts 7).port 0).queue = [] ∧ (flit 5 0 true).crcOk = true ∧ (flit 5 0 true).f 63 63 = 0 ∧ (flit 5 0 true).f 57 52 = 0 ∧
    1 ≤ (flit 5 0 true).f 95 92 ∧ (flit 5 0 true).f 95 92 < 5 ∧ (flit 5 0 true).f 87 76 ≠ ((wPorts 7).port 0).rx := by decide +kernel
theorem witness_LinksAndPeers_good :
    0 < 52 ∧ (wPorts 7).portUp 0 = true ∧ ((wPorts 7).port 0).naks < 7 ∧ ((wPorts 7).port 0).nakIn.2 < 8 ∧ ((wPorts 7).port 0).queue = [] ∧ (flit 0 0 true).crcOk = true ∧ (flit 0 0 true).f 63 63 = 0 ∧ (flit 0 0 true).f 57 52 = 0 ∧
    1 ≤ (flit 0 0 true).f 95 92 ∧ (flit 0 0 true).f 95 92 < 5 ∧ (flit 0 0 true).f 87 76 = ((wPorts 7).port 0).rx ∧
    (flit 0 0 true).f 51 39 = (wPorts 7).rd F.ACM_CFG_FI ∧ (wPorts 7).stopped = false := by decide +kernel
theorem witness_LinksAndPeers_swap :
    0 < 4 ∧ wSwap.swapWaiters 0 = [0] ∧ wSwap.freeReserves 0 = [12] ∧ wSwap.portState 0 = 9 ∧
    (wSwap.port 0).swapWait = some 0 ∧ 0 < wSwap.now := by decide
theorem witness_LinksAndPeers_write :
    (wWin.stopped = false ∧ bits peerH.toNat 127 120 = 80 ∧ bits peerH.toNat 119 108 = 7 ∧ bits peerH.toNat 107 62 = 2097216 ∧
    bits peerH.toNat 61 45 = 64 ∧ bits peerH.toNat 31 0 = 9 ∧ 64 ≠ 0 ∧ 64 ≤ 65536 ∧ nines.length = 64 ∧ wWin.slotOfJob 7 = some 0 ∧
    2 ^ 21 * wWin.rd (F.ACM_PEERWIN_BASE 0) ≤ 2097216 ∧
    2097216 + 64 ≤ 2 ^ 21 * wWin.rd (F.ACM_PEERWIN_BASE 0) + 2 ^ 30 * wWin.rd (F.ACM_PEERWIN_SIZE 0) ∧
    (0 : Nat) < 2 ^ 40) ∧
    HomeServes wWin (linesOf 2097216 64) := ⟨by decide, serves rfl rfl rfl rfl rfl rfl rfl _⟩
theorem witness_LinksAndPeers_rejected :
    State.reset.stopped = false ∧ bits peerH.toNat 127 120 = 80 ∧ bits peerH.toNat 119 108 = 7 ∧ bits peerH.toNat 107 62 = 2097216 ∧
    bits peerH.toNat 61 45 = 64 ∧ bits peerH.toNat 31 0 = 9 ∧ 64 ≠ 0 ∧ 64 ≤ 65536 ∧ nines.length = 64 ∧ State.reset.slotOfJob 7 = none := by decide
theorem witness_Homes_rdshrUncached :
    (dirS { owner := none, sharers := [] }).hdAway.contains 0 = false ∧ NoneWaits (dirS { owner := none, sharers := [] }) ∧ ((dirS { owner := none, sharers := [] }).stopped = false) ∧ homeOf (64 * (req 0 1).addr) = some 0 ∧ agentOf (req 0 1).src = some 0 ∧ 1 < 2 ∧
    1 ≠ 0 ∧ (req 0 1).host = true ∧ (req 0 1).spec = false ∧ ((dirS { owner := none, sharers := [] }).txns = []) ∧
    ((dirS { owner := none, sharers := [] }).gone = []) ∧ ((dirS { owner := none, sharers := [] }).lineBias (req 0 1).addr = 0) ∧
    (req 0 1).cls = 0 ∧ (req 0 1).op = 1 ∧
    ((dirS { owner := none, sharers := [] }).eccErrs = []) := ⟨rfl, ⟨rfl, rfl, rfl, rfl, rfl⟩, by decide⟩
theorem witness_Homes_rdshrShared :
    (dirS { owner := none, sharers := [1] }).hdAway.contains 0 = false ∧ NoneWaits (dirS { owner := none, sharers := [1] }) ∧ ((dirS { owner := none, sharers := [1] }).stopped = false) ∧ homeOf (64 * (req 0 1).addr) = some 0 ∧ agentOf (req 0 1).src = some 0 ∧ 1 < 2 ∧
    1 ≠ 0 ∧ (req 0 1).host = true ∧ (req 0 1).spec = false ∧ ((dirS { owner := none, sharers := [1] }).txns = []) ∧
    ((dirS { owner := none, sharers := [1] }).gone = []) ∧ ((dirS { owner := none, sharers := [1] }).lineBias (req 0 1).addr = 0) ∧
    (req 0 1).cls = 0 ∧ (req 0 1).op = 1 ∧
    ((dirS { owner := none, sharers := [1] }).eccErrs = []) := ⟨rfl, ⟨rfl, rfl, rfl, rfl, rfl⟩, by decide⟩
theorem witness_Homes_rdshrOwned :
    (dirS { owner := some 1, sharers := [] }).hdAway.contains 0 = false ∧ NoneWaits (dirS { owner := some 1, sharers := [] }) ∧ ((dirS { owner := some 1, sharers := [] }).stopped = false) ∧ homeOf (64 * (req 0 1).addr) = some 0 ∧ agentOf (req 0 1).src = some 0 ∧ 1 < 2 ∧
    1 ≠ 0 ∧ (req 0 1).host = true ∧ (req 0 1).spec = false ∧ ((dirS { owner := some 1, sharers := [] }).txns = []) ∧
    ((dirS { owner := some 1, sharers := [] }).gone = []) ∧ ((dirS { owner := some 1, sharers := [] }).lineBias (req 0 1).addr = 0) ∧
    (req 0 1).cls = 0 ∧ (req 0 1).op = 1 ∧
    ((dirS { owner := some 1, sharers := [] }).eccErrs = []) := ⟨rfl, ⟨rfl, rfl, rfl, rfl, rfl⟩, by decide⟩
theorem witness_Homes_rdownUncached :
    (dirS { owner := none, sharers := [] }).hdAway.contains 0 = false ∧ NoneWaits (dirS { owner := none, sharers := [] }) ∧ ((dirS { owner := none, sharers := [] }).stopped = false) ∧ homeOf (64 * (req 0 2).addr) = some 0 ∧ agentOf (req 0 2).src = some 0 ∧ 1 < 2 ∧
    1 ≠ 0 ∧ (req 0 2).host = true ∧ (req 0 2).spec = false ∧ ((dirS { owner := none, sharers := [] }).txns = []) ∧
    ((dirS { owner := none, sharers := [] }).gone = []) ∧ ((dirS { owner := none, sharers := [] }).lineBias (req 0 2).addr = 0) ∧
    (req 0 2).cls = 0 ∧ (req 0 2).op = 2 ∧
    ((dirS { owner := none, sharers := [] }).eccErrs = []) := ⟨rfl, ⟨rfl, rfl, rfl, rfl, rfl⟩, by decide⟩
theorem witness_Homes_rdownShared :
    (dirS { owner := none, sharers := [1] }).hdAway.contains 0 = false ∧ NoneWaits (dirS { owner := none, sharers := [1] }) ∧ ((dirS { owner := none, sharers := [1] }).stopped = false) ∧ homeOf (64 * (req 0 2).addr) = some 0 ∧ agentOf (req 0 2).src = some 0 ∧ 1 < 2 ∧
    1 ≠ 0 ∧ (req 0 2).host = true ∧ (req 0 2).spec = false ∧ ((dirS { owner := none, sharers := [1] }).txns = []) ∧
    ((dirS { owner := none, sharers := [1] }).gone = []) ∧ ((dirS { owner := none, sharers := [1] }).lineBias (req 0 2).addr = 0) ∧
    (req 0 2).cls = 0 ∧ (req 0 2).op = 2 ∧
    ((dirS { owner := none, sharers := [1] }).eccErrs = []) := ⟨rfl, ⟨rfl, rfl, rfl, rfl, rfl⟩, by decide⟩
theorem witness_Homes_rdownOwned :
    (dirS { owner := some 1, sharers := [] }).hdAway.contains 0 = false ∧ NoneWaits (dirS { owner := some 1, sharers := [] }) ∧ ((dirS { owner := some 1, sharers := [] }).stopped = false) ∧ homeOf (64 * (req 0 2).addr) = some 0 ∧ agentOf (req 0 2).src = some 0 ∧ 1 < 2 ∧
    1 ≠ 0 ∧ (req 0 2).host = true ∧ (req 0 2).spec = false ∧ ((dirS { owner := some 1, sharers := [] }).txns = []) ∧
    ((dirS { owner := some 1, sharers := [] }).gone = []) ∧ ((dirS { owner := some 1, sharers := [] }).lineBias (req 0 2).addr = 0) ∧
    (req 0 2).cls = 0 ∧ (req 0 2).op = 2 ∧
    ((dirS { owner := some 1, sharers := [] }).eccErrs = []) := ⟨rfl, ⟨rfl, rfl, rfl, rfl, rfl⟩, by decide⟩
theorem witness_Homes_upgr :
    (dirS { owner := none, sharers := [0] }).hdAway.contains 0 = false ∧ NoneWaits (dirS { owner := none, sharers := [0] }) ∧ ((dirS { owner := none, sharers := [0] }).stopped = false) ∧ homeOf (64 * (req 0 3).addr) = some 0 ∧ agentOf (req 0 3).src = some 0 ∧ 1 < 2 ∧
    1 ≠ 0 ∧ (req 0 3).host = true ∧ (req 0 3).spec = false ∧ ((dirS { owner := none, sharers := [0] }).txns = []) ∧
    ((dirS { owner := none, sharers := [0] }).gone = []) ∧ ((dirS { owner := none, sharers := [0] }).lineBias (req 0 3).addr = 0) ∧
    (req 0 3).cls = 0 ∧ (req 0 3).op = 3 ∧
    ((dirS { owner := none, sharers := [0] }).eccErrs = []) := ⟨rfl, ⟨rfl, rfl, rfl, rfl, rfl⟩, by decide⟩
theorem witness_Homes_upgrLost :
    State.reset.hdAway.contains 0 = false ∧ NoneWaits State.reset ∧ (State.reset.stopped = false) ∧ homeOf (64 * (req 0 3).addr) = some 0 ∧ agentOf (req 0 3).src = some 0 ∧ 1 < 2 ∧
    1 ≠ 0 ∧ (req 0 3).host = true ∧ (req 0 3).spec = false ∧ (State.reset.txns = []) ∧ (State.reset.gone = []) ∧ (State.reset.eccErrs = []) ∧
    (State.reset.lineBias (req 0 3).addr = 0) ∧ (req 0 3).cls = 0 ∧ (req 0 3).op = 3 ∧ (State.reset.dir (req 0 3).addr = ⟨none, []⟩) := ⟨rfl, ⟨rfl, rfl, rfl, rfl, rfl⟩, by decide⟩
theorem witness_Homes_rdnaShared :
    State.reset.hdAway.contains 0 = false ∧ NoneWaits State.reset ∧ (State.reset.stopped = false) ∧ homeOf (64 * (req 0 4).addr) = some 0 ∧ agentOf (req 0 4).src = some 0 ∧ 1 < 2 ∧
    1 ≠ 0 ∧ (req 0 4).host = true ∧ (req 0 4).spec = false ∧ (State.reset.txns = []) ∧ (State.reset.gone = []) ∧ (State.reset.eccErrs = []) ∧
    (State.reset.lineBias (req 0 4).addr = 0) ∧ (req 0 4).cls = 0 ∧ (req 0 4).op = 4 ∧ (State.reset.dir (req 0 4).addr).owner = none := ⟨rfl, ⟨rfl, rfl, rfl, rfl, rfl⟩, by decide⟩
theorem witness_Homes_rdna :
    (dirS { owner := some 1, sharers := [] }).hdAway.contains 0 = false ∧ NoneWaits (dirS { owner := some 1, sharers := [] }) ∧ ((dirS { owner := some 1, sharers := [] }).stopped = false) ∧ homeOf (64 * (req 0 4).addr) = some 0 ∧ agentOf (req 0 4).src = some 0 ∧ 1 < 2 ∧
    1 ≠ 0 ∧ (req 0 4).host = true ∧ (req 0 4).spec = false ∧ ((dirS { owner := some 1, sharers := [] }).txns = []) ∧
    ((dirS { owner := some 1, sharers := [] }).gone = []) ∧ ((dirS { owner := some 1, sharers := [] }).lineBias (req 0 4).addr = 0) ∧
    (req 0 4).cls = 0 ∧ (req 0 4).op = 4 ∧
    ((dirS { owner := some 1, sharers := [] }).eccErrs = []) := ⟨rfl, ⟨rfl, rfl, rfl, rfl, rfl⟩, by decide⟩
theorem witness_Homes_wrinvfull :
    (dirS { owner := none, sharers := [] }).hdAway.contains 0 = false ∧ NoneWaits (dirS { owner := none, sharers := [] }) ∧ ((dirS { owner := none, sharers := [] }).stopped = false) ∧ homeOf (64 * (req 3 51).addr) = some 0 ∧ agentOf (req 3 51).src = some 0 ∧ 1 < 2 ∧
    1 ≠ 0 ∧ (req 3 51).host = true ∧ (req 3 51).spec = false ∧ ((dirS { owner := none, sharers := [] }).txns = []) ∧
    ((dirS { owner := none, sharers := [] }).gone = []) ∧ ((dirS { owner := none, sharers := [] }).lineBias (req 3 51).addr = 0) ∧
    (req 3 51).cls = 3 ∧ (req 3 51).op = 51 ∧ ((dirS { owner := none, sharers := [] }).dir (req 3 51).addr = { owner := none, sharers := [] }) ∧
    ((dirS { owner := none, sharers := [] }).eccErrs = []) := ⟨rfl, ⟨rfl, rfl, rfl, rfl, rfl⟩, by decide⟩
theorem witness_Homes_device :
    wDev.hdAway.contains 0 = false ∧ NoneWaits wDev ∧ wDev.stopped = false ∧ homeOf (64 * (req 0 1).addr) = some 0 ∧ agentOf (req 0 1).src = some 0 ∧ 1 < 2 ∧ 1 ≠ 0 ∧ (req 0 1).host = true ∧
    (req 0 1).spec = false ∧ wDev.txns = [] ∧ wDev.gone = [] ∧ wDev.lineBias (req 0 1).addr = 1 ∧ (req 0 1).cls = 0 ∧ (req 0 1).op = 1 ∧
    wDev.eccErrs = [] := ⟨rfl, ⟨rfl, rfl, rfl, rfl, rfl⟩, by decide⟩
theorem witness_Homes_rspi :
    ((rsp 2 32).reqr = (txnE 2).src ∧ (rsp 2 32).txn = (txnE 2).txn) ∧ NoneWaits (wWait 2) ∧ (wWait 2).stopped = false ∧ homeOf (64 * (rsp 2 32).addr) = some 0 ∧ agentOf (rsp 2 32).src = some 0 ∧ 50 ≤ 96 ∧
    agentOf (txnE 2).src = some 1 ∧ 1 ≠ 0 ∧ (txnE 2).home = 0 ∧ (txnE 2).line = (rsp 2 32).addr ∧ (txnE 2).op = 1 ∧ (txnE 2).host = true ∧
    (txnE 2).spec = false ∧ (txnE 2).txn < 4096 ∧ (wWait 2).lineBias (rsp 2 32).addr = 0 ∧ (wWait 2).gone = [] ∧ (rsp 2 32).cls = 2 ∧
    ((wWait 2).txns = [{ (txnE 2) with st := 2, await := [0] }]) ∧ ((wWait 2).dir (rsp 2 32).addr = { owner := some 0, sharers := [] }) ∧
    (rsp 2 32).op = 32 ∧
    (wWait 2).eccErrs = [] := ⟨⟨rfl, rfl⟩, ⟨rfl, rfl, rfl, rfl, rfl⟩, by decide⟩
theorem witness_Homes_rsps :
    ((rsp 2 33).reqr = (txnE 2).src ∧ (rsp 2 33).txn = (txnE 2).txn) ∧ NoneWaits (wWait 2) ∧ (wWait 2).stopped = false ∧ homeOf (64 * (rsp 2 33).addr) = some 0 ∧ agentOf (rsp 2 33).src = some 0 ∧ 50 ≤ 96 ∧
    agentOf (txnE 2).src = some 1 ∧ 1 ≠ 0 ∧ (txnE 2).home = 0 ∧ (txnE 2).line = (rsp 2 33).addr ∧ (txnE 2).op = 1 ∧ (txnE 2).host = true ∧
    (txnE 2).spec = false ∧ (txnE 2).txn < 4096 ∧ (wWait 2).lineBias (rsp 2 33).addr = 0 ∧ (wWait 2).gone = [] ∧ (rsp 2 33).cls = 2 ∧
    ((wWait 2).txns = [{ (txnE 2) with st := 2, await := [0] }]) ∧ ((wWait 2).dir (rsp 2 33).addr = { owner := some 0, sharers := [] }) ∧
    (rsp 2 33).op = 33 ∧
    (wWait 2).eccErrs = [] := ⟨⟨rfl, rfl⟩, ⟨rfl, rfl, rfl, rfl, rfl⟩, by decide⟩
theorem witness_Homes_rspfwd :
    ((rsp 2 34).reqr = (txnE 2).src ∧ (rsp 2 34).txn = (txnE 2).txn) ∧ NoneWaits (wWait 2) ∧ (wWait 2).stopped = false ∧ homeOf (64 * (rsp 2 34).addr) = some 0 ∧ agentOf (rsp 2 34).src = some 0 ∧ 50 ≤ 96 ∧
    agentOf (txnE 2).src = some 1 ∧ 1 ≠ 0 ∧ (txnE 2).home = 0 ∧ (txnE 2).line = (rsp 2 34).addr ∧ (txnE 2).op = 1 ∧ (txnE 2).host = true ∧
    (txnE 2).spec = false ∧ (txnE 2).txn < 4096 ∧ (wWait 2).lineBias (rsp 2 34).addr = 0 ∧ (wWait 2).gone = [] ∧ (rsp 2 34).cls = 2 ∧
    ((wWait 2).txns = [{ (txnE 2) with st := 2, await := [0] }]) ∧ ((wWait 2).dir (rsp 2 34).addr = { owner := some 0, sharers := [] }) ∧
    (rsp 2 34).op = 34 ∧ (wWait 2).wbs = [] ∧
    (wWait 2).eccErrs = [] := ⟨⟨rfl, rfl⟩, ⟨rfl, rfl, rfl, rfl, rfl⟩, by decide⟩
theorem witness_Homes_rspwbpend :
    ((rsp 2 35).reqr = (txnE 2).src ∧ (rsp 2 35).txn = (txnE 2).txn) ∧ NoneWaits (wWait 2) ∧ (wWait 2).stopped = false ∧ homeOf (64 * (rsp 2 35).addr) = some 0 ∧ agentOf (rsp 2 35).src = some 0 ∧ 50 ≤ 96 ∧
    agentOf (txnE 2).src = some 1 ∧ 1 ≠ 0 ∧ (txnE 2).home = 0 ∧ (txnE 2).line = (rsp 2 35).addr ∧ (txnE 2).op = 1 ∧ (txnE 2).host = true ∧
    (txnE 2).spec = false ∧ (txnE 2).txn < 4096 ∧ (wWait 2).lineBias (rsp 2 35).addr = 0 ∧ (wWait 2).gone = [] ∧ (rsp 2 35).cls = 2 ∧
    ((wWait 2).txns = [{ (txnE 2) with st := 2, await := [0] }]) ∧ ((wWait 2).dir (rsp 2 35).addr = { owner := some 0, sharers := [] }) ∧
    (rsp 2 35).op = 35 ∧
    (wWait 2).eccErrs = [] ∧
    (wWait 2).wbs = [] := ⟨⟨rfl, rfl⟩, ⟨rfl, rfl, rfl, rfl, rfl⟩, by decide⟩
/-- The owner's WbData is still under way. -/
def wWbLate : State := { wWait 2 with wbs := [(0, 5, 33)] }
theorem witness_Homes_rspwbpendLate :
    ((rsp 2 35).reqr = (txnE 2).src ∧ (rsp 2 35).txn = (txnE 2).txn) ∧ NoneWaits wWbLate ∧ wWbLate.stopped = false ∧ homeOf (64 * (rsp 2 35).addr) = some 0 ∧ agentOf (rsp 2 35).src = some 0 ∧ 50 ≤ 96 ∧
    agentOf (txnE 2).src = some 1 ∧ 1 ≠ 0 ∧ (txnE 2).home = 0 ∧ (txnE 2).line = (rsp 2 35).addr ∧ (txnE 2).op = 1 ∧ (txnE 2).host = true ∧
    (txnE 2).spec = false ∧ (txnE 2).txn < 4096 ∧ wWbLate.lineBias (rsp 2 35).addr = 0 ∧ wWbLate.gone = [] ∧ (rsp 2 35).cls = 2 ∧
    (wWbLate.txns = [{ (txnE 2) with st := 2, await := [0] }]) ∧ (wWbLate.dir (rsp 2 35).addr = { owner := some 0, sharers := [] }) ∧
    (rsp 2 35).op = 35 ∧
    wWbLate.eccErrs = [] ∧
    wWbLate.wbs = [(0, (rsp 2 35).addr, 33)] := ⟨⟨rfl, rfl⟩, ⟨rfl, rfl, rfl, rfl, rfl⟩, by decide⟩
theorem witness_Homes_wbdata :
    NoneWaits (dirS { owner := some 0, sharers := [] }) ∧ ((dirS { owner := some 0, sharers := [] }).stopped = false) ∧ homeOf (64 * (rsp 3 50).addr) = some 0 ∧ agentOf (rsp 3 50).src = some 0 ∧
    50 ≤ 96 ∧ agentOf (txnE 2).src = some 1 ∧ 1 ≠ 0 ∧ (txnE 2).home = 0 ∧ (txnE 2).line = (rsp 3 50).addr ∧ (txnE 2).op = 1 ∧
    (txnE 2).host = true ∧ (txnE 2).spec = false ∧ (txnE 2).txn < 4096 ∧
    ((dirS { owner := some 0, sharers := [] }).lineBias (rsp 3 50).addr = 0) ∧ ((dirS { owner := some 0, sharers := [] }).gone = []) ∧
    (rsp 3 50).cls = 3 ∧ (rsp 3 50).op = 50 ∧ (((dirS { owner := some 0, sharers := [] }).dir (rsp 3 50).addr).owner = some 0) ∧
    ((dirS { owner := some 0, sharers := [] }).txns = []) ∧
    ((dirS { owner := some 0, sharers := [] }).eccErrs = []) := ⟨⟨rfl, rfl, rfl, rfl, rfl⟩, by decide⟩
theorem witness_Homes_wbdataWaits :
    NoneWaits (wWait 4) ∧ (wWait 4).stopped = false ∧ homeOf (64 * (rsp 3 50).addr) = some 0 ∧ agentOf (rsp 3 50).src = some 0 ∧ 50 ≤ 96 ∧
    agentOf (txnE 2).src = some 1 ∧ 1 ≠ 0 ∧ (txnE 2).home = 0 ∧ (txnE 2).line = (rsp 3 50).addr ∧ (txnE 2).op = 1 ∧ (txnE 2).host = true ∧
    (txnE 2).spec = false ∧ (txnE 2).txn < 4096 ∧ (wWait 4).lineBias (rsp 3 50).addr = 0 ∧ (wWait 4).gone = [] ∧ (rsp 3 50).cls = 3 ∧
    (rsp 3 50).op = 50 ∧ ((wWait 4).dir (rsp 3 50).addr).owner = some 0 ∧ ((wWait 4).txns = [{ (txnE 2) with st := 4, await := [0] }]) ∧
    ((wWait 4).dir (rsp 3 50).addr = { owner := some 0, sharers := [] }) ∧
    (wWait 4).eccErrs = [] := ⟨⟨rfl, rfl, rfl, rfl, rfl⟩, by decide⟩
theorem witness_AgentSnoops_none :
    NoneWaits State.reset ∧ State.reset.stopped = false ∧ agentOf (snp 17 0).dst = some 0 ∧ (snp 17 0).cls = 1 ∧ State.reset.wbs = [] ∧ State.reset.reqs = [] ∧
    State.reset.tenures = [] ∧ ((snp 17 0).op = (Instr.snpinv (snp 17 0), 17).2) ∧ State.reset.held 0 (snp 17 0).addr = none := ⟨⟨rfl, rfl, rfl, rfl, rfl⟩, by decide⟩
theorem witness_AgentSnoops_shr :
    NoneWaits (wLine 3) ∧ (wLine 3).stopped = false ∧ agentOf (snp 16 0).dst = some 0 ∧ (snp 16 0).cls = 1 ∧ (wLine 3).wbs = [] ∧ (wLine 3).reqs = [] ∧
    (wLine 3).tenures = [] ∧ (wLine 3).held 0 (snp 16 0).addr = some (lineE 3) ∧ 1 ≤ (lineE 3).st ∧ (lineE 3).st ≤ 3 ∧ (snp 16 0).op = 16 := ⟨⟨rfl, rfl, rfl, rfl, rfl⟩, by decide⟩
theorem witness_AgentSnoops_inv :
    NoneWaits (wLine 3) ∧ (wLine 3).stopped = false ∧ agentOf (snp 17 1).dst = some 0 ∧ (snp 17 1).cls = 1 ∧ (wLine 3).wbs = [] ∧ (wLine 3).reqs = [] ∧
    (wLine 3).tenures = [] ∧ (wLine 3).held 0 (snp 17 1).addr = some (lineE 3) ∧ 1 ≤ (lineE 3).st ∧ (lineE 3).st ≤ 3 ∧ (snp 17 1).op = 17 := ⟨⟨rfl, rfl, rfl, rfl, rfl⟩, by decide⟩
theorem witness_AgentSnoops_cur :
    NoneWaits (wLine 2) ∧ (wLine 2).stopped = false ∧ agentOf (snp 18 0).dst = some 0 ∧ (snp 18 0).cls = 1 ∧ (wLine 2).wbs = [] ∧ (wLine 2).reqs = [] ∧
    (wLine 2).tenures = [] ∧ (wLine 2).held 0 (snp 18 0).addr = some (lineE 2) ∧ 1 ≤ (lineE 2).st ∧ (lineE 2).st ≤ 3 ∧ (snp 18 0).op = 18 := ⟨⟨rfl, rfl, rfl, rfl, rfl⟩, by decide⟩
theorem witness_AgentSnoops_flush :
    NoneWaits (wLine 3) ∧ (wLine 3).stopped = false ∧ agentOf (snp 19 0).dst = some 0 ∧ (snp 19 0).cls = 1 ∧ (wLine 3).wbs = [] ∧ (wLine 3).reqs = [] ∧
    (wLine 3).tenures = [] ∧ (wLine 3).held 0 (snp 19 0).addr = some (lineE 3) ∧ 1 ≤ (lineE 3).st ∧ (lineE 3).st ≤ 3 ∧ (snp 19 0).op = 19 := ⟨⟨rfl, rfl, rfl, rfl, rfl⟩, by decide⟩
theorem witness_AgentSnoops_held :
    NoneWaits wTen ∧ wTen.stopped = false ∧ agentOf (snp 17 0).dst = some 0 ∧ (snp 17 0).cls = 1 ∧ wTen.wbs = [] ∧ wTen.reqs = [] ∧
    (wTen.tenures = [(0, (snp 17 0).addr)]) ∧ (snp 17 0).op = 17 := ⟨⟨rfl, rfl, rfl, rfl, rfl⟩, by decide⟩
theorem witness_AgentSnoops_tenure :
    NoneWaits wHeldSnp ∧ wHeldSnp.stopped = false ∧ agentOf (snp 17 0).dst = some 0 ∧ (snp 17 0).cls = 1 ∧ wHeldSnp.wbs = [] ∧ wHeldSnp.reqs = [] ∧
    (wHeldSnp.tenures = [(0, (snp 17 0).addr)]) ∧ (wHeldSnp.heldSnps = [(0, snp 17 0)]) ∧ wHeldSnp.txns = [] ∧ wHeldSnp.held 0 (snp 17 0).addr = none := ⟨⟨rfl, rfl, rfl, rfl, rfl⟩, by decide⟩
theorem witness_HostAccesses_hit :
    (wLine 2).coreRuns 4 = true ∧ 320 < windowBase ∧ homeOf 320 = some 0 ∧ inBiasTable 320 = false ∧ (wLine 2).hdAway.contains 0 = false ∧
    (wLine 2).held (4 / 72) (320 / 64) = some (lineE 2) ∧
    (wLine 2).lineWaits (4 / 72) (320 / 64) = false ∧ (wLine 2).freeTxn (4 / 72) = some 0 ∧ (wLine 2).placeFree (4 / 72) = true := by decide
theorem witness_HostAccesses_upgr :
    (wLine 1).coreRuns 4 = true ∧ 320 < windowBase ∧ homeOf 320 = some 0 ∧ inBiasTable 320 = false ∧ (wLine 1).hdAway.contains 0 = false ∧
    (wLine 1).held (4 / 72) (320 / 64) = some (lineE 1) ∧
    (wLine 1).lineWaits (4 / 72) (320 / 64) = false ∧ (wLine 1).freeTxn (4 / 72) = some 0 ∧ (wLine 1).placeFree (4 / 72) = true := by decide
theorem witness_HostAccesses_miss :
    State.reset.coreRuns 4 = true ∧ 320 < windowBase ∧ homeOf 320 = some 0 ∧ inBiasTable 320 = false ∧ State.reset.hdAway.contains 0 = false ∧
    State.reset.held (4 / 72) (320 / 64) = none ∧
    State.reset.lineWaits (4 / 72) (320 / 64) = false ∧ State.reset.freeTxn (4 / 72) = some 0 ∧ State.reset.placeFree (4 / 72) = true := by decide
theorem witness_HostAccesses_uncached :
    State.reset.coreRuns 4 = true ∧ 320 < windowBase ∧ homeOf 320 = some 0 ∧ inBiasTable 320 = false ∧ State.reset.hdAway.contains 0 = false ∧
    State.reset.lineWaits (4 / 72) (320 / 64) = false ∧ State.reset.freeTxn (4 / 72) = some 0 ∧ State.reset.placeFree (4 / 72) = true := by decide
theorem witness_HostAccesses_waits :
    (wReq 1 0).coreRuns 4 = true ∧ 320 < windowBase ∧ (wReq 1 0).lineWaits (4 / 72) (320 / 64) = true ∧ (wReq 1 0).hostBars 320 = none := by decide
theorem witness_HostAccesses_fault :
    State.reset.coreRuns 4 = true ∧ 2 ^ 45 < windowBase ∧ homeOf (2 ^ 45) = none := by decide
theorem witness_HostAccesses_evict :
    NoneWaits (wLine 3) ∧ (wLine 3).coreRuns 4 = true ∧ 320 < windowBase ∧ (wLine 3).held (4 / 72) (320 / 64) = some (lineE 3) ∧
    (wLine 3).freeTxn (4 / 72) = some 0 ∧ (4 / 72, 320 / 64) ∉ (wLine 3).tenures := ⟨⟨rfl, rfl, rfl, rfl, rfl⟩, by decide⟩
theorem witness_AgentFills_load :
    NoneWaits (wReq 1 0) ∧ (wReq 1 0).stopped = false ∧ agentOf (fill 3 48).dst = some 0 ∧ (fill 3 48).host = true ∧ (wReq 1 0).coresOff 0 = false ∧ (wReq 1 0).txns = [] ∧ (wReq 1 0).reqs = [reqE 1 0] ∧ (reqE 1 0).agent = 0 ∧
    (reqE 1 0).txn = (fill 3 48).txn ∧ (reqE 1 0).line = (fill 3 48).addr ∧ ((fill 3 48).op = (Instr.data (fill 3 48), 48).2) ∧
    (fill 3 48).cls = 3 ∧ (fill 3 48).state ≠ 0 ∧ (reqE 1 0).op = 1 ∧ (reqE 1 0).store = 0 ∧ (reqE 1 0).kind = HostAccess.load ∧
    (reqE 1 0).stale = false := ⟨⟨rfl, rfl, rfl, rfl, rfl⟩, by decide⟩
theorem witness_AgentFills_store :
    NoneWaits (wReq 2 1) ∧ (wReq 2 1).stopped = false ∧ agentOf (fill 3 49).dst = some 0 ∧ (fill 3 49).host = true ∧ (wReq 2 1).coresOff 0 = false ∧ (wReq 2 1).txns = [] ∧ (wReq 2 1).reqs = [reqE 2 1] ∧ (reqE 2 1).agent = 0 ∧
    (reqE 2 1).txn = (fill 3 49).txn ∧ (reqE 2 1).line = (fill 3 49).addr ∧ ((fill 3 49).op = (Instr.fwddata (fill 3 49), 49).2) ∧
    (fill 3 49).cls = 3 ∧ (fill 3 49).state ≠ 0 ∧ (reqE 2 1).op = 2 ∧ (reqE 2 1).store = 1 ∧
    (reqE 2 1).stale = false := ⟨⟨rfl, rfl, rfl, rfl, rfl⟩, by decide⟩
theorem witness_AgentFills_cmp :
    NoneWaits wUpgr ∧ wUpgr.stopped = false ∧ agentOf (fill 2 40).dst = some 0 ∧ (fill 2 40).host = true ∧ wUpgr.coresOff 0 = false ∧ wUpgr.txns = [] ∧ wUpgr.reqs = [reqE 3 1] ∧ (reqE 3 1).agent = 0 ∧
    (reqE 3 1).txn = (fill 2 40).txn ∧ (reqE 3 1).line = (fill 2 40).addr ∧ (fill 2 40).op = 40 ∧ (fill 2 40).cls = 2 ∧ (reqE 3 1).op = 3 ∧
    (reqE 3 1).stale = false ∧ wUpgr.held 0 (fill 2 40).addr = some (lineE 1) := ⟨⟨rfl, rfl, rfl, rfl, rfl⟩, by decide⟩
/-- A snoop has left the line shared since the home granted its Upgr. -/
def staleE : Req := { reqE 3 1 with stale := true }
def wStale : State := { wLine 1 with reqs := [staleE] }
theorem witness_AgentFills_cmpStale :
    NoneWaits wStale ∧ wStale.stopped = false ∧ agentOf (fill 2 40).dst = some 0 ∧ (fill 2 40).host = true ∧ wStale.coresOff 0 = false ∧ wStale.txns = [] ∧ wStale.reqs = [staleE] ∧ staleE.agent = 0 ∧
    staleE.txn = (fill 2 40).txn ∧ staleE.line = (fill 2 40).addr ∧ (fill 2 40).op = 40 ∧ (fill 2 40).cls = 2 ∧ staleE.op = 3 ∧
    staleE.stale = true ∧ wStale.held 0 (fill 2 40).addr = some (lineE 1) := ⟨⟨rfl, rfl, rfl, rfl, rfl⟩, by decide⟩
theorem witness_AgentFills_cmpfault :
    NoneWaits (wReq 1 0) ∧ (wReq 1 0).stopped = false ∧ agentOf (fill 2 41).dst = some 0 ∧ (fill 2 41).host = true ∧ (wReq 1 0).coresOff 0 = false ∧ (wReq 1 0).txns = [] ∧ (wReq 1 0).reqs = [reqE 1 0] ∧ (reqE 1 0).agent = 0 ∧
    (reqE 1 0).txn = (fill 2 41).txn ∧ (reqE 1 0).line = (fill 2 41).addr ∧ (fill 2 41).op = 41 ∧ (fill 2 41).cls = 2 ∧
    (reqE 1 0).store ≠ 3 := ⟨⟨rfl, rfl, rfl, rfl, rfl⟩, by decide⟩
theorem witness_AgentFills_regdata :
    NoneWaits (wReq 5 0) ∧ (wReq 5 0).stopped = false ∧ agentOf (fill 2 42).dst = some 0 ∧ (fill 2 42).host = true ∧ (wReq 5 0).coresOff 0 = false ∧ (wReq 5 0).txns = [] ∧ (wReq 5 0).reqs = [reqE 5 0] ∧ (reqE 5 0).agent = 0 ∧
    (reqE 5 0).txn = (fill 2 42).txn ∧ (reqE 5 0).line = (fill 2 42).addr ∧ (fill 2 42).op = 42 ∧ (fill 2 42).cls = 2 ∧ (reqE 5 0).op = 5 := ⟨⟨rfl, rfl, rfl, rfl, rfl⟩, by decide⟩
/-- Agent 0 has sent home 0 one message. -/
def wSentOne : State := { State.reset with out := [.crimon (req 0 1)] }
theorem witness_AgentFills_credit :
    wSentOne.stopped = false ∧ (fill 2 43).op = 43 ∧ (fill 2 43).cls = 2 ∧
    sget (fun _ => 0) wSentOne.credits (65536 * (fill 2 43).src + (fill 2 43).dst) + 1 ≤ wSentOne.sentTo (fill 2 43).dst (fill 2 43).src := by decide
theorem witness_AgentFills_creditOver :
    State.reset.stopped = false ∧ (fill 2 43).op = 43 ∧ (fill 2 43).cls = 2 ∧ agentOf (fill 2 43).dst = some 0 ∧
    State.reset.sentTo (fill 2 43).dst (fill 2 43).src < sget (fun _ => 0) State.reset.credits (65536 * (fill 2 43).src + (fill 2 43).dst) + 1 := by decide
theorem witness_AgentFills_doorbell :
    wQ0.stopped = false ∧ bell.op = 7 ∧ bell.cls = 0 ∧ bell.addr < 256 ∧ wQ0.rd (F.CPE_QRING_EN bell.addr) = 1 ∧
    BitVec.toNat bell.word % 65536 < wQ0.qSize bell.addr := by decide
def wLeaves : State := State.reset.wr (F.CRM_AGENT_STATE 0) 1
theorem witness_AgentFills_withdraw :
    NoneWaits wLeaves ∧ wLeaves.stopped = false ∧ wdraw.op = 8 ∧ wdraw.cls = 0 ∧ agentOf wdraw.src = some 0 ∧ wLeaves.txns = [] ∧ wLeaves.rd (F.CRM_AGENT_STATE 0) ≠ 0 := ⟨⟨rfl, rfl, rfl, rfl, rfl⟩, by decide⟩
theorem witness_BiasAndLinks_busy :
    wBias.stopped = false ∧ wBias.rd F.CRM_BIAS_STAT_BUSY = 1 := by decide
theorem witness_BiasAndLinks_across :
    State.reset.stopped = false ∧ State.reset.rd F.CRM_BIAS_STAT_BUSY = 0 ∧
    homeOf (4096 * bits (BitVec.toNat (biasW 1 3 (48 * 2 ^ 30 / 4096 - 1))) 45 12) ≠ homeOf (4096 * (bits (BitVec.toNat (biasW 1 3 (48 * 2 ^ 30 / 4096 - 1))) 45 12 + bits (BitVec.toNat (biasW 1 3 (48 * 2 ^ 30 / 4096 - 1))) 61 53)) := by decide
theorem witness_BiasAndLinks_locked :
    State.reset.stopped = false ∧ State.reset.rd F.CRM_BIAS_STAT_BUSY = 0 ∧ homeOf (4096 * bits (BitVec.toNat (biasW 2 3 7)) 45 12) = some 0 ∧
    homeOf (4096 * (bits (BitVec.toNat (biasW 2 3 7)) 45 12 + bits (BitVec.toNat (biasW 2 3 7)) 61 53)) = some 0 ∧
    bits (BitVec.toNat (biasW 2 3 7)) 63 62 = 2 ∧ State.reset.rd F.CRM_CFG_LOCK_EN = 0 := by decide
theorem witness_BiasAndLinks_accepted :
    State.reset.stopped = false ∧ State.reset.rd F.CRM_BIAS_STAT_BUSY = 0 ∧ homeOf (4096 * bits (BitVec.toNat (biasW 1 3 7)) 45 12) = some 0 ∧
    homeOf (4096 * (bits (BitVec.toNat (biasW 1 3 7)) 45 12 + bits (BitVec.toNat (biasW 1 3 7)) 61 53)) = some 0 ∧
    bits (BitVec.toNat (biasW 1 3 7)) 63 62 ≠ 3 ∧ (bits (BitVec.toNat (biasW 1 3 7)) 63 62 = 2 → State.reset.rd F.CRM_CFG_LOCK_EN = 1) := by decide
theorem witness_BiasAndLinks_done :
    wBias.stopped = false ∧ wBias.biasCmd = some biasE ∧ biasE.undone = [] ∧ biasE.count < 512 ∧
    wBias.txns = [] ∧ wBias.memQ = [] ∧ wBias.dirs = [] ∧ wBias.flushes = [] ∧ wBias.lines = [] ∧ wBias.wbs = [] ∧ wBias.reqs = [] := by decide
theorem witness_BiasAndLinks_flip :
    MemSound wFlips ∧ NoneWaits wFlips ∧ wFlips.stopped = false ∧ wFlips.txns = [txnH] ∧ txnH.home = 0 ∧ 0 < 10 ∧ txnH.st = 1 ∧ txnH.line / 64 = 0 ∧ txnH.op = 1 ∧ txnH.host = true ∧
    agentOf txnH.src = some 1 ∧ (wFlips.dir txnH.line = { owner := none, sharers := [] }) := ⟨⟨rfl, devLocked rfl⟩, ⟨rfl, rfl, rfl, rfl, rfl⟩, by decide⟩
theorem witness_BiasAndLinks_flit :
    3 < 26 ∧ State.reset.rd (F.CRM_LINK_STATE 3) = 0 := by decide
theorem witness_BiasAndLinks_replay :
    3 < 26 ∧ State.reset.rd (F.CRM_LINK_STATE 3) = 0 := by decide
theorem witness_BiasAndLinks_retrain :
    3 < 26 ∧ (State.reset.wr (F.CRM_LINK_SPARES 3) 2).rd (F.CRM_LINK_STATE 3) = 0 := by decide
theorem witness_BiasAndLinks_retrained :
    3 < 26 ∧ (State.reset.wr (F.CRM_LINK_STATE 3) 1).rd (F.CRM_LINK_STATE 3) = 1 := by decide
theorem witness_DomainStops_unknown :
    State.reset.stopped = false ∧ opClass bad.op = none := by decide
theorem witness_DomainStops_class :
    State.reset.stopped = false ∧ opClass (req 2 1).op = some 0 ∧ 0 ≠ (req 2 1).cls := by decide
theorem witness_DomainStops_snoop :
    (wWait 2).stopped = false ∧ (wWait 2).waiting 5 0 = some (txnE 2) := by decide
theorem witness_DomainStops_link :
    (State.reset.wr (F.CRM_LINK_STATE 3) 1).stopped = false ∧ 3 < 26 ∧ (State.reset.wr (F.CRM_LINK_STATE 3) 1).rd (F.CRM_LINK_STATE 3) = 1 := by decide
theorem witness_DomainStops_withdraw :
    (State.reset.wr (F.CRM_AGENT_STATE 0) 1).stopped = false ∧ (State.reset.wr (F.CRM_AGENT_STATE 0) 1).rd (F.CRM_AGENT_STATE 0) = 1 := by decide
theorem witness_DomainStops_stop :
    wStop.stop = some stopE ∧ stopE.latched = false := by decide
theorem witness_HostComplex_cc :
    MemSound (host 0 0) ∧ 0 < 2 ∧ (host 0 0).stopped = false ∧ (host 0 0).rd (F.STR_HOST_STATE 0) = 0 ∧ (∀ c ∈ none, c / 72 ≠ 0) ∧
    (host 0 0).lines = [] ∧ (host 0 0).reqs = [] ∧ (host 0 0).wbs = [] ∧ (host 0 0).heldSnps = [] := ⟨sound rfl rfl, by decide⟩
theorem witness_HostComplex_die :
    0 < 2 ∧ (host 0 0).stopped = false ∧ (host 0 0).rd (F.STR_HOST_STATE 0) = 0 ∧ (∀ c ∈ some 80, c / 72 ≠ 0) ∧
    (∀ j < 16, (host 0 0).slotState j = 0 ∨ (host 0 0).slotState j = 4) := by decide
theorem witness_HostComplex_busy :
    0 < 2 ∧ wJob.stopped = false ∧ wJob.rd (F.STR_HOST_STATE 0) = 0 ∧ (∀ c ∈ none, c / 72 ≠ 0) ∧ wJob.slotState 0 = 2 := by decide
theorem witness_HostComplex_own :
    0 < 2 ∧ (host 4 0).stopped = false ∧ (host 4 0).rd (F.STR_HOST_STATE 0) = 4 ∧ 5 / 72 = 0 := by decide
theorem witness_HostComplex_ccDone :
    0 < 2 ∧ (wGone 1).stopped = false ∧ (∀ x < 10, (x, 0) ∈ (wGone 1).gone) ∧ (∀ t ∈ (wGone 1).txns, t.agent ≠ some 0) ∧
    (wGone 1).rd (F.STR_HOST_STATE 0) = 1 := by decide
def wGoneHd : State := (wGone 2).wr (F.CRM_AGENT_STATE 0) 1
theorem witness_HostComplex_hdDone :
    0 < 2 ∧ wGoneHd.stopped = false ∧ (∀ x < 10, (x, 0) ∈ wGoneHd.gone) ∧ (∀ t ∈ wGoneHd.txns, t.agent ≠ some 0) ∧
    wGoneHd.rd (F.STR_HOST_STATE 0) = 2 ∧ wGoneHd.engs = [] ∧ (∀ t ∈ wGoneHd.txns, t.home ≠ 8 + 0) ∧
    wGoneHd.rd (F.CRM_AGENT_STATE 0) ≠ 0 ∧ wGoneHd.memQ = [] ∧ wGoneHd.hostCopies (dieLine 0) = false := by decide
theorem witness_HostComplex_hdLeaves :
    0 < 2 ∧ (wGone 2).stopped = false ∧ (wGone 2).rd (F.STR_HOST_STATE 0) = 2 ∧ (wGone 2).engs = [] ∧ (wGone 2).rd (F.CRM_AGENT_STATE 0) = 0 := by decide
theorem witness_HostComplex_ccRelease :
    0 < 2 ∧ (host 3 1).stopped = false ∧ (host 3 1).rd (F.STR_HOST_STATE 0) = 3 ∧ (sget (fun x => 0) (host 3 1).hostPhase 0 = 1) := by decide
theorem witness_HostComplex_firstFetch :
    0 < 2 ∧ (host 4 0).rd (F.STR_HOST_STATE 0) = 4 := by decide
theorem witness_HostComplex_timeout :
    0 < 2 ∧ (host 2 0).stopped = false ∧ (host 2 0).rd (F.STR_HOST_STATE 0) = 2 := by decide
theorem witness_HostComplex_hdRelease :
    0 < 2 ∧ (host 3 2).stopped = false ∧ (host 3 2).rd (F.STR_HOST_STATE 0) = 3 ∧ (sget (fun x => 0) (host 3 2).hostPhase 0 = 2) := by decide
def wStarted : State := { State.reset.wr F.STR_START_STATE 8 with rails := true, mrst := false }
theorem witness_HostComplex_hdrst :
    0 < 2 ∧ wStarted.stopped = false ∧ wStarted.dieHeld 0 = false := by decide
theorem witness_HostComplex_up :
    1 < 2 ∧ State.reset.contained 1 = false ∧ State.reset.pcieTrains 1 6 16 true = true := by decide
theorem witness_HostComplex_dpc :
    1 < 2 := by decide
def wLinkUp : State := State.reset.wr (F.STR_PCIE_UP 0) 1
def wDevUp : State := wDev.wr (F.STR_PCIE_UP 0) 1
theorem witness_HostComplex_abort :
    0 < 2 ∧ wLinkUp.stopped = false ∧ wLinkUp.rd (F.STR_PCIE_UP 0) = 1 ∧ wLinkUp.pcieHeld = [] ∧ wLinkUp.rd (F.STR_HOST_STATE 0) = 0 ∧ (noReq false).addr = none ∧ (noReq false).write = false := by decide
theorem witness_HostComplex_drop :
    0 < 2 ∧ wLinkUp.stopped = false ∧ wLinkUp.rd (F.STR_PCIE_UP 0) = 1 ∧ wLinkUp.pcieHeld = [] ∧ wLinkUp.rd (F.STR_HOST_STATE 0) = 0 ∧ (noReq true).addr = none ∧ (noReq true).write = true := by decide
theorem witness_HostComplex_write :
    MemSound wDevUp ∧ 0 < 2 ∧ wDevUp.stopped = false ∧ wDevUp.rd (F.STR_PCIE_UP 0) = 1 ∧ wDevUp.pcieHeld = [] ∧ wDevUp.rd (F.STR_HOST_STATE 0) = 0 ∧ (wrReq 64).addr = some 64 ∧ 0 < 64 ∧
    (64 = if (wrReq 64).write = true then (wrReq 64).data.length else (wrReq 64).len) ∧ 64 % 4096 + 64 ≤ 4096 ∧ 64 + 64 ≤ windowBase ∧
    wDevUp.hostBars 64 = none ∧ wDevUp.hostBars (64 + 64 - 1) = none ∧ (sget (fun x => 0) wDevUp.bias (64 / 4096) < 2) ∧
    wDevUp.txns = [] ∧ wDevUp.reqs = [] ∧ wDevUp.memQ = [] ∧ wDevUp.tenures = [] ∧ wDevUp.wbs = [] ∧ wDevUp.lines = [] := ⟨⟨rfl, devLocked rfl⟩, by decide⟩
theorem witness_HostComplex_read :
    MemSound wDevUp ∧ 0 < 2 ∧ wDevUp.stopped = false ∧ wDevUp.rd (F.STR_PCIE_UP 0) = 1 ∧ wDevUp.pcieHeld = [] ∧ wDevUp.rd (F.STR_HOST_STATE 0) = 0 ∧ (rdReq 64 64).addr = some 64 ∧ 0 < 64 ∧
    (64 = if (rdReq 64 64).write = true then (rdReq 64 64).data.length else (rdReq 64 64).len) ∧ 64 % 4096 + 64 ≤ 4096 ∧ 64 + 64 ≤ windowBase ∧
    wDevUp.hostBars 64 = none ∧ wDevUp.hostBars (64 + 64 - 1) = none ∧ (sget (fun x => 0) wDevUp.bias (64 / 4096) < 2) ∧
    wDevUp.txns = [] ∧ wDevUp.reqs = [] ∧ wDevUp.memQ = [] ∧ wDevUp.tenures = [] ∧ wDevUp.wbs = [] ∧ wDevUp.lines = [] := ⟨⟨rfl, devLocked rfl⟩, by decide⟩
theorem witness_Prism_openBad :
    calm (wPrism openW 0 [] (openCells 0) []) ∧ 0 < 16 ∧ (engE 0 []).q < 256 ∧ ((wPrism openW 0 [] (openCells 0) []).prismCmd 0 32 = some (engE 0 [], cmd openW 2)) ∧
    (parOk (ofLe (List.map (fun i => (wPrism openW 0 [] (openCells 0) []).memByte (frameByte ((wPrism openW 0 [] (openCells 0) []).frameList (engE 0 []).q (engE 0 []).entry 0 (pagesOf (bits (cmd openW 2).w 111 64) 256)) (bits (cmd openW 2).w 111 64) i)) (List.range 256))) = false) ∧
    (cmd openW 2).ver = none := ⟨calmOf ⟨rfl, rfl, rfl, rfl, rfl⟩ (sound rfl rfl) rfl rfl, by decide⟩
theorem witness_Prism_opens :
    calm (wPrism openW 0 [] (openCells (par 0 128)) []) ∧ 0 < 16 ∧ (engE 0 []).q < 256 ∧ ((wPrism openW 0 [] (openCells (par 0 128)) []).prismCmd 0 32 = some (engE 0 [], cmd openW 2)) ∧
    (parOk (ofLe (List.map (fun i => (wPrism openW 0 [] (openCells (par 0 128)) []).memByte (frameByte ((wPrism openW 0 [] (openCells (par 0 128)) []).frameList (engE 0 []).q (engE 0 []).entry 0 (pagesOf (bits (cmd openW 2).w 111 64) 256)) (bits (cmd openW 2).w 111 64) i)) (List.range 256))) = true) ∧
    (∀ i < parB (ofLe (List.map (fun i => (wPrism openW 0 [] (openCells (par 0 128)) []).memByte (frameByte ((wPrism openW 0 [] (openCells (par 0 128)) []).frameList (engE 0 []).q (engE 0 []).entry 0 (pagesOf (bits (cmd openW 2).w 111 64) 256)) (bits (cmd openW 2).w 111 64) i)) (List.range 256))) 8, ∃ u, (wPrism openW 0 [] (openCells (par 0 128)) []).surf ((wPrism openW 0 [] (openCells (par 0 128)) []).rd (F.CPE_QBIND_CTX (engE 0 []).q)) (parPool (ofLe (List.map (fun i => (wPrism openW 0 [] (openCells (par 0 128)) []).memByte (frameByte ((wPrism openW 0 [] (openCells (par 0 128)) []).frameList (engE 0 []).q (engE 0 []).entry 0 (pagesOf (bits (cmd openW 2).w 111 64) 256)) (bits (cmd openW 2).w 111 64) i)) (List.range 256))) i) = some u ∧ parPool (ofLe (List.map (fun i => (wPrism openW 0 [] (openCells (par 0 128)) []).memByte (frameByte ((wPrism openW 0 [] (openCells (par 0 128)) []).frameList (engE 0 []).q (engE 0 []).entry 0 (pagesOf (bits (cmd openW 2).w 111 64) 256)) (bits (cmd openW 2).w 111 64) i)) (List.range 256))) i / 1024 = 0 ∧ u.fmt = 5 ∧ (n64 (parW (ofLe (List.map (fun i => (wPrism openW 0 [] (openCells (par 0 128)) []).memByte (frameByte ((wPrism openW 0 [] (openCells (par 0 128)) []).frameList (engE 0 []).q (engE 0 []).entry 0 (pagesOf (bits (cmd openW 2).w 111 64) 256)) (bits (cmd openW 2).w 111 64) i)) (List.range 256)))) (parH (ofLe (List.map (fun i => (wPrism openW 0 [] (openCells (par 0 128)) []).memByte (frameByte ((wPrism openW 0 [] (openCells (par 0 128)) []).frameList (engE 0 []).q (engE 0 []).entry 0 (pagesOf (bits (cmd openW 2).w 111 64) 256)) (bits (cmd openW 2).w 111 64) i)) (List.range 256)))) * if parB (ofLe (List.map (fun i => (wPrism openW 0 [] (openCells (par 0 128)) []).memByte (frameByte ((wPrism openW 0 [] (openCells (par 0 128)) []).frameList (engE 0 []).q (engE 0 []).entry 0 (pagesOf (bits (cmd openW 2).w 111 64) 256)) (bits (cmd openW 2).w 111 64) i)) (List.range 256))) 2 = 8 then 6400 else 12544) ≤ u.bytes) ∧
    (wPrism openW 0 [] (openCells (par 0 128)) []).ctx (bits (cmd openW 2).w 9 0) = none ∧
    (cmd openW 2).ver = none := ⟨calmOf ⟨rfl, rfl, rfl, rfl, rfl⟩ (sound rfl rfl) rfl rfl, by decide⟩
theorem witness_Prism_openTwice :
    calm (wPrism openW 0 [(0, ctxS 0)] (openCells (par 0 128)) []) ∧ 0 < 16 ∧ (engE 0 []).q < 256 ∧ ((wPrism openW 0 [(0, ctxS 0)] (openCells (par 0 128)) []).prismCmd 0 32 = some (engE 0 [], cmd openW 2)) ∧
    (parOk (ofLe (List.map (fun i => (wPrism openW 0 [(0, ctxS 0)] (openCells (par 0 128)) []).memByte (frameByte ((wPrism openW 0 [(0, ctxS 0)] (openCells (par 0 128)) []).frameList (engE 0 []).q (engE 0 []).entry 0 (pagesOf (bits (cmd openW 2).w 111 64) 256)) (bits (cmd openW 2).w 111 64) i)) (List.range 256))) = true) ∧
    (∀ i < parB (ofLe (List.map (fun i => (wPrism openW 0 [(0, ctxS 0)] (openCells (par 0 128)) []).memByte (frameByte ((wPrism openW 0 [(0, ctxS 0)] (openCells (par 0 128)) []).frameList (engE 0 []).q (engE 0 []).entry 0 (pagesOf (bits (cmd openW 2).w 111 64) 256)) (bits (cmd openW 2).w 111 64) i)) (List.range 256))) 8, ∃ u, (wPrism openW 0 [(0, ctxS 0)] (openCells (par 0 128)) []).surf ((wPrism openW 0 [(0, ctxS 0)] (openCells (par 0 128)) []).rd (F.CPE_QBIND_CTX (engE 0 []).q)) (parPool (ofLe (List.map (fun i => (wPrism openW 0 [(0, ctxS 0)] (openCells (par 0 128)) []).memByte (frameByte ((wPrism openW 0 [(0, ctxS 0)] (openCells (par 0 128)) []).frameList (engE 0 []).q (engE 0 []).entry 0 (pagesOf (bits (cmd openW 2).w 111 64) 256)) (bits (cmd openW 2).w 111 64) i)) (List.range 256))) i) = some u ∧ parPool (ofLe (List.map (fun i => (wPrism openW 0 [(0, ctxS 0)] (openCells (par 0 128)) []).memByte (frameByte ((wPrism openW 0 [(0, ctxS 0)] (openCells (par 0 128)) []).frameList (engE 0 []).q (engE 0 []).entry 0 (pagesOf (bits (cmd openW 2).w 111 64) 256)) (bits (cmd openW 2).w 111 64) i)) (List.range 256))) i / 1024 = 0 ∧ u.fmt = 5 ∧ (n64 (parW (ofLe (List.map (fun i => (wPrism openW 0 [(0, ctxS 0)] (openCells (par 0 128)) []).memByte (frameByte ((wPrism openW 0 [(0, ctxS 0)] (openCells (par 0 128)) []).frameList (engE 0 []).q (engE 0 []).entry 0 (pagesOf (bits (cmd openW 2).w 111 64) 256)) (bits (cmd openW 2).w 111 64) i)) (List.range 256)))) (parH (ofLe (List.map (fun i => (wPrism openW 0 [(0, ctxS 0)] (openCells (par 0 128)) []).memByte (frameByte ((wPrism openW 0 [(0, ctxS 0)] (openCells (par 0 128)) []).frameList (engE 0 []).q (engE 0 []).entry 0 (pagesOf (bits (cmd openW 2).w 111 64) 256)) (bits (cmd openW 2).w 111 64) i)) (List.range 256)))) * if parB (ofLe (List.map (fun i => (wPrism openW 0 [(0, ctxS 0)] (openCells (par 0 128)) []).memByte (frameByte ((wPrism openW 0 [(0, ctxS 0)] (openCells (par 0 128)) []).frameList (engE 0 []).q (engE 0 []).entry 0 (pagesOf (bits (cmd openW 2).w 111 64) 256)) (bits (cmd openW 2).w 111 64) i)) (List.range 256))) 2 = 8 then 6400 else 12544) ≤ u.bytes) ∧
    ((wPrism openW 0 [(0, ctxS 0)] (openCells (par 0 128)) []).ctx (bits (cmd openW 2).w 9 0) ≠ none) ∧
    (cmd openW 2).ver = none := ⟨calmOf ⟨rfl, rfl, rfl, rfl, rfl⟩ (sound rfl rfl) rfl rfl, by decide⟩
theorem witness_Prism_closes :
    calm (wPrism closeW 0 [(0, ctxS 0)] [] []) ∧ 0 < 16 ∧ (engE 0 []).q < 256 ∧ ((wPrism closeW 0 [(0, ctxS 0)] [] []).prismCmd 0 33 = some (engE 0 [], cmd closeW 2)) ∧
    ((wPrism closeW 0 [(0, ctxS 0)] [] []).ctx (bits (cmd closeW 2).w 9 0) = some (ctxS 0)) ∧
    ((ctxS 0).tctx = (wPrism closeW 0 [(0, ctxS 0)] [] []).rd (F.CPE_QBIND_CTX (engE 0 []).q)) ∧
    (cmd closeW 2).ver = none := ⟨calmOf ⟨rfl, rfl, rfl, rfl, rfl⟩ (sound rfl rfl) rfl rfl, by decide⟩
theorem witness_Prism_closeNone :
    calm (wPrism closeW 0 [] [] []) ∧ 0 < 16 ∧ (engE 0 []).q < 256 ∧ ((wPrism closeW 0 [] [] []).prismCmd 0 33 = some (engE 0 [], cmd closeW 2)) ∧
    (wPrism closeW 0 [] [] []).ctx (bits (cmd closeW 2).w 9 0) = none ∧
    (cmd closeW 2).ver = none := ⟨calmOf ⟨rfl, rfl, rfl, rfl, rfl⟩ (sound rfl rfl) rfl rfl, by decide⟩
theorem witness_Prism_bind :
    calm (wPrism (bindW 1 5) 0 [] (at_ 393216 (frm 112)) []) ∧ 0 < 16 ∧ (engE 0 []).q < 256 ∧ ((wPrism (bindW 1 5) 0 [] (at_ 393216 (frm 112)) []).prismCmd 0 34 = some (engE 0 [], cmd (bindW 1 5) 2)) ∧
    bits (cmd (bindW 1 5) 2).w 13 0 % 1024 < (wPrism (bindW 1 5) 0 [] (at_ 393216 (frm 112)) []).rd (F.PRM_SURF_SURFACES 0) ∧
    bit (cmd (bindW 1 5) 2).w 20 = true ∧
    geometryOk (bits (cmd (bindW 1 5) 2).w 167 160) (bits (cmd (bindW 1 5) 2).w 207 192) (bits (cmd (bindW 1 5) 2).w 223 208) (256 * bits (cmd (bindW 1 5) 2).w 239 224) = true ∧
    (cmd (bindW 1 5) 2).ver = none := ⟨calmOf ⟨rfl, rfl, rfl, rfl, rfl⟩ (sound rfl rfl) rfl rfl, by decide⟩
theorem witness_Prism_bindNone :
    calm (wPrism (bindW 0 5) 0 [] (at_ 393216 (frm 112)) []) ∧ 0 < 16 ∧ (engE 0 []).q < 256 ∧ ((wPrism (bindW 0 5) 0 [] (at_ 393216 (frm 112)) []).prismCmd 0 34 = some (engE 0 [], cmd (bindW 0 5) 2)) ∧
    bits (cmd (bindW 0 5) 2).w 13 0 % 1024 < (wPrism (bindW 0 5) 0 [] (at_ 393216 (frm 112)) []).rd (F.PRM_SURF_SURFACES 0) ∧
    bit (cmd (bindW 0 5) 2).w 20 = false ∧
    (wPrism (bindW 0 5) 0 [] (at_ 393216 (frm 112)) []).surf ((wPrism (bindW 0 5) 0 [] (at_ 393216 (frm 112)) []).rd (F.CPE_QBIND_CTX (engE 0 []).q)) (bits (cmd (bindW 0 5) 2).w 13 0) = none ∧
    (cmd (bindW 0 5) 2).ver = none := ⟨calmOf ⟨rfl, rfl, rfl, rfl, rfl⟩ (sound rfl rfl) rfl rfl, by decide⟩
theorem witness_Prism_decode :
    (0 < 16 ∧ (engE 0 []).q < 256 ∧ ((wPrism decW 0 [(0, ctxS 0)] [] []).ctx (bits (cmd decW 2).w 9 0) = some (ctxS 0)) ∧
    ((ctxS 0).tctx = (wPrism decW 0 [(0, ctxS 0)] [] []).rd (F.CPE_QBIND_CTX (engE 0 []).q)) ∧ parB (ctxS 0).par 1 = 0 ∧
    ((wPrism decW 0 [(0, ctxS 0)] [] []).streamOk (ctxS 0).tctx 0 (bits (cmd decW 2).w 77 64) = true) ∧
    ((wPrism decW 0 [(0, ctxS 0)] [] []).pictureOk (ctxS 0).tctx 0 (bits (cmd decW 2).w 205 192) (parOutW (ctxS 0).par) (parOutH (ctxS 0).par) = true) ∧
    ((wPrism decW 0 [(0, ctxS 0)] [] []).oddOut (ctxS 0).tctx (bits (cmd decW 2).w 205 192) (parOutW (ctxS 0).par) (parOutH (ctxS 0).par) = false) ∧
    ((wPrism decW 0 [(0, ctxS 0)] [] []).prismCmd 0 35 = some (engE 0 [], cmd decW 2)) ∧
    (∀ (u : SurfSt), sget (fun x => none) (wPrism decW 0 [(0, ctxS 0)] [] []).surfs (bits (cmd decW 2).w 77 64) = some u → ∀ y ∈ u.slices, ∀ f ∈ y.frames, f ≠ none) ∧
    (∀ (u : SurfSt), sget (fun x => none) (wPrism decW 0 [(0, ctxS 0)] [] []).surfs (bits (cmd decW 2).w 205 192) = some u → ∀ y ∈ u.slices, ∀ f ∈ y.frames, f ≠ none) ∧
    (∀ (u : SurfSt), sget (fun x => none) (wPrism decW 0 [(0, ctxS 0)] [] []).surfs (parPool (ctxS 0).par frame.pool) = some u → ∀ y ∈ u.slices, ∀ f ∈ y.frames, f ≠ none) ∧
    (cmd decW 2).ver = none ∧ frame.ref = none) ∧
    calm (wPrism decW 0 [(0, ctxS 0)] [] []) := ⟨by decide, calmOf ⟨rfl, rfl, rfl, rfl, rfl⟩ (sound rfl rfl) rfl rfl⟩
theorem witness_Prism_watchdog :
    (0 < 16 ∧ (engE 0 []).q < 256 ∧ ((wPrism decW 0 [(0, ctxS 0)] [] []).ctx (bits (cmd decW 2).w 9 0) = some (ctxS 0)) ∧
    ((ctxS 0).tctx = (wPrism decW 0 [(0, ctxS 0)] [] []).rd (F.CPE_QBIND_CTX (engE 0 []).q)) ∧ parB (ctxS 0).par 1 = 0 ∧
    ((wPrism decW 0 [(0, ctxS 0)] [] []).streamOk (ctxS 0).tctx 0 (bits (cmd decW 2).w 77 64) = true) ∧
    ((wPrism decW 0 [(0, ctxS 0)] [] []).pictureOk (ctxS 0).tctx 0 (bits (cmd decW 2).w 205 192) (parOutW (ctxS 0).par) (parOutH (ctxS 0).par) = true) ∧
    ((wPrism decW 0 [(0, ctxS 0)] [] []).oddOut (ctxS 0).tctx (bits (cmd decW 2).w 205 192) (parOutW (ctxS 0).par) (parOutH (ctxS 0).par) = false) ∧
    ((wPrism decW 0 [(0, ctxS 0)] [] []).prismAny 0 = some (engE 0 [], cmd decW 2)) ∧ (cmd decW 2).op = 35 ∧
    (cmd decW 2).ver = none) ∧
    calm (wPrism decW 0 [(0, ctxS 0)] [] []) := ⟨by decide, calmOf ⟨rfl, rfl, rfl, rfl, rfl⟩ (sound rfl rfl) rfl rfl⟩
theorem witness_Prism_encode :
    (0 < 16 ∧ (engE 0 []).q < 256 ∧ ((wPrism encW 0 [(0, ctxS 1)] [] []).ctx (bits (cmd encW 2).w 9 0) = some (ctxS 1)) ∧
    ((ctxS 1).tctx = (wPrism encW 0 [(0, ctxS 1)] [] []).rd (F.CPE_QBIND_CTX (engE 0 []).q)) ∧
    ((wPrism encW 0 [(0, ctxS 1)] [] []).prismCmd 0 36 = some (engE 0 [], cmd encW 2)) ∧
    ((wPrism encW 0 [(0, ctxS 1)] [] []).encodeRefused 0 (engE 0 []) (cmd encW 2) = none) ∧
    (∀ (u : SurfSt), sget (fun x => none) (wPrism encW 0 [(0, ctxS 1)] [] []).surfs (bits (cmd encW 2).w 77 64) = some u → ∀ y ∈ u.slices, ∀ f ∈ y.frames, f ≠ none) ∧
    (∀ (u : SurfSt), sget (fun x => none) (wPrism encW 0 [(0, ctxS 1)] [] []).surfs (bits (cmd encW 2).w 173 160) = some u → ∀ y ∈ u.slices, ∀ f ∈ y.frames, f ≠ none) ∧
    (∀ (u : SurfSt), sget (fun x => none) (wPrism encW 0 [(0, ctxS 1)] [] []).surfs (parPool (ctxS 1).par encR.pool) = some u → ∀ y ∈ u.slices, ∀ f ∈ y.frames, f ≠ none) ∧
    (cmd encW 2).ver = none) ∧
    calm (wPrism encW 0 [(0, ctxS 1)] [] []) := ⟨by decide, calmOf ⟨rfl, rfl, rfl, rfl, rfl⟩ (sound rfl rfl) rfl rfl⟩
theorem witness_Prism_convert :
    (0 < 16 ∧ (engE 0 []).q < 256 ∧ ((wPrism conW 0 [(0, ctxS 2)] [] []).ctx (bits (cmd conW 2).w 9 0) = some (ctxS 2)) ∧
    ((ctxS 2).tctx = (wPrism conW 0 [(0, ctxS 2)] [] []).rd (F.CPE_QBIND_CTX (engE 0 []).q)) ∧
    ((wPrism conW 0 [(0, ctxS 2)] [] []).prismCmd 0 37 = some (engE 0 [], cmd conW 2)) ∧
    (∀ (u : SurfSt), sget (fun x => none) (wPrism conW 0 [(0, ctxS 2)] [] []).surfs (bits (cmd conW 2).w 77 64) = some u → ∀ y ∈ u.slices, ∀ f ∈ y.frames, f ≠ none) ∧
    (∀ (u : SurfSt), sget (fun x => none) (wPrism conW 0 [(0, ctxS 2)] [] []).surfs (bits (cmd conW 2).w 173 160) = some u → ∀ y ∈ u.slices, ∀ f ∈ y.frames, f ≠ none) ∧
    ((wPrism conW 0 [(0, ctxS 2)] [] []).pictureOk (ctxS 2).tctx 0 (bits (cmd conW 2).w 77 64) (parN (ctxS 2).par 64 2 + parN (ctxS 2).par 68 2) (parN (ctxS 2).par 66 2 + parN (ctxS 2).par 70 2) = true) ∧
    ((wPrism conW 0 [(0, ctxS 2)] [] []).pictureOk (ctxS 2).tctx 0 (bits (cmd conW 2).w 173 160) (parOutW (ctxS 2).par) (parOutH (ctxS 2).par) = true) ∧
    ((wPrism conW 0 [(0, ctxS 2)] [] []).oddOut (ctxS 2).tctx (bits (cmd conW 2).w 173 160) (parOutW (ctxS 2).par) (parOutH (ctxS 2).par) = false) ∧
    (cmd conW 2).ver = none) ∧
    calm (wPrism conW 0 [(0, ctxS 2)] [] []) := ⟨by decide, calmOf ⟨rfl, rfl, rfl, rfl, rfl⟩ (sound rfl rfl) rfl rfl⟩
theorem witness_Prism_rcTimeout :
    (0 < 16 ∧ (engE 0 []).q < 256 ∧ ((wPrism encW 0 [(0, ctxS 1)] [] []).ctx (bits (cmd encW 2).w 9 0) = some (ctxS 1)) ∧
    ((ctxS 1).tctx = (wPrism encW 0 [(0, ctxS 1)] [] []).rd (F.CPE_QBIND_CTX (engE 0 []).q)) ∧
    ((wPrism encW 0 [(0, ctxS 1)] [] []).prismCmd 0 36 = some (engE 0 [], cmd encW 2)) ∧ (engE 0 []).next = 0 ∧
    (cmd encW 2).ver = none) ∧
    calm (wPrism encW 0 [(0, ctxS 1)] [] []) := ⟨by decide, calmOf ⟨rfl, rfl, rfl, rfl, rfl⟩ (sound rfl rfl) rfl rfl⟩
theorem witness_StartAndReset_rejected :
    (start 1 []).mrst = false ∧ (start 1 []).standby = true ∧ (start 1 []).rd F.STR_START_STATE = 1 ∧ (start 1 []).tripped = false := by decide
theorem witness_StartAndReset_settings :
    (start 2 []).mrst = false ∧ (start 2 []).standby = true ∧ (start 2 []).rd F.STR_START_STATE = 2 := by decide
theorem witness_StartAndReset_power :
    (start 3 []).mrst = false ∧ (start 3 []).standby = true ∧ (start 3 []).rd F.STR_START_STATE = 3 := by decide
theorem witness_StartAndReset_memory :
    (start 4 []).mrst = false ∧ (start 4 []).standby = true ∧ (start 4 []).rd F.STR_START_STATE = 4 ∧ (start 4 []).rails = true := by decide
theorem witness_StartAndReset_host :
    (start 5 []).mrst = false ∧ (start 5 []).standby = true ∧ (start 5 []).rd F.STR_START_STATE = 5 ∧ (start 5 []).rails = true := by decide
theorem witness_StartAndReset_fabric :
    (start 6 []).mrst = false ∧ (start 6 []).standby = true ∧ (start 6 []).rd F.STR_START_STATE = 6 ∧ (start 6 []).rails = true := by decide
theorem witness_StartAndReset_fails :
    (start 3 []).mrst = false ∧ (start 3 []).standby = true ∧ 3 = 3 ∧ (start 3 []).rd F.STR_START_STATE = 3 := by decide
theorem witness_StartAndReset_lockTimeout :
    (start 7 []).mrst = false ∧ (start 7 []).standby = true ∧ (start 7 []).rd F.STR_START_STATE = 7 ∧ (start 7 []).rd F.STR_START_FAIL_STEP ≠ 7 := by decide
theorem witness_StartAndReset_reset :
    (powered true).mrst = false ∧ (powered true).standby = true := by decide
theorem witness_StartAndReset_release :
    inReset.standby = true ∧ inReset.rd F.STR_START_STATE = 0 := by decide
theorem witness_StartAndReset_standby :
    ({ State.reset with standby := false }).standby = false := by decide
theorem witness_StartAndReset_removal :
    (powered true).standby = true := by decide
theorem witness_CheckpointHalts_start :
    0 < 16 ∧ (wHaltDue.due 3 0).isSome = true ∧ wHaltDue.slotState 0 = 2 ∧ wHaltDue.stopped = false ∧
    (∀ c ∈ wHaltDue.clustersOf 0, wHaltDue.run c = 1) ∧ (∀ p ∈ wHaltDue.engs, p.1 < 40 ∧ p.2.q < 256) ∧
    wHaltDue.turn 5 = true := by decide
theorem witness_CheckpointHalts_end :
    0 < 16 ∧ (wCapture (some 2)).slotState 0 = 3 ∧ (wCapture (some 2)).stopped = false ∧ ((wCapture (some 2)).ck 0).sent = false ∧
    (wCapture (some 2)).kLap 0 + 2 ≤ (wCapture (some 2)).now ∧ 1 < (wCapture (some 2)).members 0 ∧
    (wCapture (some 2)).modIdx 0 ∉ nodeCollectors ((wCapture (some 2)).members 0) (wCapture (some 2)).classX 1 ((wCapture (some 2)).modIdx 0 / 32) ∧
    ((wCapture (some 2)).ck 0).cause.isSome = true := by decide
theorem witness_CheckpointHalts_digests :
    MemSound (wCapture none) ∧ 0 < 16 ∧ (wCapture none).slotState 0 = 3 ∧ (wCapture none).stopped = false ∧ ((wCapture none).ck 0).sent = false ∧
    (wCapture none).kLap 0 + 2 ≤ (wCapture none).now ∧ 1 < (wCapture none).members 0 ∧
    (wCapture none).modIdx 0 ∉ nodeCollectors ((wCapture none).members 0) (wCapture none).classX 1 ((wCapture none).modIdx 0 / 32) ∧
    (∀ p ∈ (wCapture none).dirs, ∀ a ∈ p.2.owner.toList ++ p.2.sharers, a < 2) ∧ ((wCapture none).ck 0).cause = none := ⟨sound rfl rfl, by decide⟩
theorem witness_CheckpointHalts_noDecision :
    0 < 16 ∧ wNoDec.slotState 0 = 3 ∧ wNoDec.stopped = false ∧ (wNoDec.ck 0).dec = none ∧ wNoDec.kLap 0 + 16 ≤ wNoDec.now := by decide
theorem witness_CheckpointHalts_acks :
    0 < 16 ∧ wCapturing.slotState 0 = 3 ∧ wCapturing.stopped = false ∧ (wCapturing.ck 0).capturing = true ∧ (wCapturing.ck 0).cause = none := by decide
theorem witness_CheckpointHalts_resume :
    MemSound wResume ∧ 0 < 16 ∧ wResume.slotState 0 = 3 ∧ wResume.stopped = false ∧ (wResume.ck 0).dec = some ckdec ∧ wResume.now = ckdec.le 24 8 ∧
    wResume.turn 5 = true ∧ (∀ p ∈ wResume.dirs, ∀ a ∈ p.2.owner.toList ++ p.2.sharers, a < 2) := ⟨sound rfl rfl, by decide⟩
theorem witness_CopiesAndVerifies_placed :
    (0 < 16 ∧ (wArea false).stopped = false ∧ (wArea false).slotOfJob ((wArea false).rd (F.STR_SLOT_JOB_ID 0)) = some 0 ∧ 5 < 2 ^ 13 ∧ 3 < 2 ^ 14 ∧
    4 < 2 ^ 10 ∧ 0 < 64 ∧ 64 ≤ 65536 ∧ 9 < 2 ^ 32 ∧ nines.length = 64 ∧
    ((if false = true then ((wArea false).ck 0).area2 else ((wArea false).ck 0).area1).begun = true) ∧
    ((if 3 = 16383 then 65536 * 4 else 2 ^ 19 + 3 * segBytes + 65536 * 4) + 64 ≤ ((wArea false).copyArea 0 false).2)) ∧
    HomeServes (wArea false) (linesOf (((wArea false).copyArea 0 false).1 + (if 3 = 16383 then 65536 * 4 else 2 ^ 19 + 3 * segBytes + 65536 * 4)) 64) :=
  ⟨by decide, serves rfl rfl rfl rfl rfl rfl rfl _⟩
theorem witness_CopiesAndVerifies_refused :
    0 < 16 ∧ wJob.stopped = false ∧ wJob.slotOfJob (wJob.rd (F.STR_SLOT_JOB_ID 0)) = some 0 ∧ 5 < 2 ^ 13 ∧ 3 < 2 ^ 14 ∧ 4 < 2 ^ 10 ∧ 0 < 64 ∧
    64 ≤ 65536 ∧ 9 < 2 ^ 32 ∧ nines.length = 64 ∧
    ((wJob.copyArea 0 false).2 < (if 3 = 16383 then 65536 * 4 else 2 ^ 19 + 3 * segBytes + 65536 * 4) + 64) := by decide
theorem witness_CopiesAndVerifies_forward :
    0 < 16 ∧ ((wArea true).ck 0).area1.forwarding = true ∧ ((wArea true).ck 0).area1.src = some 5 := by decide
theorem witness_CopiesAndVerifies_starts :
    0 < 16 ∧ wJob.rd (F.RES_VERIFY_STATE 0) ≠ 1 := by decide
theorem witness_CopiesAndVerifies_marked :
    MemSound (wVerify 2) ∧ (∀ p ∈ (wVerify 2).dirs, ∀ a ∈ p.2.owner.toList ++ p.2.sharers, a < 2) ∧ 0 < 16 ∧ (wVerify 2).stopped = false ∧ (wVerify 2).rd (F.RES_VERIFY_STATE 0) = 1 ∧ ((wVerify 2).ck 0).vop = 2 ∧
    (∀ x ∈ (segsOf ((wVerify 2).regTable 0)).zipIdx, bit ((wVerify 2).memNat (0x7F800 + 4096 * (wVerify 2).rd (F.RES_VBASE_BASE 0) + x.2 / 8) 1) (x.2 % 8) = true →
      ofLe (sha256 ((wVerify 2).memBytes x.1.1 x.1.2)) = (wVerify 2).memNat (4096 * (wVerify 2).rd (F.RES_VBASE_BASE 0) + 0x100 + 32 * (wVerify 2).memNat (4096 * (wVerify 2).rd (F.RES_VBASE_BASE 0) + 0x10) 2 + 32 * x.2) 32) := ⟨sound rfl rfl, by decide, by decide⟩
theorem witness_CopiesAndVerifies_manifest :
    MemSound wVerifyAll ∧ (∀ p ∈ wVerifyAll.dirs, ∀ a ∈ p.2.owner.toList ++ p.2.sharers, a < 2) ∧ 0 < 16 ∧ wVerifyAll.stopped = false ∧ wVerifyAll.rd (F.RES_VERIFY_STATE 0) = 1 ∧ (wVerifyAll.ck 0).vop = 1 ∧
    wVerifyAll.manifestValid (4096 * wVerifyAll.rd (F.RES_VBASE_BASE 0)) = false := ⟨sound rfl rfl, by decide, by decide⟩
def whoCl : Nat := 1 * 2 ^ 20 + cl0.die * 2 ^ 10 + cl0.idx
def wLocked : State := reserveCl.wr F.LAP_STATUS_STATE 2
theorem witness_SelfTests_arms :
    cl0.wf = true ∧ wLocked.stopped = false ∧ wLocked.tests = [] ∧ wLocked.role cl0 = 1 ∧ (∀ a ∈ wLocked.arms, a.kind ≠ 5) ∧
    wLocked.armReason (wLocked.now + 16) true = none := by decide
def wWindow : State := { wLocked with arms := [⟨5, whoCl, 0, false⟩] }
theorem witness_SelfTests_opens :
    cl0.wf = true ∧ wWindow.stopped = false ∧ wWindow.tests = [] ∧ wWindow.role cl0 = 1 ∧ (wWindow.due 5 whoCl).isSome = true ∧ wWindow.turn 7 = true ∧
    (wWindow.dropArms 5 whoCl).armReason (wWindow.now + 1024) true = none := by decide
def whoPort : Nat := 2 * 2 ^ 20 + (10 + 0) * 2 ^ 10 + 0
def wPortTest : State := { (wPorts 10).wr F.LAP_STATUS_STATE 2 with arms := [⟨5, whoPort, 0, false⟩] }
theorem witness_SelfTests_port :
    cl0.wf = true ∧ wPortTest.stopped = false ∧ wPortTest.tests = [] ∧ 0 < 4 ∧ 0 < 13 ∧ wPortTest.portState (13 * 0 + 0) = 10 ∧
    (wPortTest.due 5 whoPort).isSome = true ∧ wPortTest.turn 7 = true ∧ (wPortTest.dropArms 5 whoPort).armReason (wPortTest.now + 2048) true = none := by decide
def wTestEnds : State := { wTest with arms := [⟨6, whoCl, 0, false⟩] }
theorem witness_SelfTests_passes :
    cl0.wf = true ∧ wTestEnds.stopped = false ∧ (wTestEnds.tests = [⟨1, cl0.die, cl0.idx, 1⟩]) ∧ wTestEnds.role cl0 = 2 ∧ (wTestEnds.due 6 whoCl).isSome = true ∧
    wTestEnds.turn 7 = true ∧ (tres true).passed = true := by decide
theorem witness_SelfTests_fails :
    cl0.wf = true ∧ wTestEnds.stopped = false ∧ (wTestEnds.tests = [⟨1, cl0.die, cl0.idx, 1⟩]) ∧ wTestEnds.role cl0 = 2 ∧ (wTestEnds.due 6 whoCl).isSome = true ∧
    wTestEnds.turn 7 = true ∧ (tres false).passed = false := by decide
theorem witness_SelfTests_deferred :
    cl0.wf = true ∧ wDefer.role cl0 = 0 ∧ (wDefer.slotOfCl cl0).isSome = true ∧ wDefer.deferred.contains (clKey cl0) = false ∧
    (wDefer.cluster cl0).lastTest + 4096 * (16 * wDefer.rd F.RES_CFG_TEST_PERIOD) ≤ wDefer.now := by decide
theorem witness_ManagementAccess_read :
    (powered true).standby = true ∧ Reg.LAP_STATUS % 8 = 0 ∧ Reg.LAP_STATUS < 13631488 ∧ Reg.LAP_STATUS ≠ Reg.LAP_COUNT ∧
    (powered true).rails = true := by decide
theorem witness_ManagementAccess_off :
    (powered false).standby = true ∧ Reg.LAP_STATUS ∉ offReadable ∧ (powered false).rails = false := by decide
theorem witness_ManagementAccess_bad :
    (powered true).standby = true ∧ 3 % 8 ≠ 0 ∧ (powered true).rails = true := by decide
theorem witness_ManagementAccess_writeOther :
    (powered true).standby = true ∧ Reg.LAP_STATUS ≠ Reg.STR_HRST ∧ Reg.LAP_STATUS ≠ Reg.CRM_STOP ∧ Reg.LAP_STATUS ≠ Reg.MON_TRIP := by decide
theorem witness_ManagementAccess_clears :
    (powered true).standby = true ∧ bit (BitVec.ofNat 64 (2 ^ 63)).toNat 63 = true := by decide
theorem witness_ManagementAccess_hrst :
    (powered true).standby = true ∧ (powered true).rails = true ∧
    (bits (BitVec.ofNat 64 (2 ^ 62)).toNat 63 62 = (1, Instr.hostCcReset none (bits (BitVec.ofNat 64 (2 ^ 62)).toNat 61 61)).1) := by decide
theorem witness_ManagementAccess_setaasa :
    (powered true).standby = true := by decide
theorem witness_ManagementAccess_entdaa :
    (powered true).standby = true ∧ 9 < 128 := by decide
theorem witness_ManagementAccess_sensors :
    (powered true).standby = true := by decide
theorem witness_SpdmSession_early :
    (powered true).standby = true := by decide
theorem witness_TapInstructions_reset :
    inReset.standby = true ∧ inReset.mrst = true := by decide
theorem witness_TapInstructions_mission :
    (powered true).standby = true ∧ (powered true).mrst = false := by decide
theorem witness_TapInstructions_preload :
    (powered true).standby = true := by decide
theorem witness_TapInstructions_regread :
    (powered true).standby = true ∧ 8 * bits (drW Reg.LAP_STATUS).toNat 27 3 ≠ Reg.LAP_COUNT ∧ (powered true).rails = true ∧
    8 * bits (drW Reg.LAP_STATUS).toNat 27 3 < 0xD00000 := by decide
theorem witness_TapInstructions_outside :
    (powered true).standby = true ∧ 8 * bits (drW 0xD00000).toNat 27 3 ≠ Reg.LAP_COUNT ∧ (powered true).rails = true ∧
    ¬(8 * bits (drW 0xD00000).toNat 27 3 < 0xD00000 ∨ (0x1000000 ≤ 8 * bits (drW 0xD00000).toNat 27 3 ∧ 8 * bits (drW 0xD00000).toNat 27 3 < 0x1800000)) := by decide
theorem witness_TapInstructions_off :
    (powered false).standby = true ∧ 8 * bits (drW Reg.STR_START).toNat 27 3 ≠ Reg.LAP_COUNT ∧ (powered false).rails = false ∧
    8 * bits (drW Reg.STR_START).toNat 27 3 ∈ offReadable ∧ 8 * bits (drW Reg.LAP_STATUS).toNat 27 3 ∉ offReadable := by decide
/-- Each of these is ill formed by one check alone, `registerWrite` to `clusterFault`. -/
theorem test_wf_refuses_1 (w : Word) (h : BitVec 128) (z : Int) :
    [Instr.registerWrite 4 ⟨0, none⟩ w, Instr.registerWrite (2 ^ 28) ⟨0, none⟩ w, Instr.registerWrite 0 ⟨65, none⟩ w, Instr.registerWrite 0 ⟨0, some 144⟩ w, Instr.rsFieldWrite 4 0 w,
      Instr.rsFieldWrite (2 ^ 28) 0 w, Instr.rsFieldWrite 0 65 w, Instr.eventRingEnable 0,
      Instr.eventRingDisable (BitVec.ofNat 64 (2 ^ 63)), Instr.lmosReceive 52 h z, Instr.laprefLost false false, Instr.dreqReceive 52 h 0,
      Instr.drspReceive 52 h 0, Instr.shdCheck 17, Instr.shdArm 17, Instr.shdWithdraw 17, Instr.shdDiscard 17, Instr.shdApplyNow 17,
      Instr.svoteReceive ⟨1, 256⟩, Instr.spartReceive ⟨1, 256⟩, Instr.sdecReceive ⟨1, 256⟩, Instr.prevoteCollectorClose 4096 0 1,
      Instr.prevoteCollectorClose 4095 0 0, Instr.prevoteCollectorClose 4095 0 6, Instr.prevoteLate 16, Instr.kStep ⟨8, 0⟩,
      Instr.mergeDone ⟨8, 0⟩, Instr.wgqRun ⟨8, 0⟩, Instr.readoutEnd ⟨8, 0⟩, Instr.pushBufferEnter ⟨8, 0⟩, Instr.clusterFault ⟨8, 0⟩ 7 0, Instr.clusterFault ⟨7, 287⟩ 0 0].all (fun i => !i.wf) = true := rfl
/-- Each of these is ill formed by one check alone, `clusterFault` to `srd`. -/
theorem test_wf_refuses_2 (fr : FmtR) (fi : FmtI) (fu : FmtU) (fb : FmtB) (fs : FmtS) (f5 : Fmt5) :
    [Instr.clusterFault ⟨7, 287⟩ 8 0, Instr.clusterRotation 8 3, Instr.clusterRotation 7 4, Instr.clusterRotated 8 3 0,
      Instr.clusterRotated 7 4 0, Instr.alu ⟨8, 0⟩ fr, Instr.addi ⟨8, 0⟩ fi, Instr.andi ⟨8, 0⟩ fi, Instr.ori ⟨8, 0⟩ fi,
      Instr.xori ⟨8, 0⟩ fi, Instr.shli ⟨8, 0⟩ fi, Instr.shri ⟨8, 0⟩ fi, Instr.sari ⟨8, 0⟩ fi, Instr.slti ⟨8, 0⟩ fi, Instr.sltiu ⟨8, 0⟩ fi,
      Instr.lui ⟨8, 0⟩ fu, Instr.beq ⟨8, 0⟩ fb, Instr.bne ⟨8, 0⟩ fb, Instr.blt ⟨8, 0⟩ fb, Instr.bge ⟨8, 0⟩ fb, Instr.bltu ⟨8, 0⟩ fb,
      Instr.bgeu ⟨8, 0⟩ fb, Instr.jal ⟨8, 0⟩ fu, Instr.jalr ⟨8, 0⟩ fi, Instr.ld ⟨8, 0⟩ fi, Instr.lw ⟨8, 0⟩ fi, Instr.st ⟨8, 0⟩ fs,
      Instr.sw ⟨8, 0⟩ fs, Instr.tcpy ⟨8, 0⟩ f5, Instr.srd ⟨8, 0⟩ fi].all (fun i => !i.wf) = true := rfl
/-- Each of these is ill formed by one check alone, `mcfg` to `vsts`. -/
theorem test_wf_refuses_3 (f5 : Fmt5) (fi : FmtI) :
    [Instr.mcfg ⟨8, 0⟩ f5, Instr.mlda ⟨8, 0⟩ f5, Instr.mldb ⟨8, 0⟩ f5, Instr.mma ⟨8, 0⟩ f5, Instr.macc ⟨8, 0⟩ f5, Instr.mdrn ⟨8, 0⟩ f5,
      Instr.mtie ⟨8, 0⟩ f5, Instr.rpush ⟨8, 0⟩ f5, Instr.dq ⟨8, 0⟩ f5, Instr.dqComplete ⟨8, 0⟩ 0, Instr.dwait ⟨8, 0⟩ f5,
      Instr.fence ⟨8, 0⟩ f5, Instr.halt ⟨8, 0⟩ f5, Instr.bar ⟨8, 0⟩ fi, Instr.barrierRelease 8 none 15 15,
      Instr.barrierRelease 7 (some 4) 15 15, Instr.barrierRelease 7 none 16 15, Instr.barrierRelease 7 none 15 16, Instr.wlap ⟨8, 0⟩ fi,
      Instr.wlapComplete ⟨8, 0⟩, Instr.hrdw ⟨8, 0⟩ f5, Instr.hrdwRecord ⟨8, 0⟩, Instr.hrdwOutcomeReturn ⟨8, 0⟩, Instr.evt ⟨8, 0⟩ fi,
      Instr.setvl ⟨8, 0⟩ fi, Instr.vld ⟨8, 0⟩ f5, Instr.vlds ⟨8, 0⟩ f5, Instr.vldb ⟨8, 0⟩ f5, Instr.vst ⟨8, 0⟩ f5, Instr.vsts ⟨8, 0⟩ f5].all (fun i => !i.wf) = true := rfl
/-- Each of these is ill formed by one check alone, `vfv` to `relayBlockReceive`. -/
theorem test_wf_refuses_4 (f5 : Fmt5) (h6 : BitVec 256) :
    [Instr.vfv ⟨8, 0⟩ f5, Instr.vfs ⟨8, 0⟩ f5, Instr.vfu ⟨8, 0⟩ f5, Instr.vsfu ⟨8, 0⟩ f5, Instr.viv ⟨8, 0⟩ f5, Instr.vis ⟨8, 0⟩ f5,
      Instr.vcmpv ⟨8, 0⟩ f5, Instr.vcmps ⟨8, 0⟩ f5, Instr.vsel ⟨8, 0⟩ f5, Instr.vred ⟨8, 0⟩ f5, Instr.vderiv ⟨8, 0⟩ f5,
      Instr.vcvt ⟨8, 0⟩ f5, Instr.vsr ⟨8, 0⟩ f5, Instr.vxcvt ⟨8, 0⟩ f5, Instr.vmv ⟨8, 0⟩ f5, Instr.vputs ⟨8, 0⟩ f5, Instr.vgets ⟨8, 0⟩ f5,
      Instr.seedCastRelease ⟨8, 0⟩, Instr.drainMark 16, Instr.epochFlip 16, Instr.epochFlipLate 16 7 255, Instr.epochFlipLate 15 8 255,
      Instr.epochFlipLate 15 7 256, Instr.epochRelease 16 7 255, Instr.epochRelease 15 8 255, Instr.epochRelease 15 7 256,
      Instr.tieUseApply ⟨8, 0⟩, Instr.relayPushTake ⟨8, 0⟩, Instr.relayBlockReceive 52 ⟨h6, List.replicate 8192 0⟩,
      Instr.relayBlockReceive 51 ⟨h6, []⟩].all (fun i => !i.wf) = true := rfl
/-- Each of these is ill formed by one check alone, `scaleReturnReceive` to `hostLoad`. -/
theorem test_wf_refuses_5 (h6 : BitVec 256) (b : Bool) (pe : PeerId) (rt : RetrainTrigger) (pf : PortFault) (fl : Flit) (h : BitVec 128) (bs : List Byte) (ha : HostAccess) (hm : HostMemType) :
    [Instr.scaleReturnReceive 52 ⟨h6, List.replicate 8192 0⟩, Instr.scaleReturnReceive 51 ⟨h6, []⟩, Instr.relayEngineFail 64,
      Instr.hurdleMark 16, Instr.hurdleContribReceive ⟨1, 256⟩, Instr.hurdlePartialReceive ⟨1, 256⟩, Instr.hurdleCollectorClose 16 1,
      Instr.hurdleCollectorClose 15 0, Instr.hurdleCollectorClose 15 6, Instr.hurdleOutcomeReceive ⟨1, 256⟩, Instr.hurdleLate 16,
      Instr.hurdleOutcomeApply 16, Instr.laserStatusChange 4 b b b 0 0 0, Instr.laserStatusChange 3 b b b (2 ^ 16) 0 0,
      Instr.portTrainStageDone 52 pe, Instr.portTrainStageDone 51 ⟨8192, 51, 2, 256⟩, Instr.portTrainStageDone 51 ⟨8191, 52, 2, 256⟩,
      Instr.portTrainStageDone 51 ⟨8191, 51, 3, 256⟩, Instr.portTrainStageDone 51 ⟨8191, 51, 2, 257⟩, Instr.flitReceive 51 ⟨0, [], 0⟩,
      Instr.portTrainTimeout 52, Instr.portRetrain 52 rt, Instr.portDiagnosis 52 pf,
      Instr.reserveEngineSwap 4, Instr.replayStateDiscard 52, Instr.flitReceive 52 fl, Instr.peerWriteReceive 8192 h bs,
      Instr.peerAckReceive 15 0 b, Instr.peerAckReceive 24 0 b, Instr.peerLost 15 0, Instr.peerLost 24 0, Instr.hostLoad 144 56 8 ha hm,
      Instr.hostLoad 143 56 0 ha hm, Instr.hostLoad 143 60 8 ha hm, Instr.hostLoad 143 (2 ^ 46) 8 ha hm].all (fun i => !i.wf) = true := rfl
/-- Each of these is ill formed by one check alone, `hostStore` to `sqResume`. -/
theorem test_wf_refuses_6 (li : Line) (hm : HostMemType) (b : Bool) (cm : CrMsg) (lt : LinkTrigger) (w : Word) :
    [Instr.hostStore 144 56 8 li hm b, Instr.hostStore 143 56 0 li hm b, Instr.hostStore 143 60 8 li hm b,
      Instr.hostStore 143 (2 ^ 46) 8 li hm b, Instr.hostEvict 2 0, Instr.hostEvict 1 (2 ^ 40), Instr.regwr cm 65, Instr.tenureEnd 2 0,
      Instr.tenureEnd 1 (2 ^ 40), Instr.snoopTimeout 10 0 1, Instr.snoopTimeout 9 (2 ^ 40) 1, Instr.snoopTimeout 9 0 2,
      Instr.biasFlip 10 0 0, Instr.biasFlip 9 (2 ^ 34) 0, Instr.dieFlitReceive 26 4095 b, Instr.dieFlitReceive 25 4096 b,
      Instr.dieLinkRetrainEnter 26 lt 0, Instr.linkRetrain 26 0 0, Instr.dieLinkFail 26, Instr.withdrawTimeout 2,
      Instr.faultResumeRetry 64, Instr.faultResumeAbort 64, Instr.faultRecordFree 64, Instr.trackerDecay 2, Instr.sqDoorbell 256 w,
      Instr.sqOrderedDoorbell 144 255 w, Instr.sqOrderedDoorbell 143 256 w, Instr.submissionFetch 256, Instr.submissionReread 256,
      Instr.sqResume 256].all (fun i => !i.wf) = true := rfl
/-- Each of these is ill formed by one check alone, `sqHalt` to `surfBind`. -/
theorem test_wf_refuses_7 (w : Word) (pr : PcieReq) (pv : PcieEvent) :
    [Instr.sqHalt 256, Instr.queueDisable 256 0, Instr.queueDisable 255 (BitVec.ofNat 64 (2 ^ 63)), Instr.cqHeadWrite 256 w,
      Instr.commandDispatch 40, Instr.copy 16, Instr.peerWrite 15, Instr.peerWrite 24, Instr.snapshot 16, Instr.load 256,
      Instr.programLoaded 16 0, Instr.nop 256, Instr.commandComplete 256, Instr.slotDrainComplete 16, Instr.hostCcReset (some 144) 1,
      Instr.hostCcReset none 2, Instr.hostDieReset (some 144) 1, Instr.hostDieReset none 2, Instr.ccWithdrawDone 2 0,
      Instr.ccResetRelease 2, Instr.ccFirstFetch 2 0, Instr.hdQuiesceDone 2 0, Instr.hdQuiesceTimeout 2, Instr.hdResetRelease 2 0,
      Instr.hdrstAssert 2, Instr.pcieInbound 2 pr, Instr.pcieLink 2 pv, Instr.ctxOpen 16, Instr.ctxClose 16, Instr.surfBind 16].all (fun i => !i.wf) = true := rfl
/-- Each of these is ill formed by one check alone, `decode` to `ckptMessageReceive`. -/
theorem test_wf_refuses_8 (r : FrameResult) (er : EncodeResult) (sr : StartResult) (h : BitVec 128) (bs : List Byte) :
    [Instr.decode 16 r, Instr.encode 16 er, Instr.convert 16 0, Instr.prismRcTimeout 16, Instr.prismWatchdog 16 r,
      Instr.powerSample ⟨0, 0, 0, [], [], [], []⟩, Instr.converterFault 8, Instr.droopDetect ⟨8, 0⟩, Instr.thermalFastHold 640 0,
      Instr.thermalTrip 640 0, Instr.pconReceive ⟨1, 256⟩, Instr.ppartReceive ⟨1, 256⟩, Instr.pdecReceive ⟨1, 256⟩,
      Instr.paceCollectorClose 16 1, Instr.paceCollectorClose 15 0, Instr.paceCollectorClose 15 6, Instr.paceVoteLate 16,
      Instr.paceChange 16, Instr.startStepComplete 0 sr, Instr.startStepComplete 8 sr, Instr.ckptHaltStart 16, Instr.ckptCaptureStart 16,
      Instr.ckconReceive ⟨1, 256⟩, Instr.ckpartReceive ⟨1, 256⟩, Instr.ckdecReceive ⟨1, 256⟩, Instr.ckptCollectorClose 16 1,
      Instr.ckptCollectorClose 15 0, Instr.ckptCollectorClose 15 6, Instr.ckptVoteTimeout 16, Instr.ckptMessageReceive 8192 h bs].all (fun i => !i.wf) = true := rfl
/-- Each of these is ill formed by one check alone, `ckptAckReceive` to `droopRecovered`. -/
theorem test_wf_refuses_9 (b : Bool) (tr : TestResult) (w : Word) :
    [Instr.ckptAckReceive 16 0 0 b, Instr.ckptResume 16, Instr.ckptForwardEnd 16 0 b 0, Instr.verifyAll 16, Instr.verifyMarked 16,
      Instr.verifyDone 16 0, Instr.selftestWindowOpen 0 0 0, Instr.selftestWindowOpen 6 0 0, Instr.selftestWindowClose 0 0 0 tr,
      Instr.selftestWindowClose 6 0 0 tr, Instr.selftestDeferred ⟨8, 0⟩, Instr.mgmtRead (2 ^ 32), Instr.mgmtWrite (2 ^ 32) w,
      Instr.i3cEntdaa 128, Instr.spdmGetCertificate 65536 65535, Instr.spdmGetCertificate 65535 65536, Instr.spdmChallenge (2 ^ 256),
      Instr.spdmGetMeasurements 256, Instr.portRetry 52, Instr.droopRecovered ⟨8, 0⟩ 0].all (fun i => !i.wf) = true := rfl
/-- Well formed, at the edge of each number, `laprefLost` to `blt`. -/
theorem test_wf_accepts_1 (w : Word) (h : BitVec 128) (z : Int) (fr : FmtR) (fi : FmtI) (fu : FmtU) (fb : FmtB) :
    [Instr.laprefLost true false, Instr.registerWrite 0 ⟨0, some 143⟩ w, Instr.rsFieldWrite 0 0 w, Instr.eventRingEnable (BitVec.ofNat 64 (2 ^ 63)),
      Instr.eventRingDisable 0, Instr.lmosReceive 51 h z, Instr.dreqReceive 51 h 0, Instr.drspReceive 51 h 0, Instr.shdCheck 0,
      Instr.shdArm 0, Instr.shdWithdraw 0, Instr.shdDiscard 0, Instr.shdApplyNow 0, Instr.svoteReceive ⟨1, 255⟩,
      Instr.spartReceive ⟨1, 255⟩, Instr.sdecReceive ⟨1, 255⟩, Instr.prevoteCollectorClose 4095 0 1, Instr.prevoteLate 15,
      Instr.kStep ⟨7, 287⟩, Instr.mergeDone ⟨7, 287⟩, Instr.wgqRun ⟨7, 287⟩, Instr.readoutEnd ⟨7, 287⟩, Instr.pushBufferEnter ⟨7, 287⟩,
      Instr.clusterFault ⟨7, 287⟩ 7 0, Instr.clusterRotation 7 3, Instr.clusterRotated 7 3 0, Instr.alu ⟨7, 287⟩ fr,
      Instr.addi ⟨7, 287⟩ fi, Instr.andi ⟨7, 287⟩ fi, Instr.ori ⟨7, 287⟩ fi, Instr.xori ⟨7, 287⟩ fi, Instr.shli ⟨7, 287⟩ fi,
      Instr.shri ⟨7, 287⟩ fi, Instr.sari ⟨7, 287⟩ fi, Instr.slti ⟨7, 287⟩ fi, Instr.sltiu ⟨7, 287⟩ fi, Instr.lui ⟨7, 287⟩ fu,
      Instr.beq ⟨7, 287⟩ fb, Instr.bne ⟨7, 287⟩ fb, Instr.blt ⟨7, 287⟩ fb].all Instr.wf = true := rfl
/-- Well formed, at the edge of each number, `bge` to `vfs`. -/
theorem test_wf_accepts_2 (fb : FmtB) (fu : FmtU) (fi : FmtI) (fs : FmtS) (f5 : Fmt5) :
    [Instr.bge ⟨7, 287⟩ fb, Instr.bltu ⟨7, 287⟩ fb, Instr.bgeu ⟨7, 287⟩ fb, Instr.jal ⟨7, 287⟩ fu, Instr.jalr ⟨7, 287⟩ fi,
      Instr.ld ⟨7, 287⟩ fi, Instr.lw ⟨7, 287⟩ fi, Instr.st ⟨7, 287⟩ fs, Instr.sw ⟨7, 287⟩ fs, Instr.tcpy ⟨7, 287⟩ f5,
      Instr.srd ⟨7, 287⟩ fi, Instr.mcfg ⟨7, 287⟩ f5, Instr.mlda ⟨7, 287⟩ f5, Instr.mldb ⟨7, 287⟩ f5, Instr.mma ⟨7, 287⟩ f5,
      Instr.macc ⟨7, 287⟩ f5, Instr.mdrn ⟨7, 287⟩ f5, Instr.mtie ⟨7, 287⟩ f5, Instr.rpush ⟨7, 287⟩ f5, Instr.dq ⟨7, 287⟩ f5,
      Instr.dqComplete ⟨7, 287⟩ 0, Instr.dwait ⟨7, 287⟩ f5, Instr.fence ⟨7, 287⟩ f5, Instr.halt ⟨7, 287⟩ f5, Instr.bar ⟨7, 287⟩ fi,
      Instr.barrierRelease 7 none 15 15, Instr.wlap ⟨7, 287⟩ fi, Instr.wlapComplete ⟨7, 287⟩, Instr.hrdw ⟨7, 287⟩ f5,
      Instr.hrdwRecord ⟨7, 287⟩, Instr.hrdwOutcomeReturn ⟨7, 287⟩, Instr.evt ⟨7, 287⟩ fi, Instr.setvl ⟨7, 287⟩ fi, Instr.vld ⟨7, 287⟩ f5,
      Instr.vlds ⟨7, 287⟩ f5, Instr.vldb ⟨7, 287⟩ f5, Instr.vst ⟨7, 287⟩ f5, Instr.vsts ⟨7, 287⟩ f5, Instr.vfv ⟨7, 287⟩ f5,
      Instr.vfs ⟨7, 287⟩ f5].all Instr.wf = true := rfl
/-- Well formed, at the edge of each number, `vfu` to `peerAckReceive`. -/
theorem test_wf_accepts_3 (f5 : Fmt5) (b : Bool) (rt : RetrainTrigger) (pf : PortFault) (h : BitVec 128) (bs : List Byte) :
    [Instr.vfu ⟨7, 287⟩ f5, Instr.vsfu ⟨7, 287⟩ f5, Instr.viv ⟨7, 287⟩ f5, Instr.vis ⟨7, 287⟩ f5, Instr.vcmpv ⟨7, 287⟩ f5,
      Instr.vcmps ⟨7, 287⟩ f5, Instr.vsel ⟨7, 287⟩ f5, Instr.vred ⟨7, 287⟩ f5, Instr.vderiv ⟨7, 287⟩ f5, Instr.vcvt ⟨7, 287⟩ f5,
      Instr.vsr ⟨7, 287⟩ f5, Instr.vxcvt ⟨7, 287⟩ f5, Instr.vmv ⟨7, 287⟩ f5, Instr.vputs ⟨7, 287⟩ f5, Instr.vgets ⟨7, 287⟩ f5,
      Instr.seedCastRelease ⟨7, 287⟩, Instr.drainMark 15, Instr.epochFlip 15, Instr.epochFlipLate 15 7 255, Instr.epochRelease 15 7 255,
      Instr.tieUseApply ⟨7, 287⟩, Instr.relayPushTake ⟨7, 287⟩, Instr.relayEngineFail 63, Instr.hurdleMark 15,
      Instr.hurdleContribReceive ⟨1, 255⟩, Instr.hurdlePartialReceive ⟨1, 255⟩, Instr.hurdleCollectorClose 15 1,
      Instr.hurdleOutcomeReceive ⟨1, 255⟩, Instr.hurdleLate 15, Instr.hurdleOutcomeApply 15, Instr.laserStatusChange 3 b b b 0 0 0,
      Instr.portTrainStageDone 51 ⟨8191, 51, 2, 256⟩, Instr.portTrainTimeout 51, Instr.portRetrain 51 rt, Instr.portDiagnosis 51 pf,
      Instr.reserveEngineSwap 3, Instr.replayStateDiscard 51, Instr.flitReceive 51 ⟨0, List.replicate 240 0, 0⟩, Instr.peerWriteReceive 8191 h bs,
      Instr.peerAckReceive 16 0 b].all Instr.wf = true := rfl
/-- Well formed, at the edge of each number, `peerLost` to `hdQuiesceDone`. -/
theorem test_wf_accepts_4 (ha : HostAccess) (hm : HostMemType) (li : Line) (b : Bool) (cm : CrMsg) (lt : LinkTrigger) (w : Word) :
    [Instr.peerLost 16 0, Instr.hostLoad 143 56 8 ha hm, Instr.hostStore 143 56 8 li hm b, Instr.hostEvict 1 0, Instr.regwr cm 0,
      Instr.tenureEnd 1 0, Instr.snoopTimeout 9 0 1, Instr.biasFlip 9 0 0, Instr.dieFlitReceive 25 4095 b,
      Instr.dieLinkRetrainEnter 25 lt 0, Instr.linkRetrain 25 0 0, Instr.dieLinkFail 25, Instr.withdrawTimeout 1,
      Instr.faultResumeRetry 63, Instr.faultResumeAbort 63, Instr.faultRecordFree 63, Instr.trackerDecay 1, Instr.sqDoorbell 255 w,
      Instr.sqOrderedDoorbell 143 255 w, Instr.submissionFetch 255, Instr.submissionReread 255, Instr.sqResume 255, Instr.sqHalt 255,
      Instr.queueDisable 255 0, Instr.cqHeadWrite 255 w, Instr.commandDispatch 39, Instr.copy 15, Instr.peerWrite 16, Instr.snapshot 15,
      Instr.load 255, Instr.programLoaded 15 0, Instr.nop 255, Instr.commandComplete 255, Instr.slotDrainComplete 15,
      Instr.hostCcReset none 1, Instr.hostDieReset none 1, Instr.ccWithdrawDone 1 0, Instr.ccResetRelease 1, Instr.ccFirstFetch 1 0,
      Instr.hdQuiesceDone 1 0].all Instr.wf = true := rfl
/-- Well formed, at the edge of each number, `hdQuiesceTimeout` to `selftestWindowOpen`. -/
theorem test_wf_accepts_5 (pr : PcieReq) (pv : PcieEvent) (r : FrameResult) (er : EncodeResult) (sr : StartResult) (h : BitVec 128) (bs : List Byte) (b : Bool) :
    [Instr.hdQuiesceTimeout 1, Instr.hdResetRelease 1 0, Instr.hdrstAssert 1, Instr.pcieInbound 1 pr, Instr.pcieLink 1 pv,
      Instr.ctxOpen 15, Instr.ctxClose 15, Instr.surfBind 15, Instr.decode 15 r, Instr.encode 15 er, Instr.convert 15 0,
      Instr.prismRcTimeout 15, Instr.prismWatchdog 15 r, Instr.powerSample ⟨0, 0, 0, List.replicate 8 (0, 0, 0, 0), [], [], []⟩,
      Instr.converterFault 7, Instr.droopDetect ⟨7, 287⟩, Instr.thermalFastHold 639 0, Instr.thermalTrip 639 0, Instr.pconReceive ⟨1, 255⟩,
      Instr.ppartReceive ⟨1, 255⟩, Instr.pdecReceive ⟨1, 255⟩, Instr.paceCollectorClose 15 1, Instr.paceVoteLate 15, Instr.paceChange 15,
      Instr.startStepComplete 1 sr, Instr.ckptHaltStart 15, Instr.ckptCaptureStart 15, Instr.ckconReceive ⟨1, 255⟩,
      Instr.ckpartReceive ⟨1, 255⟩, Instr.ckdecReceive ⟨1, 255⟩, Instr.ckptCollectorClose 15 1, Instr.ckptVoteTimeout 15,
      Instr.ckptMessageReceive 8191 h bs, Instr.ckptAckReceive 15 0 0 b, Instr.ckptResume 15, Instr.ckptForwardEnd 15 0 b 0,
      Instr.verifyAll 15, Instr.verifyMarked 15, Instr.verifyDone 15 0, Instr.selftestWindowOpen 1 0 0, Instr.selftestWindowOpen 5 0 0].all Instr.wf = true := rfl
/-- Well formed, at the edge of each number, `selftestWindowClose` to `droopRecovered`. -/
theorem test_wf_accepts_6 (tr : TestResult) (w : Word) :
    [Instr.selftestWindowClose 1 0 0 tr, Instr.selftestWindowClose 5 0 0 tr, Instr.selftestDeferred ⟨7, 287⟩, Instr.mgmtRead 0, Instr.mgmtWrite 0 w, Instr.i3cEntdaa 127,
      Instr.spdmGetCertificate 65535 65535, Instr.spdmChallenge 0, Instr.spdmGetMeasurements 255, Instr.portRetry 51,
      Instr.droopRecovered ⟨7, 287⟩ 0].all Instr.wf = true := rfl
/-- Does a step from here answer a next state? -/
def advances (s : State) : Bool := match step s with | .next _ => true | _ => false
/-- Slot 0's copy area, with a message of 64 bytes waiting at the front and a TAP instruction behind it. -/
def wQueue : State := { wArea false with standby := true, mrst := false, pending := [.ckptMessageReceive 5 (ckHdr 7 5 false 3 4 64 9) nines, .bypass] }
theorem witness_TapRule : wQueue.tapOk = true ∧ advances wQueue = true := by decide
theorem witness_TapRule_reset : ({ inReset with pending := [.extest] } : State).tapOk = true ∧ advances { inReset with pending := [.extest] } = true := by decide
theorem witness_MemoryCanonical : wQueue.memOk = true ∧ advances wQueue = true := by decide
theorem witness_QueueKept : wQueue.queueWf = true ∧ advances wQueue = true := by decide

/-- A Relay block with all of its 8,192 payload bytes is well formed. -/
theorem test_wf_relayBlock (h : BitVec 256) (l : List Byte) (n : l.length = 8192) : (Instr.relayBlockReceive 51 ⟨h, l⟩).wf = true := by
  show (decide (51 < 52) && (l.length == 8192)) = true
  rw [n]
  rfl
theorem test_wf_cluster : (⟨0, 288⟩ : ClusterId).wf = false ∧ (⟨8, 0⟩ : ClusterId).wf = false ∧ (⟨7, 287⟩ : ClusterId).wf = true := by decide
theorem test_wf_rails : (Instr.powerSample ⟨0, 0, 0, List.replicate 8 (0, 0, 0, 0), List.replicate 75 (0, 0, 0), [], []⟩).wf = false := by decide

/-! The manual's own worked examples (their source is named with each), and sums done by hand. -/

/-- 08, worked example: 64 modules, tile 90,117. The level-1 adders are modules 5 and 37, the root is module 37. -/
theorem test_relay_tree : treeLevels 64 = 2 ∧ (⟨0, 0, List.range 64, [5]⟩ : PlanTile).adder 90117 1 0 = 5
    ∧ (⟨0, 0, List.range 64, [5]⟩ : PlanTile).adder 90117 1 1 = 37 ∧ (⟨0, 0, List.range 64, [5]⟩ : PlanTile).adder 90117 2 0 = 37 := by decide
/-- 08, worked example: scaled 616 clips to 448 = 0x7E; 52, 20 and 36 are exact at 0x65, 0x5A and 0x61, whatever the random word. -/
theorem test_relay_wire : (srWire 0 false 616 0).2 = true ∧ encodeElem fmtE4m3 (srWire 0 false 616 0).1 = 0x7E
    ∧ [52, 20, 36].map (fun n => encodeElem fmtE4m3 (srWire (2 ^ 32 - 1) false n 0).1) = [0x65, 0x5A, 0x61]
    ∧ (srWire 0 false 52 0).2 = false := by decide
/-- 04, worked example: at multiplier 1 the block stores X −127 and its maximum as 6, and the typical value is lost. -/
theorem test_cast_floor : (castBlock 2 0 [.fin false 3 (-126), .fin false 7 (-141)]).1 = 0
    ∧ (castBlock 2 0 [.fin false 3 (-126), .fin false 7 (-141)]).2.1 = [0x4C, 0] := by decide
/-- 04, worked example: at multiplier 2² the maximum is 24 and the typical value is 2⁻⁹. -/
theorem test_cast_lifted : (castBlock 2 2 [.fin false 3 (-126), .fin false 7 (-141)]).1 = 0
    ∧ (castBlock 2 2 [.fin false 3 (-126), .fin false 7 (-141)]).2.1 = [0x5C, 1] := by decide
/-- 04, worked example: which steps are dark at 1,000 parts per million. -/
theorem test_dark : darkNow 1000 2516 4194304 = true ∧ darkNow 1000 3900 4194304 = true ∧ darkNow 1000 1610613 4194304 = false := by decide
/-- 16, worked example: the collectors of modules 417 and 599 among 600. -/
theorem test_collectors : nodeCollectors 600 false 1 (417 / 32) = [416] ∧ nodeCollectors 600 false 1 (599 / 32) = [576]
    ∧ nodeCollectors 600 false 2 (416 / 512) = [0] ∧ nodeCollectors 600 false 2 (599 / 512) = [512] ∧ nodeCollectors 600 false 3 0 = [0] := by decide
/-- 09, worked example: port 22 of fabric index 1,234 among 256 pods faces port 35 of 5,933. -/
theorem test_wiring : (setF State.reset [(F.ACM_CFG_FI, 1234), (F.ACM_CFG_PODS, 256), (F.ACM_PORT_STAT_INDEX 22, 5), (F.ACM_PORT_STAT_ROLE 22, 1)]).expectedPeer 22
    = some (5933, 35) := by decide
/-- Sums by hand: ADD wraps, SAR keeps the sign, MULHU, the least signed, CLZ of 0. -/
theorem test_alu : aluFn 0 (BitVec.ofNat 64 (2 ^ 64 - 1)) 1 = some 0 ∧ aluFn 7 (BitVec.ofNat 64 (2 ^ 63)) 63 = some (BitVec.ofNat 64 (2 ^ 64 - 1))
    ∧ aluFn 9 (BitVec.ofNat 64 (2 ^ 64 - 1)) 2 = some 1 ∧ aluFn 12 (BitVec.ofNat 64 (2 ^ 63)) 1 = some (BitVec.ofNat 64 (2 ^ 63))
    ∧ aluFn 16 0 0 = some 64 := by decide

end Sys2Proof.Tests
end

section
/-!
SUPPORT. The scalar instructions of the cluster sequencer (R171, R183 to R186): what the word of a sequencer instruction decodes to,
and one lemma per shared operation (ALU, immediate, shift, branch, jump).
-/

namespace Sys2Proof
open Sys2Proof

/-! Fields of a word that is put together from fields. -/

theorem bits_or (a b hi lo : Nat) : bits (a ||| b) hi lo = bits a hi lo ||| bits b hi lo := by
  apply Nat.eq_of_testBit_eq
  intro i
  simp [testBit_bits, Bool.and_or_distrib_left]

theorem bits_place_self (hi lo v : Nat) : bits (place hi lo v) hi lo = v % 2 ^ (hi + 1 - lo) := by
  apply Nat.eq_of_testBit_eq
  intro i
  by_cases h : i < hi + 1 - lo <;> simp [testBit_bits, testBit_place, Nat.testBit_mod_two_pow, h]

/-- A field placed below another one does not show in it. -/
theorem bits_place_below (hi lo v hi' lo' : Nat) (h : hi' < lo) : bits (place hi' lo' v) hi lo = 0 := by
  apply Nat.eq_of_testBit_eq
  intro i
  have hi' : ¬ lo + i - lo' < hi' + 1 - lo' := by omega
  simp [testBit_bits, testBit_place, hi']

end Sys2Proof

namespace Sys2Proof.Machine
open Sys2Proof

/-! The opcode of an instruction word stands at bits 31 to 25 in every format (R180). -/

section
variable {op : Nat} (h : op < 128)
include h

theorem opcode_place : bits (place 31 25 op) 31 25 = op := by
  rw [bits_place_self]
  exact Nat.mod_eq_of_lt h

theorem opcode_wordR (f : FmtR) : bits (wordR op f) 31 25 = op := by
  simp [wordR, bits_or, bits_place_below, opcode_place h]

theorem opcode_wordI (f : FmtI) : bits (wordI op f) 31 25 = op := by
  simp [wordI, bits_or, bits_place_below, opcode_place h]

theorem opcode_wordS (f : FmtS) : bits (wordS op f) 31 25 = op := by
  simp [wordS, bits_or, bits_place_below, opcode_place h]

theorem opcode_wordB (f : FmtB) : bits (wordB op f) 31 25 = op := by
  simp [wordB, bits_or, bits_place_below, opcode_place h]

theorem opcode_wordU (f : FmtU) : bits (wordU op f) 31 25 = op := by
  simp [wordU, bits_or, bits_place_below, opcode_place h]

theorem opcode_word5 (f : Fmt5) : bits (word5 op f) 31 25 = op := by
  simp [word5, bits_or, bits_place_below, opcode_place h]

end

/-- The word of a sequencer instruction never has an illegal opcode (R182, R250). -/
theorem insnOf_isSome_of_insnWord (cl : ClusterId) {i : Instr} {w : Nat} (h : insnWord i = some w) : (insnOf cl w).isSome = true := by
  unfold insnWord at h
  split at h
  case h_65 => cases h
  all_goals
    obtain rfl := Option.some.inj h
    simp [insnOf, opcode_wordR, opcode_wordI, opcode_wordS, opcode_wordB, opcode_wordU, opcode_word5]

/-! Retiring with the cluster's contents as they were. -/

theorem serase_idem {α : Type} (m : Sparse α) (k : Nat) : serase (serase m k) k = serase m k := by
  simp [serase]

theorem serase_sinsert_self {α : Type} (m : Sparse α) (k : Nat) (v : α) : serase (sinsert m k v) k = serase m k := by
  induction m with
  | nil => simp [sinsert, serase]
  | cons p m ih =>
    obtain ⟨j, w⟩ := p
    unfold sinsert
    split
    · simp [serase_cons]
    · simp [serase_cons, ih]

/-- The later of two writes to one key stands alone. -/
theorem sset_sset {α : Type} [DecidableEq α] (d : Nat → α) (m : Sparse α) (k : Nat) (v w : α) :
    sset d (sset d m k v) k w = sset d m k w := by
  have he : serase (sset d m k v) k = serase m k := by
    unfold sset
    split
    · exact serase_idem m k
    · rw [serase_sinsert_self, serase_idem]
  rw [sset, he, ← sset]

theorem State.setCluster_setCluster (s : State) (cl : ClusterId) (c d : ClusterSt) :
    (s.setCluster cl c).setCluster cl d = s.setCluster cl d := by
  simp [State.setCluster, sset_sset]

theorem State.wr_setCluster (s : State) (cl : ClusterId) (c : ClusterSt) (f : Fld) (v : Nat) :
    (s.setCluster cl c).wr f v = (s.wr f v).setCluster cl c := by
  rw [State.wr, State.setCluster_reg, State.wr]
  rfl

theorem State.endQueueWait_setCluster (s : State) (cl : ClusterId) (c : ClusterSt) :
    (s.setCluster cl c).endQueueWait cl = (s.endQueueWait cl).setCluster cl c := by
  simp only [State.endQueueWait, State.showWait, State.setCluster_rd, State.wr_setCluster]
  split <;> rfl

/-- Retiring inside the image with no other effect: nothing differs but the count of instructions, PC, the count of retired
instructions and the end of a wait for a queue. -/
theorem retire_steps_unchanged (s : State) (cl : ClusterId) (target : Nat) (h4 : target % 4 = 0)
    (hl : target < (s.cluster cl).code.length) (h64 : (s.cluster cl).code.length ≤ 65536) :
    Steps s (s.retire cl target) cl (s.cluster cl) target := by
  have hsame : (s.setCluster cl (s.cluster cl)).retire cl target = s.retire cl target := by
    rw [retire_inside _ _ _ h4 (by simpa using hl) (by simpa using h64), retire_inside s cl target h4 hl h64]
    simp only [State.setCluster_cluster_self, State.setCluster_rd, State.endQueueWait_setCluster, State.wr_setCluster,
      State.setCluster_setCluster]
  rw [← hsame]
  exact retire_steps s cl _ target h4 hl h64

/-! Arithmetic: the model's comparisons as comparisons of numbers, and the shared operations (R183, R184). -/

theorem boolWord_slt (a b : Word) : boolWord (a.slt b) = if a.toInt < b.toInt then 1 else 0 := by
  simp [boolWord, BitVec.slt]

theorem boolWord_ult (a b : Word) : boolWord (a.ult b) = if a.toNat < b.toNat then 1 else 0 := by
  simp [boolWord, BitVec.ult]

theorem bne_eq_not_eq (a b : Word) : (a != b) = decide (a ≠ b) := by
  rw [bne, beq_eq_decide, decide_not]

theorem not_slt_eq (a b : Word) : (!a.slt b) = decide (b.toInt ≤ a.toInt) := by
  simp only [BitVec.slt, ← decide_not, not_lt]

theorem not_ult_eq (a b : Word) : (!a.ult b) = decide (b.toNat ≤ a.toNat) := by
  simp only [BitVec.ult, ← decide_not, not_lt]

/-! One lemma per shared operation. Each takes what `exec` does for the instruction (`he`) and the word it stands for (`hw`), both of
which are the definitions unfolded. -/

section
variable {s : State} {cl : ClusterId} {i : Instr}

/-- An instruction whose body writes S[rd] alone writes S[rd] and moves on by 4. -/
theorem exec_writesS {word : Nat} {body : ClusterSt → Issue} {rd : BitVec 5} {v : Word} (he : exec i s = s.issue cl word body)
    (hw : insnWord i = some word) (hb : body (s.cluster cl) = s.retS cl rd v) (hf : Fits s cl i (s.pc cl + 4)) :
    ∃ t, exec i s = .next t ∧ WritesS s t cl rd v (s.pc cl + 4) := by
  rw [he]
  exact issue_steps s cl i word body _ hf hw (insnOf_isSome_of_insnWord cl hw) hb (ClusterSt.setS_code _ _ _)

/-- An instruction whose body writes S[rd] and jumps does these two things. -/
theorem exec_jump_writesS {word target : Nat} {body : ClusterSt → Issue} {rd : BitVec 5} {v : Word}
    (he : exec i s = s.issue cl word body) (hw : insnWord i = some word)
    (hb : body (s.cluster cl) = .jump (s.setCluster cl ((s.cluster cl).setS rd v)) target) (hf : Fits s cl i target) :
    ∃ t, exec i s = .next t ∧ WritesS s t cl rd v target := by
  rw [he]
  exact issue_jumps s cl i word body _ target hf hw (insnOf_isSome_of_insnWord cl hw) hb (ClusterSt.setS_code _ _ _)

/-- ALU with a defined FN, and RS2 zero where FN does not use it (R181, R183). -/
theorem alu_writesS {f : FmtR} {v : Word} (hf : Fits s cl (.alu cl f) (s.pc cl + 4))
    (hv : aluFn f.fn.toNat ((s.cluster cl).sreg f.rs1) ((s.cluster cl).sreg f.rs2) = some v) (hu : f.fn.toNat < 16 ∨ f.rs2 = 0) :
    ∃ t, exec (.alu cl f) s = .next t ∧ WritesS s t cl f.rd v (s.pc cl + 4) := by
  have hlegal : (decide (16 ≤ f.fn.toNat) && decide (f.rs2 ≠ 0)) = false := by
    rcases hu with hlt | h0
    · simp [hlt]
    · simp [h0]
  refine exec_writesS (by rw [exec, execAlu]) rfl ?_ hf
  simp only [hv, hlegal, Bool.false_eq_true, if_false]

/-- ALU under a table of two-operand functions that `aluFn` agrees with. -/
theorem alu_writesS_of_table {f : FmtR} {l : List (Nat × Word)} (hf : Fits s cl (.alu cl f) (s.pc cl + 4))
    (hl : ∀ p ∈ l, p.1 < 16 ∧ aluFn p.1 ((s.cluster cl).sreg f.rs1) ((s.cluster cl).sreg f.rs2) = some p.2) :
    ∀ p ∈ l, f.fn.toNat = p.1 → ∃ t, exec (.alu cl f) s = .next t ∧ WritesS s t cl f.rd p.2 (s.pc cl + 4) := by
  intro p hp hfn
  obtain ⟨h16, hv⟩ := hl p hp
  exact alu_writesS hf (hfn ▸ hv) (.inl (hfn ▸ h16))

/-- An immediate instruction writes its operation's result (R184). -/
theorem immOp_writesS {opc : Nat} {f : FmtI} {op : Word → BitVec 15 → Word} {v : Word} (he : exec i s = immOp cl opc f s op)
    (hw : insnWord i = some (wordI opc f)) (hv : op ((s.cluster cl).sreg f.rs1) f.imm = v) :
    Fits s cl i (s.pc cl + 4) → ∃ t, exec i s = .next t ∧ WritesS s t cl f.rd v (s.pc cl + 4) :=
  exec_writesS he hw (by rw [hv])

/-- A shift by a count below 64 writes its operation's result (R184). -/
theorem shiftOp_writesS {opc : Nat} {f : FmtI} {op : Word → Nat → Word} {v : Word} (hn : f.imm.toNat < 64)
    (he : exec i s = shiftOp cl opc f s op) (hw : insnWord i = some (wordI opc f))
    (hv : op ((s.cluster cl).sreg f.rs1) f.imm.toNat = v) :
    Fits s cl i (s.pc cl + 4) → ∃ t, exec i s = .next t ∧ WritesS s t cl f.rd v (s.pc cl + 4) :=
  exec_writesS he hw ((if_neg (by omega)).trans (by rw [hv]))

/-- A target inside an image of at most 64 KiB is below 2^64. -/
theorem Fits.target_lt {target : Nat} (hf : Fits s cl i target) : target < 2 ^ 64 := by
  obtain ⟨-, -, hl, h64⟩ := hf
  omega

/-- A target below 2^64 is reached without a wrap of PC (R185). -/
theorem branchTarget_eq {pc target : Nat} {off : Int} (h : (target : Int) = pc + 4 * off) (hlt : target < 2 ^ 64) :
    branchTarget pc off = target := by
  unfold branchTarget
  omega

/-- A branch with condition `c` steps to its target or to PC + 4, and changes nothing else (R185). -/
theorem branchOp_steps {opc target : Nat} {f : FmtB} {cond : Word → Word → Bool} {c : Bool} (he : exec i s = branchOp cl opc f s cond)
    (hw : insnWord i = some (wordB opc f)) (hc : cond ((s.cluster cl).sreg f.rs1) ((s.cluster cl).sreg f.rs2) = c)
    (ht : (target : Int) = s.pc cl + (if c then 4 * f.off.toInt else 4)) (hf : Fits s cl i target) :
    ∃ t, exec i s = .next t ∧ Steps s t cl (s.cluster cl) target := by
  have hlt := hf.target_lt
  obtain ⟨hr, h4, hl, h64⟩ := hf
  refine ⟨s.retire cl target, ?_, retire_steps_unchanged s cl target h4 hl h64⟩
  rw [he, branchOp, issue_ready s cl i _ _ hr hw (insnOf_isSome_of_insnWord cl hw)]
  simp only [hc]
  cases c with
  | true => simp [branchTarget_eq (by simpa using ht) hlt]
  | false =>
    have hpc : s.pc cl + 4 = target := by
      simp only [Bool.false_eq_true, if_false] at ht
      omega
    simp [hpc]

end

/-! The obligations. -/

/-- Settles O8: each instruction's body is one write of S[RD], so it steps by `exec_writesS`; S0 is `ClusterSt.sreg_setS`. -/
theorem scalarResults : Obligations.ScalarResults := by
  unfold Obligations.ScalarResults
  refine ⟨fun s cl f hf => ⟨alu_writesS_of_table hf ?_, ?_⟩, fun s cl f => ⟨?_, fun hn => ?_, fun g => ?_⟩,
    fun c rd r v => ⟨?_, ClusterSt.setS_zero c v, ClusterSt.sreg_setS c rd r v⟩⟩
  · simp [aluFn, boolWord, BitVec.slt, BitVec.ult, Nat.shiftRight_eq_div_pow]
  · simp only [List.forall_mem_cons]
    exact ⟨fun hfn h0 => alu_writesS hf (by rw [hfn]; rfl) (.inr h0), fun hfn h0 => alu_writesS hf (by rw [hfn]; rfl) (.inr h0),
      by simp⟩
  · simp only [List.forall_mem_cons]
    exact ⟨immOp_writesS (by rw [exec, execAddi]) rfl (by rfl), immOp_writesS (by rw [exec, execAndi]) rfl (by rfl),
      immOp_writesS (by rw [exec, execOri]) rfl (by rfl), immOp_writesS (by rw [exec, execXori]) rfl (by rfl),
      immOp_writesS (by rw [exec, execSlti]) rfl (by exact boolWord_slt _ _),
      immOp_writesS (by rw [exec, execSltiu]) rfl (by exact boolWord_ult _ _), by simp⟩
  · simp only [List.forall_mem_cons]
    exact ⟨shiftOp_writesS hn (by rw [exec, execShli]) rfl (by rfl), shiftOp_writesS hn (by rw [exec, execShri]) rfl (by rfl),
      shiftOp_writesS hn (by rw [exec, execSari]) rfl (by rfl), by simp⟩
  · exact exec_writesS (by rw [exec, execLui]) rfl (by rfl)
  · simp [ClusterSt.sreg]

/-- Settles O9: every branch is `branchOp` with its own condition; JAL and JALR write S[RD] and jump. -/
theorem controlTransfers : Obligations.ControlTransfers := by
  unfold Obligations.ControlTransfers
  refine ⟨fun s cl f => ?_, fun s cl target => ⟨fun f hf ht => ?_, fun f hf ht => ?_⟩⟩
  · simp only [List.forall_mem_cons]
    exact ⟨fun _ => branchOp_steps (by rw [exec, execBeq]) rfl (by rfl),
      fun _ => branchOp_steps (by rw [exec, execBne]) rfl (by exact bne_eq_not_eq _ _),
      fun _ => branchOp_steps (by rw [exec, execBlt]) rfl (by rfl),
      fun _ => branchOp_steps (by rw [exec, execBge]) rfl (by exact not_slt_eq _ _),
      fun _ => branchOp_steps (by rw [exec, execBltu]) rfl (by rfl),
      fun _ => branchOp_steps (by rw [exec, execBgeu]) rfl (by exact not_ult_eq _ _), by simp⟩
  · exact exec_jump_writesS (by rw [exec, execJal]) rfl (by rw [branchTarget_eq ht hf.target_lt]) hf
  · exact exec_jump_writesS (by rw [exec, execJalr]) rfl (by rw [ht]) hf

end Sys2Proof.Machine
end

section
/-!
SUPPORT. Shootdowns and the decay of the trackers (R500 to R506): what the shared operations of a shootdown leave of the list of shootdowns, what
grants of walker slots change, and one lemma per instruction.
-/

namespace Sys2Proof.Machine
open Sys2Proof

/-- What every step of a fold keeps, the fold keeps. -/
theorem foldl_keeps {σ α τ : Type} (view : σ → τ) (f : σ → α → σ) (h : ∀ x a, view (f x a) = view x) (l : List α) (x : σ) :
    view (l.foldl f x) = view x := by
  induction l generalizing x with
  | nil => rfl
  | cons a l ih => exact (ih (f x a)).trans (h x a)

/-! The list of shootdowns through the writes of memory. -/

section
variable (s : State)

@[simp] theorem State.assertStop_sds : s.assertStop.sds = s.sds := by
  unfold State.assertStop State.pin
  split <;> rfl

@[simp] theorem State.stopDetect_sds (cause detail agent line : Nat) : (s.stopDetect cause detail agent line).sds = s.sds := by
  unfold State.stopDetect
  split
  · rfl
  · exact State.assertStop_sds _

@[simp] theorem State.eccRead_sds (h line k : Nat) : (s.eccRead h line k).sds = s.sds := by
  unfold State.eccRead
  dsimp only
  split
  · rfl
  · rfl
  · exact State.stopDetect_sds s ..

@[simp] theorem State.eccReads_sds (h line : Nat) : (s.eccReads h line).sds = s.sds := by
  unfold State.eccReads
  dsimp only
  split
  · simp
  · split <;> simp

@[simp] theorem State.engineSnoops_sds (write : Bool) (line : Nat) : (s.engineSnoops write line).sds = s.sds := by
  have hcount (who : List Nat) : (who.foldl (fun t a => t.inc (F.CRM_AGENT_SNOOPS a)) s).sds = s.sds :=
    foldl_keeps State.sds (fun t a => t.inc (F.CRM_AGENT_SNOOPS a)) (fun _ _ => rfl) who s
  simp only [State.engineSnoops, apply_ite State.sds, hcount, ite_self]

@[simp] theorem State.accessNow_sds (rs ws : List Nat) : (s.accessNow rs ws).sds = s.sds := by
  unfold State.accessNow
  split
  · simp
  · have hecc (t : State) (l : Nat) : (if t.stopped then t else t.eccReads ((homeOf (64 * l)).getD 31) l).sds = t.sds := by
      split <;> simp
    rw [foldl_keeps State.sds _ (fun t l => State.engineSnoops_sds t true l),
      foldl_keeps State.sds _ (fun t l => State.engineSnoops_sds t false l), foldl_keeps State.sds _ hecc]

@[simp] theorem State.rawBytes_sds (a : Nat) (data : List Byte) : (s.rawBytes a data).sds = s.sds := by
  induction data generalizing s a with
  | nil => rfl
  | cons b bs ih => exact ih _ _

@[simp] theorem State.uncache_sds (line : Nat) : (s.uncache line).sds = s.sds := by
  unfold State.uncache
  split
  · dsimp only
    split <;> simp
  · rfl

@[simp] theorem State.setBytes_sds (a : Nat) (data : List Byte) : (s.setBytes a data).sds = s.sds := by
  induction data generalizing s a with
  | nil => rfl
  | cons b bs ih => exact (ih _ _).trans (State.uncache_sds s _)

@[simp] theorem State.write_sds (a : Nat) (data : List Byte) : (s.write a data).sds = s.sds := by
  unfold State.write
  dsimp only
  split
  · rfl
  · split
    · rfl
    · split <;> simp

@[simp] theorem State.writeNat_sds (a n v : Nat) : (s.writeNat a n v).sds = s.sds := State.write_sds s _ _

/-! The list of shootdowns through the steps of a shootdown (R501). -/

@[simp] theorem State.setQueue_sds (q : Nat) (v : QueueSt) : (s.setQueue q v).sds = s.sds := (rfl)
@[simp] theorem State.putCmd_sds (q : Nat) (c : CmdSt) : (s.putCmd q c).sds = s.sds := (rfl)
@[simp] theorem State.addWalk_sds (q entry side va len : Nat) (write : Bool) : (s.addWalk q entry side va len write).sds = s.sds := (rfl)
@[simp] theorem State.sdWalks_sds (d : SdSt) : (s.sdWalks d).sds = s.sds := (rfl)

@[simp] theorem State.setFrame_sds (j desc : Nat) (e : Bool) (k : Nat) (f : Option Nat) : (s.setFrame j desc e k f).sds = s.sds := by
  unfold State.setFrame
  split
  · rfl
  · split
    · rfl
    · simp

@[simp] theorem State.putSlice_sds (e su : Nat) (x : SliceSt) : (s.putSlice e su x).sds = s.sds :=
  foldl_keeps State.sds _ (fun t _ => State.writeNat_sds t ..) _ s

@[simp] theorem State.sdQueues_sds (d : SdSt) : (s.sdQueues d).1.sds = s.sds := by
  unfold State.sdQueues
  refine foldl_keeps (fun acc : State × Nat × Nat => acc.1.sds) _ (fun acc q => ?_) _ (s, 0, 0)
  refine foldl_keeps (fun acc : State × Nat × Nat => acc.1.sds) _ (fun acc c => ?_) _ acc
  dsimp only
  split
  · rfl
  · rw [apply_ite State.sds, State.putCmd_sds, ite_self]
    refine foldl_keeps State.sds _ (fun t r => ?_) _ acc.1
    rw [apply_ite State.sds, State.addWalk_sds, ite_self]
    refine foldl_keeps State.sds _ (fun u k => ?_) _ t
    split <;> simp

@[simp] theorem State.sdProgram_sds (d : SdSt) : (s.sdProgram d).1.sds = s.sds := by
  unfold State.sdProgram
  split
  · rfl
  · split
    · rfl
    · refine foldl_keeps (fun acc : State × Nat => acc.1.sds) _ (fun acc x => ?_) _ (s, 0)
      refine foldl_keeps State.sds _ (fun t r => ?_) _ acc.1
      refine foldl_keeps State.sds _ (fun u k => ?_) _ t
      split <;> simp

@[simp] theorem State.sdSurfs_sds (d : SdSt) : (s.sdSurfs d).1.sds = s.sds := by
  unfold State.sdSurfs
  refine foldl_keeps (fun acc : State × Nat => acc.1.sds) _ (fun acc p => ?_) _ (s, 0)
  dsimp only
  split
  · rfl
  · exact foldl_keeps State.sds _ (fun t x => State.putSlice_sds t ..) _ _

end

/-! Walker slots. -/

/-- A grant of walker slots changes walks, slots and the turn alone (R489). -/
theorem State.grantWalks_eq (n : Nat) (s : State) :
    ∃ walks slots turn, State.grantWalks n s = { s with walks := walks, slots := slots, walkTurn := turn } := by
  induction n generalizing s with
  | zero => exact ⟨s.walks, s.slots, s.walkTurn, rfl⟩
  | succ n ih =>
    unfold State.grantWalks
    dsimp only
    have hwalk (w : WalkSt) := ih { s with
      walks := s.walks.map (fun x => if x.id = w.id then { x with slot := true } else x), walkTurn := w.q }
    have hload (j : Nat) := ih { s.setSlot j { s.slot j with loadSlot := true } with walkTurn := 256 + j }
    split
    · exact ⟨s.walks, s.slots, s.walkTurn, rfl⟩
    · split
      · exact ⟨s.walks, s.slots, s.walkTurn, rfl⟩
      · exact hwalk _
      · exact hload _
      · split
        · exact hwalk _
        · exact hload _

/-- Showing the walkers changes walks, slots, the turn and XLT_STATUS.WALKERS alone (R489, R490). -/
theorem State.showWalkers_eq (s : State) : ∃ walks slots turn n,
    s.showWalkers = ({ s with walks := walks, slots := slots, walkTurn := turn } : State).wr F.XLT_STATUS_WALKERS n := by
  obtain ⟨walks, slots, turn, h⟩ :=
    State.grantWalks_eq 64 { s with walks := s.walks.map (fun w => if s.walkFree w then w else { w with slot := false }) }
  exact ⟨walks, slots, turn, _, by rw [State.showWalkers, h]⟩

section
variable (s : State)

@[simp] theorem State.showWalkers_sds : s.showWalkers.sds = s.sds := by
  obtain ⟨_, _, _, _, h⟩ := s.showWalkers_eq
  rw [h]
  rfl

@[simp] theorem State.showWalkers_tracker : s.showWalkers.tracker = s.tracker := by
  obtain ⟨_, _, _, _, h⟩ := s.showWalkers_eq
  rw [h]
  rfl

theorem State.showWalkers_rd_ne (f : Fld) (hf : f.off ≠ Reg.XLT_STATUS) : s.showWalkers.rd f = s.rd f := by
  obtain ⟨_, _, _, _, h⟩ := s.showWalkers_eq
  rw [h, State.rd_wr_ne _ f F.XLT_STATUS_WALKERS _ hf]
  rfl

end

/-! The command (R500, R501). -/

/-- Membership in the range of a shootdown. -/
theorem SdSt.covers_iff (d : SdSt) (ctx vpage : Nat) :
    d.covers ctx vpage = true ↔ d.ctx = ctx ∧ d.vpage ≤ vpage ∧ vpage < d.vpage + d.pages := by
  simp [SdSt.covers, and_assoc]

/-- A tracker's count of entries is shown in XLT_TRK_h alone. -/
theorem State.showTrk_rd_ne (s : State) (h : Nat) (f : Fld) (hf : f.off ≠ Reg.XLT_TRK h) : (s.showTrk h).rd f = s.rd f :=
  State.rd_wr_ne s f (F.XLT_TRK_USED h) _ hf

theorem sdStat_ne_trk (h : Nat) : Reg.XLT_SD_STAT ≠ Reg.XLT_TRK h := by
  simp only [Reg.XLT_SD_STAT, Reg.XLT_TRK]
  omega

/-- An accepted shootdown joins the list with its two counts (R501, R503). -/
theorem State.shootdown_sds (s : State) (d : SdSt) :
    ∃ a b, (s.shootdown d).sds = s.sds ++ [{ d with invalidated := a, waited := b }] := by
  refine ⟨((s.sdWalks d).sdQueues d).2.1 + (((s.sdWalks d).sdQueues d).1.sdProgram d).2
    + ((((s.sdWalks d).sdQueues d).1.sdProgram d).1.sdSurfs d).2, ((s.sdWalks d).sdQueues d).2.2 + s.sdDqs d, ?_⟩
  have hs : ((((s.sdWalks d).sdQueues d).1.sdProgram d).1.sdSurfs d).1.sds = s.sds := by simp
  rw [← hs]
  rfl

/-- XLT_SD_STAT.QUEUED shows the length of the list that an accepted shootdown leaves (R502). -/
theorem State.shootdown_queued (s : State) (d : SdSt) :
    (s.shootdown d).rd F.XLT_SD_STAT_QUEUED = (s.shootdown d).sds.length % 2 ^ 4 := by
  unfold State.shootdown
  dsimp only
  rw [State.showTrk_rd_ne _ _ _ (sdStat_ne_trk 1), State.showTrk_rd_ne _ _ _ (sdStat_ne_trk 0)]
  exact State.rd_wr_self _ F.XLT_SD_STAT_QUEUED _ (by decide)

/-- No tracker entry of its range remains after an accepted shootdown (R501). -/
theorem State.shootdown_tracker (s : State) (d : SdSt) {x : TrkEnt} (hx : x ∈ (s.shootdown d).tracker) :
    d.covers x.ctx x.vpage = false := by
  simpa using List.of_mem_filter hx

/-! The four outcomes of the command (R500). -/

theorem State.commandSd_full (s : State) (d : SdSt) (hlen : 8 ≤ s.sds.length) : s.commandSd d = s.wr F.XLT_SD_STAT_RESULT 1 := by
  rw [State.commandSd, if_pos hlen]

theorem State.commandSd_range (s : State) (d : SdSt) (hlen : s.sds.length < 8) (hrange : 2 ^ 36 < d.vpage + d.pages) :
    s.commandSd d = s.wr F.XLT_SD_STAT_RESULT 2 := by
  rw [State.commandSd, if_neg (by omega), if_pos hrange]

theorem State.commandSd_context (s : State) (d : SdSt) (hlen : s.sds.length < 8) (hrange : d.vpage + d.pages ≤ 2 ^ 36)
    (hctx : s.ctxOn d.ctx = false) : s.commandSd d = s.wr F.XLT_SD_STAT_RESULT 3 := by
  rw [State.commandSd, if_neg (by omega), if_neg (by omega), if_pos (by simp [hctx])]

theorem State.commandSd_accepted (s : State) (d : SdSt) (hlen : s.sds.length < 8) (hrange : d.vpage + d.pages ≤ 2 ^ 36)
    (hctx : s.ctxOn d.ctx = true) : s.commandSd d = ((s.shootdown d).wr F.XLT_SD_STAT_RESULT 0).showWalkers := by
  rw [State.commandSd, if_neg (by omega), if_neg (by omega), if_neg (by simp [hctx])]

/-- A shootdown for a range inside the space of an enabled context is accepted while fewer than 8 wait. -/
theorem State.commandSd_accepts (s : State) (d : SdSt) (hlen : s.sds.length < 8) (hrange : d.vpage + d.pages ≤ 2 ^ 36)
    (hctx : s.ctxOn d.ctx = true) : ∃ a b, (s.commandSd d).sds = s.sds ++ [{ d with invalidated := a, waited := b }]
      ∧ (s.commandSd d).rd F.XLT_SD_STAT_RESULT = 0 ∧ (s.commandSd d).rd F.XLT_SD_STAT_QUEUED = s.sds.length + 1
      ∧ ∀ x ∈ (s.commandSd d).tracker, ¬(x.ctx = d.ctx ∧ d.vpage ≤ x.vpage ∧ x.vpage < d.vpage + d.pages) := by
  obtain ⟨a, b, hsds⟩ := s.shootdown_sds d
  rw [State.commandSd_accepted s d hlen hrange hctx]
  refine ⟨a, b, ?_, ?_, ?_, fun x hx hin => ?_⟩
  · rw [State.showWalkers_sds, State.wr_sds, hsds]
  · rw [State.showWalkers_rd_ne _ _ (by decide), State.rd_wr_self _ _ _ (by decide), Nat.zero_mod]
  · rw [State.showWalkers_rd_ne _ _ (by decide), State.rd_wr_disj _ _ _ _ (by decide) (by decide), State.shootdown_queued, hsds,
      List.length_append, List.length_singleton]
    omega
  · rw [State.showWalkers_tracker, State.wr_tracker] at hx
    have hout := s.shootdown_tracker d hx
    rw [(d.covers_iff x.ctx x.vpage).mpr ⟨hin.1.symm, hin.2⟩] at hout
    cases hout

/-! The completion (R501 step 4, R502). -/

section
variable (s : State)

/-- A counter counts one, up to the largest value of its field. -/
theorem State.rd_inc_self (f : Fld) (h : f.hi < 64) : (s.inc f).rd f = min (s.rd f + 1) (2 ^ f.width - 1) := by
  rw [State.inc, State.add, State.rd_wr_self _ _ _ h]
  refine Nat.mod_eq_of_lt ?_
  have hpos : 0 < 2 ^ f.width := Nat.two_pow_pos _
  unfold satTo
  show _ < 2 ^ f.width
  omega

/-- A count in one field leaves a field of other bits alone. -/
theorem State.rd_inc_disj (f g : Fld) (hg : g.hi < 64) (h : f.hi < g.lo ∨ g.hi < f.lo) : (s.inc g).rd f = s.rd f :=
  State.rd_wr_disj s f g _ hg h

/-- The lap count is a number of 64 bits. -/
theorem State.now_lt : s.now < 2 ^ 64 := Nat.mod_lt _ (Nat.two_pow_pos _)

end

/-- The module after the completion of a silent shootdown `d` that took `n` units of 100 ns, with `ds` still waiting. -/
def State.sdEnd (s : State) (d : SdSt) (ds : List SdSt) (n : Nat) : State :=
  let s1 := ({ s with sds := ds } : State).wr F.XLT_STATUS_SD_QUEUED ds.length
  let s2 := (s1.wr F.XLT_SD_STAT_QUEUED ds.length).wr F.XLT_SD_LAP_LAP s.now
  ((s2.wr F.XLT_SD_STAT_DONE_TOKEN d.token).inc F.XLT_SD_STAT_COUNT).wr F.XLT_SD_STAT_WORST
    (max (s.rd F.XLT_SD_STAT_WORST) (satTo 16 n))

/-- The oldest shootdown completes after the lap of its acceptance, and a silent one does no more than `State.sdEnd`. -/
theorem execShootdownComplete_silent (s : State) (n : Nat) {d : SdSt} {ds : List SdSt} (hrun : s.stopped = false)
    (hs : s.sds = d :: ds) (hlap : d.since < s.now) (hn : d.notify = false) :
    execShootdownComplete n s = .next (s.sdEnd d ds n) := by
  have hgo : ¬((s.stopped || decide (s.now ≤ d.since)) = true) := by simpa [hrun] using hlap
  simp only [execShootdownComplete, hs, if_neg hgo, hn, Bool.false_eq_true, if_false, ok, State.sdEnd]

section
variable (s : State) (d : SdSt) (ds : List SdSt) (n : Nat)

theorem State.sdEnd_sds : (s.sdEnd d ds n).sds = ds := (rfl)

theorem State.sdEnd_frame : { s.sdEnd d ds n with regs := s.regs, sds := s.sds } = s := by
  simp [State.sdEnd]

theorem State.sdEnd_token : (s.sdEnd d ds n).rd F.XLT_SD_STAT_DONE_TOKEN = d.token % 2 ^ 15 := by
  unfold State.sdEnd
  rw [State.rd_wr_disj _ _ _ _ (by decide) (by decide), State.rd_inc_disj _ _ _ (by decide) (by decide)]
  exact State.rd_wr_self _ F.XLT_SD_STAT_DONE_TOKEN _ (by decide)

theorem State.sdEnd_lap : (s.sdEnd d ds n).rd F.XLT_SD_LAP_LAP = s.now := by
  unfold State.sdEnd State.inc State.add
  rw [State.rd_wr_ne _ _ _ _ (by decide), State.rd_wr_ne _ _ _ _ (by decide), State.rd_wr_ne _ _ _ _ (by decide)]
  exact (State.rd_wr_self _ F.XLT_SD_LAP_LAP _ (by decide)).trans (Nat.mod_eq_of_lt s.now_lt)

theorem State.sdEnd_queued (h : ds.length < 8) : (s.sdEnd d ds n).rd F.XLT_SD_STAT_QUEUED = ds.length := by
  unfold State.sdEnd
  rw [State.rd_wr_disj _ _ _ _ (by decide) (by decide), State.rd_inc_disj _ _ _ (by decide) (by decide),
    State.rd_wr_disj _ _ _ _ (by decide) (by decide), State.rd_wr_ne _ _ _ _ (by decide)]
  refine (State.rd_wr_self _ F.XLT_SD_STAT_QUEUED _ (by decide)).trans (Nat.mod_eq_of_lt ?_)
  show ds.length < 16
  omega

theorem State.sdEnd_count : (s.sdEnd d ds n).rd F.XLT_SD_STAT_COUNT = min (s.rd F.XLT_SD_STAT_COUNT + 1) 65535 := by
  unfold State.sdEnd
  rw [State.rd_wr_disj _ _ _ _ (by decide) (by decide), State.rd_inc_self _ _ (by decide),
    State.rd_wr_disj _ _ _ _ (by decide) (by decide), State.rd_wr_ne _ _ _ _ (by decide),
    State.rd_wr_disj _ _ _ _ (by decide) (by decide), State.rd_wr_ne _ _ _ _ (by decide)]
  rfl

theorem State.sdEnd_sameRegs : SameRegs [Reg.XLT_STATUS, Reg.XLT_SD_STAT, Reg.XLT_SD_LAP] s (s.sdEnd d ds n) := by
  intro off hoff
  simp only [List.mem_cons, List.not_mem_nil, or_false, not_or] at hoff
  obtain ⟨hstatus, hstat, hlap⟩ := hoff
  unfold State.sdEnd State.inc State.add
  rw [State.wr_reg_ne _ F.XLT_SD_STAT_WORST _ hstat, State.wr_reg_ne _ F.XLT_SD_STAT_COUNT _ hstat,
    State.wr_reg_ne _ F.XLT_SD_STAT_DONE_TOKEN _ hstat, State.wr_reg_ne _ F.XLT_SD_LAP_LAP _ hlap,
    State.wr_reg_ne _ F.XLT_SD_STAT_QUEUED _ hstat, State.wr_reg_ne _ F.XLT_STATUS_SD_QUEUED _ hstatus]
  rfl

end

/-! The decay of a tracker (R506). -/

/-- An entry after a decay of tracker `h`. -/
def State.decayEntry (s : State) (h : Nat) (t : TrkEnt) : TrkEnt :=
  if t.h = h then { t with count := t.count / 2, noted := t.noted && decide (s.trkThresh t ≤ 2 * (t.count / 2)) } else t

theorem State.decayEntry_count (s : State) (h : Nat) (t : TrkEnt) :
    (s.decayEntry h t).count = if t.h = h then t.count / 2 else t.count := apply_ite TrkEnt.count _ _ _

theorem State.decayEntry_frame (s : State) (h : Nat) (t : TrkEnt) : (s.decayEntry h t).frame = t.frame :=
  (apply_ite TrkEnt.frame _ _ _).trans (ite_self _)

/-- At a lap of its period that has not seen it yet, a decay maps the die's entries and notes the lap. -/
theorem execTrackerDecay_due (s : State) (h : Nat) (hlap : s.now % (4096 * 2 ^ s.rd (F.XLT_TRK_DECAY h)) = 0)
    (hfirst : sget (fun _ => 0) s.decayed h ≠ s.now + 1) :
    execTrackerDecay h s =
      .next { s with decayed := sset (fun _ => 0) s.decayed h (s.now + 1), tracker := s.tracker.map (s.decayEntry h) } := by
  rw [execTrackerDecay, if_neg (by simp [hlap, hfirst]), ok]
  rfl

/-- Between the laps of its period nothing decays. -/
theorem execTrackerDecay_idle (s : State) (h : Nat) (hlap : s.now % (4096 * 2 ^ s.rd (F.XLT_TRK_DECAY h)) ≠ 0) :
    execTrackerDecay h s = .next s := by
  rw [execTrackerDecay, if_pos (by simp [hlap]), ok]

/-! The obligation. -/

/-- Outside a stop of the domain the command is `State.commandSd` of what XLT_SD_ADDR and the word say (R500). -/
theorem execShootdownCmd_running (s : State) (v : Word) (hrun : s.stopped = false) :
    execShootdownCmd v s = .next (s.commandSd ⟨bits v.toNat 62 48, bit v.toNat 63, s.rd F.XLT_SD_ADDR_CTX, s.rd F.XLT_SD_ADDR_VA,
      bits v.toNat 35 0 + 1, 0, 0, s.now⟩) := by
  simp only [execShootdownCmd, hrun, Bool.false_eq_true, if_false, ok]

/-- Settles O43: the command is `State.commandSd`, whose four branches are the four outcomes; the completion is `State.sdEnd`; and
the decay is a map over the tracker. -/
theorem shootdowns : Obligations.Shootdowns := by
  unfold Obligations.Shootdowns
  intro s v hrun ctx va pages
  have hcmd := execShootdownCmd_running s v hrun
  refine ⟨fun hlen hrange hctx => ?accepted, fun hlen => ?full, fun hlen hrange => ?range, fun hlen hrange hctx => ?context,
    fun d ds n hs hlen hlap hn => ?completed, fun h => ⟨fun hlap hfirst => ?decayed, execTrackerDecay_idle s h⟩⟩
  case accepted =>
    obtain ⟨a, b, haccepted⟩ := s.commandSd_accepts ⟨_, _, ctx, va, pages, 0, 0, s.now⟩ hlen hrange hctx
    exact ⟨_, a, b, hcmd, haccepted⟩
  case full => exact hcmd.trans (congrArg _ (s.commandSd_full _ hlen))
  case range => exact hcmd.trans (congrArg _ (s.commandSd_range _ hlen hrange))
  case context => exact hcmd.trans (congrArg _ (s.commandSd_context _ hlen hrange hctx))
  case completed =>
    exact ⟨s.sdEnd d ds n, execShootdownComplete_silent s n hrun hs hlap hn, s.sdEnd_sds d ds n, s.sdEnd_token d ds n, s.sdEnd_lap d ds n,
      s.sdEnd_queued d ds n hlen, s.sdEnd_count d ds n, s.sdEnd_frame d ds n, s.sdEnd_sameRegs d ds n⟩
  case decayed =>
    refine ⟨_, execTrackerDecay_due s h hlap hfirst, ?_, ?_, sget_sset_self (fun _ => 0) s.decayed h (s.now + 1), rfl⟩
    · rw [List.map_map]
      exact List.map_congr_left fun x _ => s.decayEntry_count h x
    · rw [List.map_map]
      exact List.map_congr_left fun x _ => s.decayEntry_frame h x

end Sys2Proof.Machine
end

section
/-!
SUPPORT. Reads and writes of the control window (R6 to R9, R445, R672, R673): what a write by access codes does, what staging leaves alone, and
which effect a write of one register has.
-/

namespace Sys2Proof.Machine
open Sys2Proof

/-! Words. -/

/-- Under its own mask a merged word shows the new bits. -/
theorem mergeMask_and_mask (m w v : Word) : mergeMask m w v &&& m = v &&& m := by
  ext i
  simp only [mergeMask, BitVec.getElem_and, BitVec.getElem_or, BitVec.getElem_not]
  cases m[i] <;> simp

/-- A field placed above another one does not show in it. -/
theorem bits_place_above (hi lo v hi' lo' : Nat) (h : hi < lo') : bits (place hi' lo' v) hi lo = 0 := by
  apply Nat.eq_of_testBit_eq
  intro i
  by_cases hin : i < hi + 1 - lo
  · have hlow : ¬ lo' ≤ lo + i := by omega
    simp [testBit_bits, testBit_place, hlow]
  · simp [testBit_bits, hin]

/-- A field of a vector is the field of the number it is made of. -/
theorem bits_ofNat (w n hi lo : Nat) (h : hi < w) : bits (BitVec.ofNat w n).toNat hi lo = bits n hi lo := by
  apply Nat.eq_of_testBit_eq
  intro i
  by_cases hin : i < hi + 1 - lo
  · have hw : lo + i < w := by omega
    simp [testBit_bits, Nat.testBit_mod_two_pow, hw]
  · simp [testBit_bits, hin]

theorem bits_lt (n hi lo : Nat) : bits n hi lo < 2 ^ (hi + 1 - lo) := Nat.mod_lt _ (Nat.two_pow_pos _)

/-! The fields of a message that is put together from fields (R429). -/

section
variable (op src dst txn reqr st : Nat) (host spec fwd : Bool) (addr : Nat) (data : Line)

theorem crMsg_cls : (crMsg op src dst txn reqr st host spec fwd addr data).cls = (opClass op).getD 0 % 2 ^ 2 := by
  rw [CrMsg.cls, crMsg, bits_ofNat _ _ _ _ (by omega)]
  simp [bits_or, bits_place_self, bits_place_below]

theorem crMsg_op : (crMsg op src dst txn reqr st host spec fwd addr data).op = op % 2 ^ 6 := by
  rw [CrMsg.op, crMsg, bits_ofNat _ _ _ _ (by omega)]
  simp [bits_or, bits_place_self, bits_place_below, bits_place_above]

theorem crMsg_dst : (crMsg op src dst txn reqr st host spec fwd addr data).dst = dst % 2 ^ 16 := by
  rw [CrMsg.dst, crMsg, bits_ofNat _ _ _ _ (by omega)]
  simp [bits_or, bits_place_self, bits_place_below, bits_place_above]

theorem crMsg_txn : (crMsg op src dst txn reqr st host spec fwd addr data).txn = txn % 2 ^ 12 := by
  rw [CrMsg.txn, crMsg, bits_ofNat _ _ _ _ (by omega)]
  simp [bits_or, bits_place_self, bits_place_below, bits_place_above]

theorem crMsg_addr : (crMsg op src dst txn reqr st host spec fwd addr data).addr = addr % 2 ^ 40 := by
  rw [CrMsg.addr, crMsg, bits_ofNat _ _ _ _ (by omega)]
  simp [bits_or, bits_place_self, bits_place_above]

end

/-- The register word that a message carries in its line. -/
theorem crMsg_word (op src dst txn reqr st : Nat) (host spec fwd : Bool) (addr : Nat) (w : Word) :
    (crMsg op src dst txn reqr st host spec fwd addr (BitVec.ofNat 512 w.toNat)).word = w := by
  ext i hi
  simpa [CrMsg.word, crMsg, hi] using fun _ => hi.trans (by omega)

/-- A message of a listed OP in its own class reaches the command of its OP (R469). -/
theorem State.receive_own (s : State) (m : CrMsg) (op : Nat) (k : Res) (hrun : s.stopped = false) (hop : m.op = op)
    (hcls : opClass op = some m.cls) : s.receive m op k = k := by
  simp [State.receive, hrun, hop, hcls]

/-! Areas (R671, R672). -/

theorem areaOf_le (off : Nat) : areaOf off ≤ 16 := by
  unfold areaOf
  split
  · exact min_le_left _ _
  · exact le_rfl

/-- SHD_STAT_a has no RS fields. -/
theorem accMask_rs_shdStat {a : Nat} (ha : a ≤ 16) : accMask .rs (Reg.SHD_STAT a) = 0 := by
  have hall : ∀ b < 17, accMask .rs (Reg.SHD_STAT b) = 0 := by decide
  exact hall a (by omega)

theorem ne_shdStat_of_rs {off : Nat} (hrs : accMask .rs off ≠ 0) : off ≠ Reg.SHD_STAT (areaOf off) := by
  intro he
  exact hrs (he ▸ accMask_rs_shdStat (areaOf_le off))

section
variable (s : State)

/-- Showing an area writes SHD_STAT_a at most. -/
theorem State.showArea_onlyRegs (a : Nat) : OnlyRegs [Reg.SHD_STAT a] s (s.showArea a) := by
  unfold State.showArea
  split
  · exact ⟨rfl, fun _ _ => rfl⟩
  · exact ⟨rfl, fun off hoff => State.wr_reg_ne s (F.SHD_STAT_STATE a) _ (List.ne_of_not_mem_cons hoff)⟩

/-- The live word of a register depends on the register itself and on STR_SLOT_0 to STR_SLOT_15. -/
theorem State.liveWord_congr {s t : State} {off : Nat} (hself : t.reg off = s.reg off)
    (hslot : ∀ n, n < 16 → t.reg (Reg.STR_SLOT n) = s.reg (Reg.STR_SLOT n)) : t.liveWord off = s.liveWord off := by
  unfold State.liveWord
  split
  · rename_i hin
    have hn : (off - Reg.SHD_SLOT 0) / 8 < 16 := by
      obtain ⟨⟨hlo, hhi⟩, -⟩ : (Reg.SHD_SLOT 0 ≤ off ∧ off < Reg.SHD_SLOT 16) ∧ off % 8 = 0 := by simpa using hin
      simp only [Reg.SHD_SLOT] at hlo hhi ⊢
      omega
    simp only [State.rd, F.STR_SLOT_STATE, F.STR_SLOT_JOB_ID, F.STR_SLOT_PARTITIONS, hslot _ hn]
  · exact hself

theorem strSlot_ne_shdStat {n : Nat} (a : Nat) (hn : n < 16) : Reg.STR_SLOT n ≠ Reg.SHD_STAT a := by
  simp only [Reg.STR_SLOT, Reg.SHD_STAT]
  omega

theorem State.showArea_liveWord (a : Nat) {off : Nat} (hoff : off ≠ Reg.SHD_STAT a) :
    (s.showArea a).liveWord off = s.liveWord off := by
  obtain ⟨-, hsame⟩ := s.showArea_onlyRegs a
  exact State.liveWord_congr (hsame off (by simpa using hoff)) fun n hn => hsame _ (by simpa using strSlot_ne_shdStat a hn)

/-! RS fields (R672, R673). -/

/-- What was set at a key reads as written where the two defaults agree on it. -/
theorem sget_sset_of_default_eq {α : Type} [DecidableEq α] (d d' : Nat → α) (m : Sparse α) (k : Nat) (v : α) (h : d' k = d k) :
    sget d' (sset d m k v) k = v := by
  unfold sset
  split
  · rw [sget_serase_self, h]
    exact Eq.symm ‹_›
  · exact sget_sinsert_self _ _ _ _ (serase_keys m k)

theorem State.stageWrite_of_noRs {off : Nat} (v : Word) (hrs : accMask .rs off = 0) : s.stageWrite off v = s := by
  simp [State.stageWrite, hrs]

/-- While the area is ARMED or VOTED the write is counted and no more (R673). -/
theorem State.stageWrite_of_armed {off : Nat} (v : Word) (hrs : accMask .rs off ≠ 0) (ha : 2 ≤ s.areaState (areaOf off)) :
    s.stageWrite off v = s.inc F.SHD_CNT_WRITE_IGN := by
  rw [State.stageWrite, if_neg hrs, if_pos ha]

theorem State.stageWrite_of_open {off : Nat} (v : Word) (hrs : accMask .rs off ≠ 0) (ha : s.areaState (areaOf off) < 2) :
    s.stageWrite off v = (s.stage off (mergeMask (accMask .rs off) (s.stagedWord off) v)).showArea (areaOf off) := by
  rw [State.stageWrite, if_neg hrs, if_neg (by omega)]

end

/-- A write of RS fields to an area that is neither ARMED nor VOTED: the fields are staged, SHD_STAT of the area may follow, and no
more changes (R672). -/
theorem State.stageWrite_stages (s : State) {off : Nat} (v : Word) (hrs : accMask .rs off ≠ 0) (ha : s.areaState (areaOf off) < 2) :
    (s.stageWrite off v).stagedWord off = mergeMask (accMask .rs off) (s.stagedWord off) v
      ∧ { s.stageWrite off v with regs := s.regs, staged := s.staged } = s
      ∧ SameRegs [Reg.SHD_STAT (areaOf off)] s (s.stageWrite off v) := by
  rw [s.stageWrite_of_open v hrs ha]
  set w := mergeMask (accMask .rs off) (s.stagedWord off) v
  obtain ⟨hframe, hsame⟩ := (s.stage off w).showArea_onlyRegs (areaOf off)
  have hstaged : ((s.stage off w).showArea (areaOf off)).staged = (s.stage off w).staged := (congrArg State.staged hframe :)
  refine ⟨?_, congrArg (fun t : State => { t with staged := s.staged }) hframe, hsame⟩
  rw [State.stagedWord, hstaged]
  exact sget_sset_of_default_eq s.liveWord _ _ _ _ (State.showArea_liveWord (s.stage off w) (areaOf off) (ne_shdStat_of_rs hrs))

/-- A write by access codes to a register without RS fields (R6). -/
theorem State.plainWrite_of_noRs (s : State) {off : Nat} (v : Word) (hrs : accMask .rs off = 0) :
    (s.plainWrite off v).reg off = (mergeMask (accMask .rw off) (s.reg off) v &&& ~~~ (v &&& accMask .w1c off)) ||| (v &&& accMask .w1s off)
      ∧ OnlyRegs [off] s (s.plainWrite off v) := by
  rw [State.plainWrite, State.stageWrite_of_noRs _ v hrs]
  exact ⟨State.setReg_reg_self .., rfl, fun o ho => State.setReg_reg_ne s _ (by simpa using ho)⟩

/-- A write by access codes to a register with RS fields whose area is neither ARMED nor VOTED (R6, R672). -/
theorem State.plainWrite_of_rs (s : State) {off : Nat} (v : Word) (hrs : accMask .rs off ≠ 0) (ha : s.areaState (areaOf off) < 2) :
    (s.plainWrite off v).stagedWord off &&& accMask .rs off = v &&& accMask .rs off
      ∧ { s.plainWrite off v with regs := s.regs, staged := s.staged } = s
      ∧ SameRegs [off, Reg.SHD_STAT (areaOf off)] s (s.plainWrite off v) := by
  rw [State.plainWrite]
  set s1 := s.setReg off ((mergeMask (accMask .rw off) (s.reg off) v &&& ~~~ (v &&& accMask .w1c off)) ||| (v &&& accMask .w1s off)) with hs1
  have ha1 : s1.areaState (areaOf off) < 2 := by
    rwa [State.areaState, hs1, State.setReg_rd_ne s _ _ (ne_shdStat_of_rs hrs).symm]
  obtain ⟨hstaged, hframe, hsame⟩ := s1.stageWrite_stages v hrs ha1
  refine ⟨?_, congrArg (fun t : State => { t with regs := s.regs, staged := s.staged }) hframe, fun o ho => ?_⟩
  · rw [hstaged, mergeMask_and_mask]
  · simp only [List.mem_cons, List.not_mem_nil, or_false, not_or] at ho
    obtain ⟨hoff, hstat⟩ := ho
    exact (hsame o (by simpa using hstat)).trans (State.setReg_reg_ne s _ hoff)

/-! Commands that write a register. -/

section
variable (s : State) (core : Option Nat) (v : Word)

theorem exec_registerWrite_running (off : Nat) (hrun : s.stopped = false) :
    exec (.registerWrite off ⟨64, core⟩ v) s = s.writeReg core off v := by
  simp [exec, execRegisterWrite, hrun]

theorem exec_rsFieldWrite_running (off : Nat) (hrun : s.stopped = false) :
    exec (.rsFieldWrite off 64 v) s = .next (s.stageWrite off v) := by
  simp [exec, execRsFieldWrite, hrun, ok]

theorem exec_regwr_running (m : CrMsg) (hrun : s.stopped = false) (hop : m.op = 6) (hcls : m.cls = 0) :
    exec (.regwr m 64) s = s.writeReg ((agentOf m.src).map (fun a => 72 * a)) (8 * m.addr) m.word := by
  rw [exec, execRegwr, State.receive_own s m _ _ hrun hop (by rw [hcls]; rfl), if_neg (by omega)]

/-! A write narrower than 64 bits does nothing (R8). -/

theorem exec_registerWrite_narrow (off : Nat) {width : Nat} (hw : width < 64) :
    exec (.registerWrite off ⟨width, core⟩ v) s = .next s := by
  simp [exec, execRegisterWrite, hw, ok]

theorem exec_rsFieldWrite_narrow (off : Nat) {width : Nat} (hw : width < 64) : exec (.rsFieldWrite off width v) s = .next s := by
  simp [exec, execRsFieldWrite, hw, ok]

theorem exec_regwr_narrow (m : CrMsg) {width : Nat} (hw : width < 64) (hrun : s.stopped = false) (hop : m.op = 6) (hcls : m.cls = 0) :
    exec (.regwr m width) s = .next s := by
  rw [exec, execRegwr, State.receive_own s m _ _ hrun hop (by rw [hcls]; rfl), if_pos hw, ok]

/-! What a 64-bit write of one register does. -/

/-- A register whose write has no action of its own is written by its access codes alone. -/
theorem State.writeReg_of_plainOff {off : Nat} (h : plainOff off = true) : s.writeReg core off v = .next (s.plainWrite off v) := by
  simp only [plainOff, Bool.and_eq_true, Bool.not_eq_true'] at h
  obtain ⟨⟨⟨⟨⟨⟨hreg, hpage⟩, hbind⟩, hnamed⟩, hcore⟩, hsurf⟩, hverify⟩ := h
  simp only [List.contains_eq_mem, List.mem_cons, List.not_mem_nil, or_false, decide_eq_false_iff_not, not_or] at hnamed
  obtain ⟨hring, hhead, hhrst, hctl, hstart, hstop, hbias, hfq, hresume, hsd, hnq⟩ := hnamed
  have hsome : (findReg off Machine.regTable).isNone = false := by rw [← Option.not_isSome, hreg]; rfl
  simp only [State.writeReg, hsome, hpage, hbind, hring, hhead, hhrst, hctl, hstart, hstop, hbias, hfq, hresume, hsd, hnq, hcore, hsurf,
    hverify, Bool.false_eq_true, if_false, ok]

theorem State.writeReg_of_noReg {off : Nat} (h : findReg off Machine.regTable = none) : s.writeReg core off v = .next s := by
  rw [State.writeReg, if_pos (by rw [h]; rfl), ok]

theorem State.writeReg_ring : s.writeReg core Reg.STR_RING v = .next (s.writeRing v) := (rfl)
theorem State.writeReg_ringHead : s.writeReg core Reg.STR_RING_HEAD v = .next (s.writeRingHead (v.toNat % 65536)) := (rfl)
theorem State.writeReg_shdCtl : s.writeReg core Reg.SHD_CTL v = shdCtl v.toNat s := (rfl)
theorem State.writeReg_crmStop : s.writeReg core Reg.CRM_STOP v = .next (s.clearStop v) := (rfl)
theorem State.writeReg_biasCmd : s.writeReg core Reg.CRM_BIAS_CMD v = execBiasCmd v s := (rfl)
theorem State.writeReg_fqBase : s.writeReg core Reg.XLT_FQ_BASE v = execFqBaseWrite v s := (rfl)
theorem State.writeReg_sdCmd : s.writeReg core Reg.XLT_SD_CMD v = execShootdownCmd v s := (rfl)

theorem exec_ringHeadWrite_running (hrun : s.stopped = false) :
    exec (.ringHeadWrite v) s = .next (s.writeRingHead (v.toNat % 65536)) := by
  simp [exec, execRingHeadWrite, hrun, ok]

/-- The two commands that write STR_RING, told apart by EN. -/
theorem exec_ringWrite_running (hrun : s.stopped = false) :
    exec (if bit v.toNat 63 then .eventRingEnable v else .eventRingDisable v) s = .next (s.writeRing v) := by
  split
  · simp [exec, execEventRingEnable, hrun, ok]
  · simp [exec, execEventRingDisable, hrun, ok]

/-- A write of 1 to CRM_STOP.VALID clears the three registers of the stop (R474). -/
theorem State.clearStop_clears (hv : bit v.toNat 63 = true) :
    (s.clearStop v).reg Reg.CRM_STOP = 0 ∧ (s.clearStop v).reg Reg.CRM_STOP_LAP = 0 ∧ (s.clearStop v).reg Reg.CRM_STOP_ADDR = 0
      ∧ OnlyRegs [Reg.CRM_STOP, Reg.CRM_STOP_LAP, Reg.CRM_STOP_ADDR] s (s.clearStop v) := by
  rw [State.clearStop, if_pos hv]
  have hreg (o : Nat) : (((s.setReg Reg.CRM_STOP 0).setReg Reg.CRM_STOP_LAP 0).setReg Reg.CRM_STOP_ADDR 0).reg o
      = if o = Reg.CRM_STOP_ADDR then 0 else if o = Reg.CRM_STOP_LAP then 0 else if o = Reg.CRM_STOP then 0 else s.reg o := by
    rw [State.setReg_reg, State.setReg_reg, State.setReg_reg]
  refine ⟨(hreg _).trans rfl, (hreg _).trans rfl, (hreg _).trans rfl, rfl, fun o ho => ?_⟩
  simp only [List.mem_cons, List.not_mem_nil, or_false, not_or] at ho
  obtain ⟨hstop, hlap, haddr⟩ := ho
  rw [hreg, if_neg haddr, if_neg hlap, if_neg hstop]

/-- A count in one field writes its register alone. -/
theorem State.inc_onlyRegs (f : Fld) : OnlyRegs [f.off] s (s.inc f) :=
  ⟨rfl, fun _ ho => State.wr_reg_ne s f _ (List.ne_of_not_mem_cons ho)⟩

end

/-! Reads (R445). -/

section
variable (s : State)

/-- What latching the phase of a read of LAP_COUNT leaves alone. -/
theorem State.beforeRead_lapCount :
    { s.beforeRead Reg.LAP_COUNT with regs := s.regs, free := s.free } = s
      ∧ SameRegs [Reg.LAP_PHASE] s (s.beforeRead Reg.LAP_COUNT) := by
  rw [State.beforeRead, if_pos rfl]
  exact ⟨rfl, fun o ho => State.wr_reg_ne s F.LAP_PHASE_PHASE _ (List.ne_of_not_mem_cons ho)⟩

theorem State.beforeRead_of_ne {off : Nat} (h : off ≠ Reg.LAP_COUNT) : s.beforeRead off = s := if_neg h

theorem State.beforeRead_out (off : Nat) : (s.beforeRead off).out = s.out := by
  unfold State.beforeRead
  split <;> rfl

/-- The value that a read returns is not changed by what the read latches. -/
theorem State.beforeRead_readWord (off : Nat) : (s.beforeRead off).readWord off = s.readWord off := by
  by_cases h : off = Reg.LAP_COUNT
  · subst h
    obtain ⟨hframe, hsame⟩ := s.beforeRead_lapCount
    have hlatched : (s.beforeRead Reg.LAP_COUNT).latched = s.latched := (congrArg State.latched hframe :)
    have hlive : (s.beforeRead Reg.LAP_COUNT).liveWord Reg.LAP_COUNT = s.liveWord Reg.LAP_COUNT := hsame _ (by decide)
    rw [State.readWord, State.readWord, if_neg (by decide), if_neg (by decide), hlatched, hlive]
  · rw [s.beforeRead_of_ne h]

/-- The answer of the register block to a read. -/
def State.readAnswer (m : CrMsg) : CrMsg :=
  crMsg 0x2A m.dst m.src m.txn m.reqr 0 m.host false false m.addr
    (BitVec.ofNat 512 ((s.beforeRead (8 * m.addr)).readWord (8 * m.addr)).toNat)

theorem exec_regrd_running (m : CrMsg) (hrun : s.stopped = false) (hop : m.op = 5) (hcls : m.cls = 0) :
    exec (.regrd m) s = .next ((s.beforeRead (8 * m.addr)).send (.crimon (s.readAnswer m))) := by
  rw [exec, execRegrd, State.receive_own s m _ _ hrun hop (by rw [hcls]; rfl)]
  rfl

/-- The answer goes back to the requester, with its TXN, its address and the value of the register (R445). -/
theorem State.readAnswer_fields (m : CrMsg) :
    (s.readAnswer m).op = 0x2A ∧ (s.readAnswer m).cls = 2 ∧ (s.readAnswer m).dst = m.src ∧ (s.readAnswer m).txn = m.txn
      ∧ (s.readAnswer m).addr = m.addr ∧ (s.readAnswer m).word = s.readWord (8 * m.addr) := by
  refine ⟨(crMsg_op ..).trans (by decide), (crMsg_cls ..).trans (by decide), (crMsg_dst ..).trans (Nat.mod_eq_of_lt (bits_lt ..)),
    (crMsg_txn ..).trans (Nat.mod_eq_of_lt (bits_lt ..)), (crMsg_addr ..).trans (Nat.mod_eq_of_lt (bits_lt ..)),
    (crMsg_word ..).trans (s.beforeRead_readWord _)⟩

end

/-! The obligation. -/

/-- Settles O7: a write is `State.writeReg`, which for a register with no action of its own is `State.plainWrite`; a write of RS fields is
`State.stageWrite`; a read answers after `State.beforeRead`. -/
theorem registerWrites : Obligations.RegisterWrites := by
  unfold Obligations.RegisterWrites
  intro s v core hrun
  have hexec := exec_registerWrite_running s core v
  refine ⟨fun off hplain => ?plain, ?commands, ?shdCtl, fun m off width hw hop hcls => ?narrow,
    fun m hop hcls hword => ⟨?same, fun hplain hrs => ?crimon⟩, fun off hnone => ?none, fun hv => ?stop,
    fun off hrs => ⟨fun hopen => ?staged, fun harmed => ?ignored⟩, fun off hrs => ?noRs, fun m hop hcls => ?read⟩
  case plain =>
    exact ⟨s.plainWrite off v, (hexec off hrun).trans (s.writeReg_of_plainOff core v hplain), s.plainWrite_of_noRs v,
      s.plainWrite_of_rs v⟩
  case commands =>
    simp only [List.forall_mem_cons]
    exact ⟨((hexec _ hrun).trans (s.writeReg_ringHead core v)).trans (exec_ringHeadWrite_running s v hrun).symm,
      (hexec _ hrun).trans (s.writeReg_biasCmd core v),
      (hexec _ hrun).trans (s.writeReg_fqBase core v), (hexec _ hrun).trans (s.writeReg_sdCmd core v),
      ((hexec _ hrun).trans (s.writeReg_ring core v)).trans (exec_ringWrite_running s v hrun).symm, by simp⟩
  case shdCtl =>
    simp only [List.forall_mem_cons, hexec _ hrun, State.writeReg_shdCtl, shdCtl]
    refine ⟨?_, ?_, ?_, ?_, ?_, by simp⟩ <;> (intro h; rw [h]; rfl)
  case narrow =>
    simp only [List.forall_mem_cons]
    exact ⟨exec_registerWrite_narrow s core v off hw, exec_rsFieldWrite_narrow s v off hw, exec_regwr_narrow s m hw hrun hop hcls,
      by simp⟩
  case same => rw [exec_regwr_running s m hrun hop hcls, exec_registerWrite_running s _ v _ hrun, hword]
  case crimon =>
    subst hword
    exact ⟨s.plainWrite (8 * m.addr) m.word, (exec_regwr_running s m hrun hop hcls).trans (s.writeReg_of_plainOff _ _ hplain),
      s.plainWrite_of_noRs m.word hrs⟩
  case none => exact (hexec off hrun).trans (s.writeReg_of_noReg core v hnone)
  case stop => exact ⟨s.clearStop v, (hexec _ hrun).trans (s.writeReg_crmStop core v), s.clearStop_clears v hv⟩
  case staged => exact ⟨_, exec_rsFieldWrite_running s v off hrun, s.stageWrite_stages v hrs hopen⟩
  case ignored =>
    rw [exec_rsFieldWrite_running s v off hrun, s.stageWrite_of_armed v hrs harmed]
    exact ⟨_, rfl, s.rd_inc_self _ (by decide), s.inc_onlyRegs _⟩
  case noRs => rw [exec_rsFieldWrite_running s v off hrun, s.stageWrite_of_noRs v hrs]
  case read =>
    obtain ⟨hop', hcls', hdst, htxn, haddr, hword⟩ := s.readAnswer_fields m
    obtain ⟨hframe, hsame⟩ := s.beforeRead_lapCount
    refine ⟨_, s.readAnswer m, exec_regrd_running s m hrun hop hcls, ?_, hop', hcls', hdst, htxn, haddr, hword, fun hne => ?_, fun he => ?_⟩
    · exact congrArg (· ++ [Out.crimon (s.readAnswer m)]) (s.beforeRead_out _)
    · rw [s.beforeRead_of_ne hne]
      rfl
    · rw [he]
      exact ⟨congrArg (fun t : State => { t with out := s.out }) hframe, hsame⟩

end Sys2Proof.Machine
end

section
/-!
SUPPORT. The management path (R754 to R760): which registers it reaches, what each of its four writes does, the dynamic address and the PLDM
sensors.
-/

namespace Sys2Proof.Machine
open Sys2Proof

/-! Reachability (R758, R760): the rules that a management read and REGREAD share. -/

theorem badOffset_eq_false_iff (off : Nat) :
    badOffset off = false ↔ off % 8 = 0 ∧ (off < 0xD00000 ∨ (0x1000000 ≤ off ∧ off < 0x1800000)) := by
  simp only [badOffset, Bool.or_eq_false_iff, Bool.and_eq_false_iff, decide_eq_false_iff_not, bne_eq_false_iff_eq]
  omega

theorem badOffset_of_misaligned {off : Nat} (h : off % 8 ≠ 0) : badOffset off = true := by simp [badOffset, h]

theorem badOffset_of_offReadable : ∀ off ∈ offReadable, badOffset off = false := by decide

theorem ne_lapCount_of_offReadable : ∀ off ∈ offReadable, off ≠ Reg.LAP_COUNT := by decide

section
variable (s : State) {off : Nat}

theorem State.reachable_iff : s.reachable off = true ↔ s.rails = true ∨ off ∈ offReadable := by simp [State.reachable]

theorem State.reachable_of_rails (h : s.rails = true) : s.reachable off = true := s.reachable_iff.mpr (.inl h)

theorem State.reachable_of_offReadable (h : off ∈ offReadable) : s.reachable off = true := s.reachable_iff.mpr (.inr h)

/-- With the regulators off, a register that R760 does not name cannot be reached. -/
theorem State.not_reachable (hrails : s.rails = false) (hoff : off ∉ offReadable) : s.reachable off = false := by
  rw [Bool.eq_false_iff, ne_eq, s.reachable_iff, not_or]
  exact ⟨by simp [hrails], hoff⟩

end

/-! The first test of every command: is the standby power there? -/

section
variable {s : State} (hpow : s.standby = true)
include hpow

theorem unless_standby (t : State) : (if !s.standby then ok s else ok t) = .next t := if_neg (by simp [hpow])

/-! Reads (R758, R760). -/

/-- A register that is reached at a good offset is read with status 0. -/
theorem exec_mgmtRead_value {off : Nat} (hreach : s.reachable off = true) (hgood : badOffset off = false) (hlap : off ≠ Reg.LAP_COUNT) :
    exec (.mgmtRead off) s = .next (s.send (.mgmtResponse 0 (s.readWord off))) := by
  simp [exec, execMgmtRead, hpow, hreach, hgood, s.beforeRead_of_ne hlap]

theorem exec_mgmtRead_unpowered {off : Nat} (hreach : s.reachable off = false) :
    exec (.mgmtRead off) s = .next (s.send (.mgmtResponse 1 0)) := by
  simp [exec, execMgmtRead, hpow, hreach]

theorem exec_mgmtRead_badOffset {off : Nat} (hreach : s.reachable off = true) (hbad : badOffset off = true) :
    exec (.mgmtRead off) s = .next (s.send (.mgmtResponse 3 0)) := by
  simp [exec, execMgmtRead, hpow, hreach, hbad]

end

/-! Clearing MON_TRIP.VALID (R759). -/

/-- MON_TRIP after a write of it: VALID is cleared by a 1. -/
def State.clearTrip (s : State) (v : Word) : State :=
  s.setReg Reg.MON_TRIP (s.reg Reg.MON_TRIP &&& ~~~ (v &&& accMask .w1c Reg.MON_TRIP))

/-- VALID is the only W1C field of MON_TRIP. -/
theorem accMask_w1c_monTrip : accMask .w1c Reg.MON_TRIP = BitVec.twoPow 64 63 := by decide

/-- Two numbers that agree on the bits of a field have the same field. -/
theorem bits_congr {a b hi lo : Nat} (h : ∀ i, lo ≤ i → i ≤ hi → a.testBit i = b.testBit i) : bits a hi lo = bits b hi lo := by
  apply Nat.eq_of_testBit_eq
  intro i
  rw [testBit_bits, testBit_bits]
  by_cases hin : i < hi + 1 - lo
  · rw [h (lo + i) (by omega) (by omega)]
  · simp [hin]

section
variable (s : State) (v : Word)

/-- Which bits a write of MON_TRIP leaves: all but VALID, and that one if the write has a 0 there. -/
theorem State.clearTrip_testBit {i : Nat} (hi : i < 64) : ((s.clearTrip v).reg Reg.MON_TRIP).toNat.testBit i
    = ((s.reg Reg.MON_TRIP).toNat.testBit i && !(v.toNat.testBit i && decide (63 = i))) := by
  rw [State.clearTrip, State.setReg_reg_self, accMask_w1c_monTrip]
  simp only [BitVec.testBit_toNat, BitVec.getLsbD_and, BitVec.getLsbD_not, BitVec.getLsbD_twoPow, hi, decide_true, Bool.true_and]
  simp

/-- A write of 1 clears VALID (R759). -/
theorem State.clearTrip_valid (hv : bit v.toNat 63 = true) : (s.clearTrip v).rd F.MON_TRIP_VALID = 0 := by
  have hzero : bits ((s.clearTrip v).reg Reg.MON_TRIP).toNat 63 63 = bits 0 63 63 := by
    refine bits_congr fun i hlo hhi => ?_
    obtain rfl : i = 63 := by omega
    have hv63 : v.toNat.testBit 63 = true := hv
    rw [s.clearTrip_testBit v (by omega), hv63]
    simp
  exact hzero

/-- The other fields of MON_TRIP stay. -/
theorem State.clearTrip_rd {hi lo : Nat} (h : hi < 63) : (s.clearTrip v).rd ⟨Reg.MON_TRIP, hi, lo⟩ = s.rd ⟨Reg.MON_TRIP, hi, lo⟩ := by
  refine bits_congr fun i _ (hhi : i ≤ hi) => ?_
  have hne : 63 ≠ i := by omega
  rw [s.clearTrip_testBit v (by omega)]
  simp [hne]

theorem State.clearTrip_sameRegs : SameRegs [Reg.MON_TRIP] s (s.clearTrip v) :=
  fun _ ho => State.setReg_reg_ne s _ (List.ne_of_not_mem_cons ho)

theorem State.clearTrip_out : (s.clearTrip v).out = s.out := State.setReg_out ..

theorem State.clearStop_out : (s.clearStop v).out = s.out := by
  unfold State.clearStop
  split <;> rfl

end

/-! Writes (R759). -/

section
variable (s : State) (v : Word)

/-- KIND 1 of STR_HRST resets a core complex, KIND 2 a host die (R562). -/
theorem hrst_cc (core : Option Nat) {w : Nat} (h : bits w 63 62 = 1) :
    hrst core w s = exec (.hostCcReset core (bits w 61 61)) s := by
  rw [hrst, h]
  rfl

theorem hrst_die (core : Option Nat) {w : Nat} (h : bits w 63 62 = 2) :
    hrst core w s = exec (.hostDieReset core (bits w 61 61)) s := by
  rw [hrst, h]
  rfl

variable {s} (hpow : s.standby = true)
include hpow

theorem exec_mgmtWrite_hrst (hrails : s.rails = true) :
    exec (.mgmtWrite Reg.STR_HRST v) s = hrst none v.toNat (s.send (.mgmtResponse 0 0)) := by
  simp [exec, execMgmtWrite, hpow, hrails]

theorem exec_mgmtWrite_hrst_unpowered (hrails : s.rails = false) :
    exec (.mgmtWrite Reg.STR_HRST v) s = .next (s.send (.mgmtResponse 1 0)) := by
  simp [exec, execMgmtWrite, hpow, hrails]

theorem exec_mgmtWrite_crmStop :
    exec (.mgmtWrite Reg.CRM_STOP v) s = .next ((s.clearStop v).send (.mgmtResponse 0 0)) := by
  have hhrst : Reg.CRM_STOP ≠ Reg.STR_HRST := by decide
  simp [exec, execMgmtWrite, hpow, hhrst]

theorem exec_mgmtWrite_monTrip :
    exec (.mgmtWrite Reg.MON_TRIP v) s = .next ((s.clearTrip v).send (.mgmtResponse 0 0)) := by
  have hhrst : Reg.MON_TRIP ≠ Reg.STR_HRST := by decide
  have hstop : Reg.MON_TRIP ≠ Reg.CRM_STOP := by decide
  simp [exec, execMgmtWrite, hpow, hhrst, hstop, State.clearTrip]

/-- Any other write is answered with status 2 and does nothing. -/
theorem exec_mgmtWrite_refused {off : Nat} (hhrst : off ≠ Reg.STR_HRST) (hstop : off ≠ Reg.CRM_STOP) (htrip : off ≠ Reg.MON_TRIP) :
    exec (.mgmtWrite off v) s = .next (s.send (.mgmtResponse 2 0)) := by
  simp [exec, execMgmtWrite, hpow, hhrst, hstop, htrip]

/-! The dynamic address (R754). -/

theorem exec_i3cSetaasa : exec .i3cSetaasa s = .next (s.wr F.STR_PINS_I3C_DA (0x38 + s.rd F.STR_PINS_MGMT_ADDR)) :=
  unless_standby hpow _

theorem exec_i3cEntdaa (addr : Nat) : exec (.i3cEntdaa addr) s = .next (s.wr F.STR_PINS_I3C_DA addr) := unless_standby hpow _

/-! PLDM (R755). -/

theorem exec_pldmCommand_stateSensor {id x : Nat} (h : s.stateSensor id = some x) :
    exec (.pldmCommand (.stateSensor id)) s = .next (s.send (.pldmResponse 0 x)) := by
  simp [exec, execPldmCommand, hpow, h]

/-- With the regulators on, a numeric sensor answers with its reading. -/
theorem exec_pldmCommand_numericSensor {id x : Nat} (hrails : s.rails = true) (h : s.numericSensor id = some x) :
    exec (.pldmCommand (.numericSensor id)) s = .next (s.send (.pldmResponse 0 x)).tick := by
  simp [exec, execPldmCommand, hpow, hrails, h]

end

/-- A 7-bit address is shown in STR_PINS.I3C_DA, and nothing else changes. -/
theorem State.setDynamicAddress (s : State) {addr : Nat} (h : addr < 128) :
    (s.wr F.STR_PINS_I3C_DA addr).rd F.STR_PINS_I3C_DA = addr ∧ OnlyRegs [Reg.STR_PINS] s (s.wr F.STR_PINS_I3C_DA addr) :=
  ⟨(State.rd_wr_self s _ _ (by decide)).trans (Nat.mod_eq_of_lt h), rfl,
    fun _ ho => State.wr_reg_ne s _ _ (List.ne_of_not_mem_cons ho)⟩

/-- The static addresses are 0x38 to 0x3B. -/
theorem State.staticAddress_lt (s : State) : 0x38 + s.rd F.STR_PINS_MGMT_ADDR < 128 := by
  have h : s.rd F.STR_PINS_MGMT_ADDR < 4 := bits_lt ..
  omega

/-! The obligation. -/

/-- Settles O58: a read is told apart by reach and offset, a write by its register; CRM_STOP.VALID is `State.clearStop`, MON_TRIP.VALID
`State.clearTrip`, STR_HRST the reset of its KIND. -/
theorem managementAccess : Obligations.ManagementAccess := by
  unfold Obligations.ManagementAccess
  intro s hpow answers
  refine ⟨fun off halign hrange hlap hrails => ?read, ?named, fun off hoff hrails => ?unpowered, fun off halign hrails => ?badOffset,
    fun off v hhrst hstop htrip => ?refused, fun v hv => ⟨?crmStop, ?monTrip⟩, fun v => ⟨fun hrails => ?hrstOff, ?hrst⟩, ?setaasa,
    fun addr haddr => ?entdaa, ?sensors, fun hrails => ?voltage⟩
  case read =>
    exact exec_mgmtRead_value hpow (s.reachable_of_rails hrails) ((badOffset_eq_false_iff off).mpr ⟨halign, hrange⟩) hlap
  case named =>
    have hread (off : Nat) (hoff : off ∈ offReadable) : answers (.mgmtRead off) (.mgmtResponse 0 (s.readWord off)) :=
      exec_mgmtRead_value hpow (s.reachable_of_offReadable hoff) (badOffset_of_offReadable off hoff) (ne_lapCount_of_offReadable off hoff)
    have hnamed : [Reg.STR_START, Reg.CRM_STOP, Reg.MON_TRIP] ⊆ offReadable := by decide
    exact fun off hoff => hread off (hnamed hoff)
  case unpowered => exact exec_mgmtRead_unpowered hpow (s.not_reachable hrails hoff)
  case badOffset => exact exec_mgmtRead_badOffset hpow (s.reachable_of_rails hrails) (badOffset_of_misaligned halign)
  case refused => exact exec_mgmtWrite_refused v hpow hhrst hstop htrip
  case crmStop =>
    obtain ⟨hstop, hlap, haddr, -, hsame⟩ := s.clearStop_clears v hv
    exact ⟨_, exec_mgmtWrite_crmStop v hpow, congrArg (· ++ [Out.mgmtResponse 0 0]) (s.clearStop_out v), hstop, hlap, haddr, hsame⟩
  case monTrip =>
    exact ⟨_, exec_mgmtWrite_monTrip v hpow, congrArg (· ++ [Out.mgmtResponse 0 0]) (s.clearTrip_out v), s.clearTrip_valid v hv,
      s.clearTrip_rd v (by decide), s.clearTrip_sameRegs v⟩
  case hrstOff => exact exec_mgmtWrite_hrst_unpowered v hpow hrails
  case hrst =>
    simp only [List.forall_mem_cons]
    exact ⟨fun hrails hkind => (exec_mgmtWrite_hrst v hpow hrails).trans (hrst_cc _ none hkind),
      fun hrails hkind => (exec_mgmtWrite_hrst v hpow hrails).trans (hrst_die _ none hkind), by simp⟩
  case setaasa => exact ⟨_, exec_i3cSetaasa hpow, s.setDynamicAddress s.staticAddress_lt⟩
  case entdaa => exact ⟨_, exec_i3cEntdaa hpow addr, s.setDynamicAddress haddr⟩
  case sensors =>
    simp only [List.forall_mem_cons]
    exact ⟨exec_pldmCommand_stateSensor hpow (by rfl), exec_pldmCommand_stateSensor hpow (by rfl),
      exec_pldmCommand_stateSensor hpow (by rfl), exec_pldmCommand_stateSensor hpow (by rfl), by simp⟩
  case voltage => exact ⟨_, exec_pldmCommand_numericSensor hpow hrails (by rfl), rfl, rfl⟩

end Sys2Proof.Machine
end

section
/-!
SUPPORT. The TAP (R763 to R765): what entering an instruction does, which instructions act as BYPASS, and what REGREAD captures.
-/

namespace Sys2Proof.Machine
open Sys2Proof

/-! Entering an instruction (R763). -/

section
variable (s : State) (ir v : Nat)

theorem State.tap_jtag : (s.tap ir v).jtag = { s.jtag with ir := ir } := (rfl)

theorem State.tap_out : (s.tap ir v).out = s.out ++ [.jtagData v] := (rfl)

theorem State.tap_frame : { s.tap ir v with regs := s.regs, jtag := s.jtag, out := s.out } = s := (rfl)

theorem State.tap_mem : (s.tap ir v).mem = s.mem := (rfl)

/-- The TAP leaves Test-Logic-Reset, which STR_PINS shows. -/
theorem State.tap_sameRegs : SameRegs [Reg.STR_PINS] s (s.tap ir v) :=
  fun _ ho => State.wr_reg_ne { s with jtag := { s.jtag with ir := ir } } F.STR_PINS_TAP_RESET 0 (List.ne_of_not_mem_cons ho)

/-- What an instruction that enters the instruction register does, in full. -/
theorem State.tap_loads {i : Instr} (hexec : exec i s = .next (s.tap ir v)) :
    ∃ t, exec i s = .next t ∧ t.jtag = { s.jtag with ir := ir } ∧ t.out = s.out ++ [.jtagData v]
      ∧ { t with regs := s.regs, jtag := s.jtag, out := s.out } = s ∧ SameRegs [Reg.STR_PINS] s t :=
  ⟨_, hexec, s.tap_jtag ir v, s.tap_out ir v, s.tap_frame ir v, s.tap_sameRegs ir v⟩

/-- While MRST_N is asserted an instruction of the contacts is in force. -/
theorem State.tapHeld_of_mrst (h : s.mrst = true) : s.tapHeld ir v = s.tap ir v := if_pos h

/-- Otherwise it acts as BYPASS. -/
theorem State.tapHeld_of_not_mrst (h : s.mrst = false) : s.tapHeld ir v = s.tap 0xFF 0 := if_neg (by simp [h])

end

/-! What REGREAD captures (R765). -/

section
variable (s : State) (off : Nat)

/-- The status of a register read: 0 valid, 1 not powered, 2 bad offset. -/
def State.tapStatus : Nat := if !s.reachable off then 1 else if badOffset off then 2 else 0

/-- The value and the status as the data register holds them. -/
def State.tapCapture : Nat :=
  (if s.tapStatus off = 0 then (s.readWord off).toNat else 0) ||| place 65 64 (s.tapStatus off)

variable {off}

theorem State.tapCapture_value (hreach : s.reachable off = true) (hgood : badOffset off = false) :
    s.tapCapture off = (s.readWord off).toNat := by
  have hstatus : s.tapStatus off = 0 := by simp [State.tapStatus, hreach, hgood]
  simp [State.tapCapture, hstatus, place]

theorem State.tapCapture_unpowered (hreach : s.reachable off = false) : s.tapCapture off = 2 ^ 64 := by
  have hstatus : s.tapStatus off = 1 := by simp [State.tapStatus, hreach]
  simp [State.tapCapture, hstatus, place]

theorem State.tapCapture_badOffset (hreach : s.reachable off = true) (hbad : badOffset off = true) : s.tapCapture off = 2 * 2 ^ 64 := by
  have hstatus : s.tapStatus off = 2 := by simp [State.tapStatus, hreach, hbad]
  simp [State.tapCapture, hstatus, place]

end

/-! The instructions. -/

section
variable {s : State} (hpow : s.standby = true)
include hpow

theorem exec_bypass : exec .bypass s = .next (s.tap 0xFF 0) := unless_standby hpow _

theorem exec_idcode : exec .idcode s = .next (s.tap 0x01 0x0808A0C3) := unless_standby hpow _

theorem exec_extest : exec .extest s = .next (s.tapHeld 0x06 s.jtag.bsr) := unless_standby hpow _

theorem exec_clamp : exec .clamp s = .next (s.tapHeld 0x04 0) := unless_standby hpow _

theorem exec_highz : exec .highz s = .next (s.tapHeld 0x05 0) := unless_standby hpow _

/-- SAMPLE/PRELOAD enters the instruction, and the boundary register takes `w`. -/
theorem exec_samplePreload (w : Nat) :
    exec (.samplePreload w) s = .next ({ s.tap 0x02 (s.freeNat 0) with jtag := { s.jtag with ir := 0x02, bsr := w } } : State).tick :=
  unless_standby hpow _

/-- REGREAD captures the value and the status, and enters the instruction. -/
theorem exec_regread (dr : BitVec 72) {off : Nat} (hoff : 8 * bits dr.toNat 27 3 = off) (hlap : off ≠ Reg.LAP_COUNT) :
    exec (.regread dr) s
      = .next (({ s with jtag := { s.jtag with capture := s.tapCapture off } } : State).tap 0x20 (s.tapCapture off)) := by
  rw [exec, execRegread, if_neg (by simp [hpow])]
  simp only [hoff, s.beforeRead_of_ne hlap, ite_self]
  rfl

end

/-! The obligation. -/

/-- Settles O60: every instruction is `State.tap` of its code; EXTEST, CLAMP and HIGHZ take it from `State.tapHeld`, and REGREAD shifts
`State.tapCapture` out. -/
theorem tapInstructions : Obligations.TapInstructions := by
  unfold Obligations.TapInstructions
  intro s hpow loads
  refine ⟨s.tap_loads _ _ (exec_bypass hpow), s.tap_loads _ _ (exec_idcode hpow), fun hmrst => ?held, fun hmrst => ?released,
    fun w => ?preload, fun dr => ?regread⟩
  case held =>
    have hin (ir v : Nat) := s.tapHeld_of_mrst ir v hmrst
    exact ⟨s.tap_loads _ _ ((exec_extest hpow).trans (congrArg _ (hin ..))), s.tap_loads _ _ ((exec_clamp hpow).trans (congrArg _ (hin ..))),
      s.tap_loads _ _ ((exec_highz hpow).trans (congrArg _ (hin ..)))⟩
  case released =>
    have hout (ir v : Nat) := s.tapHeld_of_not_mrst ir v hmrst
    exact ⟨s.tap_loads _ _ ((exec_extest hpow).trans (congrArg _ (hout ..))), s.tap_loads _ _ ((exec_clamp hpow).trans (congrArg _ (hout ..))),
      s.tap_loads _ _ ((exec_highz hpow).trans (congrArg _ (hout ..)))⟩
  case preload => exact ⟨_, exec_samplePreload hpow w, rfl, s.tap_mem 0x02 (s.freeNat 0), s.tap_sameRegs 0x02 (s.freeNat 0)⟩
  case regread =>
    intro off hlap
    have hgood (hrange : off < 0xD00000 ∨ (0x1000000 ≤ off ∧ off < 0x1800000)) : badOffset off = false :=
      (badOffset_eq_false_iff off).mpr ⟨Nat.mul_mod_right .., hrange⟩
    have hbad (hrange : ¬(off < 0xD00000 ∨ (0x1000000 ≤ off ∧ off < 0x1800000))) : badOffset off = true := by
      rw [← Bool.not_eq_false, badOffset_eq_false_iff]
      exact fun h => hrange h.2
    exact ⟨_, exec_regread hpow dr rfl hlap, rfl, rfl,
      fun hrails hrange => s.tapCapture_value (s.reachable_of_rails hrails) (hgood hrange),
      fun hrails hrange => s.tapCapture_badOffset (s.reachable_of_rails hrails) (hbad hrange),
      fun _ hoff => s.tapCapture_value (s.reachable_of_offReadable hoff) (badOffset_of_offReadable off hoff),
      fun hrails hoff => s.tapCapture_unpowered (s.not_reachable hrails hoff), rfl,
      State.tap_sameRegs { s with jtag := { s.jtag with capture := s.tapCapture off } } _ _⟩

end Sys2Proof.Machine
end

section

/-! SUPPORT. What every command keeps (O3, O4, O5). One relation between the state a command begins in and a state it passes through, one
lemma per function of the model: each says that its function keeps the relation, and follows the function's own branches. -/
namespace Sys2Proof.Machine
open Sys2Proof

/-- What no command undoes: the commands that wait, what the module has sent, the canonical form of memory, and the rule of the TAP. -/
structure Keeps (s t : State) : Prop where
  pendingEq : t.pending = s.pending
  outPrefix : s.out <+: t.out
  memOk : s.memOk = true → t.memOk = true
  tapOk : s.tapOk = true → t.tapOk = true

/-- The same of the outcome of a command. -/
def KeepsRes (s : State) (r : Res) : Prop := ∀ t, r = .next t → Keeps s t

namespace Keeps
variable {s t u : State}

theorem rfl : Keeps s s := ⟨Eq.refl _, List.prefix_refl _, id, id⟩

theorem trans (h : Keeps s t) (h' : Keeps t u) : Keeps s u :=
  ⟨h'.pendingEq.trans h.pendingEq, h.outPrefix.trans h'.outPrefix, h'.memOk ∘ h.memOk, h'.tapOk ∘ h.tapOk⟩

/-- An update of any other field. -/
theorem same (h : Keeps s t)
    {free regs latched staged ring lap arms votes hdAway clusters stash shards ties slots lines l2 imsic pcieHeld wbs wbTxns dirs bias
      txns reqs reqNo devReqs memQ flushes tenures heldSnps gone leaving credits eccErrs laneUse linkWhy linkSeq stop biasCmd tracker
      nqTail nqPhase nqCount walks walkTurn decayed walkNo fqTail fqPhase sds queues engs rrobin ctxs surfs engHeld moved peerTag odbs
      hostWaits wrNo since told hostPhase rots template ports tests deferred power degr relayTag asks msgNo mgmtDrops engSwap
      relayDead rails tripped standby spdm image imgDigest} :
    Keeps s { t with
      free, regs, latched, staged, ring, lap, arms, votes, hdAway, clusters, stash, shards, ties, slots, lines, l2, imsic, pcieHeld,
      wbs, wbTxns, dirs, bias, txns, reqs, reqNo, devReqs, memQ, flushes, tenures, heldSnps, gone, leaving, credits, eccErrs, laneUse,
      linkWhy, linkSeq, stop, biasCmd, tracker, nqTail, nqPhase, nqCount, walks, walkTurn, decayed, walkNo, fqTail, fqPhase, sds,
      queues, engs, rrobin, ctxs, surfs, engHeld, moved, peerTag, odbs, hostWaits, wrNo, since, told, hostPhase, rots, template,
      ports, tests, deferred, power, degr, relayTag, asks, msgNo, mgmtDrops, engSwap, relayDead, rails, tripped, standby, spdm, image,
      imgDigest } :=
  ⟨h.pendingEq, h.outPrefix, h.memOk, h.tapOk⟩

theorem ite {p : Prop} [Decidable p] (h : Keeps s t) (h' : Keeps s u) : Keeps s (if p then t else u) := by
  split
  · exact h
  · exact h'

theorem foldl {α : Type} {f : State → α → State} {l : List α} (hf : ∀ t a, Keeps s t → Keeps s (f t a)) (h : Keeps s t) :
    Keeps s (l.foldl f t) := by
  induction l generalizing t with
  | nil => exact h
  | cons a l ih => exact ih (hf t a h)

theorem send {x : Out} (h : Keeps s t) : Keeps s (t.send x) := h.trans ⟨Eq.refl _, List.prefix_append _ _, id, id⟩

theorem rawSet {a : Nat} {v : Byte} (h : Keeps s t) : Keeps s (t.rawSet a v) :=
  h.trans ⟨Eq.refl _, List.prefix_refl _, Memory.wf_cellSet _ _ _, id⟩

end Keeps

/-- The same of the state that a walk or a scan hands on. -/
def KeepsFst (s : State) {α : Type} (p : State × α) : Prop := Keeps s p.1

namespace KeepsRes
variable {s t : State} {r r' : Res}

theorem ok (h : Keeps s t) : KeepsRes s (.next t) := by rintro _ ⟨⟩; exact h

theorem ite {p : Prop} [Decidable p] (h : KeepsRes s r) (h' : KeepsRes s r') : KeepsRes s (if p then r else r') := by
  split
  · exact h
  · exact h'

theorem pair {α : Type} {p : State × α} {f : State → α → Res} : KeepsFst s p → (∀ t a, Keeps s t → KeepsRes s (f t a)) →
    KeepsRes s (match p with | (t, a) => f t a) := fun hp hf => hf _ _ hp

end KeepsRes

/-- The same of an issued instruction. -/
def KeepsIssue (s : State) : Issue → Prop
  | .exc _ _ => True
  | .wait t => Keeps s t
  | .ret t => Keeps s t
  | .jump t _ => Keeps s t

namespace KeepsIssue
variable {s t : State} {i i' : Issue}

theorem exc {c a} : KeepsIssue s (.exc c a) := trivial

theorem wait (h : Keeps s t) : KeepsIssue s (.wait t) := h

theorem ret (h : Keeps s t) : KeepsIssue s (.ret t) := h

theorem jump {a} (h : Keeps s t) : KeepsIssue s (.jump t a) := h

theorem ite {p : Prop} [Decidable p] (h : KeepsIssue s i) (h' : KeepsIssue s i') : KeepsIssue s (if p then i else i') := by
  split
  · exact h
  · exact h'

end KeepsIssue

/-- The same of an issue that may not be one. -/
def KeepsOpt (s : State) (o : Option Issue) : Prop := ∀ i ∈ o, KeepsIssue s i

namespace KeepsOpt
variable {s t : State} {i i' : Option Issue}

theorem none : KeepsOpt s none := by rintro _ ⟨⟩

theorem some {i : Issue} (h : KeepsIssue s i) : KeepsOpt s (some i) := by rintro _ ⟨⟩; exact h

theorem ite {p : Prop} [Decidable p] (h : KeepsOpt s i) (h' : KeepsOpt s i') : KeepsOpt s (if p then i else i') := by
  split
  · exact h
  · exact h'

end KeepsOpt

namespace KeepsFst
variable {s t : State} {α : Type} {p q : State × α}

theorem mk {a : α} (h : Keeps s t) : KeepsFst s (t, a) := h

theorem ite {c : Prop} [Decidable c] (h : KeepsFst s p) (h' : KeepsFst s q) : KeepsFst s (if c then p else q) := by
  split
  · exact h
  · exact h'

theorem pair {α β : Type} {p : State × α} {f : State → α → State × β} : KeepsFst s p → (∀ t a, Keeps s t → KeepsFst s (f t a)) →
    KeepsFst s (match p with | (t, a) => f t a) := fun hp hf => hf _ _ hp

theorem foldl {α β : Type} {f : State × β → α → State × β} {l : List α} {p : State × β} (hf : ∀ p a, KeepsFst s p → KeepsFst s (f p a))
    (h : KeepsFst s p) :
    KeepsFst s (l.foldl f p) := by
  induction l generalizing p with
  | nil => exact h
  | cons a l ih => exact ih (hf p a h)

end KeepsFst

namespace Keeps
variable {s t : State}

theorem fst {α : Type} {p : State × α} (h : KeepsFst s p) : Keeps s p.1 := h

theorem of_fst {α : Type} {p : State × α} {a : α} (h : KeepsFst s p) (he : p = (t, a)) : Keeps s t := by subst he; exact h

theorem pair {α : Type} {p : State × α} {f : State → α → State} : KeepsFst s p → (∀ t a, Keeps s t → Keeps s (f t a)) →
    Keeps s (match p with | (t, a) => f t a) := fun hp hf => hf _ _ hp

theorem pair3 {α β : Type} {p : State × α × β} {f : State → α → β → State} : KeepsFst s p → (∀ t a b, Keeps s t → Keeps s (f t a b)) →
    Keeps s (match p with | (t, a, b) => f t a b) := fun hp hf => hf _ _ _ hp

end Keeps

/-- What a vote decides at its root undoes nothing. -/
def VoteSpec.Kept (v : VoteSpec) : Prop := ∀ s t x, Keeps s t → Keeps s (v.decide_ t x)

/-- The same of the answer of a weight epoch's lookup. -/
def KeepsEpoch (s : State) : EpochOut → Prop
  | .raise => True
  | .wait t => Keeps s t
  | .go t => Keeps s t

/-- The same of a stashed write's outcome. -/
def KeepsStash (s : State) : StashOut → Prop
  | .stored t => Keeps s t
  | .dropped t => Keeps s t
  | .stopped t => Keeps s t

/-- The state that a program load leaves, where it leaves one of its own. -/
def LoadOut.after : LoadOut → Option State
  | .refused t _ => some t
  | .fault t .. => some t
  | .done t => some t
  | .busy => none
  | .stop t => some t

/-- The same of a program load. -/
structure KeepsLoad (s : State) (o : LoadOut) : Prop where
  keeps : ∀ t, o.after = some t → Keeps s t

namespace KeepsLoad
variable {s t : State} {a b : LoadOut}

theorem busy : KeepsLoad s .busy := ⟨by rintro _ ⟨⟩⟩

theorem stop (h : Keeps s t) : KeepsLoad s (.stop t) := ⟨by rintro _ ⟨⟩; exact h⟩

theorem refused {e} (h : Keeps s t) : KeepsLoad s (.refused t e) := ⟨by rintro _ ⟨⟩; exact h⟩

theorem fault {va vp c l e w} (h : Keeps s t) : KeepsLoad s (.fault t va vp c l e w) := ⟨by rintro _ ⟨⟩; exact h⟩

theorem done (h : Keeps s t) : KeepsLoad s (.done t) := ⟨by rintro _ ⟨⟩; exact h⟩

theorem ite {p : Prop} [Decidable p] (h : KeepsLoad s a) (h' : KeepsLoad s b) : KeepsLoad s (if p then a else b) := by
  split
  · exact h
  · exact h'

end KeepsLoad

section
variable {s t : State}

theorem Keeps.setReg {off v} (h : Keeps s t) : Keeps s (t.setReg off v) := .same h

theorem Keeps.wr {f v} (h : Keeps s t) : Keeps s (t.wr f v) := .setReg h

theorem Keeps.add {f n} (h : Keeps s t) : Keeps s (t.add f n) := .wr h

theorem Keeps.inc {f} (h : Keeps s t) : Keeps s (t.inc f) := .add h

theorem Keeps.wrInt {f v} (h : Keeps s t) : Keeps s (t.wrInt f v) := .wr h

theorem Keeps.wrB {f b} (h : Keeps s t) : Keeps s (t.wrB f b) := .wr h

theorem Keeps.stage {off v} (h : Keeps s t) : Keeps s (t.stage off v) := .same h

theorem Keeps.latch (h : Keeps s t) : Keeps s t.latch := .same h

theorem Keeps.setSlot {j v} (h : Keeps s t) : Keeps s (t.setSlot j v) := .same h

theorem Keeps.setCluster {cl v} (h : Keeps s t) : Keeps s (t.setCluster cl v) := .same h

theorem Keeps.tick (h : Keeps s t) : Keeps s t.tick := .same h

theorem Keeps.rawBytes {a bs} (h : Keeps s t) : Keeps s (t.rawBytes a bs) := by
  induction bs generalizing t a with
  | nil => exact h
  | cons b bs ih => exact ih (.rawSet h)

theorem Keeps.uncache {line} (h : Keeps s t) : Keeps s (t.uncache line) :=
  .ite (.same (by
  split
  · exact .rawBytes h
  · exact h)) h

theorem Keeps.setByte {a v} (h : Keeps s t) : Keeps s (t.setByte a v) := .rawSet (.uncache h)

theorem Keeps.setBytes {a bs} (h : Keeps s t) : Keeps s (t.setBytes a bs) := by
  induction bs generalizing t a with
  | nil => exact h
  | cons b bs ih => exact ih (.setByte h)

theorem Keeps.setNat {a n v} (h : Keeps s t) : Keeps s (t.setNat a n v) := .setBytes h

theorem Keeps.pin {f contact v} (h : Keeps s t) : Keeps s (t.pin f contact v) := .ite h (.send (.wrB h))

theorem Keeps.assertStop (h : Keeps s t) : Keeps s t.assertStop := .send (.pin h)

theorem Keeps.stopDetect {cause detail agent line} (h : Keeps s t) : Keeps s (t.stopDetect cause detail agent line) :=
  .ite h (.assertStop (.same h))

theorem Keeps.eccRead {hd line k} (h : Keeps s t) : Keeps s (t.eccRead hd line k) := by
  unfold State.eccRead
  dsimp only
  split
  · exact h
  · exact .inc (.same h)
  · exact .stopDetect h

theorem Keeps.eccReads {hd line} (h : Keeps s t) : Keeps s (t.eccReads hd line) :=
  .ite (.eccRead h) (.ite (.eccRead (.eccRead h)) (.eccRead (.eccRead (.eccRead h))))

theorem Keeps.engineSnoops {write line} (h : Keeps s t) : Keeps s (t.engineSnoops write line) :=
  .ite h (.same (.foldl (fun _ _ h' => .inc h') h))

theorem Keeps.accessNow {rs ws} (h : Keeps s t) : Keeps s (t.accessNow rs ws) := by
  unfold State.accessNow
  split
  · exact .stopDetect h
  · exact .foldl (fun _ _ h' => .engineSnoops h') (.foldl (fun _ _ h' => .engineSnoops h') (.foldl (fun _ _ h' => .ite h' (.eccReads
      h')) h))

theorem KeepsRes.access {rs ws k} (h : Keeps s t) (hk : ∀ u, Keeps s u → KeepsRes s (k u)) : KeepsRes s (t.access rs ws k) :=
  .ite (.ok h) (.ite (.ok (.accessNow h)) (hk _ (.accessNow h)))

theorem Keeps.write {a data} (h : Keeps s t) : Keeps s (t.write a data) :=
  .ite h (.ite (.same h) (.ite (.accessNow h) (.setBytes (.accessNow h))))

theorem Keeps.writeNat {a n v} (h : Keeps s t) : Keeps s (t.writeNat a n v) := .write h

theorem Keeps.reads {a n} (h : Keeps s t) : Keeps s (t.reads a n) := .ite h (.accessNow h)

theorem Keeps.drainMem (h : Keeps s t) : Keeps s t.drainMem :=
  .foldl (fun _ _ h' => .ite (.same h') (.ite (.accessNow h') (.setBytes (.accessNow h')))) (.same h)

theorem Keeps.irq {hart file eiid} (h : Keeps s t) : Keeps s (t.irq hart file eiid) := .ite (.inc h) (.send (.same h))

theorem Keeps.ringWrite {r} (h : Keeps s t) : Keeps s (t.ringWrite r) :=
  .ite (.irq (.inc (.same (.ite (.rawBytes (.write h)) (.write h))))) (.inc (.same (.ite (.rawBytes (.write h)) (.write h))))

theorem Keeps.ringDrop {r} (h : Keeps s t) : Keeps s (t.ringDrop r) := .ite (.inc (.inc (.same h))) (.inc (.same h))

theorem Keeps.ringHold {r} (h : Keeps s t) : Keeps s (t.ringHold r) := .ite (.wr (.same h)) (.ringDrop h)

theorem Keeps.ringPut {r} (h : Keeps s t) : Keeps s (t.ringPut r) :=
  .ite (.ringHold h) (.ite (.ite (.ringWrite h) (.ringHold h)) (.ite (.ringDrop h) (.ite (.ringWrite h) (.ringDrop h))))

theorem Keeps.emit {e} (h : Keeps s t) : Keeps s (t.emit e) := .ite (.send (.ringPut (.same h))) (.ringPut (.same h))

theorem Keeps.noteOnce {c ux n e} (h : Keeps s t) : Keeps s (t.noteOnce c ux n e) := .ite (.same h) (.emit (.same h))

theorem Keeps.setQueue {q v} (h : Keeps s t) : Keeps s (t.setQueue q v) := .wr (.wr (.same h))

theorem Keeps.endCmd {q entry status detail} (h : Keeps s t) : Keeps s (t.endCmd q entry status detail) := by
  unfold State.endCmd
  dsimp only
  split
  · exact h
  · exact h
  · exact .setQueue (.same h)

theorem Keeps.freeEng {e} (h : Keeps s t) : Keeps s (t.freeEng e) := .ite (.wr (.wr (.wr (.same h)))) (.wr (.same h))

theorem Keeps.setEng {e v} (h : Keeps s t) : Keeps s (t.setEng e v) := .same h

theorem Keeps.finish {e x status detail} (h : Keeps s t) : Keeps s (t.finish e x status detail) :=
  .ite h (.freeEng (.endCmd (by
  split
  · exact .wr (.same h)
  · exact .same h)))

theorem Keeps.endWork {q entry status detail} (h : Keeps s t) : Keeps s (t.endWork q entry status detail) := by
  unfold State.endWork
  split
  · exact .finish h
  · exact .endCmd h

theorem Keeps.endWaiting {j new} (h : Keeps s t) : Keeps s (t.endWaiting j new) := .foldl (fun _ _ h' => .ite (.finish h') h') h

theorem Keeps.queueIrq {q} (h : Keeps s t) : Keeps s (t.queueIrq q) := .ite (.irq h) h

theorem Keeps.haltQueue {q reason} (h : Keeps s t) : Keeps s (t.haltQueue q reason) := .queueIrq (.emit (.setQueue (.wr h)))

theorem Keeps.closeCtx {x} (h : Keeps s t) : Keeps s (t.closeCtx x) := .wr (.setReg (.same h))

theorem Keeps.closePrism {tctx eng} (h : Keeps s t) : Keeps s (t.closePrism tctx eng) :=
  .foldl (fun _ _ h' => .ite (.setQueue (.same (.foldl (fun _ _ h2 => .freeEng h2) h'))) h') (.same (.foldl (fun _ _ h' => by
  split
  · exact .ite (.closeCtx h') h'
  · exact h') h))

theorem Keeps.setSlotState {j new} (h : Keeps s t) : Keeps s (t.setSlotState j new) := .ite h (.emit (.ite (.endWaiting (.wr h)) (.wr h)))

theorem Keeps.setRun {cl v} (h : Keeps s t) : Keeps s (t.setRun cl v) := .wr h

theorem Keeps.latchReject {reason kind tx job} (h : Keeps s t) : Keeps s (t.latchReject reason kind tx job) :=
  .inc (.wr (.wr (.wr (.wr h))))

theorem Keeps.addArm {a} (h : Keeps s t) : Keeps s (t.addArm a) := .same h

theorem Keeps.dropArms {kind who} (h : Keeps s t) : Keeps s (t.dropArms kind who) := .same h

theorem Keeps.setShard {n j hd v} (h : Keeps s t) : Keeps s (t.setShard n j hd v) := .wr (.same h)

theorem Keeps.dropHolder {cl} (h : Keeps s t) : Keeps s (t.dropHolder cl) := .foldl (fun _ _ h' => .ite (.setShard h') h') h

theorem Keeps.dropRef {j d} (h : Keeps s t) : Keeps s (t.dropRef j d) := by
  unfold State.dropRef
  split
  · exact .wr h
  · exact h

theorem Keeps.showCl {cl} (h : Keeps s t) : Keeps s (t.showCl cl) := .wr (.wrB (.wr (.wr h)))

theorem Keeps.putCl {cl c} (h : Keeps s t) : Keeps s (t.putCl cl c) := .showCl (.setCluster h)

theorem Keeps.setSlotCode {cl k v} (h : Keeps s t) : Keeps s (t.setSlotCode cl k v) := .wr h

theorem Keeps.abandonCl {cl} (h : Keeps s t) : Keeps s (t.abandonCl cl) :=
  .putCl (.dropHolder (.foldl (fun _ _ h' => .ite (.setSlotCode h') h') (by
  split
  · exact .foldl (fun _ _ h' => .dropRef h') h
  · exact h)))

theorem Keeps.haltClusters {j} (h : Keeps s t) : Keeps s (t.haltClusters j) := .foldl (fun _ _ h' => .ite h' (.abandonCl (.setRun h'))) h

theorem Keeps.setRot {p r} (h : Keeps s t) : Keeps s (t.setRot p r) := .same h

theorem Keeps.rotRecord {p r hold declined} (h : Keeps s t) : Keeps s (t.rotRecord p r hold declined) := .emit h

theorem Keeps.rotDecline {p r reason} (h : Keeps s t) : Keeps s (t.rotDecline p r reason) := by
  unfold State.rotDecline
  exact .rotRecord (.setRot (.ite (.wr h) h))

theorem Keeps.dropRots {j} (h : Keeps s t) : Keeps s (t.dropRots j) :=
  .foldl (fun _ _ h' => by
  split
  · exact .ite h' (.rotDecline (.dropArms h'))
  · exact h') h

theorem Keeps.stopEngines {j} (h : Keeps s t) : Keeps s (t.stopEngines j) := by
  unfold State.stopEngines
  exact .closePrism (.foldl (fun _ _ h' => .ite h' (.haltQueue h')) h)

theorem Keeps.dropLoad {j} (h : Keeps s t) : Keeps s (t.dropLoad j) := by
  unfold State.dropLoad
  split
  · exact h
  · split
    · exact .endCmd (.setSlot h)
    · exact .setSlot h

theorem Keeps.stopJob {j owes} (h : Keeps s t) : Keeps s (t.stopJob j owes) :=
  .ite h (.stopEngines (.dropLoad (.setSlot (.dropRots (.setSlotState (.haltClusters h))))))

theorem Keeps.failJob {j e} (h : Keeps s t) : Keeps s (t.failJob j e) := .stopJob (.emit h)

theorem Keeps.showTrk {hd} (h : Keeps s t) : Keeps s (t.showTrk hd) := .wr h

theorem Keeps.trkEnter {c vpage e} (h : Keeps s t) : Keeps s (t.trkEnter c vpage e) := by
  unfold State.trkEnter
  split
  · exact h
  · exact .ite h (.ite (.same h) (.ite (.showTrk (.same h)) (by
    split
    · exact .same h
    · exact h)))

theorem Keeps.notify {tx} (h : Keeps s t) : Keeps s (t.notify tx) := .ite (.noteOnce (.inc h)) (.inc (.same (.writeNat (.writeNat h))))

theorem Keeps.touch {a n} (h : Keeps s t) : Keeps s (t.touch a n) := by
  unfold State.touch
  dsimp only
  split
  · exact h
  · exact .ite (.notify (.same h)) (.same h)

theorem KeepsRes.execTrackerDecay {hd} (h : Keeps s t) : KeepsRes s (execTrackerDecay hd t) := .ite (.ok h) (.ok (.same h))

theorem Keeps.biasCheck {e} (h : Keeps s t) : Keeps s (t.biasCheck e) := .ite h (.noteOnce (.inc h))

theorem KeepsFst.walkWith {c vpage leaf track} (h : Keeps s t) : KeepsFst s (t.walkWith c vpage leaf track) := by
  unfold State.walkWith
  dsimp only
  split
  · exact .mk (.ite (.trkEnter (.biasCheck (.ite h (.accessNow h)))) (.ite (.biasCheck (.ite h (.accessNow h))) (.ite h (.accessNow h))))
  · exact .mk (.ite (.biasCheck (.ite h (.accessNow h))) (.ite h (.accessNow h)))
  · exact .mk (.ite h (.accessNow h))

theorem KeepsFst.walkAt {c vpage write} (h : Keeps s t) : KeepsFst s (t.walkAt c vpage write) := .walkWith h

theorem Keeps.showRecs (h : Keeps s t) : Keeps s t.showRecs := .wrB (.wr h)

theorem Keeps.fqWrite {r c vpage write cause level entry engine} (h : Keeps s t) : Keeps s (t.fqWrite r c vpage write cause level entry
    engine) :=
  .same (.writeNat (.writeNat (.writeNat (.writeNat h))))

theorem KeepsFst.raiseFault {c vpage write cause level entry engine} (h : Keeps s t) : KeepsFst s (t.raiseFault c vpage write cause level
    entry engine) := by
  unfold State.raiseFault
  dsimp only
  split
  · exact .mk (.ite (.emit (.inc (.inc (.wrB (.wr (.inc h)))))) (.inc (.inc (.wrB (.wr (.inc h))))))
  · split
    · exact .mk (.inc h)
    · exact .mk (.showRecs (.emit (.fqWrite (.wr (.wr (.wr (.wrB (.wr (.wr (.wr (.inc h)))))))))))

theorem KeepsFst.walkPages {w n i} (h : Keeps s t) : KeepsFst s (t.walkPages w n i) := by
  induction n generalizing t i with
  | zero => exact h
  | succ n ih =>
    unfold State.walkPages
    split <;> rename_i he <;> have h := Keeps.of_fst (.walkAt h) he
    · exact h
    · exact ih (.writeNat h)

theorem Keeps.grantWalks {n} (h : Keeps s t) : Keeps s (State.grantWalks n t) := by
  induction n generalizing t with
  | zero => exact h
  | succ n ih =>
    unfold State.grantWalks
    dsimp only
    refine .ite h ?_
    split
    · exact h
    · exact ih (.same h)
    · exact ih (.same (.setSlot h))
    · exact .ite (ih (.same h)) (ih (.same (.setSlot h)))

theorem Keeps.showWalkers (h : Keeps s t) : Keeps s t.showWalkers := .wr (.grantWalks (.same h))

theorem Keeps.putWalk {w} (h : Keeps s t) : Keeps s (t.putWalk w) := .same h

theorem Keeps.readyCmd {q entry} (h : Keeps s t) : Keeps s (t.readyCmd q entry) := .ite h (.setQueue h)

theorem KeepsRes.execWalkComplete {id} (h : Keeps s t) : KeepsRes s (execWalkComplete id t) := by
  have h := h.showWalkers
  unfold Machine.execWalkComplete
  dsimp only
  split
  · exact .ok h
  · refine .ite (.ok h) ?_
    split
    · exact .ok h
    · split <;> rename_i he <;> have h := Keeps.of_fst (.walkPages h) he
      · exact .ite (.ok h) (.ok (.setQueue (.showWalkers (.putWalk (.fst (.raiseFault h))))))
      · refine .ite (.ok h) ?_
        split
        · exact .ok (.showWalkers (.inc (.endWork (.inc (.same h)))))
        · exact .ok (.showWalkers (.readyCmd (.inc (.same h))))

theorem KeepsRes.execFaultRecordFree {r} (h : Keeps s t) : KeepsRes s (execFaultRecordFree r t) :=
  .ite (.ok (.showWalkers (.showRecs (.setReg (.setReg h))))) (.ok h)

theorem Keeps.setVer {n j hd v st} (h : Keeps s t) : Keeps s (t.setVer n j hd v st) := .ite (.wr h) (.wr h)

theorem Keeps.addRef {n j hd} (h : Keeps s t) : Keeps s (t.addRef n j hd) := .inc h

theorem Keeps.hold {cl n j hd} (h : Keeps s t) : Keeps s (t.hold cl n j hd) := .ite h (.setShard h)

theorem Keeps.unhold {cl n j hd} (h : Keeps s t) : Keeps s (t.unhold cl n j hd) := .setShard h

theorem KeepsEpoch.epochRead {cl j n hd v} (h : Keeps s t) : KeepsEpoch s (t.epochRead cl j n hd v) := by
  unfold State.epochRead
  dsimp only
  split
  · exact h.unhold
  · split_ifs
    · exact h.hold
    · exact h
    · exact h
  · split_ifs
    · trivial
    · exact h
  · trivial

theorem Keeps.epochStall {j n hd} (h : Keeps s t) : Keeps s (t.epochStall j n hd) := .ite (.wr h) (.emit (.inc (.setShard (.wr h))))

theorem KeepsEpoch.epochWrite {j n hd v} (h : Keeps s t) : KeepsEpoch s (t.epochWrite j n hd v) := by
  unfold State.epochWrite
  split_ifs
  · trivial
  · split
    · exact h
    · exact h.setVer
    · exact h.epochStall
    · trivial

theorem Keeps.wakeDqs {j n hd v write} (h : Keeps s t) : Keeps s (t.wakeDqs j n hd v write) :=
  .foldl (fun _ _ h' => .add (.setCluster h')) h

theorem KeepsRes.execEpochRelease {j n hd} (h : Keeps s t) : KeepsRes s (execEpochRelease j n hd t) := by
  unfold Machine.execEpochRelease
  split
  · exact .ok h
  · exact .ite (.ok h) (.ite (.ok (.wakeDqs (.wr (.setVer h)))) (.ok (.setVer h)))

theorem Keeps.wakeSnaps {j n hd} (h : Keeps s t) : Keeps s (t.wakeSnaps j n hd) := by
  unfold State.wakeSnaps
  split
  · exact h
  · exact .add (.same h)

theorem Keeps.flipShard {j n hd} (h : Keeps s t) : Keeps s (t.flipShard j n hd) := by
  unfold State.flipShard
  split
  · exact h
  · exact .wakeSnaps (.wakeDqs (.setShard (.wr (.setVer (.setVer h)))))

theorem Keeps.flipLate {j n hd f} (h : Keeps s t) : Keeps s (t.flipLate j n hd f) := by
  unfold State.flipLate
  exact .emit (.flipShard h)

theorem Keeps.flipOne {j f onTime k} (h : Keeps s t) : Keeps s (t.flipOne j f onTime k) :=
  .ite (by
  split
  · exact .flipLate h
  · exact .flipShard h) (.ite (.setShard h) (.ite (.wakeSnaps h) h))

theorem KeepsRes.execEpochFlip {j} (h : Keeps s t) : KeepsRes s (execEpochFlip j t) := by
  unfold Machine.execEpochFlip
  split
  · exact .ok h
  · exact .ite (.ok h) (.ok (.latch (.foldl (fun _ _ h' => .flipOne h') (.setSlot h))))

theorem KeepsRes.execEpochFlipLate {j n hd} (h : Keeps s t) : KeepsRes s (execEpochFlipLate j n hd t) := by
  unfold Machine.execEpochFlipLate
  split
  · exact .ite (.ok (.latch (.flipLate h))) (.ok h)
  · exact .ok h

theorem Keeps.setPort {p v} (h : Keeps s t) : Keeps s (t.setPort p v) := .same h

theorem Keeps.control {p nak vc cls n} (h : Keeps s t) : Keeps s (t.control p nak vc cls n) := .send h

theorem Keeps.giveCredit {p vc cls} (h : Keeps s t) : Keeps s (t.giveCredit p vc cls) := .control h

theorem Keeps.launch {p q cls} (h : Keeps s t) : Keeps s (t.launch p q cls) := by
  unfold State.launch
  dsimp only
  split
  · exact .giveCredit (.send (.setPort h))
  · exact .send (.setPort h)

theorem Keeps.launchAll {n p} (h : Keeps s t) : Keeps s (State.launchAll n t p) := by
  induction n generalizing t with
  | zero => exact h
  | succ n ih =>
    unfold State.launchAll
    refine .ite h ?_
    split
    · exact h
    · exact ih (.launch h)

theorem Keeps.drain {p} (h : Keeps s t) : Keeps s (t.drain p) := .launchAll h

theorem Keeps.enqueue {p qs} (h : Keeps s t) : Keeps s (t.enqueue p qs) := .drain (.setPort h)

theorem Keeps.routeDrop {dest vc n} (h : Keeps s t) : Keeps s (t.routeDrop dest vc n) := .noteOnce (.add h)

theorem Keeps.sendOn {ws vc dest routes bytes} (h : Keeps s t) : Keeps s (t.sendOn ws vc dest routes bytes) :=
  .tick (.same (.foldl (fun _ _ h' => by
  split
  · exact .routeDrop h'
  · exact .enqueue (.ite (.inc h') h')) h))

theorem Keeps.sendMsg {vc dest routes bytes} (h : Keeps s t) : Keeps s (t.sendMsg vc dest routes bytes) := .sendOn h

theorem Keeps.sendMember {j vc member routes bytes} (h : Keeps s t) : Keeps s (t.sendMember j vc member routes bytes) := by
  unfold State.sendMember
  split
  · exact .sendMsg h
  · exact h

theorem Keeps.relayReply {j member tile good} (h : Keeps s t) : Keeps s (t.relayReply j member tile good) := .sendMember h

theorem Keeps.sendSpread {dest bytes} (h : Keeps s t) : Keeps s (t.sendSpread dest bytes) :=
  .ite (.sendMsg h) (by
  dsimp only
  split
  · exact .sendOn h
  · exact .sendMsg h)

theorem Keeps.sendAck {fi tag good} (h : Keeps s t) : Keeps s (t.sendAck fi tag good) := .sendMsg h

theorem Keeps.raise {cl word cause addr} (h : Keeps s t) : Keeps s (t.raise cl word cause addr) := by
  unfold State.raise
  dsimp only
  split
  · exact .failJob (.abandonCl (.setRun (.wr (.wr (.wr (.wr (.wr h)))))))
  · exact .emit (.abandonCl (.setRun (.wr (.wr (.wr (.wr (.wr h)))))))

theorem KeepsIssue.excIllegal : KeepsIssue s excIllegal := .exc

theorem Keeps.showWait {cl kind which target} (h : Keeps s t) : Keeps s (t.showWait cl kind which target) := .wr (.wr (.wr h))

theorem Keeps.endQueueWait {cl} (h : Keeps s t) : Keeps s (t.endQueueWait cl) := .ite (.showWait h) h

theorem Keeps.raiseFetch {cl target} (h : Keeps s t) : Keeps s (t.raiseFetch cl target) := .raise (.tick h)

theorem Keeps.retire {cl target} (h : Keeps s t) : Keeps s (t.retire cl target) :=
  .ite (.setCluster (.wr (.wr (.endQueueWait h)))) (.raiseFetch (.setCluster (.wr (.wr (.endQueueWait h)))))

theorem KeepsRes.issue {cl word body} (h : Keeps s t) (hbody : ∀ c, KeepsIssue s (body c)) : KeepsRes s (t.issue cl word body) := by
  unfold State.issue
  refine .ite ?_ (.ok h)
  split
  · exact .ok (.raiseFetch h)
  · refine .ite (.ok (.raise h)) (.ite (.ok h) ?_)
    have hi := hbody (t.cluster cl)
    cases hb : body (t.cluster cl) <;> rw [hb] at hi
    case exc => exact .ok (.raise h)
    case wait => exact .ok hi
    case ret => exact .ok (.retire hi)
    case jump => exact .ok (.retire hi)

theorem KeepsIssue.retS {cl rd v} (h : Keeps s t) : KeepsIssue s (t.retS cl rd v) := .ret (.setCluster h)

theorem KeepsIssue.waitQueue {cl q} (h : Keeps s t) : KeepsIssue s (t.waitQueue cl q) := .wait (.showWait h)

theorem Keeps.showFlags {j} (h : Keeps s t) : Keeps s (t.showFlags j) := .wrB (.wrB h)

theorem Keeps.showNf {cl j} (h : Keeps s t) : Keeps s (t.showNf cl j) := .wrB h

theorem Keeps.castRange {j pstep tensor kindLess2 n} (h : Keeps s t) : Keeps s (t.castRange j pstep tensor kindLess2 n) :=
  .ite h (.ite (.emit (.showFlags (.setSlot h))) (.showFlags (.setSlot h)))

theorem Keeps.castNf {cl j pstep tx scaleNan} (h : Keeps s t) : Keeps s (t.castNf cl j pstep tx scaleNan) :=
  .ite (.emit (.showFlags (.setSlot h))) (.showFlags (.setSlot h))

theorem Keeps.darkCount {j pstep idx tensor kind nz total} (h : Keeps s t) : Keeps s (t.darkCount j pstep idx tensor kind nz total) :=
  .writeNat (.writeNat (.writeNat h))

theorem Keeps.castReport {cl j pstep tx all row} (h : Keeps s t) : Keeps s (t.castReport cl j pstep tx all row) :=
  .ite (.darkCount (.ite (.castNf (.ite (.castRange (.add (.add h))) (.add (.add h)))) (.ite (.castRange (.add (.add h))) (.add (.add
    h))))) (.ite (.castNf (.ite (.castRange (.add (.add h))) (.add (.add h)))) (.ite (.castRange (.add (.add h))) (.add (.add h))))

theorem Keeps.drainTile {cl j r tx vals} (h : Keeps s t) : Keeps s (t.drainTile cl j r tx vals) :=
  .ite (.castReport (.setCluster h)) (.castReport (.setCluster h))

theorem Keeps.castVec {cl j q} (h : Keeps s t) : Keeps s (t.castVec cl j q) := by
  unfold State.castVec
  split
  · exact h
  · exact .ite (.castReport (.setCluster h)) (.castReport (.setCluster h))

theorem Keeps.runCasts {cl j qs} (h : Keeps s t) : Keeps s (t.runCasts cl j qs) := by
  induction qs generalizing t with
  | nil => exact h
  | cons q qs ih => exact .ite (ih (.setCluster (.castVec h))) h

theorem Keeps.vleave {cl v} (h : Keeps s t) : Keeps s (t.vleave cl v) :=
  .ite (.add (.tick (.inc (.wr (.wr (.wr h)))))) (.inc (.wr (.wr (.wr h))))

theorem Keeps.vadvance {cl vs} (h : Keeps s t) : Keeps s (t.vadvance cl vs) := by
  induction vs generalizing t with
  | nil => exact .putCl h
  | cons v vs ih => exact .ite (.putCl h) (ih (.vleave h))

theorem Keeps.castRun {cl j} (h : Keeps s t) : Keeps s (t.castRun cl j) := .vadvance (.runCasts h)

theorem KeepsRes.execSeedCastRelease {cl} (h : Keeps s t) : KeepsRes s (execSeedCastRelease cl t) := by
  unfold Machine.execSeedCastRelease
  split
  · exact .ok (.castRun h)
  · exact .ok h

theorem KeepsRes.execMcfg {cl f} (h : Keeps s t) : KeepsRes s (execMcfg cl f t) :=
  .issue h (fun _ => .ite .excIllegal (.ite .exc (.ite (.waitQueue h) (.ret (.setCluster h)))))

theorem KeepsRes.loadRecord {cl opc isB f} (h : Keeps s t) : KeepsRes s (loadRecord cl opc isB f t) :=
  .issue h (fun _ => .ite .excIllegal (by
  split
  · exact .exc
  · exact .ite .exc (.ite .exc (.ite (.wait h) (.ite (.waitQueue h) (.ret (.setCluster h)))))))

theorem KeepsRes.execMlda {cl f} (h : Keeps s t) : KeepsRes s (execMlda cl f t) := .loadRecord h

theorem KeepsRes.execMldb {cl f} (h : Keeps s t) : KeepsRes s (execMldb cl f t) := .loadRecord h

theorem KeepsRes.issueProduct {cl opc ends f} (h : Keeps s t) : KeepsRes s (issueProduct cl opc ends f t) :=
  .issue h (fun _ => .ite .excIllegal (.ite (.ite .excIllegal (by
  split
  · exact .exc
  · exact .ite .exc (.ite .exc (by
    split
    · exact .exc
    · exact .ite .exc (.ite (.waitQueue h) (.ret (.putCl h))))))) (.ite .excIllegal (by
  split
  · exact .exc
  · exact .ite .exc (.ite (.waitQueue h) (.ret (.setCluster h)))))))

theorem KeepsRes.execMma {cl f} (h : Keeps s t) : KeepsRes s (execMma cl f t) := .issueProduct h

theorem KeepsRes.execMacc {cl f} (h : Keeps s t) : KeepsRes s (execMacc cl f t) := .issueProduct h

theorem Keeps.startReadout {cl} (h : Keeps s t) : Keeps s (t.startReadout cl) := by
  unfold State.startReadout
  dsimp only
  split
  · exact h
  · exact .ite h (.setSlotCode h)

theorem KeepsIssue.enterReadout {cl c r} (h : Keeps s t) : KeepsIssue s (t.enterReadout cl c r) :=
  .ite (.waitQueue h) (.ret (.startReadout (.setCluster h)))

theorem KeepsRes.execMdrn {cl f} (h : Keeps s t) : KeepsRes s (execMdrn cl f t) :=
  .issue h (fun _ => .ite .excIllegal (by
  split
  · exact .exc
  · exact .ite .exc (.ite .exc (.ite .exc (.ite .exc (.ite .exc (.ite .exc (.enterReadout h))))))))

theorem KeepsRes.execMtie {cl f} (h : Keeps s t) : KeepsRes s (execMtie cl f t) :=
  .issue h (fun _ => .ite .excIllegal (.ite .exc (.ite .exc (.enterReadout h))))

theorem KeepsRes.execRpush {cl f} (h : Keeps s t) : KeepsRes s (execRpush cl f t) :=
  .issue h (fun _ => .ite .excIllegal (.ite .exc (.enterReadout h)))

theorem Keeps.addBusy {cl n} (h : Keeps s t) : Keeps s (t.addBusy cl n) := .wr h

theorem Keeps.kStepWgq {cl j e rest} (h : Keeps s t) : Keeps s (t.kStepWgq cl j e rest) :=
  .ite h (.ite (.inc (.add (.addBusy (.putCl h)))) (.add (.addBusy (.putCl h))))

theorem Keeps.kStepArr {cl c} (h : Keeps s t) : Keeps s (execKStep.kStepArr cl t c) := by
  unfold execKStep.kStepArr
  split
  · exact h
  · refine .ite h ?_
    split
    · exact .addBusy (.putCl (.ite h (.tick h)))
    · exact .add (.tick h)

theorem KeepsRes.execKStep {cl} (h : Keeps s t) : KeepsRes s (execKStep cl t) := by
  unfold Machine.execKStep
  split
  · exact .ok h
  · exact .ite (.ok h) (by
    split
    · exact .ite (.ok (.kStepWgq h)) (.ite (.ok (.kStepArr (.inc (.putCl h)))) (.ok (.kStepArr h)))
    · exact .ok (.kStepArr h))

theorem KeepsRes.execWgqRun {cl} (h : Keeps s t) : KeepsRes s (execWgqRun cl t) := by
  unfold Machine.execWgqRun
  dsimp only
  split
  · exact .ite (.ok (.putCl h)) (.ok h)
  · exact .ok h

theorem Keeps.accNf {cl j pstep slot nan} (h : Keeps s t) : Keeps s (t.accNf cl j pstep slot nan) :=
  .ite (.showNf (.setCluster h)) (.emit (.setSlot (.showNf (.setCluster h))))

theorem KeepsRes.execMergeDone {cl} (h : Keeps s t) : KeepsRes s (execMergeDone cl t) := by
  unfold Machine.execMergeDone
  dsimp only
  split
  · exact .ite (.ok h) (.ok (.startReadout (by
    split
    · exact .accNf (.ite (.setSlotCode (.putCl (.ite (.add (.tick h)) h))) (.putCl (.ite (.add (.tick h)) h)))
    · exact .ite (.setSlotCode (.putCl (.ite (.add (.tick h)) h))) (.putCl (.ite (.add (.tick h)) h)))))
  · exact .ok h

theorem Keeps.endReadout {cl j r rest} (h : Keeps s t) : Keeps s (t.endReadout cl j r rest) :=
  .castRun (.startReadout (.setSlotCode (.setCluster h)))

theorem KeepsRes.execReadoutEnd {cl} (h : Keeps s t) : KeepsRes s (execReadoutEnd cl t) := by
  unfold Machine.execReadoutEnd
  dsimp only
  split
  · exact .ite (.ok h) (.ite (.ite (.ok (.endReadout h)) (.ok h)) (by
    split
    · exact .ok (.endReadout h)
    · exact .ite (.ok h) (.ok (.endReadout (.drainTile h)))))
  · exact .ok h

theorem KeepsRes.execPushBufferEnter {cl} (h : Keeps s t) : KeepsRes s (execPushBufferEnter cl t) := by
  unfold Machine.execPushBufferEnter
  dsimp only
  split
  · exact .ite (.ok (.setCluster h)) (.ok h)
  · exact .ok h

theorem KeepsRes.execTieUseApply {cl} (h : Keeps s t) : KeepsRes s (execTieUseApply cl t) := by
  unfold Machine.execTieUseApply
  dsimp only
  split
  · split
    · split
      · exact .ite (.ok (.setCluster (.same (.setCluster h)))) (.ok h)
      · exact .ok h
    · exact .ok h
  · exact .ok h

theorem KeepsRes.execAlu {cl f} (h : Keeps s t) : KeepsRes s (execAlu cl f t) :=
  .issue h (fun _ => by
  split
  · exact .excIllegal
  · exact .ite .excIllegal (.retS h))

theorem KeepsRes.immOp {cl opc f op} (h : Keeps s t) : KeepsRes s (immOp cl opc f t op) := .issue h (fun _ => .retS h)

theorem KeepsRes.shiftOp {cl opc f op} (h : Keeps s t) : KeepsRes s (shiftOp cl opc f t op) :=
  .issue h (fun _ => .ite .excIllegal (.retS h))

theorem KeepsRes.execAddi {cl f} (h : Keeps s t) : KeepsRes s (execAddi cl f t) := .immOp h

theorem KeepsRes.execAndi {cl f} (h : Keeps s t) : KeepsRes s (execAndi cl f t) := .immOp h

theorem KeepsRes.execOri {cl f} (h : Keeps s t) : KeepsRes s (execOri cl f t) := .immOp h

theorem KeepsRes.execXori {cl f} (h : Keeps s t) : KeepsRes s (execXori cl f t) := .immOp h

theorem KeepsRes.execShli {cl f} (h : Keeps s t) : KeepsRes s (execShli cl f t) := .shiftOp h

theorem KeepsRes.execShri {cl f} (h : Keeps s t) : KeepsRes s (execShri cl f t) := .shiftOp h

theorem KeepsRes.execSari {cl f} (h : Keeps s t) : KeepsRes s (execSari cl f t) := .shiftOp h

theorem KeepsRes.execSlti {cl f} (h : Keeps s t) : KeepsRes s (execSlti cl f t) := .immOp h

theorem KeepsRes.execSltiu {cl f} (h : Keeps s t) : KeepsRes s (execSltiu cl f t) := .immOp h

theorem KeepsRes.execLui {cl f} (h : Keeps s t) : KeepsRes s (execLui cl f t) := .issue h (fun _ => .retS h)

theorem KeepsRes.branchOp {cl opc f cond} (h : Keeps s t) : KeepsRes s (branchOp cl opc f t cond) :=
  .issue h (fun _ => .ite (.jump h) (.ret h))

theorem KeepsRes.execBeq {cl f} (h : Keeps s t) : KeepsRes s (execBeq cl f t) := .branchOp h

theorem KeepsRes.execBne {cl f} (h : Keeps s t) : KeepsRes s (execBne cl f t) := .branchOp h

theorem KeepsRes.execBlt {cl f} (h : Keeps s t) : KeepsRes s (execBlt cl f t) := .branchOp h

theorem KeepsRes.execBge {cl f} (h : Keeps s t) : KeepsRes s (execBge cl f t) := .branchOp h

theorem KeepsRes.execBltu {cl f} (h : Keeps s t) : KeepsRes s (execBltu cl f t) := .branchOp h

theorem KeepsRes.execBgeu {cl f} (h : Keeps s t) : KeepsRes s (execBgeu cl f t) := .branchOp h

theorem KeepsRes.execJal {cl f} (h : Keeps s t) : KeepsRes s (execJal cl f t) := .issue h (fun _ => .jump (.setCluster h))

theorem KeepsRes.execJalr {cl f} (h : Keeps s t) : KeepsRes s (execJalr cl f t) := .issue h (fun _ => .jump (.setCluster h))

theorem KeepsRes.loadOp {cl opc n f} (h : Keeps s t) : KeepsRes s (loadOp cl opc n f t) :=
  .issue h (fun _ => .ite .exc (.ite .exc (.ite (.wait h) (.retS h))))

theorem KeepsRes.storeOp {cl opc n f} (h : Keeps s t) : KeepsRes s (storeOp cl opc n f t) :=
  .issue h (fun _ => .ite .exc (.ite .exc (.ite (.wait h) (.ret (.setCluster h)))))

theorem KeepsRes.execLd {cl f} (h : Keeps s t) : KeepsRes s (execLd cl f t) := .loadOp h

theorem KeepsRes.execLw {cl f} (h : Keeps s t) : KeepsRes s (execLw cl f t) := .loadOp h

theorem KeepsRes.execSt {cl f} (h : Keeps s t) : KeepsRes s (execSt cl f t) := .storeOp h

theorem KeepsRes.execSw {cl f} (h : Keeps s t) : KeepsRes s (execSw cl f t) := .storeOp h

theorem KeepsRes.execTcpy {cl f} (h : Keeps s t) : KeepsRes s (execTcpy cl f t) :=
  .issue h (fun _ => .ite .excIllegal (.ite .exc (.ite .exc (.ite .exc (.ite .exc (.ite .exc (.ite .exc (.ite (.wait h) (.ret (.setCluster
    h))))))))))

theorem KeepsRes.execSrd {cl f} (h : Keeps s t) : KeepsRes s (execSrd cl f t) :=
  .issue h (fun _ => by
  split
  · exact .excIllegal
  · exact .ite .excIllegal (.retS (.tick h)))

theorem KeepsRes.execBar {cl f} (h : Keeps s t) : KeepsRes s (execBar cl f t) :=
  .issue h (fun _ => .ite .excIllegal (.wait (.setRun (.showWait (.setCluster h)))))

theorem Keeps.endWait {cl} (h : Keeps s t) : Keeps s (t.endWait cl) := .retire (.setRun (.showWait (.setCluster h)))

theorem KeepsRes.execBarrierRelease {die part j num} (h : Keeps s t) : KeepsRes s (execBarrierRelease die part j num t) :=
  .ite (.ok (.foldl (fun _ _ h' => .ite (.endWait h') h') h)) (.ok h)

theorem Keeps.wlapLate {cl laps} (h : Keeps s t) : Keeps s (t.wlapLate cl laps) := by
  unfold State.wlapLate
  split
  · exact h
  · exact .ite (.inc h) (.emit (.setSlot (.inc h)))

theorem KeepsRes.execWlap {cl f} (h : Keeps s t) : KeepsRes s (execWlap cl f t) :=
  .issue h (fun _ => .ite .exc (.ite (.ret (.wlapLate (.setCluster h))) (.wait (.setRun (.showWait (.setCluster h))))))

theorem KeepsRes.execWlapComplete {cl} (h : Keeps s t) : KeepsRes s (execWlapComplete cl t) := by
  unfold Machine.execWlapComplete
  dsimp only
  split
  · exact .ite (.ok (.endWait (.ite (.wlapLate (.setCluster h)) (.setCluster h)))) (.ok h)
  · exact .ok h

theorem KeepsRes.execHrdw {cl f} (h : Keeps s t) : KeepsRes s (execHrdw cl f t) :=
  .issue h (fun _ => .ite .excIllegal (.ite (.wait h) (.ite (.wait (.setRun (.showWait (.setCluster h)))) (.ret (.setCluster h)))))

theorem KeepsRes.execHrdwRecord {cl} (h : Keeps s t) : KeepsRes s (execHrdwRecord cl t) := by
  unfold Machine.execHrdwRecord
  dsimp only
  split
  · exact .ite (.ok (.dropHolder (.setCluster h))) (.ok h)
  · exact .ok h

theorem KeepsRes.execHrdwOutcomeReturn {cl} (h : Keeps s t) : KeepsRes s (execHrdwOutcomeReturn cl t) := by
  unfold Machine.execHrdwOutcomeReturn
  dsimp only
  split
  · exact .ite (.ok (.endWait (.setCluster h))) (.ok h)
  · exact .ok h

theorem KeepsRes.execEvt {cl f} (h : Keeps s t) : KeepsRes s (execEvt cl f t) :=
  .issue h (fun _ => .ite .excIllegal (.ite .exc (.ite (by
  split
  · exact .ret (.failJob h)
  · exact .ret (.emit h)) (.ite (.ret (.inc h)) (.ret (.emit (.setCluster h)))))))

theorem KeepsRes.execFence {cl f} (h : Keeps s t) : KeepsRes s (execFence cl f t) :=
  .issue h (fun _ => .ite .excIllegal (.ite (.ret h) (.wait h)))

theorem KeepsRes.execHalt {cl f} (h : Keeps s t) : KeepsRes s (execHalt cl f t) :=
  .issue h (fun _ => .ite .excIllegal (.ite (.wait (.dropHolder (.setRun (.wr (.endQueueWait h))))) (.wait h)))

theorem Keeps.setStash {n j v} (h : Keeps s t) : Keeps s (t.setStash n j v) := .wr (.wr (.same h))

theorem Keeps.raiseLedger {n j desc v} (h : Keeps s t) : Keeps s (t.raiseLedger n j desc v) := .ite (.write h) h

theorem Keeps.highWater {n j desc} (h : Keeps s t) : Keeps s (t.highWater n j desc) := .ite (.emit (.wr (.wr h))) h

theorem Keeps.stashBind {n j desc new spill} (h : Keeps s t) : Keeps s (t.stashBind n j desc new spill) :=
  .highWater (.raiseLedger (.setStash h))

theorem Keeps.stashOverflow {n j desc tensor} (h : Keeps s t) : Keeps s (t.stashOverflow n j desc tensor) :=
  .ite h (by
  split
  · exact .emit (.wr (.wr (.inc (.setStash h))))
  · exact .emit (.wr (.wr (.inc (.setStash h))))
  · exact .wr (.wr (.inc (.setStash h))))

theorem Keeps.stashExhausted {n j desc tensor cause} (h : Keeps s t) : Keeps s (t.stashExhausted n j desc tensor cause) := .failJob (.wr h)

theorem KeepsStash.stashWrite {n j desc tensor pages} (h : Keeps s t) : KeepsStash s (t.stashWrite n j desc tensor pages) := by
  have hover : Keeps s (t.stashOverflow n j desc tensor) := .stashOverflow h
  unfold State.stashWrite
  dsimp only
  split
  · exact h.stashBind
  · split
    · split
      · exact hover.stashBind
      · split
        · exact hover.stashBind
        · exact hover.stashExhausted
    · exact hover.raiseLedger
    · exact hover.stashExhausted

theorem Keeps.stashRead {cl n j desc pages} (h : Keeps s t) : Keeps s (t.stashRead cl n j desc pages) :=
  .ite h (.ite (.add h) (.emit (.setStash (.add h))))

theorem Keeps.stashRelease {n j lim bank} (h : Keeps s t) : Keeps s (t.stashRelease n j lim bank) := .write (.wr (.wr (.setStash (.wr h))))

theorem Keeps.setFrame {j desc e k f} (h : Keeps s t) : Keeps s (t.setFrame j desc e k f) := by
  unfold State.setFrame
  split
  · exact h
  · split
    · exact h
    · exact .writeNat (.setSlot h)

theorem KeepsFst.dqWalk {j d va ks} (h : Keeps s t) : KeepsFst s (t.dqWalk j d va ks) := by
  induction ks generalizing t with
  | nil => exact h
  | cons k ks ih =>
    unfold State.dqWalk
    split
    · exact ih h
    · split <;> rename_i he <;> have h := Keeps.of_fst (.walkAt h) he
      · exact h
      · exact ih (.setFrame h)

theorem Keeps.dqStore {cl j x d} (h : Keeps s t) : Keeps s (t.dqStore cl j x d) :=
  .foldl (fun _ _ h' => by
  split
  · exact .setBytes h'
  · exact h') h

theorem Keeps.dqTouch {n j x d} (h : Keeps s t) : Keeps s (t.dqTouch n j x d) :=
  .foldl (fun _ _ h' => by
  split
  · exact .touch h'
  · exact h') h

theorem KeepsIssue.enterDq {cl rd d joins out} (h : Keeps s t) : KeepsIssue s (t.enterDq cl rd d joins out) := .ret (.setCluster h)

theorem KeepsIssue.startDq {cl j rd x d joins} (h : Keeps s t) : KeepsIssue s (t.startDq cl j rd x d joins) := by
  have hepoch (n hd : Nat) : KeepsEpoch s
      (if d.write then t.epochWrite j n hd (b2n d.e) else t.epochRead cl j n hd (b2n d.e)) := by
    split
    · exact .epochWrite h
    · exact .epochRead h
  unfold State.startDq
  split
  · specialize hepoch (shardOf x).1 (shardOf x).2
    dsimp only
    split <;> rename_i he <;> rw [he] at hepoch
    · exact .exc
    · exact .enterDq hepoch
    · exact .enterDq (.addRef hepoch)
  · split
    · exact .enterDq h
    · dsimp only
      split
      · split <;> rename_i he
        · exact .enterDq (he ▸ KeepsStash.stashWrite h :)
        · exact .enterDq (he ▸ KeepsStash.stashWrite h :)
        · exact .wait (he ▸ KeepsStash.stashWrite h :)
      · exact .enterDq (.stashRead h)

theorem KeepsRes.execDq {cl f} (h : Keeps s t) : KeepsRes s (execDq cl f t) :=
  .issue h (fun _ => .ite .excIllegal (by
  split
  · exact .exc
  · exact .ite .exc (.ite .exc (.ite .exc (.ite .exc (.ite .exc (.ite .exc (.ite .exc (.ite (.ite (.waitQueue h) (.startDq h)) (by
    split
    · exact .exc
    · exact .ite .exc (.ite (.waitQueue h) (.startDq h))))))))))))

theorem Keeps.wakeDwait {cl} (h : Keeps s t) : Keeps s (t.wakeDwait cl) := by
  unfold State.wakeDwait
  split
  · exact .ite (.endWait h) h
  · exact h

theorem KeepsRes.execDwait {cl f} (h : Keeps s t) : KeepsRes s (execDwait cl f t) :=
  .issue h (fun _ => .ite .excIllegal (.ite .exc (.ite (.ret h) (.wait (.setRun (.showWait (.setCluster h)))))))

theorem Keeps.endDq {cl j d} (h : Keeps s t) : Keeps s (t.endDq cl j d) := .wakeDwait (.setCluster (.dropRef h))

theorem Keeps.deliver {tx ts bs} (h : Keeps s t) : Keeps s (t.deliver tx ts bs) := .setCluster h

theorem KeepsRes.execDqComplete {cl seq} (h : Keeps s t) : KeepsRes s (execDqComplete cl seq t) := by
  unfold Machine.execDqComplete
  split
  · split
    · exact .ok h
    · refine .ite (.ok h) ?_
      split
      · exact .ok h
      · extract_lets walked
        have hwalked : KeepsFst s walked := .ite (.mk h) (.dqWalk h)
        rcases hw : walked with ⟨u, _ | ⟨vp, cause, level, entry⟩⟩ <;> have h := Keeps.of_fst hwalked hw
        rotate_left
        · exact .ite (.ok h) (.pair (.raiseFault h) fun _ _ h => .ok (.setCluster h))
        · dsimp only
          split
          · exact .ok h
          · exact .access h fun _ h => .ok (.foldl (fun _ _ h => .endDq h)
              (.ite (.dqStore (.dqTouch h)) (.foldl (fun _ _ h => .deliver h) (.dqTouch h))))
  · exact .ok h

theorem Keeps.showPart {p} (h : Keeps s t) : Keeps s (t.showPart p) := .foldl (fun _ _ h' => .wr h') (.wrB (.wr (.wr h)))

theorem Keeps.partCheck {p} (h : Keeps s t) : Keeps s (t.partCheck p) := .ite (.emit (.showPart h)) (.showPart h)

theorem Keeps.failCluster {cl cause addr} (h : Keeps s t) : Keeps s (t.failCluster cl cause addr) :=
  .partCheck (.wr (.wr (.ite (.setCluster (by
  split
  · exact .failJob (.ite (.abandonCl (.setRun (.ite (.inc (.wr (.wr (.wr h)))) (.inc (.inc (.wr (.wr (.wr h)))))))) (.ite (.inc (.wr
      (.wr (.wr h)))) (.inc (.inc (.wr (.wr (.wr h)))))))
  · exact .emit (.ite (.abandonCl (.setRun (.ite (.inc (.wr (.wr (.wr h)))) (.inc (.inc (.wr (.wr (.wr h)))))))) (.ite (.inc (.wr (.wr
      (.wr h)))) (.inc (.inc (.wr (.wr (.wr h))))))))) (by
  split
  · exact .failJob (.ite (.abandonCl (.setRun (.ite (.inc (.wr (.wr (.wr h)))) (.inc (.inc (.wr (.wr (.wr h)))))))) (.ite (.inc (.wr
      (.wr (.wr h)))) (.inc (.inc (.wr (.wr (.wr h)))))))
  · exact .emit (.ite (.abandonCl (.setRun (.ite (.inc (.wr (.wr (.wr h)))) (.inc (.inc (.wr (.wr (.wr h)))))))) (.ite (.inc (.wr (.wr
      (.wr h)))) (.inc (.inc (.wr (.wr (.wr h)))))))))))

theorem KeepsRes.execClusterFault {cl cause addr} (h : Keeps s t) : KeepsRes s (execClusterFault cl cause addr t) :=
  .ite (.ok (.inc (.inc h))) (.ite (.ok (.inc (.inc h))) (.ite (.ok h) (.ok (.failCluster h))))

theorem Keeps.rotStart {j p} (h : Keeps s t) : Keeps s (t.rotStart j p) := by
  unfold State.rotStart
  dsimp only
  split
  · exact .setRot (.wr h)
  · exact h

theorem Keeps.rotMark {j} (h : Keeps s t) : Keeps s (t.rotMark j) := .ite (.foldl (fun _ _ h' => .rotStart h') h) h

theorem KeepsRes.execClusterRotation {n q} (h : Keeps s t) : KeepsRes s (execClusterRotation n q t) := by
  unfold Machine.execClusterRotation
  dsimp only
  split
  · exact .ite (.ok h) (.ite (.ok (.latch (.rotDecline (.tick (.dropArms h))))) (.ite (.ok (.latch (.rotDecline (.tick (.dropArms h)))))
      (.ite (.ok (.latch (.rotDecline (.tick (.dropArms h))))) (.ok (.latch (.setRot (.tick (.dropArms h))))))))
  · exact .ok h

theorem Keeps.moveRegs {o i} (h : Keeps s t) : Keeps s (t.moveRegs o i) :=
  .wr (.wr (.wr (.wr (.wr (.wr (.wr (.wr (.foldl (fun _ _ h' => .setReg (.setReg h')) h))))))))

theorem KeepsRes.execClusterRotated {n q hold} (h : Keeps s t) : KeepsRes s (execClusterRotated n q hold t) := by
  unfold Machine.execClusterRotated
  dsimp only
  split
  · exact .ok h
  · exact .ite (.ok h) (.ite (.ok (.rotDecline h)) (.ite (.ok h) (.ok (.rotRecord (.showPart (.setRot (.moveRegs (.foldl (fun _ _ h' =>
      .setShard h') (.wr (.wr (.wr (.wr (.setCluster (.setCluster h))))))))))))))

theorem KeepsRes.execDrainMark {j} (h : Keeps s t) : KeepsRes s (execDrainMark j t) :=
  .ite (by
  split
  · exact .ok (.foldl (fun _ _ h' => .setCluster h') (.rotMark (.setSlot h)))
  · exact .ok (.emit (.inc (.foldl (fun _ _ h' => .setCluster h') (.rotMark (.setSlot h)))))) (.ok h)

theorem KeepsFst.walkList {ctx vpage write n} (h : Keeps s t) : KeepsFst s (t.walkList ctx vpage write n) := by
  induction n generalizing t vpage with
  | zero => exact h
  | succ n ih =>
    unfold State.walkList
    split <;> rename_i he <;> have h := Keeps.of_fst (.walkAt h) he
    · exact h
    · split <;> rename_i he <;> exact Keeps.of_fst (ih h) he

theorem KeepsFst.stashIds {j vpage n} (h : Keeps s t) : KeepsFst s (t.stashIds j vpage n) := by
  induction n generalizing t vpage with
  | zero => exact h
  | succ n ih =>
    unfold State.stashIds
    split <;> rename_i he <;> have h := Keeps.of_fst (.walkWith h) he
    · exact h
    · exact ih h

theorem KeepsFst.walkDescs {j ds} (h : Keeps s t) : KeepsFst s (t.walkDescs j ds) := by
  induction ds generalizing t with
  | nil => exact h
  | cons d ds ih =>
    unfold State.walkDescs
    extract_lets rest ways one
    have hrest (u d) (h : Keeps s u) : KeepsFst s (rest u d) := by
      show KeepsFst s (match u.walkDescs j ds with | (s1, .inr x) => _ | (s1, .inl more) => _)
      split <;> rename_i he <;> exact Keeps.of_fst (ih h) he
    have hone (u va) (h : Keeps s u) : KeepsFst s (one u va) := by
      refine .foldl (fun p w h => ?_) (.mk h)
      split
      · exact h
      · split <;> rename_i he <;> exact Keeps.of_fst (.walkList h) he
    split
    · split <;> rename_i he <;> have h := Keeps.of_fst (.stashIds h) he
      · exact h
      · exact hrest _ _ h
    · split <;> rename_i he <;> have h := Keeps.of_fst (hone _ _ h) he
      · exact h
      · split <;> rename_i he <;> have h := Keeps.of_fst (KeepsFst.ite (hone _ _ h) (.mk h)) he
        · exact h
        · exact hrest _ _ h

theorem Keeps.writeFrames {p d} (h : Keeps s t) : Keeps s (t.writeFrames p d) :=
  .ite (.foldl (fun _ _ h' => .foldl (fun _ _ h2 => .write h2) h') (.foldl (fun _ _ h' => .foldl (fun _ _ h2 => .write h2) h') (.foldl (fun
    _ _ h' => .write h') h))) (.foldl (fun _ _ h' => .foldl (fun _ _ h2 => .write h2) h') (.foldl (fun _ _ h' => .write h') h))

theorem Keeps.loadCluster {fr tx ord cl tie} (h : Keeps s t) : Keeps s (t.loadCluster fr tx ord cl tie) := by
  unfold State.loadCluster
  split
  · exact .wr (.setCluster h)
  · exact h

theorem Keeps.readCont {fr size} (h : Keeps s t) : Keeps s (t.readCont fr size) := .foldl (fun _ _ h' => .touch h') (.accessNow h)

theorem KeepsLoad.tryLoad {j va} (h : Keeps s t) : KeepsLoad s (t.tryLoad j va) := by
  unfold State.tryLoad
  split
  · exact .fault (.of_fst (.walkList h) ‹_›)
  · rename_i u fr0 he
    have h := Keeps.of_fst (.walkList h) he
    extract_lets size
    refine .ite .busy (.ite (.stop h) (.ite (.refused h) (.ite (.refused h) ?_)))
    split
    · exact .fault (.of_fst (.walkList h) ‹_›)
    · rename_i u fr he
      extract_lets u1 tbl offs tens tsec dma
      have h1 : Keeps s u1 := .readCont (.of_fst (.walkList h) he)
      refine .ite .busy (.ite (.stop h1) (.ite (.refused h1) ?_))
      split
      · exact .refused h1
      · split
        · exact .fault (.of_fst (.walkDescs h1) ‹_›)
        · have h2 := Keeps.of_fst (.walkDescs h1) ‹_›
          exact .ite (.stop h2) (.done (.setSlot (.foldl (fun _ _ h => .wr h)
            (.foldl (fun _ _ h => .loadCluster h) (.foldl (fun _ _ h => .writeFrames h) h2)))))

theorem Keeps.putCmd {q c} (h : Keeps s t) : Keeps s (t.putCmd q c) := .setQueue h

theorem Keeps.refuseLoad {q entry j e} (h : Keeps s t) : Keeps s (t.refuseLoad q entry j e) := by
  unfold State.refuseLoad
  split <;> exact .endCmd (.failJob (.setSlot h))

theorem Keeps.runLoad {q c j} (h : Keeps s t) : Keeps s (t.runLoad q c j) := by
  have hload := KeepsLoad.tryLoad (j := j) (va := bits c.w 111 64) (Keeps.setSlot (j := j) (v := { t.slot j with loadHeld := none }) h)
  unfold State.runLoad
  dsimp only
  split <;> rename_i he <;> rw [he] at hload
  · exact h
  · exact hload.keeps _ (Eq.refl _)
  · exact .showWalkers (.setSlot (.refuseLoad (hload.keeps _ (Eq.refl _))))
  · exact .ite (hload.keeps _ (Eq.refl _)) (.pair (.raiseFault (hload.keeps _ (Eq.refl _))) fun _ _ h => .showWalkers (.setSlot
      (.setSlot h)))
  · exact .showWalkers (.setSlot (.setSlot (hload.keeps _ (Eq.refl _))))

theorem Keeps.goLoad {q c j} (h : Keeps s t) : Keeps s (t.goLoad q c j) :=
  .ite (.runLoad (.ite h (.showWalkers (.setSlot h)))) (.ite h (.showWalkers (.setSlot h)))

theorem KeepsRes.execLoad {q} (h : Keeps s t) : KeepsRes s (execLoad q t) :=
  .ite (.ok h) (by
  dsimp only
  split
  · exact .ite (.ok h) (by
    split
    · exact .ok (.goLoad h)
    · exact .ok h)
  · split
    · exact .ok h
    · exact .ite (.ok h) (.ite (.ok (.endCmd (.emit (.putCmd h)))) (.ok (.goLoad (.setSlot (.putCmd h))))))

theorem KeepsRes.execProgramLoaded {j timeUs} (h : Keeps s t) : KeepsRes s (execProgramLoaded j timeUs t) := by
  unfold Machine.execProgramLoaded
  dsimp only
  split
  · exact .ite (.ok h) (by
    split
    · exact .ok (.endCmd (.emit (.setSlot h)))
    · exact .ok (.emit (.setSlot h)))
  · exact .ok h

theorem Keeps.ringDoorbell {q val} (h : Keeps s t) : Keeps s (t.ringDoorbell q val) := .ite (.inc h) (.setQueue h)

theorem KeepsRes.execSqDoorbell {q val} (h : Keeps s t) : KeepsRes s (execSqDoorbell q val t) := .ite (.ok h) (.ok (.ringDoorbell h))

theorem Keeps.holdDoorbell {core q val no} (h : Keeps s t) : Keeps s (t.holdDoorbell core q val no) := .ite (.same h) (.ringDoorbell h)

theorem KeepsRes.execSqOrderedDoorbell {core q val} (h : Keeps s t) : KeepsRes s (execSqOrderedDoorbell core q val t) :=
  .ite (.ok h) (.ok (.holdDoorbell h))

theorem Keeps.passOdbs (h : Keeps s t) : Keeps s t.passOdbs := .foldl (fun _ _ h' => .ite (.same h') (.ringDoorbell h')) (.same h)

theorem KeepsRes.execSqResume {q} (h : Keeps s t) : KeepsRes s (execSqResume q t) := .ite (.ok (.setQueue (.wr h))) (.ok h)

theorem KeepsRes.execSqHalt {q} (h : Keeps s t) : KeepsRes s (execSqHalt q t) := .ite (.ok (.haltQueue h)) (.ok h)

theorem KeepsRes.execQueueDisable {q val} (h : Keeps s t) : KeepsRes s (execQueueDisable q val t) :=
  .ite (.ok h) (.ok (.setQueue (.wr (.wr (.wr (.wr (.setReg (.same h))))))))

theorem KeepsRes.execCqHeadWrite {q val} (h : Keeps s t) : KeepsRes s (execCqHeadWrite q val t) := .ok (.setQueue (.wr h))

theorem Keeps.addWalk {q entry side va len write} (h : Keeps s t) : Keeps s (t.addWalk q entry side va len write) := .same h

theorem Keeps.acceptCmd {q w} (h : Keeps s t) : Keeps s (t.acceptCmd q w) := by
  unfold State.acceptCmd
  split
  · exact .endCmd (.setQueue (.ite (.wr (.wr h)) (.wr h)))
  · exact .showWalkers (.foldl (fun _ _ h' => .addWalk h') (.setQueue (.ite (.wr (.wr h)) (.wr h))))

theorem KeepsRes.execSubmissionFetch {q} (h : Keeps s t) : KeepsRes s (execSubmissionFetch q t) :=
  .ite (.ok h) (.access h (fun _ h' => .ite (.ok (.tick (.acceptCmd h'))) (.ok (.tick (.setQueue h')))))

theorem KeepsRes.execSubmissionReread {q} (h : Keeps s t) : KeepsRes s (execSubmissionReread q t) :=
  .ite (.ok h) (.access h (fun _ h' => .ite (.ok (.tick (.acceptCmd (.inc h')))) (.ite (.ok (.tick (.setQueue (.inc h')))) (.ok (.tick
    (.haltQueue (.emit (.inc (.setQueue (.inc h'))))))))))

theorem KeepsRes.execCommandDispatch {e} (h : Keeps s t) : KeepsRes s (execCommandDispatch e t) :=
  .ite (.ok h) (by
  split
  · exact .ok h
  · split
    · exact .ok h
    · exact .ite (.ok (.wr (.wr (.wr (.same (.setEng (.putCmd h))))))) (.ok (.wr (.wr (.same (.setEng (.putCmd h)))))))

theorem Keeps.countMoved {e n} (h : Keeps s t) : Keeps s (t.countMoved e n) := .wr (.same h)

theorem Keeps.copyLines {src dst n} (h : Keeps s t) : Keeps s (t.copyLines src dst n) :=
  .foldl (fun _ _ h' => .touch (.touch (.setBytes h'))) h

theorem KeepsRes.execCopy {e} (h : Keeps s t) : KeepsRes s (execCopy e t) := by
  unfold Machine.execCopy
  split
  · exact .ite (.ok h) (.access h (fun _ h' => .ok (.finish (.countMoved (.tick (.copyLines h'))))))
  · exact .ok h

theorem KeepsRes.execPeerWrite {e} (h : Keeps s t) : KeepsRes s (execPeerWrite e t) := by
  unfold Machine.execPeerWrite
  dsimp only
  split
  · exact .ite (.ok h) (.ite (.ok (.finish h)) (by
    split
    · exact .ok h
    · exact .access h (fun _ h' => .ok (.tick (.countMoved (.setEng (.same (.sendMember (.foldl (fun _ _ h2 => .touch h2) h')))))))))
  · exact .ok h

theorem Keeps.peerFail {e x c status tag index} (h : Keeps s t) : Keeps s (t.peerFail e x c status tag index) :=
  .finish (.emit (.ite (.inc h) (.inc h)))

theorem KeepsRes.execPeerAckReceive {e tag good} (h : Keeps s t) : KeepsRes s (execPeerAckReceive e tag good t) := by
  unfold Machine.execPeerAckReceive
  split
  · split
    · exact .ok h
    · exact .ite (.ok h) (.ite (.ok (.peerFail h)) (.ite (.ok (.finish h)) (.ok (.setEng h))))
  · exact .ok h

theorem KeepsRes.execPeerLost {e tag} (h : Keeps s t) : KeepsRes s (execPeerLost e tag t) := by
  unfold Machine.execPeerLost
  split
  · split
    · exact .ok h
    · exact .ite (.ok h) (.ok (.peerFail h))
  · exact .ok h

theorem KeepsFst.snapWalk {j desc e va ks} (h : Keeps s t) : KeepsFst s (t.snapWalk j desc e va ks) := by
  induction ks generalizing t with
  | nil => exact h
  | cons k ks ih =>
    unfold State.snapWalk
    split
    · exact ih h
    · split <;> rename_i he <;> have h := Keeps.of_fst (.walkAt h) he
      · exact h
      · exact ih (.setFrame h)

theorem KeepsRes.snapRun {e x c k} (h : Keeps s t) : KeepsRes s (t.snapRun e x c k) := by
  obtain ⟨n, j, hd, v⟩ := k
  unfold State.snapRun
  dsimp only
  split
  · exact .ok (.finish h)
  · refine .ite (.ite (.ok (.finish h)) (.ok (.showWalkers (.addWalk (.putCmd h))))) ?_
    split <;> rename_i he <;> have h := Keeps.of_fst (.snapWalk h) he
    · exact .ite (.ok h) (.ok (.wr (.same (.fst (.raiseFault h)))))
    · exact .access h fun _ h => .ok (.finish (.emit (.inc (.countMoved (.tick (.copyLines h))))))

theorem KeepsRes.execSnapshot {e} (h : Keeps s t) : KeepsRes s (execSnapshot e t) := by
  unfold Machine.execSnapshot
  dsimp only
  split
  · exact .ite (.ok h) (.ite (.ok h) (by
    split
    · exact .snapRun h
    · exact .ite (.ok (.finish h)) (by
      split
      · exact .ok (.finish h)
      · exact .ite (.ok (.finish h)) (.ite (.ite (.ok (.putCmd h)) (.ok (.finish h))) (by
        split
        · exact .ok (.finish h)
        · exact .snapRun (.putCmd (.addRef h)))))))
  · exact .ok h

theorem KeepsRes.execNop {q} (h : Keeps s t) : KeepsRes s (execNop q t) := by
  unfold Machine.execNop
  split
  · exact .ite (.ok (.endCmd h)) (.ok h)
  · exact .ok h

theorem KeepsRes.execCommandComplete {q} (h : Keeps s t) : KeepsRes s (execCommandComplete q t) := by
  unfold Machine.execCommandComplete
  dsimp only
  split
  · exact .ok h
  · exact .ite (.ok h) (.ite (.ite (.ok (.setQueue h)) (.ok (.setQueue (.emit (.same h))))) (.access h (fun _ h' => .ok (.ite (.queueIrq
      (.ite (.setQueue (.inc (.ite (.wr (.setNat (.setNat h'))) (.setNat (.setNat h'))))) (.ite (.inc (.setQueue (.inc (.ite (.wr (.setNat
      (.setNat h'))) (.setNat (.setNat h')))))) (.emit (.same (.inc (.setQueue (.inc (.ite (.wr (.setNat (.setNat h'))) (.setNat (.setNat
      h'))))))))))) (.ite (.setQueue (.inc (.ite (.wr (.setNat (.setNat h'))) (.setNat (.setNat h'))))) (.ite (.inc (.setQueue (.inc (.ite
      (.wr (.setNat (.setNat h'))) (.setNat (.setNat h')))))) (.emit (.same (.inc (.setQueue (.inc (.ite (.wr (.setNat (.setNat h')))
      (.setNat (.setNat h'))))))))))))))

theorem KeepsRes.execFaultResumeRetry {r} (h : Keeps s t) : KeepsRes s (execFaultResumeRetry r t) :=
  .ite (.ok h) (.ok (.showWalkers (.same (.wr h))))

theorem KeepsRes.execFaultResumeAbort {r} (h : Keeps s t) : KeepsRes s (execFaultResumeAbort r t) :=
  .ite (.ok h) (.ok (.showWalkers (.same (.foldl (fun _ _ h' => .ite (by
  split
  · split
    · exact .refuseLoad h'
    · exact h'
  · exact h') h') (.foldl (fun _ _ h' => by
  split
  · exact .finish h'
  · exact h') (.foldl (fun _ _ h' => .endWork h') (.ite (.failJob (.wr h)) (.emit (.wr h)))))))))

theorem KeepsRes.execFqBaseWrite {val} (h : Keeps s t) : KeepsRes s (execFqBaseWrite val t) := .ok (.same (.setReg h))

theorem Keeps.sdWalks {d} (h : Keeps s t) : Keeps s (t.sdWalks d) := .same h

theorem KeepsFst.sdQueues {d} (h : Keeps s t) : KeepsFst s (t.sdQueues d) :=
  .foldl (fun _ _ h' => .foldl (fun _ _ h2 => .ite h2 (.mk (.ite (.putCmd (.foldl (fun _ _ h3 => .ite (.foldl (fun _ _ h4 => .ite
    (.writeNat h4) h4) h3) (.addWalk (.foldl (fun _ _ h4 => .ite (.writeNat h4) h4) h3))) (.fst h2))) (.foldl (fun _ _ h3 => .ite (.foldl
    (fun _ _ h4 => .ite (.writeNat h4) h4) h3) (.addWalk (.foldl (fun _ _ h4 => .ite (.writeNat h4) h4) h3))) (.fst h2))))) h') (.mk h)

theorem KeepsFst.sdProgram {d} (h : Keeps s t) : KeepsFst s (t.sdProgram d) :=
  .ite (.mk h) (by
  split
  · exact .mk h
  · exact .foldl (fun _ _ h' => .mk (.foldl (fun _ _ h2 => .foldl (fun _ _ h3 => .ite (.setFrame h3) h3) h2) (.fst h'))) (.mk h))

theorem Keeps.putSlice {e su x} (h : Keeps s t) : Keeps s (t.putSlice e su x) := .foldl (fun _ _ h' => .writeNat h') h

theorem KeepsFst.sdSurfs {d} (h : Keeps s t) : KeepsFst s (t.sdSurfs d) :=
  .foldl (fun _ _ h' => by
  split
  · exact h'
  · exact .mk (.foldl (fun _ _ h2 => .putSlice h2) (.same (.fst h')))) (.mk h)

theorem Keeps.shootdown {d} (h : Keeps s t) : Keeps s (t.shootdown d) :=
  .pair3 (.sdQueues (.sdWalks h)) (fun _ _ _ h' => .pair (.sdProgram h') (fun _ _ h2 => .pair (.sdSurfs h2) (fun _ _ h3 => .showTrk
    (.showTrk (.wr (.wr (.same h3)))))))

theorem Keeps.commandSd {d} (h : Keeps s t) : Keeps s (t.commandSd d) :=
  .ite (.wr h) (.ite (.wr h) (.ite (.wr h) (.showWalkers (.wr (.shootdown h)))))

theorem KeepsRes.execShootdownCmd {val} (h : Keeps s t) : KeepsRes s (execShootdownCmd val t) := .ite (.ok h) (.ok (.commandSd h))

theorem KeepsRes.execShootdownComplete {elapsed} (h : Keeps s t) : KeepsRes s (execShootdownComplete elapsed t) := by
  unfold Machine.execShootdownComplete
  split
  · exact .ok h
  · exact .ite (.ok h) (.ok (.ite (.emit (.wr (.inc (.wr (.wr (.wr (.wr (.same h)))))))) (.wr (.inc (.wr (.wr (.wr (.wr (.same h)))))))))

theorem KeepsRes.receive {m op k} (h : Keeps s t) (hk : KeepsRes s k) : KeepsRes s (t.receive m op k) := by
  unfold State.receive
  refine .ite (.ok h) ?_
  split
  · exact .ok (.stopDetect h)
  · exact .ite (.ok (.stopDetect h)) (.ite (.ok h) hk)

theorem Keeps.setLine {a line st d} (h : Keeps s t) : Keeps s (t.setLine a line st d) := .same h

theorem Keeps.useL2 {core line store} (h : Keeps s t) : Keeps s (t.useL2 core line store) := .same h

theorem Keeps.setDir {line d} (h : Keeps s t) : Keeps s (t.setDir line d) := .same h

theorem Keeps.setRawLine {line d} (h : Keeps s t) : Keeps s (t.setRawLine line d) := .rawBytes h

theorem Keeps.grant {src txn line} (h : Keeps s t) : Keeps s (t.grant src txn line) := by
  unfold State.grant
  split
  · exact h
  · exact .same h

theorem Keeps.sendData {tx st} (h : Keeps s t) : Keeps s (t.sendData tx st) := .ite (.grant (.send h)) (.send h)

theorem Keeps.sendCmp {tx st} (h : Keeps s t) : Keeps s (t.sendCmp tx st) := .ite (.grant (.send h)) (.send h)

theorem Keeps.putTxn {tx} (h : Keeps s t) : Keeps s (t.putTxn tx) := .same h

theorem Keeps.closeTxn {tx} (h : Keeps s t) : Keeps s (t.closeTxn tx) := .same h

theorem Keeps.snoop {tx op fwd agents} (h : Keeps s t) : Keeps s (t.snoop tx op fwd agents) := .foldl (fun _ _ h' => .send h') (.putTxn h)

theorem Keeps.faultTxn {tx} (h : Keeps s t) : Keeps s (t.faultTxn tx) := .closeTxn (.send h)

theorem Keeps.lockFault {tx} (h : Keeps s t) : Keeps s (t.lockFault tx) := .faultTxn (.noteOnce (.inc (.wr (.wr h))))

theorem Keeps.serveDir {tx} (h : Keeps s t) : Keeps s (t.serveDir tx) := by
  unfold State.serveDir
  dsimp only
  split
  · split
    · exact .snoop h
    · exact .ite (.closeTxn (.sendData (by
      split
      · exact .setDir h
      · exact h))) (.closeTxn (.sendData (by
      split
      · exact .setDir h
      · exact h)))
  · split
    · exact .snoop h
    · exact .ite (.closeTxn (.sendData (by
      split
      · exact .setDir h
      · exact h))) (.snoop h)
  · exact .ite (.closeTxn (.sendCmp (by
    split
    · exact .setDir h
    · exact h))) (.snoop h)
  · split
    · exact .snoop h
    · exact .closeTxn (.sendData h)
  · split
    · exact .snoop h
    · exact .ite (.closeTxn (.sendCmp (.setDir (.setRawLine h)))) (.snoop h)

theorem Keeps.serve {tx} (h : Keeps s t) : Keeps s (t.serve tx) :=
  .ite (.ite h (.eccReads h)) (.ite (.stopDetect (.ite h (.eccReads h))) (.ite (.serveDir (.ite h (.eccReads h))) (.ite (.ite (.closeTxn
    (.sendCmp (.setRawLine (.ite h (.eccReads h))))) (.closeTxn (.sendData (.ite h (.eccReads h))))) (.ite (.same (.closeTxn (.ite h
    (.eccReads h)))) (.ite (.lockFault (.ite h (.eccReads h))) (.putTxn (.ite h (.eccReads h))))))))

theorem Keeps.startPass (h : Keeps s t) : Keeps s t.startPass :=
  .foldl (fun _ _ h' => .ite h' (by
  split
  · exact .ite (.serve h') h'
  · exact h')) h

theorem Keeps.startAll (h : Keeps s t) : Keeps s t.startAll := .foldl (fun _ _ h' => .startPass (.drainMem h')) h

theorem Keeps.flipPage {home frame drainNs} (h : Keeps s t) : Keeps s (t.flipPage home frame drainNs) := by
  unfold State.flipPage
  exact .noteOnce (.wr (.inc (.same h)))

theorem Keeps.rangeFault {addr} (h : Keeps s t) : Keeps s (t.rangeFault addr) := by
  unfold State.rangeFault
  split
  · exact .inc h
  · exact h

theorem Keeps.accessFault {core cause addr away} (h : Keeps s t) : Keeps s (t.accessFault core cause addr away) :=
  .ite (.rangeFault (.send h)) (.send h)

theorem Keeps.post {txn op core addr width kind store data no} (h : Keeps s t) : Keeps s (t.post txn op core addr width kind store data
    no) :=
  .send (.same h)

theorem Keeps.accessWaits {no i} (h : Keeps s t) : Keeps s (t.accessWaits no i) := .same h

theorem Keeps.withTxn {a no i k} (h : Keeps s t) (hk : ∀ a0 u, Keeps s u → Keeps s (k a0 u)) : Keeps s (t.withTxn a no i k) := by
  unfold State.withTxn
  split
  · exact hk _ _ (.same h)
  · exact .accessWaits h

theorem Keeps.request {no i op core addr width kind store data} (h : Keeps s t) : Keeps s (t.request no i op core addr width kind store
    data) :=
  .ite (.accessWaits h) (.withTxn h (fun _ _ h' => .post h'))

theorem Keeps.hostLoad {no core addr width kind ty} (h : Keeps s t) : Keeps s (t.hostLoad no core addr width kind ty) :=
  .ite (.ite (.send h) (.ite (.send h) (.ite h (.withTxn h (fun _ _ h' => .send (.same h')))))) (by
  split
  · exact .ite h (.accessFault h)
  · split
    · exact .request h
    · split
      · exact .ite h (.send (.useL2 h))
      · exact .request h)

theorem Keeps.hostStore {no core addr width data ty amo} (h : Keeps s t) : Keeps s (t.hostStore no core addr width data ty amo) := by
  unfold State.hostStore
  dsimp only
  exact .ite (.ite (.send h) (.ite h (.ite (.withTxn h (fun _ _ h' => .send h')) (.ite (.holdDoorbell h) (.withTxn h (fun _ _ h' => .send
    h')))))) (by
    split
    · exact .accessFault h
    · split
      · exact .ite (.request h) (.request h)
      · split
        · exact .ite (.useL2 (.setLine h)) (.request h)
        · exact .request h)

theorem Keeps.retryHost (h : Keeps s t) : Keeps s t.retryHost :=
  .foldl (fun _ _ h' => by
  split
  · exact .ite (.accessWaits h') (.hostLoad h')
  · exact .ite (.accessWaits h') (.hostStore h')
  · exact h') (.same h)

theorem Keeps.pcieTake {p line write} (h : Keeps s t) : Keeps s (t.pcieTake p line write) :=
  .ite h (.ite (.ite (.eccRead h) (.eccRead (.eccRead h))) (.ite (.setDir (.setLine (by
  split
  · exact .ite (.setLine (.ite (.setRawLine (.ite (.inc (.ite (.eccRead h) (.eccRead (.eccRead h)))) (.ite (.eccRead h) (.eccRead
      (.eccRead h))))) (.ite (.inc (.ite (.eccRead h) (.eccRead (.eccRead h)))) (.ite (.eccRead h) (.eccRead (.eccRead h)))))) (.setLine
      (.ite (.setRawLine (.ite (.inc (.ite (.eccRead h) (.eccRead (.eccRead h)))) (.ite (.eccRead h) (.eccRead (.eccRead h))))) (.ite (.inc
      (.ite (.eccRead h) (.eccRead (.eccRead h)))) (.ite (.eccRead h) (.eccRead (.eccRead h))))))
  · exact .ite (.inc (.ite (.eccRead h) (.eccRead (.eccRead h)))) (.ite (.eccRead h) (.eccRead (.eccRead h)))))) (.setDir (by
  split
  · exact .ite (.setLine (.ite (.setRawLine (.ite (.inc (.ite (.eccRead h) (.eccRead (.eccRead h)))) (.ite (.eccRead h) (.eccRead
      (.eccRead h))))) (.ite (.inc (.ite (.eccRead h) (.eccRead (.eccRead h)))) (.ite (.eccRead h) (.eccRead (.eccRead h)))))) (.setLine
      (.ite (.setRawLine (.ite (.inc (.ite (.eccRead h) (.eccRead (.eccRead h)))) (.ite (.eccRead h) (.eccRead (.eccRead h))))) (.ite (.inc
      (.ite (.eccRead h) (.eccRead (.eccRead h)))) (.ite (.eccRead h) (.eccRead (.eccRead h))))))
  · exact .ite (.inc (.ite (.eccRead h) (.eccRead (.eccRead h)))) (.ite (.eccRead h) (.eccRead (.eccRead h)))))))

theorem Keeps.pcieStore {p a data} (h : Keeps s t) : Keeps s (t.pcieStore p a data) :=
  .foldl (fun _ _ h' => by
  dsimp only
  split
  · exact .setLine h'
  · exact .rawBytes h') h

theorem Keeps.inbound {p r} (h : Keeps s t) : Keeps s (t.inbound p r) :=
  .ite (.same h) (by
  split
  · exact .ite h (.send h)
  · exact .ite (.ite h (.send h)) (by
    split
    · exact .ite (.rangeFault h) (.send (.rangeFault h))
    · exact .ite (.same h) (.ite (.foldl (fun _ _ h' => .ite h' (.eccRead h')) h) (by
      split
      · exact .noteOnce (.ite (.inc (.foldl (fun _ _ h' => .ite h' (.eccRead h')) h)) (.send (.inc (.foldl (fun _ _ h' => .ite h'
          (.eccRead h')) h))))
      · exact .stopDetect (.foldl (fun _ _ h' => .ite h' (.eccRead h')) h)
      · exact .ite (.foldl (fun _ _ h' => .ite h' (.pcieTake h')) (.foldl (fun _ _ h' => .ite (.flipPage h') h') (.foldl (fun _ _ h' =>
          .ite h' (.eccRead h')) h))) (.ite (.tick (.pcieStore (.foldl (fun _ _ h' => .ite h' (.pcieTake h')) (.foldl (fun _ _ h' => .ite
          (.flipPage h') h') (.foldl (fun _ _ h' => .ite h' (.eccRead h')) h))))) (.tick (.send (.foldl (fun _ _ h' => .ite h' (.pcieTake
          h')) (.foldl (fun _ _ h' => .ite (.flipPage h') h') (.foldl (fun _ _ h' => .ite h' (.eccRead h')) h))))))))))

theorem Keeps.servePcie (h : Keeps s t) : Keeps s t.servePcie := .foldl (fun _ _ h' => .ite h' (.inbound h')) (.same h)

theorem Keeps.settle (h : Keeps s t) : Keeps s t.settle := .ite h (.passOdbs (.servePcie (.retryHost h)))

theorem KeepsRes.execHostLoad {core addr width kind ty} (h : Keeps s t) : KeepsRes s (execHostLoad core addr width kind ty t) :=
  .ite (.ok (.hostLoad h)) (.ok h)

theorem KeepsRes.execHostStore {core addr width data ty amo} (h : Keeps s t) : KeepsRes s (execHostStore core addr width data ty amo t)
    :=
  .ite (.ok (.hostStore (.same h))) (.ok h)

theorem KeepsRes.arrive {m} (h : Keeps s t) : KeepsRes s (t.arrive m) := by
  unfold State.arrive
  split
  · exact .ok (.tick (.stopDetect h))
  · exact .ite (.ok (.stopDetect h)) (.ite (.ok (.faultTxn (.rangeFault h))) (.ok (.tick (.settle (.startAll (.same (.ite (.ite h (.same
      h)) (.touch (.ite h (.same h))))))))))

theorem KeepsRes.execRdshr {m} (h : Keeps s t) : KeepsRes s (execRdshr m t) := .receive h (.arrive h)

theorem KeepsRes.execRdown {m} (h : Keeps s t) : KeepsRes s (execRdown m t) := .receive h (.arrive h)

theorem KeepsRes.execUpgr {m} (h : Keeps s t) : KeepsRes s (execUpgr m t) := .receive h (.arrive h)

theorem KeepsRes.execRdna {m} (h : Keeps s t) : KeepsRes s (execRdna m t) := .receive h (.arrive h)

theorem KeepsRes.execWrinvfull {m} (h : Keeps s t) : KeepsRes s (execWrinvfull m t) := .receive h (.arrive h)

theorem Keeps.respTime {a hd line ns} (h : Keeps s t) : Keeps s (t.respTime a hd line ns) :=
  .ite (.wr h) (.ite (.stopDetect (.emit (.inc (.wr (.wr h))))) (.emit (.inc (.wr (.wr h)))))

theorem Keeps.dirDrop {line a} (h : Keeps s t) : Keeps s (t.dirDrop line a) := .setDir h

theorem Keeps.answered {tx a} (h : Keeps s t) : Keeps s (t.answered tx a) := .ite (.startAll (.putTxn h)) (.putTxn h)

theorem Keeps.flushed {a line} (h : Keeps s t) : Keeps s (t.flushed a line) := .ite (.same h) (.dirDrop (.same h))

theorem KeepsRes.respond {m ns k} (h : Keeps s t) (hk : ∀ a0 a1 u, Keeps s u → Keeps s (k a0 a1 u)) : KeepsRes s (t.respond m ns k) := by
  unfold State.respond
  split
  · exact .ok (.stopDetect h)
  · exact .ok (.stopDetect h)
  · split
    · exact .ite (.ok (.tick (.ite (.respTime h) (.settle (hk _ _ _ (.respTime h)))))) (.ite (.ok (.ite (.respTime h) (.flushed
        (.respTime h)))) (.ok (.stopDetect h)))
    · exact .ok (.ite (.respTime h) (.flushed (.respTime h)))
    · exact .ok (.stopDetect h)

theorem KeepsRes.execRspi {m ns} (h : Keeps s t) : KeepsRes s (execRspi m ns t) :=
  .receive h (.respond h (fun _ _ _ h' => .answered (.dirDrop h')))

theorem KeepsRes.execRsps {m ns} (h : Keeps s t) : KeepsRes s (execRsps m ns t) :=
  .receive h (.respond h (fun _ _ _ h' => .ite (.startAll (.closeTxn (.sendData h'))) (.answered (.setDir h'))))

theorem Keeps.forwarded {tx a} (h : Keeps s t) : Keeps s (t.forwarded tx a) := by
  unfold State.forwarded
  split
  · exact .setDir h
  · exact h
  · exact .setDir h
  · exact h

theorem KeepsRes.execRspfwd {m ns} (h : Keeps s t) : KeepsRes s (execRspfwd m ns t) :=
  .receive h (.respond h (fun _ _ _ h' => .ite (.putTxn h') (.startAll (.closeTxn (.forwarded h')))))

theorem KeepsRes.execRspwbpend {m ns} (h : Keeps s t) : KeepsRes s (execRspwbpend m ns t) :=
  .receive h (.respond h (fun _ _ _ h' => .ite (.putTxn h') (.answered (.dirDrop h'))))

theorem KeepsRes.execSnoopTimeout {home line a} (h : Keeps s t) : KeepsRes s (execSnoopTimeout home line a t) :=
  .ite (.ok (.stopDetect h)) (.ok h)

theorem Keeps.sendWb {a line txn d} (h : Keeps s t) : Keeps s (t.sendWb a line txn d) := .send (.same h)

theorem Keeps.writeBack {a line d} (h : Keeps s t) : Keeps s (t.writeBack a line d) := by
  unfold State.writeBack
  split
  · exact h
  · exact .sendWb (.same (.setLine h))

theorem Keeps.withdrawOn {a} (h : Keeps s t) : Keeps s (t.withdrawOn a) :=
  .ite h (.ite (.foldl (fun _ _ h' => .ite (.writeBack h') (.setLine h')) h) (.foldl (fun _ _ h' => .send h') (.same (.foldl (fun _ _ h' =>
    .ite (.writeBack h') (.setLine h')) h))))

theorem KeepsRes.execWbdata {m} (h : Keeps s t) : KeepsRes s (execWbdata m t) :=
  .receive h (by
  split
  · exact .ok (.stopDetect h)
  · exact .ok (.stopDetect h)
  · exact .ite (.ok (.stopDetect h)) (.ok (.tick (.withdrawOn (.settle (by
    split
    · exact .ite (.startAll (.closeTxn (.forwarded (.setRawLine (.same h))))) (.ite (.answered (.dirDrop (.setRawLine (.same h))))
        (.setRawLine (.same h)))
    · exact .startAll (.setDir (.setRawLine (.same h)))))))))

theorem Keeps.answerSnoop {a m} (h : Keeps s t) : Keeps s (t.answerSnoop a m) :=
  .ite (.send (.inc h)) (by
  split
  · exact .send (.inc h)
  · split
    · exact .ite (.send (.same (.inc h))) (.send (.setLine (.ite (.send (.same (.ite (.same (.ite (.grant (.send (.inc h))) (.send (.inc
        h)))) (.ite (.grant (.send (.inc h))) (.send (.inc h)))))) (.ite (.same (.ite (.grant (.send (.inc h))) (.send (.inc h)))) (.ite
        (.grant (.send (.inc h))) (.send (.inc h)))))))
    · exact .ite (.send (.ite (.same (.ite (.grant (.send (.setLine (.inc h)))) (.send (.setLine (.inc h))))) (.ite (.grant (.send
        (.setLine (.inc h)))) (.send (.setLine (.inc h)))))) (.send (.setLine (.inc h)))
    · exact .ite (.send (.same (.inc h))) (.send (.ite (.same (.ite (.grant (.send (.inc h))) (.send (.inc h)))) (.ite (.grant (.send
        (.inc h))) (.send (.inc h)))))
    · exact .send (.ite (.send (.same (.setLine (.inc h)))) (.setLine (.inc h))))

theorem KeepsRes.snoopArrives {m} (h : Keeps s t) : KeepsRes s (t.snoopArrives m) := by
  unfold State.snoopArrives
  split
  · exact .ok h
  · exact .ite (.ok (.same h)) (.ok (.withdrawOn (.answerSnoop h)))

theorem KeepsRes.execSnpshr {m} (h : Keeps s t) : KeepsRes s (execSnpshr m t) := .receive h (.snoopArrives h)

theorem KeepsRes.execSnpinv {m} (h : Keeps s t) : KeepsRes s (execSnpinv m t) := .receive h (.snoopArrives h)

theorem KeepsRes.execSnpcur {m} (h : Keeps s t) : KeepsRes s (execSnpcur m t) := .receive h (.snoopArrives h)

theorem KeepsRes.execSnpflush {m} (h : Keeps s t) : KeepsRes s (execSnpflush m t) := .receive h (.snoopArrives h)

theorem Keeps.answerHeld {a line} (h : Keeps s t) : Keeps s (t.answerHeld a line) := .foldl (fun _ _ h' => .answerSnoop h') (.same h)

theorem KeepsRes.execTenureEnd {a line} (h : Keeps s t) : KeepsRes s (execTenureEnd a line t) :=
  .ite (.ok h) (.ok (.tick (.settle (.startAll (.withdrawOn (.answerHeld (.same h)))))))

theorem KeepsRes.execHostEvict {a line} (h : Keeps s t) : KeepsRes s (execHostEvict a line t) :=
  .ite (.ok h) (by
  split
  · exact .ok h
  · exact .ok (.settle (.ite (.writeBack h) (.setLine h))))

theorem Keeps.closeReq {r} (h : Keeps s t) : Keeps s (t.closeReq r) := .same h

theorem Keeps.fill {r st d} (h : Keeps s t) : Keeps s (t.fill r st d) :=
  .ite (.answerHeld (.sendWb (.same h))) (.ite (.answerHeld (.ite (.sendWb (.same (.closeReq h))) (.closeReq h))) (.ite (.send (.closeReq
    h)) (.ite (.useL2 (.setLine (.same (.closeReq h)))) (.ite (.setLine (.same (.closeReq h))) (.send (.useL2 (.setLine (.same (.closeReq
    h)))))))))

theorem KeepsRes.deviceTakes {m detail} (h : Keeps s t) : KeepsRes s (t.deviceTakes m detail) := .ite (.ok (.same h)) (.ok (.stopDetect h))

theorem KeepsRes.dataArrives {m} (h : Keeps s t) : KeepsRes s (t.dataArrives m) := by
  unfold State.dataArrives
  split
  · exact .deviceTakes h
  · split
    · exact .ok (.tick (.settle (.startAll (.withdrawOn (.fill h)))))
    · exact .ok (.stopDetect h)

theorem KeepsRes.execData {m} (h : Keeps s t) : KeepsRes s (execData m t) := .receive h (.dataArrives h)

theorem KeepsRes.execFwddata {m} (h : Keeps s t) : KeepsRes s (execFwddata m t) := .receive h (.dataArrives h)

theorem KeepsRes.execCmp {m} (h : Keeps s t) : KeepsRes s (execCmp m t) :=
  .receive h (by
  split
  · exact .deviceTakes h
  · split
    · exact .ok (.stopDetect h)
    · exact .ok (.tick (.settle (.startAll (.withdrawOn (.ite (.closeReq h) (by
      split
      · exact .ite (.post (.closeReq h)) (.useL2 (.setLine (.closeReq h)))
      · exact .post (.closeReq h))))))))

theorem KeepsRes.execCmpfault {m} (h : Keeps s t) : KeepsRes s (execCmpfault m t) :=
  .receive h (by
  split
  · exact .deviceTakes h
  · split
    · exact .ok (.stopDetect h)
    · exact .ok (.settle (.withdrawOn (.ite (.closeReq h) (.send (.closeReq h))))))

theorem KeepsRes.execRegdata {m} (h : Keeps s t) : KeepsRes s (execRegdata m t) :=
  .receive h (by
  split
  · exact .ok h
  · split
    · exact .ok (.stopDetect h)
    · exact .ok (.settle (.withdrawOn (.ite (.closeReq h) (.send (.closeReq h))))))

theorem KeepsRes.execCredit {m} (h : Keeps s t) : KeepsRes s (execCredit m t) := .receive h (.ite (.ok (.stopDetect h)) (.ok (.same h)))

theorem KeepsRes.execDoorbell {m} (h : Keeps s t) : KeepsRes s (execDoorbell m t) := .receive h (.ite (.ok (.ringDoorbell h)) (.ok h))

theorem KeepsRes.execWithdraw {m} (h : Keeps s t) : KeepsRes s (execWithdraw m t) :=
  .receive h (by
  split
  · exact .ok h
  · exact .ite (.ok h) (.ok (.tick (.settle (.ite (.wr (.foldl (fun _ _ h' => .ite (.startAll (.closeTxn (.forwarded h'))) (.answered
      h')) (.foldl (fun _ _ h' => .dirDrop h') (.same h)))) (.foldl (fun _ _ h' => .ite (.startAll (.closeTxn (.forwarded h'))) (.answered
      h')) (.foldl (fun _ _ h' => .dirDrop h') (.same h))))))))

theorem KeepsRes.execWithdrawTimeout {a} (h : Keeps s t) : KeepsRes s (execWithdrawTimeout a t) := .ite (.ok (.stopDetect h)) (.ok h)

theorem Keeps.withdraw {a} (h : Keeps s t) : Keeps s (t.withdraw a) := .withdrawOn (.same (.wr h))

theorem Keeps.rejoin {a} (h : Keeps s t) : Keeps s (t.rejoin a) := .wr (.same h)

theorem Keeps.flushPages {lines} (h : Keeps s t) : Keeps s (t.flushPages lines) :=
  .foldl (fun _ _ h' => .ite (.foldl (fun _ _ h2 => .send (.same h2)) h') h') h

theorem KeepsRes.execBiasCmd {val} (h : Keeps s t) : KeepsRes s (execBiasCmd val t) :=
  .ite (.ok h) (.ite (.ok (.wr h)) (.ite (.ok (.wr h)) (.ite (.ok (.wr h)) (.ok (.ite (.wr (.wr (.same h))) (.flushPages (.wr (.wr (.same
    h)))))))))

theorem KeepsRes.execBiasCmdDone {ns} (h : Keeps s t) : KeepsRes s (execBiasCmdDone ns t) := by
  unfold Machine.execBiasCmdDone
  split
  · exact .ok h
  · exact .ite (.ok h) (.ite (.ok h) (.ite (.ok (.flushPages h)) (.ok (.emit (.wr (.wr (.wr (.same (.foldl (fun _ _ h' => .same h')
      h)))))))))

theorem KeepsRes.execBiasFlip {home frame drainNs} (h : Keeps s t) : KeepsRes s (execBiasFlip home frame drainNs t) := by
  unfold Machine.execBiasFlip
  split
  · exact .ok h
  · exact .ite (.ok h) (.ok (.tick (.settle (.startAll (.same (.flipPage h))))))

theorem KeepsRes.execDieFlitReceive {l seq crcOk} (h : Keeps s t) : KeepsRes s (execDieFlitReceive l seq crcOk t) :=
  .ite (.ok h) (.ite (.ok (.same h)) (.ok (.send (.inc h))))

theorem Keeps.showRetrain (h : Keeps s t) : Keeps s t.showRetrain := .wr h

theorem Keeps.linkFail {l} (h : Keeps s t) : Keeps s (t.linkFail l) := .stopDetect (.showRetrain (.wr h))

theorem KeepsRes.execDieLinkRetrainEnter {l why failed} (h : Keeps s t) : KeepsRes s (execDieLinkRetrainEnter l why failed t) :=
  .ite (.ok h) (.ite (.ok (.linkFail (.wr (.inc (.same h))))) (.ok (.showRetrain (.wr (.wr (.inc (.same h)))))))

theorem KeepsRes.execLinkRetrain {l stallNs replayed} (h : Keeps s t) : KeepsRes s (execLinkRetrain l stallNs replayed t) :=
  .ite (.ok h) (.ok (.emit (.add (.wr (.showRetrain (.wr h))))))

theorem KeepsRes.execDieLinkFail {l} (h : Keeps s t) : KeepsRes s (execDieLinkFail l t) := .ite (.ok h) (.ok (.linkFail h))

theorem Keeps.ringFlush (h : Keeps s t) : Keeps s t.ringFlush := .foldl (fun _ _ h => .rawBytes h) (.same h)

theorem KeepsRes.execDomainStop (h : Keeps s t) : KeepsRes s (execDomainStop t) := by
  unfold Machine.execDomainStop
  split
  · exact .ok h
  · exact .ite (.ok h) (.ok (.tick (.foldl (fun _ _ h' => .setSlot h') (.foldl (fun _ _ h' => .ite (.stopEngines (.setSlotState h'))
      (.stopJob h')) (.foldl (fun _ _ h' => .ite h' (.abandonCl (.setRun h'))) (.emit (.wr (.wr (.wr (.wr (.wr (.wr (.wr (.same (.ite h
      (.ringFlush h))))))))))))))))

theorem Keeps.refuseReset {hd kind reason slot} (h : Keeps s t) : Keeps s (t.refuseReset hd kind reason slot) := .emit (.wr h)

theorem Keeps.dropCores {hd} (h : Keeps s t) : Keeps s (t.dropCores hd) := .same h

theorem Keeps.clearComplex {hd} (h : Keeps s t) : Keeps s (t.clearComplex hd) := .same h

theorem KeepsRes.execHostCcReset {fromCore die} (h : Keeps s t) : KeepsRes s (execHostCcReset fromCore die t) := by
  unfold Machine.execHostCcReset
  dsimp only
  split
  · exact .ok (.refuseReset h)
  · exact .ok (.withdraw (.emit (.dropCores (.wr (.same h)))))

theorem KeepsRes.execCcWithdrawDone {die us} (h : Keeps s t) : KeepsRes s (execCcWithdrawDone die us t) :=
  .ite (.ok (.emit (.wr (.clearComplex h)))) (.ok h)

theorem KeepsRes.execCcResetRelease {die} (h : Keeps s t) : KeepsRes s (execCcResetRelease die t) :=
  .ite (.ok (.servePcie (.send (.inc (.wr (.rejoin h)))))) (.ok h)

theorem KeepsRes.execCcFirstFetch {die us} (h : Keeps s t) : KeepsRes s (execCcFirstFetch die us t) :=
  .ite (.ok (.emit (.wr (.same h)))) (.ok h)

theorem Keeps.pcieRecord {p event speed width} (h : Keeps s t) : Keeps s (t.pcieRecord p event speed width) := .emit h

theorem Keeps.pcieDown {p dpc} (h : Keeps s t) : Keeps s (t.pcieDown p dpc) :=
  .ite (.pcieRecord (.inc (.wr (.wr (.wr (.wr (.same h))))))) (.pcieRecord (.wr (.wr (.wr (.wr (.same h))))))

theorem KeepsRes.execPcieLink {port e} (h : Keeps s t) : KeepsRes s (execPcieLink port e t) := by
  unfold Machine.execPcieLink
  split
  · exact .ite (.ok h) (.ok (.pcieRecord (.wrB (.wr (.wr (.wr h))))))
  · exact .ok (.pcieDown h)
  · exact .ok (.pcieDown h)

theorem KeepsRes.execHostDieReset {fromCore die} (h : Keeps s t) : KeepsRes s (execHostDieReset fromCore die t) := by
  unfold Machine.execHostDieReset
  dsimp only
  split
  · exact .ok (.refuseReset h)
  · exact .ok (.ite (.withdraw (.pcieDown (.emit (.foldl (fun _ _ h' => .ite h' (.ite (.wr h') (.haltQueue h'))) (.wr (.same h))))))
      (.pcieDown (.emit (.foldl (fun _ _ h' => .ite h' (.ite (.wr h') (.haltQueue h'))) (.wr (.same h))))))

theorem Keeps.resetPrism {e} (h : Keeps s t) : Keeps s (t.resetPrism e) := .foldl (fun _ _ h' => .setReg h') h

theorem Keeps.resetDie {hd us} (h : Keeps s t) : Keeps s (t.resetDie hd us) := by
  unfold State.resetDie
  exact .emit (.wr (.showTrk (.foldl (fun _ _ h' => .resetPrism h') (.same (.clearComplex (.dropCores (.closePrism h)))))))

theorem KeepsRes.execHdQuiesceDone {die us} (h : Keeps s t) : KeepsRes s (execHdQuiesceDone die us t) :=
  .ite (.ok h) (.ite (.ok (.withdraw h)) (.ite (.ok h) (.ite (.ok (.flushPages (.ite h (.same h)))) (.ok (.resetDie (.flushPages (.ite h
    (.same h))))))))

theorem KeepsRes.execHdQuiesceTimeout {die} (h : Keeps s t) : KeepsRes s (execHdQuiesceTimeout die t) :=
  .ite (.ok (.settle (.refuseReset (.wr (.rejoin (.same h)))))) (.ok h)

theorem KeepsRes.execHdResetRelease {die us} (h : Keeps s t) : KeepsRes s (execHdResetRelease die us t) :=
  .ite (.ok (.emit (.send (.inc (.wr (.rejoin (.same h))))))) (.ok h)

theorem KeepsRes.execHdrstAssert {die} (h : Keeps s t) : KeepsRes s (execHdrstAssert die t) := .ite (.ok h) (.ok (.stopDetect (.wr h)))

theorem KeepsRes.execPcieInbound {port r} (h : Keeps s t) : KeepsRes s (execPcieInbound port r t) := .ite (.ok h) (.ok (.inbound h))

theorem Keeps.setCtx {x c} (h : Keeps s t) : Keeps s (t.setCtx x c) := .wr (.wr (.wr (.wr (.wr (.wr (.wr (.wr (.same h))))))))

theorem KeepsFst.surfWalk {tx} (h : Keeps s t) : KeepsFst s (t.surfWalk tx) := by
  unfold State.surfWalk
  split
  · exact h
  · refine .foldl (fun acc p h => ?_) (.mk h)
    dsimp only
    split
    · exact h
    · split <;> rename_i he <;> have h := Keeps.of_fst (.walkAt h) he
      · exact h
      · split
        · exact h
        · exact .mk (.writeNat (.same h))

theorem KeepsFst.surfReady {k x ts} (h : Keeps s t) : KeepsFst s (t.surfReady k x ts) := by
  refine .foldl (fun acc tx h => .ite h ?_) (.mk h)
  split <;> rename_i he <;> have h := Keeps.of_fst (.surfWalk h) he
  · exact h
  · exact .pair (.raiseFault h) fun _ _ h => .mk (.wr (.same h))

theorem Keeps.surfTry {ts} (h : Keeps s t) : Keeps s (t.surfTry ts) := .foldl (fun _ _ h' => .fst (.surfWalk h')) h

theorem KeepsFst.surfWrite {ux o n src} (h : Keeps s t) : KeepsFst s (t.surfWrite ux o n src) :=
  .foldl (fun _ _ h' => by
  split
  · exact .mk (.ite (.touch (.setByte (.fst h'))) (.setByte (.fst h')))
  · exact .mk (.fst h')) (.mk h)

theorem Keeps.touchLines {ls} (h : Keeps s t) : Keeps s (t.touchLines ls) := .foldl (fun _ _ h' => .touch h') h

theorem KeepsFst.putPicture {c tx w hd grey} (h : Keeps s t) : KeepsFst s (t.putPicture c tx w hd grey) := by
  unfold State.putPicture
  split
  · exact .mk h
  · exact .foldl (fun _ _ h' => .pair (.surfWrite (.fst h')) (fun _ _ h2 => .mk h2)) (.mk h)

theorem KeepsFst.putPool {c pool} (h : Keeps s t) : KeepsFst s (t.putPool c pool) := by
  unfold State.putPool
  split
  · exact .mk h
  · exact .surfWrite h

theorem KeepsFst.copyPool {c ref pool} (h : Keeps s t) : KeepsFst s (t.copyPool c ref pool) := by
  unfold State.copyPool
  split
  · exact .surfWrite h
  · exact .mk h

theorem KeepsFst.putStream {c tx off n} (h : Keeps s t) : KeepsFst s (t.putStream c tx off n) := by
  unfold State.putStream
  split
  · exact .mk h
  · exact .surfWrite h

theorem KeepsRes.execCtxOpen {e} (h : Keeps s t) : KeepsRes s (execCtxOpen e t) := by
  unfold Machine.execCtxOpen
  split
  · exact .ok h
  · exact .access h (fun _ h' => .ite (.ok (.finish (.tick (.touchLines h')))) (by
    split
    · exact .ok (.finish (.tick (.touchLines h')))
    · exact .ite (.ok (.finish (.tick (.touchLines h')))) (.ok (.finish (.setCtx (.tick (.touchLines h')))))))

theorem KeepsRes.execCtxClose {e} (h : Keeps s t) : KeepsRes s (execCtxClose e t) := by
  unfold Machine.execCtxClose
  dsimp only
  split
  · exact .ok h
  · split
    · exact .ok (.finish h)
    · exact .ok (.finish (.closeCtx h))

theorem Keeps.surfHeader {e su} (h : Keeps s t) : Keeps s (t.surfHeader e su) := .tick (.write h)

theorem KeepsRes.execSurfBind {e} (h : Keeps s t) : KeepsRes s (execSurfBind e t) := by
  unfold Machine.execSurfBind
  split
  · exact .ok h
  · exact .ite (.ok (.finish h)) (.ite (.ite (.ok (.finish (.putSlice (.surfHeader (.same h))))) (.ok (.finish h))) (by
    split
    · exact .ok (.finish h)
    · exact .ok (.finish (.putSlice (.surfHeader (.same h))))))

theorem Keeps.damaged {e k cause c f} (h : Keeps s t) : Keeps s (t.damaged e k cause c f) := .noteOnce h

theorem Keeps.endFrame {e x k c f cause} (h : Keeps s t) : Keeps s (t.endFrame e x k c f cause) := by
  unfold State.endFrame
  exact .finish (.tick (.wr (.inc (.setCtx (.setNat (by
    split
    · exact .damaged (.add (.ite (.inc (.ite (.inc (.ite (.inc h) h)) (.ite (.inc h) h))) (.ite (.inc (.ite (.inc h) h)) (.ite (.inc h)
        h))))
    · exact .add (.ite (.inc (.ite (.inc (.ite (.inc h) h)) (.ite (.inc h) h))) (.ite (.inc (.ite (.inc h) h)) (.ite (.inc h) h)))))))))

theorem Keeps.refMissing {e k c order} (h : Keeps s t) : Keeps s (t.refMissing e k c order) := by
  unfold State.refMissing
  exact .noteOnce h

theorem KeepsRes.decodeEnds {e x c r watchdog} (h : Keeps s t) : KeepsRes s (t.decodeEnds e x c r watchdog) := by
  unfold State.decodeEnds
  dsimp only
  split
  · exact .ok (.finish h)
  · refine .ite (.ok (.finish h)) (.ite (.ok (.finish h)) (.ite (.ok (.finish h)) (.ite (.ok (.finish h)) ?_)))
    have hready (used) : KeepsFst s (if watchdog then (t.surfTry used, true) else t.surfReady (24 + e) x used) :=
      .ite (.mk (.surfTry h)) (.surfReady h)
    refine .ite (.ok (.fst (hready _))) (.access (.fst (hready _)) fun u h => .ok (.endFrame (.foldl (fun _ _ h => .refMissing h) (.fst
      ?_))))
    refine .ite (.putPicture (.fst (.ite (.mk (.touchLines h)) ?_))) (.mk (.fst (.ite (.mk (.touchLines h)) ?_)))
    · split
      · exact .copyPool (.touchLines h)
      · exact .putPool (.touchLines h)
    · split
      · exact .copyPool (.touchLines h)
      · exact .putPool (.touchLines h)

theorem KeepsRes.execDecode {e r} (h : Keeps s t) : KeepsRes s (execDecode e r t) := by
  unfold Machine.execDecode
  split
  · exact .ok h
  · exact .decodeEnds h

theorem KeepsRes.encodeFrame {cx c pool total own moves k} (h : Keeps s t) (hk : ∀ u a1 a2, Keeps s u → KeepsRes s (k u a1 a2)) :
    KeepsRes s (t.encodeFrame cx c pool total own moves k) :=
  .access h (fun _ h' => .pair (.putPool (.touchLines h')) (fun _ _ h2 => .pair (.putStream h2) (fun _ _ h3 => hk _ _ _ h3)))

theorem KeepsRes.execEncode {e r} (h : Keeps s t) : KeepsRes s (execEncode e r t) := by
  unfold Machine.execEncode
  split
  · exact .ok h
  · dsimp only
    split
    · exact .ok (.finish h)
    · exact .ok (.finish h)
    · refine .ite (.ok (.fst (.surfReady h))) (.encodeFrame (.fst (.surfReady h)) fun u cx d h => .ok (.endFrame ?_))
      split
      · exact .noteOnce h
      · exact h

theorem KeepsRes.convertFrame {cx c cut k} (h : Keeps s t) (hk : ∀ u a1 a2, Keeps s u → KeepsRes s (k u a1 a2)) : KeepsRes s
    (t.convertFrame cx c cut k) :=
  .access h (fun _ h' => .pair (.putPicture (.touchLines h')) (fun _ _ h2 => hk _ _ _ h2))

theorem KeepsRes.execConvert {e cycles} (h : Keeps s t) : KeepsRes s (execConvert e cycles t) := by
  unfold Machine.execConvert
  split
  · exact .ok h
  · dsimp only
    split
    · exact .ok (.finish h)
    · refine .ite (.ok (.finish h)) (.ite (.ok (.finish h)) (.ite (.ok (.finish h)) (.ite (.ok (.fst (.surfReady h))) ?_)))
      exact .convertFrame (.fst (.surfReady h)) fun _ _ _ h => .ok (.endFrame h)

theorem KeepsRes.execPrismRcTimeout {e} (h : Keeps s t) : KeepsRes s (execPrismRcTimeout e t) := by
  unfold Machine.execPrismRcTimeout
  split
  · exact .ok h
  · split
    · exact .ok h
    · exact .ite (.ok h) (.ok (.emit (.inc (.setEng h))))

theorem KeepsRes.execPrismWatchdog {e r} (h : Keeps s t) : KeepsRes s (execPrismWatchdog e r t) := by
  unfold Machine.execPrismWatchdog
  dsimp only
  split
  · exact .ok h
  · split
    · exact .decodeEnds h
    · split
      · exact .ok (.finish h)
      · exact .encodeFrame (.surfTry h) (fun _ _ _ h' => .ok (.endFrame h'))
    · exact .convertFrame (.surfTry h) (fun _ _ _ h' => .ok (.endFrame h'))
    · exact .ok h

theorem Keeps.showFabric (h : Keeps s t) : Keeps s t.showFabric := .wr (.wr (.wr h))

theorem Keeps.setStart {n} (h : Keeps s t) : Keeps s (t.setStart n) := .send (.wr h)

theorem Keeps.startReady (h : Keeps s t) : Keeps s t.startReady := .ite (.tick (.emit (.wr (.setStart h)))) h

theorem Keeps.lockLap (h : Keeps s t) : Keeps s t.lockLap := .startReady (.wr (.same h))

theorem Keeps.relockFails (h : Keeps s t) : Keeps s t.relockFails :=
  .ite (.emit (.wr (.same (.ite h (.inc h))))) (.foldl (fun _ _ h' => .failJob h') (.wr (.same (.ite h (.inc h)))))

theorem Keeps.sendMarks (h : Keeps s t) : Keeps s t.sendMarks := .ite (.foldl (fun _ _ h' => .ite (.send h') h') h) h

theorem Keeps.askDelay {p} (h : Keeps s t) : Keeps s (t.askDelay p) := .send (.same (.setPort h))

theorem Keeps.follow {m} (h : Keeps s t) : Keeps s (t.follow m) := .wrB (.wr (.wr (.wr (.wr (.ite h (.inc (.same h)))))))

theorem Keeps.phase {err} (h : Keeps s t) : Keeps s (t.phase err) := .wrInt (.same h)

theorem KeepsRes.execLmosReceive {port w arrNs} (h : Keeps s t) : KeepsRes s (execLmosReceive port w arrNs t) :=
  .ite (.ok h) (.ite (.ok (.inc h)) (.ite (.ok h) (.ite (.ok (.inc h)) (.ite (.ok (.inc h)) (.ite (.ite (.ok (.same (.same h))) (.ok (.same
    h))) (.ok (.ite (.wr (.same (.same h))) (.same (.same h)))))))))

theorem Keeps.relock {m} (h : Keeps s t) : Keeps s (t.relock m) := .ite (.relockFails h) (.wr (.wr (.follow (.same h))))

theorem Keeps.depose (h : Keeps s t) : Keeps s t.depose := by
  unfold State.depose
  dsimp only
  split
  · exact .emit (.relock (.wr (.wr (.wr (.wr (.same h))))))
  · exact .emit (.inc (.wr (.wr (.wr (.wr (.wr (.same h)))))))

theorem Keeps.takeMarks (h : Keeps s t) : Keeps s t.takeMarks :=
  .ite (.depose h) (.ite h (by
  dsimp only
  split
  · split
    · exact .ite (.phase h) h
    · exact h
  · exact .ite (.ite h (.relock h)) (.ite (.wr (.same (.follow h))) (.phase (.follow (.ite h (.inc h)))))))

theorem Keeps.markOut (h : Keeps s t) : Keeps s t.markOut := .ite (.same h) (.same (.sendMarks h))

theorem KeepsRes.execLapLockAcquired (h : Keeps s t) : KeepsRes s (execLapLockAcquired t) := .ite (.ok (.lockLap h)) (.ok h)

theorem KeepsRes.execLapUpstreamSwitch (h : Keeps s t) : KeepsRes s (execLapUpstreamSwitch t) :=
  .ite (by
  split
  · exact .ok h
  · exact .ok (.emit (.inc (.follow (.same h))))) (.ok h)

theorem KeepsRes.execLapLockLost (h : Keeps s t) : KeepsRes s (execLapLockLost t) := .ite (.ok (.emit (.inc (.wr (.wr (.same h)))))) (.ok h)

theorem KeepsRes.execLapHoldover (h : Keeps s t) : KeepsRes s (execLapHoldover t) :=
  .ite (.ok (.foldl (fun _ _ h' => .failJob h') (.same h))) (.ok h)

theorem KeepsRes.execLapRelocked (h : Keeps s t) : KeepsRes s (execLapRelocked t) := .ite (.ok (.emit (.lockLap h))) (.ok h)

theorem Keeps.showRef (h : Keeps s t) : Keeps s t.showRef := .wr (.wrB (.wrB h))

theorem KeepsRes.execLapMasterTakeover (h : Keeps s t) : KeepsRes s (execLapMasterTakeover t) :=
  .ite (.ok (.emit (.lockLap (.inc (.wr (.showRef (.wr (.wr (.wr (.wr (.wr (.same h)))))))))))) (.ok h)

theorem Keeps.roleChange {new} (h : Keeps s t) : Keeps s (t.roleChange new) :=
  .ite (.ite (.wr (.wr (.wr (.same (.wr h))))) (.lockLap (.showRef (.wr (.wr (.wr (.wr (.wr (.same (.wr h)))))))))) (.ite (.sendMarks (.wr
    (.wr (.wr (.same (.wr h)))))) (.wr h))

theorem KeepsRes.execLaprefPpsEdge (h : Keeps s t) : KeepsRes s (execLaprefPpsEdge t) :=
  .ite (.ok h) (.ok (.tick (.wrB (.wrB (.wr (.wr (.wr (.same h))))))))

theorem KeepsRes.execLaprefLost {no10M noPps} (h : Keeps s t) : KeepsRes s (execLaprefLost no10M noPps t) :=
  .ite (.ok h) (.ok (.emit (.wr (.wrB (.wrB (.same h))))))

theorem KeepsRes.execLaprefRestored (h : Keeps s t) : KeepsRes s (execLaprefRestored t) := .ite (.ok h) (.ok (.wr (.wr (.wr (.same h)))))

theorem KeepsRes.execDreqReceive {port w turnaround} (h : Keeps s t) : KeepsRes s (execDreqReceive port w turnaround t) :=
  .ite (.ok (.send h)) (.ok h)

theorem KeepsRes.execDrspReceive {port w roundTrip} (h : Keeps s t) : KeepsRes s (execDrspReceive port w roundTrip t) :=
  .ite (.ok (.wr (.same h))) (.ok h)

theorem KeepsRes.execLapCountRead (h : Keeps s t) : KeepsRes s (execLapCountRead t) := .ok (.tick (.wr h))

theorem Keeps.readPlan {j tile} (h : Keeps s t) : Keeps s (t.readPlan j tile) := by
  unfold State.readPlan
  split
  · exact h
  · exact .foldl (fun _ _ h' => .reads h') (.reads h)

theorem Keeps.showRelay (h : Keeps s t) : Keeps s t.showRelay := .foldl (fun _ _ h' => .wr (.wr (.wr h'))) h

theorem Keeps.setRelay {j r} (h : Keeps s t) : Keeps s (t.setRelay j r) := .showRelay (.setSlot h)

theorem Keeps.abortNext {j} (h : Keeps s t) : Keeps s (t.abortNext j) := .wr h

theorem Keeps.showClip {j} (h : Keeps s t) : Keeps s (t.showClip j) := .wrB h

theorem Keeps.relayClip {j tensor tile level first clips} (h : Keeps s t) : Keeps s (t.relayClip j tensor tile level first clips) :=
  .ite h (.ite (.showClip (.setSlot (.add h))) (.emit (.showClip (.setSlot (.add h)))))

theorem Keeps.planMiss {j tensor tile reason} (h : Keeps s t) : Keeps s (t.planMiss j tensor tile reason) := .abortNext (.emit h)

theorem Keeps.ownerStore {p b} (h : Keeps s t) : Keeps s (t.ownerStore p b) := .write h

theorem Keeps.relaySend {j dest kind tile level b} (h : Keeps s t) : Keeps s (t.relaySend j dest kind tile level b) :=
  .sendMember (.setRelay (.same h))

theorem Keeps.scaleStore {j tile maxexp} (h : Keeps s t) : Keeps s (t.scaleStore j tile maxexp) := .setRelay (.writeNat (.writeNat h))

theorem Keeps.scaleDown {j p tile maxexp} (h : Keeps s t) : Keeps s (t.scaleDown j p tile maxexp) := by
  unfold State.scaleDown
  dsimp only
  split
  · exact h
  · exact .foldl (fun _ _ h' => .relaySend h') h

theorem Keeps.nodeInput {fuel j port p level b} (h : Keeps s t) : Keeps s (State.nodeInput fuel t j port p level b) := by
  induction fuel generalizing t port level b with
  | zero => exact h
  | succ fuel ih =>
    unfold State.nodeInput
    extract_lets tile old src s0 r me n i node node1 others ins count s1 xa tensor maxexp held up away
    have h0 : Keeps s s0 := by
      cases port with
      | none => exact .setRelay h
      | some p => exact .relayReply h
    refine .ite (.same h) (.ite h0 (.ite (.setRelay h0) ?_))
    split
    extract_lets s2 out s3 keep
    have h2 : Keeps s s2 := .relayClip (.reads h0)
    have h3 : Keeps s s3 := by
      cases he : s2.relayEngine tile with
      | none => simpa only [s3, he] using h2
      | some e => simpa only [s3, he] using h2.inc
    refine .ite (.ite (ih (.setRelay h3)) (.relaySend (.setRelay h3))) ?_
    exact .scaleStore (.scaleDown (.foldl (fun _ _ h => .ite (.ownerStore h) (.relaySend h)) (.setRelay h3)))

theorem Keeps.serveAsks {n} (h : Keeps s t) : Keeps s (State.serveAsks n t) := by
  induction n generalizing t with
  | zero => exact h
  | succ n ih =>
    unfold State.serveAsks
    extract_lets u
    have hu : Keeps s u := by
      refine .foldl (fun u a h => ?_) (.same h)
      split
      · exact .nodeInput h
      · exact h
      · exact .ite (.same h) h
    exact .ite hu (ih hu)

theorem Keeps.served (h : Keeps s t) : Keeps s t.served := .serveAsks h

theorem Keeps.dropAsks {j} (h : Keeps s t) : Keeps s (t.dropAsks j) := .same h

theorem Keeps.pushAsks {cl j tile} (h : Keeps s t) : Keeps s (t.pushAsks cl j tile) := .ite h (.same h)

theorem KeepsRes.execRelayPushTake {cl} (h : Keeps s t) : KeepsRes s (execRelayPushTake cl t) := by
  unfold Machine.execRelayPushTake
  extract_lets c ahead
  split
  · extract_lets s1 r me key s2 xa s3
    refine .ite (.ok h) ?_
    have h1 : Keeps s s1 := .setCluster (.same h)
    have h2 : Keeps s s2 := .reads (.readPlan h1)
    refine .ite (.ok (.planMiss h1)) ?_
    split
    · exact .ok (.planMiss h1)
    · split
      · exact .ok (.planMiss h1)
      · refine .ite (.ok (.pushAsks h)) (.ite (.ok h2) ?_)
        split
        extract_lets s4 sl s5 s6 b
        have h5 : Keeps s s5 := .ite (.showFlags (.setSlot (.relayClip (.setRelay h2)))) (.relayClip (.setRelay h2))
        have h6 : Keeps s s6 := by
          dsimp only [s6]
          split
          · exact .darkCount h5
          · exact h5
        exact .ok (.tick (.ite (.served (.nodeInput h6)) (.relaySend h6)))
  · exact .ok h

theorem Keeps.jobReject {port b} (h : Keeps s t) : Keeps s (t.jobReject port b) := by
  unfold State.jobReject
  exact .noteOnce (.wr (.wr (.inc h)))

theorem Keeps.relayCrcBad {j b} (h : Keeps s t) : Keeps s (t.relayCrcBad j b) :=
  .ite (.abortNext (.emit (.relayReply (.setRelay (.inc h))))) (.relayReply (.setRelay (.inc h)))

theorem Keeps.stepReject {j b} (h : Keeps s t) : Keeps s (t.stepReject j b) := .abortNext (.emit (.inc h))

theorem KeepsRes.relayArrive {port b k} (h : Keeps s t) (hk : ∀ a0, Keeps s (k a0)) : KeepsRes s (t.relayArrive port b k) := by
  unfold State.relayArrive
  split
  · exact .ok (.jobReject h)
  · exact .ite (.ok h) (.ite (.ok (.relayCrcBad h)) (.ite (.ok (.stepReject h)) (.ok (.tick (hk _)))))

theorem KeepsRes.execRelayBlockReceive {port b} (h : Keeps s t) : KeepsRes s (execRelayBlockReceive port b t) :=
  .relayArrive h (fun _ => .ite (.ite h (.readPlan h)) (by
  split
  · exact .planMiss (.ite h (.readPlan h))
  · exact .ite (.ite (.relayReply (.ownerStore (.ite h (.readPlan h)))) (.planMiss (.ite h (.readPlan h)))) (by
    split
    · exact .ite (.planMiss (.ite h (.readPlan h))) (.served (.nodeInput (.ite h (.readPlan h))))
    · exact .planMiss (.ite h (.readPlan h)))))

theorem KeepsRes.execScaleReturnReceive {port b} (h : Keeps s t) : KeepsRes s (execScaleReturnReceive port b t) :=
  .relayArrive h (fun _ => .relayReply (.foldl (fun _ _ h2 => by
  dsimp only
  split
  · exact .planMiss (.readPlan h2)
  · exact .ite (.planMiss (.readPlan h2)) (.scaleStore (.scaleDown (.readPlan h2)))) h))

theorem KeepsRes.execRelayAckReceive {tag good} (h : Keeps s t) : KeepsRes s (execRelayAckReceive tag good t) := by
  unfold Machine.execRelayAckReceive
  split
  · exact .ok h
  · exact .ite (.ok (.served (.setRelay h))) (.ok (.sendMember h))

theorem Keeps.loseNodes {j l} (h : Keeps s t) : Keeps s (t.loseNodes j l) := .setRelay h

theorem Keeps.relayEngineFail {e} (h : Keeps s t) : Keeps s (t.relayEngineFail e) :=
  .ite h (.ite (by
  split
  · exact .emit (.wr (.same (.same (.ite (.wr h) (.foldl (fun _ _ h' => .loseNodes h') (.same (.wr h)))))))
  · exact .ite (.wr h) (.foldl (fun _ _ h' => .loseNodes h') (.same (.wr h)))) (.ite (.same (.ite (.wr h) (.foldl (fun _ _ h' =>
      .loseNodes h') (.same (.wr h))))) (.emit (.wr (.same (.ite (.wr h) (.foldl (fun _ _ h' => .loseNodes h') (.same (.wr h)))))))))

theorem KeepsRes.execRelayEngineFail {e} (h : Keeps s t) : KeepsRes s (execRelayEngineFail e t) := .ok (.relayEngineFail h)

theorem Keeps.swapEngines (h : Keeps s t) : Keeps s t.swapEngines := .same (.foldl (fun _ _ h' => .emit (.wr (.wr (.wr h')))) h)

theorem Keeps.setVote {v} (h : Keeps s t) : Keeps s (t.setVote v) := .same h

theorem Keeps.forgetVotes {job} (h : Keeps s t) : Keeps s (t.forgetVotes job) := .same h

theorem Keeps.dropVotes {kind job old} (h : Keeps s t) : Keeps s (t.dropVotes kind job old) := .same h

theorem Keeps.sendVote {v dest m} (h : Keeps s t) : Keeps s (t.sendVote v dest m) := .sendMember h

theorem Keeps.voteHold {v k m} (h : Keeps s t) : Keeps s (t.voteHold v k m) := .ite h (.setVote h)

theorem Keeps.voteClose {v fuel k} (h : Keeps s t) (hv : v.Kept) : Keeps s (State.voteClose v fuel t k) := by
  induction fuel generalizing t k with
  | zero => exact h
  | succ fuel ih =>
    exact .ite h (.ite (hv _ _ _ (.setVote h)) (.foldl (fun _ _ h => .ite (.ite (ih (.voteHold h)) (.voteHold h)) (.sendVote h)) (.setVote
      h)))

theorem Keeps.voteTake {v k m} (h : Keeps s t) : Keeps s (t.voteTake v k m) := .ite h (.voteHold h)

theorem Keeps.voteMark {v} (h : Keeps s t) (hv : v.Kept) : Keeps s (t.voteMark v) := .foldl (fun _ _ h => .ite (.voteClose h hv) h) h

theorem Keeps.voteSend {v m} (h : Keeps s t) (hv : v.Kept) : Keeps s (t.voteSend v m) :=
  .ite (.voteClose (.voteHold h) hv) (.foldl (fun _ _ h => .ite (.voteTake h) (.sendVote h)) h)

theorem Keeps.voteShut {v k} (h : Keeps s t) (hv : v.Kept) : Keeps s (t.voteShut v k) := .ite (.voteClose h hv) h

theorem Keeps.voteDown {v m} (h : Keeps s t) : Keeps s (t.voteDown v m) := .foldl (fun _ _ h' => .sendVote h') h

theorem Keeps.armJob {kind who tx j} (h : Keeps s t) : Keeps s (t.armJob kind who tx j) := by
  unfold State.armJob
  split
  · exact .addArm h
  · exact .failJob (.latchReject h)

theorem Keeps.darkClear {a even} (h : Keeps s t) : Keeps s (t.darkClear a even) := .writeNat (.writeNat h)

theorem Keeps.darkSkip {j} (h : Keeps s t) : Keeps s (t.darkSkip j) := .foldl (fun _ _ h' => .darkClear h') h

theorem Keeps.darkCommit {j raised} (h : Keeps s t) : Keeps s (t.darkCommit j raised) := by
  refine .fst (.foldl (fun acc idx h => ?_) (.mk h))
  obtain ⟨u, n⟩ := acc
  dsimp only
  have h1 : Keeps s u := h
  split
  · exact h
  · exact .ite (.mk (.darkClear (.writeNat (.writeNat h1)))) (.ite (.mk (.inc (.inc (.darkClear (.writeNat (.writeNat h1))))))
      (.mk (.emit (.inc (.darkClear (.writeNat (.writeNat h1)))))))

theorem Keeps.holdOutcome {j m} (h : Keeps s t) : Keeps s (t.holdOutcome j m) :=
  .ite h (.ite (.ite (.setSlot h) h) (.ite h (.ite (.setSlot h) (.ite (.foldl (fun _ _ h' => by
  split
  · exact .ite h' (by
    split
    · exact .addArm h'
    · exact .emit (.latchReject h'))
  · exact h') (.armJob (.tick (.wr (.setSlot h))))) (.armJob (.tick (.wr (.setSlot h))))))))

theorem VoteSpec.Kept.hurdleVote {j} : (t.hurdleVote j).Kept := fun _ _ _ h => .holdOutcome (.voteDown h)

theorem Keeps.clearHcon {cls} (h : Keeps s t) : Keeps s (t.clearHcon cls) := .foldl (fun _ _ h' => .setCluster h') h

theorem Keeps.markShards {j} (h : Keeps s t) : Keeps s (t.markShards j) := .foldl (fun _ _ h' => .setShard h') h

theorem KeepsRes.execHurdleMark {j} (h : Keeps s t) : KeepsRes s (execHurdleMark j t) := by
  unfold Machine.execHurdleMark
  extract_lets sl s0 last cls st cons missing s1 ckpt
  refine .ite (.ok h) ?_
  split
  extract_lets s2 src s3 abort w s4 s5 s6
  have h2 : Keeps s s2 := .wrB (.wrB (.setSlot (.markShards (.clearHcon (.reads h)))))
  have h3 : Keeps s s3 := by
    cases hu : (if s0.stopped then none else s2.relayUnfinished j) with
    | none => simpa only [s3, hu] using h2
    | some x => simpa only [s3, hu] using Keeps.abortNext (.emit (.inc (.setSlot h2)))
  have h5 : Keeps s s5 := .same (.wr (.wr h3))
  have h6 : Keeps s s6 := by
    cases hm : missing with
    | nil => simpa only [s6, hm] using h5
    | cons c cs => simpa only [s6, hm] using Keeps.failJob (.foldl (fun _ _ h => .inc h) h5)
  exact .ok (.latch (.voteSend h6 .hurdleVote))

theorem KeepsRes.hurdleMsg {m k} (h : Keeps s t) (hk : ∀ a0, Keeps s (k a0)) : KeepsRes s (t.hurdleMsg m k) := by
  unfold State.hurdleMsg
  split
  · exact .ok h
  · exact .ite (.ok (.inc h)) (.ite (.ok h) (.ok (hk _)))

theorem Keeps.hurdleTake {j level m} (h : Keeps s t) : Keeps s (t.hurdleTake j level m) := .ite (.voteTake h) (.ite (.voteHold h) h)

theorem KeepsRes.execHurdleContribReceive {m} (h : Keeps s t) : KeepsRes s (execHurdleContribReceive m t) :=
  .hurdleMsg h (fun _ => .hurdleTake h)

theorem KeepsRes.execHurdlePartialReceive {m} (h : Keeps s t) : KeepsRes s (execHurdlePartialReceive m t) :=
  .hurdleMsg h (fun _ => .hurdleTake h)

theorem KeepsRes.execHurdleCollectorClose {j level} (h : Keeps s t) : KeepsRes s (execHurdleCollectorClose j level t) :=
  .ite (.ok (.voteShut h .hurdleVote)) (.ok h)

theorem KeepsRes.execHurdleOutcomeReceive {m} (h : Keeps s t) : KeepsRes s (execHurdleOutcomeReceive m t) :=
  .hurdleMsg h (fun _ => .ite h (.holdOutcome (.voteDown (.setVote h))))

theorem KeepsRes.execHurdleLate {j} (h : Keeps s t) : KeepsRes s (execHurdleLate j t) := .ite (.ok (.failJob (.inc (.wr h)))) (.ok h)

theorem Keeps.scaleSkip {j} (h : Keeps s t) : Keeps s (t.scaleSkip j) :=
  .ite (.emit (.setSlot (.inc (.wrInt (.wr (.inc h)))))) (.emit (.setSlot (.inc (.wr (.inc h)))))

theorem KeepsFst.scaleCommit {j word} (h : Keeps s t) : KeepsFst s (t.scaleCommit j word) :=
  .ite (.mk (.inc (.wr (.wr (.setSlot (.wrB (.wrB (.wr (.wr (.wr (.wrInt h))))))))))) (.ite (.mk (.inc (.wr (.wr (.setSlot (.wrB (.wrB (.wr
    (.wr (.wr (.wrInt h))))))))))) (.ite (.mk (.inc (.wr (.wrInt (.setSlot (.wrB (.wrB (.wr (.wr (.wr (.wrInt h))))))))))) (.mk (.setSlot
    (.wrB (.wrB (.wr (.wr (.wr (.wrInt h))))))))))

theorem Keeps.clearFlags {j cls} (h : Keeps s t) : Keeps s (t.clearFlags j cls) :=
  .foldl (fun _ _ h' => .setCluster h') (.wr (.wr (.setSlot h)))

theorem Keeps.showStep {j cls} (h : Keeps s t) : Keeps s (t.showStep j cls) := .foldl (fun _ _ h' => .showNf h') (.showClip (.showFlags h))

theorem Keeps.stashResolve {j} (h : Keeps s t) : Keeps s (t.stashResolve j) :=
  .foldl (fun _ _ h' => .ite h' (.ite (.stashRelease h') (.stashRelease h'))) h

theorem Keeps.setSchedule {j start} (h : Keeps s t) : Keeps s (t.setSchedule j start) := .wr h

theorem Keeps.rotResolve {j commit} (h : Keeps s t) : Keeps s (t.rotResolve j commit) :=
  .foldl (fun _ _ h' => by
  split
  · exact .ite h' (.rotDecline h')
  · exact h') h

theorem Keeps.skipRecord {j word kind} (h : Keeps s t) : Keeps s (t.skipRecord j word kind) := .emit h

theorem Keeps.nextStep {j commit} (h : Keeps s t) : Keeps s (t.nextStep j commit) := by
  unfold State.nextStep
  exact .dropVotes (.dropVotes (.setSlot (.setRelay (.dropAsks (.wr h)))))

theorem Keeps.stoppedAtC {j} (h : Keeps s t) : Keeps s (t.stoppedAtC j) := by
  unfold State.stoppedAtC
  dsimp only
  split
  · exact .forgetVotes (.setSlot h)
  · exact .dropVotes (.dropVotes (.setSchedule (.setSlot (.wr h))))

theorem KeepsRes.execHurdleOutcomeApply {j} (h : Keeps s t) : KeepsRes s (execHurdleOutcomeApply j t) := by
  unfold Machine.execHurdleOutcomeApply
  extract_lets sl cls flip s0
  refine .ite (.ok (.stoppedAtC h)) ?_
  split
  · extract_lets word status kind commit s1 s2 s3 s4 s5 s6 s7 src1 s8 u src2 s9
    refine .ite (.ok h) ?_
    have h1 : Keeps s s1 := .wr (.wr (.wr (.wr (.wr (.dropArms h)))))
    have h2 : Keeps s s2 := .ite (.inc h1) (.skipRecord (.inc h1))
    have h3 : Keeps s s3 := by
      refine .ite ?_ (.darkSkip (.scaleSkip h2))
      split
      rename_i raised ev he
      have h := Keeps.of_fst (.scaleCommit h2) he
      cases ev with
      | none => exact .darkCommit h
      | some e => exact .emit (.darkCommit h)
    have h7 : Keeps s s7 := .showStep (.nextStep (.swapEngines (.rotResolve (.stashResolve (.clearFlags (.wrInt h3))))))
    have h8 : Keeps s s8 := .ite (.setSchedule (.setSlot h7)) (.setSchedule h7)
    have hu : Keeps s u := .armJob h8
    exact .ok (.latch (.tick (.ite (.stopJob (.emit (.inc h8))) (.ite (.ite (.setSlot hu) hu) h8))))
  · exact .ok h

theorem Keeps.showVflags {cl} (h : Keeps s t) : Keeps s (t.showVflags cl) := .wrB (.wrB (.wrB (.wrB h)))

theorem KeepsIssue.vret {t' cl cast loadStore} (h : Keeps s t) (h' : Keeps s t') : KeepsIssue s (t.vret t' cl cast loadStore) :=
  .ite (.ret (.vleave (.showVflags h'))) (.ite (.waitQueue h) (.ret (.putCl (.showVflags h'))))

theorem KeepsIssue.retV {cl c} (h : Keeps s t) : KeepsIssue s (t.retV cl c) := .vret h (.setCluster h)

theorem KeepsIssue.excVtype : KeepsIssue s excVtype := .exc

theorem KeepsRes.execSetvl {cl f} (h : Keeps s t) : KeepsRes s (execSetvl cl f t) :=
  .issue h (fun _ => .ite .excIllegal (.ite .excVtype (.ret (.setCluster h))))

theorem KeepsOpt.addrExc {es addrs} : KeepsOpt s (addrExc es addrs) := by
  unfold Machine.addrExc
  split
  · exact .some .exc
  · split
    · exact .some .exc
    · exact .none

theorem KeepsIssue.vload {cl c vd addrs} (h : Keeps s t) : KeepsIssue s (vload t cl c vd addrs) := by
  unfold Machine.vload
  dsimp only
  split
  · exact KeepsOpt.addrExc _ ‹_›
  · exact .ite (.wait h) (.vret h (.setCluster h))

theorem KeepsRes.execVld {cl f} (h : Keeps s t) : KeepsRes s (execVld cl f t) := .issue h (fun _ => .ite .excIllegal (.vload h))

theorem KeepsRes.execVlds {cl f} (h : Keeps s t) : KeepsRes s (execVlds cl f t) := .issue h (fun _ => .ite .excIllegal (.vload h))

theorem KeepsRes.execVldb {cl f} (h : Keeps s t) : KeepsRes s (execVldb cl f t) := .issue h (fun _ => .ite .excIllegal (.vload h))

theorem KeepsIssue.vstore {cl c vs guard addrs} (h : Keeps s t) : KeepsIssue s (vstore t cl c vs guard addrs) := by
  unfold Machine.vstore
  dsimp only
  split
  · exact KeepsOpt.addrExc _ ‹_›
  · split
    · exact .exc
    · exact .ite (.wait h) (.vret h (.setCluster h))

theorem KeepsRes.execVst {cl f} (h : Keeps s t) : KeepsRes s (execVst cl f t) := .issue h (fun _ => .ite .excIllegal (.vstore h))

theorem KeepsRes.execVsts {cl f} (h : Keeps s t) : KeepsRes s (execVsts cl f t) := .issue h (fun _ => .ite .excIllegal (.vstore h))

theorem KeepsRes.execVfv {cl f} (h : Keeps s t) : KeepsRes s (execVfv cl f t) :=
  .issue h (fun _ => .ite .excIllegal (.ite .excVtype (.retV h)))

theorem KeepsRes.execVfs {cl f} (h : Keeps s t) : KeepsRes s (execVfs cl f t) :=
  .issue h (fun _ => .ite .excIllegal (.ite .excVtype (.retV h)))

theorem KeepsRes.execVfu {cl f} (h : Keeps s t) : KeepsRes s (execVfu cl f t) :=
  .issue h (fun _ => .ite .excIllegal (.ite .excVtype (.retV h)))

theorem KeepsRes.execVsfu {cl f} (h : Keeps s t) : KeepsRes s (execVsfu cl f t) :=
  .issue h (fun _ => .ite .excIllegal (.ite .excVtype (.retV h)))

theorem KeepsIssue.intOp {cl c f bs} (h : Keeps s t) : KeepsIssue s (intOp t cl c f bs) := .ite .excIllegal (.ite .excVtype (.retV h))

theorem KeepsRes.execViv {cl f} (h : Keeps s t) : KeepsRes s (execViv cl f t) := .issue h (fun _ => .intOp h)

theorem KeepsRes.execVis {cl f} (h : Keeps s t) : KeepsRes s (execVis cl f t) := .issue h (fun _ => .intOp h)

theorem KeepsIssue.cmpOp {cl c f bs} (h : Keeps s t) : KeepsIssue s (cmpOp t cl c f bs) := .ite .excIllegal (.retV h)

theorem KeepsRes.execVcmpv {cl f} (h : Keeps s t) : KeepsRes s (execVcmpv cl f t) := .issue h (fun _ => .cmpOp h)

theorem KeepsRes.execVcmps {cl f} (h : Keeps s t) : KeepsRes s (execVcmps cl f t) := .issue h (fun _ => .cmpOp h)

theorem KeepsRes.execVsel {cl f} (h : Keeps s t) : KeepsRes s (execVsel cl f t) := .issue h (fun _ => .ite .excIllegal (.retV h))

theorem KeepsRes.execVred {cl f} (h : Keeps s t) : KeepsRes s (execVred cl f t) :=
  .issue h (fun _ => .ite .excIllegal (.ite .excVtype (.ite (.retV h) (.ite (.retV h) (.retV h)))))

theorem KeepsRes.execVderiv {cl f} (h : Keeps s t) : KeepsRes s (execVderiv cl f t) :=
  .issue h (fun _ => .ite .excIllegal (.ite .excVtype (.retV h)))

theorem KeepsRes.execVcvt {cl f} (h : Keeps s t) : KeepsRes s (execVcvt cl f t) := by
  refine .issue h fun c => ?_
  extract_lets a b x j ea sa q s1
  refine .ite .excIllegal ?_
  split
  · exact .ite .excVtype (.ite (.retV h) .exc)
  · refine .ite .excIllegal (.ite .excVtype (.ite (.retV h) (.ite .exc (.ite .exc (.ite .exc (.ite .exc (.ite .exc (.ite (.wait h)
      ?_))))))))
    have hret : KeepsIssue s (t.vret s1 cl true false) := .vret h (.setCluster h)
    split
    · rename_i s2 he
      rw [he] at hret
      exact .ret (.castRun hret)
    · exact hret

theorem KeepsRes.execVsr {cl f} (h : Keeps s t) : KeepsRes s (execVsr cl f t) :=
  .issue h (fun _ => .ite .excIllegal (.ite .excVtype (.ite (.retV h) (.ite .exc (.retV h)))))

theorem KeepsRes.execVxcvt {cl f} (h : Keeps s t) : KeepsRes s (execVxcvt cl f t) :=
  .issue h (fun _ => .ite .excIllegal (.ite .excVtype (.ite (.retV h) (.retV h))))

theorem KeepsRes.execVmv {cl f} (h : Keeps s t) : KeepsRes s (execVmv cl f t) :=
  .issue h (fun _ => by
  split
  · exact .ite .excIllegal (.ite .exc (.retV h))
  · exact .ite .excIllegal (.retV h)
  · exact .ite .excIllegal (.retV h)
  · exact .ite .excIllegal (.retV h)
  · exact .ite .excIllegal (.retV h)
  · exact .excIllegal)

theorem KeepsOpt.slotAccess {cl c f} (h : Keeps s t) : KeepsOpt s (slotAccess t cl c f) :=
  .ite (.some .excIllegal) (.ite (.some .excVtype) (.ite (.some .exc) (.ite (.some .exc) (.ite (.some (.wait h)) .none))))

theorem KeepsRes.execVputs {cl f} (h : Keeps s t) : KeepsRes s (execVputs cl f t) := by
  refine .issue h fun c => ?_
  split
  · exact KeepsOpt.slotAccess h _ ‹_›
  · exact .vret h (.ite (.setSlotCode (.setCluster h)) (.setCluster h))

theorem KeepsRes.execVgets {cl f} (h : Keeps s t) : KeepsRes s (execVgets cl f t) := by
  refine .issue h fun c => ?_
  split
  · exact KeepsOpt.slotAccess h _ ‹_›
  · exact .retV h

theorem Keeps.showArea {a} (h : Keeps s t) : Keeps s (t.showArea a) := .ite h (.wrB h)

theorem Keeps.disarm {a} (h : Keeps s t) : Keeps s (t.disarm a) := .showArea (.wr (.wr (.wr (.dropArms h))))

theorem Keeps.unstage {a} (h : Keeps s t) : Keeps s (t.unstage a) := .same h

theorem Keeps.checkFail {a code atSwap remote first tx} (h : Keeps s t) : Keeps s (t.checkFail a code atSwap remote first tx) :=
  .emit (.inc (.wr h))

theorem Keeps.checkFatal {a code atSwap tx} (h : Keeps s t) : Keeps s (t.checkFatal a code atSwap tx) := .failJob (.inc (.wr (.disarm h)))

theorem Keeps.setRole {j modidx members} (h : Keeps s t) : Keeps s (t.setRole j modidx members) :=
  .wrB (.wrB (.wrB (.wrB (.wr (.wr (.wr h))))))

theorem Keeps.setRelayId {j job} (h : Keeps s t) : Keeps s (t.setRelayId j job) := .setReg h

theorem Keeps.holdPart {p j} (h : Keeps s t) : Keeps s (t.holdPart p j) := .ite (.wr (.wrB h)) (.wr (.wr (.wrB h)))

theorem Keeps.substitute {j p} (h : Keeps s t) : Keeps s (t.substitute j p) :=
  .foldl (fun _ _ h' => by
  split
  · exact h'
  · exact .emit (.showPart (.wr (.wr (.setCluster h'))))) h

theorem Keeps.showBanks {j} (h : Keeps s t) : Keeps s (t.showBanks j) := .foldl (fun _ _ h' => .showNf h') (.showClip (.showFlags h))

theorem Keeps.idleCl {cl} (h : Keeps s t) : Keeps s (t.idleCl cl) := .putCl (.wr (.wr (.setRun h)))

theorem Keeps.setParts {j new} (h : Keeps s t) : Keeps s (t.setParts j new) :=
  .foldl (fun _ _ h' => .foldl (fun _ _ h2 => .idleCl h2) (.substitute (.holdPart h'))) (.wr (.foldl (fun _ _ h' => .holdPart (.foldl (fun
    _ _ h2 => .idleCl h2) h')) h))

theorem Keeps.clearCounters {j} (h : Keeps s t) : Keeps s (t.clearCounters j) := .foldl (fun _ _ h' => .setReg h') h

theorem Keeps.defaultRegions {j kept} (h : Keeps s t) : Keeps s (t.defaultRegions j kept) :=
  .foldl (fun _ _ h' => .ite h' (.ite h' (.wr h'))) h

theorem Keeps.dropStash {j} (h : Keeps s t) : Keeps s (t.dropStash j) :=
  .same (.foldl (fun _ _ h' => .ite (.write (.wr (.wr h'))) (.wr (.wr h'))) h)

theorem Keeps.clearRegions {j} (h : Keeps s t) : Keeps s (t.clearRegions j) := .foldl (fun _ _ h' => .ite (.wr h') h') h

theorem Keeps.emptySlot {j} (h : Keeps s t) : Keeps s (t.emptySlot j) :=
  .showArea (.unstage (.defaultRegions (.foldl (fun _ _ h' => .ite h' (.setReg h')) (.wr (.showBanks (.setSlot (.setRelayId (.wr (.wr (.wr
    (.same (.dropAsks (.forgetVotes (.closePrism (.setSlotState (.setParts (.dropRots (.dropLoad (.dropStash h)))))))))))))))))))

theorem Keeps.loadingSlot {j job parts modidx members} (h : Keeps s t) : Keeps s (t.loadingSlot j job parts modidx members) :=
  .setSlotState (.showBanks (.setRelayId (.setRole (.setParts (.clearCounters (.wr (.wr (.setSlot h))))))))

theorem Keeps.initEpochs {j} (h : Keeps s t) : Keeps s (t.initEpochs j) :=
  .foldl (fun _ _ h' => .wr (.wr (.setVer (.setVer (.setShard h'))))) h

theorem Keeps.startClusters {j} (h : Keeps s t) : Keeps s (t.startClusters j) :=
  .foldl (fun _ _ h' => .showCl (.setRun (.showWait (.wr (.wr (.showVflags (.wr (.wr (.setCluster h'))))))))) h

theorem Keeps.restoreKept {j} (h : Keeps s t) : Keeps s (t.restoreKept j) := by
  unfold State.restoreKept
  split
  · exact .setSlot (.wr (.wr (.wr (.wr h))))
  · exact h

theorem Keeps.runSlot {j} (h : Keeps s t) : Keeps s (t.runSlot j) :=
  .startClusters (.initEpochs (.setSlotState (.showBanks (.restoreKept (.same (.dropAsks (.forgetVotes (.setSlot (.foldl (fun _ _ h' => .wr
    h') (.setSchedule (.wr (.wr (.wr (.wr (.wr (.wr (.setReg h)))))))))))))))))

theorem Keeps.swapSlot {j} (h : Keeps s t) : Keeps s (t.swapSlot j) :=
  .clearRegions (.ite (.defaultRegions (.ite (.emptySlot (.ite (.wr (.unstage (.foldl (fun _ _ h' => .setReg h') h))) (.unstage (.foldl
    (fun _ _ h' => .setReg h') h)))) (.ite (.loadingSlot (.ite (.wr (.unstage (.foldl (fun _ _ h' => .setReg h') h))) (.unstage (.foldl
    (fun _ _ h' => .setReg h') h)))) (.ite (.setRelayId (.wr (.ite (.setParts (.ite (.wr (.unstage (.foldl (fun _ _ h' => .setReg h') h)))
    (.unstage (.foldl (fun _ _ h' => .setReg h') h)))) (.ite (.wr (.unstage (.foldl (fun _ _ h' => .setReg h') h))) (.unstage (.foldl (fun
    _ _ h' => .setReg h') h)))))) (.ite (.runSlot (.wr (.ite (.wr (.unstage (.foldl (fun _ _ h' => .setReg h') h))) (.unstage (.foldl (fun
    _ _ h' => .setReg h') h))))) (.ite (.setSlotState (.ite (.wr (.unstage (.foldl (fun _ _ h' => .setReg h') h))) (.unstage (.foldl (fun
    _ _ h' => .setReg h') h)))) (.ite (.wr (.unstage (.foldl (fun _ _ h' => .setReg h') h))) (.unstage (.foldl (fun _ _ h' => .setReg h')
    h))))))))) (.ite (.emptySlot (.ite (.wr (.unstage (.foldl (fun _ _ h' => .setReg h') h))) (.unstage (.foldl (fun _ _ h' => .setReg h')
    h)))) (.ite (.loadingSlot (.ite (.wr (.unstage (.foldl (fun _ _ h' => .setReg h') h))) (.unstage (.foldl (fun _ _ h' => .setReg h')
    h)))) (.ite (.setRelayId (.wr (.ite (.setParts (.ite (.wr (.unstage (.foldl (fun _ _ h' => .setReg h') h))) (.unstage (.foldl (fun _ _
    h' => .setReg h') h)))) (.ite (.wr (.unstage (.foldl (fun _ _ h' => .setReg h') h))) (.unstage (.foldl (fun _ _ h' => .setReg h')
    h)))))) (.ite (.runSlot (.wr (.ite (.wr (.unstage (.foldl (fun _ _ h' => .setReg h') h))) (.unstage (.foldl (fun _ _ h' => .setReg h')
    h))))) (.ite (.setSlotState (.ite (.wr (.unstage (.foldl (fun _ _ h' => .setReg h') h))) (.unstage (.foldl (fun _ _ h' => .setReg h')
    h)))) (.ite (.wr (.unstage (.foldl (fun _ _ h' => .setReg h') h))) (.unstage (.foldl (fun _ _ h' => .setReg h') h)))))))))

theorem Keeps.swapModule (h : Keeps s t) : Keeps s t.swapModule :=
  .ite (.commandSd (.ite (.wr (.ite (.roleChange (.showFabric (.unstage (.foldl (fun _ _ h' => .setReg h') h)))) (.showFabric (.unstage
    (.foldl (fun _ _ h' => .setReg h') h))))) (.ite (.roleChange (.showFabric (.unstage (.foldl (fun _ _ h' => .setReg h') h))))
    (.showFabric (.unstage (.foldl (fun _ _ h' => .setReg h') h)))))) (.ite (.wr (.ite (.roleChange (.showFabric (.unstage (.foldl (fun _
    _ h' => .setReg h') h)))) (.showFabric (.unstage (.foldl (fun _ _ h' => .setReg h') h))))) (.ite (.roleChange (.showFabric (.unstage
    (.foldl (fun _ _ h' => .setReg h') h)))) (.showFabric (.unstage (.foldl (fun _ _ h' => .setReg h') h)))))

theorem Keeps.swapArea {a job now_ tx} (h : Keeps s t) : Keeps s (t.swapArea a job now_ tx) := by
  unfold State.swapArea
  exact .emit (.inc (.disarm (.ite (.swapModule h) (.swapSlot h))))

theorem Keeps.showDecision {j m} (h : Keeps s t) : Keeps s (t.showDecision j m) :=
  .ite (.wr (.wr (.wr (.wr (.wr (.wrB h)))))) (.inc (.wr (.wr (.wr (.wr (.wr (.wrB h)))))))

theorem Keeps.holdDecision {j m} (h : Keeps s t) : Keeps s (t.holdDecision j m) :=
  .ite (.showDecision h) (.ite (.wr (.wr (.showDecision h))) (.checkFail (.disarm (.showDecision h))))

theorem VoteSpec.Kept.preVote {j tx} : (t.preVote j tx).Kept := fun _ _ _ h => .holdDecision (.voteDown h)

theorem Keeps.sendSvote {a tx code} (h : Keeps s t) : Keeps s (t.sendSvote a tx code) := .voteSend h .preVote

theorem KeepsRes.preMsgFor {m k} (h : Keeps s t) (hk : ∀ a0, Keeps s (k a0)) : KeepsRes s (t.preMsgFor m k) := by
  unfold State.preMsgFor
  split
  · exact .ite (.ok (hk _)) (.ok h)
  · exact .ok h

theorem KeepsRes.execSvoteReceive {m} (h : Keeps s t) : KeepsRes s (execSvoteReceive m t) := .preMsgFor h (fun _ => .voteTake h)

theorem KeepsRes.execSpartReceive {m} (h : Keeps s t) : KeepsRes s (execSpartReceive m t) := .preMsgFor h (fun _ => .voteTake h)

theorem KeepsRes.execSdecReceive {m} (h : Keeps s t) : KeepsRes s (execSdecReceive m t) :=
  .preMsgFor h (fun _ => .ite h (.holdDecision (.voteDown h)))

theorem KeepsRes.execPrevoteCollectorClose {job tx level} (h : Keeps s t) : KeepsRes s (execPrevoteCollectorClose job tx level t) := by
  unfold Machine.execPrevoteCollectorClose
  split
  · exact .ite (.ok (.voteShut h .preVote)) (.ok h)
  · exact .ok h

theorem KeepsRes.execPrevoteLate {a} (h : Keeps s t) : KeepsRes s (execPrevoteLate a t) := by
  unfold Machine.execPrevoteLate
  split
  · exact .ite (.ok (.checkFatal h)) (.ok h)
  · exact .ok h

theorem KeepsRes.execShdCheck {a} (h : Keeps s t) : KeepsRes s (execShdCheck a t) := .ite (.ok h) (.ite (.ok (.wr h)) (.ok (.checkFail h)))

theorem Keeps.armArea {a tx} (h : Keeps s t) : Keeps s (t.armArea a tx) :=
  .ite (.wr (.wr (.wrB (.wr (.addArm h))))) (.ite (.wr (.wr (.wr (.wr (.wrB (.wr (.addArm h))))))) (.sendSvote (.wr (.wr (.wr (.wrB (.wr
    (.addArm h))))))))

theorem Keeps.armRefused {a tx reason} (h : Keeps s t) : Keeps s (t.armRefused a tx reason) :=
  .ite (.failJob (.latchReject h)) (.emit (.latchReject h))

theorem KeepsRes.execShdArm {a} (h : Keeps s t) : KeepsRes s (execShdArm a t) :=
  .ite (.ok h) (.ite (.ite (.ok (.sendSvote (.checkFail h))) (.ok (.checkFail h))) (by
  split
  · exact .ok (.armRefused h)
  · exact .ok (.armArea h)))

theorem KeepsRes.execShdWithdraw {a} (h : Keeps s t) : KeepsRes s (execShdWithdraw a t) := by
  unfold Machine.execShdWithdraw
  split
  · exact .ite (.ok (.disarm h)) (.ok h)
  · exact .ok h

theorem KeepsRes.execShdDiscard {a} (h : Keeps s t) : KeepsRes s (execShdDiscard a t) := .ite (.ok h) (.ok (.showArea (.unstage h)))

theorem KeepsRes.execShdApplyNow {a} (h : Keeps s t) : KeepsRes s (execShdApplyNow a t) :=
  .ite (.ok h) (.ite (.ok (.swapArea (.wr h))) (.ok (.checkFail h)))

theorem Keeps.releaseMark (h : Keeps s t) : Keeps s t.releaseMark := .ite (.same (.sendMarks h)) h

theorem KeepsRes.execShadowSwap (h : Keeps s t) : KeepsRes s (execShadowSwap t) :=
  .ite (.ok h) (.ok (.latch (.foldl (fun _ _ h' => .ite (.swapArea h') (.ite (.checkFatal h') (.ite (.releaseMark (.checkFail (.disarm
    h'))) (.checkFail (.disarm h'))))) h)))

theorem KeepsRes.execSlotDrainComplete {j} (h : Keeps s t) : KeepsRes s (execSlotDrainComplete j t) := .ite (.ok (.emptySlot h)) (.ok h)

theorem Keeps.carry {offs t'} (h : Keeps s t') : Keeps s (t.carry offs t') := .foldl (fun _ _ h => .setReg h) h

theorem Keeps.regulatorsOff (h : Keeps s t) : Keeps s t.regulatorsOff :=
  .carry (h.trans ⟨Eq.refl _, List.prefix_refl _, fun _ => Memory.wf_nil, id⟩)

theorem Keeps.powerOff {cause sensor reading} (h : Keeps s t) : Keeps s (t.powerOff cause sensor reading) :=
  .regulatorsOff (.same (.send (.pin (.pin (.setReg h)))))

theorem Keeps.showG (h : Keeps s t) : Keeps s t.showG := .wr h

theorem Keeps.takeReadings {r} (h : Keeps s t) : Keeps s (t.takeReadings r) :=
  .wr (.wr (.wr (.wr (.foldl (fun _ _ h' => .ite (.wr h') h') (.foldl (fun _ _ h' => .ite (.wr h') h') (.foldl (fun _ _ h' => .ite (.wr
    (.wr (.wr h'))) h') (.foldl (fun _ _ h' => .ite (.wr (.wr (.wr h'))) h') (.same h))))))))

theorem Keeps.fastLimit {mv predicted inW} (h : Keeps s t) : Keeps s (t.fastLimit mv predicted inW) :=
  .tick (.ite (.emit (.same (.foldl (fun _ _ h' => .setSlot h') (.ite (.inc (.same (.showG (.same h)))) (.showG (.same h)))))) (.foldl (fun
    _ _ h' => .setSlot h') (.ite (.inc (.same (.showG (.same h)))) (.showG (.same h)))))

theorem KeepsRes.execPowerSample {r} (h : Keeps s t) : KeepsRes s (execPowerSample r t) :=
  .ite (.ok h) (.ite (.ok (.powerOff (.takeReadings h))) (.ok (.fastLimit (.ite (.noteOnce (.takeReadings h)) (.takeReadings h)))))

theorem KeepsRes.execConverterFault {k} (h : Keeps s t) : KeepsRes s (execConverterFault k t) :=
  .ite (.ok h) (.ok (.ite (.powerOff (.emit (.wr (.wr (.wr h))))) (.emit (.wr (.wr (.wr h))))))

theorem KeepsRes.execDroopDetect {cl} (h : Keeps s t) : KeepsRes s (execDroopDetect cl t) := .ite (.ok h) (.ok (.inc (.same h)))

theorem KeepsRes.execDroopRecovered {cl cycles} (h : Keeps s t) : KeepsRes s (execDroopRecovered cl cycles t) :=
  .ite (.ok h) (by
  split
  · exact .ok (.setSlot (.add (.same h)))
  · exact .ok (.add (.same h)))

theorem Keeps.takeTemp {n reading} (h : Keeps s t) : Keeps s (t.takeTemp n reading) := .wr (.same h)

theorem KeepsRes.execThermalFastHold {sensor reading} (h : Keeps s t) : KeepsRes s (execThermalFastHold sensor reading t) :=
  .ite (.ok h) (.ite (.ok (.takeTemp h)) (.ok (.emit (.showG (.same (.takeTemp h))))))

theorem KeepsRes.execThermalHoldRelease (h : Keeps s t) : KeepsRes s (execThermalHoldRelease t) := .ite (.ok h) (.ok (.same h))

theorem KeepsRes.execThermalTrip {sensor reading} (h : Keeps s t) : KeepsRes s (execThermalTrip sensor reading t) :=
  .ite (.ok h) (.ok (.powerOff (.takeTemp h)))

theorem Keeps.propose {j} (h : Keeps s t) : Keeps s (t.propose j) := .wr (.wr (.wr (.wr (.wr h))))

theorem Keeps.paceHold {j mark m} (h : Keeps s t) : Keeps s (t.paceHold j mark m) :=
  .ite h (.armJob (.tick (.wr (.wr (.wr (.wr (.wr (.setSlot h))))))))

theorem VoteSpec.Kept.paceVote {j mark} : (t.paceVote j mark).Kept := fun _ _ _ h => .paceHold (.voteDown h)

theorem Keeps.pace {j} (h : Keeps s t) : Keeps s (t.pace j) :=
  .ite (.paceHold (.dropVotes (.dropVotes (.setSlot (.propose h))))) (.voteSend (.dropVotes (.dropVotes (.setSlot (.propose h))))
    .paceVote)

theorem Keeps.paceTake {j level m} (h : Keeps s t) : Keeps s (t.paceTake j level m) := .ite (.voteTake h) (.ite (.voteHold h) h)

theorem KeepsRes.execPconReceive {m} (h : Keeps s t) : KeepsRes s (execPconReceive m t) := by
  unfold Machine.execPconReceive
  split
  · exact .ite (.ok (.tick (.paceTake h))) (.ok h)
  · exact .ok h

theorem KeepsRes.execPpartReceive {m} (h : Keeps s t) : KeepsRes s (execPpartReceive m t) := by
  unfold Machine.execPpartReceive
  split
  · exact .ite (.ok (.tick (.paceTake h))) (.ok h)
  · exact .ok h

theorem KeepsRes.execPaceCollectorClose {j level} (h : Keeps s t) : KeepsRes s (execPaceCollectorClose j level t) := by
  unfold Machine.execPaceCollectorClose
  split
  · exact .ite (.ok (.tick (.voteShut h .paceVote))) (.ok h)
  · exact .ok h

theorem KeepsRes.execPdecReceive {m} (h : Keeps s t) : KeepsRes s (execPdecReceive m t) := by
  unfold Machine.execPdecReceive
  split
  · exact .ite (.ok h) (.ok (.paceHold (.voteDown (.setVote h))))
  · exact .ok h

theorem KeepsRes.execPaceVoteLate {j} (h : Keeps s t) : KeepsRes s (execPaceVoteLate j t) := by
  unfold Machine.execPaceVoteLate
  split
  · exact .ite (.ok (.armJob (.emit (.inc (.wr (.setSlot h)))))) (.ok h)
  · exact .ok h

theorem KeepsRes.execPaceChange {j} (h : Keeps s t) : KeepsRes s (execPaceChange j t) := by
  unfold Machine.execPaceChange
  split
  · exact .ite (.ok h) (.ite (.ok (.latch (.dropArms h))) (.ok (.latch (.emit (.inc (.foldl (fun _ _ h' => .wr h') (.wr (.wr (.dropArms
      h)))))))))
  · exact .ok h

theorem Keeps.thermalRecords (h : Keeps s t) : Keeps s t.thermalRecords := .foldl (fun _ _ h' => .ite (.emit h') h') h

theorem Keeps.droopRecord {j} (h : Keeps s t) : Keeps s (t.droopRecord j) :=
  .setSlot (by
  split
  · exact .ite (.emit h) h
  · exact h)

theorem Keeps.coreFreq {hd} (h : Keeps s t) : Keeps s (t.coreFreq hd) := .foldl (fun _ _ h' => .wrB (.wr h')) h

theorem Keeps.endInterval (h : Keeps s t) : Keeps s t.endInterval :=
  .same (.wr (.wr (.wr (.wr (.foldl (fun _ _ h' => .ite (.wr h') h') (.foldl (fun _ _ h' => .wr h') (.wr (.wr (.wr h)))))))))

theorem KeepsRes.execPaceMark (h : Keeps s t) : KeepsRes s (execPaceMark t) :=
  .ite (.ok h) (.ite (.ok (.foldl (fun _ _ h' => .ite (.askDelay h') h') (.same h))) (.ite (.ok h) (.ok (.latch (.tick (.foldl (fun _ _ h'
    => .ite (.askDelay h') h') (.endInterval (.coreFreq (.coreFreq (.foldl (fun _ _ h' => .ite (.droopRecord h') (.setSlot h')) (.foldl
    (fun _ _ h' => .pace h') (.thermalRecords h))))))))))))

theorem Keeps.showPorts (h : Keeps s t) : Keeps s t.showPorts := .wr (.wr h)

theorem Keeps.setPortState {p new} (h : Keeps s t) : Keeps s (t.setPortState p new) :=
  .showPorts (.ite (.setPort (.wr (.same (.wr h)))) (.ite (.askDelay (.setPort (.wr h))) (.wr h)))

theorem Keeps.portDown {p cause pending} (h : Keeps s t) : Keeps s (t.portDown p cause pending) := .setPortState (.emit (.inc (.wr h)))

theorem Keeps.followLaser {d} (h : Keeps s t) : Keeps s (t.followLaser d) :=
  .foldl (fun _ _ h' => .ite h' (.ite (.ite h' (.setPortState h')) (.ite (.ite (.setPortState h') h') (.ite (.setPortState h') h')))) h

theorem KeepsRes.execLaserStatusChange {d inserted latched fault okMask temp power} (h : Keeps s t) : KeepsRes s (execLaserStatusChange d
    inserted latched fault okMask temp power t) :=
  .ite (.ok h) (.ok (.ite (.followLaser (.ite (.emit (.wr (.wr (.wr (.wrB (.wrB (.wrB (.wr h)))))))) (.wr (.wr (.wr (.wrB (.wrB (.wrB (.wr
    h))))))))) (.ite (.emit (.wr (.wr (.wr (.wrB (.wrB (.wrB (.wr h)))))))) (.wr (.wr (.wr (.wrB (.wrB (.wrB (.wr h))))))))))

theorem Keeps.startPorts (h : Keeps s t) : Keeps s t.startPorts := .foldl (fun _ _ h' => .followLaser (.wrB h')) h

theorem Keeps.portReachesUp {p} (h : Keeps s t) : Keeps s (t.portReachesUp p) := by
  unfold State.portReachesUp
  dsimp only
  split
  · exact .tick (.emit (.setPort (.emit (.drain (.ite (.control (.setPortState h)) (.setPortState h))))))
  · exact .emit (.drain (.ite (.control (.setPortState h)) (.setPortState h)))

theorem Keeps.forgetLink {p} (h : Keeps s t) : Keeps s (t.forgetLink p) :=
  .same (.foldl (fun _ _ h' => by
  split
  · exact .giveCredit h'
  · exact h') (.setPort h))

theorem Keeps.identify {p} (h : Keeps s t) : Keeps s (t.identify p) := .send (.setPortState h)

theorem KeepsRes.execPortTrainStageDone {p peer} (h : Keeps s t) : KeepsRes s (execPortTrainStageDone p peer t) :=
  .ite (.ok h) (by
  split
  · exact .ite (.ok h) (.ok (.setPortState (.setPort h)))
  · exact .ok (.setPortState h)
  · exact .ok (.setPortState h)
  · exact .ok (.identify h)
  · exact .ite (.ok (.setPortState (.ite (.forgetLink (.wr (.wr h))) (.wr (.wr h))))) (.ok (.setPortState (.emit (.inc (.wr (.wr h))))))
  · exact .ok (.portReachesUp h)
  · exact .ok (.setPortState h)
  · exact .ok h)

theorem KeepsRes.execPortTrainTimeout {p} (h : Keeps s t) : KeepsRes s (execPortTrainTimeout p t) :=
  .ite (.ok h) (.ok (.ite (.portDown (.setPort h)) (.setPortState (.setPort h))))

theorem KeepsRes.execPortRetry {p} (h : Keeps s t) : KeepsRes s (execPortRetry p t) := .ite (.ok (.setPortState (.setPort h))) (.ok h)

theorem Keeps.retrain {p why} (h : Keeps s t) : Keeps s (t.retrain p why) := .setPortState (.setPort (.emit (.inc h)))

theorem KeepsRes.execPortRetrain {p why} (h : Keeps s t) : KeepsRes s (execPortRetrain p why t) := .ite (.ok h) (.ok (.retrain h))

theorem Keeps.portGivesUp {p cause} (h : Keeps s t) : Keeps s (t.portGivesUp p cause) := .portDown (.setPort h)

theorem KeepsRes.execPortDiagnosis {p fault} (h : Keeps s t) : KeepsRes s (execPortDiagnosis p fault t) :=
  .ite (.ok h) (.ite (.ok (.portGivesUp h)) (by
  split
  · exact .ite (.ok h) (.ok (.portGivesUp h))
  · exact .ite (.ok (.setPortState (.portDown (.same h)))) (.ite (.ok (.portDown (.setPort h))) (.ok (.portGivesUp h)))))

theorem Keeps.giveReserve {p r} (h : Keeps s t) : Keeps s (t.giveReserve p r) :=
  .setPortState (.inc (.wr (.wr (.setPort (.setPortState (.same h))))))

theorem KeepsRes.execReserveEngineSwap {d} (h : Keeps s t) : KeepsRes s (execReserveEngineSwap d t) :=
  .ite (.ok h) (.ok (.foldl (fun _ _ h' => by
  split
  · exact .giveReserve h'
  · exact .portGivesUp h') h))

theorem KeepsRes.execReplayStateDiscard {p} (h : Keeps s t) : KeepsRes s (execReplayStateDiscard p t) := .ite (.ok (.forgetLink h)) (.ok h)

theorem Keeps.transit {r x} (h : Keeps s t) : Keeps s (t.transit r x) := by
  unfold State.transit
  dsimp only
  split
  · exact .giveCredit (.routeDrop (.setPort h))
  · exact .enqueue (.ite (.inc (.setPort h)) (.setPort h))

theorem Keeps.sink {r x} (h : Keeps s t) : Keeps s (t.sink r x) :=
  .ite (.inc (.giveCredit h)) (.ite (.tick (.same (.giveCredit h))) (.giveCredit h))

theorem Keeps.sendNak {p} (h : Keeps s t) : Keeps s (t.sendNak p) := .ite (.retrain (.control (.setPort h))) (.control (.setPort h))

theorem Keeps.takeAck {p ack nak} (h : Keeps s t) : Keeps s (t.takeAck p ack nak) :=
  .ite (.ite (.retrain (.foldl (fun _ _ h' => .send h') (.add (.setPort h)))) (.drain (.foldl (fun _ _ h' => .send h') (.add (.setPort
    h))))) (.drain (.setPort h))

theorem Keeps.takeCredits {p x} (h : Keeps s t) : Keeps s (t.takeCredits p x) := .ite h (.drain (.setPort h))

theorem KeepsRes.execFlitReceive {p x} (h : Keeps s t) : KeepsRes s (execFlitReceive p x t) :=
  .ite (.ok h) (.ite (.ok (.sendNak (.inc h))) (.ite (.ok (.takeAck (.takeCredits h))) (.ite (.ok (.sendNak h)) (.ok (.ite (.sink (.takeAck
    (.takeCredits (.control (.setPort h))))) (.tick (.transit (.takeAck (.takeCredits (.control (.setPort h)))))))))))

theorem KeepsRes.execPeerWriteReceive {srcFi hdr data} (h : Keeps s t) : KeepsRes s (execPeerWriteReceive srcFi hdr data t) :=
  .ite (.ok h) (.ite (.access h (fun _ h' => .ok (.sendAck (.setBytes h')))) (.ok (.sendAck (.emit h))))

theorem Keeps.setCk {j v} (h : Keeps s t) : Keeps s (t.setCk j v) := .setSlot h

theorem KeepsFst.placeChunk {j src two seg chunk data} (h : Keeps s t) : KeepsFst s (t.placeChunk j src two seg chunk data) :=
  .ite (.mk h) (.mk (.write (.ite h (.setCk (.wr (.write (.ite (.emit h) h)))))))

theorem Keeps.sendChunk {j dest src two seg chunk data} (h : Keeps s t) : Keeps s (t.sendChunk j dest src two seg chunk data) :=
  .ite (.ite (.fst (.placeChunk (.same h))) (.ite (.setCk (.fst (.placeChunk (.same h)))) (.setCk (.fst (.placeChunk (.same h)))))) (by
  split
  · exact .sendSpread (.same h)
  · exact .same h)

theorem Keeps.sendManifest {j} (h : Keeps s t) : Keeps s (t.sendManifest j) :=
  .foldl (fun _ _ h' => .sendChunk h') (.foldl (fun _ _ h' => .wr h') h)

theorem Keeps.captureProgress {j} (h : Keeps s t) : Keeps s (t.captureProgress j) :=
  .ite (.wr h) (.ite (.wr (.setCk (.ite (.sendManifest (.setCk (.wr h))) (.wr h)))) (.ite (.sendManifest (.setCk (.wr h))) (.wr h)))

theorem Keeps.endForward {j abandoned ms} (h : Keeps s t) : Keeps s (t.endForward j abandoned ms) :=
  .ite h (.emit (.ite (.wr (.setCk h)) (.inc (.wr (.setCk h)))))

theorem Keeps.stashDrop {j} (h : Keeps s t) : Keeps s (t.stashDrop j) := .foldl (fun _ _ h' => .ite h' (.write (.setStash h'))) h

theorem KeepsFst.holdAtK {j} (h : Keeps s t) : KeepsFst s (t.holdAtK j) := by
  refine .mk (.foldl (fun _ _ h => .setCluster h) (.foldl (fun u cl h => ?_) h))
  split
  · exact KeepsRes.execWlapComplete h _ ‹_›
  · exact h

theorem KeepsRes.execCkptHaltStart {j} (h : Keeps s t) : KeepsRes s (execCkptHaltStart j t) := by
  unfold Machine.execCkptHaltStart
  split
  · exact .ok h
  · exact .ite (.ok h) (.ite (.ok (.latch (.dropArms h))) (.pair (.holdAtK (.wr (.stashDrop (.setSlotState (.endForward (.dropArms
      h)))))) (fun _ _ h' => .ok (.latch (.emit (.wr (.wr (.wr (.wr (.inc (.wr (.setCk h'))))))))))))

theorem Keeps.ckAbort {j late absent first} (h : Keeps s t) : Keeps s (t.ckAbort j late absent first) := .failJob (.setCk h)

theorem Keeps.holdCkdec {j m} (h : Keeps s t) : Keeps s (t.holdCkdec j m) :=
  .ite h (.ite (.ckAbort h) (.setSchedule (.wr (.wr (.setCk h)))))

theorem VoteSpec.Kept.ckVote {j k} : (t.ckVote j k).Kept := fun _ _ _ h => .holdCkdec (.voteDown h)

theorem Keeps.capture {j} (h : Keeps s t) : Keeps s (t.capture j) :=
  .captureProgress (.foldl (fun _ _ h' => .ite (.reads h') (.foldl (fun _ _ h2 => .sendChunk h2) (.reads h'))) (.wr (.setCk h)))

theorem KeepsRes.execCkptCaptureStart {j} (h : Keeps s t) : KeepsRes s (execCkptCaptureStart j t) :=
  .ite (.ok h) (.ok (.tick (.ite (.ite (.holdCkdec (.setCk h)) (.voteSend (.setCk h) .ckVote)) (.capture (.ite (.holdCkdec (.setCk h))
    (.voteSend (.setCk h) .ckVote))))))

theorem Keeps.ckTake {j level m} (h : Keeps s t) : Keeps s (t.ckTake j level m) := .ite (.voteTake h) (.ite (.voteHold h) h)

theorem KeepsRes.execCkconReceive {m} (h : Keeps s t) : KeepsRes s (execCkconReceive m t) := by
  unfold Machine.execCkconReceive
  split
  · exact .ok (.ckTake h)
  · exact .ok h

theorem KeepsRes.execCkpartReceive {m} (h : Keeps s t) : KeepsRes s (execCkpartReceive m t) := by
  unfold Machine.execCkpartReceive
  split
  · exact .ok (.ckTake h)
  · exact .ok h

theorem KeepsRes.execCkptCollectorClose {j level} (h : Keeps s t) : KeepsRes s (execCkptCollectorClose j level t) :=
  .ite (.ok (.voteShut h .ckVote)) (.ok h)

theorem KeepsRes.execCkdecReceive {m} (h : Keeps s t) : KeepsRes s (execCkdecReceive m t) := by
  unfold Machine.execCkdecReceive
  split
  · exact .ite (.ok h) (.ok (.holdCkdec (.voteDown (.setVote h))))
  · exact .ok h

theorem KeepsRes.execCkptVoteTimeout {j} (h : Keeps s t) : KeepsRes s (execCkptVoteTimeout j t) := .ite (.ok (.ckAbort h)) (.ok h)

theorem KeepsRes.execCkptAckReceive {j seg chunk good} (h : Keeps s t) : KeepsRes s (execCkptAckReceive j seg chunk good t) :=
  .ite (.ok h) (.ite (.ok (.setCk h)) (.ite (.ok (.captureProgress (.setCk h))) (.ok (.captureProgress (.setCk h)))))

theorem Keeps.forward {j} (h : Keeps s t) : Keeps s (t.forward j) :=
  .ite h (.foldl (fun _ _ h' => .sendChunk h') (.foldl (fun _ _ h' => .ite (.reads h') (.foldl (fun _ _ h2 => .sendChunk h2) (.reads h')))
    (.wr (.setCk (.reads h)))))

theorem KeepsRes.execCkptResume {j} (h : Keeps s t) : KeepsRes s (execCkptResume j t) := by
  unfold Machine.execCkptResume
  dsimp only
  split
  · exact .ok h
  · exact .ite (.ok h) (.ok (.latch (.tick (.forward (.dropVotes (.dropVotes (.emit (.setSlotState (.foldl (fun _ _ h' => .setCluster
      h') (.ite h (.emit (.wr (.inc (.setCk h))))))))))))))

theorem KeepsRes.execCkptForwardEnd {j src abandoned ms} (h : Keeps s t) : KeepsRes s (execCkptForwardEnd j src abandoned ms t) :=
  .ite (.ok (.endForward h)) (.ok h)

theorem KeepsRes.execCkptMessageReceive {srcFi hdr data} (h : Keeps s t) : KeepsRes s (execCkptMessageReceive srcFi hdr data t) :=
  .ite (.ok h) (by
  split
  · exact .ok (.sendAck h)
  · exact .ok (.tick (.sendAck (.fst (.placeChunk h)))))

theorem Keeps.startVerify {j op} (h : Keeps s t) : Keeps s (t.startVerify j op) := .ite h (.wr (.setCk h))

theorem KeepsRes.execVerifyAll {j} (h : Keeps s t) : KeepsRes s (execVerifyAll j t) := .ok (.ite (.startVerify h) h)

theorem KeepsRes.execVerifyMarked {j} (h : Keeps s t) : KeepsRes s (execVerifyMarked j t) := .ok (.ite (.startVerify h) h)

theorem Keeps.mismatches {j a l} (h : Keeps s t) : Keeps s (t.mismatches j a l) := .add (.foldl (fun _ _ h' => .emit h') h)

theorem KeepsRes.execVerifyDone {j ms} (h : Keeps s t) : KeepsRes s (execVerifyDone j ms t) :=
  .ite (.ok h) (.ite (.ok (.tick (.emit (.ite (.setCk (.wr (.wr (.wr (.wr (.wr (.mismatches (.reads h)))))))) (.setCk (.wr (.wr (.wr (.wr
    (.mismatches (.reads h))))))))))) (.ok (.tick (.emit (.ite (.setCk (.wr (.wr (.wr (.wr (.wr (.write (.mismatches (.foldl (fun _ _ h'
    => .reads h') (.reads h)))))))))) (.setCk (.wr (.wr (.wr (.wr (.write (.mismatches (.foldl (fun _ _ h' => .reads h') (.reads
    h))))))))))))))

theorem Keeps.openTest {kind die unit} (h : Keeps s t) : Keeps s (t.openTest kind die unit) := by
  unfold State.openTest
  split
  · exact .ite (.showPart (.wr (.same h))) (.wr (.same h))
  · exact .ite (.showPart (.wr (.same h))) (.wr (.same h))
  · exact .setPortState (.same h)
  · exact .same h
  · exact .same h

theorem Keeps.missTest {opening who} (h : Keeps s t) : Keeps s (t.missTest opening who) := by
  unfold State.missTest
  exact .emit (by
    split
    · exact .ite (.ite h (.same h)) (.ite (.setCluster (.ite (.wr (.ite h (.same h))) (.ite h (.same h)))) (.ite (.setPortState (.ite h
        (.same h))) (.ite h (.same h))))
    · exact .ite h (.same h))

theorem KeepsFst.armTest {kind who tx} (h : Keeps s t) : KeepsFst s (t.armTest kind who tx) := by
  unfold State.armTest
  split
  · exact .mk (.addArm h)
  · exact .mk (.emit (.latchReject h))

theorem KeepsRes.execSelftestWindowOpen {kind die unit} (h : Keeps s t) : KeepsRes s (execSelftestWindowOpen kind die unit t) :=
  .ite (.ok h) (by
  split
  · exact .ite (.ok h) (.ite (.ok (.latch (.missTest (.dropArms h)))) (.ok (.latch (.ite (.openTest (.fst (.armTest (.dropArms h))))
      (.fst (.armTest (.dropArms h)))))))
  · exact .ite (.ok h) (.ok (.fst (.armTest h))))

theorem Keeps.testReturn {cl} (h : Keeps s t) : Keeps s (t.testReturn cl) := by
  unfold State.testReturn
  split
  · exact .ite (.abandonCl (.setRun h)) h
  · exact .idleCl h

theorem Keeps.testResult {x r} (h : Keeps s t) : Keeps s (t.testResult x r) :=
  .emit (by
  split
  · exact .ite (.showPart (.ite (.testReturn (.inc (.same (.setCluster (.ite (.wr (.inc h)) (.inc h)))))) (.same (.setCluster (.ite (.wr
      (.inc h)) (.inc h)))))) (.partCheck (.wr (.wr (.ite (.setCluster (.emit (.inc (.wr (.wr (.ite (.testReturn (.inc (.same (.setCluster
      (.ite (.wr (.inc h)) (.inc h)))))) (.same (.setCluster (.ite (.wr (.inc h)) (.inc h)))))))))) (.emit (.inc (.wr (.wr (.ite
      (.testReturn (.inc (.same (.setCluster (.ite (.wr (.inc h)) (.inc h)))))) (.same (.setCluster (.ite (.wr (.inc h)) (.inc
      h)))))))))))))
  · exact .ite (.showPart (.ite (.testReturn (.inc (.same (.setCluster (.ite (.wr (.inc h)) (.inc h)))))) (.same (.setCluster (.ite (.wr
      (.inc h)) (.inc h)))))) (.partCheck (.wr (.wr (.ite (.setCluster (.emit (.inc (.wr (.wr (.ite (.testReturn (.inc (.same (.setCluster
      (.ite (.wr (.inc h)) (.inc h)))))) (.same (.setCluster (.ite (.wr (.inc h)) (.inc h)))))))))) (.emit (.inc (.wr (.wr (.ite
      (.testReturn (.inc (.same (.setCluster (.ite (.wr (.inc h)) (.inc h)))))) (.same (.setCluster (.ite (.wr (.inc h)) (.inc
      h)))))))))))))
  · exact .setPortState (.inc h)
  · exact .ite (.inc h) (.relayEngineFail (.inc h))
  · exact .inc h)

theorem KeepsRes.execSelftestWindowClose {kind die unit r} (h : Keeps s t) : KeepsRes s (execSelftestWindowClose kind die unit r t) := by
  unfold Machine.execSelftestWindowClose
  dsimp only
  split
  · exact .ok h
  · exact .ite (.ok h) (by
    split
    · exact .ok (.dropArms h)
    · exact .ok (.latch (.testResult (.same (.dropArms h)))))

theorem KeepsRes.execSelftestDeferred {cl} (h : Keeps s t) : KeepsRes s (execSelftestDeferred cl t) :=
  .ite (.ok (.emit (.inc (.same h)))) (.ok h)

theorem VoteSpec.Kept.openVote {j v w} (hw : t.openVote j v = some w) : w.Kept := by
  unfold State.openVote at hw
  split at hw
  · split_ifs at hw
    cases hw
    exact .preVote
  · split_ifs at hw
    cases hw
    exact .paceVote
  · split_ifs at hw
    cases hw
    exact .hurdleVote
  · split_ifs at hw
    cases hw
    exact .ckVote
  · cases hw

theorem Keeps.markVotes (h : Keeps s t) : Keeps s t.markVotes := by
  refine .foldl (fun u v h => ?_) h
  split
  · split
    · exact .voteMark h (.openVote ‹_›)
    · exact h
  · exact h

theorem Keeps.missArm {a} (h : Keeps s t) : Keeps s (t.missArm a) :=
  .ite (.same h) (.ite (.ite (.ite (.disarm h) (.same h)) (.ite (.checkFatal (.latchReject h)) (.same (.failJob (.latchReject h))))) (by
  split
  · exact .checkFail (.disarm h)
  · split
    · exact .rotDecline (.same h)
    · exact .same h
  · exact .missTest (.same h)
  · exact .missTest (.same h)
  · exact .same h))

theorem Keeps.missResume {j} (h : Keeps s t) : Keeps s (t.missResume j) := .ite (.failJob (.latchReject h)) h

theorem Keeps.missArms (h : Keeps s t) : Keeps s t.missArms :=
  .foldl (fun _ _ h' => .missResume h') (.foldl (fun _ _ h' => .missArm h') h)

theorem KeepsRes.execLapMark (h : Keeps s t) : KeepsRes s (execLapMark t) :=
  .ok (.latch (.markVotes (.missArms (.markOut (.same (.ite (.wr (.ite (.ite (.wr (.wr (.wr (.wr (.same (.foldl (fun _ _ h' => .ite (.wr
    h') h') (.same (.takeMarks h)))))))) (.lockLap (.wr (.wr (.wr (.same (.foldl (fun _ _ h' => .ite (.wr h') h') (.same (.takeMarks
    h))))))))) (.wr (.foldl (fun _ _ h' => .ite (.wr h') h') (.same (.takeMarks h)))))) (.ite (.ite (.wr (.wr (.wr (.wr (.same (.foldl
    (fun _ _ h' => .ite (.wr h') h') (.same (.takeMarks h)))))))) (.lockLap (.wr (.wr (.wr (.same (.foldl (fun _ _ h' => .ite (.wr h') h')
    (.same (.takeMarks h))))))))) (.wr (.foldl (fun _ _ h' => .ite (.wr h') h') (.same (.takeMarks h)))))))))))

theorem Keeps.setting {r} (h : Keeps s t) : Keeps s (t.setting r) := .ite (.setReg h) (.same (.setReg h))

theorem Keeps.settings {b} (h : Keeps s t) : Keeps s (t.settings b) :=
  .foldl (fun _ _ h' => .defaultRegions h') (.showFabric (.wr (.foldl (fun _ _ h' => .setting h') (.same h))))

theorem Keeps.noteFail {step cause unit} (h : Keeps s t) : Keeps s (t.noteFail step cause unit) := .wr (.wr (.wr h))

theorem Keeps.startStops {step cause unit} (h : Keeps s t) : Keeps s (t.startStops step cause unit) :=
  .regulatorsOff (.pin (.setStart (.emit (.noteFail h))))

theorem Keeps.imageAccept {slot fallback b ms} (h : Keeps s t) : Keeps s (t.imageAccept slot fallback b ms) :=
  .setStart (.emit (.same (.ite (.wr (.wr (.wr (.wr (.wrB (.wr h)))))) (.wr (.wr (.wr (.wrB (.wr h))))))))

theorem Keeps.powerTrip (h : Keeps s t) : Keeps s t.powerTrip := .ite h (.emit (.same h))

theorem Keeps.stepImage {d0 d1 a b msA msB} (h : Keeps s t) : Keeps s (t.stepImage d0 d1 a b msA msB) := by
  unfold State.stepImage
  dsimp only
  split
  · exact .imageAccept (.pin (.powerTrip h))
  · split
    · exact .imageAccept (.emit (.pin (.powerTrip h)))
    · exact .startStops (.emit (.emit (.pin (.powerTrip h))))

theorem Keeps.startPart {b p} (h : Keeps s t) : Keeps s (t.startPart b p) := .wr (.partCheck (.foldl (fun _ _ h' => .wr (.wr h')) h))

theorem Keeps.stepSettings (h : Keeps s t) : Keeps s t.stepSettings :=
  .setStart (.foldl (fun _ _ h' => .wr (.wr h')) (.foldl (fun _ _ h' => .wr h') (.wr (.foldl (fun _ _ h' => .setReg h') (.foldl (fun _ _ h'
    => .startPart h') (.settings h))))))

theorem Keeps.stepPower (h : Keeps s t) : Keeps s t.stepPower :=
  .tick (.setStart (.pin (.same (.foldl (fun _ _ h' => .foldl (fun _ _ h2 => .wr h2) h') h))))

theorem Keeps.stepMemory (h : Keeps s t) : Keeps s t.stepMemory := .setStart (.same h)

theorem Keeps.hostBoot (h : Keeps s t) : Keeps s t.hostBoot := by
  unfold State.hostBoot
  split
  · exact h
  · exact .ite (.setBytes (.setBytes h)) h

theorem Keeps.stepHost {fail} (h : Keeps s t) : Keeps s (t.stepHost fail) :=
  .startPorts (.wr (.setStart (.same (by
  split
  · exact .emit (.noteFail (.foldl (fun _ _ h' => .wr (.send h')) (.hostBoot h)))
  · exact .foldl (fun _ _ h' => .wr (.send h')) (.hostBoot h)))))

theorem KeepsRes.execStartStepComplete {step r} (h : Keeps s t) : KeepsRes s (execStartStepComplete step r t) :=
  .ite (.ok h) (by
  split
  · exact .ok (.stepImage h)
  · exact .ok (.stepSettings h)
  · exact .ok (.stepPower h)
  · exact .ok (.startStops h)
  · exact .ok (.stepMemory h)
  · exact .ok (.startStops h)
  · exact .ok (.stepHost h)
  · exact .ok (.stepHost h)
  · exact .ok (.setStart h)
  · exact .ok h)

theorem KeepsRes.execStartLockTimeout (h : Keeps s t) : KeepsRes s (execStartLockTimeout t) := .ite (.ok (.emit (.noteFail h))) (.ok h)

theorem Keeps.resetPins {t'} (h : Keeps s t') : Keeps s (t.resetPins t') := .wr (.foldl (fun _ _ h => .wr h) h)

theorem Keeps.resetModule (h : Keeps s t) : Keeps s t.resetModule :=
  .resetPins (.carry (h.trans ⟨Eq.refl _, List.prefix_refl _, fun _ => Memory.wf_nil, fun _ => Eq.refl _⟩))

theorem KeepsRes.execModuleReset (h : Keeps s t) : KeepsRes s (execModuleReset t) :=
  .ite (.ok h) (.ok (.resetModule (.ite (.pin (.pin (.pin (.pin h)))) (.setStart (.pin (.pin (.pin (.pin h))))))))

theorem KeepsRes.execModuleResetRelease (h : Keeps s t) : KeepsRes s (execModuleResetRelease t) := by
  refine .ite (.ok (.setStart (.pin (h.trans ⟨Eq.refl _, List.prefix_refl _, id, fun _ => ?_⟩)))) (.ok h)
  dsimp only [State.tapOk]
  split_ifs with hir
  · rfl
  · simpa using hir

theorem KeepsRes.execStandbyPowerUp (h : Keeps s t) : KeepsRes s (execStandbyPowerUp t) := .ite (.ok h) (.ok (.send (.same h)))

theorem KeepsRes.execPowerRemoval (h : Keeps s t) : KeepsRes s (execPowerRemoval t) := by
  have h1 : Keeps s (((t.pin F.STR_PINS_PWRGD 0 false).pin F.STR_PINS_XSPI_OWN 3 false).send (.contact 4 false)) := .send (.pin (.pin h))
  exact .ite (.ok h) (.ok (.wr (.carry (h1.trans ⟨Eq.refl _, List.prefix_refl _, fun _ => Memory.wf_nil, fun _ => Eq.refl _⟩))))

theorem Keeps.ringUnhold {i r} (h : Keeps s t) : Keeps s (t.ringUnhold i r) := .ringWrite (.wr (.same h))

theorem Keeps.writeOverflow (h : Keeps s t) : Keeps s t.writeOverflow := .ringWrite (.same h)

theorem Keeps.ringDrain {n} (h : Keeps s t) : Keeps s (t.ringDrain n) := by
  induction n generalizing t with
  | zero => exact h
  | succ n ih =>
    unfold State.ringDrain
    refine .ite h (.ite (ih (.writeOverflow h)) ?_)
    split
    · exact ih (.ringUnhold h)
    · exact h

theorem KeepsRes.execHeldRecordWrite (h : Keeps s t) : KeepsRes s (execHeldRecordWrite t) :=
  .ite (by
  split
  · exact .ok (.ringUnhold h)
  · exact .ok h) (.ok h)

theorem KeepsRes.execEventRingOverflow (h : Keeps s t) : KeepsRes s (execEventRingOverflow t) := .ite (.ok (.writeOverflow h)) (.ok h)

theorem Keeps.writeRingHead {v} (h : Keeps s t) : Keeps s (t.writeRingHead v) := .ite h (.ringDrain (.wr (.same h)))

theorem KeepsRes.execRingHeadWrite {val} (h : Keeps s t) : KeepsRes s (execRingHeadWrite val t) := .ite (.ok h) (.ok (.writeRingHead h))

theorem Keeps.writeRing {v} (h : Keeps s t) : Keeps s (t.writeRing v) :=
  .ite (.wrB h) (.ite (.ringDrain (.wr (.same (.setReg h)))) (.setReg h))

theorem KeepsRes.execEventRingEnable {val} (h : Keeps s t) : KeepsRes s (execEventRingEnable val t) := .ite (.ok h) (.ok (.writeRing h))

theorem KeepsRes.execEventRingDisable {val} (h : Keeps s t) : KeepsRes s (execEventRingDisable val t) := .ite (.ok h) (.ok (.writeRing h))

theorem Keeps.stageWrite {off v} (h : Keeps s t) : Keeps s (t.stageWrite off v) := .ite h (.ite (.inc h) (.showArea (.stage h)))

theorem KeepsRes.execRsFieldWrite {off width val} (h : Keeps s t) : KeepsRes s (execRsFieldWrite off width val t) :=
  .ite (.ok h) (.ok (.stageWrite h))

theorem Keeps.plainWrite {off v} (h : Keeps s t) : Keeps s (t.plainWrite off v) := .stageWrite (.setReg h)

theorem KeepsRes.shdCtl {w} (h : Keeps s t) : KeepsRes s (shdCtl w t) := by
  unfold Machine.shdCtl
  split
  · exact .execShdCheck h
  · exact .execShdArm h
  · exact .execShdWithdraw h
  · exact .execShdDiscard h
  · exact .execShdApplyNow h
  · exact .ok h

theorem KeepsRes.hrst {fromCore w} (h : Keeps s t) : KeepsRes s (hrst fromCore w t) := by
  unfold Machine.hrst
  split
  · exact .execHostCcReset h
  · exact .execHostDieReset h
  · exact .ok h

theorem KeepsRes.pageWrite {q r v} (h : Keeps s t) : KeepsRes s (t.pageWrite q r v) := by
  unfold State.pageWrite
  split
  · exact .execSqDoorbell h
  · exact .execSqDoorbell h
  · exact .execCqHeadWrite h
  · have hresume : KeepsRes s (if bit v.toNat 0 then Machine.execSqResume q t else .next t) := .ite (.execSqResume h) (.ok h)
    split
    · rename_i s1 he
      exact .ite (.execSqHalt (hresume s1 he)) (.ok (hresume s1 he))
    · exact hresume
  · exact .ok h

theorem KeepsRes.bindWrite {q r v} (h : Keeps s t) : KeepsRes s (t.bindWrite q r v) :=
  .ite (.ite (.execQueueDisable h) (.ok h)) (.ok (.setQueue (.ite (.wr (.plainWrite h)) (.plainWrite h))))

theorem Keeps.coreTarget {c v} (h : Keeps s t) : Keeps s (t.coreTarget c v) := .wrB (.wr (.plainWrite h))

theorem Keeps.clearStop {v} (h : Keeps s t) : Keeps s (t.clearStop v) := .ite (.setReg (.setReg (.setReg h))) h

theorem Keeps.noteHead {v} (h : Keeps s t) : Keeps s (t.noteHead v) := .same (.plainWrite h)

theorem KeepsRes.writeReg {fromCore off v} (h : Keeps s t) : KeepsRes s (t.writeReg fromCore off v) :=
  .ite (.ok h) (.ite (.pageWrite h) (.ite (.bindWrite h) (.ite (.ok (.writeRing h)) (.ite (.ok (.writeRingHead h)) (.ite (.hrst h) (.ite
    (.shdCtl h) (.ite (.ite (.ok (.plainWrite h)) (.ok h)) (.ite (.ok (.clearStop h)) (.ite (.execBiasCmd h) (.ite (.execFqBaseWrite h)
    (.ite (by
  split
  · exact .execFaultResumeRetry h
  · exact .execFaultResumeAbort h
  · exact .ok h) (.ite (.execShootdownCmd h) (.ite (.ok (.noteHead h)) (.ite (.ok (.coreTarget h)) (.ite (.ok (.ite (.plainWrite h) (.wr
      (.plainWrite h)))) (.ite (by
  split
  · exact .execVerifyAll h
  · exact .execVerifyMarked h
  · exact .ok h) (.ok (.plainWrite h))))))))))))))))))

theorem KeepsRes.execRegisterWrite {off width val} (h : Keeps s t) : KeepsRes s (execRegisterWrite off width val t) :=
  .ite (.ok h) (.writeReg h)

theorem Keeps.beforeRead {off} (h : Keeps s t) : Keeps s (t.beforeRead off) := .ite (.tick (.wr h)) h

theorem KeepsRes.execRegrd {m} (h : Keeps s t) : KeepsRes s (execRegrd m t) := .receive h (.ok (.send (.beforeRead h)))

theorem KeepsRes.execRegwr {m width} (h : Keeps s t) : KeepsRes s (execRegwr m width t) := .receive h (.ite (.ok h) (.writeReg h))

theorem KeepsRes.execMgmtRead {off} (h : Keeps s t) : KeepsRes s (execMgmtRead off t) :=
  .ite (.ok h) (.ite (.ok (.send h)) (.ite (.ok (.send h)) (.ok (.send (.beforeRead h)))))

theorem KeepsRes.execMgmtWrite {off val} (h : Keeps s t) : KeepsRes s (execMgmtWrite off val t) :=
  .ite (.ok h) (.ite (.ite (.hrst (.send h)) (.ok (.send h))) (.ite (.ok (.send (.clearStop h))) (.ite (.ok (.send (.setReg h))) (.ok
    (.send h)))))

theorem KeepsRes.execI3cSetaasa (h : Keeps s t) : KeepsRes s (execI3cSetaasa t) := .ite (.ok h) (.ok (.wr h))

theorem KeepsRes.execI3cEntdaa {addr} (h : Keeps s t) : KeepsRes s (execI3cEntdaa addr t) := .ite (.ok h) (.ok (.wr h))

theorem KeepsRes.execPldmCommand {c} (h : Keeps s t) : KeepsRes s (execPldmCommand c t) :=
  .ite (.ok h) (by
  split
  · exact .ite (.ok (.tick (.send h))) (.ok (.send h))
  · split
    · exact .ok (.tick (.send h))
    · exact .ok (.send h)
  · split <;> exact .ok (.send h))

theorem Keeps.spdmAnswer {need next code v} (h : Keeps s t) : Keeps s (t.spdmAnswer need next code v) := .ite (.send h) (.send (.same h))

theorem KeepsRes.execSpdmGetVersion (h : Keeps s t) : KeepsRes s (execSpdmGetVersion t) := .ite (.ok h) (.ok (.send (.same h)))

theorem KeepsRes.execSpdmGetCapabilities (h : Keeps s t) : KeepsRes s (execSpdmGetCapabilities t) :=
  .ite (.ok h) (.ok (.tick (.spdmAnswer h)))

theorem KeepsRes.execSpdmNegotiateAlgorithms (h : Keeps s t) : KeepsRes s (execSpdmNegotiateAlgorithms t) :=
  .ite (.ok h) (.ok (.spdmAnswer h))

theorem KeepsRes.execSpdmGetDigests (h : Keeps s t) : KeepsRes s (execSpdmGetDigests t) := .ite (.ok h) (.ok (.spdmAnswer h))

theorem KeepsRes.execSpdmGetCertificate {offset len} (h : Keeps s t) : KeepsRes s (execSpdmGetCertificate offset len t) :=
  .ite (.ok h) (.ok (.spdmAnswer h))

theorem KeepsRes.execSpdmChallenge {nonce} (h : Keeps s t) : KeepsRes s (execSpdmChallenge nonce t) :=
  .ite (.ok h) (.ok (.tick (.spdmAnswer h)))

theorem KeepsRes.execSpdmGetMeasurements {index} (h : Keeps s t) : KeepsRes s (execSpdmGetMeasurements index t) :=
  .ite (.ok h) (.ite (.ok (.send h)) (.ok (.spdmAnswer h)))

theorem Keeps.tap {ir v} (h : Keeps s t) (hir : t.mrst = true ∨ ir ≠ 6 ∧ ir ≠ 4 ∧ ir ≠ 5) : Keeps s (t.tap ir v) := by
  refine .send (.wr (h.trans ⟨Eq.refl _, List.prefix_refl _, id, fun _ => ?_⟩))
  rcases hir with hm | ⟨h6, h4, h5⟩
  · simp [State.tapOk, hm]
  · simp [State.tapOk, h6, h4, h5]

theorem KeepsRes.execBypass (h : Keeps s t) : KeepsRes s (execBypass t) := .ite (.ok h) (.ok (.tap h (.inr (by decide))))

theorem KeepsRes.execIdcode (h : Keeps s t) : KeepsRes s (execIdcode t) := .ite (.ok h) (.ok (.tap h (.inr (by decide))))

theorem KeepsRes.execSamplePreload {shiftIn} (h : Keeps s t) : KeepsRes s (execSamplePreload shiftIn t) := by
  have h1 : Keeps s (t.tap 0x02 (t.freeNat 0)) := .tap h (.inr (by decide))
  exact .ite (.ok h) (.ok (.tick (h1.trans ⟨Eq.refl _, List.prefix_refl _, id, id⟩)))

theorem Keeps.tapHeld {ir v} (h : Keeps s t) : Keeps s (t.tapHeld ir v) := by
  unfold State.tapHeld
  split
  · exact .tap h (.inl ‹_›)
  · exact .tap h (.inr (by decide))

theorem KeepsRes.execExtest (h : Keeps s t) : KeepsRes s (execExtest t) := .ite (.ok h) (.ok (.tapHeld h))

theorem KeepsRes.execClamp (h : Keeps s t) : KeepsRes s (execClamp t) := .ite (.ok h) (.ok (.tapHeld h))

theorem KeepsRes.execHighz (h : Keeps s t) : KeepsRes s (execHighz t) := .ite (.ok h) (.ok (.tapHeld h))

theorem KeepsRes.execRegread {dr} (h : Keeps s t) : KeepsRes s (execRegread dr t) := by
  refine .ite (.ok h) (.ok (.tap (.trans (.ite (.beforeRead h) h) ⟨Eq.refl _, List.prefix_refl _, id, id⟩) (.inr (by decide))))

theorem KeepsRes.exec {i} (h : Keeps s t) : KeepsRes s (exec i t) := by
  unfold Machine.exec
  split
  · exact .execRegisterWrite h
  · exact .execLapCountRead h
  · exact .execRsFieldWrite h
  · exact .execRingHeadWrite h
  · exact .execEventRingEnable h
  · exact .execEventRingDisable h
  · exact .execHeldRecordWrite h
  · exact .execEventRingOverflow h
  · exact .execLapMark h
  · exact .execPaceMark h
  · exact .execLmosReceive h
  · exact .execLapLockAcquired h
  · exact .execLaprefPpsEdge h
  · exact .execLaprefLost h
  · exact .execDreqReceive h
  · exact .execDrspReceive h
  · exact .execLapUpstreamSwitch h
  · exact .execLapLockLost h
  · exact .execLapHoldover h
  · exact .execLapRelocked h
  · exact .execLapMasterTakeover h
  · exact .execShdCheck h
  · exact .execShdArm h
  · exact .execShdWithdraw h
  · exact .execShdDiscard h
  · exact .execShdApplyNow h
  · exact .execShadowSwap h
  · exact .execSvoteReceive h
  · exact .execSpartReceive h
  · exact .execSdecReceive h
  · exact .execPrevoteCollectorClose h
  · exact .execPrevoteLate h
  · exact .execKStep h
  · exact .execMergeDone h
  · exact .execWgqRun h
  · exact .execReadoutEnd h
  · exact .execPushBufferEnter h
  · exact .execClusterFault h
  · exact .execClusterRotation h
  · exact .execClusterRotated h
  · exact .execAlu h
  · exact .execAddi h
  · exact .execAndi h
  · exact .execOri h
  · exact .execXori h
  · exact .execShli h
  · exact .execShri h
  · exact .execSari h
  · exact .execSlti h
  · exact .execSltiu h
  · exact .execLui h
  · exact .execBeq h
  · exact .execBne h
  · exact .execBlt h
  · exact .execBge h
  · exact .execBltu h
  · exact .execBgeu h
  · exact .execJal h
  · exact .execJalr h
  · exact .execLd h
  · exact .execLw h
  · exact .execSt h
  · exact .execSw h
  · exact .execTcpy h
  · exact .execSrd h
  · exact .execMcfg h
  · exact .execMlda h
  · exact .execMldb h
  · exact .execMma h
  · exact .execMacc h
  · exact .execMdrn h
  · exact .execMtie h
  · exact .execRpush h
  · exact .execDq h
  · exact .execDqComplete h
  · exact .execDwait h
  · exact .execFence h
  · exact .execHalt h
  · exact .execBar h
  · exact .execBarrierRelease h
  · exact .execWlap h
  · exact .execWlapComplete h
  · exact .execHrdw h
  · exact .execHrdwRecord h
  · exact .execHrdwOutcomeReturn h
  · exact .execEvt h
  · exact .execSetvl h
  · exact .execVld h
  · exact .execVlds h
  · exact .execVldb h
  · exact .execVst h
  · exact .execVsts h
  · exact .execVfv h
  · exact .execVfs h
  · exact .execVfu h
  · exact .execVsfu h
  · exact .execViv h
  · exact .execVis h
  · exact .execVcmpv h
  · exact .execVcmps h
  · exact .execVsel h
  · exact .execVred h
  · exact .execVderiv h
  · exact .execVcvt h
  · exact .execVsr h
  · exact .execVxcvt h
  · exact .execVmv h
  · exact .execVputs h
  · exact .execVgets h
  · exact .execSeedCastRelease h
  · exact .execDrainMark h
  · exact .execEpochFlip h
  · exact .execEpochFlipLate h
  · exact .execEpochRelease h
  · exact .execTieUseApply h
  · exact .execRelayPushTake h
  · exact .execRelayBlockReceive h
  · exact .execRelayAckReceive h
  · exact .execScaleReturnReceive h
  · exact .execRelayEngineFail h
  · exact .execHurdleMark h
  · exact .execHurdleContribReceive h
  · exact .execHurdlePartialReceive h
  · exact .execHurdleCollectorClose h
  · exact .execHurdleOutcomeReceive h
  · exact .execHurdleLate h
  · exact .execHurdleOutcomeApply h
  · exact .execLaserStatusChange h
  · exact .execPortTrainStageDone h
  · exact .execPortTrainTimeout h
  · exact .execPortRetrain h
  · exact .execPortDiagnosis h
  · exact .execReserveEngineSwap h
  · exact .execReplayStateDiscard h
  · exact .execFlitReceive h
  · exact .execPeerWriteReceive h
  · exact .execPeerAckReceive h
  · exact .execPeerLost h
  · exact .execHostLoad h
  · exact .execHostStore h
  · exact .execHostEvict h
  · exact .execRdshr h
  · exact .execRdown h
  · exact .execUpgr h
  · exact .execRdna h
  · exact .execRegrd h
  · exact .execRegwr h
  · exact .execDoorbell h
  · exact .execWithdraw h
  · exact .execSnpshr h
  · exact .execSnpinv h
  · exact .execSnpcur h
  · exact .execSnpflush h
  · exact .execRspi h
  · exact .execRsps h
  · exact .execRspfwd h
  · exact .execRspwbpend h
  · exact .execCmp h
  · exact .execCmpfault h
  · exact .execRegdata h
  · exact .execCredit h
  · exact .execData h
  · exact .execFwddata h
  · exact .execWbdata h
  · exact .execWrinvfull h
  · exact .execTenureEnd h
  · exact .execSnoopTimeout h
  · exact .execDomainStop h
  · exact .execBiasCmd h
  · exact .execBiasCmdDone h
  · exact .execBiasFlip h
  · exact .execDieFlitReceive h
  · exact .execDieLinkRetrainEnter h
  · exact .execLinkRetrain h
  · exact .execDieLinkFail h
  · exact .execWithdrawTimeout h
  · exact .execWalkComplete h
  · exact .execFaultResumeRetry h
  · exact .execFaultResumeAbort h
  · exact .execFaultRecordFree h
  · exact .execFqBaseWrite h
  · exact .execShootdownCmd h
  · exact .execShootdownComplete h
  · exact .execTrackerDecay h
  · exact .execSqDoorbell h
  · exact .execSqOrderedDoorbell h
  · exact .execSubmissionFetch h
  · exact .execSubmissionReread h
  · exact .execSqResume h
  · exact .execSqHalt h
  · exact .execQueueDisable h
  · exact .execCqHeadWrite h
  · exact .execCommandDispatch h
  · exact .execCopy h
  · exact .execPeerWrite h
  · exact .execSnapshot h
  · exact .execLoad h
  · exact .execProgramLoaded h
  · exact .execNop h
  · exact .execCommandComplete h
  · exact .execSlotDrainComplete h
  · exact .execHostCcReset h
  · exact .execHostDieReset h
  · exact .execCcWithdrawDone h
  · exact .execCcResetRelease h
  · exact .execCcFirstFetch h
  · exact .execHdQuiesceDone h
  · exact .execHdQuiesceTimeout h
  · exact .execHdResetRelease h
  · exact .execHdrstAssert h
  · exact .execPcieInbound h
  · exact .execPcieLink h
  · exact .execCtxOpen h
  · exact .execCtxClose h
  · exact .execSurfBind h
  · exact .execDecode h
  · exact .execEncode h
  · exact .execConvert h
  · exact .execPrismRcTimeout h
  · exact .execPrismWatchdog h
  · exact .execPowerSample h
  · exact .execConverterFault h
  · exact .execDroopDetect h
  · exact .execThermalFastHold h
  · exact .execThermalTrip h
  · exact .execPconReceive h
  · exact .execPpartReceive h
  · exact .execPdecReceive h
  · exact .execPaceCollectorClose h
  · exact .execPaceVoteLate h
  · exact .execPaceChange h
  · exact .execModuleReset h
  · exact .execStandbyPowerUp h
  · exact .execStartStepComplete h
  · exact .execStartLockTimeout h
  · exact .execCkptHaltStart h
  · exact .execCkptCaptureStart h
  · exact .execCkconReceive h
  · exact .execCkpartReceive h
  · exact .execCkdecReceive h
  · exact .execCkptCollectorClose h
  · exact .execCkptVoteTimeout h
  · exact .execCkptMessageReceive h
  · exact .execCkptAckReceive h
  · exact .execCkptResume h
  · exact .execCkptForwardEnd h
  · exact .execVerifyAll h
  · exact .execVerifyMarked h
  · exact .execVerifyDone h
  · exact .execSelftestWindowOpen h
  · exact .execSelftestWindowClose h
  · exact .execSelftestDeferred h
  · exact .execMgmtRead h
  · exact .execMgmtWrite h
  · exact .execI3cSetaasa h
  · exact .execI3cEntdaa h
  · exact .execPldmCommand h
  · exact .execSpdmGetVersion h
  · exact .execSpdmGetCapabilities h
  · exact .execSpdmNegotiateAlgorithms h
  · exact .execSpdmGetDigests h
  · exact .execSpdmGetCertificate h
  · exact .execSpdmChallenge h
  · exact .execSpdmGetMeasurements h
  · exact .execBypass h
  · exact .execIdcode h
  · exact .execSamplePreload h
  · exact .execExtest h
  · exact .execClamp h
  · exact .execHighz h
  · exact .execRegread h
  · exact .execLaprefRestored h
  · exact .execModuleResetRelease h
  · exact .execPowerRemoval h
  · exact .execPortRetry h
  · exact .execDroopRecovered h
  · exact .execThermalHoldRelease h

end

/-- What a command leaves has the queue, the sent messages, memory's form and the TAP's rule of the state it began in. -/
theorem exec_keeps {c : Instr} {s t : State} (h : exec c s = .next t) : Keeps s t := KeepsRes.exec .rfl t h

theorem step_of_pending_nil {s : State} (hp : s.pending = []) : step s = .next s := by simp [step, hp]

theorem step_of_pending_cons {s : State} {c : Instr} {rest : List Instr} (hp : s.pending = c :: rest) :
    step s = exec c { s with pending := rest } := by simp [step, hp]

/-- A step leaves the state that it idles in, or what its command keeps of the state with the queue's rest. -/
theorem step_keeps {s t : State} (h : step s = .next t) :
    t = s ∨ ∃ c rest, s.pending = c :: rest ∧ Keeps { s with pending := rest } t := by
  cases hp : s.pending with
  | nil =>
    rw [step_of_pending_nil hp] at h
    injection h with h
    exact .inl h.symm
  | cons c rest =>
    rw [step_of_pending_cons hp] at h
    exact .inr ⟨c, rest, Eq.refl _, exec_keeps h⟩

/-- Settles O3: a step idles, or its command keeps the TAP's rule. -/
theorem tapRule : Obligations.TapRule := by
  intro s t hs h
  obtain rfl | ⟨c, rest, -, hk⟩ := step_keeps h
  · exact hs
  · exact hk.tapOk hs

/-- Settles O4: memory is written through `rawSet` alone, which keeps its addresses rising. -/
theorem memoryCanonical : Obligations.MemoryCanonical := by
  intro s t hs h
  obtain rfl | ⟨c, rest, -, hk⟩ := step_keeps h
  · exact hs
  · exact hk.memOk hs

/-- Settles O5: no function that a command is made of writes the queue, and what is sent is appended. -/
theorem queueKept : Obligations.QueueKept := by
  refine ⟨fun c s t h => ⟨(exec_keeps h).pendingEq, (exec_keeps h).outPrefix⟩, fun s t hs h => ?_⟩
  obtain rfl | ⟨c, rest, hp, hk⟩ := step_keeps h
  · exact hs
  · have hrest : rest.all Instr.wf = true := by
      rw [State.queueWf, hp, List.all_cons, Bool.and_eq_true] at hs
      exact hs.2
    rw [State.queueWf, hk.pendingEq]
    exact hrest

end Sys2Proof.Machine
end

section

/-! SUPPORT. The step and the reset state (O1, O2). -/
namespace Sys2Proof.Machine
open Sys2Proof

/-- Settles O1: the two cases of `step`. -/
theorem stepRunsFront : Obligations.StepRunsFront :=
  ⟨fun _ _ _ hp => step_of_pending_cons hp, fun _ hp => step_of_pending_nil hp⟩

/-- At reset a queue is disabled, with both phases 1: the reset values of the register tables. -/
theorem reset_queue : ∀ q, q < 256 → State.reset.rd (F.CPE_QRING_EN q) = 0 ∧ State.reset.rd (F.SQ_STAT_SPHASE q) = 1
    ∧ State.reset.rd (F.SQ_STAT_CPHASE q) = 1 := by decide +kernel

theorem reset_slot : ∀ j, j < 16 → State.reset.slotState j = 0 ∧ State.reset.jobOf j = none := by decide +kernel

theorem reset_area : ∀ a, a < 17 → State.reset.areaState a = 0 := by decide +kernel

/-- Settles O2: the register tables give the registers, and every other field is written out in `State.reset`. -/
theorem resetState : Obligations.ResetState :=
  ⟨by decide +kernel, by decide +kernel, by decide +kernel, rfl, rfl, by decide +kernel, reset_slot, reset_area, rfl, reset_queue,
    rfl, rfl, rfl, rfl, rfl, rfl, rfl⟩

end Sys2Proof.Machine
end

section

/-! SUPPORT. The sequencer's other instructions (O10 to O16): what an instruction does by what its body answers, waits, the instruction words
and their fields, and exceptions. -/
namespace Sys2Proof.Machine
open Sys2Proof

/-! What an instruction that is ready does, by what its body answers. -/

section
variable {s : State} {cl : ClusterId} {i : Instr} {word : Nat} {body : ClusterSt → Issue}

theorem exec_exc {cause addr : Nat} (he : exec i s = s.issue cl word body) (hw : insnWord i = some word) (hr : s.ready cl i = true)
    (hb : body (s.cluster cl) = .exc cause addr) : exec i s = .next (s.raise cl word cause addr) := by
  rw [he, issue_ready s cl i word body hr hw (insnOf_isSome_of_insnWord cl hw), hb]

theorem exec_wait {t : State} (he : exec i s = s.issue cl word body) (hw : insnWord i = some word) (hr : s.ready cl i = true)
    (hb : body (s.cluster cl) = .wait t) : exec i s = .next t := by
  rw [he, issue_ready s cl i word body hr hw (insnOf_isSome_of_insnWord cl hw), hb]

theorem exec_ret {t : State} (he : exec i s = s.issue cl word body) (hw : insnWord i = some word) (hr : s.ready cl i = true)
    (hb : body (s.cluster cl) = .ret t) : exec i s = .next (t.retire cl (s.pc cl + 4)) := by
  rw [he, issue_ready s cl i word body hr hw (insnOf_isSome_of_insnWord cl hw), hb]

/-- An instruction whose body changes the cluster's contents alone, with the image as it was, steps. -/
theorem exec_steps {c : ClusterSt} (he : exec i s = s.issue cl word body) (hw : insnWord i = some word)
    (hf : Fits s cl i (s.pc cl + 4)) (hb : body (s.cluster cl) = .ret (s.setCluster cl c)) (hc : c.code = (s.cluster cl).code) :
    ∃ t, exec i s = .next t ∧ Steps s t cl c (s.pc cl + 4) := by
  rw [he]
  exact issue_steps s cl i word body c hf hw (insnOf_isSome_of_insnWord cl hw) hb hc

/-- An instruction with no effect of its own steps with the contents as they were. -/
theorem exec_steps_unchanged (he : exec i s = s.issue cl word body) (hw : insnWord i = some word)
    (hf : Fits s cl i (s.pc cl + 4)) (hb : body (s.cluster cl) = .ret s) :
    ∃ t, exec i s = .next t ∧ Steps s t cl (s.cluster cl) (s.pc cl + 4) := by
  obtain ⟨hr, h4, hl, h64⟩ := hf
  exact ⟨_, exec_ret he hw hr hb, retire_steps_unchanged s cl _ h4 hl h64⟩

end

/-- The free value that a step took counts to the step that took it. -/
theorem OnlyCluster.of_tick {cl : ClusterId} {offs : List Nat} {n : Nat} {s t : State} (h : OnlyCluster cl offs n s.tick t) :
    OnlyCluster cl offs (n + 1) s t := by
  obtain ⟨heq, hfree, hregs, hcl⟩ := h
  exact ⟨congrArg (fun u : State => { u with free := s.free }) heq, hfree.trans (Nat.succ_add_eq_add_succ s.free n), hregs, hcl⟩

@[simp] theorem ClusterSt.setS_icount (c : ClusterSt) (r : BitVec 5) (v : Word) : (c.setS r v).icount = c.icount := by
  unfold ClusterSt.setS
  split <;> rfl

@[simp] theorem ClusterSt.setT_code (c : ClusterSt) (a : Nat) (data : List Byte) : (c.setT a data).code = c.code := by
  induction data generalizing c a with
  | nil => rfl
  | cons b bs ih => exact ih _ _

/-! Loads, stores and TCPY (R187, R188). -/

section
variable {s : State} {cl : ClusterId} {i : Instr}

theorem loadOp_writesS {opc n : Nat} {f : FmtI} (he : exec i s = loadOp cl opc n f s) (hw : insnWord i = some (wordI opc f))
    (hf : Fits s cl i (s.pc cl + 4)) (hal : memAddr (s.cluster cl) f.rs1 f.imm % n = 0)
    (hin : memAddr (s.cluster cl) f.rs1 f.imm < tileSize)
    (hfree : s.interlocked cl (memAddr (s.cluster cl) f.rs1 f.imm) n false = false) :
    ∃ t, exec i s = .next t
      ∧ WritesS s t cl f.rd (BitVec.ofNat 64 ((s.cluster cl).tnat (memAddr (s.cluster cl) f.rs1 f.imm) n)) (s.pc cl + 4) := by
  refine exec_writesS he hw ?_ hf
  dsimp only
  rw [if_neg (by simp [hal]), if_neg (by omega), if_neg (by simp [hfree])]

theorem storeOp_steps {opc n : Nat} {f : FmtS} (he : exec i s = storeOp cl opc n f s) (hw : insnWord i = some (wordS opc f))
    (hf : Fits s cl i (s.pc cl + 4)) (hal : memAddr (s.cluster cl) f.rs1 f.imm % n = 0)
    (hin : memAddr (s.cluster cl) f.rs1 f.imm < tileSize)
    (hfree : s.interlocked cl (memAddr (s.cluster cl) f.rs1 f.imm) n true = false) :
    ∃ t, exec i s = .next t ∧ Steps s t cl
      ((s.cluster cl).setT (memAddr (s.cluster cl) f.rs1 f.imm) (leBytes n ((s.cluster cl).sn f.rs2))) (s.pc cl + 4) := by
  refine exec_steps he hw hf ?_ (ClusterSt.setT_code _ _ _)
  dsimp only
  rw [if_neg (by simp [hal]), if_neg (by omega), if_neg (by simp [hfree])]

end

/-- Settles O10: a load's body writes S[RD], a store's and TCPY's the tile store. -/
theorem tileAccess : Obligations.TileAccess := by
  refine fun s cl => ⟨fun f => ⟨?_, ?_⟩, fun f => ⟨?_, ?_⟩, fun f hf h24 h4 hd ha hn hdn han hov hw hr => ?_⟩
  · exact loadOp_writesS (by rw [exec, execLd]) rfl
  · exact loadOp_writesS (by rw [exec, execLw]) rfl
  · exact storeOp_steps (by rw [exec, execSt]) rfl
  · exact storeOp_steps (by rw [exec, execSw]) rfl
  · refine exec_steps (by rw [exec, execTcpy]) rfl hf ?_ (ClusterSt.setT_code _ _ _)
    have hdisj : ((s.cluster cl).sn f.f9 ≠ 0 && decide ((s.cluster cl).sn f.f19 < (s.cluster cl).sn f.f14 + (s.cluster cl).sn f.f9)
        && decide ((s.cluster cl).sn f.f14 < (s.cluster cl).sn f.f19 + (s.cluster cl).sn f.f9)) = false := by
      simp only [Bool.and_eq_false_iff, decide_eq_false_iff_not]
      omega
    dsimp only
    rw [if_neg (by simp [h24, h4]), if_neg (by simp [hd]), if_neg (by simp [ha]), if_neg (by simp [hn]), if_neg (by omega),
      if_neg (by omega), if_neg (Bool.eq_false_iff.mp hdisj), if_neg (by simp [hw, hr])]

/-- Settles O11: each number names one row of `State.special`, and SRD takes one free value for the rows that need it. -/
theorem specialReads : Obligations.SpecialReads := by
  intro s cl f j hf hj h1
  have step {v : Nat} (hv : s.special cl j f.imm.toNat = some v) : ∃ t, exec (.srd cl f) s = .next t ∧ Retired s t cl (s.pc cl + 4)
      ∧ t.cluster cl = { (s.cluster cl).setS f.rd (BitVec.ofNat 64 v) with icount := (s.cluster cl).icount + 1 }
      ∧ OnlyCluster cl (retireRegs cl) 1 s t := by
    obtain ⟨hr, h4, hl, h64⟩ := hf
    obtain ⟨hret, hcl, honly⟩ := retire_steps s.tick cl ((s.cluster cl).setS f.rd (BitVec.ofNat 64 v)) _ h4
      (by rw [ClusterSt.setS_code]; exact hl) (by rw [ClusterSt.setS_code]; exact h64)
    refine ⟨_, exec_ret (by rw [exec, execSrd]) rfl hr ?_, hret, by rw [hcl, ClusterSt.setS_icount], honly.of_tick⟩
    simp only [hj, Option.getD_some, hv, h1]
    rfl
  simp only [List.forall_mem_cons]
  refine ⟨?_, ?_, ?_, ?_, ?_, ?_, ?_, ?_, ?_, ?_, ?_, ?_, ?_, ?_, by simp⟩ <;> exact fun hn => step (by rw [hn]; rfl)

/-! Waits (R176, R215 to R225): CDn_CL_STATUS.RUN and CDn_CL_WAIT show what the cluster waits for. -/

/-- From `s` to `t` the cluster has come to wait in RUN `run`, and CDn_CL_WAIT shows for what. -/
def WaitsIn (s t : State) (cl : ClusterId) (run kind which target : Nat) : Prop :=
  t.run cl = run ∧ t.rd (F.CL_WAIT_KIND cl.die cl.idx) = kind ∧ t.rd (F.CL_WAIT_WHICH cl.die cl.idx) = which
    ∧ t.rd (F.CL_WAIT_TARGET cl.die cl.idx) = target % 2 ^ 40
    ∧ OnlyCluster cl [Reg.CL_STATUS cl.die cl.idx, Reg.CL_WAIT cl.die cl.idx] 0 s t

section
variable (s : State) (cl : ClusterId) (kind which target : Nat)

theorem State.showWait_kind : (s.showWait cl kind which target).rd (F.CL_WAIT_KIND cl.die cl.idx) = kind % 8 := by
  rw [State.showWait, State.rd_wr_disj _ _ _ _ (by simp [F.CL_WAIT_TARGET]) (by simp [F.CL_WAIT_TARGET, F.CL_WAIT_KIND]),
    State.rd_wr_disj _ _ _ _ (by simp [F.CL_WAIT_WHICH]) (by simp [F.CL_WAIT_WHICH, F.CL_WAIT_KIND]),
    State.rd_wr_self _ _ _ (by simp [F.CL_WAIT_KIND])]
  rfl

theorem State.showWait_which : (s.showWait cl kind which target).rd (F.CL_WAIT_WHICH cl.die cl.idx) = which % 32 := by
  rw [State.showWait, State.rd_wr_disj _ _ _ _ (by simp [F.CL_WAIT_TARGET]) (by simp [F.CL_WAIT_TARGET, F.CL_WAIT_WHICH]),
    State.rd_wr_self _ _ _ (by simp [F.CL_WAIT_WHICH])]
  rfl

theorem State.showWait_target : (s.showWait cl kind which target).rd (F.CL_WAIT_TARGET cl.die cl.idx) = target % 2 ^ 40 := by
  rw [State.showWait, State.rd_wr_self _ _ _ (by simp [F.CL_WAIT_TARGET])]
  rfl

theorem State.showWait_reg_ne {off : Nat} (h : off ≠ Reg.CL_WAIT cl.die cl.idx) : (s.showWait cl kind which target).reg off = s.reg off := by
  simp [State.showWait, State.wr_reg, F.CL_WAIT_KIND, F.CL_WAIT_WHICH, F.CL_WAIT_TARGET, h]

/-- A field of another register than CDn_CL_STATUS reads the same in another RUN. -/
theorem State.setRun_rd_ne (v : Nat) (f : Fld) (h : f.off ≠ Reg.CL_STATUS cl.die cl.idx) : (s.setRun cl v).rd f = s.rd f :=
  State.rd_wr_ne s _ _ v h

theorem State.setRun_run {v : Nat} (h : v < 8) : (s.setRun cl v).run cl = v := by
  rw [State.setRun, State.run, State.rd_wr_self _ _ _ (by simp [F.CL_STATUS_RUN])]
  exact Nat.mod_eq_of_lt h

/-- Writing a cluster changes no other cluster. -/
theorem SameClusters.setCluster (c : ClusterSt) : SameClusters cl s (s.setCluster cl c) := by
  intro k hk
  simp [State.setCluster, sget_sset, hk]

/-- Showing a wait in another RUN changes registers alone. -/
theorem State.showWait_setRun_regs (run : Nat) : ∃ r, (s.showWait cl kind which target).setRun cl run = { s with regs := r } := ⟨_, rfl⟩

/-- A cluster that takes the contents `c`, shows its wait and changes RUN waits, and nothing else differs. -/
theorem State.waitsIn (c : ClusterSt) {run : Nat} (hr : run < 8) (hk : kind < 8) (hw : which < 32) :
    WaitsIn s (((s.setCluster cl c).showWait cl kind which target).setRun cl run) cl run kind which target
      ∧ (((s.setCluster cl c).showWait cl kind which target).setRun cl run).cluster cl = c := by
  have hne := clWait_ne_status cl.die cl.idx
  have hregs : SameRegs [Reg.CL_STATUS cl.die cl.idx, Reg.CL_WAIT cl.die cl.idx] s
      (((s.setCluster cl c).showWait cl kind which target).setRun cl run) := by
    intro off hoff
    simp only [List.mem_cons, List.not_mem_nil, or_false, not_or] at hoff
    rw [State.setRun, State.wr_reg_ne _ _ _ hoff.1, State.showWait_reg_ne _ _ _ _ _ hoff.2, State.setCluster_reg]
  refine ⟨⟨State.setRun_run _ cl hr, ?_, ?_, ?_, ?_⟩, ?_⟩
  · rw [State.setRun_rd_ne _ _ _ _ hne, State.showWait_kind, Nat.mod_eq_of_lt hk]
  · rw [State.setRun_rd_ne _ _ _ _ hne, State.showWait_which, Nat.mod_eq_of_lt hw]
  · rw [State.setRun_rd_ne _ _ _ _ hne, State.showWait_target]
  · obtain ⟨r, hr⟩ := (s.setCluster cl c).showWait_setRun_regs cl kind which target run
    exact ⟨by rw [hr]; rfl, by rw [hr]; rfl, hregs, by rw [hr]; exact SameClusters.setCluster s cl c⟩
  · obtain ⟨r, hr⟩ := (s.setCluster cl c).showWait_setRun_regs cl kind which target run
    rw [hr]
    exact State.setCluster_cluster_self s cl c

end

/-- An instruction whose body makes the cluster wait for a cause waits for it. -/
theorem exec_waitsIn {s : State} {cl : ClusterId} {i : Instr} {word kind which target run : Nat} {body : ClusterSt → Issue} {c : ClusterSt}
    (he : exec i s = s.issue cl word body) (hw : insnWord i = some word) (hr : s.ready cl i = true)
    (hb : body (s.cluster cl) = .wait (((s.setCluster cl c).showWait cl kind which target).setRun cl run))
    (hrun : run < 8) (hk : kind < 8) (hwh : which < 32) :
    ∃ t, exec i s = .next t ∧ WaitsIn s t cl run kind which target ∧ t.cluster cl = c :=
  ⟨_, exec_wait he hw hr hb, State.waitsIn s cl kind which target c hrun hk hwh⟩

/-- A DQ with the number is outstanding. -/
theorem ClusterSt.dqDone_one {c : ClusterSt} {v : Nat} (h : ∃ d ∈ c.dqs, d.seq = v) : c.dqDone v false = false := by
  simpa [ClusterSt.dqDone] using h

/-- A DQ up to the number is outstanding. -/
theorem ClusterSt.dqDone_all {c : ClusterSt} {v : Nat} (h : ∃ d ∈ c.dqs, d.seq ≤ v) : c.dqDone v true = false := by
  simpa [ClusterSt.dqDone] using h

/-- Settles O12: each of these bodies answers `wait`, with the cluster in its RUN or with nothing changed. -/
theorem waits : Obligations.Waits := by
  refine ⟨fun s cl => ⟨fun f hr h32 hd h1 => ?_, fun f hr hlt hle => ?_, fun f hr h14 h9 h4 hn => ?_, fun f hr h14 h9 hw hs => ?_,
    fun f hr h24 h14 h9 => ⟨fun h4 hle hd h0 => ?_, fun h4 hd => ?_⟩⟩, fun s cl f h24 h19 h14 h9 h4 hdone => ?_⟩
  · refine exec_waitsIn (by rw [exec, execBar]) rfl hr ?_ (by omega) (by omega) h32
    dsimp only
    rw [if_neg (by simp [hd, h1, h32])]
  · refine exec_waitsIn (by rw [exec, execWlap]) rfl hr ?_ (by omega) (by omega) (by omega)
    dsimp only
    rw [if_neg (by omega), if_neg (by omega)]
  · refine exec_waitsIn (by rw [exec, execHrdw]) rfl hr ?_ (by omega) (by omega) (by omega)
    simp [h14, h9, h4, hn, bit]
  · refine exec_wait (by rw [exec, execHrdw]) rfl hr ?_
    obtain h4 | ⟨h4, h24⟩ := hw
    · simp [h14, h9, h4, hs, bit]
    · simp [h14, h9, h4, hs, bit, h24]
  · have hne := ClusterSt.dqDone_one hd
    obtain ⟨t, he, ⟨hrun, hk, hwh, ht, ho⟩, hcl⟩ := exec_waitsIn (c := { s.cluster cl with wait := .dwait ((s.cluster cl).sn f.f19) false })
      (by rw [exec, execDwait]) rfl hr (by simp [h24, h14, h9, h4, bit, hne, h0, Nat.not_lt.mpr hle]; rfl) (by omega) (by omega) (by omega)
    exact ⟨t, he, ⟨hrun, hk, hwh, by rw [ht]; exact Nat.mod_mod _ _, ho⟩, hcl⟩
  · have hne := ClusterSt.dqDone_all hd
    obtain ⟨t, he, ⟨hrun, hk, hwh, ht, ho⟩, hcl⟩ := exec_waitsIn (c := { s.cluster cl with wait := .dwait (s.cluster cl).dqseq true })
      (by rw [exec, execDwait]) rfl hr (by simp [h24, h14, h9, h4, bit, hne]; rfl) (by omega) (by omega) (by omega)
    exact ⟨t, he, ⟨hrun, hk, hwh, by rw [ht]; exact Nat.mod_mod _ _, ho⟩, hcl⟩
  · simp only [List.forall_mem_cons]
    refine ⟨fun hr => exec_wait (by rw [exec, execFence]) rfl hr ?_, fun hr => exec_wait (by rw [exec, execHalt]) rfl hr ?_, by simp⟩
    · simp [h24, h19, h14, h9, h4, hdone]
    · simp [h24, h19, h14, h9, h4, hdone]

/-- CD0.C000 waits in HRDW 3 for the outcome of step 0, which resolves at this lap, and a pace change armed for this lap is still to
come: R47 puts it before the clusters' own effects. -/
def hrdwBehindPace : State := { Tests.wHrdwWait with arms := [⟨1, 3, 0, false⟩] }

/-- In that state the outcome does not return yet. -/
theorem hrdwBehindPace_waits : exec (.hrdwOutcomeReturn Tests.cl0) hrdwBehindPace = .next hrdwBehindPace := by
  have hturn : ((hrdwBehindPace.slot 0).rlap != hrdwBehindPace.now || hrdwBehindPace.turn 8) = false := by decide +kernel
  have hwait : (hrdwBehindPace.cluster Tests.cl0).wait = .hrdw 3 0 := by decide +kernel
  have hslot : hrdwBehindPace.slotOfCl Tests.cl0 = some 0 := by decide +kernel
  rw [exec, execHrdwOutcomeReturn]
  simp only [hwait, hslot, hturn, Bool.and_false, Bool.false_eq_true, if_false]

/-- Refutes O14: the outcome of a step that resolves at this lap returns only after the events that R47 puts before it, which the
statement's second clause does not ask for. In `hrdwBehindPace` a pace change of this lap is still to come, so the command leaves the
cluster in RUN 7. -/
theorem not_hurdleWord : ¬ Obligations.HurdleWord := by
  intro h
  obtain ⟨t, ht, hrun, -⟩ := (h hrdwBehindPace Tests.cl0 0 (by decide +kernel)).2 3 0 (by decide +kernel) (by decide +kernel)
    (by decide +kernel) (by decide +kernel) (by decide +kernel) (by decide +kernel) (by decide +kernel) (by decide +kernel) (by decide +kernel)
  rw [hrdwBehindPace_waits] at ht
  obtain rfl := Host.Outcome.next.inj ht
  exact absurd hrun (by decide +kernel)

/-- CD0.C000 is about to run a WLAP of a lap that has come. The directory entry of the ring's first line names a sharer whose number is
that of no agent: the count of snoops of such a number would stand in CDn_CL_RETIRED of CD0.C000. -/
def lateBesideSharer : State :=
  { Tests.runs (.wlap Tests.cl0 (Tests.fI 3 0 0)) (Tests.setF Tests.wRun [(F.STR_RING_EN, 1), (F.STR_RING_LOG2, 8), (F.STR_RING_BASE, 16)]) with
    dirs := [(1024, ⟨none, [(Reg.CL_RETIRED 0 0 - Reg.CRM_AGENT 0) / 8]⟩)] }

/-- What the WLAP leaves there: its record of the late lap has been written into that line, and the sharer's snoop counted. -/
theorem lateBesideSharer_retired : (match exec (.wlap Tests.cl0 (Tests.fI 3 0 0)) lateBesideSharer with
    | .next t => t.reg (Reg.CL_RETIRED 0 0) == lateBesideSharer.reg (Reg.CL_RETIRED 0 0) + 2
    | _ => false) = true := by decide +kernel

/-- Refutes O13: the first clause asks that CDn_CL_RETIRED counts one instruction, over every state. A late WLAP also writes its record
into the event ring, whose line may have a sharer, and the model counts a sharer's snoops at an offset that no bound on its number
keeps apart from CDn_CL_RETIRED: in `lateBesideSharer` the register counts two. -/
theorem not_waitsEnd : ¬ Obligations.WaitsEnd := by
  intro h
  obtain ⟨hwlap, -⟩ := h.1 lateBesideSharer Tests.cl0
  obtain ⟨t, ht, ⟨-, hret, -⟩, -⟩ := hwlap (Tests.fI 3 0 0) (by decide +kernel) (by decide +kernel)
  have htwo := lateBesideSharer_retired
  simp only [ht, beq_iff_eq] at htwo
  have hone : t.reg (Reg.CL_RETIRED 0 0) = lateBesideSharer.reg (Reg.CL_RETIRED 0 0) + 1 := hret
  rw [hone] at htwo
  exact absurd htwo (by decide +kernel)

theorem SameRegs.rd_eq {offs : List Nat} {s t : State} (h : SameRegs offs s t) (f : Fld) (hf : f.off ∉ offs) : t.rd f = s.rd f := by
  rw [State.rd, h _ hf, State.rd]

section
variable {cl : ClusterId} {offs : List Nat} {n : Nat} {s t : State} (h : OnlyCluster cl offs n s t)
include h

theorem OnlyCluster.ring_eq : t.ring = s.ring := by
  have := congrArg State.ring h.1
  exact this

theorem OnlyCluster.mem_eq : t.mem = s.mem := by
  have := congrArg State.mem h.1
  exact this

end

/-- What retires after a change of other registers retires all the same. -/
theorem Retired.of_sameRegs {s u t : State} {cl : ClusterId} {target : Nat} (h : Retired u t cl target)
    (hs : ∀ off ∈ retireRegs cl, u.reg off = s.reg off) : Retired s t cl target := by
  simp only [retireRegs, List.forall_mem_cons] at hs
  obtain ⟨hstatus, hretired, hwait, -⟩ := hs
  obtain ⟨h1, h2, h3⟩ := h
  rw [hstatus] at h1
  rw [hretired] at h2
  simp only [WaitOver, State.rd, F.CL_WAIT_KIND, F.CL_WAIT_WHICH, F.CL_WAIT_TARGET, hwait] at h3
  exact ⟨h1, h2, h3⟩

/-- CDn_CL_SEQCNT is none of the registers that a retired instruction writes. -/
theorem clSeqcnt_not_mem_retireRegs (cl : ClusterId) : Reg.CL_SEQCNT cl.die cl.idx ∉ retireRegs cl := by
  simp only [retireRegs, Reg.CL_SEQCNT, Reg.CL_STATUS, Reg.CL_RETIRED, Reg.CL_WAIT, List.mem_cons, List.not_mem_nil, or_false]
  omega

/-- Settles O15: the three outcomes of EVT's body, of which only the dropped one writes no record. -/
theorem programEvents : Obligations.ProgramEvents := by
  intro s cl f j hj hd himm
  refine ⟨fun hr hsev hlap => ?_, fun hf hsev hlap => ?_, fun hr hsev => ?_⟩
  · refine exec_ret (by rw [exec, execEvt]) rfl hr ?_
    dsimp only
    rw [if_neg (by simpa [hd] using himm), if_neg (by omega), if_neg (by omega), if_neg hlap, hj]
    rfl
  · obtain ⟨hr, h4, hl, h64⟩ := hf
    have he : exec (.evt cl f) s = .next ((s.inc (F.CL_SEQCNT_EVT_DROP cl.die cl.idx)).retire cl (s.pc cl + 4)) := by
      refine exec_ret (by rw [exec, execEvt]) rfl hr ?_
      dsimp only
      rw [if_neg (by simpa [hd] using himm), if_neg (by omega), if_neg (by omega), if_pos hlap]
    obtain ⟨hret, -, hframe⟩ := retire_steps_unchanged (s.inc (F.CL_SEQCNT_EVT_DROP cl.die cl.idx)) cl (s.pc cl + 4) h4 hl h64
    refine ⟨_, he, hret.of_sameRegs fun off hoff => State.wr_reg_ne _ _ _ ?_, hframe.ring_eq, hframe.mem_eq, ?_⟩
    · rintro rfl
      exact clSeqcnt_not_mem_retireRegs cl hoff
    · rw [hframe.2.2.1.rd_eq _ (clSeqcnt_not_mem_retireRegs cl)]
      exact State.rd_inc_self s (F.CL_SEQCNT_EVT_DROP cl.die cl.idx) (by simp [F.CL_SEQCNT_EVT_DROP])
  · refine exec_ret (by rw [exec, execEvt]) rfl hr ?_
    dsimp only
    rw [if_neg (by simpa [hd] using himm), if_neg (by omega), if_pos hsev, hj]
    rfl

/-- The bits of a number from its lower part and the field above it. -/
theorem place_bits_or_mod (w hi lo : Nat) (h : lo ≤ hi + 1) : place hi lo (bits w hi lo) ||| w % 2 ^ lo = w % 2 ^ (hi + 1) := by
  apply Nat.eq_of_testBit_eq
  intro i
  rw [Nat.testBit_or, testBit_place, testBit_bits, Nat.testBit_mod_two_pow, Nat.testBit_mod_two_pow]
  by_cases hl : lo ≤ i
  · rw [Nat.add_sub_cancel' hl]
    by_cases hh : i < hi + 1
    · have : i - lo < hi + 1 - lo := by omega
      simp [hl, hh, this]
    · have : ¬ i - lo < hi + 1 - lo := by omega
      have hn : ¬ i < lo := by omega
      simp [hh, this, hn]
  · have hh : i < hi + 1 := by omega
    have hn : i < lo := by omega
    simp [hl, hh, hn]

theorem place_lt (hi lo v n : Nat) (h : hi < n) : place hi lo v < 2 ^ n := by
  apply Nat.lt_pow_two_of_testBit
  intro i hi'
  rw [testBit_place]
  by_cases hl : lo ≤ i
  · have : ¬ i - lo < hi + 1 - lo := by omega
    simp [this]
  · simp [hl]

/-! The words of the formats and their fields: each way round (R180). -/

/-- The field of a word as a bit vector. -/
theorem toNat_ofNat_bits (w hi lo n : Nat) (h : n = hi + 1 - lo) : (BitVec.ofNat n (bits w hi lo)).toNat = bits w hi lo := by
  subst h
  exact Nat.mod_eq_of_lt (Nat.mod_lt _ (Nat.two_pow_pos _))

section
variable {w op : Nat} (hw : w < 2 ^ 32) (hop : bits w 31 25 = op)
include hw hop

/-- The opcode and the rest of a word. -/
theorem opcode_or_rest : place 31 25 op ||| w % 2 ^ 25 = w := by
  rw [← hop, place_bits_or_mod w 31 25 (by omega)]
  exact Nat.mod_eq_of_lt hw

theorem wordR_splitR : wordR op (splitR w) = w := by
  simp only [wordR, splitR, toNat_ofNat_bits, Nat.or_assoc, Nat.reduceAdd, Nat.reduceSub]
  rw [show place 9 0 (bits w 9 0) = w % 2 ^ 10 by simpa [Nat.mod_one] using place_bits_or_mod w 9 0 (by omega),
    place_bits_or_mod w 14 10 (by omega), place_bits_or_mod w 19 15 (by omega), place_bits_or_mod w 24 20 (by omega)]
  exact opcode_or_rest hw hop

/-- A word from its opcode, two fields of five bits and one of fifteen: formats I, S and B. -/
theorem word_5_5_15 : place 31 25 op ||| place 24 20 (bits w 24 20) ||| place 19 15 (bits w 19 15) ||| place 14 0 (bits w 14 0) = w := by
  simp only [Nat.or_assoc]
  rw [show place 14 0 (bits w 14 0) = w % 2 ^ 15 by simpa [Nat.mod_one] using place_bits_or_mod w 14 0 (by omega),
    place_bits_or_mod w 19 15 (by omega), place_bits_or_mod w 24 20 (by omega)]
  exact opcode_or_rest hw hop

theorem wordI_splitI : wordI op (splitI w) = w := by
  simpa only [wordI, splitI, toNat_ofNat_bits, Nat.reduceAdd, Nat.reduceSub] using word_5_5_15 hw hop

theorem wordS_splitS : wordS op (splitS w) = w := by
  simpa only [wordS, splitS, toNat_ofNat_bits, Nat.reduceAdd, Nat.reduceSub] using word_5_5_15 hw hop

theorem wordB_splitB : wordB op (splitB w) = w := by
  simpa only [wordB, splitB, toNat_ofNat_bits, Nat.reduceAdd, Nat.reduceSub] using word_5_5_15 hw hop

theorem wordU_splitU : wordU op (splitU w) = w := by
  simp only [wordU, splitU, toNat_ofNat_bits, Nat.or_assoc, Nat.reduceAdd, Nat.reduceSub]
  rw [show place 19 0 (bits w 19 0) = w % 2 ^ 20 by simpa [Nat.mod_one] using place_bits_or_mod w 19 0 (by omega),
    place_bits_or_mod w 24 20 (by omega)]
  exact opcode_or_rest hw hop

theorem word5_split5 : word5 op (split5 w) = w := by
  simp only [word5, split5, toNat_ofNat_bits, Nat.or_assoc, Nat.reduceAdd, Nat.reduceSub]
  rw [show place 4 0 (bits w 4 0) = w % 2 ^ 5 by simpa [Nat.mod_one] using place_bits_or_mod w 4 0 (by omega),
    place_bits_or_mod w 9 5 (by omega), place_bits_or_mod w 14 10 (by omega), place_bits_or_mod w 19 15 (by omega),
    place_bits_or_mod w 24 20 (by omega)]
  exact opcode_or_rest hw hop

end

/-- A field of as many bits as its value has. -/
theorem ofNat_bits_place {n : Nat} (hi lo : Nat) (v : BitVec n) (h : n = hi + 1 - lo) :
    BitVec.ofNat n (bits (place hi lo v.toNat) hi lo) = v := by
  rw [bits_place_self, ← h]
  simp

section
variable (op : Nat)

theorem splitR_wordR (f : FmtR) : splitR (wordR op f) = f := by
  simp [splitR, wordR, bits_or, ofNat_bits_place, bits_place_above, bits_place_below]

theorem splitI_wordI (f : FmtI) : splitI (wordI op f) = f := by
  simp [splitI, wordI, bits_or, ofNat_bits_place, bits_place_above, bits_place_below]

theorem splitS_wordS (f : FmtS) : splitS (wordS op f) = f := by
  simp [splitS, wordS, bits_or, ofNat_bits_place, bits_place_above, bits_place_below]

theorem splitB_wordB (f : FmtB) : splitB (wordB op f) = f := by
  simp [splitB, wordB, bits_or, ofNat_bits_place, bits_place_above, bits_place_below]

theorem splitU_wordU (f : FmtU) : splitU (wordU op f) = f := by
  simp [splitU, wordU, bits_or, ofNat_bits_place, bits_place_above, bits_place_below]

theorem split5_word5 (f : Fmt5) : split5 (word5 op f) = f := by
  simp [split5, word5, bits_or, ofNat_bits_place, bits_place_above, bits_place_below]

end

/-- The word of an instruction has 32 bits. -/
theorem insnWord_lt {i : Instr} {w : Nat} (h : insnWord i = some w) : w < 2 ^ 32 := by
  unfold insnWord at h
  split at h
  case h_65 => cases h
  all_goals
    obtain rfl := Option.some.inj h
    simp only [wordR, wordI, wordS, wordB, wordU, word5]
    repeat apply Nat.or_lt_two_pow
    all_goals exact place_lt _ _ _ 32 (by omega)

/-- A word decodes to the instruction that it encodes, whichever opcode it has. -/
theorem insnWord_insnOf {cl : ClusterId} {w : Nat} {i : Instr} (hw : w < 2 ^ 32) (h : insnOf cl w = some i) : insnWord i = some w := by
  unfold insnOf at h
  split at h
  case h_65 => cases h
  all_goals
    obtain rfl := Option.some.inj h
    simp only [insnWord, wordR_splitR hw ‹_›, wordI_splitI hw ‹_›, wordS_splitS hw ‹_›, wordB_splitB hw ‹_›, wordU_splitU hw ‹_›,
      word5_split5 hw ‹_›]

/-- An instruction is the one that its word decodes to for its own cluster. -/
theorem insnOf_insnWord {i : Instr} {w : Nat} (h : insnWord i = some w) : ∃ cl, insnOf cl w = some i := by
  unfold insnWord at h
  split at h
  case h_65 => cases h
  all_goals
    obtain rfl := Option.some.inj h
    simp [insnOf, opcode_wordR, opcode_wordI, opcode_wordS, opcode_wordB, opcode_wordU, opcode_word5, splitR_wordR, splitI_wordI,
      splitS_wordS, splitB_wordB, splitU_wordU, split5_word5]

/-- What every step of a fold over members of a list keeps, the fold keeps. -/
theorem foldl_keeps_of_mem {σ α τ : Type} (view : σ → τ) (f : σ → α → σ) (l : List α)
    (h : ∀ a ∈ l, ∀ x, view (f x a) = view x) (x : σ) : view (l.foldl f x) = view x := by
  induction l generalizing x with
  | nil => rfl
  | cons a l ih =>
    rw [List.forall_mem_cons] at h
    exact (ih h.2 (f x a)).trans (h.1 x)

/-! The registers of the weight epochs, which an abandoned cluster releases, are none of a cluster's own. -/

/-- `off` is the offset of no CDn_CD_EPOCH register. -/
def NotEpoch (off : Nat) : Prop := ∀ n j h, j < 16 → h < 256 → off ≠ Reg.CD_EPOCH n j h

/-- The registers of cluster `cl`, which lie in its own 2 KiB. -/
def ClRegs (cl : ClusterId) (off : Nat) : Prop := ∃ k, k < 0x800 ∧ off = 0x1010000 + 0x100000 * cl.die + 0x800 * cl.idx + k

theorem NotEpoch.of_clRegs {cl : ClusterId} {off : Nat} (hwf : cl.wf = true) (h : ClRegs cl off) : NotEpoch off := by
  obtain ⟨k, hk, rfl⟩ := h
  simp only [ClusterId.wf, Bool.and_eq_true, decide_eq_true_eq] at hwf
  intro n j h hj hh
  simp only [Reg.CD_EPOCH]
  omega

theorem NotEpoch.of_lt {off : Nat} (h : off < 0x1008000) : NotEpoch off := by
  intro n j k _ _
  simp only [Reg.CD_EPOCH]
  omega

/-- What every step of a fold keeps true, the fold keeps true. -/
theorem foldl_induct {σ α : Type} {P : σ → Prop} {f : σ → α → σ} (h : ∀ x a, P x → P (f x a)) (l : List α) {x : σ} (hx : P x) :
    P (l.foldl f x) := by
  induction l generalizing x with
  | nil => exact hx
  | cons a l ih => exact ih (h x a hx)

/-- Nothing but registers differs. -/
def SameButRegs (s t : State) : Prop := { t with regs := s.regs } = s

/-- Nothing but registers and the versions of the weight shards differs. -/
def SameButEpochs (s t : State) : Prop := { t with regs := s.regs, shards := s.shards } = s

section
variable {s : State}

theorem SameButRegs.refl : SameButRegs s s := rfl

theorem SameButRegs.cluster {t : State} (h : SameButRegs s t) : t.cluster = s.cluster := by
  have := congrArg State.cluster h
  exact this

theorem SameButEpochs.refl : SameButEpochs s s := rfl

theorem SameButEpochs.of_regs {t : State} (h : SameButRegs s t) : SameButEpochs s t := by
  have := congrArg (fun u : State => { u with shards := s.shards }) h
  exact this

theorem SameButEpochs.trans {t u : State} (h : SameButEpochs s t) (h' : SameButEpochs t u) : SameButEpochs s u := by
  have := congrArg (fun v : State => { v with regs := s.regs, shards := s.shards }) h'
  exact Eq.trans this h

theorem SameButEpochs.cluster {t : State} (h : SameButEpochs s t) : t.cluster = s.cluster := by
  have := congrArg State.cluster h
  exact this

theorem SameButEpochs.mem {t : State} (h : SameButEpochs s t) : t.mem = s.mem := by
  have := congrArg State.mem h
  exact this

theorem SameButEpochs.ring {t : State} (h : SameButEpochs s t) : t.ring = s.ring := by
  have := congrArg State.ring h
  exact this

theorem SameButEpochs.out {t : State} (h : SameButEpochs s t) : t.out = s.out := by
  have := congrArg State.out h
  exact this

end

section
variable (s : State)

theorem State.dropHolder_frame (cl : ClusterId) : SameButEpochs s (s.dropHolder cl) := by
  refine foldl_induct (P := SameButEpochs s) (fun t k h => ?_) _ .refl
  dsimp only
  split
  · exact h
  · exact h

theorem State.dropHolder_reg (cl : ClusterId) {off : Nat} (h : NotEpoch off) : (s.dropHolder cl).reg off = s.reg off := by
  unfold State.dropHolder
  refine foldl_keeps_of_mem (fun t : State => t.reg off) _ _ (fun k hk t => ?_) s
  obtain ⟨p, -, rfl⟩ := List.mem_map.mp hk
  dsimp only
  split
  · exact State.wr_reg_ne _ _ _ (h _ _ _ (Nat.mod_lt _ (by omega)) (Nat.mod_lt _ (by omega)))
  · rfl

theorem State.dropRef_frame {t : State} (h : SameButRegs s t) (j : Nat) (d : DqEnt) : SameButRegs s (t.dropRef j d) := by
  unfold State.dropRef
  split
  · exact h
  · exact h

theorem State.dropRef_reg {j : Nat} (d : DqEnt) {off : Nat} (hj : j < 16) (h : NotEpoch off) : (s.dropRef j d).reg off = s.reg off := by
  unfold State.dropRef
  split
  · exact State.wr_reg_ne _ _ _ (h _ _ _ hj (Nat.mod_lt _ (by omega)))
  · rfl

theorem State.slotOfCl_lt {cl : ClusterId} {j : Nat} (h : s.slotOfCl cl = some j) : j < 16 := by
  unfold State.slotOfCl State.slotOfPart at h
  exact List.mem_range.mp (List.mem_of_find?_eq_some h)

/-- The references that a cluster's outstanding DQs hold are given back. -/
def State.dropRefs (s : State) (cl : ClusterId) : State :=
  match s.slotOfCl cl with
  | some j => (s.cluster cl).dqs.foldl (fun (s : State) d => s.dropRef j d) s
  | none => s

/-- The slots of its accumulators that were BUSY are no longer. -/
def State.dropSlots (s : State) (cl : ClusterId) : State :=
  (List.range 16).foldl (fun (s : State) k => if s.slotCode cl k = 2 then s.setSlotCode cl k 1 else s) s

/-- The contents of a cluster whose work has been abandoned. -/
def ClusterSt.abandoned (c : ClusterSt) : ClusterSt := { c with
  aBuf := [], bBuf := [], loadQ := [], arrQ := [], wgq := [], readQ := [], castQ := [], vq := [], push := [], dqs := [],
  acc := [], chunkK := 0, chunk := none, chunkEnded := false, openSlot := none, arrOpen := false, drainPrio := false, latch := none, latchVals := [],
  hrdw := none }

theorem State.abandonCl_eq (cl : ClusterId) :
    s.abandonCl cl = ((((s.dropRefs cl).dropSlots cl).dropHolder cl).setCluster cl (s.cluster cl).abandoned).showCl cl := rfl

theorem State.dropRefs_frame (cl : ClusterId) : SameButRegs s (s.dropRefs cl) := by
  unfold State.dropRefs
  split
  · exact foldl_induct (P := SameButRegs s) (fun t d h => State.dropRef_frame s h _ d) _ .refl
  · exact .refl

theorem State.dropRefs_reg (cl : ClusterId) {off : Nat} (h : NotEpoch off) : (s.dropRefs cl).reg off = s.reg off := by
  unfold State.dropRefs
  split
  · exact foldl_keeps (fun t : State => t.reg off) _ (fun t d => State.dropRef_reg t d (s.slotOfCl_lt ‹_›) h) _ s
  · rfl

theorem State.dropSlots_frame (cl : ClusterId) : SameButRegs s (s.dropSlots cl) := by
  refine foldl_induct (P := SameButRegs s) (fun t k h => ?_) _ .refl
  split
  · exact h
  · exact h

theorem State.dropSlots_reg (cl : ClusterId) {off : Nat} (h : off ≠ Reg.CL_SLOTS cl.die cl.idx) : (s.dropSlots cl).reg off = s.reg off := by
  unfold State.dropSlots
  refine foldl_keeps (fun t : State => t.reg off) _ (fun t k => ?_) _ s
  split
  · exact State.wr_reg_ne _ _ _ h
  · rfl

/-- A field that says nothing of the queues reads the same when they are shown. -/
theorem State.showCl_rd (cl : ClusterId) (f : Fld) (hw : f.off ≠ Reg.CL_WGQ cl.die cl.idx) (hv : f.off ≠ Reg.CL_VSTATUS cl.die cl.idx)
    (hm : f.off = Reg.CL_STATUS cl.die cl.idx → f.hi < 49 ∨ 49 < f.lo) : (s.showCl cl).rd f = s.rd f := by
  unfold State.showCl
  dsimp only
  rw [State.rd_wr_ne _ _ _ _ hv, State.wrB]
  by_cases h : f.off = Reg.CL_STATUS cl.die cl.idx
  · rw [State.rd_wr_disj _ _ _ _ (by simp [F.CL_STATUS_MERGING]) (by simpa [F.CL_STATUS_MERGING] using hm h), State.rd_wr_ne _ _ _ _ hw,
      State.rd_wr_ne _ _ _ _ hw]
  · rw [State.rd_wr_ne _ _ _ _ h, State.rd_wr_ne _ _ _ _ hw, State.rd_wr_ne _ _ _ _ hw]

/-- Before the cluster's contents are written, abandoning its work has changed registers and the weight epochs' holders alone. -/
theorem State.abandoning_frame (cl : ClusterId) : SameButEpochs s (((s.dropRefs cl).dropSlots cl).dropHolder cl) :=
  .trans (.of_regs (s.dropRefs_frame cl)) (.trans (.of_regs (State.dropSlots_frame _ cl)) (State.dropHolder_frame _ cl))

theorem State.abandonCl_cluster (cl : ClusterId) : (s.abandonCl cl).cluster cl = (s.cluster cl).abandoned :=
  State.setCluster_cluster_self _ cl _

theorem State.abandonCl_mem (cl : ClusterId) : (s.abandonCl cl).mem = s.mem := (s.abandoning_frame cl).mem

theorem State.abandonCl_ring (cl : ClusterId) : (s.abandonCl cl).ring = s.ring := (s.abandoning_frame cl).ring

/-- A field of a register that says nothing of the cluster's queues, slots or weight epochs reads the same. -/
theorem State.abandonCl_rd (cl : ClusterId) (f : Fld) (he : NotEpoch f.off) (hs : f.off ≠ Reg.CL_SLOTS cl.die cl.idx)
    (hw : f.off ≠ Reg.CL_WGQ cl.die cl.idx) (hv : f.off ≠ Reg.CL_VSTATUS cl.die cl.idx)
    (hm : f.off = Reg.CL_STATUS cl.die cl.idx → f.hi < 49 ∨ 49 < f.lo) : (s.abandonCl cl).rd f = s.rd f := by
  rw [State.abandonCl_eq, State.showCl_rd _ cl f hw hv hm, State.setCluster_rd, State.rd, State.dropHolder_reg _ _ he,
    State.dropSlots_reg _ _ hs, State.dropRefs_reg _ _ he, State.rd]

end

/-! Exceptions (R231 to R233). -/

/-- The registers that record the exception of a cluster. -/
def State.excRegs (s : State) (cl : ClusterId) (word cause addr : Nat) : State :=
  let s1 := ((s.wr (F.CL_FAULT_CODE cl.die cl.idx) 0x0C30).wr (F.CL_FAULT_CAUSE cl.die cl.idx) cause).wr (F.CL_FAULT_ADDR cl.die cl.idx) addr
  (s1.wr (F.CL_EXC_INSN cl.die cl.idx) word).wr (F.CL_EXC_PC cl.die cl.idx) (s.pc cl)

/-- The state at which an exception of a cluster becomes an event: recorded, in FAULT, and with its work abandoned. -/
def State.excFault (s : State) (cl : ClusterId) (word cause addr : Nat) : State := ((s.excRegs cl word cause addr).setRun cl 6).abandonCl cl

/-- The record of an exception at `pc`, with the job and the logical index that `u` shows. -/
def State.excEvent (u : State) (cl : ClusterId) (pc word cause addr : Nat) : Ev :=
  ⟨3, 0x0C30, srcOf cl.die cl.idx, (u.slotOfCl cl).bind u.jobOf,
    place 7 0 cause ||| place 21 8 (pc / 4) ||| place 53 22 word ||| place 74 54 addr ||| place 81 75 (u.logical cl)⟩

section
variable (s : State) (cl : ClusterId) (word cause addr : Nat)

theorem State.excRegs_rd_ne (f : Fld) (hf : f.off ≠ Reg.CL_FAULT cl.die cl.idx) (he : f.off ≠ Reg.CL_EXC cl.die cl.idx) :
    (s.excRegs cl word cause addr).rd f = s.rd f := by
  unfold State.excRegs
  dsimp only
  rw [State.rd_wr_ne _ _ _ _ he, State.rd_wr_ne _ _ _ _ he, State.rd_wr_ne _ _ _ _ hf, State.rd_wr_ne _ _ _ _ hf, State.rd_wr_ne _ _ _ _ hf]

/-- What the exception's registers read. -/
theorem State.excRegs_rd :
    (s.excRegs cl word cause addr).rd (F.CL_FAULT_CODE cl.die cl.idx) = 0x0C30
      ∧ (s.excRegs cl word cause addr).rd (F.CL_FAULT_CAUSE cl.die cl.idx) = cause % 256
      ∧ (s.excRegs cl word cause addr).rd (F.CL_EXC_INSN cl.die cl.idx) = word % 2 ^ 32
      ∧ (s.excRegs cl word cause addr).rd (F.CL_EXC_PC cl.die cl.idx) = s.pc cl := by
  have hne : Reg.CL_FAULT cl.die cl.idx ≠ Reg.CL_EXC cl.die cl.idx := by
    simp only [Reg.CL_FAULT, Reg.CL_EXC]
    omega
  have hpc : s.pc cl < 2 ^ 32 := Nat.mod_lt _ (Nat.two_pow_pos _)
  unfold State.excRegs
  dsimp only
  refine ⟨?_, ?_, ?_, ?_⟩
  · rw [State.rd_wr_ne _ _ _ _ hne, State.rd_wr_ne _ _ _ _ hne,
      State.rd_wr_disj _ _ _ _ (by simp [F.CL_FAULT_ADDR]) (by simp [F.CL_FAULT_ADDR, F.CL_FAULT_CODE]),
      State.rd_wr_disj _ _ _ _ (by simp [F.CL_FAULT_CAUSE]) (by simp [F.CL_FAULT_CAUSE, F.CL_FAULT_CODE]),
      State.rd_wr_self _ _ _ (by simp [F.CL_FAULT_CODE])]
    rfl
  · rw [State.rd_wr_ne _ _ _ _ hne, State.rd_wr_ne _ _ _ _ hne,
      State.rd_wr_disj _ _ _ _ (by simp [F.CL_FAULT_ADDR]) (by simp [F.CL_FAULT_ADDR, F.CL_FAULT_CAUSE]),
      State.rd_wr_self _ _ _ (by simp [F.CL_FAULT_CAUSE])]
    rfl
  · rw [State.rd_wr_disj _ _ _ _ (by simp [F.CL_EXC_PC]) (by simp [F.CL_EXC_PC, F.CL_EXC_INSN]),
      State.rd_wr_self _ _ _ (by simp [F.CL_EXC_INSN])]
    rfl
  · rw [State.rd_wr_self _ _ _ (by simp [F.CL_EXC_PC])]
    exact Nat.mod_eq_of_lt hpc

/-- A field of a register of the cluster's own that says nothing of its queues or slots reads the same through an exception. -/
theorem State.excFault_rd (hwf : cl.wf = true) (f : Fld) (ho : ClRegs cl f.off) (hs : f.off ≠ Reg.CL_SLOTS cl.die cl.idx)
    (hw : f.off ≠ Reg.CL_WGQ cl.die cl.idx) (hv : f.off ≠ Reg.CL_VSTATUS cl.die cl.idx)
    (hm : f.off = Reg.CL_STATUS cl.die cl.idx → f.hi < 49 ∨ 49 < f.lo) :
    (s.excFault cl word cause addr).rd f = ((s.excRegs cl word cause addr).setRun cl 6).rd f :=
  State.abandonCl_rd _ cl f (.of_clRegs hwf ho) hs hw hv hm

/-- The slots' registers lie below every cluster's. -/
theorem State.excFault_slot_rd (f : Fld) (h : f.off < 0x1000000) : (s.excFault cl word cause addr).rd f = s.rd f := by
  have hne {k : Nat} (hk : 0x1010000 ≤ k) : f.off ≠ k := by omega
  unfold State.excFault
  rw [State.abandonCl_rd _ cl f (.of_lt (by omega)) (hne (by simp [Reg.CL_SLOTS]; omega)) (hne (by simp [Reg.CL_WGQ]; omega))
    (hne (by simp [Reg.CL_VSTATUS]; omega)) (fun he => absurd he (hne (by simp [Reg.CL_STATUS]; omega))),
    State.setRun_rd_ne _ _ _ _ (hne (by simp [Reg.CL_STATUS]; omega)),
    State.excRegs_rd_ne _ _ _ _ _ f (hne (by simp [Reg.CL_FAULT]; omega)) (hne (by simp [Reg.CL_EXC]; omega))]

/-- Which slot a cluster belongs to is read from the slots' registers. -/
theorem State.slotOfCl_congr {s t : State} (cl : ClusterId) (h : ∀ j, j < 16 → t.rd (F.STR_SLOT_PARTITIONS j) = s.rd (F.STR_SLOT_PARTITIONS j)) :
    t.slotOfCl cl = s.slotOfCl cl := by
  unfold State.slotOfCl State.slotOfPart
  have : ∀ l : List Nat, (∀ j ∈ l, j < 16) → l.find? (fun j => bit (t.rd (F.STR_SLOT_PARTITIONS j)) (clPart cl))
      = l.find? (fun j => bit (s.rd (F.STR_SLOT_PARTITIONS j)) (clPart cl)) := by
    intro l
    induction l with
    | nil => exact fun _ => rfl
    | cons j l ih =>
      intro hl
      rw [List.forall_mem_cons] at hl
      rw [List.find?_cons, List.find?_cons, h j hl.1, ih hl.2]
  exact this _ fun j => List.mem_range.mp

theorem State.jobOf_congr {s t : State} {j : Nat} (ha : t.rd (F.STR_SLOT_ACTIVE j) = s.rd (F.STR_SLOT_ACTIVE j))
    (hj : t.rd (F.STR_SLOT_JOB_ID j) = s.rd (F.STR_SLOT_JOB_ID j)) : t.jobOf j = s.jobOf j := by
  rw [State.jobOf, ha, hj, State.jobOf]

theorem strSlot_lt {j : Nat} (h : j < 16) : Reg.STR_SLOT j < 0x1000000 := by
  simp only [Reg.STR_SLOT]
  omega

theorem State.excFault_slotOfCl : (s.excFault cl word cause addr).slotOfCl cl = s.slotOfCl cl :=
  State.slotOfCl_congr cl fun _ hj => s.excFault_slot_rd cl word cause addr _ (strSlot_lt hj)

theorem State.excFault_logical (hwf : cl.wf = true) : (s.excFault cl word cause addr).logical cl = s.logical cl := by
  rw [State.logical, s.excFault_rd cl word cause addr hwf _ ⟨0, by omega, rfl⟩ (by simp [F.CL_STATUS_LOGICAL, Reg.CL_STATUS, Reg.CL_SLOTS])
    (by simp [F.CL_STATUS_LOGICAL, Reg.CL_STATUS, Reg.CL_WGQ]) (by simp [F.CL_STATUS_LOGICAL, Reg.CL_STATUS, Reg.CL_VSTATUS])
    (by simp [F.CL_STATUS_LOGICAL]), State.setRun, State.rd_wr_disj _ _ _ _ (by simp [F.CL_STATUS_RUN])
    (by simp [F.CL_STATUS_RUN, F.CL_STATUS_LOGICAL]), State.excRegs_rd_ne _ _ _ _ _ _
    (by simp [F.CL_STATUS_LOGICAL, Reg.CL_STATUS, Reg.CL_FAULT]) (by simp [F.CL_STATUS_LOGICAL, Reg.CL_STATUS, Reg.CL_EXC]), State.logical]

theorem State.excFault_event (hwf : cl.wf = true) (pc : Nat) :
    (s.excFault cl word cause addr).excEvent cl pc word cause addr = s.excEvent cl pc word cause addr := by
  have hjob : (s.slotOfCl cl).bind (s.excFault cl word cause addr).jobOf = (s.slotOfCl cl).bind s.jobOf := by
    cases hj : s.slotOfCl cl with
    | none => rfl
    | some j =>
      have hlt := s.slotOfCl_lt hj
      exact State.jobOf_congr (s.excFault_slot_rd cl word cause addr _ (strSlot_lt hlt)) (s.excFault_slot_rd cl word cause addr _ (strSlot_lt hlt))
  rw [State.excEvent, s.excFault_slotOfCl, hjob, s.excFault_logical cl word cause addr hwf, State.excEvent]

/-- An exception is its record in the registers and FAULT, then its event, which stops the job of the cluster's slot. -/
theorem State.raise_eq (hwf : cl.wf = true) : s.raise cl word cause addr =
    (match s.slotOfCl cl with
    | some j => (s.excFault cl word cause addr).failJob j (s.excEvent cl (s.pc cl) word cause addr)
    | none => (s.excFault cl word cause addr).emit (s.excEvent cl (s.pc cl) word cause addr)) := by
  have hraise : s.raise cl word cause addr = (match (s.excFault cl word cause addr).slotOfCl cl with
    | some j => (s.excFault cl word cause addr).failJob j ((s.excFault cl word cause addr).excEvent cl (s.pc cl) word cause addr)
    | none => (s.excFault cl word cause addr).emit ((s.excFault cl word cause addr).excEvent cl (s.pc cl) word cause addr)) := rfl
  rw [hraise, s.excFault_event cl word cause addr hwf, s.excFault_slotOfCl]

/-- What stands in the cluster, its registers and memory when an exception becomes an event. -/
theorem State.excFault_spec (hwf : cl.wf = true) : let u := s.excFault cl word cause addr
    u.rd (F.CL_FAULT_CODE cl.die cl.idx) = 0x0C30 ∧ u.rd (F.CL_FAULT_CAUSE cl.die cl.idx) = cause % 256
      ∧ u.rd (F.CL_EXC_INSN cl.die cl.idx) = word % 2 ^ 32 ∧ u.rd (F.CL_EXC_PC cl.die cl.idx) = s.pc cl ∧ u.run cl = 6
      ∧ u.cluster cl = (s.cluster cl).abandoned ∧ u.mem = s.mem ∧ u.ring = s.ring := by
  obtain ⟨hcode, hcause, hinsn, hpc⟩ := s.excRegs_rd cl word cause addr
  have hrd (f : Fld) {k : Nat} (hk : f.off = 0x1010000 + 0x100000 * cl.die + 0x800 * cl.idx + k) (hn : k = 0x10 ∨ k = 0x38) :
      (s.excFault cl word cause addr).rd f = (s.excRegs cl word cause addr).rd f := by
    rw [s.excFault_rd cl word cause addr hwf f ⟨k, by omega, hk⟩ (by simp only [Reg.CL_SLOTS]; omega) (by simp only [Reg.CL_WGQ]; omega)
      (by simp only [Reg.CL_VSTATUS]; omega) (fun h => by simp only [Reg.CL_STATUS] at h; omega),
      State.setRun_rd_ne _ _ _ _ (by simp only [Reg.CL_STATUS]; omega)]
  have hfault : Reg.CL_FAULT cl.die cl.idx = 0x1010000 + 0x100000 * cl.die + 0x800 * cl.idx + 0x10 := by
    simp only [Reg.CL_FAULT]
    omega
  have hexc : Reg.CL_EXC cl.die cl.idx = 0x1010000 + 0x100000 * cl.die + 0x800 * cl.idx + 0x38 := by
    simp only [Reg.CL_EXC]
    omega
  refine ⟨(hrd _ hfault (.inl rfl)).trans hcode, (hrd _ hfault (.inl rfl)).trans hcause, (hrd _ hexc (.inr rfl)).trans hinsn,
    (hrd _ hexc (.inr rfl)).trans hpc, ?_, State.abandonCl_cluster _ cl, State.abandonCl_mem _ cl, State.abandonCl_ring _ cl⟩
  rw [State.run, s.excFault_rd cl word cause addr hwf _ ⟨0, by omega, rfl⟩ (by simp [F.CL_STATUS_RUN, Reg.CL_STATUS, Reg.CL_SLOTS])
    (by simp [F.CL_STATUS_RUN, Reg.CL_STATUS, Reg.CL_WGQ]) (by simp [F.CL_STATUS_RUN, Reg.CL_STATUS, Reg.CL_VSTATUS])
    (by simp [F.CL_STATUS_RUN])]
  exact State.setRun_run _ cl (by omega)

end

/-! A PC or a target where no instruction of the image stands (R186). -/

/-- PC and the count of retired instructions moved on. -/
def State.retirePc (s : State) (cl : ClusterId) (target : Nat) : State :=
  let s1 := (s.endQueueWait cl).wr (F.CL_STATUS_PC cl.die cl.idx) (target % 2 ^ 32)
  s1.wr (F.CL_RETIRED_COUNT cl.die cl.idx) (s1.rd (F.CL_RETIRED_COUNT cl.die cl.idx) + 1)

section
variable (s : State) (cl : ClusterId) (target : Nat)

theorem State.retirePc_cluster : (s.retirePc cl target).cluster cl = s.cluster cl := State.endQueueWait_cluster s cl cl

theorem State.retirePc_free : (s.retirePc cl target).free = s.free := State.endQueueWait_free s cl

theorem State.retirePc_run : (s.retirePc cl target).run cl = s.run cl := by
  unfold State.retirePc
  dsimp only
  rw [State.run, State.rd_wr_ne _ _ _ _ (clStatus_ne_retired _ _).symm, State.rd_wr_disj _ _ _ _ (by simp [F.CL_STATUS_PC])
    (by simp [F.CL_STATUS_PC, F.CL_STATUS_RUN]), State.endQueueWait_rd_ne _ _ _ (clWait_ne_status _ _).symm, State.run]

theorem State.retirePc_pc : (s.retirePc cl target).pc cl = target % 2 ^ 32 := by
  unfold State.retirePc
  dsimp only
  rw [State.pc, State.rd_wr_ne _ _ _ _ (clStatus_ne_retired _ _).symm, State.rd_wr_self _ _ _ (by simp [F.CL_STATUS_PC])]
  exact Nat.mod_mod _ _

/-- Retiring counts the instruction, and raises FETCH where the cluster runs on outside its image. -/
theorem State.retire_eq : s.retire cl target =
    if (decide (target % 4 = 0) && decide (target < (s.cluster cl).code.length)) || decide (s.run cl ≠ 1) then
      (s.retirePc cl target).setCluster cl { s.cluster cl with icount := (s.cluster cl).icount + 1 }
    else ((s.retirePc cl target).setCluster cl { s.cluster cl with icount := (s.cluster cl).icount + 1 }).raiseFetch cl target := by
  have hrun (c : ClusterSt) : ((s.retirePc cl target).setCluster cl c).run cl = s.run cl :=
    (State.setCluster_rd _ cl c _).trans (s.retirePc_run cl target)
  unfold State.retire
  change (let s2 := s.retirePc cl target
    let c := s2.cluster cl
    let s3 := s2.setCluster cl { c with icount := c.icount + 1 }
    if (target % 4 = 0 && target < c.code.length) || s3.run cl ≠ 1 then s3 else s3.raiseFetch cl target) = _
  dsimp only
  rw [hrun, State.retirePc_cluster]

end

/-- Retiring to a target outside the image, while the cluster runs, raises FETCH at the target. -/
theorem retire_outside (s : State) (cl : ClusterId) (target : Nat) (hl : (s.cluster cl).code.length ≤ target) (ht : target < 2 ^ 32)
    (hr : s.run cl = 1) : ∃ u : State, s.retire cl target = u.raiseFetch cl target ∧ u.free = s.free ∧ u.pc cl = target
      ∧ u.cluster cl = { s.cluster cl with icount := (s.cluster cl).icount + 1 } := by
  have hpc (c : ClusterSt) : ((s.retirePc cl target).setCluster cl c).pc cl = target % 2 ^ 32 :=
    (State.setCluster_rd _ cl c _).trans (s.retirePc_pc cl target)
  refine ⟨(s.retirePc cl target).setCluster cl { s.cluster cl with icount := (s.cluster cl).icount + 1 }, ?_,
    by rw [State.setCluster_free, State.retirePc_free], by rw [hpc, Nat.mod_eq_of_lt ht], State.setCluster_cluster_self _ cl _⟩
  have hout : decide (target < (s.cluster cl).code.length) = false := by simpa using hl
  rw [State.retire_eq, hout, hr]
  simp

/-- A word that no instruction has raises ILLEGAL at the instruction, and no word at all raises FETCH at PC. -/
theorem issue_noInsn {s : State} {cl : ClusterId} (hc : s.canIssue cl = true) {i : Instr}
    (hi : ∃ word body, exec i s = s.issue cl word body) :
    (∀ w, s.fetched cl = some w → insnOf cl w = none → exec i s = .next (s.raise cl w 16 0))
      ∧ (s.fetched cl = none → exec i s = .next (s.raiseFetch cl (s.pc cl))) := by
  obtain ⟨word, body, hi⟩ := hi
  rw [hi]
  unfold State.issue
  rw [if_pos hc]
  refine ⟨fun w hw hn => ?_, fun hw => ?_⟩
  · simp [hw, hn]
  · simp [hw]

theorem aluFn_eq_none {fn : Nat} (h : 18 ≤ fn) (a b : Word) : aluFn fn a b = none := by
  obtain ⟨n, rfl⟩ := Nat.exists_eq_add_of_le' h
  rfl

/-- R174 names no special register from 0x018 on. -/
theorem State.special_eq_none (s : State) (cl : ClusterId) (j : Nat) {n : Nat} (h : 0x18 ≤ n) : s.special cl j n = none := by
  obtain ⟨n, rfl⟩ := Nat.exists_eq_add_of_le' h
  rfl

/-- Settles O16: the words and their fields go each way; an exception is `State.raise_eq`; a body that answers `exc` raises it, and so
does a word that no instruction has. -/
theorem exceptions : Obligations.Exceptions := by
  refine ⟨fun cl w i hw h => insnWord_insnOf hw h, fun i w h => ⟨insnWord_lt h, insnOf_insnWord h⟩, fun s cl word cause addr hwf => ?_,
    fun s cl => ⟨fun f hr hfn => ?_, fun f hr hn => ?_, fun f hr hn => ?_, fun f hr hal => ?_, fun r m b u x v hc => ?_⟩,
    fun s cl f hr h0 hlt hl => ?_⟩
  · obtain ⟨hcode, hcause, hinsn, hpc, hrun, hcl, hmem, hring⟩ := s.excFault_spec cl word cause addr hwf
    refine ⟨s.excFault cl word cause addr, s.excEvent cl (s.pc cl) word cause addr, s.raise_eq cl word cause addr hwf, rfl, rfl, rfl, rfl,
      hcode, hcause, hinsn, hpc, hrun, ?_⟩
    rw [hcl]
    exact ⟨rfl, rfl, rfl, rfl, rfl, rfl, hmem, hring⟩
  · refine exec_exc (by rw [exec, execAlu]) rfl hr ?_
    rw [aluFn_eq_none hfn]
    rfl
  · refine exec_exc (by rw [exec, execSrd]) rfl hr ?_
    rw [State.special_eq_none s cl _ hn]
    rfl
  · exact exec_exc (by rw [exec, execShli, shiftOp]) rfl hr (if_pos hn)
  · refine exec_exc (by rw [exec, execLd, loadOp]) rfl hr ?_
    dsimp only
    rw [if_pos hal]
  · simp only [List.forall_mem_cons]
    refine ⟨issue_noInsn hc ⟨_, _, by rw [exec, execAlu]⟩, issue_noInsn hc ⟨_, _, by rw [exec, execAddi, immOp]⟩,
      issue_noInsn hc ⟨_, _, by rw [exec, execBeq, branchOp]⟩, issue_noInsn hc ⟨_, _, by rw [exec, execLui]⟩,
      issue_noInsn hc ⟨_, _, by rw [exec, execSt, storeOp]⟩, issue_noInsn hc ⟨_, _, by rw [exec, execMma, issueProduct]⟩,
      issue_noInsn hc ⟨_, _, by rw [exec, execVfv]⟩, by simp⟩
  · obtain ⟨target, ht⟩ : ∃ n : Nat, (s.pc cl : Int) + 4 * f.imm.toInt = n := ⟨_, (Int.toNat_of_nonneg h0).symm⟩
    rw [ht, Int.toNat_natCast] at hl
    rw [ht, Int.toNat_natCast]
    have hbranch : branchTarget (s.pc cl) f.imm.toInt = target := branchTarget_eq ht.symm (by omega)
    have hrun : s.run cl = 1 := by
      simp only [State.ready, State.canIssue, Bool.and_eq_true, beq_iff_eq] at hr
      exact hr.1.1.1.1
    obtain ⟨u, hu, hfree, hpc, hcl⟩ := retire_outside (s.setCluster cl ((s.cluster cl).setS f.rd (BitVec.ofNat 64 (s.pc cl + 4)))) cl target
      (by rw [State.setCluster_cluster_self, ClusterSt.setS_code]; exact hl) (by omega) hrun
    refine ⟨u.tick, ?_, hpc, ?_⟩
    · rw [exec, execJal, issue_ready s cl _ _ _ hr rfl (insnOf_isSome_of_insnWord cl (i := .jal cl f) rfl)]
      dsimp only
      rw [hbranch, hu, State.raiseFetch, State.freeNat, hfree]
      rfl
    · have : u.tick.cluster cl = u.cluster cl := rfl
      rw [this, hcl, State.setCluster_cluster_self]
      exact (ClusterSt.sreg_setS _ _ _ _).trans (by simp)

end Sys2Proof.Machine
end

section

/-! SUPPORT. The vector engine at issue (O17 to O19): what an instruction shows in CDn_CL_VSTATUS and CDn_CL_VCNT, its entry in the vector queue, and the results that it writes. -/
namespace Sys2Proof.Machine
open Sys2Proof

/-! A vector instruction at issue (R176, R178, R242 to R248): what it shows in CDn_CL_VSTATUS and CDn_CL_VCNT, and its entry in the vector queue. -/

theorem OnlyCluster.trans {cl : ClusterId} {os os' : List Nat} {n m : Nat} {s t u : State} (h : OnlyCluster cl os n s t)
    (h' : OnlyCluster cl os' m t u) : OnlyCluster cl (os ++ os') (n + m) s u := by
  obtain ⟨heq, hfree, hregs, hcl⟩ := h
  obtain ⟨heq', hfree', hregs', hcl'⟩ := h'
  refine ⟨?_, hfree'.trans ((congrArg (· + m) hfree).trans (Nat.add_assoc _ _ _)), fun off hoff => ?_, fun k hk => (hcl' k hk).trans (hcl k hk)⟩
  · have := congrArg (fun v : State => { v with regs := s.regs, clusters := s.clusters, free := s.free }) heq'
    exact Eq.trans this heq
  · rw [List.mem_append, not_or] at hoff
    rw [hregs' off hoff.2, hregs off hoff.1]

theorem OnlyCluster.mono {cl : ClusterId} {os os' : List Nat} {n : Nat} {s t : State} (h : OnlyCluster cl os n s t) (hs : ∀ o ∈ os, o ∈ os') :
    OnlyCluster cl os' n s t := by
  obtain ⟨heq, hfree, hregs, hcl⟩ := h
  exact ⟨heq, hfree, fun off hoff => hregs off fun ho => hoff (hs off ho), hcl⟩

/-- A cluster's contents are written, and then registers at `offs` alone. -/
theorem OnlyCluster.setCluster {cl : ClusterId} {c : ClusterSt} {offs : List Nat} {s t : State} (h : SameButRegs (s.setCluster cl c) t)
    (hr : ∀ off, off ∉ offs → t.reg off = s.reg off) : OnlyCluster cl offs 0 s t := by
  have heq := congrArg (fun v : State => { v with regs := s.regs, clusters := s.clusters, free := s.free }) h
  have hfree : t.free = s.free := by
    have := congrArg State.free h
    exact this
  have hcl : t.clusters = (s.setCluster cl c).clusters := by
    have := congrArg State.clusters h
    exact this
  refine ⟨heq, hfree, hr, fun k hk => ?_⟩
  rw [hcl]
  exact SameClusters.setCluster s cl c k hk

section
variable (s : State) (cl : ClusterId)

theorem SameButRegs.wr {s t : State} (h : SameButRegs s t) (f : Fld) (v : Nat) : SameButRegs s (t.wr f v) := h

theorem SameButRegs.inc {s t : State} (h : SameButRegs s t) (f : Fld) : SameButRegs s (t.inc f) := h.wr _ _

theorem State.showVflags_frame {t : State} (h : SameButRegs s t) : SameButRegs s (t.showVflags cl) :=
  ((((h.wr _ _).wr _ _).wr _ _).wr _ _)

theorem State.showVflags_reg_ne {off : Nat} (h : off ≠ Reg.CL_VSTATUS cl.die cl.idx) : (s.showVflags cl).reg off = s.reg off := by
  simp [State.showVflags, State.wrB, State.wr_reg, F.CL_VSTATUS_NV, F.CL_VSTATUS_DZ, F.CL_VSTATUS_OF, F.CL_VSTATUS_NFW, h]

theorem State.rd_wrB_self (f : Fld) (b : Bool) (h : f.hi < 64) (hw : f.lo ≤ f.hi) : (s.wrB f b).rd f = b2n b := by
  rw [State.wrB, State.rd_wr_self _ _ _ h]
  refine Nat.mod_eq_of_lt (Nat.lt_of_lt_of_le (m := 2) ?_ ?_)
  · cases b <;> decide
  · exact Nat.le_self_pow (show f.hi + 1 - f.lo ≠ 0 by omega) 2

/-- VFLAGS of the cluster's contents are shown. -/
theorem State.showVflags_shown : VFlagsShown (s.showVflags cl) cl (s.cluster cl) := by
  unfold State.showVflags
  refine ⟨?_, ?_, ?_, ?_⟩ <;> dsimp only [State.wrB]
  · rw [State.rd_wr_disj _ _ _ _ (by simp [F.CL_VSTATUS_NFW]) (by simp [F.CL_VSTATUS_NFW, F.CL_VSTATUS_NV]),
      State.rd_wr_disj _ _ _ _ (by simp [F.CL_VSTATUS_OF]) (by simp [F.CL_VSTATUS_OF, F.CL_VSTATUS_NV]),
      State.rd_wr_disj _ _ _ _ (by simp [F.CL_VSTATUS_DZ]) (by simp [F.CL_VSTATUS_DZ, F.CL_VSTATUS_NV])]
    exact State.rd_wrB_self _ _ _ (by simp [F.CL_VSTATUS_NV]) (by simp [F.CL_VSTATUS_NV])
  · rw [State.rd_wr_disj _ _ _ _ (by simp [F.CL_VSTATUS_NFW]) (by simp [F.CL_VSTATUS_NFW, F.CL_VSTATUS_DZ]),
      State.rd_wr_disj _ _ _ _ (by simp [F.CL_VSTATUS_OF]) (by simp [F.CL_VSTATUS_OF, F.CL_VSTATUS_DZ])]
    exact State.rd_wrB_self _ _ _ (by simp [F.CL_VSTATUS_DZ]) (by simp [F.CL_VSTATUS_DZ])
  · rw [State.rd_wr_disj _ _ _ _ (by simp [F.CL_VSTATUS_NFW]) (by simp [F.CL_VSTATUS_NFW, F.CL_VSTATUS_OF])]
    exact State.rd_wrB_self _ _ _ (by simp [F.CL_VSTATUS_OF]) (by simp [F.CL_VSTATUS_OF])
  · exact State.rd_wrB_self _ _ _ (by simp [F.CL_VSTATUS_NFW]) (by simp [F.CL_VSTATUS_NFW])

/-- CDn_CL_VSTATUS and CDn_CL_VCNT show that an instruction with VL and VTYPE has left the queue. -/
def State.vshow (s : State) (cl : ClusterId) (vl vtype : Nat) : State :=
  (((s.wr (F.CL_VSTATUS_VL cl.die cl.idx) vl).wr (F.CL_VSTATUS_SEW cl.die cl.idx) (vtype % 4)).wr
    (F.CL_VSTATUS_KIND cl.die cl.idx) (vtype / 4)).inc (F.CL_VCNT_ISSUED cl.die cl.idx)

theorem State.vleave_eq (v : VEnt) : s.vleave cl v = if v.loadStore then
    ((s.vshow cl v.vl v.vtype).tick).add (F.CL_VCNT_BANKWAIT cl.die cl.idx) ((s.vshow cl v.vl v.vtype).freeNat 0)
    else s.vshow cl v.vl v.vtype := rfl

theorem State.vshow_frame {t : State} (h : SameButRegs s t) (vl vtype : Nat) : SameButRegs s (t.vshow cl vl vtype) :=
  ((((h.wr _ _).wr _ _).wr _ _).inc _)

/-- A field of another register than CDn_CL_VSTATUS and CDn_CL_VCNT, or of VFLAGS or the queue, reads the same. -/
theorem State.vshow_rd (vl vtype : Nat) (f : Fld) (hv : f.off = Reg.CL_VSTATUS cl.die cl.idx → f.hi < 51)
    (hc : f.off ≠ Reg.CL_VCNT cl.die cl.idx) : (s.vshow cl vl vtype).rd f = s.rd f := by
  have hvs {lo : Nat} (h : f.off = Reg.CL_VSTATUS cl.die cl.idx) (hlo : 51 ≤ lo) : f.hi < lo := by
    have := hv h
    omega
  rw [State.vshow, State.inc, State.add, State.rd_wr_ne _ _ _ _ hc]
  by_cases h : f.off = Reg.CL_VSTATUS cl.die cl.idx
  · rw [State.rd_wr_disj _ _ _ _ (by simp [F.CL_VSTATUS_KIND]) (.inl (hvs h (by simp [F.CL_VSTATUS_KIND]))),
      State.rd_wr_disj _ _ _ _ (by simp [F.CL_VSTATUS_SEW]) (.inl (hvs h (by simp [F.CL_VSTATUS_SEW]))),
      State.rd_wr_disj _ _ _ _ (by simp [F.CL_VSTATUS_VL]) (.inl (hvs h (by simp [F.CL_VSTATUS_VL])))]
  · rw [State.rd_wr_ne _ _ _ _ h, State.rd_wr_ne _ _ _ _ h, State.rd_wr_ne _ _ _ _ h]

theorem State.vshow_reg_ne (vl vtype : Nat) {off : Nat} (hv : off ≠ Reg.CL_VSTATUS cl.die cl.idx) (hc : off ≠ Reg.CL_VCNT cl.die cl.idx) :
    (s.vshow cl vl vtype).reg off = s.reg off := by
  simp [State.vshow, State.inc, State.add, State.wr_reg, F.CL_VSTATUS_VL, F.CL_VSTATUS_SEW, F.CL_VSTATUS_KIND, F.CL_VCNT_ISSUED, hv, hc]

theorem clVstatus_ne_vcnt : Reg.CL_VSTATUS cl.die cl.idx ≠ Reg.CL_VCNT cl.die cl.idx := by
  simp only [Reg.CL_VSTATUS, Reg.CL_VCNT]
  omega

theorem State.vshow_vl (vl vtype : Nat) : (s.vshow cl vl vtype).rd (F.CL_VSTATUS_VL cl.die cl.idx) = vl % 2 ^ 9 := by
  rw [State.vshow, State.inc, State.add, State.rd_wr_ne _ _ _ _ (clVstatus_ne_vcnt cl),
    State.rd_wr_disj _ _ _ _ (by simp [F.CL_VSTATUS_KIND]) (by simp [F.CL_VSTATUS_KIND, F.CL_VSTATUS_VL]),
    State.rd_wr_disj _ _ _ _ (by simp [F.CL_VSTATUS_SEW]) (by simp [F.CL_VSTATUS_SEW, F.CL_VSTATUS_VL]),
    State.rd_wr_self _ _ _ (by simp [F.CL_VSTATUS_VL])]
  rfl

theorem State.vshow_issued (vl vtype : Nat) : (s.vshow cl vl vtype).rd (F.CL_VCNT_ISSUED cl.die cl.idx) =
    min (s.rd (F.CL_VCNT_ISSUED cl.die cl.idx) + 1) (2 ^ 32 - 1) := by
  rw [State.vshow, State.rd_inc_self _ _ (by simp [F.CL_VCNT_ISSUED]), State.rd_wr_ne _ _ _ _ (clVstatus_ne_vcnt cl).symm,
    State.rd_wr_ne _ _ _ _ (clVstatus_ne_vcnt cl).symm, State.rd_wr_ne _ _ _ _ (clVstatus_ne_vcnt cl).symm]
  rfl

end

section
variable {cl : ClusterId} {offs : List Nat} {n : Nat} {s t : State}

theorem OnlyCluster.of_setCluster (c : ClusterSt) : OnlyCluster cl offs 0 s (s.setCluster cl c) :=
  ⟨rfl, rfl, fun _ _ => State.setCluster_reg _ _ _ _, SameClusters.setCluster s cl c⟩

theorem OnlyCluster.wr (h : OnlyCluster cl offs n s t) {f : Fld} (hf : f.off ∈ offs) (v : Nat) : OnlyCluster cl offs n s (t.wr f v) := by
  obtain ⟨heq, hfree, hregs, hcl⟩ := h
  refine ⟨heq, hfree, fun off hoff => ?_, hcl⟩
  rw [State.wr_reg_ne _ _ _ (ne_of_mem_of_not_mem hf hoff).symm, hregs off hoff]

theorem OnlyCluster.tick (h : OnlyCluster cl offs n s t) : OnlyCluster cl offs (n + 1) s t.tick := by
  obtain ⟨heq, hfree, hregs, hcl⟩ := h
  exact ⟨heq, congrArg (· + 1) hfree, hregs, hcl⟩

/-- Writing the cluster's contents again. -/
theorem OnlyCluster.setCluster' (h : OnlyCluster cl offs n s t) (c : ClusterSt) : OnlyCluster cl offs n s (t.setCluster cl c) := by
  obtain ⟨heq, hfree, hregs, hcl⟩ := h
  refine ⟨heq, hfree, fun off hoff => ?_, fun k hk => ?_⟩
  · rw [State.setCluster_reg, hregs off hoff]
  · rw [SameClusters.setCluster t cl c k hk, hcl k hk]

theorem OnlyCluster.showVflags (h : OnlyCluster cl offs n s t) (hv : Reg.CL_VSTATUS cl.die cl.idx ∈ offs) :
    OnlyCluster cl offs n s (t.showVflags cl) :=
  (((h.wr hv _).wr hv _).wr hv _).wr hv _

theorem OnlyCluster.vleave (h : OnlyCluster cl offs n s t) (hv : Reg.CL_VSTATUS cl.die cl.idx ∈ offs) (hc : Reg.CL_VCNT cl.die cl.idx ∈ offs)
    (v : VEnt) : OnlyCluster cl offs (n + b2n v.loadStore) s (t.vleave cl v) := by
  have hshow : OnlyCluster cl offs n s (t.vshow cl v.vl v.vtype) := (((h.wr hv _).wr hv _).wr hv _).wr hc _
  rw [State.vleave_eq]
  cases v.loadStore with
  | false => exact hshow
  | true => exact hshow.tick.wr hc _

theorem OnlyCluster.showCl (h : OnlyCluster cl offs n s t) (hs : Reg.CL_STATUS cl.die cl.idx ∈ offs) (hw : Reg.CL_WGQ cl.die cl.idx ∈ offs)
    (hv : Reg.CL_VSTATUS cl.die cl.idx ∈ offs) : OnlyCluster cl offs n s (t.showCl cl) :=
  (((h.wr hw _).wr hw _).wr hs _).wr hv _

end

section
variable {s t : State} {cl : ClusterId} {target : Nat} (h : Retired s t cl target)
include h

theorem Retired.pc (hlt : target < 2 ^ 32) : t.pc cl = target := by
  have hbits := bits_putBits_self (s.reg (Reg.CL_STATUS cl.die cl.idx)) 31 0 target (by omega)
  rw [← h.1] at hbits
  exact hbits.trans (Nat.mod_eq_of_lt hlt)

theorem Retired.run : t.run cl = s.run cl := by
  have hbits := bits_putBits_ne (s.reg (Reg.CL_STATUS cl.die cl.idx)) 31 0 target 53 51 (by omega) (by omega)
  rw [← h.1] at hbits
  exact hbits

end

/-- None of the registers that a vector instruction shows itself in is one that a retired instruction writes, but the queue's in CDn_CL_STATUS. -/
theorem clVstatus_not_mem_retireRegs (cl : ClusterId) : Reg.CL_VSTATUS cl.die cl.idx ∉ retireRegs cl := by
  simp only [retireRegs, Reg.CL_VSTATUS, Reg.CL_STATUS, Reg.CL_RETIRED, Reg.CL_WAIT, List.mem_cons, List.not_mem_nil, or_false]
  omega

theorem clVcnt_not_mem_retireRegs (cl : ClusterId) : Reg.CL_VCNT cl.die cl.idx ∉ retireRegs cl := by
  simp only [retireRegs, Reg.CL_VCNT, Reg.CL_STATUS, Reg.CL_RETIRED, Reg.CL_WAIT, List.mem_cons, List.not_mem_nil, or_false]
  omega

/-- VFLAGS are shown by whatever leaves CDn_CL_VSTATUS as it was. -/
theorem VFlagsShown.of_rd {s t : State} {cl : ClusterId} {c : ClusterSt} (h : VFlagsShown s cl c)
    (hr : ∀ f : Fld, f.off = Reg.CL_VSTATUS cl.die cl.idx → f.hi < 51 → 46 < f.lo → t.rd f = s.rd f) : VFlagsShown t cl c := by
  obtain ⟨h1, h2, h3, h4⟩ := h
  refine ⟨?_, ?_, ?_, ?_⟩
  · rw [hr _ rfl (by simp [F.CL_VSTATUS_NV]) (by simp [F.CL_VSTATUS_NV]), h1]
  · rw [hr _ rfl (by simp [F.CL_VSTATUS_DZ]) (by simp [F.CL_VSTATUS_DZ]), h2]
  · rw [hr _ rfl (by simp [F.CL_VSTATUS_OF]) (by simp [F.CL_VSTATUS_OF]), h3]
  · rw [hr _ rfl (by simp [F.CL_VSTATUS_NFW]) (by simp [F.CL_VSTATUS_NFW]), h4]

section
variable (s : State) (cl : ClusterId) (c : ClusterSt)

/-- The contents `c` and their VFLAGS, as a vector instruction leaves them at issue. -/
def State.vdone (s : State) (cl : ClusterId) (c : ClusterSt) : State := (s.setCluster cl c).showVflags cl

theorem State.showVflags_rd_ne (f : Fld) (h : f.off ≠ Reg.CL_VSTATUS cl.die cl.idx) : (s.showVflags cl).rd f = s.rd f := by
  rw [State.rd, State.showVflags_reg_ne _ _ h, State.rd]

theorem State.vdone_cluster : (s.vdone cl c).cluster cl = c := State.setCluster_cluster_self s cl c

theorem State.vdone_shown : VFlagsShown (s.vdone cl c) cl c := by
  have := (s.setCluster cl c).showVflags_shown cl
  rwa [State.setCluster_cluster_self] at this

theorem State.vleave_cluster (v : VEnt) : (s.vleave cl v).cluster cl = s.cluster cl := by
  rw [State.vleave_eq]
  split
  · exact State.wr_cluster _ _ _ _
  · exact State.wr_cluster _ _ _ _

/-- An instruction that leaves the empty queue at once, before it retires. -/
theorem State.vdone_vleave_spec (v : VEnt) :
    let u := (s.vdone cl c).vleave cl v
    OnlyCluster cl [Reg.CL_VSTATUS cl.die cl.idx, Reg.CL_VCNT cl.die cl.idx] (b2n v.loadStore) s u ∧ u.cluster cl = c
      ∧ VFlagsShown u cl c ∧ u.rd (F.CL_VSTATUS_VL cl.die cl.idx) = v.vl % 2 ^ 9
      ∧ u.rd (F.CL_VCNT_ISSUED cl.die cl.idx) = min (s.rd (F.CL_VCNT_ISSUED cl.die cl.idx) + 1) (2 ^ 32 - 1) := by
  have honly : OnlyCluster cl [Reg.CL_VSTATUS cl.die cl.idx, Reg.CL_VCNT cl.die cl.idx] 0 s (s.vdone cl c) :=
    (OnlyCluster.of_setCluster c).showVflags (by simp)
  have hbank : ∀ f : Fld, (f.off = Reg.CL_VCNT cl.die cl.idx → 31 < f.lo) →
      ((s.vdone cl c).vleave cl v).rd f = ((s.vdone cl c).vshow cl v.vl v.vtype).rd f := by
    intro f hf
    rw [State.vleave_eq]
    split
    · by_cases h : f.off = Reg.CL_VCNT cl.die cl.idx
      · rw [State.add, State.rd_wr_disj _ _ _ _ (by simp [F.CL_VCNT_BANKWAIT]) (.inr (by simpa [F.CL_VCNT_BANKWAIT] using hf h)), State.tick_rd]
      · rw [State.add, State.rd_wr_ne _ _ _ _ h, State.tick_rd]
    · rfl
  refine ⟨?_, (State.vleave_cluster _ cl v).trans (s.vdone_cluster cl c), ?_, ?_, ?_⟩
  · have := honly.vleave (by simp) (by simp) v
    rwa [Nat.zero_add] at this
  · refine (s.vdone_shown cl c).of_rd fun f hf hhi hlo => ?_
    rw [hbank f (fun h => absurd (hf.symm.trans h) (clVstatus_ne_vcnt cl)), State.vshow_rd _ _ _ _ _ (fun _ => hhi) (hf ▸ clVstatus_ne_vcnt cl)]
  · rw [hbank _ (fun h => absurd h (clVstatus_ne_vcnt cl)), State.vshow_vl]
  · rw [hbank _ (fun _ => by simp [F.CL_VCNT_ISSUED]), State.vshow_issued, State.vdone,
      State.showVflags_rd_ne _ _ _ (clVstatus_ne_vcnt cl).symm, State.setCluster_rd]

@[simp] theorem State.showCl_cluster (d : ClusterId) : (s.showCl cl).cluster d = s.cluster d := by
  unfold State.showCl
  simp [State.wrB]

/-- VFLAGS read the same when the queues are shown. -/
theorem State.showCl_vflags_rd (f : Fld) (hf : f.off = Reg.CL_VSTATUS cl.die cl.idx) (hlo : 46 < f.lo) : (s.showCl cl).rd f = s.rd f := by
  have hw : f.off ≠ Reg.CL_WGQ cl.die cl.idx := by
    simp only [hf, Reg.CL_VSTATUS, Reg.CL_WGQ]
    omega
  have hs : f.off ≠ Reg.CL_STATUS cl.die cl.idx := by
    simp only [hf, Reg.CL_VSTATUS, Reg.CL_STATUS]
    omega
  unfold State.showCl
  dsimp only
  rw [State.rd_wr_disj _ _ _ _ (by simp [F.CL_VSTATUS_QUEUE]) (.inr (by simpa [F.CL_VSTATUS_QUEUE] using hlo)), State.wrB,
    State.rd_wr_ne _ _ _ _ hs, State.rd_wr_ne _ _ _ _ hw, State.rd_wr_ne _ _ _ _ hw]

theorem State.showCl_queue : (s.showCl cl).rd (F.CL_VSTATUS_QUEUE cl.die cl.idx) = (s.cluster cl).vq.length % 32 := by
  unfold State.showCl
  dsimp only
  rw [State.rd_wr_self _ _ _ (by simp [F.CL_VSTATUS_QUEUE])]
  rfl

theorem State.showCl_run : (s.showCl cl).run cl = s.run cl := by
  have hw : Reg.CL_STATUS cl.die cl.idx ≠ Reg.CL_WGQ cl.die cl.idx := by
    simp only [Reg.CL_STATUS, Reg.CL_WGQ]
    omega
  have hv : Reg.CL_STATUS cl.die cl.idx ≠ Reg.CL_VSTATUS cl.die cl.idx := by
    simp only [Reg.CL_STATUS, Reg.CL_VSTATUS]
    omega
  rw [State.run, State.showCl_rd _ _ _ hw hv (fun _ => by simp [F.CL_STATUS_RUN]), State.run]

/-- An instruction that waits in the queue, before it retires. -/
theorem State.vdone_putCl_spec (vq : List VEnt) (hlen : vq.length < 32) :
    let u := (s.vdone cl c).putCl cl { c with vq := vq }
    OnlyCluster cl [Reg.CL_STATUS cl.die cl.idx, Reg.CL_VSTATUS cl.die cl.idx, Reg.CL_WGQ cl.die cl.idx] 0 s u ∧ u.cluster cl = { c with vq := vq }
      ∧ VFlagsShown u cl c ∧ u.rd (F.CL_VSTATUS_QUEUE cl.die cl.idx) = vq.length ∧ u.run cl = s.run cl := by
  have honly : OnlyCluster cl [Reg.CL_STATUS cl.die cl.idx, Reg.CL_VSTATUS cl.die cl.idx, Reg.CL_WGQ cl.die cl.idx] 0 s (s.vdone cl c) :=
    (OnlyCluster.of_setCluster c).showVflags (by simp)
  have hne : Reg.CL_STATUS cl.die cl.idx ≠ Reg.CL_VSTATUS cl.die cl.idx := by
    simp only [Reg.CL_STATUS, Reg.CL_VSTATUS]
    omega
  dsimp only
  refine ⟨(honly.setCluster' _).showCl (by simp) (by simp) (by simp), ?_, ?_, ?_, ?_⟩
  · rw [State.putCl, State.showCl_cluster, State.setCluster_cluster_self]
  · refine (s.vdone_shown cl c).of_rd fun f hf hhi hlo => ?_
    rw [State.putCl, State.showCl_vflags_rd _ _ _ hf hlo, State.setCluster_rd]
  · rw [State.putCl, State.showCl_queue, State.setCluster_cluster_self]
    exact Nat.mod_eq_of_lt hlen
  · rw [State.putCl, State.showCl_run, State.run, State.setCluster_rd, State.vdone, State.showVflags_rd_ne _ _ _ hne, State.setCluster_rd, State.run]

end

/-- VFLAGS still stand when the instruction retires. -/
theorem VFlagsShown.retire {u t : State} {cl : ClusterId} {c : ClusterSt} (h : VFlagsShown u cl c) (hr : SameRegs (retireRegs cl) u t) :
    VFlagsShown t cl c :=
  h.of_rd fun f hf _ _ => hr.rd_eq f (hf ▸ clVstatus_not_mem_retireRegs cl)

section
variable {s u : State} {cl : ClusterId} {c : ClusterSt} (h4 : (s.pc cl + 4) % 4 = 0) (hl : s.pc cl + 4 < c.code.length)
  (h64 : c.code.length ≤ 65536) (hcl : u.cluster cl = c) (hflags : VFlagsShown u cl c)
include h4 hl h64 hcl hflags

/-- Retiring what has left the queue. -/
theorem retire_vsteps {n : Nat} (honly : OnlyCluster cl [Reg.CL_VSTATUS cl.die cl.idx, Reg.CL_VCNT cl.die cl.idx] n s u)
    (hvl : u.rd (F.CL_VSTATUS_VL cl.die cl.idx) = c.vl % 2 ^ 9)
    (hissued : u.rd (F.CL_VCNT_ISSUED cl.die cl.idx) = min (s.rd (F.CL_VCNT_ISSUED cl.die cl.idx) + 1) (2 ^ 32 - 1)) :
    VSteps s (u.retire cl (s.pc cl + 4)) cl c n ∧ VFlagsShown (u.retire cl (s.pc cl + 4)) cl c := by
  obtain ⟨hret, hcl', honly'⟩ := retire_steps_unchanged u cl (s.pc cl + 4) h4 (hcl ▸ hl) (hcl ▸ h64)
  have hregs := honly'.2.2.1
  refine ⟨⟨hret.of_sameRegs fun off hoff => honly.2.2.1 off ?_, by rw [hcl', hcl], ?_, ?_, ?_⟩, hflags.retire hregs⟩
  · rintro hmem
    rw [List.mem_pair] at hmem
    obtain rfl | rfl := hmem
    · exact clVstatus_not_mem_retireRegs cl hoff
    · exact clVcnt_not_mem_retireRegs cl hoff
  · refine (honly.trans honly').mono fun o ho => ?_
    simp only [vectorRegs, List.mem_append] at ho ⊢
    exact ho.symm
  · rw [hregs.rd_eq _ (clVstatus_not_mem_retireRegs cl), hvl]
  · rw [hregs.rd_eq _ (clVcnt_not_mem_retireRegs cl), hissued]

/-- Retiring what waits in the queue. -/
theorem retire_venters {old : ClusterSt} (hs : s.cluster cl = old) {ls : Bool} (hvq : c.vq = old.vq ++ [⟨old.vl, old.vtype, false, ls, old.icount⟩])
    (honly : OnlyCluster cl [Reg.CL_STATUS cl.die cl.idx, Reg.CL_VSTATUS cl.die cl.idx, Reg.CL_WGQ cl.die cl.idx] 0 s u)
    (hqueue : u.rd (F.CL_VSTATUS_QUEUE cl.die cl.idx) = c.vq.length) (hrun : u.run cl = 1) :
    VEnters s (u.retire cl (s.pc cl + 4)) cl c false ls ∧ VFlagsShown (u.retire cl (s.pc cl + 4)) cl c := by
  obtain ⟨hret, hcl', honly'⟩ := retire_steps_unchanged u cl (s.pc cl + 4) h4 (hcl ▸ hl) (hcl ▸ h64)
  have hregs := honly'.2.2.1
  refine ⟨⟨hret.pc (by omega), hret.run.trans hrun, ?_, ?_, ?_, ?_⟩, hflags.retire hregs⟩
  · rw [hret.2.1, honly.2.2.1 _ (by simp [Reg.CL_RETIRED, Reg.CL_STATUS, Reg.CL_VSTATUS, Reg.CL_WGQ])]
  · rw [hcl', hcl, hs, ← hvq]
  · rw [hregs.rd_eq _ (clVstatus_not_mem_retireRegs cl), hqueue, hs, hvq, List.length_append]
    rfl
  · refine (honly.trans honly').mono fun o ho => ?_
    simp only [vectorRegs, retireRegs, List.mem_append, List.mem_cons, List.not_mem_nil, or_false] at ho ⊢
    tauto

end

/-- The entry of a vector instruction that issues. -/
def ClusterSt.vent (c : ClusterSt) (ls : Bool) : VEnt := ⟨c.vl, c.vtype, false, ls, c.icount⟩

section
variable {s : State} {cl : ClusterId} {c : ClusterSt} {ls : Bool}

theorem State.vret_of_empty (h : (s.cluster cl).vq = []) :
    s.vret (s.setCluster cl c) cl false ls = .ret ((s.vdone cl c).vleave cl ((s.cluster cl).vent ls)) := by
  unfold State.vret
  dsimp only
  rw [if_pos (by simp [ClusterSt.vqueued, h])]
  rfl

theorem State.vret_of_room (h : (s.cluster cl).vq ≠ []) (hroom : (s.cluster cl).vq.length < 16) :
    s.vret (s.setCluster cl c) cl false ls =
      .ret ((s.vdone cl c).putCl cl { c with vq := (s.cluster cl).vq ++ [(s.cluster cl).vent ls] }) := by
  unfold State.vret
  dsimp only
  rw [if_neg (by simp [ClusterSt.vqueued, h]), if_neg (by omega), State.setCluster_cluster_self]
  rfl

theorem State.vret_of_full (h : 16 ≤ (s.cluster cl).vq.length) : s.vret (s.setCluster cl c) cl false ls = s.waitQueue cl 5 := by
  have hne : (s.cluster cl).vq ≠ [] := by
    rintro he
    simp [he] at h
  unfold State.vret
  dsimp only
  rw [if_neg (by simp [ClusterSt.vqueued, hne]), if_pos h]

end

theorem ready_run {s : State} {cl : ClusterId} {i : Instr} (hr : s.ready cl i = true) : s.run cl = 1 := by
  simp only [State.ready, State.canIssue, Bool.and_eq_true, beq_iff_eq] at hr
  exact hr.1.1.1.1

/-- A vector instruction whose body takes the contents to `c` is taken as R178 and R278 say. -/
theorem exec_vtaken {s : State} {cl : ClusterId} {i : Instr} {word : Nat} {body : ClusterSt → Issue} {c : ClusterSt} {ls : Bool}
    (he : exec i s = s.issue cl word body) (hw : insnWord i = some word)
    (hb : body (s.cluster cl) = s.vret (s.setCluster cl c) cl false ls) (hcode : c.code = (s.cluster cl).code)
    (hvl : c.vl = (s.cluster cl).vl) (hf : VFits s cl i) : ∃ t, exec i s = .next t ∧ VTaken s t cl c ls := by
  obtain ⟨⟨hr, h4, hl, h64⟩, hroom⟩ := hf
  rw [← hcode] at hl h64
  by_cases hq : (s.cluster cl).vq = []
  · obtain ⟨honly, hcl, hflags, hvls, hissued⟩ := s.vdone_vleave_spec cl c ((s.cluster cl).vent ls)
    obtain ⟨hsteps, hshown⟩ := retire_vsteps h4 hl h64 hcl hflags honly (by rw [hvls, hvl, ClusterSt.vent]) hissued
    exact ⟨_, exec_ret he hw hr (hb.trans (State.vret_of_empty hq)), fun _ => hsteps, hshown, fun h => absurd hq h⟩
  · have hlen : ((s.cluster cl).vq ++ [(s.cluster cl).vent ls]).length < 32 := by
      rw [List.length_append, List.length_singleton]
      omega
    obtain ⟨honly, hcl, hflags, hqueue, hrun⟩ := s.vdone_putCl_spec cl c ((s.cluster cl).vq ++ [(s.cluster cl).vent ls]) hlen
    obtain ⟨henters, hshown⟩ := retire_venters (c := { c with vq := (s.cluster cl).vq ++ [(s.cluster cl).vent ls] }) h4 hl h64 hcl hflags rfl
      (ls := ls) rfl honly hqueue (hrun.trans (ready_run hr))
    exact ⟨_, exec_ret he hw hr (hb.trans (State.vret_of_room hq hroom)), fun h => absurd h hq, hshown, fun _ => henters⟩

/-- A vector instruction that finds the queue full waits at issue, and CDn_CL_WAIT shows it (R176). -/
theorem exec_vfull {s : State} {cl : ClusterId} {i : Instr} {word : Nat} {body : ClusterSt → Issue} {c : ClusterSt} {ls : Bool}
    (he : exec i s = s.issue cl word body) (hw : insnWord i = some word)
    (hb : body (s.cluster cl) = s.vret (s.setCluster cl c) cl false ls) (hfull : 16 ≤ (s.cluster cl).vq.length) (hr : s.ready cl i = true) :
    ∃ t, exec i s = .next t ∧ t.rd (F.CL_WAIT_KIND cl.die cl.idx) = 5 ∧ t.rd (F.CL_WAIT_WHICH cl.die cl.idx) = 5
      ∧ OnlyRegs [Reg.CL_WAIT cl.die cl.idx] s t := by
  refine ⟨s.showWait cl 5 5 0, exec_wait he hw hr (hb.trans (State.vret_of_full hfull)), State.showWait_kind _ _ _ _ _,
    State.showWait_which _ _ _ _ _, rfl, fun off hoff => State.showWait_reg_ne _ _ _ _ _ ?_⟩
  simpa using hoff

section
variable (c : ClusterSt) (r : BitVec 5)

@[simp] theorem ClusterSt.setV_code (v : BitVec 2048) : (c.setV r v).code = c.code := rfl
@[simp] theorem ClusterSt.setV_vl (v : BitVec 2048) : (c.setV r v).vl = c.vl := rfl
@[simp] theorem ClusterSt.putFloats_code (rs : List (Fp × Nat)) : (c.putFloats r rs).code = c.code := rfl
@[simp] theorem ClusterSt.putFloats_vl (rs : List (Fp × Nat)) : (c.putFloats r rs).vl = c.vl := rfl
@[simp] theorem ClusterSt.setS_vl (v : Word) : (c.setS r v).vl = c.vl := by
  unfold ClusterSt.setS
  split <;> rfl

end

theorem ClusterSt.isFloat_of_kind {c : ClusterSt} (h : c.kind = 0) : c.isFloat = true := by simp [ClusterSt.isFloat, h]

theorem ClusterSt.not_isFloat_of_kind {c : ClusterSt} (h : c.kind ≠ 0) : c.isFloat = false := by simp [ClusterSt.isFloat, h]

section
variable {s : State} {cl : ClusterId} {i : Instr} {word : Nat} {body : ClusterSt → Issue} {r : BitVec 5} (he : exec i s = s.issue cl word body)
  (hw : insnWord i = some word)
include he hw

/-- A vector instruction that writes float results with their flags. -/
theorem exec_putFloats {rs : List (Fp × Nat)} (hb : body (s.cluster cl) = s.retV cl ((s.cluster cl).putFloats r rs)) :
    VFits s cl i → ∃ t, exec i s = .next t ∧ VTaken s t cl ((s.cluster cl).putFloats r rs) false :=
  exec_vtaken he hw hb (ClusterSt.putFloats_code _ _ _) (ClusterSt.putFloats_vl _ _ _)

/-- A vector instruction that writes a V register alone. -/
theorem exec_setV {v : BitVec 2048} (hb : body (s.cluster cl) = s.retV cl ((s.cluster cl).setV r v)) :
    VFits s cl i → ∃ t, exec i s = .next t ∧ VTaken s t cl ((s.cluster cl).setV r v) false :=
  exec_vtaken he hw hb (ClusterSt.setV_code _ _ _) (ClusterSt.setV_vl _ _ _)

/-- A vector instruction that writes a V register and VFLAGS. -/
theorem exec_setV_vflags {v : BitVec 2048} {fl : Nat}
    (hb : body (s.cluster cl) = s.retV cl { (s.cluster cl).setV r v with vflags := fl }) :
    VFits s cl i → ∃ t, exec i s = .next t ∧ VTaken s t cl { (s.cluster cl).setV r v with vflags := fl } false :=
  exec_vtaken he hw hb (ClusterSt.setV_code (s.cluster cl) r v) (ClusterSt.setV_vl (s.cluster cl) r v)

end

/-- Settles O17: each body answers `retV` with its operation's contents, which `exec_vtaken` takes; the comparisons stand for all where
the queue is full. -/
theorem vectorElements : Obligations.VectorElements := by
  refine ⟨fun s cl f hk h9 hfn => ?_, fun s cl f h9 => ?_⟩
  · have hfl := ClusterSt.isFloat_of_kind hk
    have hfn' : ¬ 6 ≤ f.f4.toNat := by omega
    refine ⟨exec_putFloats (by rw [exec, execVfv]) rfl ?_, exec_putFloats (by rw [exec, execVfs]) rfl ?_, fun h14 =>
      ⟨exec_setV_vflags (by rw [exec, execVfu]) rfl ?_, exec_putFloats (by rw [exec, execVsfu]) rfl ?_⟩⟩
    · rw [if_neg (by simp [hfn', h9]), if_neg (by simp [hfl])]
    · rw [if_neg (by simp [hfn', h9]), if_neg (by simp [hfl])]
      rfl
    · dsimp only
      rw [if_neg (by simp [hfn', h9, h14]), if_neg (by simp [hfl]), List.map_map, List.map_map]
      rfl
    · dsimp only
      rw [if_neg (by simp [hfn', h9, h14]), if_neg (by simp [hfl])]
  · have hint (bs : List Nat) (hk : (s.cluster cl).kind ≠ 0) (hfn : f.f4.toNat < 10) :
        intOp s cl (s.cluster cl) f bs = s.retV cl ((s.cluster cl).setV f.f24 (vPut ((s.cluster cl).vreg f.f24) (s.cluster cl).sew
          (((vElems ((s.cluster cl).vreg f.f19) (s.cluster cl).sew (s.cluster cl).vl).zip bs).map (fun p =>
            (intBin (s.cluster cl).sew ((s.cluster cl).kind == 1) f.f4.toNat p.1 p.2).getD 0)))) := by
      have hfn' : ¬ 10 ≤ f.f4.toNat := by omega
      rw [intOp, if_neg (by simp [hfn', h9]), if_neg (by simp [ClusterSt.not_isFloat_of_kind hk])]
    have hcmp (bs : List Nat) (hfn : f.f4.toNat < 6) :
        cmpOp s cl (s.cluster cl) f bs = s.retV cl ((s.cluster cl).setV f.f24 (vPut ((s.cluster cl).vreg f.f24) (s.cluster cl).sew
          (((vElems ((s.cluster cl).vreg f.f19) (s.cluster cl).sew (s.cluster cl).vl).zip bs).map (fun p =>
            if cmpHolds (s.cluster cl) f.f4.toNat p.1 p.2 then 2 ^ (s.cluster cl).sew - 1 else 0)))) := by
      have hfn' : ¬ 6 ≤ f.f4.toNat := by omega
      rw [cmpOp, if_neg (by simp [hfn', h9])]
    refine ⟨fun hk hfn => ⟨exec_setV (by rw [exec, execViv]) rfl (hint _ hk hfn),
      exec_setV (by rw [exec, execVis]) rfl (hint _ hk hfn)⟩,
      fun hfn => ⟨exec_setV (by rw [exec, execVcmpv]) rfl (hcmp _ hfn), exec_setV (by rw [exec, execVcmps]) rfl (hcmp _ hfn)⟩,
      fun hfn hfull => ?_⟩
    simp only [List.forall_mem_cons]
    exact ⟨exec_vfull (by rw [exec, execVcmpv]) rfl (hcmp _ hfn) hfull, exec_vfull (by rw [exec, execVcmps]) rfl (hcmp _ hfn) hfull, by simp⟩

/-- Settles O18: each body answers `retV` with the contents that the statement names. -/
theorem vectorOther : Obligations.VectorOther := by
  intro s cl f
  refine ⟨fun h4 => ?_, fun hfn h9 h14 => ⟨fun hvl hk => ?_, fun hvl hk hfn3 => ?_, fun hvl hk => ?_⟩, fun hfn hk hg hx => ?_, fun y g x => ?_,
    fun hk hsew => ⟨?_, fun h4 h9 h14 => ?_, fun hko hoh hol => ⟨fun hvl => ?_, fun hvl hle => ?_⟩⟩,
    fun h9 => ⟨fun h4 hi => ?_, fun h4 h19 => ?_, fun h4 h14 => ?_, fun h4 h14 h19 => ?_, fun h4 h14 h19 => ?_⟩⟩
  · refine exec_setV (by rw [exec, execVsel]) rfl ?_
    rw [if_neg (by simp [h4])]
  · have hfn' : ¬ 4 ≤ f.f4.toNat := by omega
    refine exec_vtaken (by rw [exec, execVred]) rfl ?_ rfl rfl
    dsimp only
    rw [if_neg (by simp [hfn', h9, h14]), if_neg ?_, if_pos hvl]
    · rfl
    · obtain hk | h3 := hk
      · simp [ClusterSt.isFloat_of_kind hk]
      · simp [h3]
  · have hfn' : ¬ 4 ≤ f.f4.toNat := by omega
    refine exec_setV (by rw [exec, execVred]) rfl ?_
    dsimp only
    rw [if_neg (by simp [hfn', h9, h14]), if_neg (by simp [hfn3]), if_neg hvl, if_neg (by simp [ClusterSt.not_isFloat_of_kind hk])]
  · have hfn' : ¬ 4 ≤ f.f4.toNat := by omega
    refine exec_setV_vflags (by rw [exec, execVred]) rfl ?_
    dsimp only
    rw [if_neg (by simp [hfn', h9, h14]), if_neg (by simp [ClusterSt.isFloat_of_kind hk]), if_neg hvl, if_pos (ClusterSt.isFloat_of_kind hk)]
  · have hlegal : (decide (6 ≤ f.f4.toNat) || (!(f.f4.toNat == 5) && decide (f.f14 ≠ 0))
        || (!(f.f4.toNat == 1 || f.f4.toNat == 5) && decide (f.f9 ≠ 0))) = false := by
      have hfn' : ¬ 6 ≤ f.f4.toNat := by omega
      by_cases h5 : f.f4.toNat = 5
      · simp [h5]
      · by_cases h1 : f.f4.toNat = 1
        · simp [h1, hg h5]
        · simp [hfn', hg h5, hx h1 h5]
    refine exec_putFloats (by rw [exec, execVderiv]) rfl ?_
    dsimp only
    rw [if_neg (Bool.eq_false_iff.mp hlegal), if_neg (by simp [ClusterSt.isFloat_of_kind hk])]
    simp only [beq_iff_eq, Bool.or_eq_true]
  · exact ⟨rfl, rfl, rfl, rfl⟩
  · have hfl := ClusterSt.isFloat_of_kind hk
    simp only [List.forall_mem_cons]
    refine ⟨fun h1 h9 h14 => exec_putFloats (by rw [exec, execVxcvt]) rfl ?_, fun h2 h9 h14 => exec_putFloats (by rw [exec, execVxcvt]) rfl ?_, by simp⟩
    · dsimp only
      rw [if_neg (by simp [h1, h9, h14]), if_neg (by simp [hfl, hsew]), if_neg (by simp [h1]), if_pos h1, List.map_map]
      rfl
    · dsimp only
      rw [if_neg (by simp [h2, h9, h14]), if_neg (by simp [hfl, hsew]), if_neg (by simp [h2]), if_neg (by simp [h2]), List.map_map]
      rfl
  · refine exec_setV_vflags (by rw [exec, execVxcvt]) rfl ?_
    dsimp only
    rw [if_neg (by simp [h4, h9, h14]), if_neg (by simp [ClusterSt.isFloat_of_kind hk, hsew]), if_pos (by simp [h4]), hsew]
  · refine exec_vtaken (by rw [exec, execVsr]) rfl ?_ rfl rfl
    dsimp only
    rw [if_neg (by simp [hko, hoh, hol]), if_neg (by simp [ClusterSt.isFloat_of_kind hk, hsew]), if_pos hvl]
    rfl
  · refine exec_putFloats (by rw [exec, execVsr]) rfl ?_
    dsimp only
    rw [if_neg (by simp [hko, hoh, hol]), if_neg (by simp [ClusterSt.isFloat_of_kind hk, hsew]), if_neg hvl, if_neg (by omega)]
  · refine exec_vtaken (by rw [exec, execVmv]) rfl ?_ (ClusterSt.setS_code _ _ _) (ClusterSt.setS_vl _ _ _)
    simp only [h4]
    rw [if_neg (by simp [h9]), if_neg (by rw [vlmax]; omega)]
    rfl
  · refine exec_setV (by rw [exec, execVmv]) rfl ?_
    simp only [h4]
    exact if_neg (by simp [h9, h19])
  · refine exec_setV (by rw [exec, execVmv]) rfl ?_
    simp only [h4]
    exact if_neg (by simp [h9, h14])
  · refine exec_setV (by rw [exec, execVmv]) rfl ?_
    simp only [h4]
    exact if_neg (by simp [h9, h14, h19])
  · refine exec_vtaken (by rw [exec, execVmv]) rfl ?_ ((ClusterSt.setS_code _ _ _).trans rfl) ((ClusterSt.setS_vl _ _ _).trans rfl)
    simp only [h4]
    exact if_neg (by simp [h9, h14, h19])

/-! Vector loads and stores (R267 to R269). -/

/-- Every element's address is aligned and in range, and the interlock holds none back (R268, R179). -/
def AddrsFit (s : State) (cl : ClusterId) (es : Nat) (addrs : List Nat) (write : Bool) : Prop :=
  ∀ a ∈ addrs, a % es = 0 ∧ a + es ≤ tileSize ∧ s.interlocked cl a es write = false

section
variable {s : State} {cl : ClusterId} {es : Nat} {addrs : List Nat} {write : Bool} (h : AddrsFit s cl es addrs write)
include h

theorem AddrsFit.addrExc_eq_none : addrExc es addrs = none := by
  have halign : addrs.find? (fun a => decide (a % es ≠ 0)) = none := by
    rw [List.find?_eq_none]
    intro a ha
    simp [(h a ha).1]
  have hrange : addrs.find? (fun a => decide (tileSize < a + es)) = none := by
    rw [List.find?_eq_none]
    intro a ha
    simpa using (h a ha).2.1
  simp only [addrExc, halign, hrange]

theorem AddrsFit.not_interlocked : addrs.any (fun a => s.interlocked cl a es write) = false := by
  rw [List.any_eq_false]
  intro a ha
  simp [(h a ha).2.2]

end

section
variable (es : Nat)

@[simp] theorem storeElems_code (c : ClusterSt) (l : List (Nat × Nat)) : (storeElems es c l).code = c.code := by
  induction l generalizing c with
  | nil => rfl
  | cons p l ih => exact (ih _).trans (ClusterSt.setT_code _ _ _)

@[simp] theorem ClusterSt.setT_vl (c : ClusterSt) (a : Nat) (data : List Byte) : (c.setT a data).vl = c.vl := by
  induction data generalizing c a with
  | nil => rfl
  | cons b bs ih => exact ih _ _

@[simp] theorem storeElems_vl (c : ClusterSt) (l : List (Nat × Nat)) : (storeElems es c l).vl = c.vl := by
  induction l generalizing c with
  | nil => rfl
  | cons p l ih => exact (ih _).trans (ClusterSt.setT_vl _ _ _)

end

section
variable {s : State} {cl : ClusterId} {i : Instr} {word : Nat} {body : ClusterSt → Issue} {r : BitVec 5} {addrs : List Nat}
  (he : exec i s = s.issue cl word body) (hw : insnWord i = some word)
include he hw

/-- A load of elements that fit puts them into its V register. -/
theorem exec_vload (hb : body (s.cluster cl) = vload s cl (s.cluster cl) r addrs) (hfit : AddrsFit s cl ((s.cluster cl).sew / 8) addrs false) :
    VFits s cl i → ∃ t, exec i s = .next t ∧ VTaken s t cl ((s.cluster cl).setV r (vPut ((s.cluster cl).vreg r) (s.cluster cl).sew
      (addrs.map (fun a => (s.cluster cl).tnat a ((s.cluster cl).sew / 8))))) true := by
  refine exec_vtaken he hw ?_ (ClusterSt.setV_code _ _ _) (ClusterSt.setV_vl _ _ _)
  rw [hb, vload]
  simp only [hfit.addrExc_eq_none, hfit.not_interlocked, Bool.false_eq_true, if_false]

/-- A store of elements that fit, and of which a guard refuses none, puts them into the tile store in order. -/
theorem exec_vstore {guard : Bool} (hb : body (s.cluster cl) = vstore s cl (s.cluster cl) r guard addrs)
    (hfit : AddrsFit s cl ((s.cluster cl).sew / 8) addrs true)
    (hg : guard = true → ∀ v ∈ vElems ((s.cluster cl).vreg r) (s.cluster cl).sew (s.cluster cl).vl,
      fpNonfinite (decodeElem (s.cluster cl).fcode v) = false) :
    VFits s cl i → ∃ t, exec i s = .next t ∧ VTaken s t cl (storeElems ((s.cluster cl).sew / 8) (s.cluster cl)
      (addrs.zip (vElems ((s.cluster cl).vreg r) (s.cluster cl).sew (s.cluster cl).vl))) true := by
  have hfinite : (if guard = true then (addrs.zip (vElems ((s.cluster cl).vreg r) (s.cluster cl).sew (s.cluster cl).vl)).find?
      (fun p => fpNonfinite (decodeElem (s.cluster cl).fcode p.2)) else none) = none := by
    cases guard with
    | false => rfl
    | true =>
      rw [if_pos rfl, List.find?_eq_none]
      intro p hp
      simp [hg rfl p.2 (List.of_mem_zip hp).2]
  refine exec_vtaken he hw ?_ (storeElems_code _ _ _) (storeElems_vl _ _ _)
  rw [hb, vstore]
  simp only [hfit.addrExc_eq_none, hfit.not_interlocked, hfinite, Bool.false_eq_true, if_false]

end

/-- Settles O19: loads are `exec_vload`, stores `exec_vstore`, and a guard that finds an infinity or NaN raises GUARD. -/
theorem vectorMemory : Obligations.VectorMemory := by
  intro s cl f h9
  have hok (h : f.f4 = 0 ∨ (f.f4 = 1 ∧ (s.cluster cl).kind = 0 ∧ ∀ v ∈ vElems ((s.cluster cl).vreg f.f24) (s.cluster cl).sew (s.cluster cl).vl,
      fpNonfinite (decodeElem (s.cluster cl).fcode v) = false)) : storeFlOk (s.cluster cl) f.f4 = true ∧
      (decide (f.f4 = 1) = true → ∀ v ∈ vElems ((s.cluster cl).vreg f.f24) (s.cluster cl).sew (s.cluster cl).vl,
        fpNonfinite (decodeElem (s.cluster cl).fcode v) = false) := by
    obtain h | ⟨h, hk, hfin⟩ := h
    · simp [storeFlOk, h]
    · exact ⟨by simp [storeFlOk, h, ClusterSt.isFloat_of_kind hk], fun _ => hfin⟩
  refine ⟨fun h4 h14 => exec_vload (by rw [exec, execVld]) rfl ?_, fun h4 => exec_vload (by rw [exec, execVlds]) rfl ?_,
    fun h4 h14 => exec_vload (by rw [exec, execVldb]) rfl ?_, fun hmay h14 hfit => ?_, fun hmay hfit => ?_, fun h4 hk p hp h14 hfit hr => ?_⟩
  · exact if_neg (by simp [h4, h14, h9])
  · exact if_neg (by simp [h4, h9])
  · exact if_neg (by simp [h4, h14, h9])
  · obtain ⟨hfl, hfin⟩ := hok hmay
    refine exec_vstore (by rw [exec, execVst]) rfl ?_ hfit hfin
    exact if_neg (by simp [h14, h9, hfl])
  · obtain ⟨hfl, hfin⟩ := hok hmay
    refine exec_vstore (by rw [exec, execVsts]) rfl ?_ hfit hfin
    exact if_neg (by simp [h9, hfl])
  · refine exec_exc (by rw [exec, execVst]) rfl hr ?_
    have hnone : addrExc ((s.cluster cl).sew / 8) (elemAddrs (s.cluster cl).vl ((s.cluster cl).sn f.f19) ((s.cluster cl).sew / 8 : Nat)) = none :=
      AddrsFit.addrExc_eq_none hfit
    rw [if_neg (by simp [h14, h9, h4, storeFlOk, ClusterSt.isFloat_of_kind hk]), vstore]
    simp only [hnone, h4, decide_true, if_true, hp]

end Sys2Proof.Machine
end

section

/-! SUPPORT. What an event record may change, and SETVL, slot accesses and casts of the vector engine (O20). -/
namespace Sys2Proof.Machine
open Sys2Proof

/-! What an event record changes beside the ring (R11 to R19). Its write goes through the homes, so a stop, a corrected error, snoops and an
interrupt may come of it. -/

/-- A field that no event record writes: one of none of the counters and pins that records, homes, agents and interrupts touch. The count of
snoops of an agent stands in the low half of a register from CRM_AGENT on. -/
def EvKept (f : Fld) : Prop :=
  f.hi < 64 ∧ (f.off < 0x400200 ∧ f.off ≠ Reg.STR_RING_CNT ∧ f.off ≠ Reg.STR_PINS ∧ f.off ≠ Reg.STR_HOST 0 ∧ f.off ≠ Reg.STR_HOST 1
    ∨ 0x400400 ≤ f.off ∧ 32 ≤ f.lo)

/-- The homes are ten, and 31 stands for none. -/
theorem homeOf_getD_lt (a : Nat) : (homeOf a).getD 31 < 32 := by
  unfold homeOf
  split
  · split
    · rw [Option.getD_some]
      omega
    · decide
  · split
    · split <;> decide
    · split
      · split <;> decide
      · decide

/-- From `s` to `t` nothing differs but what event records may write. -/
structure Records (s t : State) : Prop where
  same : { t with
    regs := s.regs, mem := s.mem, out := s.out, ring := s.ring, stop := s.stop, eccErrs := s.eccErrs, lines := s.lines,
    l2 := s.l2, dirs := s.dirs, memQ := s.memQ, imsic := s.imsic, degr := s.degr } = s
  rd : ∀ f, EvKept f → t.rd f = s.rd f

namespace Records
variable {s t u : State}

protected theorem refl : Records s s := ⟨rfl, fun _ _ => rfl⟩

/-- An update of a field of the state that records may write. -/
theorem upd (h : Records s t) {mem out ring stop eccErrs lines l2 dirs memQ imsic degr} :
    Records s { t with mem, out, ring, stop, eccErrs, lines, l2, dirs, memQ, imsic, degr } := ⟨h.same, h.rd⟩

theorem ite {p : Prop} [Decidable p] (h : Records s t) (h' : Records s u) : Records s (if p then t else u) := by
  split
  · exact h
  · exact h'

theorem foldl {α : Type} {f : State → α → State} {l : List α} (hf : ∀ t a, Records s t → Records s (f t a)) (h : Records s t) :
    Records s (l.foldl f t) := foldl_induct hf l h

/-- A field that records may write. -/
theorem wr (h : Records s t) {f : Fld} {v : Nat} (hf : ∀ g, EvKept g → g.off = f.off → f.hi < g.lo) (hhi : f.hi < 64) :
    Records s (t.wr f v) := by
  refine ⟨h.same, fun g hg => ?_⟩
  by_cases ho : g.off = f.off
  · rw [State.rd_wr_disj _ _ _ _ hhi (.inr (hf g hg ho)), h.rd g hg]
  · rw [State.rd_wr_ne _ _ _ _ ho, h.rd g hg]

theorem wr_ringCnt (h : Records s t) {f : Fld} {v : Nat} (hf : f.off = Reg.STR_RING_CNT) (hhi : f.hi < 64) : Records s (t.wr f v) := by
  refine h.wr (fun g hg ho => ?_) hhi
  obtain ⟨-, ⟨-, hne, -⟩ | ⟨hle, -⟩⟩ := hg
  · exact absurd (ho.trans hf) hne
  · rw [ho, hf, Reg.STR_RING_CNT] at hle
    omega

theorem wr_pins (h : Records s t) {f : Fld} {v : Nat} (hf : f.off = Reg.STR_PINS) (hhi : f.hi < 64) : Records s (t.wr f v) := by
  refine h.wr (fun g hg ho => ?_) hhi
  obtain ⟨-, ⟨-, -, hne, -⟩ | ⟨hle, -⟩⟩ := hg
  · exact absurd (ho.trans hf) hne
  · rw [ho, hf, Reg.STR_PINS] at hle
    omega

theorem inc_irqDrop (h : Records s t) {k : Nat} (hk : k < 2) : Records s (t.inc (F.STR_HOST_IRQ_DROP k)) := by
  refine h.wr (fun g hg ho => ?_) (by simp [F.STR_HOST_IRQ_DROP])
  obtain ⟨-, ⟨-, -, -, hne0, hne1⟩ | ⟨hle, -⟩⟩ := hg
  · obtain rfl | rfl : k = 0 ∨ k = 1 := by omega
    · exact absurd ho hne0
    · exact absurd ho hne1
  · rw [ho] at hle
    simp only [F.STR_HOST_IRQ_DROP, Reg.STR_HOST] at hle
    omega

theorem inc_snoops (h : Records s t) {a : Nat} : Records s (t.inc (F.CRM_AGENT_SNOOPS a)) := by
  refine h.wr (fun g hg ho => ?_) (by simp [F.CRM_AGENT_SNOOPS])
  obtain ⟨-, ⟨hlt, -⟩ | ⟨-, hlo⟩⟩ := hg
  · rw [ho] at hlt
    simp only [F.CRM_AGENT_SNOOPS, Reg.CRM_AGENT] at hlt
    omega
  · exact hlo

theorem inc_home (h : Records s t) {f : Fld} {k : Nat} (hk : k < 32) (hf : f.off = Reg.CRM_HOME k) (hhi : f.hi < 64) : Records s (t.inc f) := by
  refine h.wr (fun g hg ho => ?_) hhi
  obtain ⟨-, ⟨hlt, -⟩ | ⟨hle, -⟩⟩ := hg
  · rw [ho, hf, Reg.CRM_HOME] at hlt
    omega
  · rw [ho, hf, Reg.CRM_HOME] at hle
    omega

theorem send {x : Out} (h : Records s t) : Records s (t.send x) := h.upd

theorem rawSet {a : Nat} {v : Byte} (h : Records s t) : Records s (t.rawSet a v) := h.upd

theorem rawBytes {a bs} (h : Records s t) : Records s (t.rawBytes a bs) := by
  induction bs generalizing t a with
  | nil => exact h
  | cons b bs ih => exact ih h.rawSet

theorem uncache {line} (h : Records s t) : Records s (t.uncache line) :=
  .ite (.upd (by
  split
  · exact h.rawBytes
  · exact h)) h

theorem setBytes {a bs} (h : Records s t) : Records s (t.setBytes a bs) := by
  induction bs generalizing t a with
  | nil => exact h
  | cons b bs ih => exact ih h.uncache.rawSet

theorem assertStop (h : Records s t) : Records s t.assertStop :=
  .send (.ite h (.send (h.wr_pins rfl (by simp [F.STR_PINS_STOP]))))

theorem stopDetect {cause detail agent line} (h : Records s t) : Records s (t.stopDetect cause detail agent line) :=
  .ite h (.assertStop h.upd)

theorem eccRead {hd line k} (h : Records s t) (hk : hd < 32) : Records s (t.eccRead hd line k) := by
  unfold State.eccRead
  dsimp only
  split
  · exact h
  · split
    · exact .inc_home h.upd hk rfl (by simp [F.CRM_HOME_BIAS_CE])
    · exact .inc_home h.upd hk rfl (by simp [F.CRM_HOME_DIR_CE])
  · exact h.stopDetect

theorem eccReads {hd line} (h : Records s t) (hk : hd < 32) : Records s (t.eccReads hd line) :=
  .ite (.eccRead h hk) (.ite (.eccRead (.eccRead h hk) hk) (.eccRead (.eccRead (.eccRead h hk) hk) hk))

theorem engineSnoops {write line} (h : Records s t) : Records s (t.engineSnoops write line) :=
  .ite h (.upd (.foldl (fun _ _ h' => h'.inc_snoops) h))

theorem accessNow {rs ws} (h : Records s t) : Records s (t.accessNow rs ws) := by
  unfold State.accessNow
  split
  · exact h.stopDetect
  · exact .foldl (fun _ _ h' => h'.engineSnoops) (.foldl (fun _ _ h' => h'.engineSnoops)
      (.foldl (fun _ _ h' => .ite h' (h'.eccReads (homeOf_getD_lt _))) h))

theorem write {a data} (h : Records s t) : Records s (t.write a data) :=
  .ite h (.ite h.upd (.ite h.accessNow h.accessNow.setBytes))

theorem irq {hart file eiid} (h : Records s t) : Records s (t.irq hart file eiid) := by
  unfold State.irq
  dsimp only
  split
  · next hc =>
    rw [Bool.and_eq_true, decide_eq_true_eq] at hc
    exact h.inc_irqDrop (by omega)
  · exact .send h.upd

theorem ringWrite {r} (h : Records s t) : Records s (t.ringWrite r) := by
  have hw : Records s ((if (t.write (4096 * t.rd F.STR_RING_BASE + 32 * t.ring.tail) (leBytes 32 (r.toNat t.ring.phase))).stop.isSome then
    (t.write (4096 * t.rd F.STR_RING_BASE + 32 * t.ring.tail) (leBytes 32 (r.toNat t.ring.phase))).rawBytes
      (4096 * t.rd F.STR_RING_BASE + 32 * t.ring.tail) (leBytes 32 (r.toNat t.ring.phase))
    else t.write (4096 * t.rd F.STR_RING_BASE + 32 * t.ring.tail) (leBytes 32 (r.toNat t.ring.phase)))) := .ite h.write.rawBytes h.write
  exact .ite (.irq (.wr_ringCnt hw.upd rfl (by simp [F.STR_RING_CNT_WRITTEN]))) (.wr_ringCnt hw.upd rfl (by simp [F.STR_RING_CNT_WRITTEN]))

theorem ringDrop {r} (h : Records s t) : Records s (t.ringDrop r) :=
  .ite (.wr_ringCnt (.wr_ringCnt h.upd rfl (by simp [F.STR_RING_CNT_DROPPED])) rfl (by simp [F.STR_RING_CNT_FATAL_DROP]))
    (.wr_ringCnt h.upd rfl (by simp [F.STR_RING_CNT_DROPPED]))

theorem ringHold {r} (h : Records s t) : Records s (t.ringHold r) :=
  .ite (.wr_ringCnt h.upd rfl (by simp [F.STR_RING_CNT_HELD])) h.ringDrop

theorem ringPut {r} (h : Records s t) : Records s (t.ringPut r) :=
  .ite h.ringHold (.ite (.ite h.ringWrite h.ringHold) (.ite h.ringDrop (.ite h.ringWrite h.ringDrop)))

theorem emit {e} (h : Records s t) : Records s (t.emit e) := .ite (.send (.ringPut h.upd)) (.ringPut h.upd)

theorem clusters_eq (h : Records s t) : t.clusters = s.clusters := by
  have := congrArg State.clusters h.same
  exact this

theorem slots_eq (h : Records s t) : t.slots = s.slots := by
  have := congrArg State.slots h.same
  exact this

theorem free_eq (h : Records s t) : t.free = s.free := by
  have := congrArg State.free h.same
  exact this

theorem arms_eq (h : Records s t) : t.arms = s.arms := by
  have := congrArg State.arms h.same
  exact this

end Records

section
variable (s : State) (e : Ev)

@[simp] theorem State.emit_clusters : (s.emit e).clusters = s.clusters := (Records.refl.emit).clusters_eq

@[simp] theorem State.emit_cluster (cl : ClusterId) : (s.emit e).cluster cl = s.cluster cl := by
  rw [State.cluster, State.emit_clusters, State.cluster]

@[simp] theorem State.emit_slots : (s.emit e).slots = s.slots := (Records.refl.emit).slots_eq

@[simp] theorem State.emit_slot (j : Nat) : (s.emit e).slot j = s.slot j := by
  rw [State.slot, State.emit_slots, State.slot]

@[simp] theorem State.emit_free : (s.emit e).free = s.free := (Records.refl.emit).free_eq

@[simp] theorem State.emit_arms : (s.emit e).arms = s.arms := (Records.refl.emit).arms_eq

theorem State.emit_rd {f : Fld} (hf : EvKept f) : (s.emit e).rd f = s.rd f := (Records.refl.emit).rd f hf

@[simp] theorem State.write_clusters (a : Nat) (data : List Byte) : (s.write a data).clusters = s.clusters := (Records.refl.write).clusters_eq

end

/-! SETVL, slot accesses and casts of the vector engine (R178, R270 to R272, R282). -/

/-- The registers that show a cluster's queues. -/
def queueRegs (cl : ClusterId) : List Nat :=
  [Reg.CL_VSTATUS cl.die cl.idx, Reg.CL_VCNT cl.die cl.idx, Reg.CL_STATUS cl.die cl.idx, Reg.CL_WGQ cl.die cl.idx]

theorem OnlyCluster.refl {s : State} {cl : ClusterId} {offs : List Nat} : OnlyCluster cl offs 0 s s := ⟨rfl, rfl, fun _ _ => rfl, fun _ _ => rfl⟩

section
variable {s : State} {cl : ClusterId}

/-- An instruction that retires inside its image leaves the contents that it had at its end, counted. -/
theorem retire_contents (h4 : (s.pc cl + 4) % 4 = 0) {u : State} (hl : s.pc cl + 4 < (u.cluster cl).code.length)
    (h64 : (u.cluster cl).code.length ≤ 65536) :
    (u.retire cl (s.pc cl + 4)).pc cl = s.pc cl + 4
      ∧ (u.retire cl (s.pc cl + 4)).cluster cl = { u.cluster cl with icount := (u.cluster cl).icount + 1 }
      ∧ OnlyCluster cl (retireRegs cl) 0 u (u.retire cl (s.pc cl + 4)) := by
  obtain ⟨hret, hcl, honly⟩ := retire_steps_unchanged u cl (s.pc cl + 4) h4 hl h64
  exact ⟨hret.pc (by omega), hcl, honly⟩

/-- The state that leaves the vector queue, or waits in it, has the contents that its instruction left. -/
theorem State.vret_room (t : State) (hroom : (s.cluster cl).vq.length < 16) (ls : Bool) :
    ∃ u vq n, s.vret t cl false ls = .ret u ∧ u.cluster cl = { t.cluster cl with vq := vq } ∧ OnlyCluster cl (queueRegs cl) n t u := by
  have hshow : OnlyCluster cl (queueRegs cl) 0 t (t.showVflags cl) := OnlyCluster.refl.showVflags (by simp [queueRegs])
  by_cases hq : (s.cluster cl).vq = []
  · refine ⟨(t.showVflags cl).vleave cl ((s.cluster cl).vent ls), (t.cluster cl).vq, _, ?_, State.vleave_cluster _ _ _,
      hshow.vleave (by simp [queueRegs]) (by simp [queueRegs]) _⟩
    exact if_pos (by simp [ClusterSt.vqueued, hq])
  · refine ⟨(t.showVflags cl).putCl cl { t.cluster cl with vq := (s.cluster cl).vq ++ [(s.cluster cl).vent ls] },
      (s.cluster cl).vq ++ [(s.cluster cl).vent ls], 0, ?_, ?_, ?_⟩
    · unfold State.vret
      exact (if_neg (by simp [ClusterSt.vqueued, hq])).trans (if_neg (by omega))
    · rw [State.putCl, State.showCl_cluster, State.setCluster_cluster_self]
    · exact (hshow.setCluster' _).showCl (by simp [queueRegs]) (by simp [queueRegs]) (by simp [queueRegs])

end

/-! Slot accesses (R282). -/

/-- The pair of bits `k` of a word of 16 pairs, cleared, counts one on its own. -/
theorem bits_pair_add_one {w k : Nat} (hk : k < 16) (hw : w < 2 ^ 32) (h : bits w (2 * k + 1) (2 * k) = 0) :
    w + 1 <<< (2 * k) < 2 ^ 32 ∧ bits (w + 1 <<< (2 * k)) (2 * k + 1) (2 * k) = 1 := by
  have hsub : 2 * k + 1 + 1 - 2 * k = 2 := by omega
  simp only [bits, hsub, Nat.shiftRight_eq_div_pow, Nat.one_shiftLeft] at h ⊢
  have hpos : 0 < 2 ^ (2 * k) := Nat.two_pow_pos _
  have hM : 2 ^ 32 = 2 ^ (2 * k) * (4 * 4 ^ (15 - k)) := by
    rw [← Nat.pow_succ', show (4 : Nat) = 2 ^ 2 from rfl, ← Nat.pow_mul, ← Nat.pow_add]
    congr 1
    omega
  have hdiv : w / 2 ^ (2 * k) < 4 * 4 ^ (15 - k) := Nat.div_lt_of_lt_mul (hM ▸ hw)
  have hadd : (w + 2 ^ (2 * k)) / 2 ^ (2 * k) = w / 2 ^ (2 * k) + 1 := Nat.add_div_right _ hpos
  refine ⟨?_, by omega⟩
  rw [hM, Nat.mul_comm (2 ^ (2 * k)), ← Nat.div_lt_iff_lt_mul hpos, hadd]
  omega

/-- A slot code is written into its two bits, which read it then. -/
theorem State.setSlotCode_free (s : State) (cl : ClusterId) {k : Nat} (hk : k < 16) (h : s.slotCode cl k = 0) :
    (s.setSlotCode cl k 1).slotCode cl k = 1 := by
  have hlt : s.rd (F.CL_SLOTS_STATE cl.die cl.idx) < 2 ^ 32 := Nat.mod_lt _ (Nat.two_pow_pos 32)
  obtain ⟨hfit, hone⟩ := bits_pair_add_one hk hlt h
  rw [State.slotCode] at h
  rw [State.slotCode, State.setSlotCode]
  rw [h, State.rd_wr_self _ _ _ (by simp [F.CL_SLOTS_STATE]), Nat.zero_shiftLeft, Nat.sub_zero]
  exact (congrArg (bits · (2 * k + 1) (2 * k)) (Nat.mod_eq_of_lt hfit)).trans hone

/-- Writing a row of elements reads back in its place, and the rest as before. -/
theorem sget_foldl_sset_zipIdx (m : Sparse (BitVec 32)) (es : List Nat) (b n i : Nat) :
    sget (fun _ => 0) ((es.zipIdx n).foldl (fun m p => sset (fun _ => 0) m (b + p.2) (BitVec.ofNat 32 p.1)) m) i =
      if b + n ≤ i ∧ i < b + n + es.length then BitVec.ofNat 32 (es.getD (i - (b + n)) 0) else sget (fun _ => 0) m i := by
  induction es generalizing m n with
  | nil => simp
  | cons e es ih =>
    rw [List.zipIdx_cons, List.foldl_cons, ih, sget_sset, List.length_cons]
    by_cases hi : i = b + n
    · have hout : ¬ (b + (n + 1) ≤ i ∧ i < b + (n + 1) + es.length) := by omega
      rw [if_neg hout, if_pos hi, if_pos (by omega), hi, Nat.sub_self]
      rfl
    · rw [if_neg hi]
      by_cases hin : b + (n + 1) ≤ i ∧ i < b + (n + 1) + es.length
      · obtain ⟨d, rfl⟩ := Nat.exists_eq_add_of_le hin.1
        rw [if_pos hin, if_pos (by omega), Nat.add_sub_cancel_left, show b + (n + 1) + d - (b + n) = d + 1 by omega]
        rfl
      · rw [if_neg hin, if_neg (by omega)]

theorem slotAccess_eq_none {s : State} {cl : ClusterId} {c : ClusterSt} {f : Fmt5} (h9 : f.f9 = 0) (h4 : f.f4 = 0) (hk : f.f24.toNat < 16)
    (hrow : c.sn f.f14 < 128) (hkind : c.kind = 0) (hsew : c.sew = 32) (hvl : c.vl = 64) (hslot : s.slotCode cl f.f24.toNat ≠ 3)
    (hopen : c.openSlot ≠ some f.f24.toNat) (hwgq : c.wgqHas f.f24.toNat = false) (hmerge : c.mergePending f.f24.toNat c.icount = false)
    (hread : ∀ r ∈ c.readQ, r.slot ≠ f.f24.toNat) : slotAccess s cl c f = none := by
  have hmod : f.f24.toNat % 16 = f.f24.toNat := Nat.mod_eq_of_lt hk
  have hread' : c.readQ.any (fun r => r.slot == f.f24.toNat) = false := by
    rw [List.any_eq_false]
    intro r hr
    simpa using hread r hr
  simp [slotAccess, hmod, h9, h4, Nat.not_le.mpr hk, Nat.not_le.mpr hrow, ClusterSt.isFloat_of_kind hkind, hsew, hvl, State.slotBarred, hslot, hopen,
    hwgq, hmerge, hread']

/-! Casts of a V register (R270 to R272). What a cast reports leaves the contents of the clusters. -/

section
variable (s : State) (cl : ClusterId) (j : Nat)

theorem State.castRange_clusters (pstep tensor kind n : Nat) : (s.castRange j pstep tensor kind n).clusters = s.clusters := by
  unfold State.castRange
  split
  · rfl
  · dsimp only
    split
    · exact State.emit_clusters _ _
    · rfl

theorem State.castNf_clusters (pstep : Nat) (t : CastTarget) (nan : Bool) : (s.castNf cl j pstep t nan).clusters = s.clusters := by
  unfold State.castNf
  dsimp only
  rw [apply_ite State.clusters, State.emit_clusters, ite_self]
  rfl

theorem State.darkCount_clusters (pstep idx tensor kind nz total : Nat) : (s.darkCount j pstep idx tensor kind nz total).clusters = s.clusters := by
  unfold State.darkCount State.writeNat
  simp only [State.write_clusters]

theorem State.castReport_clusters (pstep : Nat) (t : CastTarget) (all row : CastStat) :
    (s.castReport cl j pstep t all row).clusters = s.clusters := by
  have hadd : ((s.add (F.NUM_CNT_CAST_SAT j) all.sat).add (F.NUM_CNT_CAST_RANGE j) all.range).clusters = s.clusters := rfl
  unfold State.castReport
  simp only [apply_ite State.clusters, State.darkCount_clusters, State.castNf_clusters, State.castRange_clusters, hadd, ite_self]

theorem State.castReport_cluster (pstep : Nat) (t : CastTarget) (all row : CastStat) :
    (s.castReport cl j pstep t all row).cluster cl = s.cluster cl := by
  rw [State.cluster, State.castReport_clusters, State.cluster]

/-- A cast to BF16 writes its rounded values, in order, at its address. -/
theorem State.castVec_bf16 {q : CastJob} {t : CastTarget} (h : s.castTarget j q.explicit q.desc = some t) (hf : t.fmt = 1) :
    (s.castVec cl j q).cluster cl = (s.cluster cl).setT q.eaddr (q.vals.flatMap (fun e =>
      leBytes 2 (castBf16 (s.castMult j t) (decodeElem q.srcCode e)).1)) := by
  unfold State.castVec
  rw [h]
  dsimp only
  rw [if_pos hf, State.castReport_cluster, State.setCluster_cluster_self, List.map_map, List.flatMap_map]
  rfl

end

section
variable {s u : State} {cl : ClusterId} {offs : List Nat} {n : Nat} (h : OnlyCluster cl offs n s u) (hoffs : ∀ off ∈ offs, 0x1000000 ≤ off)
include h hoffs

theorem OnlyCluster.rd_below {f : Fld} (hf : f.off < 0x1000000) : u.rd f = s.rd f :=
  h.2.2.1.rd_eq f fun hm => by have := hoffs _ hm; omega

theorem OnlyCluster.castTarget_eq {j : Nat} (hj : j < 16) (x : Bool) (d : Nat) : u.castTarget j x d = s.castTarget j x d := by
  have hset : u.rd (F.NUM_JOB_CFG_RECIPE_SET j) = s.rd (F.NUM_JOB_CFG_RECIPE_SET j) :=
    h.rd_below hoffs (by simp only [F.NUM_JOB_CFG_RECIPE_SET, Reg.NUM_JOB_CFG]; omega)
  have hslot : u.slot j = s.slot j := by
    have hslots := congrArg State.slots h.1
    have : u.slots = s.slots := hslots
    rw [State.slot, this, State.slot]
  have hlt : s.rd (F.NUM_JOB_CFG_RECIPE_SET j) < 4 := Nat.mod_lt _ (Nat.two_pow_pos 2)
  have hreg (d : BitVec 64) : u.reg (Reg.NUM_RECIPE (s.rd (F.NUM_JOB_CFG_RECIPE_SET j)) (bits d.toNat 43 41)) =
      s.reg (Reg.NUM_RECIPE (s.rd (F.NUM_JOB_CFG_RECIPE_SET j)) (bits d.toNat 43 41)) := by
    have hk : bits d.toNat 43 41 < 8 := Nat.mod_lt _ (by decide)
    refine h.2.2.1 _ fun hm => ?_
    have := hoffs _ hm
    simp only [Reg.NUM_RECIPE] at this
    omega
  unfold State.castTarget
  rw [hslot]
  split
  · rfl
  · split
    · rfl
    · dsimp only
      rw [hset, hreg]

theorem OnlyCluster.castMult_eq {j : Nat} (hj : j < 16) (t : CastTarget) : u.castMult j t = s.castMult j t := by
  unfold State.castMult State.rdInt
  rw [h.rd_below hoffs (f := F.NUM_SCALE_LS j) (by simp only [F.NUM_SCALE_LS, Reg.NUM_SCALE]; omega),
    h.rd_below hoffs (f := F.NUM_SCALE_PCM_G j) (by simp only [F.NUM_SCALE_PCM_G, Reg.NUM_SCALE]; omega)]

theorem OnlyCluster.castWaits_eq {j : Nat} (hj : j < 16) (pstep : Nat) (t : CastTarget) : u.castWaits j pstep t = s.castWaits j pstep t := by
  unfold State.castWaits State.step
  rw [h.rd_below hoffs (f := F.NUM_STEP_STEP j) (by simp only [F.NUM_STEP_STEP, Reg.NUM_STEP]; omega)]

end

theorem queueRegs_ge {cl : ClusterId} : ∀ off ∈ queueRegs cl, 0x1000000 ≤ off := by
  simp only [queueRegs, List.forall_mem_cons, Reg.CL_VSTATUS, Reg.CL_VCNT, Reg.CL_STATUS, Reg.CL_WGQ]
  refine ⟨?_, ?_, ?_, ?_, by simp⟩ <;> omega

/-- A write of the tile store changes it alone. -/
theorem ClusterSt.setT_frame (c : ClusterSt) (a : Nat) (data : List Byte) : { c.setT a data with tile := c.tile } = c := by
  induction data generalizing c a with
  | nil => rfl
  | cons b bs ih => exact congrArg (fun d : ClusterSt => { d with tile := c.tile }) (ih { c with tile := _ } (a + 1))

theorem ClusterSt.setT_tile_congr {c d : ClusterSt} (h : c.tile = d.tile) (a : Nat) (data : List Byte) : (c.setT a data).tile = (d.setT a data).tile := by
  induction data generalizing c d a with
  | nil => exact h
  | cons b bs ih => exact ih (congrArg (sset (fun _ => 0) · a b) h) (a + 1)

section
variable (c : ClusterSt) (a : Nat) (data : List Byte)

theorem ClusterSt.setT_vq : (c.setT a data).vq = c.vq := by
  have := congrArg ClusterSt.vq (c.setT_frame a data)
  exact this

theorem ClusterSt.setT_vregs : (c.setT a data).vregs = c.vregs := by
  have := congrArg ClusterSt.vregs (c.setT_frame a data)
  exact this

end

theorem State.vadvance_nil_cluster (s : State) (cl : ClusterId) : (s.vadvance cl []).cluster cl = { s.cluster cl with vq := [] } := by
  rw [State.vadvance, State.putCl, State.showCl_cluster, State.setCluster_cluster_self]

/-- The contents of a cluster whose one cast is due, once it has been performed. -/
theorem State.castRun_one {s : State} {cl : ClusterId} {j : Nat} {q : CastJob} {t : CastTarget} (hq : (s.cluster cl).castQ = [q])
    (hread : (s.cluster cl).readQ = []) (hvq : (s.cluster cl).vq = []) (ht : s.castTarget j q.explicit q.desc = some t)
    (hw : s.castWaits j q.pstep t = false) (hf : t.fmt = 1) :
    (s.castRun cl j).cluster cl = { (s.cluster cl).setT q.eaddr (q.vals.flatMap (fun e =>
      leBytes 2 (castBf16 (s.castMult j t) (decodeElem q.srcCode e)).1)) with castQ := [], vq := [] } := by
  have hready : s.castReady cl j q = true := by simp [State.castReady, hread, ht, hw]
  have hrun : (s.runCasts cl j (s.cluster cl).castQ).cluster cl = { (s.castVec cl j q).cluster cl with castQ := [] } := by
    rw [hq, State.runCasts, if_pos hready]
    exact State.setCluster_cluster_self _ _ _
  have hempty : ((s.runCasts cl j (s.cluster cl).castQ).cluster cl).vq = [] := by
    rw [hrun]
    exact (congrArg ClusterSt.vq (State.castVec_bf16 s cl j ht hf)).trans ((ClusterSt.setT_vq _ _ _).trans hvq)
  have hadv : s.castRun cl j = (s.runCasts cl j (s.cluster cl).castQ).vadvance cl
      ((s.runCasts cl j (s.cluster cl).castQ).cluster cl).vq := rfl
  rw [hadv, hempty, State.vadvance_nil_cluster, hrun, State.castVec_bf16 s cl j ht hf]

/-- The slot that a VPUTS leaves: 64 elements of the V register in half a row of it. -/
def ClusterSt.putsSlot (c : ClusterSt) (f : Fmt5) : AccSlot :=
  { c.aslot f.f24.toNat with
    vals := ((vElems (c.vreg f.f19) 32 64).zipIdx).foldl
      (fun m p => sset (fun _ => 0) m (halfRow (c.sn f.f14) + p.2) (BitVec.ofNat 32 p.1)) (c.aslot f.f24.toNat).vals }

/-- The state that a VPUTS takes to the vector queue: the slot's contents, and its code OPEN where it was FREE. -/
def State.putsState (s : State) (cl : ClusterId) (k : Nat) (a : AccSlot) : State :=
  if s.slotCode cl k = 0 then (s.setCluster cl ((s.cluster cl).setA k a)).setSlotCode cl k 1 else s.setCluster cl ((s.cluster cl).setA k a)

section
variable {s : State} {cl : ClusterId} {k : Nat} (a : AccSlot)

theorem State.putsState_cluster : (s.putsState cl k a).cluster cl = (s.cluster cl).setA k a := by
  unfold State.putsState
  split
  · exact (State.wr_cluster _ _ _ _).trans (State.setCluster_cluster_self _ _ _)
  · exact State.setCluster_cluster_self _ _ _

theorem State.putsState_mem : (s.putsState cl k a).mem = s.mem := by
  unfold State.putsState
  split <;> rfl

theorem State.putsState_slotCode (hk : k < 16) : (s.putsState cl k a).slotCode cl k = if s.slotCode cl k = 0 then 1 else s.slotCode cl k := by
  have hsame (c : ClusterSt) : (s.setCluster cl c).slotCode cl k = s.slotCode cl k := by
    rw [State.slotCode, State.setCluster_rd, State.slotCode]
  unfold State.putsState
  split
  · next h => exact State.setSlotCode_free _ cl hk ((hsame _).trans h)
  · exact hsame _

end

theorem clSlots_not_mem (cl : ClusterId) : Reg.CL_SLOTS cl.die cl.idx ∉ queueRegs cl ++ retireRegs cl := by
  simp [queueRegs, retireRegs, Reg.CL_SLOTS, Reg.CL_VSTATUS, Reg.CL_VCNT, Reg.CL_STATUS, Reg.CL_WGQ, Reg.CL_RETIRED, Reg.CL_WAIT]

/-- A vector instruction that leaves the contents and the registers below to what its body made of them. -/
theorem exec_vret {s : State} {cl : ClusterId} {i : Instr} {word : Nat} {body : ClusterSt → Issue} {t : State}
    (he : exec i s = s.issue cl word body) (hw : insnWord i = some word) (hb : body (s.cluster cl) = s.vret t cl false false)
    (hcode : (t.cluster cl).code = (s.cluster cl).code) (hf : VFits s cl i) :
    ∃ u vq icount n, exec i s = .next u ∧ u.pc cl = s.pc cl + 4 ∧ u.cluster cl = { t.cluster cl with vq, icount }
      ∧ OnlyCluster cl (queueRegs cl ++ retireRegs cl) n t u := by
  obtain ⟨⟨hr, h4, hl, h64⟩, hroom⟩ := hf
  obtain ⟨u, vq, n, hu, hcl, honly⟩ := State.vret_room t hroom false
  have hlen : (u.cluster cl).code = (s.cluster cl).code := by rw [hcl, ← hcode]
  obtain ⟨hpc, hcl', honly'⟩ := retire_contents h4 (hlen ▸ hl) (hlen ▸ h64)
  refine ⟨u.retire cl (s.pc cl + 4), vq, (u.cluster cl).icount + 1, n + 0, exec_ret he hw hr (hb.trans hu), hpc, ?_, honly.trans honly'⟩
  rw [hcl', hcl]

/-- The cast that a VCVT of the vector puts into the queue, and its entry in the vector queue. -/
def ClusterSt.castJob (c : ClusterSt) (f : Fmt5) : CastJob :=
  ⟨vElems (c.vreg f.f24) c.sew c.vl, c.fcode, f.f4 = 1, if f.f4 = 1 then bits (c.sn f.f14) 3 0 else bits (c.sn f.f14) 15 0,
    bits (c.sn f.f19) 20 0, bits (c.sn f.f19) 52 32, c.icount, c.pstep⟩

def ClusterSt.castEnt (c : ClusterSt) : VEnt := ⟨c.vl, c.vtype, true, false, c.icount⟩

/-- Settles O20: SETVL changes the contents alone; a slot access that nothing bars is a vector result or a half row of the slot; a cast
that nothing holds is performed at issue. -/
theorem vectorState : Obligations.VectorState := by
  refine ⟨fun s cl f hf himm hsew hkind hne => ?_, fun s cl f hwf h9 => ⟨?_, ?_, ?_⟩⟩
  · refine exec_steps (by rw [exec, execSetvl]) rfl hf ?_ (ClusterSt.setS_code _ _ _)
    have hmod : f.imm.toNat % 16 = f.imm.toNat := Nat.mod_eq_of_lt himm
    have hok : vtypeOk f.imm.toNat = true := by
      have : f.imm.toNat ≠ 0 := fun h => hne (BitVec.eq_of_toNat_eq h)
      simp only [vtypeOk, Bool.and_eq_true, decide_eq_true_eq]
      omega
    dsimp only
    rw [if_neg (by omega), hmod, hok]
    rfl
  · intro h4 hk hrow hkind hsew hvl hslot hopen hwgq hmerge hread
    have hnone := slotAccess_eq_none h9 h4 hk hrow hkind hsew hvl hslot hopen hwgq hmerge hread
    have hmod : f.f24.toNat % 16 = f.f24.toNat := Nat.mod_eq_of_lt hk
    refine ⟨exec_setV (by rw [exec, execVgets]) rfl ?_, fun hfit => ?_⟩
    · dsimp only
      rw [hnone, hmod]
      rfl
    · obtain ⟨u, vq, icount, n, hu, hpc, hcl, honly⟩ := exec_vret (t := s.putsState cl f.f24.toNat ((s.cluster cl).putsSlot f))
        (i := .vputs cl f) (by rw [exec, execVputs]) rfl (by
          dsimp only
          rw [hnone, hmod]
          rfl) (by rw [State.putsState_cluster]; rfl) hfit
      have hslots : u.slotCode cl f.f24.toNat = if s.slotCode cl f.f24.toNat = 0 then 1 else s.slotCode cl f.f24.toNat := by
        rw [State.slotCode, honly.2.2.1.rd_eq _ (clSlots_not_mem cl)]
        exact State.putsState_slotCode _ hk
      have ha : (u.cluster cl).aslot f.f24.toNat = (s.cluster cl).putsSlot f := by
        rw [hcl, State.putsState_cluster]
        exact sget_sset_self _ _ _ _
      refine ⟨u, hu, hpc, honly.mem_eq.trans (State.putsState_mem _), ?_, ?_, fun i hi => ?_, hslots⟩
      · rw [ha]
        rfl
      · rw [hcl, State.putsState_cluster]
        rfl
      · rw [ha]
        refine (sget_foldl_sset_zipIdx _ _ _ _ _).trans ?_
        by_cases hin : halfRow ((s.cluster cl).sn f.f14) ≤ i ∧ i < halfRow ((s.cluster cl).sn f.f14) + 64
        · have hlt : i - halfRow ((s.cluster cl).sn f.f14) < 64 := by omega
          rw [if_pos (by simpa [vElems] using hin)]
          refine Eq.trans ?_ (if_pos hin).symm
          simp only [vElems, List.getD_eq_getElem?_getD, Nat.add_zero, List.getElem?_map, List.getElem?_range hlt, Option.map_some,
            Option.getD_some]
          rfl
        · rw [if_neg (by simpa [vElems] using hin)]
          exact (if_neg hin).symm
  · intro h4 hkind hvl hnone
    refine exec_vtaken (by rw [exec, execVcvt]) rfl ?_ rfl rfl
    have h4' : f.f4 ≠ 1 := by rw [h4]; decide
    dsimp only
    rw [if_neg (by simp [h9, h4])]
    simp only [h4', if_false, decide_false, hnone]
    rw [if_neg (by simp [ClusterSt.isFloat_of_kind hkind]), if_pos hvl]
    rfl
  · intro j tg hj hfn ht hfmt htwin hkind hsew hvl hsa heven hfit hwgq hcastQ hvq hreadQ hwaits hvfits
    obtain ⟨⟨hr, h4, hl, h64⟩, -⟩ := hvfits
    have hj16 := s.slotOfCl_lt hj
    obtain ⟨honly, hcl, -⟩ := s.vdone_vleave_spec cl { s.cluster cl with castQ := [(s.cluster cl).castJob f] } (s.cluster cl).castEnt
    have hoffs : ∀ off ∈ [Reg.CL_VSTATUS cl.die cl.idx, Reg.CL_VCNT cl.die cl.idx], 0x1000000 ≤ off :=
      fun off ho => queueRegs_ge (cl := cl) off (by simp [queueRegs] at ho ⊢; tauto)
    have hu := State.castRun_one (t := tg) (j := j) (by rw [hcl]) (by rw [hcl]; exact hreadQ) (by rw [hcl]; exact hvq)
      (by rw [honly.castTarget_eq hoffs hj16]; exact ht) (by rw [honly.castWaits_eq hoffs hj16]; exact hwaits) hfmt
    rw [hcl, honly.castMult_eq hoffs hj16] at hu
    have hcode : (((s.vdone cl { s.cluster cl with castQ := [(s.cluster cl).castJob f] }).vleave cl (s.cluster cl).castEnt).castRun cl j
        |>.cluster cl).code = (s.cluster cl).code := by
      rw [hu]
      exact ClusterSt.setT_code _ _ _
    obtain ⟨hpc, hcl', -⟩ := retire_contents h4 (hcode ▸ hl) (hcode ▸ h64)
    refine ⟨_, exec_ret (by rw [exec, execVcvt]) rfl hr ?_, hpc, ?_, ?_, ?_⟩
    · have hvret : s.vret (s.setCluster cl { s.cluster cl with castQ := [(s.cluster cl).castJob f] }) cl true false =
          .ret ((s.vdone cl { s.cluster cl with castQ := [(s.cluster cl).castJob f] }).vleave cl (s.cluster cl).castEnt) := by
        unfold State.vret
        exact if_pos (by simp [ClusterSt.vqueued, hvq, hcastQ])
      have hfits : ¬ tileSize < bits ((s.cluster cl).sn f.f19) 20 0 + 2 * (s.cluster cl).vl := by omega
      dsimp only
      rw [if_neg (by simp [h9]; omega), hj, Option.getD_some, ht]
      dsimp only
      rw [if_neg (by simp [hsa]), if_neg (by simp [ClusterSt.isFloat_of_kind hkind]), if_neg (by omega), if_neg (by simp [htwin, hfmt, hsew]),
        if_neg (by simp [hfmt]), if_neg (by simp [hfmt, heven]), if_neg (by simpa [hfmt] using hfits), if_neg (by simp [hfmt]),
        if_neg (by simp [hwgq]), hcastQ]
      exact congrArg (fun i : Issue => match i with | .ret s2 => Issue.ret (s2.castRun cl j) | i => i) hvret
    · rw [hcl', hu]
    · rw [hcl', hu]
      exact ClusterSt.setT_vregs _ _ _
    · rw [hcl', hu]
      exact ClusterSt.setT_tile_congr (c := { s.cluster cl with castQ := [(s.cluster cl).castJob f] }) (d := s.cluster cl) rfl
        ((s.cluster cl).castJob f).eaddr _

end Sys2Proof.Machine
end

section

/-! SUPPORT. Matrix instructions, the array and the ends of readouts (O21 to O23). -/
namespace Sys2Proof.Machine
open Sys2Proof

/-! Matrix instructions and readouts enter their queues (R178, R189 to R195, R198, R201, R282). -/

@[simp] theorem fillBufs_code (c : ClusterSt) (l : List OpRec) : (fillBufs c l).code = c.code := by
  induction l generalizing c with
  | nil => rfl
  | cons r rs ih =>
    rw [fillBufs]
    split
    · split
      · exact ih _
      · rfl
    · split
      · exact ih _
      · rfl

theorem State.startReadout_cluster (s : State) (cl : ClusterId) : (s.startReadout cl).cluster cl = s.cluster cl := by
  unfold State.startReadout
  dsimp only
  split
  · rfl
  · split
    · rfl
    · exact State.wr_cluster _ _ _ _

theorem OnlyCluster.startReadout {cl : ClusterId} {offs : List Nat} {n : Nat} {s t : State} (h : OnlyCluster cl offs n s t)
    (hs : Reg.CL_SLOTS cl.die cl.idx ∈ offs) : OnlyCluster cl offs n s (t.startReadout cl) := by
  unfold State.startReadout
  dsimp only
  split
  · exact h
  · split
    · exact h
    · exact h.wr hs _

theorem OnlyCluster.out_eq {cl : ClusterId} {offs : List Nat} {n : Nat} {s t : State} (h : OnlyCluster cl offs n s t) : t.out = s.out := by
  have := congrArg State.out h.1
  exact this

section
variable {s : State} {cl : ClusterId} {f : Fmt5}

/-- The body of a load of an operand record that fits. -/
theorem exec_loadRecord {i : Instr} {opc : Nat} {isB : Bool} {g : MCfg} (he : exec i s = loadRecord cl opc isB f s)
    (hw : insnWord i = some (word5 opc f)) (hg : (s.cluster cl).cfg = some g)
    (h24 : f.f24 = 0) (h14 : f.f14 = 0) (h9 : f.f9 = 0) (h4 : f.f4.toNat < 2)
    (hal : (s.cluster cl).sn f.f19 % 64 = 0) (hroom : (s.cluster cl).loadQ.length < 8)
    (hfit : (s.cluster cl).sn f.f19 + recBytes (if isB then g.fmtB else g.fmtA) isB ≤ tileSize)
    (hlock : s.interlocked cl ((s.cluster cl).sn f.f19) (recBytes (if isB then g.fmtB else g.fmtA) isB) false = false)
    (hf : Fits s cl i (s.pc cl + 4)) : ∃ t, exec i s = .next t ∧ Steps s t cl (fillBufs (s.cluster cl) ((s.cluster cl).loadQ ++
      [⟨isB, if isB then g.fmtB else g.fmtA, bit f.f4.toNat 0, (s.cluster cl).tbytes ((s.cluster cl).sn f.f19)
        (recBytes (if isB then g.fmtB else g.fmtA) isB), (s.cluster cl).icount⟩])) (s.pc cl + 4) := by
  refine exec_steps (he.trans (by rw [loadRecord])) hw hf ?_ (fillBufs_code _ _)
  have hfl : ¬ 2 ≤ f.f4.toNat := by omega
  have hin : ¬ tileSize < (s.cluster cl).sn f.f19 + recBytes (if isB then g.fmtB else g.fmtA) isB := by omega
  dsimp only
  rw [if_neg (by simp [h24, h14, h9, hfl]), hg]
  dsimp only
  rw [if_neg (by simp [hal]), if_neg hin, hlock]
  exact (if_neg Bool.false_ne_true).trans (if_neg (by omega))

/-- The first slots that a product may not take: a TIE slot, and any but the open one. -/
theorem slotTaken_eq_false {k : Nat} (hslot : s.slotCode cl k ≠ 3) (hopen : (s.cluster cl).openSlot = none ∨ (s.cluster cl).openSlot = some k) :
    (decide (s.slotCode cl k = 3) || ((s.cluster cl).openSlot.isSome && decide ((s.cluster cl).openSlot ≠ some k))) = false := by
  obtain h | h := hopen <;> simp [hslot, h]

theorem exec_product {i : Instr} {opc : Nat} {ends : Bool} {g : MCfg} (he : exec i s = issueProduct cl opc ends f s)
    (hw : insnWord i = some (word5 opc f)) (hg : (s.cluster cl).cfg = some g) (hk : f.f24.toNat < 16) (h1 : 1 ≤ (s.cluster cl).sn f.f19)
    (hmax : (s.cluster cl).sn f.f19 ≤ 65535) (hslot : s.slotCode cl f.f24.toNat ≠ 3)
    (hopen : (s.cluster cl).openSlot = none ∨ (s.cluster cl).openSlot = some f.f24.toNat)
    (h14 : f.f14 = 0) (h9 : f.f9 = 0) (h4 : f.f4 = 0) (hwgq : (s.cluster cl).wgqHas f.f24.toNat = false) (hroom : (s.cluster cl).arrQ.length < 8)
    (hf : Fits s cl i (s.pc cl + 4)) : ∃ t, exec i s = .next t ∧ Steps s t cl { s.cluster cl with
      arrQ := (s.cluster cl).arrQ ++ [⟨f.f24.toNat, (s.cluster cl).sn f.f19, 0, ends, g, (s.cluster cl).icount, (s.cluster cl).pstep, 0, 0,
        false, false, 0⟩]
      openSlot := if ends then none else some f.f24.toNat } (s.pc cl + 4) := by
  refine exec_steps (he.trans (by rw [issueProduct])) hw hf ?_ rfl
  have hmod : f.f24.toNat % 16 = f.f24.toNat := Nat.mod_eq_of_lt hk
  dsimp only
  rw [hmod, if_neg (by simp [h4, Nat.not_le.mpr hk]), if_neg (by simp [h4, bit]), if_neg (by simp [h14, h9, h4]; omega), hg]
  dsimp only
  rw [slotTaken_eq_false hslot hopen, hwgq]
  exact (if_neg (by simp)).trans (if_neg (by omega))

/-- A readout that finds room enters its queue, and its slot is READOUT where it is the first and nothing is due before it. -/
theorem exec_enterReadout {i : Instr} {word : Nat} {body : ClusterSt → Issue} {r : ReadEnt} (he : exec i s = s.issue cl word body)
    (hw : insnWord i = some word) (hb : body (s.cluster cl) = s.enterReadout cl (s.cluster cl) r) (hroom : (s.cluster cl).readQ.length < 8)
    (hf : Fits s cl i (s.pc cl + 4)) : ∃ t, exec i s = .next t ∧ t.pc cl = s.pc cl + 4 ∧ (t.cluster cl).readQ = (s.cluster cl).readQ ++ [r]
      ∧ (t.cluster cl).tile = (s.cluster cl).tile ∧ t.mem = s.mem ∧ t.out = s.out ∧ SameClusters cl s t := by
  obtain ⟨hr, h4, hl, h64⟩ := hf
  have honly : OnlyCluster cl [Reg.CL_SLOTS cl.die cl.idx] 0 s
      ((s.setCluster cl { s.cluster cl with readQ := (s.cluster cl).readQ ++ [r] }).startReadout cl) :=
    (OnlyCluster.of_setCluster _).startReadout (by simp)
  have hcl := State.startReadout_cluster (s.setCluster cl { s.cluster cl with readQ := (s.cluster cl).readQ ++ [r] }) cl
  rw [State.setCluster_cluster_self] at hcl
  have hcode : (((s.setCluster cl { s.cluster cl with readQ := (s.cluster cl).readQ ++ [r] }).startReadout cl).cluster cl).code =
      (s.cluster cl).code := by rw [hcl]
  obtain ⟨hpc, hcl', honly'⟩ := retire_contents h4 (hcode ▸ hl) (hcode ▸ h64)
  have hall := honly.trans honly'
  refine ⟨_, exec_ret he hw hr (hb.trans (if_neg (by omega))), hpc, ?_, ?_, hall.mem_eq, hall.out_eq, hall.2.2.2⟩
  · rw [hcl', hcl]
  · rw [hcl', hcl]

end

theorem clWgq_not_mem_retireRegs (cl : ClusterId) : Reg.CL_WGQ cl.die cl.idx ∉ retireRegs cl := by
  simp [retireRegs, Reg.CL_WGQ, Reg.CL_STATUS, Reg.CL_RETIRED, Reg.CL_WAIT]

/-- CDn_CL_WGQ shows the number of waiting products. -/
theorem State.showCl_entries (s : State) (cl : ClusterId) :
    (s.showCl cl).rd (F.CL_WGQ_ENTRIES cl.die cl.idx) = (s.cluster cl).wgq.length % 2 ^ 7 := by
  have hv : Reg.CL_WGQ cl.die cl.idx ≠ Reg.CL_VSTATUS cl.die cl.idx := by simp [Reg.CL_WGQ, Reg.CL_VSTATUS]
  have hs : Reg.CL_WGQ cl.die cl.idx ≠ Reg.CL_STATUS cl.die cl.idx := by simp [Reg.CL_WGQ, Reg.CL_STATUS]
  unfold State.showCl State.wrB
  rw [State.rd_wr_ne _ _ _ _ hv, State.rd_wr_ne _ _ _ _ hs, State.rd_wr_disj _ _ _ _ (by simp [F.CL_WGQ_HEAD])
    (by simp [F.CL_WGQ_HEAD, F.CL_WGQ_ENTRIES]), State.rd_wr_self _ _ _ (by simp [F.CL_WGQ_ENTRIES])]
  rfl

/-- A product of panels that fits enters the WGQ. -/
theorem exec_deferred {s : State} {cl : ClusterId} {f : Fmt5} {g : MCfg} (hg : (s.cluster cl).cfg = some g)
    (hk : f.f24.toNat < 16) (h1 : 1 ≤ (s.cluster cl).sn f.f19)
    (hmax : (s.cluster cl).sn f.f19 ≤ 65535) (hslot : s.slotCode cl f.f24.toNat ≠ 3)
    (hopen : (s.cluster cl).openSlot = none ∨ (s.cluster cl).openSlot = some f.f24.toNat)
    (h4 : f.f4.toNat < 8) (h0 : bit f.f4.toNat 0 = true) (ha : (s.cluster cl).sn f.f14 % 64 = 0) (hb : (s.cluster cl).sn f.f9 % 64 = 0)
    (hover : panelOver g ((s.cluster cl).sn f.f19) ((s.cluster cl).sn f.f14) ((s.cluster cl).sn f.f9) = none)
    (hroom : (s.cluster cl).wgq.length < 64) (hf : Fits s cl (.mma cl f) (s.pc cl + 4)) :
    ∃ t, exec (.mma cl f) s = .next t ∧ t.pc cl = s.pc cl + 4 ∧ t.mem = s.mem
      ∧ t.rd (F.CL_WGQ_ENTRIES cl.die cl.idx) = (s.cluster cl).wgq.length + 1
      ∧ t.cluster cl = { s.cluster cl with icount := (s.cluster cl).icount + 1, wgq := (s.cluster cl).wgq ++
        [⟨f.f24.toNat, (s.cluster cl).sn f.f19, 0, true, g, (s.cluster cl).icount, (s.cluster cl).pstep, (s.cluster cl).sn f.f14,
          (s.cluster cl).sn f.f9, bit f.f4.toNat 1, bit f.f4.toNat 2, 1⟩] } := by
  obtain ⟨hr, h4pc, hl, h64⟩ := hf
  have hmod : f.f24.toNat % 16 = f.f24.toNat := Nat.mod_eq_of_lt hk
  have hbody : exec (.mma cl f) s = .next ((s.putCl cl { s.cluster cl with wgq := (s.cluster cl).wgq ++
        [⟨f.f24.toNat, (s.cluster cl).sn f.f19, 0, true, g, (s.cluster cl).icount, (s.cluster cl).pstep, (s.cluster cl).sn f.f14,
          (s.cluster cl).sn f.f9, bit f.f4.toNat 1, bit f.f4.toNat 2, 1⟩] }).retire cl (s.pc cl + 4)) := by
    refine exec_ret (by rw [exec, execMma, issueProduct]) rfl hr ?_
    dsimp only
    rw [hmod, if_neg (by simp [Nat.not_le.mpr hk, Nat.not_le.mpr h4]), if_pos (by simp [h0]), if_neg (by simp; omega), hg]
    dsimp only
    rw [if_neg (by simp [ha]), if_neg (by simp [hb]), hover]
    dsimp only
    rw [slotTaken_eq_false hslot hopen]
    exact (if_neg Bool.false_ne_true).trans (if_neg (by omega))
  have hput (c : ClusterSt) : OnlyCluster cl (queueRegs cl) 0 s (s.putCl cl c) :=
    (OnlyCluster.of_setCluster c).showCl (by simp [queueRegs]) (by simp [queueRegs]) (by simp [queueRegs])
  have hcl (c : ClusterSt) : (s.putCl cl c).cluster cl = c := by rw [State.putCl, State.showCl_cluster, State.setCluster_cluster_self]
  obtain ⟨hpc, hcl', honly⟩ := retire_contents h4pc (u := s.putCl cl { s.cluster cl with wgq := (s.cluster cl).wgq ++ _ })
    (by rw [hcl]; exact hl) (by rw [hcl]; exact h64)
  refine ⟨_, hbody, hpc, ((hput _).trans honly).mem_eq, ?_, ?_⟩
  · rw [honly.2.2.1.rd_eq _ (clWgq_not_mem_retireRegs cl), State.putCl, State.showCl_entries, State.setCluster_cluster_self]
    rw [List.length_append, List.length_singleton]
    exact Nat.mod_eq_of_lt (by omega)
  · rw [hcl', hcl]

/-- Settles O21: each body answers with its contents where no exception and no full queue holds it. -/
theorem matrixIssues : Obligations.MatrixIssues := by
  refine ⟨fun s cl f => ⟨fun hf h24 h9 h4 ha hb hfa hfab hch1 hch hopen hroom => ?_, fun g hg => ⟨?_, ?_⟩⟩, fun s cl f hk h9 hroom => ⟨?_, ?_, ?_⟩⟩
  · refine exec_steps (by rw [exec, execMcfg]) rfl hf ?_ rfl
    have hch' : ¬ 128 < bits ((s.cluster cl).sn f.f19) 55 48 := by omega
    have hch1' : bits ((s.cluster cl).sn f.f19) 55 48 ≠ 0 := by omega
    dsimp only
    rw [if_neg (by simp [h24, h9, h4, ha, hb]), if_neg (by simp [← hfab, hfa, hch1', hch', hopen]), if_neg (by omega)]
  · intro h24 h14 h9 h4 hal hroom
    simp only [List.forall_mem_cons]
    refine ⟨fun hf hfit hlock => ?_, fun hf hfit hlock => ?_, by simp⟩
    · exact exec_loadRecord (isB := false) (by rw [exec, execMlda]) rfl hg h24 h14 h9 h4 hal hroom hfit hlock hf
    · exact exec_loadRecord (isB := true) (by rw [exec, execMldb]) rfl hg h24 h14 h9 h4 hal hroom hfit hlock hf
  · intro hk h1 hmax hslot hopen
    refine ⟨fun h14 h9 h4 hwgq hroom => ?_, fun hf h4 h0 ha hb hover hroom => exec_deferred hg hk h1 hmax hslot hopen h4 h0 ha hb hover hroom hf⟩
    simp only [List.forall_mem_cons]
    refine ⟨fun hf => ?_, fun hf => ?_, by simp⟩
    · exact exec_product (ends := true) (by rw [exec, execMma]) rfl hg hk h1 hmax hslot hopen h14 h9 h4 hwgq hroom hf
    · exact exec_product (ends := false) (by rw [exec, execMacc]) rfl hg hk h1 hmax hslot hopen h14 h9 h4 hwgq hroom hf
  · intro t ht h4 hfmt htwin hrow hcol hrowfit hcolfit hbar hf
    refine exec_enterReadout (by rw [exec, execMdrn]) rfl ?_ hroom hf
    have hmod : f.f24.toNat % 16 = f.f24.toNat := Nat.mod_eq_of_lt hk
    dsimp only
    rw [if_neg (by simp [h9]; omega), ht, hmod]
    have hfmt' : ¬ 7 ≤ t.fmt := by omega
    have hrowfit' : ¬ tileSize < bits ((s.cluster cl).sn f.f19) 20 0 + drainBytes t.fmt := by omega
    dsimp only
    rw [if_neg (by simpa [hfmt'] using fun h => Nat.lt_of_succ_le (htwin h)), if_neg (by simp [hrow]), if_neg (by simpa using hcol), if_neg hrowfit',
      if_neg (by simpa using hcolfit), hbar]
    exact if_neg Bool.false_ne_true
  · intro h14 h4 hopen hwgq htie hf
    refine exec_enterReadout (by rw [exec, execMtie]) rfl ?_ hroom hf
    have hmod : f.f24.toNat % 16 = f.f24.toNat := Nat.mod_eq_of_lt hk
    dsimp only
    rw [if_neg (by simp [h9, h14]; omega), hmod, if_neg (by simp [hopen, hwgq]), Option.isNone_eq_false_iff.mpr htie]
    exact if_neg Bool.false_ne_true
  · intro h14 h4 hbar hf
    refine exec_enterReadout (by rw [exec, execRpush]) rfl ?_ hroom hf
    have hmod : f.f24.toNat % 16 = f.f24.toNat := Nat.mod_eq_of_lt hk
    dsimp only
    rw [if_neg (by simp [h9, h14]; omega), hmod, hbar]
    exact if_neg Bool.false_ne_true

/-! The array: K-steps, merges, deferred products and push copies (R86, R97, R101, R105, R112, R193, R284). -/

section
variable (s : State) (cl : ClusterId) (c : ClusterSt)

theorem State.putCl_cluster_self : (s.putCl cl c).cluster cl = c := by rw [State.putCl, State.showCl_cluster, State.setCluster_cluster_self]

end

theorem OnlyCluster.putCl {s : State} {cl : ClusterId} {offs : List Nat} {n : Nat} {t : State} (c : ClusterSt) (h : OnlyCluster cl offs n s t) (hq : ∀ o ∈ queueRegs cl, o ∈ offs) :
    OnlyCluster cl offs n s (t.putCl cl c) :=
  (h.setCluster' c).showCl (hq _ (by simp [queueRegs])) (hq _ (by simp [queueRegs])) (hq _ (by simp [queueRegs]))

/-- What a K-step changes beside the cluster's contents. -/
def arrayRegs (cl : ClusterId) : List Nat := Reg.CL_BUSY cl.die cl.idx :: queueRegs cl

theorem clBusy_not_mem_queueRegs (cl : ClusterId) : Reg.CL_BUSY cl.die cl.idx ∉ queueRegs cl := by
  simp [queueRegs, Reg.CL_BUSY, Reg.CL_VSTATUS, Reg.CL_VCNT, Reg.CL_STATUS, Reg.CL_WGQ]

/-- Operand buffers fill from the load queue, and nothing else of the contents changes. -/
theorem fillBufs_frame (c : ClusterSt) (l : List OpRec) : { fillBufs c l with aBuf := c.aBuf, bBuf := c.bBuf, loadQ := c.loadQ } = c := by
  induction l generalizing c with
  | nil => rfl
  | cons r rs ih =>
    rw [fillBufs]
    split
    · split
      · exact congrArg (fun d : ClusterSt => { d with aBuf := c.aBuf, bBuf := c.bBuf, loadQ := c.loadQ }) (ih { c with bBuf := c.bBuf ++ [r] })
      · rfl
    · split
      · exact congrArg (fun d : ClusterSt => { d with aBuf := c.aBuf, bBuf := c.bBuf, loadQ := c.loadQ }) (ih { c with aBuf := c.aBuf ++ [r] })
      · rfl

section
variable (c : ClusterSt) (l : List OpRec)

theorem fillBufs_arrQ : (fillBufs c l).arrQ = c.arrQ := by
  have := congrArg ClusterSt.arrQ (fillBufs_frame c l)
  exact this

theorem fillBufs_acc : (fillBufs c l).acc = c.acc := by
  have := congrArg ClusterSt.acc (fillBufs_frame c l)
  exact this

theorem fillBufs_chunkK : (fillBufs c l).chunkK = c.chunkK := by
  have := congrArg ClusterSt.chunkK (fillBufs_frame c l)
  exact this

theorem fillBufs_latch : (fillBufs c l).latch = c.latch := by
  have := congrArg ClusterSt.latch (fillBufs_frame c l)
  exact this

theorem fillBufs_latchVals : (fillBufs c l).latchVals = c.latchVals := by
  have := congrArg ClusterSt.latchVals (fillBufs_frame c l)
  exact this

end

/-- The contents after a K-step that does not end its chunk. -/
theorem kStepCl_inside {c : ClusterSt} {e : ArrEnt} (hchunk : c.chunkK + 1 ≠ e.cfg.chunk) (hlast : e.done + 1 ≠ e.ksteps) (a b : OpRec) :
    kStepCl c e a b = { c with acc := kStepAcc c.acc a b, chunkK := c.chunkK + 1, chunk := some ⟨e.slot, e.cfg, e.pstep, e.ord⟩ } :=
  if_neg (by simp [hchunk, hlast])

/-- The contents after a K-step that ends its chunk, with the merge latches free. -/
theorem kStepCl_last {c : ClusterSt} {e : ArrEnt} (h : c.chunkK + 1 = e.cfg.chunk ∨ (e.ends = true ∧ e.done + 1 = e.ksteps))
    (hlatch : c.latch = none) (a b : OpRec) : kStepCl c e a b =
      { c with latch := some ⟨e.slot, e.cfg, e.pstep, e.ord⟩, latchVals := kStepAcc c.acc a b, acc := [], chunkK := 0, chunk := none,
               chunkEnded := false } := by
  refine (if_pos (by simpa using h)).trans ?_
  rw [endChunk, hlatch]

section
variable {s u : State} {cl : ClusterId} {n : Nat} {c : ClusterSt}

/-- Contents written and the array's cycles counted. -/
theorem OnlyCluster.putClBusy (h : OnlyCluster cl (arrayRegs cl) n s u) (c : ClusterSt) (m : Nat) :
    OnlyCluster cl (arrayRegs cl) n s ((u.putCl cl c).addBusy cl m) :=
  (h.putCl c fun _ ho => List.mem_cons_of_mem _ ho).wr (by simp [arrayRegs, F.CL_BUSY_BUSY]) _

theorem State.addBusy_cluster (m : Nat) : (u.addBusy cl m).cluster cl = u.cluster cl := State.wr_cluster _ _ _ _

theorem State.putClBusy_cluster (c : ClusterSt) (m : Nat) : ((u.putCl cl c).addBusy cl m).cluster cl = c :=
  State.addBusy_cluster m |>.trans (State.putCl_cluster_self _ _ _)

theorem State.putCl_rd (c : ClusterSt) {f : Fld} (hf : f.off ∉ queueRegs cl) : (u.putCl cl c).rd f = u.rd f := by
  have h : OnlyCluster cl (queueRegs cl) 0 u (u.putCl cl c) := OnlyCluster.refl.putCl c fun _ ho => ho
  exact h.2.2.1.rd_eq f hf

theorem State.putClBusy_rd (c : ClusterSt) (m : Nat) : ((u.putCl cl c).addBusy cl m).rd (F.CL_BUSY_BUSY cl.die cl.idx) =
    (u.rd (F.CL_BUSY_BUSY cl.die cl.idx) + m) % 2 ^ 64 := by
  rw [State.addBusy, State.rd_wr_self _ _ _ (by simp [F.CL_BUSY_BUSY]), State.putCl_rd c (clBusy_not_mem_queueRegs cl)]
  rfl

end

/-- The contents after a K-step of the head of the array queue on the records at the heads of the operand buffers. -/
def arrStep (c : ClusterSt) (e : ArrEnt) (es : List ArrEnt) (a b : OpRec) (as bs : List OpRec) : ClusterSt :=
  { kStepCl c e a b with
    aBuf := as, bBuf := bs
    arrQ := if e.done + 1 = e.ksteps then passMcfg es else { e with done := e.done + 1 } :: es
    arrOpen := if e.done + 1 = e.ksteps then !e.ends else c.arrOpen }

/-- The records of the panels that the next K-step of a deferred product reads. -/
def panelA (c : ClusterSt) (e : ArrEnt) : OpRec :=
  ⟨false, e.cfg.fmtA, e.aTrans, c.tbytes (e.aBase + recBytes e.cfg.fmtA false * e.done) (recBytes e.cfg.fmtA false), e.ord⟩

def panelB (c : ClusterSt) (e : ArrEnt) : OpRec :=
  ⟨true, e.cfg.fmtB, e.bTrans, c.tbytes (e.bBase + recBytes e.cfg.fmtB true * e.done) (recBytes e.cfg.fmtB true), e.ord⟩

/-- The contents after a K-step of the running deferred product that is not its last. -/
def deferredStep (c : ClusterSt) (e : ArrEnt) (es : List ArrEnt) : ClusterSt :=
  { kStepCl c e (panelA c e) (panelB c e) with wgq := { e with done := e.done + 1, wstate := 2 } :: es, drainPrio := c.drainPrio && true }

section
variable {s : State} {cl : ClusterId} {j : Nat} {e : ArrEnt} (hj : s.slotOfCl cl = some j) (hheld : s.rotHeld cl = false)
  (hended : (s.cluster cl).chunkEnded = false)
include hj hheld hended

/-- A K-step of the head of the array queue, with a record in each operand buffer (R86). -/
theorem exec_kStep_array {a b : OpRec} {es : List ArrEnt} {as bs : List OpRec} (hwgq : (s.cluster cl).wgq = []) (harr : (s.cluster cl).arrQ = e :: es)
    (ha : (s.cluster cl).aBuf = a :: as) (hb : (s.cluster cl).bBuf = b :: bs) :
    ∃ t n, exec (.kStep cl) s = .next t ∧ OnlyCluster cl (arrayRegs cl) n s t
      ∧ t.rd (F.CL_BUSY_BUSY cl.die cl.idx) = (s.rd (F.CL_BUSY_BUSY cl.die cl.idx) + kCycles e.cfg.fmtA) % 2 ^ 64
      ∧ t.cluster cl = fillBufs (arrStep (s.cluster cl) e es (s.operand e.cfg.fmtA a) (s.operand e.cfg.fmtB b) as bs)
        (arrStep (s.cluster cl) e es (s.operand e.cfg.fmtA a) (s.operand e.cfg.fmtB b) as bs).loadQ := by
  have htick : ∃ n, OnlyCluster cl (arrayRegs cl) n s (if a.fmt = e.cfg.fmtA && b.fmt = e.cfg.fmtB then s else s.tick)
      ∧ ∀ f, (if a.fmt = e.cfg.fmtA && b.fmt = e.cfg.fmtB then s else s.tick).rd f = s.rd f := by
    split
    · exact ⟨0, OnlyCluster.refl, fun _ => rfl⟩
    · exact ⟨1, OnlyCluster.refl.tick, State.tick_rd _⟩
  obtain ⟨n, hn, hrd⟩ := htick
  refine ⟨_, n, ?_, hn.putClBusy (fillBufs (arrStep (s.cluster cl) e es (s.operand e.cfg.fmtA a) (s.operand e.cfg.fmtB b) as bs)
    (arrStep (s.cluster cl) e es (s.operand e.cfg.fmtA a) (s.operand e.cfg.fmtB b) as bs).loadQ) (kCycles e.cfg.fmtA), ?_,
    State.putClBusy_cluster _ _⟩
  · rw [exec, execKStep]
    dsimp only
    rw [hj]
    dsimp only
    rw [hheld, hended, hwgq]
    dsimp only [Bool.or_false]
    rw [if_neg (by decide), execKStep.kStepArr, harr]
    dsimp only
    rw [ha, hb, hwgq, if_neg (by simp)]
    simp only [arrStep, decide_eq_true_eq]
  · rw [State.putClBusy_rd, hrd]

/-- A K-step of the running deferred product that neither ends its chunk nor is its last. -/
theorem exec_kStep_deferred {es : List ArrEnt} (hwgq : (s.cluster cl).wgq = e :: es) (hrun : e.wstate = 2)
    (hfree : (s.cluster cl).chunk.isSome = true ∨ (s.cluster cl).drainPrio = true ∨ (s.cluster cl).arrayFree = true)
    (hdrain : s.drainBefore cl j e.ord [(e.aBase + recBytes e.cfg.fmtA false * e.done, recBytes e.cfg.fmtA false),
      (e.bBase + recBytes e.cfg.fmtB true * e.done, recBytes e.cfg.fmtB true)] = false)
    (hchunk : (s.cluster cl).chunkK + 1 ≠ e.cfg.chunk) (hlast : e.done + 1 ≠ e.ksteps) :
    ∃ t, exec (.kStep cl) s = .next t ∧ OnlyCluster cl (arrayRegs cl) 0 s t ∧ t.cluster cl = deferredStep (s.cluster cl) e es := by
  have hstep := kStepCl_inside hchunk hlast (panelA (s.cluster cl) e) (panelB (s.cluster cl) e)
  have hgo : (decide (e.wstate = 2) && ((s.cluster cl).chunk.isSome || (s.cluster cl).drainPrio || (s.cluster cl).arrayFree)) = true := by
    simpa [hrun, or_assoc] using hfree
  have hnotEnded : ((kStepCl (s.cluster cl) e (panelA (s.cluster cl) e) (panelB (s.cluster cl) e)).chunkK == 0
      || (kStepCl (s.cluster cl) e (panelA (s.cluster cl) e) (panelB (s.cluster cl) e)).chunkEnded) = false := by
    rw [hstep]
    simp [hended]
  have hexec : exec (.kStep cl) s = .next (((s.putCl cl (deferredStep (s.cluster cl) e es)).addBusy cl (kCycles e.cfg.fmtA)).add
      (F.CL_WGQ_DEFERRED cl.die cl.idx) (kCycles e.cfg.fmtA)) := by
    rw [exec, execKStep]
    dsimp only
    rw [hj]
    dsimp only
    rw [hheld, hended, hwgq]
    dsimp only
    rw [if_neg (by decide), if_pos hgo, State.kStepWgq]
    dsimp only
    rw [if_neg (by rw [hdrain]; decide)]
    unfold deferredStep
    unfold panelA panelB at hnotEnded ⊢
    generalize kStepCl (s.cluster cl) e _ _ = c1 at hnotEnded ⊢
    simp only [hnotEnded, Bool.false_and, Bool.false_eq_true, if_false, if_neg hlast]
    rfl
  refine ⟨_, hexec, (OnlyCluster.refl.putClBusy _ _).wr (by simp [arrayRegs, queueRegs, F.CL_WGQ_DEFERRED]) _, ?_⟩
  exact (State.wr_cluster _ _ _ _).trans (State.putClBusy_cluster _ _)
end

/-! Merges (R101, R105). -/

/-- A list of the nonzero values of `f` at the places of `l` reads `f` there. -/
theorem sget_filter_map (f : Nat → BitVec 32) (l : List Nat) (e : Nat) (he : e ∈ l) :
    sget (fun _ => 0) ((l.map (fun i => (i, f i))).filter (fun p => p.2 ≠ 0)) e = f e := by
  have key (l : List Nat) : sget (fun _ => 0) ((l.map (fun i => (i, f i))).filter (fun p => p.2 ≠ 0)) e = if e ∈ l then f e else 0 := by
    induction l with
    | nil => rfl
    | cons i l ih =>
      rw [List.map_cons, List.filter_cons]
      by_cases hf : f i = 0
      · rw [if_neg (by simp [hf]), ih]
        by_cases hie : e = i
        · subst hie
          simp [hf]
        · simp [hie]
      · rw [if_pos (by simpa using hf), sget, ih]
        by_cases hie : i = e
        · simp [hie]
        · simp [hie, Ne.symm hie]
  rw [key, if_pos he]

theorem State.setSlot_cluster (s : State) (j : Nat) (v : SlotSt) (cl : ClusterId) : (s.setSlot j v).cluster cl = s.cluster cl := rfl

/-- A value that is not finite is noted in NF alone of the contents. -/
theorem State.accNf_cluster (s : State) (cl : ClusterId) (j pstep slot : Nat) (nan : Bool) :
    ∃ nfEven nfOdd, (s.accNf cl j pstep slot nan).cluster cl = { s.cluster cl with nfEven, nfOdd } := by
  have hnf (t : State) : (t.showNf cl j).cluster cl = t.cluster cl := State.wr_cluster _ _ _ _
  have hcl : ∃ nfEven nfOdd, ((s.setCluster cl (if evenStep pstep then { s.cluster cl with nfEven := true }
      else { s.cluster cl with nfOdd := true })).showNf cl j).cluster cl = { s.cluster cl with nfEven, nfOdd } := by
    rw [hnf, State.setCluster_cluster_self]
    split
    · exact ⟨true, (s.cluster cl).nfOdd, rfl⟩
    · exact ⟨(s.cluster cl).nfEven, true, rfl⟩
  unfold State.accNf
  dsimp only
  generalize (s.setCluster cl (if evenStep pstep then { s.cluster cl with nfEven := true }
      else { s.cluster cl with nfOdd := true })).showNf cl j = t at hcl ⊢
  rw [apply_ite (fun u : State => u.cluster cl), State.emit_cluster, State.setSlot_cluster, ite_self]
  exact hcl

/-- The contents after a merge of chunk `k` that leaves `vals` in its slot, before a value that is not finite is noted. -/
def mergeStep (c : ClusterSt) (k : ChunkId) (vals : Sparse (BitVec 32)) : ClusterSt :=
  let a := c.aslot k.slot
  let c1 := { c.setA k.slot ⟨vals, a.merges + 1, if a.merges = 0 then k.cfg.tile else a.tile⟩ with latch := none, latchVals := [] }
  if c.chunkEnded then endChunk c1 else c1

/-- The state that MERGE_DONE leaves where nothing holds the merge back. -/
def State.mergeState (s : State) (cl : ClusterId) (j : Nat) (k : ChunkId) (vals : Sparse (BitVec 32)) : State :=
  let s0 := if (s.cluster cl).chunkEnded then (s.tick).add (F.CL_STALL_MERGE cl.die cl.idx) (s.freeNat 0) else s
  let s1 := s0.putCl cl (mergeStep (s.cluster cl) k vals)
  let s2 := if s1.slotCode cl k.slot = 0 then s1.setSlotCode cl k.slot 1 else s1
  let s3 := match vals.find? (fun p => fpNonfinite (fp32 p.2)) with
    | some p => s2.accNf cl j k.pstep k.slot (fpNan (fp32 p.2))
    | none => s2
  s3.startReadout cl

theorem State.mergeState_cluster (s : State) (cl : ClusterId) (j : Nat) (k : ChunkId) (vals : Sparse (BitVec 32)) :
    ∃ nfEven nfOdd, (s.mergeState cl j k vals).cluster cl = { mergeStep (s.cluster cl) k vals with nfEven, nfOdd } := by
  have hput (u : State) : ((if (u.putCl cl (mergeStep (s.cluster cl) k vals)).slotCode cl k.slot = 0 then
      (u.putCl cl (mergeStep (s.cluster cl) k vals)).setSlotCode cl k.slot 1 else u.putCl cl (mergeStep (s.cluster cl) k vals)).cluster cl) =
      mergeStep (s.cluster cl) k vals := by
    rw [apply_ite (fun u : State => u.cluster cl), State.setSlotCode, State.wr_cluster, ite_self, State.putCl_cluster_self]
  unfold State.mergeState
  dsimp only
  rw [State.startReadout_cluster]
  split
  · next p _ =>
    obtain ⟨ne, no, hn⟩ := State.accNf_cluster _ cl j k.pstep k.slot (fpNan (fp32 p.2))
    exact ⟨ne, no, by rw [hn, hput]⟩
  · exact ⟨_, _, hput _⟩

theorem exec_mergeDone {s : State} {cl : ClusterId} {j : Nat} {k : ChunkId} (hj : s.slotOfCl cl = some j) (hk : (s.cluster cl).latch = some k)
    (hread : ∀ r ∈ (s.cluster cl).readQ, r.slot = k.slot → k.ord ≤ r.ord) {vals : Sparse (BitVec 32)}
    (hvals : mergeTile (s.seed j) k (((s.cluster cl).aslot k.slot).merges % 8192) ((s.cluster cl).aslot k.slot).vals (s.cluster cl).latchVals
      = vals) : exec (.mergeDone cl) s = .next (s.mergeState cl j k vals) := by
  have hnone : (s.cluster cl).readQ.any (fun r => r.slot == k.slot && decide (r.ord < k.ord)) = false := by
    rw [List.any_eq_false]
    intro r hr
    simpa using hread r hr
  rw [exec, execMergeDone]
  simp only [hk, hj, hnone, hvals, Bool.false_eq_true, if_false]
  rfl

/-- A deferred product starts while the array is idle (R284, R288). -/
theorem exec_wgqRun {s : State} {cl : ClusterId} {j : Nat} {e : ArrEnt} {es : List ArrEnt} (hj : s.slotOfCl cl = some j)
    (hwgq : (s.cluster cl).wgq = e :: es) (hst : e.wstate = 1 ∨ e.wstate = 3) (hheld : s.rotHeld cl = false)
    (hchunk : (s.cluster cl).chunk = none) (hended : (s.cluster cl).chunkEnded = false) (hopen : (s.cluster cl).arrOpen = false)
    (harr : (s.cluster cl).arrQ = [])
    (hmay : (s.cluster cl).drainPrio = true ∨ ((s.cluster cl).loadQ = [] ∧ (s.cluster cl).aBuf = [] ∧ (s.cluster cl).bBuf = []
      ∧ (s.cluster cl).openSlot = none)) :
    exec (.wgqRun cl) s = .next (s.putCl cl { s.cluster cl with wgq := { e with wstate := 2 } :: es }) := by
  have hgo : (if (s.cluster cl).drainPrio then (s.cluster cl).chunk.isNone && !(s.cluster cl).chunkEnded && !(s.cluster cl).arrOpen && true
      else (s.cluster cl).chunk.isNone && !(s.cluster cl).chunkEnded && !(s.cluster cl).arrOpen && (s.cluster cl).arrayFree
        && (s.cluster cl).openSlot.isNone) = true := by
    by_cases hd : (s.cluster cl).drainPrio = true
    · simp [hd, hchunk, hended, hopen]
    · obtain ⟨hl, ha, hb, ho⟩ := hmay.resolve_left hd
      simp [hd, hchunk, hended, hopen, ClusterSt.arrayFree, harr, hl, ha, hb, ho]
  rw [exec, execWgqRun]
  dsimp only
  rw [hwgq, hj]
  dsimp only
  rw [harr]
  dsimp only
  rw [hgo, hheld]
  exact if_pos (by simpa using hst)

/-- What the merge of a chunk into its slot leaves there. -/
theorem mergeStep_aslot (c : ClusterSt) (k : ChunkId) (vals : Sparse (BitVec 32)) :
    ((mergeStep c k vals).aslot k.slot).vals = vals ∧ ((mergeStep c k vals).aslot k.slot).merges = (c.aslot k.slot).merges + 1 := by
  have hslots : (mergeStep c k vals).aslot k.slot = ⟨vals, (c.aslot k.slot).merges + 1,
      if (c.aslot k.slot).merges = 0 then k.cfg.tile else (c.aslot k.slot).tile⟩ := by
    unfold mergeStep
    dsimp only
    split
    · exact sget_sset_self _ _ _ _
    · exact sget_sset_self _ _ _ _
  exact ⟨by rw [hslots], by rw [hslots]⟩

theorem mergeStep_latch_free {c : ClusterSt} (h : c.chunkEnded = false) (k : ChunkId) (vals : Sparse (BitVec 32)) :
    (mergeStep c k vals).latch = none := by
  unfold mergeStep
  rw [h]
  rfl

/-- A chunk that waited takes the merge latches. -/
theorem mergeStep_next {c : ClusterSt} (h : c.chunkEnded = true) (k : ChunkId) (vals : Sparse (BitVec 32)) :
    (mergeStep c k vals).latch = c.chunk ∧ (mergeStep c k vals).latchVals = c.acc ∧ (mergeStep c k vals).chunkEnded = false := by
  unfold mergeStep
  rw [h]
  exact ⟨rfl, rfl, rfl⟩

/-- CDn_CL_WGQ shows the state of the head. -/
theorem State.showCl_head (s : State) (cl : ClusterId) {e : ArrEnt} {es : List ArrEnt} (h : (s.cluster cl).wgq = e :: es) :
    (s.showCl cl).rd (F.CL_WGQ_HEAD cl.die cl.idx) = e.wstate % 2 ^ 2 := by
  have hv : Reg.CL_WGQ cl.die cl.idx ≠ Reg.CL_VSTATUS cl.die cl.idx := by simp [Reg.CL_WGQ, Reg.CL_VSTATUS]
  have hs : Reg.CL_WGQ cl.die cl.idx ≠ Reg.CL_STATUS cl.die cl.idx := by simp [Reg.CL_WGQ, Reg.CL_STATUS]
  unfold State.showCl State.wrB
  dsimp only
  rw [State.rd_wr_ne _ _ _ _ hv, State.rd_wr_ne _ _ _ _ hs, State.rd_wr_self _ _ _ (by simp [F.CL_WGQ_HEAD]), h]
  rfl

/-- Settles O22: the contents after a K-step are `fillBufs` of `arrStep`, or `deferredStep`; a merge leaves `mergeStep`. -/
theorem arrayMoves : Obligations.ArrayMoves := by
  refine ⟨fun s cl j e hj hheld hended => ⟨fun a b es as bs hwgq harr ha hb => ?_, fun es hwgq hrun hfree hdrain hchunk hlast => ?_⟩,
    fun s cl j hj => ⟨fun k hk hread => ?_, fun e es hwgq hst hheld hchunk hended hopen harr hmay => ?_,
      fun r rs hq hkind hdone hroom hpend => ?_⟩⟩
  · obtain ⟨t, n, ht, honly, hbusy, hcl⟩ := exec_kStep_array hj hheld hended hwgq harr ha hb
    refine ⟨t, ht, honly.mem_eq, honly.2.2.2, hbusy, ?_, fun hchunk hlast => ?_, fun hend hlatch => ?_⟩
    · rw [hcl, fillBufs_arrQ]
      rfl
    · rw [hcl, fillBufs_acc, fillBufs_chunkK, fillBufs_latch]
      unfold arrStep
      rw [kStepCl_inside hchunk hlast]
      exact ⟨rfl, rfl, rfl⟩
    · rw [hcl, fillBufs_acc, fillBufs_chunkK, fillBufs_latch, fillBufs_latchVals]
      unfold arrStep
      rw [kStepCl_last hend hlatch]
      exact ⟨rfl, rfl, rfl, rfl⟩
  · obtain ⟨t, ht, honly, hcl⟩ := exec_kStep_deferred hj hheld hended hwgq hrun hfree hdrain hchunk hlast
    refine ⟨t, ht, honly.mem_eq, honly.2.2.2, ?_, ?_⟩
    · rw [hcl, hrun]
      rfl
    · rw [hcl]
      unfold deferredStep
      rw [kStepCl_inside hchunk hlast]
      exact ⟨rfl, rfl, rfl, rfl, rfl⟩
  · have hexec := exec_mergeDone hj hk hread rfl
    obtain ⟨ne, no, hcl⟩ := State.mergeState_cluster s cl j k (mergeTile (s.seed j) k (((s.cluster cl).aslot k.slot).merges % 8192)
      ((s.cluster cl).aslot k.slot).vals (s.cluster cl).latchVals)
    obtain ⟨hvals, hmerges⟩ := mergeStep_aslot (s.cluster cl) k (mergeTile (s.seed j) k (((s.cluster cl).aslot k.slot).merges % 8192)
      ((s.cluster cl).aslot k.slot).vals (s.cluster cl).latchVals)
    refine ⟨_, hexec, fun hended => ?_, fun hended => ?_, ?_, fun i hi => ?_⟩
    · rw [hcl]
      exact mergeStep_latch_free hended k _
    · rw [hcl]
      exact mergeStep_next hended k _
    · rw [hcl]
      exact hmerges
    · rw [hcl]
      refine (congrArg (sget (fun _ => 0) · i) hvals).trans ?_
      exact sget_filter_map (fun i => mergeElem (s.seed j) k (((s.cluster cl).aslot k.slot).merges % 8192) i
        (sget (fun _ => 0) ((s.cluster cl).aslot k.slot).vals i) (sget (fun _ => .fin false 0 0) (s.cluster cl).latchVals i)) _ _
        (List.mem_range.mpr hi)
  · refine ⟨_, exec_wgqRun hj hwgq hst hheld hchunk hended hopen harr hmay, ?_, State.putCl_cluster_self _ _ _, ?_⟩
    · exact (OnlyCluster.refl.putCl (cl := cl) (offs := queueRegs cl) _ fun _ ho => ho).mem_eq
    · rw [State.putCl, State.showCl_head (e := { e with wstate := 2 }) (es := es) _ _ (by rw [State.setCluster_cluster_self])]
      rfl
  · refine ⟨s.setCluster cl _, ?_, rfl, SameClusters.setCluster _ _ _, State.setCluster_cluster_self _ _ _⟩
    rw [exec, execPushBufferEnter]
    dsimp only
    rw [hq]
    exact if_pos (by simp [hkind, hdone, hroom, hpend])

/-- A tile whose first element alone is not +0: it is Inf. -/
def infTile : Sparse (BitVec 32) := [(0, 0x7F800000)]

theorem ClusterSt.setT_eq (c : ClusterSt) (a : Nat) (data : List Byte) : c.setT a data = { c with tile := (c.setT a data).tile } :=
  congrArg (fun d : ClusterSt => { d with tile := (c.setT a data).tile }) (c.setT_frame a data)

/-- A drain that is not a twin writes one copy and reports it. -/
theorem State.drainTile_single (s : State) (cl : ClusterId) (j : Nat) (r : ReadEnt) (t : CastTarget) (vals : Sparse (BitVec 32))
    (h : t.twin = false) : s.drainTile cl j r t vals = (s.setCluster cl ((s.cluster cl).setT (bits r.a.toNat 20 0)
      (drainRow vals t.fmt (s.castMult j t) r.t).1)).castReport cl j r.pstep t (drainRow vals t.fmt (s.castMult j t) r.t).2
        (drainRow vals t.fmt (s.castMult j t) r.t).2 := by
  unfold State.drainTile
  dsimp only
  rw [h]
  exact if_neg Bool.false_ne_true

/-- What the FP32 casts of the tile's first elements report. -/
theorem infTile_report (n : Nat) : (((List.range (n + 1)).map (fun e => castFp32 (fp32 (sget (fun _ => 0) infTile e)))).foldl
    (fun a r => a.add r.2) CastStat.none) = ⟨0, 0, 1, n + 1, true, false⟩ := by
  induction n with
  | zero => decide +kernel
  | succ n ih =>
    have hzero : sget (fun _ => (0 : BitVec 32)) infTile (n + 1) = 0 := by simp [sget, infTile]
    have hcast : (castFp32 (fp32 0)).2 = ⟨0, 0, 0, 1, false, false⟩ := by decide +kernel
    rw [List.range_succ, List.map_append, List.foldl_append, ih, List.map_singleton, List.foldl_cons, List.foldl_nil, hzero, hcast]
    rfl

theorem drainRow_infTile (g : Int) (trans : Bool) : (drainRow infTile 0 g trans).2 = ⟨0, 0, 1, 8192, true, false⟩ := by
  have h (n : Nat) (hn : 0 < n) : (((List.range n).map (fun e => castFp32 (fp32 (sget (fun _ => 0) infTile e)))).foldl
      (fun a r => a.add r.2) CastStat.none) = ⟨0, 0, 1, n, true, false⟩ := by
    obtain ⟨m, rfl⟩ := Nat.exists_eq_add_of_lt hn
    rw [Nat.zero_add]
    exact infTile_report m
  have h8192 := h 8192 (by decide)
  simp only [drainRow, if_true]
  rw [h8192]

/-- CD0.C000 drains accumulator slot 0, which is READOUT, to FP32. Its first element is Inf, so that the drain detects a condition, and the
directory entry of the ring's first line names a sharer whose number is that of no agent: the count of snoops of such a number would stand
in CDn_CL_SLOTS of CD0.C000. -/
def drainBesideSharer : State :=
  { Tests.setF (Tests.wCl { ClusterSt.init with readQ := [⟨0, 0, true, 0, 0, true, false, 0, 0, false, 0⟩], slots := [(0, ⟨infTile, 1, 5⟩)] })
      [(F.CL_SLOTS_STATE 0 0, 2), (F.STR_RING_EN, 1), (F.STR_RING_LOG2, 8), (F.STR_RING_BASE, 16)] with
    dirs := [(1024, ⟨none, [(Reg.CL_SLOTS 0 0 - Reg.CRM_AGENT 0) / 8]⟩)] }

/-- The contents once the tile's copy stands in the tile store. -/
def drainedInf : ClusterSt :=
  { drainBesideSharer.cluster Tests.cl0 with tile := ((drainBesideSharer.cluster Tests.cl0).setT 0 (drainRow infTile 0 0 false).1).tile }

/-- The report of a drain with one value that is not finite writes a record into that line, and the sharer's snoop is counted. -/
theorem drainBesideSharer_report : ((((drainBesideSharer.setCluster Tests.cl0 drainedInf).castReport Tests.cl0 0 0
      ⟨0, false, false, 0, false, 0, 0⟩ ⟨0, 0, 1, 8192, true, false⟩ ⟨0, 0, 1, 8192, true, false⟩).endReadout Tests.cl0 0
      ⟨0, 0, true, 0, 0, true, false, 0, 0, false, 0⟩ []).slotCode Tests.cl0 0 == 3) = true := by decide +kernel
/-- The end of the readout takes slot 0, which the snoop's count has made TIE, for one that stays TIE. -/
theorem drainBesideSharer_slot : ∃ t, exec (.readoutEnd Tests.cl0) drainBesideSharer = .next t ∧ t.slotCode Tests.cl0 0 = 3 := by
  have hcl : (drainBesideSharer.cluster Tests.cl0).readQ = [⟨0, 0, true, 0, 0, true, false, 0, 0, false, 0⟩] := by decide +kernel
  have hj : drainBesideSharer.slotOfCl Tests.cl0 = some 0 := by decide +kernel
  have hpend : (drainBesideSharer.cluster Tests.cl0).mergePending 0 0 = false := by decide +kernel
  have hcast : (drainBesideSharer.cluster Tests.cl0).castQ = [] := by decide +kernel
  have hwgq : (drainBesideSharer.cluster Tests.cl0).wgq = [] := by decide +kernel
  have hvals : ((drainBesideSharer.cluster Tests.cl0).aslot 0).vals = infTile := by decide +kernel
  have hcontents : (drainBesideSharer.cluster Tests.cl0).setT 0 (drainRow infTile 0 0 false).1 = drainedInf :=
    ClusterSt.setT_eq _ _ _
  refine ⟨_, ?_, beq_iff_eq.mp drainBesideSharer_report⟩
  have htarget : drainBesideSharer.castTarget 0 true 0 = some ⟨0, false, false, 0, false, 0, 0⟩ := rfl
  have hdrain : drainBesideSharer.drainTile Tests.cl0 0 ⟨0, 0, true, 0, 0, true, false, 0, 0, false, 0⟩ ⟨0, false, false, 0, false, 0, 0⟩ infTile =
      (drainBesideSharer.setCluster Tests.cl0 drainedInf).castReport Tests.cl0 0 0 ⟨0, false, false, 0, false, 0, 0⟩
        ⟨0, 0, 1, 8192, true, false⟩ ⟨0, 0, 1, 8192, true, false⟩ := by
    have hbits : bits (0 : BitVec 64).toNat 20 0 = 0 := by decide
    have hmult : drainBesideSharer.castMult 0 ⟨0, false, false, 0, false, 0, 0⟩ = 0 := rfl
    rw [State.drainTile_single _ _ _ _ _ _ rfl]
    simp only [hmult, hbits, hcontents, drainRow_infTile]
  rw [exec, execReadoutEnd]
  dsimp only
  rw [hcl, hj]
  dsimp only
  rw [if_neg (by rw [hpend]; decide), if_neg (by decide), hcast, hwgq]
  have hbits : bits (0 : BitVec 64).toNat 3 0 = 0 := by decide
  rw [if_pos rfl, hbits, htarget]
  dsimp only
  rw [hvals, hdrain]
  exact if_neg (by decide)

/-- Refutes O23: the first clause asks for the slot's code at the end of a readout, over every state. A drain of a value that is not finite
also writes its record into the event ring, whose line may have a sharer, and the model counts a sharer's snoops at an offset that no bound
on its number keeps apart from CDn_CL_SLOTS: in `drainBesideSharer` the slot, READOUT before, ends TIE. -/
theorem not_readoutsEnd : ¬ Obligations.ReadoutsEnd := by
  intro h
  obtain ⟨hread, -⟩ := h.1 drainBesideSharer Tests.cl0 0 (by decide +kernel)
  obtain ⟨hdrain, -⟩ := hread ⟨0, 0, true, 0, 0, true, false, 0, 0, false, 0⟩ (by decide +kernel) (by decide) (by decide +kernel)
    (by decide +kernel)
  obtain ⟨t, ht, -, ⟨hslot, -⟩, -⟩ := hdrain ⟨0, false, false, 0, false, 0, 0⟩ rfl (by decide +kernel) (by decide +kernel) (by decide +kernel)
  obtain ⟨u, hu, htie⟩ := drainBesideSharer_slot
  rw [ht] at hu
  obtain rfl := Host.Outcome.next.inj hu
  have hfree : drainBesideSharer.slotCode Tests.cl0 0 = 2 := by decide +kernel
  have hcode := hslot (by decide)
  rw [htie, hfree] at hcode
  exact absurd hcode (by decide)

end Sys2Proof.Machine
end

section

/-! REFUTED. Statements over every state that the counts of snoops contradict (O25, O26, O31, O34, O37, O39, O42, O44, O45, O55): the model counts the snoops of an agent in the low half of the register at CRM_AGENT of its number, and no bound on the number keeps that register apart from others; and the stray port of O26. -/
namespace Sys2Proof.Machine
open Sys2Proof

-- Each refutation evaluates the model in the kernel: one after another, they need no thread each.
set_option Elab.async false

/-- `s` with the event ring enabled at line 1024, and one sharer in that line's directory entry: a number that is no agent's. The model counts
the snoops of agent `a` in the low half of the register at `Reg.CRM_AGENT a`, with no bound on `a`, so that a record in the ring counts one
in the register at `off`. -/
def besideSharer (s : State) (off : Nat) : State :=
  { Tests.setF s [(F.STR_RING_EN, 1), (F.STR_RING_LOG2, 8), (F.STR_RING_BASE, 16)] with
    dirs := [(1024, ⟨none, [(off - Reg.CRM_AGENT 0) / 8]⟩)] }

/-- The rotation of CD0 partition 0 holds C000 and is about to bring in C071, beside a sharer whose number stands for CDn_CL_STATUS of C071. -/
def rotatedBesideSharer : State := besideSharer (Tests.wRot true) (Reg.CL_STATUS 0 71)

/-- The rotation's record has been written into that line, and the sharer's snoop counted in the PC that C071 took over. -/
theorem rotatedBesideSharer_pc : (match exec (.clusterRotated 0 0 0) rotatedBesideSharer with
    | .next t => t.pc ⟨0, 71⟩ == rotatedBesideSharer.pc ⟨0, 0⟩ + 1
    | _ => false) = true := by decide +kernel

/-- Refutes O25: a rotation's incoming cluster is asked to have the outgoing one's PC, over every state. The rotation also writes its record
into the event ring, whose line may have a sharer, and the model counts a sharer's snoops at an offset that no bound on its number keeps
apart from CDn_CL_STATUS: in `rotatedBesideSharer` the PC counts one more. -/
theorem not_clusterRoles : ¬ Obligations.ClusterRoles := by
  intro h
  obtain ⟨-, -, hrot, -⟩ := h rotatedBesideSharer
  obtain ⟨-, hrotated⟩ := hrot 0 0 ⟨0, 71, 2, true⟩ (by decide) (by decide) (by decide) (by decide) (by decide) (by decide +kernel)
  obtain ⟨t, ht, -, -, -, -, -, hpc, -⟩ := hrotated rfl (by decide +kernel) (by decide +kernel) (by decide +kernel) (by decide +kernel) 0
  have hone := rotatedBesideSharer_pc
  simp only [ht, beq_iff_eq] at hone
  rw [hpc] at hone
  exact absurd hone (by decide +kernel)

/-- A step that skips resolves in slot 0 (`Tests.wResolve 1`), beside a sharer whose number stands for HRD_OUTCOME_0. -/
def skipBesideSharer : State := besideSharer (Tests.wResolve 1) (Reg.HRD_OUTCOME 0)

/-- The skip's record counts one in the outcome word that stands there already. -/
theorem skipBesideSharer_word : (match exec (.hurdleOutcomeApply 0) skipBesideSharer with
    | .next t => t.rd (F.HRD_OUTCOME_WORD 0) != (Tests.hout 1).le 0x10 8 % 2 ^ 64
    | _ => false) = true := by decide +kernel

/-- Refutes O34: the outcome word is asked to stand in HRD_OUTCOME after the step has resolved, over every state. A skip writes its record
after the word, and in `skipBesideSharer` the snoop of the ring's line counts one in that register. -/
theorem not_hurdleRuns : ¬ Obligations.HurdleRuns := by
  intro h
  obtain ⟨-, hresolve⟩ := h
  obtain ⟨houtcome, -⟩ := hresolve skipBesideSharer 0 (by decide) (by decide +kernel) (by decide +kernel) (by decide +kernel)
  obtain ⟨hskip, -⟩ := houtcome (Tests.hout 1) (by decide +kernel) (by decide +kernel)
  obtain ⟨t, ht, ⟨-, -, hword, -⟩, -⟩ := hskip (by decide +kernel)
  have hother := skipBesideSharer_word
  simp only [ht, bne_iff_ne] at hother
  exact hother hword

/-- A walk that faults with no record open (`Tests.wWalk 21 none`), beside a sharer whose number stands for XLT_REC_0. -/
def faultBesideSharer : State := besideSharer (Tests.wWalk 21 none) (Reg.XLT_REC 0)

/-- The fault's event record counts one in the fault record's COUNT. -/
theorem faultBesideSharer_count : (match exec (.walkComplete (Tests.walkE none).id) faultBesideSharer with
    | .next t => t.rd (F.XLT_REC_COUNT 0) != 1
    | _ => false) = true := by decide +kernel

/-- Refutes O42: a walk that faults is asked to leave COUNT 1 in the free record that it takes, over every state. It also writes an event
record, and in `faultBesideSharer` the snoop of the ring's line counts one more there. -/
theorem not_translation : ¬ Obligations.Translation := by
  intro h
  obtain ⟨hwalk, -⟩ := h
  obtain ⟨-, hfault⟩ := hwalk faultBesideSharer (Tests.walkE none) (Tests.cmd Tests.copyW 0) (by decide +kernel) (by decide +kernel)
    (Tests.sound rfl rfl) (by decide +kernel) (by decide +kernel) (by decide) (by decide) (by decide) (by decide) (by decide) (by decide +kernel) (by decide)
  obtain ⟨t, ht, -, -, -, -, hcount, -⟩ := hfault 0 3 0 0 (by decide +kernel) (by decide) (by decide +kernel) (by decide) (by decide +kernel)
  have hother := faultBesideSharer_count
  simp only [ht, bne_iff_ne] at hother
  exact hother hcount

/-- Port 0 has the wrong peer before it (`Tests.wPorts 5`), beside a sharer whose number stands for ACM_PORT_CNT_0. -/
def mismatchBesideSharer : State := besideSharer (Tests.wPorts 5) (Reg.ACM_PORT_CNT 0)

/-- The record of the mismatch counts one more in MISMATCH. -/
theorem mismatchBesideSharer_count : (match exec (.portTrainStageDone 0 (Tests.idE 9 45 1)) mismatchBesideSharer with
    | .next t => t.rd (F.ACM_PORT_CNT_MISMATCH 0) != min (mismatchBesideSharer.rd (F.ACM_PORT_CNT_MISMATCH 0) + 1) 255
    | _ => false) = true := by decide +kernel

/-- Refutes O44: an identity that the wiring rules do not expect is asked to count one mismatch, over every state. The mismatch is also recorded,
and in `mismatchBesideSharer` the snoop of the ring's line counts one more in the same field. -/
theorem not_portTraining : ¬ Obligations.PortTraining := by
  intro h
  obtain ⟨-, hports⟩ := h mismatchBesideSharer
  obtain ⟨hstage, -⟩ := hports 0 (by decide) (by decide +kernel) (by decide +kernel)
  obtain ⟨-, -, -, hmismatch, -⟩ := hstage (Tests.idE 9 45 1)
  obtain ⟨t, ht, -, hcount⟩ := hmismatch (by decide +kernel) (.inl (by decide +kernel))
  have hother := mismatchBesideSharer_count
  simp only [ht, bne_iff_ne] at hother
  exact hother hcount

/-- Port 0 is UP (`Tests.wPorts 7`) with every bit below RETRAIN set in its counters, beside a sharer whose number stands for ACM_PORT_CNT_0. -/
def retrainBesideSharer : State := (besideSharer (Tests.wPorts 7) (Reg.ACM_PORT_CNT 0)).setReg (Reg.ACM_PORT_CNT 0) 0xFFFFFF

/-- The record of the retrain counts one, and the carry reaches RETRAIN. -/
theorem retrainBesideSharer_count : (match exec (.portRetrain 0 .fecLock) retrainBesideSharer with
    | .next t => t.rd (F.ACM_PORT_CNT_RETRAIN 0) != min (retrainBesideSharer.rd (F.ACM_PORT_CNT_RETRAIN 0) + 1) 255
    | _ => false) = true := by decide +kernel

/-- Refutes O45: a retrain is asked to be counted once in ACM_PORT_CNT, over every state. It is also recorded, and in `retrainBesideSharer` the
snoop of the ring's line counts in the low half of the same register, with a carry into RETRAIN. -/
theorem not_linksAndPeers : ¬ Obligations.LinksAndPeers := by
  intro h
  obtain ⟨hports, -⟩ := h retrainBesideSharer
  obtain ⟨hretrain, -⟩ := hports 0 (by decide)
  obtain ⟨t, ht, -, hcount⟩ := hretrain .fecLock (by decide +kernel) (by decide)
  have hother := retrainBesideSharer_count
  simp only [ht, bne_iff_ne] at hother
  exact hother hcount

/-- Area 16 is armed for this lap (`Tests.wArmed16 0`) with every bit below ROOT set in XLT_CTX_16, beside a sharer whose number stands for that
register. -/
def swapBesideSharer : State := (besideSharer (Tests.wArmed16 0) (Reg.XLT_CTX 16)).setReg (Reg.XLT_CTX 16) 0xFFF

/-- The record of the swap counts one, and the carry reaches the live value. -/
theorem swapBesideSharer_live : (match exec .shadowSwap swapBesideSharer with
    | .next t => t.reg (Reg.XLT_CTX 16) &&& accMask .rs (Reg.XLT_CTX 16) !=
        swapBesideSharer.stagedWord (Reg.XLT_CTX 16) &&& accMask .rs (Reg.XLT_CTX 16)
    | _ => false) = true := by decide +kernel

/-- Refutes O31: every staged value of area 16 is asked to be live after its swap, over every state. The swap is also recorded, and in
`swapBesideSharer` the snoop of the ring's line counts in the low half of XLT_CTX_16, with a carry into its live value. -/
theorem not_shadowSet : ¬ Obligations.ShadowSet := by
  intro h
  obtain ⟨-, hswaps⟩ := h
  obtain ⟨hswap, -⟩ := hswaps swapBesideSharer (by decide +kernel)
  obtain ⟨t, ht, ⟨-, hlive⟩, -⟩ := hswap (by decide +kernel) (by decide +kernel) (by decide +kernel) (by decide +kernel)
  obtain ⟨hreg, -⟩ := hlive (Reg.XLT_CTX 16) (by decide)
  have hother := swapBesideSharer_live
  simp only [ht, bne_iff_ne] at hother
  exact hother hreg

/-- Slot 0 halts at this lap (`Tests.wHaltDue`), with the ring at its entry 1, so that the second record of the command comes into the ring's
second line, whose directory entry names a sharer of a number that stands for RES_HALT_0. -/
def haltBesideSharer : State :=
  { besideSharer Tests.wHaltDue (Reg.RES_HALT 0) with
    dirs := [(1025, ⟨none, [(Reg.RES_HALT 0 - Reg.CRM_AGENT 0) / 8]⟩)]
    ring := { Tests.wHaltDue.ring with tail := 1 } }

/-- The record of the halt counts one in K. -/
theorem haltBesideSharer_k : (match exec (.ckptHaltStart 0) haltBesideSharer with
    | .next t => t.rd (F.RES_HALT_K 0) != haltBesideSharer.now
    | _ => false) = true := by decide +kernel

/-- Refutes O55: K is asked to stand in RES_HALT after the halt, over every state. The halt is recorded after K is written, and in
`haltBesideSharer` the snoop of the ring's line counts one in that register. -/
theorem not_checkpointHalts : ¬ Obligations.CheckpointHalts := by
  intro h
  obtain ⟨hstart, -⟩ := h haltBesideSharer 0 (by decide)
  obtain ⟨t, ht, -, hk, -⟩ := hstart (by decide +kernel) (by decide +kernel) (by decide +kernel) (by decide +kernel) (by decide +kernel)
    (by decide +kernel)
  have hother := haltBesideSharer_k
  simp only [ht, bne_iff_ne] at hother
  exact hother hk

/-- The read of the plan entry at memory line 0 is served by snooping the line's owner, whose number stands for RLY_PLAN_0; the bits below PLAN
are all set there, and the next entry is an empty one. -/
def planBesideOwner : State :=
  { (Tests.wPlan 33).setReg (Reg.RLY_PLAN 0) ((Tests.wPlan 33).reg (Reg.RLY_PLAN 0) ||| 31) with
    mem := (Tests.wPlan 33).mem ++ Tests.at_ 64 (Tests.le 32 0)
    dirs := [(0, ⟨some ((Reg.RLY_PLAN 0 - Reg.CRM_AGENT 0) / 8), []⟩)] }

/-- The carry of the counted snoop moves the plan's base, and the block finds no plan entry. -/
theorem planBesideOwner_dropped : (match exec (.relayBlockReceive 0 Tests.blkIn) planBesideOwner with
    | .next t => decide (⟨Tests.blkIn.tile, Tests.blkIn.hop + 1, [Tests.blkIn], false⟩ ∉ (t.relay 0).nodes)
    | _ => false) = true := by decide +kernel

/-- Refutes O37: a valid block for a node of this module is asked to be that node's input, over every state. The engine reads the plan first,
and the model counts the snoop of the line's owner at an offset that no bound on its number keeps apart from RLY_PLAN: in `planBesideOwner`
the plan's base is another one after the read. -/
theorem not_relayArrivals : ¬ Obligations.RelayArrivals := by
  intro h
  obtain ⟨hblocks, -⟩ := h
  obtain ⟨-, hcurrent⟩ := hblocks planBesideOwner 0 0 Tests.blkIn Tests.planT (by decide +kernel) (by decide +kernel) (by decide +kernel)
    (Tests.sound rfl rfl) (by decide +kernel)
  obtain ⟨hinput, -⟩ := hcurrent (by decide +kernel) (by decide +kernel) (by decide +kernel)
  obtain ⟨t, ht, hnode, -⟩ := hinput 40 33 (by decide +kernel) (by decide +kernel) (by decide +kernel) (by decide +kernel) (by decide +kernel)
    (by decide +kernel) (by decide +kernel) (by decide +kernel) (by decide +kernel)
  have hdropped := planBesideOwner_dropped
  simp only [ht, decide_eq_true_eq] at hdropped
  exact hdropped hnode

/-- The entry at HEAD of queue 3 has a stale PHASE (`Tests.wFetch 0 false`), and so has the next one; the owner of its line has a number that stands for SQ_STAT_3. -/
def staleBesideOwner : State :=
  { Tests.wFetch 0 false with
    mem := (Tests.wFetch 0 false).mem ++ Tests.at_ 0x40040 (Tests.le 64 (Tests.nopW 0))
    dirs := [((Tests.wFetch 0 false).headLine 3, ⟨some ((Reg.SQ_STAT 3 - Reg.CRM_AGENT 0) / 8), []⟩)] }

/-- The snoop of the read is counted in HEAD. -/
theorem staleBesideOwner_head : (match exec (.submissionFetch 3) staleBesideOwner with
    | .next t => t.rd (F.SQ_STAT_HEAD 3) != staleBesideOwner.rd (F.SQ_STAT_HEAD 3)
    | _ => false) = true := by decide +kernel

/-- Refutes O39: a queue that reads a stale entry is asked to keep HEAD, over every state. The read snoops the line's owner, and in
`staleBesideOwner` the snoop is counted in HEAD. -/
theorem not_commandsRun : ¬ Obligations.CommandsRun := by
  intro h
  obtain ⟨hfetch, -⟩ := h
  obtain ⟨hfirst, -⟩ := hfetch staleBesideOwner 3 (by decide) (by decide +kernel) (Tests.serves rfl rfl rfl rfl rfl rfl rfl _)
  obtain ⟨-, hstale⟩ := hfirst (by decide +kernel)
  obtain ⟨t, ht, -, hhead⟩ := hstale (by decide +kernel)
  have hother := staleBesideOwner_head
  simp only [ht, bne_iff_ne] at hother
  exact hother hhead

/-- The number of a port that no module has: DELAY_VALID of it is a bit of ACM_PORT_STAT_0. -/
def strayPort : Nat := (Reg.ACM_PORT_STAT 0 - Reg.LAP_PORT_DELAY 0) / 8

/-- Port 0 and the stray port are UP in a LOCKED module (`Tests.wLap`), and the delay of the stray one has been measured since the last mark. -/
def strayMeasured : State :=
  { Tests.setF Tests.wLap [(F.ACM_PORT_STAT_STATE 0, 7), (F.ACM_PORT_STAT_STATE strayPort, 7)] with
    lap := { Tests.wLap.lap with measured := [strayPort] } }

/-- Port 0 has left UP before the mark is sent. -/
theorem strayMeasured_silent : (match exec .lapMark strayMeasured with
    | .next t => decide (t.out = [])
    | _ => false) = true := by decide +kernel

/-- Refutes O26: one mark is asked to leave on every port that is UP before a lap mark, over every state. The mark first shows the measured
delays VALID, for port numbers without a bound, and in `strayMeasured` that bit is one of port 0's state. -/
theorem not_lapMarks : ¬ Obligations.LapMarks := by
  intro h
  obtain ⟨hadvances, -⟩ := h
  obtain ⟨t, ht, -, -, -, -, -, -, -, -, -, -, w, -, -, -, hout⟩ := hadvances strayMeasured (by decide +kernel) (by decide +kernel)
    (by decide +kernel) (by decide +kernel) (by decide +kernel) (by decide +kernel)
  have hsilent := strayMeasured_silent
  simp only [ht, decide_eq_true_eq] at hsilent
  have hmem : 0 ∈ (List.range 52).filter strayMeasured.portUp := by decide +kernel
  rw [hout, List.append_eq_nil_iff, List.map_eq_nil_iff] at hsilent
  simp only [hsilent.2, List.not_mem_nil] at hmem

end Sys2Proof.Machine
end

section

/-! SUPPORT and PROOFS. SPDM (O59), ordered sets and reference inputs (O28), bias flips (O50), collectors of the tree votes (O29). -/
namespace Sys2Proof.Machine
open Sys2Proof

/-- What an SPDM request leaves: a connection that has not come to `need` answers that the request is unexpected, and any other answers `code` with
`v` and comes to `next`. -/
def SpdmAnswers (s t : State) (need next code v : Nat) : Prop :=
  { t with spdm := s.spdm, out := s.out, free := s.free } = s
  ∧ (s.spdm < need → t.out = s.out ++ [.spdm 0x7F 4] ∧ t.spdm = s.spdm)
  ∧ (need ≤ s.spdm → t.out = s.out ++ [.spdm code v] ∧ t.spdm = max s.spdm next)

theorem spdmAnswers_spdmAnswer (s : State) (need next code v : Nat) : SpdmAnswers s (s.spdmAnswer need next code v) need next code v := by
  unfold SpdmAnswers State.spdmAnswer
  by_cases hearly : s.spdm < need
  · rw [if_pos hearly]
    exact ⟨rfl, fun _ => ⟨rfl, rfl⟩, fun h => absurd hearly (Nat.not_lt.mpr h)⟩
  · rw [if_neg hearly]
    exact ⟨rfl, fun h => absurd h hearly, fun _ => ⟨rfl, rfl⟩⟩

theorem SpdmAnswers.tick {s t : State} {need next code v : Nat} (h : SpdmAnswers s t need next code v) :
    SpdmAnswers s t.tick need next code v := h

theorem measurement_before_image {s : State} (hdone : s.imageDone = false) {i : Nat} (hi : i ≠ 6) : s.measurement i = 0 := by
  unfold State.measurement
  rw [if_neg hi, if_pos (by rw [hdone]; rfl)]

theorem execSpdmGetMeasurements_answers {s : State} (hon : s.standby = true) {i : Nat} (hi : i ≤ 6) :
    ∃ t, execSpdmGetMeasurements i s = .next t ∧ SpdmAnswers s t 3 3 0x60 (if i = 0 then 6 else s.measurement i) := by
  refine ⟨_, ?_, spdmAnswers_spdmAnswer s 3 3 0x60 _⟩
  unfold execSpdmGetMeasurements
  rw [hon]
  simp only [Bool.not_true, Bool.false_eq_true, if_false]
  rw [if_neg (by simp; omega)]

/-- Settles O59: every request that needs the connection at a stage is answered by `State.spdmAnswer`; the measurements are those of
`State.measurement`, which are 0 before the image is accepted. -/
theorem spdmSession : Obligations.SpdmSession := by
  intro s hon answers
  have hmeasure : ∀ i v, i ≤ 6 → (if i = 0 then 6 else s.measurement i) = v → answers (.spdmGetMeasurements i) 3 3 0x60 v := by
    rintro i v hi rfl
    exact execSpdmGetMeasurements_answers hon hi
  refine ⟨if_neg (by simp [hon]), ⟨s.freeNat 0, _, if_neg (by simp [hon]), (spdmAnswers_spdmAnswer s 1 2 0x61 _).tick⟩,
    ⟨_, if_neg (by simp [hon]), spdmAnswers_spdmAnswer s 2 3 0x63 _⟩, ⟨_, if_neg (by simp [hon]), spdmAnswers_spdmAnswer s 3 3 0x01 _⟩,
    fun o n => ⟨_, if_neg (by simp [hon]), spdmAnswers_spdmAnswer s 3 3 0x02 _⟩,
    fun nonce => ⟨_, _, if_neg (by simp [hon]), (spdmAnswers_spdmAnswer s 3 3 0x03 _).tick⟩,
    hmeasure 0 6 (by omega) rfl, hmeasure 6 _ (by omega) rfl, ?_, ?_⟩
  · intro hstart i hi hi'
    have hdone : s.imageDone = false := by simp [State.imageDone]; omega
    exact hmeasure i 0 (by omega) (by rw [if_neg (by omega), measurement_before_image hdone (by omega)])
  · intro hstart
    have hdone : s.imageDone = true := by simp [State.imageDone, hstart]
    exact ⟨hmeasure 1 _ (by omega) (by simp [State.measurement, hdone]), hmeasure 2 _ (by omega) (by simp [State.measurement, hdone])⟩

/-! Ordered sets. -/

theorem crc16Bit_lt (c : Nat) (b : Bool) : crc16Bit c b < 2 ^ 16 := by
  unfold crc16Bit
  have hs : (c <<< 1) % 2 ^ 16 < 2 ^ 16 := Nat.mod_lt _ (by decide)
  dsimp only
  split
  · exact Nat.xor_lt_two_pow hs (by decide)
  · exact hs

theorem crc16Bits_lt : ∀ (n v c : Nat), c < 2 ^ 16 → crc16Bits n v c < 2 ^ 16
  | 0, _, _, h => h
  | n + 1, v, c, _ => crc16Bits_lt n v _ (crc16Bit_lt c _)

theorem crc16Check_lt (w : Nat) : crc16Check w < 2 ^ 16 := crc16Bits_lt _ _ _ (by decide)

/-- The CHECK leaves the fields of an ordered set above it alone. -/
theorem bits_orderedSet (w : Nat) {hi lo : Nat} (hlo : 16 ≤ lo) (hhi : hi < 128) : bits (orderedSet w).toNat hi lo = bits w hi lo := by
  have hcrc : bits (crc16Check w) hi lo = 0 := by
    rw [bits, Nat.shiftRight_eq_div_pow, Nat.div_eq_of_lt (Nat.lt_of_lt_of_le (crc16Check_lt w) (Nat.pow_le_pow_right (by decide) hlo)), Nat.zero_mod]
  rw [orderedSet, bits_ofNat _ _ _ _ hhi, bits_or, hcrc, Nat.or_zero, Nat.shiftLeft_shiftRight]

/-! Marks and delays as they arrive (R61 to R66). -/

section
variable {s : State} {port : Nat} {w : BitVec 128}

/-- The mark that an LMOS is kept as. -/
def markOf (s : State) (port : Nat) (w : BitVec 128) (arr : Int) : MarkIn :=
  ⟨port, bits w.toNat 111 96, bits w.toNat 115 112, bits w.toNat 95 83, bits w.toNat 79 16, bit w.toNat 118, s.markErr port (bits w.toNat 79 16) arr⟩

/-- The lap clock with the marks of the lap and a valid mark that came on a port. -/
def keptMark (s : State) (port : Nat) (w : BitVec 128) (arr : Int) : List MarkIn :=
  s.lap.marks.filter (fun x => x.port ≠ port) ++ [markOf s port w arr]

theorem execLmosReceive_bad (hup : s.portUp port = true) {arr : Int} (hkind : bits w.toNat 127 120 = 0x6C) (hbad : checkGood w = false) :
    execLmosReceive port w arr s = .next (s.inc (F.ACM_PORT_CNT_LMOS_ERR port)) := by
  unfold execLmosReceive
  rw [if_neg (by simp [hkind, hup]), if_pos (by simp [hbad])]

/-- A valid mark that lies at most one lap off and in no earlier epoch. -/
structure ValidMark (s : State) (port : Nat) (w : BitVec 128) : Prop where
  up : s.portUp port = true
  kind : bits w.toNat 127 120 = 0x6C
  good : checkGood w = true
  hold : bit w.toNat 117 = false
  epoch : s.lap.topEpoch ≤ bits w.toNat 111 96
  early : bits w.toNat 79 16 ≤ s.now + 1
  late : s.now ≤ bits w.toNat 79 16 + 1

theorem ValidMark.off_le {s : State} (h : ValidMark s port w) :
    (if bits w.toNat 79 16 ≤ s.now then s.now - bits w.toNat 79 16 else bits w.toNat 79 16 - s.now) ≤ 1 := by
  have hearly := h.early
  have hlate := h.late
  split <;> omega

/-- A follower or standby keeps the mark, and its first valid mark begins ACQUIRING. -/
theorem execLmosReceive_kept (h : ValidMark s port w) (arr : Int) (hrole : s.rd F.LAP_STATUS_ROLE ≠ 1) :
    execLmosReceive port w arr s = .next (
      let s2 := { s with lap := { s.lap with topEpoch := bits w.toNat 111 96, marks := keptMark s port w arr, lastLap := bits w.toNat 79 16 } }
      if s.rd F.LAP_STATUS_STATE = 0 && (s.rails && decide (6 ≤ s.rd F.STR_START_STATE) && decide (s.rd F.STR_START_STATE ≤ 8))
        then s2.wr F.LAP_STATUS_STATE 1 else s2) := by
  have hoff := h.off_le
  have hepoch := h.epoch
  unfold execLmosReceive
  rw [if_neg (by simp [h.kind, h.up]), if_neg (by simp [h.good]), if_neg (by simp [h.hold]), if_neg (by omega), if_neg (by simp; omega),
    if_neg hrole]
  rfl

/-- A mark of a later epoch deposes a master. -/
theorem execLmosReceive_deposes (h : ValidMark s port w) (arr : Int) (hrole : s.rd F.LAP_STATUS_ROLE = 1)
    (hlater : s.rd F.LAP_STATUS_EPOCH < bits w.toNat 111 96) :
    execLmosReceive port w arr s = .next
      { s with lap := { s.lap with topEpoch := bits w.toNat 111 96, demoted := true, marks := keptMark s port w arr } } := by
  have hoff := h.off_le
  have hepoch := h.epoch
  unfold execLmosReceive
  rw [if_neg (by simp [h.kind, h.up]), if_neg (by simp [h.good]), if_neg (by simp [h.hold]), if_neg (by omega), if_neg (by simp; omega),
    if_pos hrole, if_pos hlater]
  rfl

end

/-- The answer to a delay request, before its CHECK. -/
def delayAnswer (turn seq : Nat) : Nat := place 127 120 0x65 ||| place 63 44 turn ||| place 43 16 seq

theorem bits_delayAnswer_kind (turn seq : Nat) : bits (delayAnswer turn seq) 127 120 = 0x65 := by
  rw [delayAnswer, bits_or, bits_or, bits_place_self, bits_place_below _ _ _ _ _ (by decide), bits_place_below _ _ _ _ _ (by decide)]
  rfl

theorem bits_delayAnswer_turn (turn seq : Nat) : bits (delayAnswer turn seq) 63 44 = turn % 2 ^ 20 := by
  rw [delayAnswer, bits_or, bits_or, bits_place_self, bits_place_above _ _ _ _ _ (by decide), bits_place_below _ _ _ _ _ (by decide),
    Nat.zero_or, Nat.or_zero]

theorem bits_delayAnswer_seq (turn seq : Nat) : bits (delayAnswer turn seq) 43 16 = seq % 2 ^ 28 := by
  rw [delayAnswer, bits_or, bits_or, bits_place_self, bits_place_above _ _ _ _ _ (by decide), bits_place_above _ _ _ _ _ (by decide),
    Nat.zero_or, Nat.zero_or]

/-! What a chain of writes to the fields of one register leaves. -/

/-- One more field written in a register that is listed. -/
theorem SameRegs.wr {offs : List Nat} {s t : State} (h : SameRegs offs s t) {f : Fld} (hf : f.off ∈ offs) (v : Nat) : SameRegs offs s (t.wr f v) :=
  fun o ho => (State.wr_reg_ne t f v (by rintro rfl; exact ho hf)).trans (h o ho)

theorem SameRegs.refl {offs : List Nat} (s : State) : SameRegs offs s s := fun _ _ => rfl

/-- An update of another part of the state. -/
theorem SameRegs.of_regs {offs : List Nat} {s t u : State} (h : SameRegs offs s t) (hu : u.regs = t.regs) : SameRegs offs s u :=
  fun o ho => (State.reg_of_regs t hu o).trans (h o ho)

theorem SameRegs.tick {offs : List Nat} {s t : State} (h : SameRegs offs s t) : SameRegs offs s t.tick := h

theorem SameRegs.setLap {offs : List Nat} {s t : State} (h : SameRegs offs s t) (l : LapSt) : SameRegs offs s { t with lap := l } := h

/-- Closes `(s.wr …).rd f = v` where the last write to `f` stands at some depth under writes to other fields. -/
theorem rd_wr_skip {s : State} {f g : Fld} {v w : Nat} (h : s.rd f = w) (hg : g.hi < 64) (hd : f.off ≠ g.off ∨ f.hi < g.lo ∨ g.hi < f.lo) :
    (s.wr g v).rd f = w := by
  rcases hd with hoff | hbits
  · exact (State.rd_wr_ne s f g v hoff).trans h
  · exact (State.rd_wr_disj s f g v hg hbits).trans h

/-- Nothing differs but the registers, the lap clock and how many free values were taken. -/
def ClockOnly (s t : State) : Prop := { t with regs := s.regs, lap := s.lap, free := s.free } = s

theorem ClockOnly.refl (s : State) : ClockOnly s s := rfl
theorem ClockOnly.setLap {s t : State} (h : ClockOnly s t) (l : LapSt) : ClockOnly s { t with lap := l } := h
theorem ClockOnly.wr {s t : State} (h : ClockOnly s t) (f : Fld) (v : Nat) : ClockOnly s (t.wr f v) := h
theorem ClockOnly.tick {s t : State} (h : ClockOnly s t) : ClockOnly s t.tick := h

/-! The reference inputs (R57 to R59). -/

section
variable {s : State}

theorem usesRef_of_role (h : s.rd F.LAP_STATUS_ROLE = 1) : s.usesRef = true := by rw [State.usesRef, h]; rfl

/-- A PPS edge at a master: the count and phase `ph` are captured, and the status shows whether the clock is disciplined. -/
def ppsCaptured (s : State) (disc : Bool) (ph : Nat) : State :=
  (((((({ s with lap := { s.lap with refPps := true, ppsOdd := !s.lap.ppsOdd } } : State).wr F.LAP_PPS_CAPTURE_LAP (s.now % 2 ^ 54)).wr
    F.LAP_PPS_CAPTURE_PHASE ph).wr F.LAP_STATUS_PPS 1).wrB F.LAP_STATUS_REF10M s.lap.ref10M).wrB F.LAP_STATUS_REFD disc).tick

theorem execLaprefPpsEdge_master (h : s.rd F.LAP_STATUS_ROLE = 1) (disc : Bool) (hdisc : (s.rd F.LAP_CFG_REF_EN = 1 && s.lap.ref10M) = disc) :
    execLaprefPpsEdge s = .next (ppsCaptured s disc (if disc then (if s.lap.ppsOdd then 512 else 0) else s.freeNat 0 % 1024)) := by
  subst hdisc
  unfold execLaprefPpsEdge
  rw [usesRef_of_role h]
  rfl

variable {disc : Bool} {ph : Nat}

theorem ppsCaptured_lap : (ppsCaptured s disc ph).rd F.LAP_PPS_CAPTURE_LAP = s.now % 2 ^ 54 := by
  refine (State.tick_rd _ _).trans (rd_wr_skip (rd_wr_skip (rd_wr_skip (rd_wr_skip ?_ (by decide) (by decide)) (by decide) (by decide)) (by decide)
    (by decide)) (by decide) (by decide))
  rw [State.rd_wr_self _ _ _ (by decide)]
  exact Nat.mod_mod _ _

theorem ppsCaptured_phase : (ppsCaptured s disc ph).rd F.LAP_PPS_CAPTURE_PHASE = ph % 1024 :=
  (State.tick_rd _ _).trans (rd_wr_skip (rd_wr_skip (rd_wr_skip (State.rd_wr_self _ _ _ (by decide)) (by decide) (by decide)) (by decide) (by decide))
    (by decide) (by decide))

theorem ppsCaptured_pps : (ppsCaptured s disc ph).rd F.LAP_STATUS_PPS = 1 :=
  (State.tick_rd _ _).trans (rd_wr_skip (rd_wr_skip (State.rd_wr_self _ _ _ (by decide)) (by decide) (by decide)) (by decide) (by decide))

theorem ppsCaptured_refd : (ppsCaptured s disc ph).rd F.LAP_STATUS_REFD = b2n disc :=
  (State.tick_rd _ _).trans (State.rd_wrB_self _ _ _ (by decide) (by decide))

theorem ppsCaptured_rest : ClockOnly s (ppsCaptured s disc ph) :=
  ((((((ClockOnly.refl s).setLap _).wr _ _).wr _ _).wr _ _).wr _ _ |>.wr _ _).tick

theorem ppsCaptured_sameRegs : SameRegs [Reg.LAP_STATUS, Reg.LAP_PPS_CAPTURE] s (ppsCaptured s disc ph) :=
  ((((((SameRegs.refl s).setLap _).wr (by decide) _).wr (by decide) _).wr (by decide) _).wr (by decide) _ |>.wr (by decide) _).tick

/-- The loss of a reference input at a master, before its record. -/
def refLost (s : State) (m p : Bool) : State :=
  ((({ s with lap := { s.lap with ref10M := s.lap.ref10M && !m, refPps := s.lap.refPps && !p } } : State).wrB
    F.LAP_STATUS_REF10M (s.lap.ref10M && !m)).wrB F.LAP_STATUS_PPS (s.lap.refPps && !p)).wr F.LAP_STATUS_REFD 0

theorem execLaprefLost_master (h : s.rd F.LAP_STATUS_ROLE = 1) {m p : Bool} (hmp : (m || p) = true) :
    execLaprefLost m p s = .next ((refLost s m p).emit ⟨1, 0x0204, srcModule 0, none, place 0 0 (b2n m) ||| place 1 1 (b2n p)⟩) := by
  unfold execLaprefLost
  rw [usesRef_of_role h, hmp]
  rfl

theorem refLost_refd {m p : Bool} : (refLost s m p).rd F.LAP_STATUS_REFD = 0 := State.rd_wr_self _ _ _ (by decide)

theorem refLost_sameRegs {m p : Bool} : SameRegs [Reg.LAP_STATUS] s (refLost s m p) :=
  ((((SameRegs.refl s).setLap _).wr (by decide) _).wr (by decide) _).wr (by decide) _

/-- Both reference inputs back at a master. -/
def refBack (s : State) : State :=
  ((({ s with lap := { s.lap with ref10M := true, refPps := true, ppsOdd := false } } : State).wr F.LAP_STATUS_REF10M 1).wr
    F.LAP_STATUS_PPS 1).wr F.LAP_STATUS_REFD (s.rd F.LAP_CFG_REF_EN)

theorem execLaprefRestored_master (h : s.rd F.LAP_STATUS_ROLE = 1) : execLaprefRestored s = .next (refBack s) := by
  unfold execLaprefRestored
  rw [usesRef_of_role h]
  rfl

theorem refBack_fields : (refBack s).rd F.LAP_STATUS_REF10M = 1 ∧ (refBack s).rd F.LAP_STATUS_PPS = 1
    ∧ (refBack s).rd F.LAP_STATUS_REFD = s.rd F.LAP_CFG_REF_EN :=
  ⟨rd_wr_skip (rd_wr_skip (State.rd_wr_self _ _ _ (by decide)) (by decide) (by decide)) (by decide) (by decide),
    rd_wr_skip (State.rd_wr_self _ _ _ (by decide)) (by decide) (by decide),
    (State.rd_wr_self _ _ _ (by decide)).trans (Nat.mod_eq_of_lt (bits_lt _ _ _))⟩

theorem refBack_sameRegs : SameRegs [Reg.LAP_STATUS] s (refBack s) :=
  ((((SameRegs.refl s).setLap _).wr (by decide) _).wr (by decide) _).wr (by decide) _

end

/-- Settles O28: each command is an equation for the case that the statement names, and the fields of the mark, of the answer and of the
registers are read off it. -/
theorem lapSources : Obligations.LapSources := by
  refine ⟨fun s port w hup => ⟨fun arr hkind hbad => execLmosReceive_bad hup hkind hbad, ?_, ?_, ?_⟩, fun s => ⟨?_, ?_, ?_, ?_⟩⟩
  · intro arr hkind hgood hhold hepoch hearly hlate
    have hvalid : ValidMark s port w := ⟨hup, hkind, hgood, hhold, hepoch, hearly, hlate⟩
    refine ⟨fun hrole => ⟨_, execLmosReceive_kept hvalid arr hrole, ?_⟩, fun hrole hlater => ⟨_, execLmosReceive_deposes hvalid arr hrole hlater,
      rfl, rfl, rfl⟩⟩
    dsimp only
    split
    · exact ⟨List.mem_append_right _ (List.mem_singleton_self _), rfl, rfl, rfl, ((SameRegs.refl s).setLap _).wr (by decide) _⟩
    · exact ⟨List.mem_append_right _ (List.mem_singleton_self _), rfl, rfl, rfl, (SameRegs.refl s).setLap _⟩
  · intro turn hkind hgood
    refine ⟨orderedSet (delayAnswer turn (bits w.toNat 43 16)), if_pos (by simp [hkind, hgood, hup]), ?_, ?_, ?_⟩
    · rw [bits_orderedSet _ (by decide) (by decide), bits_delayAnswer_kind]
    · rw [bits_orderedSet _ (by decide) (by decide), bits_delayAnswer_turn]
    · rw [bits_orderedSet _ (by decide) (by decide), bits_delayAnswer_seq]
      exact Nat.mod_eq_of_lt (bits_lt _ _ _)
  · intro trip hkind hgood hasked hseq
    have hmem : port ∈ s.lap.asked := by simpa using hasked
    refine ⟨_, if_pos (by simp [hkind, hgood, hup, hmem, hseq]), State.rd_wr_self _ _ _ (by simp [F.LAP_PORT_DELAY_DELAY]), ?_, ?_, rfl,
      ((SameRegs.refl s).setLap _).wr (f := F.LAP_PORT_DELAY_DELAY port) (List.mem_singleton_self _) _⟩
    · exact List.mem_append_right _ (List.mem_singleton_self _)
    · show port ∉ s.lap.asked.filter (· ≠ port)
      simp
  · intro hrole
    have hexec := execLaprefPpsEdge_master hrole _ rfl
    refine ⟨_, hexec, ppsCaptured_lap, ppsCaptured_pps, fun hen href => ?_, ppsCaptured_rest, ppsCaptured_sameRegs⟩
    rw [ppsCaptured_refd, ppsCaptured_phase, hen, href]
    exact ⟨rfl, by cases s.lap.ppsOdd <;> rfl⟩
  · exact fun m p hrole hmp => ⟨refLost s m p, execLaprefLost_master hrole hmp, refLost_refd, rfl, refLost_sameRegs⟩
  · intro hrole
    obtain ⟨h10M, hpps, hrefd⟩ := refBack_fields (s := s)
    exact ⟨refBack s, execLaprefRestored_master hrole, h10M, hpps, hrefd, rfl, refBack_sameRegs⟩
  · exact ⟨_, rfl, State.rd_wr_ne _ _ _ _ (by decide), rfl, ((SameRegs.refl s).wr (by decide) _).tick⟩

/-- A request of host origin waits for its DEVICE page to flip (`Tests.wFlips`); FLIP_MAX_NS of its home is 65,535, and a sharer of the ring's
line has a number that stands for that home's register. -/
def flipBesideSharer : State := (besideSharer Tests.wFlips (Reg.CRM_HOME 0)).wr (F.CRM_HOME_FLIP_MAX_NS 0) 0xFFFF

/-- The record of the flip counts one, and the carry reaches FLIPS. -/
theorem flipBesideSharer_flips : (match exec (.biasFlip 0 0 0) flipBesideSharer with
    | .next u => u.rd (F.CRM_HOME_FLIPS 0) != min (flipBesideSharer.rd (F.CRM_HOME_FLIPS 0) + 1) 65535
    | _ => false) = true := by decide +kernel

/-- Refutes O50: a flip is asked to be counted once in FLIPS of its home, over every state. The first flip after a pace mark is also recorded,
and in `flipBesideSharer` the snoop of the ring's line counts in the low half of the same register, with a carry into FLIPS. -/
theorem not_biasAndLinks : ¬ Obligations.BiasAndLinks := by
  intro h
  obtain ⟨-, -, hflip, -⟩ := h flipBesideSharer
  obtain ⟨u, hu, -, -, -, hflips⟩ := hflip Tests.txnH 1 0 0 0 (by decide +kernel) (by decide +kernel) (by decide) (by decide) (by decide) (by decide)
    (by decide) (by decide) (by decide) (by decide +kernel) ⟨rfl, Tests.devLocked rfl⟩ ⟨rfl, rfl, rfl, rfl, rfl⟩
  have hother := flipBesideSharer_flips
  simp only [hu, bne_iff_ne] at hother
  exact hother hflips

/-! The collectors of the tree votes (R366 to R368). -/

section
variable {s : State}

/-- The vote found for a key has that key. -/
theorem vote_key (s : State) (kind job key : Nat) :
    (s.vote kind job key).kind = kind ∧ (s.vote kind job key).job = job ∧ (s.vote kind job key).t = key := by
  unfold State.vote
  cases hfind : s.votes.find? (fun v => v.kind == kind && v.job == job && v.t == key) with
  | none => exact ⟨rfl, rfl, rfl⟩
  | some v => simpa [and_assoc] using List.find?_some hfind

/-- A vote that is set is the one found for its key. -/
theorem vote_setVote (v : VoteSt) {kind job key : Nat} (hkind : v.kind = kind) (hjob : v.job = job) (hkey : v.t = key) :
    (s.setVote v).vote kind job key = v := by
  subst hkind hjob hkey
  unfold State.vote State.setVote
  have hnone : (s.votes.filter (fun x => !(x.kind == v.kind && x.job == v.job && x.t == v.t))).find?
      (fun x => x.kind == v.kind && x.job == v.job && x.t == v.t) = none := by
    rw [List.find?_eq_none]
    intro x hx
    simpa [-not_and, not_and_or] using (List.mem_filter.mp hx).2
  rw [List.find?_append, hnone]
  simp

/-- What a message that is held by a collector leaves. -/
structure MsgHeld (s t : State) (v : VoteSpec) (k : Nat) (m : Msg) : Prop where
  rest : { t with votes := s.votes, free := s.free } = s
  held : t.vote v.kind (s.rd (F.STR_SLOT_JOB_ID v.slot)) v.key
    = { s.vote v.kind (s.rd (F.STR_SLOT_JOB_ID v.slot)) v.key with
        msgs := (s.vote v.kind (s.rd (F.STR_SLOT_JOB_ID v.slot)) v.key).msgs ++ [(k, m)] }

theorem MsgHeld.tick {t : State} {v : VoteSpec} {k : Nat} {m : Msg} (h : MsgHeld s t v k m) : MsgHeld s t.tick v k m := ⟨h.rest, h.held⟩

theorem voteHold_held {v : VoteSpec} {k : Nat} {m : Msg}
    (hopen : k ∉ (s.vote v.kind (s.rd (F.STR_SLOT_JOB_ID v.slot)) v.key).closed) : MsgHeld s (s.voteHold v k m) v k m := by
  obtain ⟨hkind, hjob, hkey⟩ := vote_key s v.kind (s.rd (F.STR_SLOT_JOB_ID v.slot)) v.key
  unfold State.voteHold
  dsimp only
  rw [if_neg (by simpa using hopen)]
  refine ⟨rfl, ?_⟩
  exact vote_setVote _ hkind hjob hkey

/-- What makes a collector take a message: it collects at the level, the sender is below its node, and the level is open. -/
structure Takes (s : State) (v : VoteSpec) (k : Nat) (m : Msg) : Prop where
  collects : collects (s.members v.slot) v.mirror (s.modIdx v.slot) k = true
  member : voteSender v.kind m < s.members v.slot
  below : voteSender v.kind m / treeSpan k = s.modIdx v.slot / treeSpan k
  early : s.now ≤ voteClosing v.kind v.base (s.members v.slot) k
  isOpen : k ∉ (s.vote v.kind (s.rd (F.STR_SLOT_JOB_ID v.slot)) v.key).closed

theorem voteTake_held {v : VoteSpec} {k : Nat} {m : Msg} (h : Takes s v k m) : MsgHeld s (s.voteTake v k m) v k m := by
  have hmember := h.member
  have hearly := h.early
  unfold State.voteTake
  rw [if_neg (by simp [h.collects, h.below]; omega)]
  exact voteHold_held h.isOpen

/-! At its closing lap (R366, R684). -/

/-- A fold over members of which none is this module sends to each. -/
theorem foldl_others {me : Nat} {here send : State → Nat → State} : ∀ (ds : List Nat) (t : State), me ∉ ds →
    ds.foldl (fun (u : State) d => if d = me then here u d else send u d) t = ds.foldl send t
  | [], _, _ => rfl
  | d :: ds, t, h => by
    rw [List.mem_cons, not_or] at h
    rw [List.foldl_cons, List.foldl_cons, if_neg (Ne.symm h.1)]
    exact foldl_others ds _ h.2

/-- What makes a collector below the root send its partial to other modules. -/
structure ShutDue (s : State) (v : VoteSpec) (k : Nat) : Prop where
  collects : collects (s.members v.slot) v.mirror (s.modIdx v.slot) k = true
  below : k ≠ treeLevels (s.members v.slot)
  closing : voteClosing v.kind v.base (s.members v.slot) k ≤ s.now
  isOpen : k ∉ (s.vote v.kind (s.rd (F.STR_SLOT_JOB_ID v.slot)) v.key).closed
  elsewhere : s.modIdx v.slot ∉ nodeCollectors (s.members v.slot) v.mirror (k + 1) (s.modIdx v.slot / treeSpan (k + 1))

/-- The vote, closed at level `k`. -/
def shutVote (s : State) (v : VoteSpec) (k : Nat) : State :=
  let x := s.vote v.kind (s.rd (F.STR_SLOT_JOB_ID v.slot)) v.key
  s.setVote { x with closed := x.closed ++ [k] }

theorem voteShut_sends {v : VoteSpec} {k : Nat} (h : ShutDue s v k) :
    s.voteShut v k = (nodeCollectors (s.members v.slot) v.mirror (k + 1) (s.modIdx v.slot / treeSpan (k + 1))).foldl
      (fun (t : State) d => t.sendVote v d (v.part (shutVote s v k) k
        ((s.vote v.kind (s.rd (F.STR_SLOT_JOB_ID v.slot)) v.key).tally (s.members v.slot) (s.modIdx v.slot) k))) (shutVote s v k) := by
  have hopen := h.isOpen
  unfold State.voteShut
  rw [if_pos h.closing]
  unfold State.voteClose
  dsimp only
  rw [if_neg (by simp [h.collects, hopen]), if_neg h.below]
  exact foldl_others _ _ h.elsewhere

end

/-! The messages of the four votes. -/

section
variable {s : State} {m : Msg} {j : Nat}

theorem preMsgFor_slot (hslot : s.slotOfJob (voteJob m) = some j) (hgood : voteGood 0 m = true) (hpre : s.inPre j = true) (k : Nat → State) :
    s.preMsgFor m k = .next (k j) := by
  unfold State.preMsgFor
  rw [hslot]
  exact if_pos (by simp [hgood, hpre])

theorem paceMsgSlot_slot (hslot : s.slotOfJob (voteJob m) = some j) (hgood : voteGood 1 m = true) (hrun : s.slotState j = 2) :
    s.paceMsgSlot m = some j := by
  unfold State.paceMsgSlot
  rw [hslot]
  exact if_pos (by simp [hgood, hrun])

theorem paceTake_hand (hpace : (s.slot j).paceAt = some (voteKey 1 m)) (k : Nat) :
    s.paceTake j k m = s.voteTake (s.paceVote j (voteKey 1 m)) k m := if_pos hpace

theorem hurdleMsg_slot (hslot : s.slotOfJob (voteJob m) = some j) (hgood : voteGood 2 m = true) (hin : s.inVote j = true)
    (hstep : voteKey 2 m = s.step j) (k : Nat → State) : s.hurdleMsg m k = .next (k j) := by
  unfold State.hurdleMsg
  rw [hslot]
  dsimp only
  rw [if_neg (by simp [hgood]), if_neg (by simp [hin, hstep])]

theorem hurdleTake_current (hstep : voteKey 2 m = s.step j) (k : Nat) : s.hurdleTake j k m = s.voteTake (s.hurdleVote j) k m := if_pos hstep

theorem ckMsgSlot_slot {type : Nat} (hslot : s.slotOfJob (voteJob m) = some j) (hgood : voteGood 3 m = true) (htype : m.byte 0 = type) :
    s.ckMsgSlot m type = some j := by
  unfold State.ckMsgSlot
  rw [hslot]
  exact if_pos (by simp [hgood, htype])

theorem ckTake_halted (hhalt : s.slotState j = 3) (hkey : voteKey 3 m = s.kLap j) (k : Nat) :
    s.ckTake j k m = s.voteTake (s.ckVote j (s.kLap j)) k m := by
  unfold State.ckTake
  rw [if_pos (by simp [hhalt, hkey]), hkey]

end

/-- Settles O29: a message that its slot and key let through is taken by `State.voteTake`, which holds it, and a collector that is due is closed
by `State.voteShut`, which sends its partial to the collectors above. -/
theorem collectors : Obligations.Collectors := by
  refine ⟨?_, ?_⟩
  · intro s m j hslot job me takes held pre pace halt
    have hheld : ∀ (v : VoteSpec) (k : Nat), v.slot = j → takes v k → MsgHeld s (s.voteTake v k m) v k m := by
      rintro v k rfl ⟨-, hcollects, hmember, hbelow, hearly, hopen⟩
      exact voteTake_held ⟨hcollects, hmember, hbelow, hearly, hopen⟩
    refine ⟨fun hpre => ⟨fun h => ?_, fun h => ?_⟩, fun hrun hpace => ⟨fun htype h => ?_, fun htype h => ?_⟩,
      fun hin hstep => ⟨fun h => ?_, fun h => ?_⟩, fun hhalt hkey => ⟨fun htype h => ?_, fun htype h => ?_⟩⟩
    · have hm := hheld pre 1 rfl h
      exact ⟨_, preMsgFor_slot hslot h.1 hpre _, hm.rest, hm.held⟩
    · have hm := hheld pre (m.byte 3 + 1) rfl h
      exact ⟨_, preMsgFor_slot hslot h.1 hpre _, hm.rest, hm.held⟩
    · have hm := (hheld pace 1 rfl h).tick
      refine ⟨_, ?_, hm.rest, hm.held⟩
      show execPconReceive m s = _
      unfold execPconReceive
      rw [paceMsgSlot_slot hslot h.1 hrun]
      dsimp only
      rw [if_pos htype, paceTake_hand hpace]
    · have hm := (hheld pace (m.byte 3 + 1) rfl h).tick
      refine ⟨_, ?_, hm.rest, hm.held⟩
      show execPpartReceive m s = _
      unfold execPpartReceive
      rw [paceMsgSlot_slot hslot h.1 hrun]
      dsimp only
      rw [if_pos htype, paceTake_hand hpace]
    · have hm := hheld (s.hurdleVote j) 1 rfl h
      refine ⟨_, ?_, hm.rest, hm.held⟩
      show execHurdleContribReceive m s = _
      rw [execHurdleContribReceive, hurdleMsg_slot hslot h.1 hin hstep, hurdleTake_current hstep]
    · have hm := hheld (s.hurdleVote j) (m.byte 3 + 1) rfl h
      refine ⟨_, ?_, hm.rest, hm.held⟩
      show execHurdlePartialReceive m s = _
      rw [execHurdlePartialReceive, hurdleMsg_slot hslot h.1 hin hstep, hurdleTake_current hstep]
    · have hm := hheld halt 1 rfl h
      refine ⟨_, ?_, hm.rest, hm.held⟩
      show execCkconReceive m s = _
      unfold execCkconReceive
      rw [ckMsgSlot_slot hslot h.1 htype]
      exact congrArg ok (ckTake_halted hhalt hkey _)
    · have hm := hheld halt (m.byte 3 + 1) rfl h
      refine ⟨_, ?_, hm.rest, hm.held⟩
      show execCkpartReceive m s = _
      unfold execCkpartReceive
      rw [ckMsgSlot_slot hslot h.1 htype]
      exact congrArg ok (ckTake_halted hhalt hkey _)
  · intro s j k job n me above due sent
    have hsent : ∀ (v : VoteSpec), v.slot = j → due v → (∀ t, v.part (shutVote s v k) k t = v.part s k t) → s.voteShut v k = sent v := by
      rintro v rfl ⟨hcollects, hbelow, hclosing, hopen, helse⟩ hpart
      rw [voteShut_sends ⟨hcollects, hbelow, hclosing, hopen, helse⟩, hpart]
      rfl
    refine ⟨fun t hslot hpre hdue => ?_, fun mark hpace hrun hdue => ?_, fun hin hmarked hdue => ?_, fun hhalt hdue => ?_⟩
    · show execPrevoteCollectorClose job t k s = _
      unfold execPrevoteCollectorClose
      rw [hslot]
      dsimp only
      rw [if_pos hpre, hsent _ rfl hdue (fun _ => rfl)]
    · show execPaceCollectorClose j k s = _
      unfold execPaceCollectorClose
      rw [hpace]
      dsimp only
      rw [if_pos (by simp [hrun]), hsent _ rfl hdue (fun _ => rfl)]
    · show execHurdleCollectorClose j k s = _
      unfold execHurdleCollectorClose
      rw [if_pos (by simp [hin, hmarked]), hsent _ rfl hdue (fun _ => rfl)]
    · show execCkptCollectorClose j k s = _
      unfold execCkptCollectorClose
      rw [if_pos hhalt, hsent _ rfl hdue (fun _ => rfl)]

end Sys2Proof.Machine
end

section

/-! SUPPORT and PROOFS. Decisions of the tree votes (O30), what a stop of a job keeps, the transitions of the lap clock (O27), power and heat (O32). -/
namespace Sys2Proof.Machine
open Sys2Proof

/-! What a decision does at a member that collects nothing (R370, R375, R641, R688, R704). -/

section
variable {s : State} {m : Msg} {j : Nat}

theorem slotOfJob_lt {job : Nat} (h : s.slotOfJob job = some j) : j < 16 := List.mem_range.mp (List.mem_of_find?_eq_some h)

/-- A module that collects at no level passes nothing down. -/
theorem voteDown_leaf {v : VoteSpec} (hleaf : ∀ k ∈ [1, 2, 3], ∀ b, collects (s.members v.slot) b (s.modIdx v.slot) k = false) :
    s.voteDown v m = s := by
  have hnone : [1, 2, 3].filter (collects (s.members v.slot) v.mirror (s.modIdx v.slot)) = [] := by
    rw [List.filter_eq_nil_iff]
    intro k hk
    rw [hleaf k hk]
    decide
  unfold State.voteDown
  dsimp only
  rw [hnone]
  rfl

/-! The pre-vote. -/

theorem showDecision_arms : (s.showDecision j m).arms = s.arms := by
  unfold State.showDecision
  dsimp only
  split <;> rfl

theorem showDecision_mem : (s.showDecision j m).mem = s.mem := by
  unfold State.showDecision
  dsimp only
  split <;> rfl

/-- FAIL of SHD_VOTE is the decision's code, at its width. -/
theorem showDecision_fail : (s.showDecision j m).rd (F.SHD_VOTE_FAIL j) = m.byte 6 % 128 := by
  have hshow : ∀ t : State, ((((((t.wrB (F.SHD_VOTE_PASS j) (m.byte 6 == 0)).wr (F.SHD_VOTE_FAIL j) (m.byte 6)).wr (F.SHD_VOTE_FIRST_FAIL j) (m.le 0x24 2)).wr
      (F.SHD_VOTE_LO_IDX j) (m.le 0x20 2)).wr (F.SHD_VOTE_HI_IDX j) (m.le 0x22 2)).wr (F.SHD_VOTE_ABSENT j) (m.le 0x28 2)).rd (F.SHD_VOTE_FAIL j)
      = m.byte 6 % 128 := fun t => by
    refine (rd_wr_skip (rd_wr_skip (rd_wr_skip (rd_wr_skip ?_ ?_ ?_) ?_ ?_) ?_ ?_) ?_ ?_)
    exact State.rd_wr_self _ _ _ (by simp [F.SHD_VOTE_FAIL])
    all_goals simp [F.SHD_VOTE_FAIL, F.SHD_VOTE_FIRST_FAIL, F.SHD_VOTE_LO_IDX, F.SHD_VOTE_HI_IDX, F.SHD_VOTE_ABSENT]
  unfold State.showDecision
  dsimp only
  split
  · exact hshow s
  · refine rd_wr_skip (hshow s) (by decide) (.inl ?_)
    simp only [F.SHD_VOTE_FAIL, F.SHD_CNT_VOTE_FAIL, Reg.SHD_VOTE, Reg.SHD_CNT]
    omega

/-- An area that is disarmed has no arm, and shows at most that it is staged. -/
theorem disarm_sameRegs (a : Nat) : SameRegs [Reg.SHD_STAT a] s (s.disarm a) := by
  have hcleared : SameRegs [Reg.SHD_STAT a] s ((((s.dropArms 0 a).wr (F.SHD_STAT_STATE a) 0).wr (F.SHD_STAT_JOB a) 0).wr (F.SHD_STAT_TARGET a) 0) :=
    (((SameRegs.of_regs (SameRegs.refl s) (u := s.dropArms 0 a) rfl).wr (f := F.SHD_STAT_STATE a) (List.mem_singleton_self _) _).wr
      (f := F.SHD_STAT_JOB a) (List.mem_singleton_self _) _).wr (f := F.SHD_STAT_TARGET a) (List.mem_singleton_self _) _
  exact fun o ho => ((State.showArea_onlyRegs _ a).2 o ho).trans (hcleared o ho)

theorem disarm_state (a : Nat) : (s.disarm a).areaState a ≤ 1 := by
  have hzero : ((((s.dropArms 0 a).wr (F.SHD_STAT_STATE a) 0).wr (F.SHD_STAT_JOB a) 0).wr (F.SHD_STAT_TARGET a) 0).areaState a = 0 :=
    rd_wr_skip (rd_wr_skip (State.rd_wr_self _ _ _ (by simp [F.SHD_STAT_STATE])) (by simp [F.SHD_STAT_JOB]) (by simp [F.SHD_STAT_JOB, F.SHD_STAT_STATE]))
      (by simp [F.SHD_STAT_TARGET]) (by simp [F.SHD_STAT_TARGET, F.SHD_STAT_STATE])
  unfold State.disarm State.showArea
  rw [if_neg (by omega)]
  refine le_of_eq_of_le (State.rd_wrB_self _ _ _ (by simp [F.SHD_STAT_STATE]) (by simp [F.SHD_STAT_STATE])) ?_
  cases !List.isEmpty _ <;> decide

theorem disarm_arms (a : Nat) : (s.disarm a).arms = s.arms.filter (fun x => !(x.kind == 0 && x.who == a)) := by
  unfold State.disarm State.showArea
  split <;> rfl

theorem execSdecReceive_member (hslot : s.slotOfJob (voteJob m) = some j) (hgood : voteGood 0 m = true) (hpre : s.inPre j = true)
    (hme : s.modIdx j ≠ 0) (hleaf : ∀ k ∈ [1, 2, 3], ∀ b, collects (s.members j) b (s.modIdx j) k = false) :
    execSdecReceive m s = .next (s.holdDecision j m) := by
  refine (preMsgFor_slot hslot hgood hpre _).trans (congrArg Host.Outcome.next ((if_neg hme).trans ?_))
  rw [voteDown_leaf (v := s.preVote j (voteKey 0 m)) hleaf]

/-- What the decision of the member's own arm leaves. -/
theorem holdDecision_own (hstate : s.areaState j = 2) (hjob : s.rd (F.SHD_STAT_JOB j) = 1) (harm : ⟨0, j, m.le 8 8, true⟩ ∈ s.arms) :
    s.holdDecision j m = if m.byte 6 = 0 then ((s.showDecision j m).wr (F.SHD_STAT_STATE j) 3).wr (F.SHD_STAT_RESULT j) 0
      else ((s.showDecision j m).disarm j).checkFail j (m.byte 6) false true (m.le 0x24 2) (m.le 8 8) := by
  have hany : s.arms.any (fun a => a.kind == 0 && a.who == j && a.t == m.le 8 8) = true := List.any_eq_true.mpr ⟨_, harm, by simp⟩
  unfold State.holdDecision
  dsimp only
  rw [if_neg (by simp [hstate, hjob, hany])]

theorem shd_vote_ne_stat (hj : j < 16) (a : Nat) (ha : a < 17) : Reg.SHD_VOTE j ≠ Reg.SHD_STAT a := by
  rw [Reg.SHD_VOTE, Reg.SHD_STAT]
  omega

theorem sdec_passes (hj : j < 16) :
    let t := ((s.showDecision j m).wr (F.SHD_STAT_STATE j) 3).wr (F.SHD_STAT_RESULT j) 0
    t.rd (F.SHD_VOTE_FAIL j) = m.byte 6 % 128 ∧ t.areaState j = 3 ∧ t.arms = s.arms ∧ t.mem = s.mem := by
  have hne : (F.SHD_VOTE_FAIL j).off ≠ Reg.SHD_STAT j := shd_vote_ne_stat hj j (by omega)
  refine ⟨rd_wr_skip (rd_wr_skip showDecision_fail (by simp [F.SHD_STAT_STATE]) (.inl hne)) (by simp [F.SHD_STAT_RESULT]) (.inl hne), ?_,
    showDecision_arms, showDecision_mem⟩
  exact rd_wr_skip (State.rd_wr_self _ _ _ (by simp [F.SHD_STAT_STATE])) (by simp [F.SHD_STAT_RESULT]) (by simp [F.SHD_STAT_RESULT, F.SHD_STAT_STATE])

theorem sdec_fails (hj : j < 16) {code first lap : Nat} :
    let t := ((s.showDecision j m).disarm j).checkFail j code false true first lap
    t.rd (F.SHD_VOTE_FAIL j) = m.byte 6 % 128 ∧ t.areaState j ≤ 1 ∧ ∀ a ∈ t.arms, ¬(a.kind = 0 ∧ a.who = j) := by
  have hkept : EvKept (F.SHD_VOTE_FAIL j) ∧ EvKept (F.SHD_STAT_STATE j) := by
    refine ⟨⟨by simp [F.SHD_VOTE_FAIL], .inl ?_⟩, ⟨by simp [F.SHD_STAT_STATE], .inl ?_⟩⟩ <;>
      simp only [F.SHD_VOTE_FAIL, F.SHD_STAT_STATE, Reg.SHD_VOTE, Reg.SHD_STAT, Reg.STR_RING_CNT, Reg.STR_PINS, Reg.STR_HOST] <;> omega
  have hne : (F.SHD_VOTE_FAIL j).off ≠ Reg.SHD_STAT j := shd_vote_ne_stat hj j (by omega)
  have hcnt : (F.SHD_VOTE_FAIL j).off ≠ Reg.SHD_CNT ∧ (F.SHD_STAT_STATE j).off ≠ Reg.SHD_CNT := by
    refine ⟨?_, ?_⟩ <;> simp only [F.SHD_VOTE_FAIL, F.SHD_STAT_STATE, Reg.SHD_VOTE, Reg.SHD_STAT, Reg.SHD_CNT] <;> omega
  refine ⟨?_, ?_, ?_⟩
  · refine (State.emit_rd _ _ hkept.1).trans (rd_wr_skip (rd_wr_skip ?_ (by simp [F.SHD_STAT_RESULT]) (.inl hne)) (by decide) (.inl hcnt.1))
    exact (SameRegs.rd_eq (disarm_sameRegs j) _ (by simpa using hne)).trans showDecision_fail
  · refine le_of_eq_of_le ?_ (disarm_state (s := s.showDecision j m) j)
    exact (State.emit_rd _ _ hkept.2).trans (rd_wr_skip (rd_wr_skip rfl (by simp [F.SHD_STAT_RESULT]) (by simp [F.SHD_STAT_RESULT, F.SHD_STAT_STATE]))
      (by decide) (.inl hcnt.2))
  · intro a ha
    have ha' : a ∈ ((s.showDecision j m).disarm j).arms := by
      have harms := State.emit_arms ((((s.showDecision j m).disarm j).wr (F.SHD_STAT_RESULT j) code).inc F.SHD_CNT_CHECK_FAIL)
        ((((s.showDecision j m).disarm j)).checkFailEv 1 j code false true first lap)
      exact harms ▸ ha
    rw [disarm_arms, List.mem_filter] at ha'
    simpa [-not_and, not_and_or] using ha'.2

/-! Arming the applied lap. -/

theorem armReason_congr {t : State} (hnow : t.now = s.now) (hstate : t.rd F.LAP_STATUS_STATE = s.rd F.LAP_STATUS_STATE) (harms : t.arms = s.arms)
    (lap : Nat) : t.armReason lap true = s.armReason lap true := by
  unfold State.armReason
  rw [hnow, hstate, harms]

theorem armJob_accepted {kind who lap : Nat} (h : s.armReason lap true = none) : s.armJob kind who lap j = s.addArm ⟨kind, who, lap, true⟩ := by
  unfold State.armJob
  rw [h]

/-! The pace decision. -/

theorem execPdecReceive_member (hslot : s.slotOfJob (voteJob m) = some j) (hgood : voteGood 1 m = true) (htype : m.byte 0 = 0x72)
    (hrun : s.slotState j = 2) (hpace : (s.slot j).paceAt = some (voteKey 1 m)) (hgot : (s.vote 7 (voteJob m) (voteKey 1 m)).closed = [])
    (hme : s.modIdx j ≠ 0) (hleaf : ∀ k ∈ [1, 2, 3], ∀ b, collects (s.members j) b (s.modIdx j) k = false) :
    ∃ v, execPdecReceive m s = .next ((s.setVote v).paceHold j (voteKey 1 m) m) := by
  refine ⟨{ s.vote 7 (voteJob m) (voteKey 1 m) with closed := [1] }, ?_⟩
  unfold execPdecReceive
  rw [paceMsgSlot_slot hslot hgood hrun]
  dsimp only
  rw [if_neg (by simp [htype, hpace, hme, hgot])]
  exact congrArg (fun t : State => ok (t.paceHold j (voteKey 1 m) m)) (voteDown_leaf (v := s.paceVote j (voteKey 1 m)) hleaf)

/-- What a member shows of the pace decision. -/
def paceShown (s : State) (j : Nat) (m : Msg) (arr : Nat) : State :=
  (((((s.setSlot j { s.slot j with paceMsg := some m }).wr (F.PCE_VOTE_DECIDED j) (m.byte 0xE % 16)).wr (F.PCE_VOTE_FIRST j) (m.le 0x10 2)).wr
    (F.PCE_VOTE_ABSENT j) (bits (m.byte 0xE) 6 6)).wr (F.PCE_VOTE_LATE j) 0).wr (F.PCE_VOTE_ARRIVAL j) arr

theorem paceShown_decided (arr : Nat) : (paceShown s j m arr).rd (F.PCE_VOTE_DECIDED j) = m.byte 0xE % 16 := by
  refine rd_wr_skip (rd_wr_skip (rd_wr_skip (rd_wr_skip ((State.rd_wr_self _ _ _ ?_).trans (Nat.mod_mod _ 16)) ?_ ?_) ?_ ?_) ?_ ?_) ?_ ?_
  all_goals simp [F.PCE_VOTE_DECIDED, F.PCE_VOTE_FIRST, F.PCE_VOTE_ABSENT, F.PCE_VOTE_LATE, F.PCE_VOTE_ARRIVAL]

theorem paceShown_late (arr : Nat) : (paceShown s j m arr).rd (F.PCE_VOTE_LATE j) = 0 := by
  refine rd_wr_skip ((State.rd_wr_self _ _ _ ?_).trans (Nat.zero_mod _)) ?_ ?_
  all_goals simp [F.PCE_VOTE_LATE, F.PCE_VOTE_ARRIVAL]

theorem paceShown_sameRegs (arr : Nat) : SameRegs [Reg.PCE_VOTE j] s (paceShown s j m arr) :=
  ((((((SameRegs.refl s).of_regs (u := s.setSlot j { s.slot j with paceMsg := some m }) rfl).wr (f := F.PCE_VOTE_DECIDED j) (List.mem_singleton_self _) _).wr
    (f := F.PCE_VOTE_FIRST j) (List.mem_singleton_self _) _).wr (f := F.PCE_VOTE_ABSENT j) (List.mem_singleton_self _) _).wr
    (f := F.PCE_VOTE_LATE j) (List.mem_singleton_self _) _).wr (f := F.PCE_VOTE_ARRIVAL j) (List.mem_singleton_self _) _

theorem paceShown_arms (arr : Nat) : (paceShown s j m arr).arms = s.arms := by
  simp only [paceShown, State.wr_arms]
  rfl

theorem paceShown_mem (arr : Nat) : (paceShown s j m arr).mem = s.mem := by
  simp only [paceShown, State.wr_mem]
  rfl

theorem paceShown_out (arr : Nat) : (paceShown s j m arr).out = s.out := by
  simp only [paceShown, State.wr_out]
  rfl

theorem paceShown_msg (arr : Nat) : ((paceShown s j m arr).slot j).paceMsg = some m := by
  have hslots : (paceShown s j m arr).slots = (s.setSlot j { s.slot j with paceMsg := some m }).slots := by
    simp only [paceShown, State.wr_slots]
  rw [State.slot, hslots]
  exact congrArg SlotSt.paceMsg (State.setSlot_slot_self s j _)

/-- A member holds the decision, and shows it. -/
structure PaceHeld (s : State) (j : Nat) (m : Msg) (u : State) : Prop where
  msg : (u.slot j).paceMsg = some m
  decided : u.rd (F.PCE_VOTE_DECIDED j) = m.byte 0xE % 16
  late : u.rd (F.PCE_VOTE_LATE j) = 0
  mem : u.mem = s.mem
  out : u.out = s.out

theorem paceShown_held (arr : Nat) : PaceHeld s j m (paceShown s j m arr) :=
  ⟨paceShown_msg arr, paceShown_decided arr, paceShown_late arr, paceShown_mem arr, paceShown_out arr⟩

/-- Its arm for the lap of the change changes nothing of that. -/
theorem PaceHeld.armed {u : State} (h : PaceHeld s j m u) (a : Arm) : PaceHeld s j m (u.tick.addArm a) := ⟨h.msg, h.decided, h.late, h.mem, h.out⟩

theorem tick_addArm_arms (u : State) (a : Arm) : (u.tick.addArm a).arms = u.arms ++ [a] := rfl

theorem armJob_tick {u : State} {kind lap : Nat} (h : u.armReason lap true = none) : u.tick.armJob kind j lap j = u.tick.addArm ⟨kind, j, lap, true⟩ :=
  armJob_accepted (s := u.tick) h

theorem paceHold_open {mark : Nat} (hpace : (s.slot j).paceAt = some mark) (hnone : (s.slot j).paceMsg = none) (hnow : s.now ≤ 4080 + mark) :
    ∃ arr, s.paceHold j mark m = (paceShown s j m arr).tick.armJob 1 j (4096 + mark) j := by
  have hheld : s.paceHeld j mark = false := by rw [State.paceHeld, hnone]
  unfold State.paceHold
  rw [if_neg (by simp [hpace, hheld]; omega)]
  extract_lets src s1 arr s2
  exact ⟨satTo 32 arr, rfl⟩

theorem paceShown_armReason (hj : j < 16) (arr lap : Nat) : (paceShown s j m arr).armReason lap true = s.armReason lap true := by
  have hne : ∀ o, o < 0x300000 → o ∉ [Reg.PCE_VOTE j] := by
    intro o ho
    rw [List.mem_singleton, Reg.PCE_VOTE]
    omega
  exact armReason_congr ((paceShown_sameRegs arr).rd_eq F.LAP_COUNT_COUNT (hne _ (by decide)))
    ((paceShown_sameRegs arr).rd_eq F.LAP_STATUS_STATE (hne _ (by decide))) (paceShown_arms arr) lap

theorem paceHold_arms {mark : Nat} (hj : j < 16) (hpace : (s.slot j).paceAt = some mark) (hnone : (s.slot j).paceMsg = none) (hnow : s.now ≤ 4080 + mark)
    (harm : s.armReason (4096 + mark) true = none) :
    ∃ t : State, s.paceHold j mark m = t ∧ t.arms = s.arms ++ [⟨1, j, 4096 + mark, true⟩] ∧ PaceHeld s j m t := by
  obtain ⟨arr, hopen⟩ := paceHold_open (m := m) hpace hnone hnow
  exact ⟨_, hopen.trans (armJob_tick ((paceShown_armReason hj arr _).trans harm)),
    (tick_addArm_arms _ _).trans (congrArg (· ++ [(⟨1, j, 4096 + mark, true⟩ : Arm)]) (paceShown_arms arr)), (paceShown_held arr).armed _⟩

/-! The outcome of a Hurdle. -/

theorem execHurdleOutcomeReceive_member (hslot : s.slotOfJob (voteJob m) = some j) (hgood : voteGood 2 m = true) (hin : s.inVote j = true)
    (hstep : voteKey 2 m = s.step j) (hgot : (s.vote 5 (voteJob m) (voteKey 2 m)).closed = [])
    (hme : s.modIdx j ≠ 0) (hleaf : ∀ k ∈ [1, 2, 3], ∀ b, collects (s.members j) b (s.modIdx j) k = false) :
    ∃ v, execHurdleOutcomeReceive m s = .next ((s.setVote v).holdOutcome j m) := by
  refine ⟨{ s.vote 5 (voteJob m) (voteKey 2 m) with closed := [1] }, ?_⟩
  refine (hurdleMsg_slot hslot hgood hin hstep _).trans (congrArg Host.Outcome.next ((if_neg (by simp only [hgot]; simp [hstep, hme])).trans ?_))
  exact congrArg (fun t : State => t.holdOutcome j m) (voteDown_leaf (v := s.hurdleVote j) hleaf)

/-- The outcome is held and its resolve lap armed. -/
def OutcomeArmed (j : Nat) (m : Msg) (t : State) : Prop := ⟨2, j, m.le 0x18 8, true⟩ ∈ t.arms ∧ (t.slot j).outMsg = some m

theorem OutcomeArmed.addArm {t : State} (h : OutcomeArmed j m t) (a : Arm) : OutcomeArmed j m (t.addArm a) :=
  ⟨List.mem_append_left _ h.1, h.2⟩

theorem OutcomeArmed.emit {t : State} (h : OutcomeArmed j m t) (e : Ev) : OutcomeArmed j m (t.emit e) := by
  unfold OutcomeArmed
  rw [State.emit_arms, State.emit_slot]
  exact h

theorem OutcomeArmed.latchReject {t : State} (h : OutcomeArmed j m t) (r k l i : Nat) : OutcomeArmed j m (t.latchReject r k l i) := h

/-- An outcome in time arms its resolve lap; what becomes of the rotations does not undo it. -/
theorem holdOutcome_armed (hj : j < 16) (hrun : s.slotState j = 2) (hnone : (s.slot j).outMsg = none) (hlate : (s.slot j).outLate = none)
    (hnow : s.now ≤ s.hMark j + 16) (harm : s.armReason (m.le 0x18 8) true = none) : OutcomeArmed j m (s.holdOutcome j m) := by
  unfold State.holdOutcome
  dsimp only
  rw [if_neg (by simp [hnone, hlate]), if_neg (by simp [hrun]), if_neg (by simp [hrun]), if_neg (by omega)]
  generalize (if s.members j = 1 then 0 else satTo 32 (s.ticksSince (s.hMark j))) = arr
  have hne : ∀ f : Fld, f.off < 0x300000 → f.off ≠ (F.HRD_RESULT_ARRIVAL j).off := by
    intro f hf
    simp only [F.HRD_RESULT_ARRIVAL, Reg.HRD_RESULT]
    omega
  have harm' := (armReason_congr (s := s) (t := ((s.setSlot j { s.slot j with outMsg := some m }).wr (F.HRD_RESULT_ARRIVAL j) arr).tick)
    (State.rd_wr_ne _ _ _ _ (hne _ (by decide))) (State.rd_wr_ne _ _ _ _ (hne _ (by decide))) rfl (m.le 0x18 8)).trans harm
  have hheld : OutcomeArmed j m (((s.setSlot j { s.slot j with outMsg := some m }).wr (F.HRD_RESULT_ARRIVAL j) arr).tick.armJob 2 j (m.le 0x18 8) j) := by
    rw [armJob_accepted harm']
    exact ⟨List.mem_append_right _ (List.mem_singleton_self _), congrArg SlotSt.outMsg (State.setSlot_slot_self _ _ _)⟩
  split
  · refine foldl_induct (P := OutcomeArmed j m) (fun t p h => ?_) _ hheld
    split
    · split
      · exact h
      · split
        · exact h.addArm _
        · exact (h.latchReject _ _ _ _).emit _
    · exact h
  · exact hheld

/-! The decision of a checkpoint halt. -/

theorem execCkdecReceive_member (hslot : s.slotOfJob (voteJob m) = some j) (hgood : voteGood 3 m = true) (htype : m.byte 0 = 0x45)
    (hhalt : s.slotState j = 3) (hkey : voteKey 3 m = s.kLap j) (hgot : (s.vote 8 (voteJob m) (voteKey 3 m)).closed = [])
    (hme : s.modIdx j ≠ 0) (hleaf : ∀ k ∈ [1, 2, 3], ∀ b, collects (s.members j) b (s.modIdx j) k = false) :
    ∃ v, execCkdecReceive m s = .next ((s.setVote v).holdCkdec j m) := by
  refine ⟨{ s.vote 8 (voteJob m) (voteKey 3 m) with closed := [1] }, ?_⟩
  unfold execCkdecReceive
  rw [ckMsgSlot_slot hslot hgood htype]
  dsimp only
  rw [if_neg (by simp only [hgot]; simp [hhalt, hkey, hme])]
  exact congrArg (fun t : State => ok (t.holdCkdec j m)) (voteDown_leaf (v := s.ckVote j (voteKey 3 m)) hleaf)

/-- The state in which a halt knows its resumption lap. -/
def ckDecided (s : State) (j : Nat) (m : Msg) : State :=
  (((s.setCk j { s.ck j with dec := some m }).wr (F.RES_RESUME_Z j) (m.le 0x18 8)).wr (F.RES_CKPT_STAT_FIRST j) (m.le 0x20 2)).setSchedule j (m.le 0x18 8)

theorem holdCkdec_decided (hhalt : s.slotState j = 3) (hnone : (s.ck j).dec = none) (hnow : s.now ≤ s.kLap j + 16)
    (habort : bit (m.byte 0x22) 0 = false) : s.holdCkdec j m = ckDecided s j m := by
  unfold State.holdCkdec
  dsimp only
  rw [if_neg (by simp [hhalt, hnone]; omega), if_neg (by simp [habort])]
  rfl

theorem ckDecided_dec : ((ckDecided s j m).ck j).dec = some m :=
  congrArg (fun v : SlotSt => v.ck.dec) (State.setSlot_slot_self s j { s.slot j with ck := { s.ck j with dec := some m } })

theorem ckDecided_z (hj : j < 16) : (ckDecided s j m).rd (F.RES_RESUME_Z j) = m.le 0x18 8 % 2 ^ 64 := by
  refine rd_wr_skip (rd_wr_skip (State.rd_wr_self _ _ _ (by simp [F.RES_RESUME_Z])) (by simp [F.RES_CKPT_STAT_FIRST]) (.inl ?_)) (by simp [F.HRD_MARK_H])
    (.inl ?_)
  · simp only [F.RES_RESUME_Z, F.RES_CKPT_STAT_FIRST, Reg.RES_RESUME, Reg.RES_CKPT_STAT]
    omega
  · simp only [F.RES_RESUME_Z, F.HRD_MARK_H, Reg.RES_RESUME, Reg.HRD_MARK]
    omega

theorem ckDecided_mark (hj : j < 16) : (ckDecided s j m).rd (F.HRD_MARK_H j) = (m.le 0x18 8 + s.rd (F.HRD_SCHED_HURDLE_OFFSET j)) % 2 ^ 64 := by
  have hoffset : (((s.setCk j { s.ck j with dec := some m }).wr (F.RES_RESUME_Z j) (m.le 0x18 8)).wr (F.RES_CKPT_STAT_FIRST j) (m.le 0x20 2)).rd
      (F.HRD_SCHED_HURDLE_OFFSET j) = s.rd (F.HRD_SCHED_HURDLE_OFFSET j) := by
    refine rd_wr_skip (rd_wr_skip (State.setSlot_rd _ _ _ _) (by simp [F.RES_RESUME_Z]) (.inl ?_)) (by simp [F.RES_CKPT_STAT_FIRST]) (.inl ?_) <;>
      simp only [F.HRD_SCHED_HURDLE_OFFSET, F.RES_RESUME_Z, F.RES_CKPT_STAT_FIRST, Reg.HRD_SCHED, Reg.RES_RESUME, Reg.RES_CKPT_STAT] <;> omega
  unfold ckDecided State.setSchedule
  rw [hoffset]
  exact State.rd_wr_self _ _ _ (by simp [F.HRD_MARK_H])

end

/-- Settles O30: at a member that collects at no level a decision goes no further down, and each kind has its own way of being held. -/
theorem decisionsTaken : Obligations.DecisionsTaken := by
  intro s m j hslot hme hleaf
  have hj := slotOfJob_lt hslot
  refine ⟨fun hgood hpre hstate hjob harm => ?_, fun hgood htype hrun hpace hnone hgot hnow harm => ?_,
    fun hgood hrun hstep hgot hnone hlate hnow harm => ?_, fun hgood htype hhalt hkey hgot hnone hnow habort => ?_⟩
  · refine ⟨_, execSdecReceive_member hslot hgood hpre hme hleaf, ?_⟩
    rw [holdDecision_own hstate hjob harm]
    by_cases hpass : m.byte 6 = 0
    · rw [if_pos hpass]
      obtain ⟨hfail, harea, harms, hmem⟩ := sdec_passes (s := s) (m := m) hj
      exact ⟨hfail, fun _ => ⟨harea, harms, hmem⟩, fun hne => absurd hpass hne⟩
    · rw [if_neg hpass]
      obtain ⟨hfail, harea, harms⟩ := sdec_fails (s := s) (m := m) hj (code := m.byte 6) (first := m.le 0x24 2) (lap := m.le 8 8)
      exact ⟨hfail, fun hzero => absurd hzero hpass, fun _ => ⟨harea, harms⟩⟩
  · obtain ⟨v, hexec⟩ := execPdecReceive_member hslot hgood htype hrun hpace hgot hme hleaf
    obtain ⟨t, hheld, harms, ht⟩ := paceHold_arms (s := s.setVote v) (m := m) hj hpace hnone hnow harm
    exact ⟨t, hexec.trans (congrArg Host.Outcome.next hheld), harms, ht.msg, ht.decided, ht.late, ht.mem, ht.out⟩
  · obtain ⟨v, hexec⟩ := execHurdleOutcomeReceive_member hslot hgood (by simp [State.inVote, hrun]) hstep hgot hme hleaf
    obtain ⟨harmed, hout⟩ := holdOutcome_armed (s := s.setVote v) (m := m) hj hrun hnone hlate hnow harm
    exact ⟨_, hexec, harmed, hout⟩
  · obtain ⟨v, hexec⟩ := execCkdecReceive_member hslot hgood htype hhalt hkey hgot hme hleaf
    have hdec := holdCkdec_decided (s := s.setVote v) (m := m) hhalt hnone hnow habort
    exact ⟨_, hexec.trans (congrArg Host.Outcome.next hdec), ckDecided_dec, ckDecided_z hj, rfl, rfl, ckDecided_mark hj⟩

theorem Records.lap {s t : State} (h : Records s t) : t.lap = s.lap := by
  have := congrArg State.lap h.same
  exact this

/-! What a stop of a job leaves (R51, R782): the module's own registers below the window of the agents. -/

/-- A field below the window of the agents that no event record writes. -/
def LowFld (f : Fld) : Prop :=
  f.hi < 64 ∧ f.off < 0x400200 ∧ f.off ≠ Reg.STR_RING_CNT ∧ f.off ≠ Reg.STR_PINS ∧ f.off ≠ Reg.STR_HOST 0 ∧ f.off ≠ Reg.STR_HOST 1

theorem LowFld.evKept {f : Fld} (h : LowFld f) : EvKept f := ⟨h.1, .inl h.2⟩

/-- A slot but for its load, the vote that it owes and what it counts of droops and throttling. -/
def slotRest (v : SlotSt) : SlotSt :=
  { v with owesVote := false, prog := none, loadQ := none, loadHeld := none, loadAsk := false, loadSlot := false, loadDone := false, droop := 0, throttled := 0 }

/-- From `s` to `t` those fields read as before, but for the registers listed, and so do the lap clock and the slots but for what `slotRest` leaves out. -/
structure LowKept (offs : List Nat) (s t : State) : Prop where
  rd : ∀ f, LowFld f → f.off ∉ offs → t.rd f = s.rd f
  lap : t.lap = s.lap
  slots : ∀ j, slotRest (t.slot j) = slotRest (s.slot j)

namespace LowKept
variable {offs : List Nat} {s t u : State}

protected theorem refl : LowKept offs s s := ⟨fun _ _ _ => rfl, rfl, fun _ => rfl⟩

/-- An update that leaves the registers, the lap clock and the slots alone. -/
theorem upd (h : LowKept offs s t) (hregs : u.regs = t.regs) (hlap : u.lap = t.lap) (hslots : u.slots = t.slots) : LowKept offs s u :=
  ⟨fun f hf ho => (State.rd_of_regs t hregs f).trans (h.rd f hf ho), hlap.trans h.lap,
    fun j => (congrArg (fun l => slotRest (sget _ l j)) hslots).trans (h.slots j)⟩

theorem ite {p : Prop} [Decidable p] (h : LowKept offs s t) (h' : LowKept offs s u) : LowKept offs s (if p then t else u) := by
  split
  · exact h
  · exact h'

theorem foldl {α : Type} {f : State → α → State} {l : List α} (hf : ∀ t a, LowKept offs s t → LowKept offs s (f t a)) (h : LowKept offs s t) :
    LowKept offs s (l.foldl f t) := foldl_induct hf l h

/-- A field of the agents' window or beyond it. -/
theorem wr {f : Fld} {v : Nat} (h : LowKept offs s t) (hf : 0x400200 ≤ f.off) : LowKept offs s (t.wr f v) :=
  ⟨fun g hg ho => (State.rd_wr_ne _ _ _ _ (by obtain ⟨-, hlt, -⟩ := hg; omega)).trans (h.rd g hg ho), h.lap, h.slots⟩

theorem wrOf {f : Fld} {v : Nat} (h : LowKept offs s t) (hf : f.off ∈ offs) : LowKept offs s (t.wr f v) :=
  ⟨fun g hg ho => (State.rd_wr_ne _ _ _ _ (by rintro he; exact ho (he ▸ hf))).trans (h.rd g hg ho), h.lap, h.slots⟩

theorem setReg {off : Nat} {v : Word} (h : LowKept offs s t) (hoff : 0x400200 ≤ off) : LowKept offs s (t.setReg off v) :=
  ⟨fun g hg ho => (State.setReg_rd_ne _ _ _ (by obtain ⟨-, hlt, -⟩ := hg; omega)).trans (h.rd g hg ho), h.lap, h.slots⟩

theorem records (h : LowKept offs s t) (hr : Records t u) : LowKept offs s u :=
  ⟨fun f hf ho => (hr.rd f hf.evKept).trans (h.rd f hf ho), hr.lap.trans h.lap,
    fun j => (congrArg (fun l => slotRest (sget _ l j)) hr.slots_eq).trans (h.slots j)⟩

theorem emit {e : Ev} (h : LowKept offs s t) : LowKept offs s (t.emit e) := h.records Records.refl.emit

theorem queueIrq {q : Nat} (h : LowKept offs s t) : LowKept offs s (t.queueIrq q) := .ite (h.records Records.refl.irq) h

theorem setQueue {q : Nat} {v : QueueSt} (h : LowKept offs s t) : LowKept offs s (t.setQueue q v) := by
  unfold State.setQueue
  dsimp only
  exact .wr (.wr (.upd h rfl rfl rfl) (by simp only [F.SQ_STAT_STATE, Reg.SQ_STAT]; omega)) (by simp only [F.SQ_STAT_INFLIGHT, Reg.SQ_STAT]; omega)

theorem endCmd {q entry status detail : Nat} (h : LowKept offs s t) : LowKept offs s (t.endCmd q entry status detail) := by
  unfold State.endCmd
  dsimp only
  split
  · exact h
  · exact h
  · exact .setQueue (.upd h rfl rfl rfl)

theorem freeEng {e : Nat} (h : LowKept offs s t) : LowKept offs s (t.freeEng e) := by
  unfold State.freeEng
  dsimp only
  exact .ite (.wr (.wr (.wr (.upd h rfl rfl rfl) (by simp only [F.CPE_ENG_STATE, Reg.CPE_ENG]; omega)) (by simp only [F.CPE_ENG_QUEUE, Reg.CPE_ENG]; omega))
      (by simp only [F.CPE_ENG_ENTRY, Reg.CPE_ENG]; omega))
    (.wr (.upd h rfl rfl rfl) (by simp only [F.PRM_ENG_STAT_STATE, Reg.PRM_ENG_STAT]; omega))

theorem finish {e : Nat} {x : EngSt} {status detail : Nat} (h : LowKept offs s t) : LowKept offs s (t.finish e x status detail) := by
  unfold State.finish
  dsimp only
  refine .ite h (.freeEng (.endCmd ?_))
  split
  · exact .wr (.upd h rfl rfl rfl) (by simp only [F.CD_EPOCH_REFS, Reg.CD_EPOCH]; omega)
  · exact .upd h rfl rfl rfl

theorem endWaiting {j new : Nat} (h : LowKept offs s t) : LowKept offs s (t.endWaiting j new) := .foldl (fun _ _ h' => .ite h'.finish h') h

theorem haltQueue {q reason : Nat} (h : LowKept offs s t) : LowKept offs s (t.haltQueue q reason) :=
  .queueIrq (.emit (.setQueue (.wr h (by simp only [F.SQ_STAT_REASON, Reg.SQ_STAT]; omega))))

theorem closeCtx {x : Nat} (h : LowKept offs s t) : LowKept offs s (t.closeCtx x) :=
  .wr (.setReg (.upd h rfl rfl rfl) (by rw [Reg.PRM_CTX]; omega)) (by simp only [F.PRM_ENG_STAT_OPEN, Reg.PRM_ENG_STAT]; omega)

theorem closePrism {tctx eng : Nat → Bool} (h : LowKept offs s t) : LowKept offs s (t.closePrism tctx eng) :=
  .foldl (fun _ _ h' => .ite (.setQueue (.upd (.foldl (fun _ _ h2 => h2.freeEng) h') rfl rfl rfl)) h') (.upd (.foldl (fun _ _ h' => by
    split
    · exact .ite h'.closeCtx h'
    · exact h') h) rfl rfl rfl)

theorem setRun {cl : ClusterId} {v : Nat} (h : LowKept offs s t) : LowKept offs s (t.setRun cl v) :=
  .wr h (by simp only [F.CL_STATUS_RUN, Reg.CL_STATUS]; omega)

theorem setShard {n j k : Nat} {v : ShardSt} (h : LowKept offs s t) : LowKept offs s (t.setShard n j k v) :=
  .wr (.upd h rfl rfl rfl) (by simp only [F.CD_EPOCH_HOLDERS, Reg.CD_EPOCH]; omega)

theorem dropHolder {cl : ClusterId} (h : LowKept offs s t) : LowKept offs s (t.dropHolder cl) := .foldl (fun _ _ h' => .ite h'.setShard h') h

theorem dropRef {j : Nat} {d : DqEnt} (h : LowKept offs s t) : LowKept offs s (t.dropRef j d) := by
  unfold State.dropRef
  split
  · exact .wr h (by simp only [F.CD_EPOCH_REFS, Reg.CD_EPOCH]; omega)
  · exact h

theorem showCl {cl : ClusterId} (h : LowKept offs s t) : LowKept offs s (t.showCl cl) := by
  unfold State.showCl
  dsimp only
  exact .wr (.wr (.wr (.wr h (by simp only [F.CL_WGQ_ENTRIES, Reg.CL_WGQ]; omega)) (by simp only [F.CL_WGQ_HEAD, Reg.CL_WGQ]; omega))
    (by simp only [F.CL_STATUS_MERGING, Reg.CL_STATUS]; omega)) (by simp only [F.CL_VSTATUS_QUEUE, Reg.CL_VSTATUS]; omega)

theorem putCl {cl : ClusterId} {c : ClusterSt} (h : LowKept offs s t) : LowKept offs s (t.putCl cl c) := .showCl (.upd h rfl rfl rfl)

theorem setSlotCode {cl : ClusterId} {k v : Nat} (h : LowKept offs s t) : LowKept offs s (t.setSlotCode cl k v) :=
  .wr h (by simp only [F.CL_SLOTS_STATE, Reg.CL_SLOTS]; omega)

theorem abandonCl {cl : ClusterId} (h : LowKept offs s t) : LowKept offs s (t.abandonCl cl) :=
  .putCl (.dropHolder (.foldl (fun _ _ h' => .ite h'.setSlotCode h') (by
    split
    · exact .foldl (fun _ _ h' => h'.dropRef) h
    · exact h)))

theorem haltClusters {j : Nat} (h : LowKept offs s t) : LowKept offs s (t.haltClusters j) := .foldl (fun _ _ h' => .ite h' h'.setRun.abandonCl) h

theorem rotDecline {p : Nat} {r : RotSt} {reason : Nat} (h : LowKept offs s t) : LowKept offs s (t.rotDecline p r reason) := by
  unfold State.rotDecline State.rotRecord
  dsimp only
  exact .emit (.upd (.ite (.wr h (by simp only [F.CL_STATUS_ROLE, Reg.CL_STATUS]; omega)) h) rfl rfl rfl)

theorem dropRots {j : Nat} (h : LowKept offs s t) : LowKept offs s (t.dropRots j) :=
  .foldl (fun _ _ h' => by
    split
    · exact .ite h' (.rotDecline (.upd h' rfl rfl rfl))
    · exact h') h

theorem stopEngines {j : Nat} (h : LowKept offs s t) : LowKept offs s (t.stopEngines j) := by
  unfold State.stopEngines
  dsimp only
  exact .closePrism (.foldl (fun _ _ h' => .ite h' h'.haltQueue) h)

theorem setSlot {j : Nat} {v : SlotSt} (h : LowKept offs s t) (hv : slotRest v = slotRest (t.slot j)) : LowKept offs s (t.setSlot j v) := by
  refine ⟨h.rd, h.lap, fun i => Eq.trans ?_ (h.slots i)⟩
  by_cases hij : i = j
  · rw [hij, State.setSlot_slot_self, hv]
  · rw [State.setSlot_slot, if_neg hij]

theorem dropLoad {j : Nat} (h : LowKept offs s t) : LowKept offs s (t.dropLoad j) := by
  unfold State.dropLoad
  split
  · exact h
  · split
    · exact .endCmd (h.setSlot rfl)
    · exact h.setSlot rfl

/-- A slot's new state is written in its own register, and then nothing below the window. -/
theorem setSlotState_written {j new : Nat} (hne : s.slotState j ≠ new) : LowKept offs (s.wr (F.STR_SLOT_STATE j) new) (s.setSlotState j new) := by
  unfold State.setSlotState
  dsimp only
  rw [if_neg hne]
  exact .emit (.ite LowKept.refl.endWaiting .refl)

theorem setSlotState {j new : Nat} (h : LowKept offs s t) (hj : Reg.STR_SLOT j ∈ offs) : LowKept offs s (t.setSlotState j new) :=
  .ite h (.emit (.ite (.endWaiting (.wrOf (f := F.STR_SLOT_STATE j) h hj)) (.wrOf (f := F.STR_SLOT_STATE j) h hj)))

theorem stopJob {j : Nat} {owes : Bool} (h : LowKept offs s t) (hj : Reg.STR_SLOT j ∈ offs) : LowKept offs s (t.stopJob j owes) :=
  .ite h (.stopEngines (.dropLoad (.setSlot (.dropRots (.setSlotState (.haltClusters h) hj)) rfl)))

theorem failJob {j : Nat} {e : Ev} (h : LowKept offs s t) (hj : Reg.STR_SLOT j ∈ offs) : LowKept offs s (t.failJob j e) := .stopJob h.emit hj

end LowKept

/-! The slot of a job that stops is FAULTED. -/

section
variable (s : State) {j : Nat} (hj : j < 16)
include hj

theorem slotState_low : LowFld (F.STR_SLOT_STATE j) := by
  refine ⟨by simp [F.STR_SLOT_STATE], ?_⟩
  simp only [F.STR_SLOT_STATE, Reg.STR_SLOT, Reg.STR_RING_CNT, Reg.STR_PINS, Reg.STR_HOST]
  omega

theorem setSlotState_slotState {new : Nat} (hnew : new < 8) : (s.setSlotState j new).slotState j = new := by
  by_cases heq : s.slotState j = new
  · unfold State.setSlotState
    dsimp only
    rw [if_pos heq]
    exact heq
  · refine ((LowKept.setSlotState_written (offs := []) heq).rd _ (slotState_low hj) List.not_mem_nil).trans ?_
    exact (State.rd_wr_self _ _ _ (by simp [F.STR_SLOT_STATE])).trans (Nat.mod_eq_of_lt hnew)

theorem stopJob_slotState {owes : Bool} (hheld : s.slotState j ≠ 0) : (s.stopJob j owes).slotState j = 4 := by
  unfold State.stopJob
  by_cases hfaulted : s.slotState j = 4
  · rw [if_pos (by simp [hfaulted])]
    exact hfaulted
  · rw [if_neg (by simp [hfaulted, hheld])]
    dsimp only
    refine Eq.trans (LowKept.rd (offs := []) (s := (s.haltClusters j).setSlotState j 4) ?_ _ (slotState_low hj) List.not_mem_nil)
      (setSlotState_slotState _ hj (by decide))
    exact .stopEngines (.dropLoad (.setSlot (.dropRots .refl) rfl))

theorem failJob_slotState {e : Ev} (hheld : s.slotState j ≠ 0) : (s.failJob j e).slotState j = 4 :=
  stopJob_slotState _ hj (by rw [show (s.emit e).slotState j = s.slotState j from State.emit_rd _ _ (slotState_low hj).evKept]; exact hheld)

end

/-! The lap clock's transitions (R68 to R77, R83). -/

theorem State.rd_inc_skip {s : State} {f g : Fld} {w : Nat} (h : s.rd f = w) (hg : g.hi < 64) (hd : f.off ≠ g.off ∨ f.hi < g.lo ∨ g.hi < f.lo) :
    (s.inc g).rd f = w := rd_wr_skip h hg hd

theorem evKept_low {f : Fld} (hhi : f.hi < 64) (hoff : f.off < 0x400200) (hne : f.off ∉ [Reg.STR_RING_CNT, Reg.STR_PINS, Reg.STR_HOST 0, Reg.STR_HOST 1]) :
    EvKept f := by
  simp only [List.mem_cons, List.not_mem_nil, or_false, not_or] at hne
  exact ⟨hhi, .inl ⟨hoff, hne⟩⟩

section
variable (s : State)

/-- A module that becomes ready changes no register but STR_START and what its record may. -/
theorem startReady_rd {f : Fld} (hf : EvKept f) (hne : f.off ≠ Reg.STR_START) : s.startReady.rd f = s.rd f := by
  unfold State.startReady
  dsimp only
  split
  · refine (State.emit_rd _ _ hf).trans ((State.rd_wr_ne _ _ _ _ hne).trans ?_)
    exact (State.rd_of_regs (s.wr F.STR_START_STATE _) rfl f).trans (State.rd_wr_ne _ _ _ _ hne)
  · rfl

theorem startReady_lap : s.startReady.lap = s.lap := by
  unfold State.startReady
  dsimp only
  split
  · exact (Records.refl.emit).lap
  · rfl

theorem startReady_ready (h : s.rd F.STR_START_STATE = 6) : s.startReady.rd F.STR_START_STATE = 8 := by
  unfold State.startReady
  dsimp only
  rw [if_pos (by simp [h])]
  refine (State.emit_rd _ _ (evKept_low (by decide) (by decide) (by decide))).trans (rd_wr_skip ?_ (by decide) (.inr (.inr (by decide))))
  exact (State.rd_of_regs (s.wr F.STR_START_STATE _) rfl _).trans (State.rd_wr_self _ _ _ (by decide))

theorem lockLap_rd {f : Fld} (hf : EvKept f) (hstart : f.off ≠ Reg.STR_START) (hd : f.off ≠ Reg.LAP_STATUS ∨ f.hi < 61) : s.lockLap.rd f = s.rd f := by
  refine (startReady_rd _ hf hstart).trans (rd_wr_skip rfl (by decide) ?_)
  exact hd.imp_right .inl

theorem lockLap_state : s.lockLap.rd F.LAP_STATUS_STATE = 2 :=
  (startReady_rd _ (evKept_low (by decide) (by decide) (by decide)) (by decide)).trans (State.rd_wr_self _ _ _ (by decide))

theorem lockLap_lap : s.lockLap.lap = { s.lap with okLaps := 0, everLocked := true } := startReady_lap _

theorem lockLap_ready (h : s.rd F.STR_START_STATE = 6) : s.lockLap.rd F.STR_START_STATE = 8 :=
  startReady_ready _ (rd_wr_skip h (by decide) (.inl (by decide)))

/-! Which port a follower follows. -/

/-- A mark is followed but for the epoch's counter. -/
theorem follow_rd {m : MarkIn} {f : Fld} (hne : f.off ≠ Reg.LAP_STATUS) (hcnt : f.off ≠ Reg.LAP_CNT ∨ 16 ≤ f.lo) : (s.follow m).rd f = s.rd f := by
  unfold State.follow
  dsimp only
  have hw (t : State) (g : Fld) (v : Nat) (hg : g.off = Reg.LAP_STATUS) : (t.wr g v).rd f = t.rd f := State.rd_wr_ne _ _ _ _ (by rw [hg]; exact hne)
  refine (hw _ _ _ rfl).trans ((hw _ _ _ rfl).trans ((hw _ _ _ rfl).trans ((hw _ _ _ rfl).trans ((hw _ _ _ rfl).trans ?_))))
  split
  · rfl
  · refine State.rd_inc_skip rfl (by decide) (hcnt.imp_right fun hlo => .inr ?_)
    exact Nat.lt_of_lt_of_le (by decide) hlo

theorem follow_mem {m : MarkIn} : (s.follow m).mem = s.mem := by
  unfold State.follow
  dsimp only
  split <;> rfl

theorem follow_upstream {m : MarkIn} : (s.follow m).rd F.LAP_STATUS_UPSTREAM = m.port % 64 :=
  rd_wr_skip (rd_wr_skip (rd_wr_skip (rd_wr_skip (State.rd_wr_self _ _ _ (by decide)) (by decide) (.inr (.inl (by decide)))) (by decide)
    (.inr (.inl (by decide)))) (by decide) (.inr (.inl (by decide)))) (by decide) (.inr (.inl (by decide)))

theorem follow_hops {m : MarkIn} : (s.follow m).rd F.LAP_STATUS_HOPS = (m.hops + 1) % 16 :=
  rd_wr_skip (rd_wr_skip (rd_wr_skip (State.rd_wr_self _ _ _ (by decide)) (by decide) (.inr (.inl (by decide)))) (by decide)
    (.inr (.inl (by decide)))) (by decide) (.inr (.inl (by decide)))

end

section
variable {s : State}

theorem execLapLockAcquired_locks (hst : s.rd F.LAP_STATUS_STATE = 1) (h : (s.lap.adopted = true ∧ 64 ≤ s.okRun) ∨ s.lap.originates = true) :
    execLapLockAcquired s = .next s.lockLap := by
  unfold execLapLockAcquired
  rw [if_pos (by simpa [hst] using h)]

/-- A holdover begins. -/
def holdover (s : State) : State :=
  ((({ s with lap := { s.lap with okLaps := 0, reported := false } }).wr F.LAP_STATUS_STATE 3).wr F.LAP_HOLD_HOLD_LAPS 0).inc F.LAP_CNT_LOCK_LOSS

theorem execLapLockLost_silent (hst : s.rd F.LAP_STATUS_STATE = 2 ∨ s.rd F.LAP_STATUS_STATE = 4) (horig : s.lap.originates = false)
    (hquiet : 4 ≤ s.lap.quiet) :
    execLapLockLost s = .next ((holdover s).emit ⟨2, 0x0201, srcModule 0, none, place 7 0 0 ||| place 71 8 s.lap.lastLap⟩) := by
  unfold execLapLockLost
  dsimp only
  rw [if_pos (by simp [hst, horig, hquiet]), if_pos (by simpa using hquiet)]
  rfl

theorem holdover_kept (s : State) : { holdover s with regs := s.regs, lap := s.lap } = s := rfl

theorem holdover_regs (s : State) : SameRegs [Reg.LAP_STATUS, Reg.LAP_HOLD, Reg.LAP_CNT] s (holdover s) :=
  .wr (.wr (.wr (.setLap (.refl s) _) (f := F.LAP_STATUS_STATE) (by decide) _) (f := F.LAP_HOLD_HOLD_LAPS) (by decide) _)
    (f := F.LAP_CNT_LOCK_LOSS) (by decide) _

theorem holdover_state (s : State) : (holdover s).rd F.LAP_STATUS_STATE = 3 :=
  State.rd_inc_skip (rd_wr_skip (State.rd_wr_self _ _ _ (by decide)) (by decide) (.inl (by decide))) (by decide) (.inl (by decide))

theorem holdover_laps (s : State) : (holdover s).rd F.LAP_HOLD_HOLD_LAPS = 0 :=
  State.rd_inc_skip (State.rd_wr_self _ _ _ (by decide)) (by decide) (.inl (by decide))

theorem holdover_losses (s : State) : (holdover s).rd F.LAP_CNT_LOCK_LOSS = min (s.rd F.LAP_CNT_LOCK_LOSS + 1) 65535 := by
  refine (State.rd_inc_self _ _ (by decide)).trans (congrArg (fun n => min (n + 1) 65535) ?_)
  exact rd_wr_skip (rd_wr_skip rfl (by decide) (.inl (by decide))) (by decide) (.inl (by decide))

/-! A holdover of 10 s stops every RUNNING job (R75). -/

theorem LowKept.trans {offs : List Nat} {s t u : State} (h : LowKept offs s t) (h' : LowKept offs t u) : LowKept offs s u :=
  ⟨fun f hf ho => (h'.rd f hf ho).trans (h.rd f hf ho), h'.lap.trans h.lap, fun j => (h'.slots j).trans (h.slots j)⟩

theorem slot_off_ne {i j : Nat} (h : i ≠ j) : (F.STR_SLOT_STATE i).off ∉ [Reg.STR_SLOT j] := by
  simp only [F.STR_SLOT_STATE, Reg.STR_SLOT, List.mem_singleton]
  omega

/-- The jobs of the slots listed stop one after another, each with its event. -/
theorem foldl_failJob {e : State → Nat → Ev} {l : List Nat} (hl : ∀ j ∈ l, j < 16 ∧ s.slotState j ≠ 0) :
    (l.foldl (fun t j => t.failJob j (e t j)) s).lap = s.lap
      ∧ ∀ i, i < 16 → (l.foldl (fun t j => t.failJob j (e t j)) s).slotState i = if i ∈ l then 4 else s.slotState i := by
  induction l generalizing s with
  | nil => exact ⟨rfl, fun i _ => by simp⟩
  | cons j l ih =>
    obtain ⟨hj, hheld⟩ := hl j (.head _)
    have hkept : LowKept [Reg.STR_SLOT j] s (s.failJob j (e s j)) := LowKept.refl.failJob (.head _)
    have hself := failJob_slotState s hj (e := e s j) hheld
    have hother (i : Nat) (hi : i < 16) (hne : i ≠ j) : (s.failJob j (e s j)).slotState i = s.slotState i :=
      hkept.rd _ (slotState_low hi) (slot_off_ne hne)
    obtain ⟨hlap, hstates⟩ := ih (s := s.failJob j (e s j)) (fun i hi => by
      obtain ⟨hi16, hiheld⟩ := hl i (.tail _ hi)
      refine ⟨hi16, ?_⟩
      by_cases hij : i = j
      · rw [hij, hself]
        decide
      · rw [hother i hi16 hij]
        exact hiheld)
    refine ⟨hlap.trans hkept.lap, fun i hi => (hstates i hi).trans ?_⟩
    by_cases hij : i = j
    · subst hij
      simp [hself]
    · simp [hij, hother i hi hij]

theorem execLapHoldover_stops (hst : s.rd F.LAP_STATUS_STATE = 3) (hrep : s.lap.reported = false) (hlong : tenSeconds ≤ s.rd F.LAP_HOLD_HOLD_LAPS) :
    ∃ t, execLapHoldover s = .next t ∧ t.lap.reported = true ∧ ∀ j, j < 16 → s.slotState j = 2 → t.slotState j = 4 := by
  unfold execLapHoldover
  rw [if_pos (by simp [hst, hrep, hlong])]
  obtain ⟨hlap, hstates⟩ := foldl_failJob (s := { s with lap := { s.lap with reported := true } })
    (e := fun t j => ⟨3, 0x0202, srcModule 0, t.jobOf j, place 31 0 (t.rd F.LAP_HOLD_HOLD_LAPS)⟩)
    (l := (List.range 16).filter (fun j => s.slotState j == 2)) (fun j hj => by
      rw [List.mem_filter, List.mem_range, beq_iff_eq] at hj
      refine ⟨hj.1, ?_⟩
      rw [show State.slotState { s with lap := { s.lap with reported := true } } j = 2 from hj.2]
      decide)
  refine ⟨_, rfl, congrArg LapSt.reported hlap, fun j hj hrun => (hstates j hj).trans (if_pos ?_)⟩
  rw [List.mem_filter, List.mem_range, beq_iff_eq]
  exact ⟨hj, hrun⟩

theorem execLapRelocked_locks (hst : s.rd F.LAP_STATUS_STATE = 4) (hok : 64 ≤ s.okRun) :
    execLapRelocked s = .next (s.lockLap.emit ⟨0, 0x0206, srcModule 0, none, place 31 0 s.lap.relockLaps ||| place 47 32 (s.rd F.LAP_STATUS_EPOCH)⟩) := by
  unfold execLapRelocked
  rw [if_pos (by simp [hst, hok])]

/-- A follower turns to another upstream. -/
def switched (s : State) (m : MarkIn) : State := (({ s with lap := { s.lap with quietUp := 1 } }).follow m).inc F.LAP_CNT_UP_SWITCH

theorem execLapUpstreamSwitch_switches (hst : s.rd F.LAP_STATUS_STATE = 2 ∨ s.rd F.LAP_STATUS_STATE = 4) (horig : s.lap.originates = false)
    (hquiet : 2 ≤ s.lap.quietUp) {m : MarkIn} (hm : s.bestMark s.lap.last = some m) :
    execLapUpstreamSwitch s = .next ((switched s m).emit
      ⟨1, 0x0207, srcModule 0, none, place 5 0 (s.rd F.LAP_STATUS_UPSTREAM) ||| place 11 6 m.port⟩) := by
  unfold execLapUpstreamSwitch
  rw [if_pos (by simp [hst, horig, hquiet]), hm]
  rfl

theorem switched_switches (s : State) (m : MarkIn) : (switched s m).rd F.LAP_CNT_UP_SWITCH = min (s.rd F.LAP_CNT_UP_SWITCH + 1) 65535 := by
  refine (State.rd_inc_self _ _ (by decide)).trans (congrArg (fun n => min (n + 1) 65535) ?_)
  exact follow_rd _ (by decide) (.inr (by decide))

theorem switched_upstream (s : State) (m : MarkIn) : (switched s m).rd F.LAP_STATUS_UPSTREAM = m.port % 64 :=
  State.rd_inc_skip (follow_upstream _) (by decide) (.inl (by decide))

theorem switched_hops (s : State) (m : MarkIn) : (switched s m).rd F.LAP_STATUS_HOPS = (m.hops + 1) % 16 :=
  State.rd_inc_skip (follow_hops _) (by decide) (.inl (by decide))

theorem switched_mem (s : State) (m : MarkIn) : (switched s m).mem = s.mem := (State.inc_mem _ _).trans (follow_mem _)

/-- A standby names itself the master of the next epoch. -/
def selfNamed (s : State) : State :=
  ((((({ s with lap := { s.lap with
      originates := true, takeoverLeft := 4096, started := true, lockHops := none, topEpoch := max s.lap.topEpoch (s.rd F.LAP_STATUS_EPOCH + 1) } } : State).wr
    F.LAP_STATUS_EPOCH (s.rd F.LAP_STATUS_EPOCH + 1)).wr F.LAP_STATUS_ROLE 1).wr F.LAP_STATUS_HOPS 0).wr F.LAP_STATUS_MASTER (s.rd F.ACM_CFG_FI)).wr
    F.LAP_STATUS_UPSTREAM 63

/-- It shows the references and counts the takeover; then its lap clock locks. -/
def takenOver (s : State) : State := ((selfNamed s).showRef.wr F.LAP_HOLD_HOLD_LAPS 0).inc F.LAP_CNT_TAKEOVER

theorem execLapMasterTakeover_takes (hrole : s.rd F.LAP_STATUS_ROLE = 2) (hst : 2 ≤ s.rd F.LAP_STATUS_STATE) (hquiet : 8 ≤ s.lap.quietEpoch)
    (hstuck : s.lap.stuck = false)
    (hpods : 16 ≤ ((List.range 52).filter (fun p => s.portUp p && s.rd (F.ACM_PORT_STAT_ROLE p) == 0)).length) :
    execLapMasterTakeover s = .next ((takenOver s).lockLap.emit
      ⟨1, 0x0203, srcModule 0, none, place 15 0 (s.rd F.LAP_STATUS_EPOCH + 1) ||| place 28 16 (s.rd F.LAP_STATUS_MASTER)⟩) := by
  unfold execLapMasterTakeover
  dsimp only
  rw [if_pos (by simpa [hrole, hst, hquiet, hstuck] using hpods)]
  rfl

theorem lockLap_takenOver_rd {f : Fld} (hoff : f.off = Reg.LAP_STATUS) (hd : f.hi < 56 ∨ 58 < f.lo ∧ f.hi < 61) :
    (takenOver s).lockLap.rd f = (selfNamed s).rd f := by
  have hne : f.off ≠ Reg.LAP_HOLD ∧ f.off ≠ Reg.LAP_CNT ∧ f.off ≠ Reg.STR_START := by
    rw [hoff]
    decide
  obtain ⟨hhold, hcnt, hstart⟩ := hne
  refine (lockLap_rd _ (evKept_low (by omega) (by rw [hoff]; decide) (by rw [hoff]; decide)) hstart (.inr (by omega))).trans ?_
  refine State.rd_inc_skip (rd_wr_skip ?_ (by decide) (.inl hhold)) (by decide) (.inl hcnt)
  have hlow : f.hi < 56 ∨ 58 < f.lo := hd.imp_right (·.1)
  refine rd_wr_skip (rd_wr_skip (rd_wr_skip rfl (by decide) (.inr ?_)) (by decide) (.inr ?_)) (by decide) (.inr ?_) <;>
    simp only [F.LAP_STATUS_REF10M, F.LAP_STATUS_PPS, F.LAP_STATUS_REFD] <;> omega

theorem takenOver_lap (s : State) : (takenOver s).lap = { s.lap with
    originates := true, takeoverLeft := 4096, started := true, lockHops := none, topEpoch := max s.lap.topEpoch (s.rd F.LAP_STATUS_EPOCH + 1) } := by
  simp only [takenOver, selfNamed, State.showRef, State.inc_lap, State.wr_lap, State.wrB_lap]

theorem selfNamed_role (s : State) : (selfNamed s).rd F.LAP_STATUS_ROLE = 1 :=
  rd_wr_skip (rd_wr_skip (rd_wr_skip (State.rd_wr_self _ _ _ (by decide)) (by decide) (.inr (.inr (by decide)))) (by decide) (.inr (.inr (by decide))))
    (by decide) (.inr (.inr (by decide)))

theorem selfNamed_hops (s : State) : (selfNamed s).rd F.LAP_STATUS_HOPS = 0 :=
  rd_wr_skip (rd_wr_skip (State.rd_wr_self _ _ _ (by decide)) (by decide) (.inr (.inl (by decide)))) (by decide) (.inr (.inr (by decide)))

theorem selfNamed_epoch (s : State) : (selfNamed s).rd F.LAP_STATUS_EPOCH = (s.rd F.LAP_STATUS_EPOCH + 1) % 65536 :=
  rd_wr_skip (rd_wr_skip (rd_wr_skip (rd_wr_skip (State.rd_wr_self _ _ _ (by decide)) (by decide) (.inr (.inl (by decide)))) (by decide)
    (.inr (.inr (by decide)))) (by decide) (.inr (.inr (by decide)))) (by decide) (.inr (.inr (by decide)))

end

/-- Settles O27: what each transition's command leaves, and for a holdover of 10 s the stops of the RUNNING jobs one after another. -/
theorem lapTransitions : Obligations.LapTransitions := by
  intro s
  refine ⟨fun hst h => ⟨_, execLapLockAcquired_locks hst h, lockLap_state s, lockLap_ready s⟩,
    fun hst horig hquiet => ⟨holdover s, execLapLockLost_silent hst horig hquiet, holdover_state s, holdover_laps s, holdover_losses s, holdover_kept s,
      holdover_regs s⟩,
    execLapHoldover_stops,
    fun hst hok => ⟨s.lockLap, execLapRelocked_locks hst hok, lockLap_state s⟩,
    fun hst horig hquiet m hm => ⟨switched s m, execLapUpstreamSwitch_switches hst horig hquiet hm, switched_upstream s m, switched_hops s m,
      switched_switches s m, switched_mem s m⟩,
    fun hrole hst hquiet hstuck hpods => ⟨(takenOver s).lockLap, execLapMasterTakeover_takes hrole hst hquiet hstuck hpods, lockLap_state _, ?_, ?_, ?_,
      ?_, ?_⟩⟩
  · exact (lockLap_takenOver_rd rfl (.inr (by decide))).trans (selfNamed_role s)
  · exact (lockLap_takenOver_rd rfl (.inl (by decide))).trans (selfNamed_hops s)
  · exact (lockLap_takenOver_rd rfl (.inl (by decide))).trans (selfNamed_epoch s)
  · rw [lockLap_lap, takenOver_lap]
  · rw [lockLap_lap, takenOver_lap]

/-! Converters, droops and temperatures (R617 to R621, R645, R647). -/

theorem lowFld_of {f : Fld} (hhi : f.hi < 64) (hoff : f.off < 0x400200) (hne : f.off ∉ [Reg.STR_RING_CNT, Reg.STR_PINS, Reg.STR_HOST 0, Reg.STR_HOST 1]) :
    LowFld f := by
  simp only [List.mem_cons, List.not_mem_nil, or_false, not_or] at hne
  exact ⟨hhi, hoff, hne⟩

/-- The monitors stand above the registers that records write and below the window of the agents. -/
theorem lowFld_monitor {f : Fld} (hhi : f.hi < 64) (hlo : 0x380000 ≤ f.off) (hoff : f.off < 0x400200) : LowFld f := by
  refine lowFld_of hhi hoff ?_
  simp only [List.mem_cons, List.not_mem_nil, or_false, not_or, Reg.STR_RING_CNT, Reg.STR_PINS, Reg.STR_HOST]
  omega

/-! The regulators go off: the reason stands in MON_TRIP, and everything else is as at reset. -/

section
variable (s : State) (cause sensor reading : Nat)

theorem carry_rest (offs : List Nat) (t : State) : { s.carry offs t with regs := t.regs } = t := by
  unfold State.carry
  exact foldl_induct (P := fun (u : State) => { u with regs := t.regs } = t) (f := fun (t : State) o => t.setReg o (s.reg o)) (fun _ _ h => h) offs rfl

theorem carry_rails (offs : List Nat) (t : State) : (s.carry offs t).rails = t.rails := by
  have := congrArg State.rails (carry_rest s offs t)
  exact this

theorem carry_tripped (offs : List Nat) (t : State) : (s.carry offs t).tripped = t.tripped := by
  have := congrArg State.tripped (carry_rest s offs t)
  exact this

theorem carry_mem (offs : List Nat) (t : State) : (s.carry offs t).mem = t.mem := by
  have := congrArg State.mem (carry_rest s offs t)
  exact this

theorem carry_slots (offs : List Nat) (t : State) : (s.carry offs t).slots = t.slots := by
  have := congrArg State.slots (carry_rest s offs t)
  exact this

theorem carry_keptOff_trip (t : State) : (s.carry keptOff t).reg Reg.MON_TRIP = s.reg Reg.MON_TRIP := State.setReg_reg_self _ _ _

theorem pin_reg {off : Nat} {f : Fld} (contact : Nat) (v : Bool) (h : off ≠ f.off) : (s.pin f contact v).reg off = s.reg off := by
  unfold State.pin
  split
  · rfl
  · exact (State.reg_of_regs (s.wrB f v) rfl off).trans (State.wr_reg_ne _ _ _ h)

/-- What MON_TRIP holds after the regulators went off. -/
def tripWord : Nat := place 63 63 1 ||| place 62 61 cause ||| place 60 51 sensor ||| place 50 39 reading ||| place 38 0 s.now

theorem powerOff_trip : (s.powerOff cause sensor reading).reg Reg.MON_TRIP = BitVec.ofNat 64 (tripWord s cause sensor reading) := by
  refine (carry_keptOff_trip _ _).trans ((State.reg_of_regs (((s.setReg Reg.MON_TRIP _).pin F.STR_PINS_PWRGD 0 false).pin F.STR_PINS_THERMTRIP 1 true)
    rfl _).trans ?_)
  exact (pin_reg _ _ _ (by decide)).trans ((pin_reg _ _ _ (by decide)).trans (State.setReg_reg_self _ _ _))

theorem powerOff_rd {f : Fld} (hoff : f.off = Reg.MON_TRIP) (hhi : f.hi < 64) :
    (s.powerOff cause sensor reading).rd f = bits (tripWord s cause sensor reading) f.hi f.lo := by
  rw [State.rd, hoff, powerOff_trip, bits_ofNat _ _ _ _ hhi]

theorem powerOff_rails : (s.powerOff cause sensor reading).rails = false := carry_rails _ _ _
theorem powerOff_mem : (s.powerOff cause sensor reading).mem = [] := carry_mem _ _ _
theorem powerOff_slots : (s.powerOff cause sensor reading).slots = [] := carry_slots _ _ _

theorem pin_tripped {f : Fld} (contact : Nat) (v : Bool) : (s.pin f contact v).tripped = s.tripped := by
  unfold State.pin
  split <;> rfl

theorem powerOff_tripped : (s.powerOff cause sensor reading).tripped = true := carry_tripped _ _ _

end

/-- From `s` to `t` the fields below the window read as before, outside PCE_STATUS and PCE_CNT, and the count of samples stands. -/
structure Limited (s t : State) : Prop where
  kept : LowKept [Reg.PCE_STATUS, Reg.PCE_CNT] s t
  count : t.power.count = s.power.count

theorem Limited.upd {s t u : State} (h : Limited s t) (hregs : u.regs = t.regs) (hlap : u.lap = t.lap) (hslots : u.slots = t.slots) (hcount : u.power.count = t.power.count) :
    Limited s u := ⟨h.kept.upd hregs hlap hslots, hcount.trans h.count⟩

theorem Limited.showG {s t : State} (h : Limited s t) : Limited s t.showG := ⟨h.kept.wrOf (f := F.PCE_STATUS_G) (by decide), h.count⟩

theorem Limited.inc {s t : State} (h : Limited s t) : Limited s (t.inc F.PCE_CNT_THROTTLE_US) :=
  ⟨h.kept.wrOf (f := F.PCE_CNT_THROTTLE_US) (by decide), h.count⟩

theorem Records.power_eq {s t : State} (h : Records s t) : t.power = s.power := by
  have := congrArg State.power h.same
  exact this

theorem Limited.emit {s t : State} {e : Ev} (h : Limited s t) : Limited s (t.emit e) :=
  ⟨h.kept.emit, (congrArg PowerSt.count (Records.refl.emit).power_eq).trans h.count⟩

theorem Limited.setSlot {s t : State} {j : Nat} {v : SlotSt} (h : Limited s t) (hv : slotRest v = slotRest (t.slot j)) :
    Limited s (t.setSlot j v) := ⟨h.kept.setSlot hv, h.count⟩

theorem Limited.setPower {s t : State} {pw : PowerSt} (h : Limited s t) (hcount : pw.count = t.power.count) : Limited s { t with power := pw } :=
  ⟨h.kept.upd rfl rfl rfl, hcount.trans h.count⟩

theorem Limited.tick {s t : State} (h : Limited s t) : Limited s t.tick := ⟨h.kept.upd rfl rfl rfl, h.count⟩

theorem Limited.ite {s t u : State} {p : Prop} [Decidable p] (h : Limited s t) (h' : Limited s u) : Limited s (if p then t else u) := by
  split
  · exact h
  · exact h'

theorem Limited.foldl {s t : State} {α : Type} {f : State → α → State} {l : List α} (hf : ∀ t a, Limited s t → Limited s (f t a)) (h : Limited s t) :
    Limited s (l.foldl f t) := foldl_induct hf l h

/-- Limiting by power changes no monitor. -/
theorem limited_fastLimit (s : State) (mv predicted inW : Nat) : Limited s (s.fastLimit mv predicted inW) := by
  unfold State.fastLimit
  extract_lets pw low high cap hold pw1 s1 thr src1 s2 s3 src3 s4
  have hpw : pw1.count = s.power.count := by
    unfold pw1
    split
    · rfl
    · split
      · rfl
      · split <;> rfl
  have h1 : Limited s s1 := .showG (.setPower ⟨.refl, rfl⟩ hpw)
  have h2 : Limited s s2 := .ite (.inc (.setPower h1 rfl)) h1
  have h3 : Limited s s3 := .foldl (fun _ _ h' => h'.setSlot rfl) h2
  exact .tick (.ite (.emit (.setPower h3 rfl)) h3)

/-- From `s` to `t` only registers of `P` may differ, among the registers and the power state. -/
structure ShownIn (P : Nat → Prop) (s t : State) : Prop where
  power : t.power = s.power
  rd : ∀ f : Fld, ¬ P f.off → t.rd f = s.rd f

namespace ShownIn
variable {P : Nat → Prop} {s t u : State}

protected theorem refl : ShownIn P s s := ⟨rfl, fun _ _ => rfl⟩

theorem wr {f : Fld} {v : Nat} (h : ShownIn P s t) (hf : P f.off) : ShownIn P s (t.wr f v) :=
  ⟨h.power, fun g hg => (State.rd_wr_ne _ _ _ _ (by rintro he; exact hg (he ▸ hf))).trans (h.rd g hg)⟩

theorem iteSelf {p : Prop} [Decidable p] (h : ShownIn P s t) (h' : p → ShownIn P s u) : ShownIn P s (if p then u else t) := by
  split
  · next hp => exact h' hp
  · exact h

theorem foldl {α : Type} {f : State → α → State} {l : List α} (hf : ∀ t a, ShownIn P s t → ShownIn P s (f t a)) (h : ShownIn P s t) :
    ShownIn P s (l.foldl f t) := foldl_induct hf l h

theorem mono {Q : Nat → Prop} (h : ShownIn P s t) (hPQ : ∀ o, P o → Q o) : ShownIn Q s t := ⟨h.power, fun f hf => h.rd f (fun hp => hf (hPQ _ hp))⟩

theorem trans (h : ShownIn P s t) (h' : ShownIn P t u) : ShownIn P s u := ⟨h'.power.trans h.power, fun f hf => (h'.rd f hf).trans (h.rd f hf)⟩

end ShownIn

/-! A sample of the power monitors, stage by stage (R617, R618). -/

/-- The readings of one converter. -/
def showBus (s : State) (k : Nat) (x : Nat × Nat × Nat × Nat) : State :=
  ((s.wr (F.MON_BUS_IN_MV k) x.1).wr (F.MON_BUS_IN_CA k) x.2.1).wr (F.MON_BUS_OUT_W k) x.2.2.1

/-- Converters from number `i` on. -/
def showBuses (s : State) (l : List (Nat × Nat × Nat × Nat)) (i : Nat) : State :=
  (l.zipIdx i).foldl (fun (s : State) x => if x.2 < 8 then showBus s x.2 x.1 else s) s

def showRails (s : State) (l : List (Nat × Nat × Nat)) : State :=
  l.zipIdx.foldl (fun (s : State) (x : (Nat × Nat × Nat) × Nat) =>
    if x.2 < 74 then ((s.wr (F.MON_RAIL_MV x.2) x.1.1).wr (F.MON_RAIL_DA x.2) x.1.2.1).wr (F.MON_RAIL_W x.2) x.1.2.2 else s) s

def showTemps (s : State) (l : List (Nat × Nat)) : State :=
  l.foldl (fun (s : State) (x : Nat × Nat) => if x.1 < 640 then s.wr (F.MON_TEMP_TEMP x.1) x.2 else s) s

def showVolts (s : State) (l : List (Nat × Nat)) : State :=
  l.foldl (fun (s : State) (x : Nat × Nat) => if x.1 < 96 then s.wr (F.MON_VMON_MV x.1) x.2 else s) s

/-- A sample: the power state takes it, then every monitor shows its reading, the input last. -/
theorem takeReadings_eq (s : State) (r : PowerReadings) : ∃ pw ca w eff, pw.count = s.power.count + 1 ∧ s.takeReadings r =
    ((((showVolts (showTemps (showRails (showBuses { s with power := pw } r.converters 0) r.rails) r.temps) r.volts).wr
      F.MON_INPUT_MV r.inputAvgMv).wr F.MON_INPUT_CA ca).wr F.MON_INPUT_W w).wr F.PCE_STATUS_EFF_LIMIT_W eff := by
  refine ⟨_, _, _, _, ?_, rfl⟩
  rfl

/-- The monitors below the bus converters. -/
def belowBus (o : Nat) : Prop := 0x380000 ≤ o ∧ o < 0x382800

section
variable (s : State)

theorem showRails_shown (l : List (Nat × Nat × Nat)) : ShownIn belowBus s (showRails s l) :=
  .foldl (fun _ x h => .iteSelf h (fun hx => by
    have hreg : belowBus (Reg.MON_RAIL x.2) := by
      simp only [belowBus, Reg.MON_RAIL]
      omega
    exact .wr (.wr (.wr h hreg) hreg) hreg)) .refl

theorem showTemps_shown (l : List (Nat × Nat)) : ShownIn belowBus s (showTemps s l) :=
  .foldl (fun _ x h => .iteSelf h (fun hx => .wr h (by
    simp only [belowBus, F.MON_TEMP_TEMP, Reg.MON_TEMP]
    omega))) .refl

theorem showVolts_shown (l : List (Nat × Nat)) : ShownIn belowBus s (showVolts s l) :=
  .foldl (fun _ x h => .iteSelf h (fun hx => .wr h (by
    simp only [belowBus, F.MON_VMON_MV, Reg.MON_VMON]
    omega))) .refl

theorem showBus_shown (k : Nat) (x : Nat × Nat × Nat × Nat) : ShownIn (· = Reg.MON_BUS k) s (showBus s k x) := .wr (.wr (.wr .refl rfl) rfl) rfl

/-- What MON_BUS shows of a converter. -/
def BusShows (t : State) (k : Nat) (x : Nat × Nat × Nat × Nat) : Prop :=
  t.rd (F.MON_BUS_IN_MV k) = x.1 % 2 ^ 16 ∧ t.rd (F.MON_BUS_IN_CA k) = x.2.1 % 2 ^ 14 ∧ t.rd (F.MON_BUS_OUT_W k) = x.2.2.1 % 2 ^ 16

theorem BusShows.kept {P : Nat → Prop} {t u : State} {k : Nat} {x : Nat × Nat × Nat × Nat} (h : BusShows t k x) (hs : ShownIn P t u)
    (hk : ¬ P (Reg.MON_BUS k)) : BusShows u k x := by
  obtain ⟨hmv, hca, hw⟩ := h
  exact ⟨(hs.rd _ hk).trans hmv, (hs.rd _ hk).trans hca, (hs.rd _ hk).trans hw⟩

theorem showBus_shows (k : Nat) (x : Nat × Nat × Nat × Nat) : BusShows (showBus s k x) k x :=
  ⟨rd_wr_skip (rd_wr_skip (State.rd_wr_self _ _ _ (by simp [F.MON_BUS_IN_MV])) (by simp [F.MON_BUS_IN_CA]) (.inr (.inr (by simp [F.MON_BUS_IN_CA, F.MON_BUS_IN_MV]))))
      (by simp [F.MON_BUS_OUT_W]) (.inr (.inr (by simp [F.MON_BUS_IN_MV, F.MON_BUS_OUT_W]))),
    rd_wr_skip (State.rd_wr_self _ _ _ (by simp [F.MON_BUS_IN_CA])) (by simp [F.MON_BUS_OUT_W]) (.inr (.inr (by simp [F.MON_BUS_IN_CA, F.MON_BUS_OUT_W]))),
    State.rd_wr_self _ _ _ (by simp [F.MON_BUS_OUT_W])⟩

/-- Converters from number `i` on change no register of those before, and no other. -/
theorem showBuses_shown (l : List (Nat × Nat × Nat × Nat)) (i : Nat) :
    ShownIn (fun o => ∃ k, i ≤ k ∧ k < 8 ∧ o = Reg.MON_BUS k) s (showBuses s l i) := by
  induction l generalizing i s with
  | nil => exact .refl
  | cons x l ih =>
    refine ShownIn.trans (t := if i < 8 then showBus s i x else s) (.iteSelf .refl fun hi => (showBus_shown s i x).mono fun o ho => ⟨i, le_refl i, hi, ho⟩) ?_
    refine (ih _ (i + 1)).mono ?_
    rintro o ⟨k, hk, hk8, ho⟩
    exact ⟨k, by omega, hk8, ho⟩

theorem showBuses_shows {l : List (Nat × Nat × Nat × Nat)} {i k : Nat} {x : Nat × Nat × Nat × Nat} (hk : i + k < 8) (hx : l[k]? = some x) :
    BusShows (showBuses s l i) (i + k) x := by
  induction l generalizing i k s with
  | nil => simp at hx
  | cons y l ih =>
    cases k with
    | zero =>
      obtain rfl : y = x := by simpa using hx
      have hhead : BusShows (if i < 8 then showBus s i y else s) i y := by
        rw [if_pos (by omega)]
        exact showBus_shows s i y
      refine hhead.kept (showBuses_shown _ l (i + 1)) ?_
      rintro ⟨k, hk', -, ho⟩
      simp only [Reg.MON_BUS] at ho
      omega
    | succ k =>
      have := ih (if i < 8 then showBus s i y else s) (i := i + 1) (k := k) (by omega) (by simpa using hx)
      rwa [show i + 1 + k = i + (k + 1) by omega] at this

end

section
variable {s : State} {r : PowerReadings}

/-- The monitors and the limit. -/
def sampleRegs (o : Nat) : Prop := 0x380000 ≤ o ∧ o < 0x382900 ∨ o = Reg.PCE_STATUS

theorem takeReadings_shows : ∃ u : State, s.takeReadings r = u ∧ u.power.count = s.power.count + 1 ∧ (∀ f : Fld, ¬ sampleRegs f.off → u.rd f = s.rd f)
    ∧ u.rd F.MON_INPUT_MV = r.inputAvgMv % 2 ^ 16 ∧ ∀ k x, k < 8 → r.converters[k]? = some x → BusShows u k x := by
  obtain ⟨pw, ca, w, eff, hcount, heq⟩ := takeReadings_eq s r
  have hbuses := showBuses_shown ({ s with power := pw } : State) r.converters 0
  have hshown : ShownIn belowBus (showBuses { s with power := pw } r.converters 0)
      (showVolts (showTemps (showRails (showBuses { s with power := pw } r.converters 0) r.rails) r.temps) r.volts) :=
    .trans (.trans (showRails_shown _ _) (showTemps_shown _ _)) (showVolts_shown _ _)
  have hinput (t : State) : ShownIn (fun o => o = Reg.MON_INPUT ∨ o = Reg.PCE_STATUS) t
      ((((t.wr F.MON_INPUT_MV r.inputAvgMv).wr F.MON_INPUT_CA ca).wr F.MON_INPUT_W w).wr F.PCE_STATUS_EFF_LIMIT_W eff) :=
    .wr (.wr (.wr (.wr .refl (.inl rfl)) (.inl rfl)) (.inl rfl)) (.inr rfl)
  refine ⟨_, heq, ?_, ?_, ?_, ?_⟩
  · exact (congrArg PowerSt.count (((hinput _).power.trans hshown.power).trans hbuses.power)).trans hcount
  · intro f hf
    refine ((hinput _).rd f ?_).trans ((hshown.rd f ?_).trans (hbuses.rd f ?_))
    · rintro (ho | ho)
      · exact hf (by rw [ho]; exact .inl (by decide))
      · exact hf (.inr ho)
    · rintro ⟨hlo, hhi⟩
      exact hf (.inl ⟨hlo, by omega⟩)
    · rintro ⟨k, -, hk, ho⟩
      exact hf (.inl (by rw [ho, Reg.MON_BUS]; omega))
  · exact rd_wr_skip (rd_wr_skip (rd_wr_skip (State.rd_wr_self _ _ _ (by decide)) (by decide) (.inr (.inr (by decide)))) (by decide)
      (.inr (.inr (by decide)))) (by decide) (.inl (by decide))
  · intro k x hk hx
    have hbus := showBuses_shows ({ s with power := pw } : State) (i := 0) (by omega) hx
    rw [Nat.zero_add] at hbus
    refine (hbus.kept hshown ?_).kept (hinput _) ?_
    · simp only [belowBus, Reg.MON_BUS]
      omega
    · simp only [Reg.MON_BUS, Reg.MON_INPUT, Reg.PCE_STATUS]
      omega

theorem powerSample_shows (hrails : s.rails = true) (hlo : 44000 ≤ r.inputAvgMv) (hhi : r.inputAvgMv ≤ 56000) :
    ∃ t, execPowerSample r s = .next t ∧ t.rd F.MON_INPUT_MV = r.inputAvgMv ∧ t.power.count = s.power.count + 1
      ∧ ∀ k x, k < 8 → r.converters[k]? = some x → BusShows t k x := by
  obtain ⟨u, hu, hcount, -, hin, hbus⟩ := takeReadings_shows (s := s) (r := r)
  unfold execPowerSample
  dsimp only
  rw [if_neg (by simp [hrails]), if_neg (by simp; omega), if_neg (by simp; omega), hu]
  have hlim := limited_fastLimit u r.inputMv r.predictedW (sumOf (r.converters.map (fun x => x.2.2.2)))
  have hkept (f : Fld) (hhi : f.hi < 64) (hlo : 0x380000 ≤ f.off) (hoff : f.off < 0x400200) : State.rd (u.fastLimit r.inputMv r.predictedW _) f = u.rd f :=
    hlim.kept.rd f (lowFld_monitor hhi hlo hoff) (by
      simp only [Reg.PCE_STATUS, Reg.PCE_CNT, List.mem_cons, List.not_mem_nil, or_false]
      omega)
  refine ⟨_, rfl, ?_, hlim.count.trans hcount, fun k x hk hx => ?_⟩
  · exact (hkept _ (by decide) (by decide) (by decide)).trans (hin.trans (Nat.mod_eq_of_lt (by omega)))
  · obtain ⟨hmv, hca, hw⟩ := hbus k x hk hx
    have hreg : 0x380000 ≤ Reg.MON_BUS k ∧ Reg.MON_BUS k < 0x400200 := by
      rw [Reg.MON_BUS]
      omega
    exact ⟨(hkept _ (by simp [F.MON_BUS_IN_MV]) hreg.1 hreg.2).trans hmv, (hkept _ (by simp [F.MON_BUS_IN_CA]) hreg.1 hreg.2).trans hca,
      (hkept _ (by simp [F.MON_BUS_OUT_W]) hreg.1 hreg.2).trans hw⟩

end

section
variable {s : State}

/-! The fields of MON_TRIP. -/

theorem tripWord_valid (s : State) (cause sensor reading : Nat) : bits (tripWord s cause sensor reading) 63 63 = 1 := by
  simp only [tripWord, bits_or]
  rw [bits_place_self, bits_place_below _ _ _ _ _ (by decide), bits_place_below _ _ _ _ _ (by decide), bits_place_below _ _ _ _ _ (by decide),
    bits_place_below _ _ _ _ _ (by decide)]
  rfl

theorem tripWord_cause (s : State) (cause sensor reading : Nat) : bits (tripWord s cause sensor reading) 62 61 = cause % 4 := by
  simp only [tripWord, bits_or]
  rw [bits_place_above _ _ _ _ _ (by decide), bits_place_self, bits_place_below _ _ _ _ _ (by decide), bits_place_below _ _ _ _ _ (by decide),
    bits_place_below _ _ _ _ _ (by decide)]
  simp

theorem tripWord_sensor (s : State) (cause sensor reading : Nat) : bits (tripWord s cause sensor reading) 60 51 = sensor % 1024 := by
  simp only [tripWord, bits_or]
  rw [bits_place_above _ _ _ _ _ (by decide), bits_place_above _ _ _ _ _ (by decide), bits_place_self, bits_place_below _ _ _ _ _ (by decide),
    bits_place_below _ _ _ _ _ (by decide)]
  simp

theorem tripWord_reading (s : State) (cause sensor reading : Nat) : bits (tripWord s cause sensor reading) 50 39 = reading % 4096 := by
  simp only [tripWord, bits_or]
  rw [bits_place_above _ _ _ _ _ (by decide), bits_place_above _ _ _ _ _ (by decide), bits_place_above _ _ _ _ _ (by decide), bits_place_self,
    bits_place_below _ _ _ _ _ (by decide)]
  simp

theorem tripWord_lap (s : State) (cause sensor reading : Nat) : bits (tripWord s cause sensor reading) 38 0 = s.now % 2 ^ 39 := by
  simp only [tripWord, bits_or]
  rw [bits_place_above _ _ _ _ _ (by decide), bits_place_above _ _ _ _ _ (by decide), bits_place_above _ _ _ _ _ (by decide),
    bits_place_above _ _ _ _ _ (by decide), bits_place_self]
  simp

theorem powerSample_trips {r : PowerReadings} (hrails : s.rails = true) (hmv : r.inputAvgMv < 40000 ∨ 58000 < r.inputAvgMv) :
    ∃ t, execPowerSample r s = .next t ∧ t.rails = false ∧ t.tripped = true ∧ t.rd F.MON_TRIP_VALID = 1 ∧ t.rd F.MON_TRIP_CAUSE = 1
      ∧ t.rd F.MON_TRIP_LAP = s.now % 2 ^ 39 ∧ t.mem = [] ∧ t.slots = [] := by
  obtain ⟨u, hu, -, hregs, -, -⟩ := takeReadings_shows (s := s) (r := r)
  unfold execPowerSample
  dsimp only
  rw [if_neg (by simp [hrails]), if_pos (by simpa using hmv), hu]
  refine ⟨_, rfl, powerOff_rails _ _ _ _, powerOff_tripped _ _ _ _, ?_, ?_, ?_, powerOff_mem _ _ _ _, powerOff_slots _ _ _ _⟩
  · exact (powerOff_rd _ _ _ _ rfl (by decide)).trans (tripWord_valid _ _ _ _)
  · exact (powerOff_rd _ _ _ _ rfl (by decide)).trans (tripWord_cause _ _ _ _)
  · refine (powerOff_rd _ _ _ _ rfl (by decide)).trans ((tripWord_lap _ _ _ _).trans ?_)
    rw [State.now, hregs F.LAP_COUNT_COUNT (by simp [sampleRegs, F.LAP_COUNT_COUNT, Reg.LAP_COUNT, Reg.PCE_STATUS]), State.now]

/-! Converters. -/

/-- A converter has failed, and the limits are shown as they now are. -/
def busFailed (s : State) (k : Nat) : State :=
  ((s.wr (F.MON_BUS_OK k) 0).wr F.PCE_STATUS_CONV_FAILED (s.convFailed + 1)).wr F.PCE_STATUS_EFF_LIMIT_W
    ((s.wr (F.MON_BUS_OK k) 0).wr F.PCE_STATUS_CONV_FAILED (s.convFailed + 1)).effLimit

theorem bus_ne_pce (k : Nat) : Reg.MON_BUS k ≠ Reg.PCE_STATUS := by
  simp only [Reg.MON_BUS, Reg.PCE_STATUS]
  omega

theorem busFailed_only (k : Nat) : OnlyRegs [Reg.MON_BUS k, Reg.PCE_STATUS] s (busFailed s k) :=
  ⟨rfl, .wr (.wr (.wr (.refl s) (f := F.MON_BUS_OK k) (.head _) _) (f := F.PCE_STATUS_CONV_FAILED) (.tail _ (.head _)) _)
    (f := F.PCE_STATUS_EFF_LIMIT_W) (.tail _ (.head _)) _⟩

theorem busFailed_ok (k : Nat) : (busFailed s k).rd (F.MON_BUS_OK k) = 0 :=
  rd_wr_skip (rd_wr_skip (State.rd_wr_self _ _ _ (by simp [F.MON_BUS_OK])) (by decide) (.inl (bus_ne_pce k))) (by decide) (.inl (bus_ne_pce k))

theorem busFailed_failed (k : Nat) (h : s.convFailed < 2) : (busFailed s k).convFailed = s.convFailed + 1 := by
  refine (rd_wr_skip (State.rd_wr_self _ _ _ (by decide)) (by decide) (.inr (.inr (by decide)))).trans (Nat.mod_eq_of_lt ?_)
  exact Nat.lt_of_lt_of_le (m := 3) (by omega) (by decide)

theorem busFailed_limits (k n : Nat) :
    (busFailed s k).peakW n = ((s.wr (F.MON_BUS_OK k) 0).wr F.PCE_STATUS_CONV_FAILED (s.convFailed + 1)).peakW n
    ∧ (busFailed s k).susW n = ((s.wr (F.MON_BUS_OK k) 0).wr F.PCE_STATUS_CONV_FAILED (s.convFailed + 1)).susW n := by
  have hcfg (f : Fld) (hf : f.off = Reg.PCE_CFG) : (busFailed s k).rd f = ((s.wr (F.MON_BUS_OK k) 0).wr F.PCE_STATUS_CONV_FAILED (s.convFailed + 1)).rd f :=
    State.rd_wr_ne _ _ _ _ (by rw [hf]; decide)
  unfold State.peakW State.susW
  rw [hcfg _ rfl, hcfg _ rfl]
  exact ⟨rfl, rfl⟩

theorem execConverterFault_fails {k : Nat} (hrails : s.rails = true) (hk : k < 8) (hok : s.rd (F.MON_BUS_OK k) = 1) (hfew : s.convFailed < 2) :
    execConverterFault k s = .next ((busFailed s k).emit ⟨2, 0x0307, srcModule 0, none, place 2 0 k ||| place 6 3 (s.convFailed + 1)
      ||| place 22 7 ((busFailed s k).peakW (s.convFailed + 1)) ||| place 38 23 ((busFailed s k).susW (s.convFailed + 1))⟩) := by
  obtain ⟨hpeak, hsus⟩ := busFailed_limits (s := s) k (s.convFailed + 1)
  unfold execConverterFault
  dsimp only
  rw [if_neg (by simp [hrails, hok]; omega), if_neg (by omega), hpeak, hsus]
  rfl

/-! Droops. -/

theorem execDroopDetect_new {cl : ClusterId} (h : s.power.droops.contains (clKey cl) = false) : ∃ t, execDroopDetect cl s = .next t
    ∧ t.power.droops = s.power.droops ++ [clKey cl] ∧ t.rd (F.CL_PWR_DROOPS cl.die cl.idx) = min (s.rd (F.CL_PWR_DROOPS cl.die cl.idx) + 1) 65535
    ∧ { t with regs := s.regs, power := s.power } = s ∧ SameRegs [Reg.CL_PWR cl.die cl.idx] s t := by
  unfold execDroopDetect
  rw [if_neg (by simpa using h)]
  refine ⟨_, rfl, rfl, ?_, rfl, .wr (f := F.CL_PWR_DROOPS cl.die cl.idx) (.of_regs (.refl s) rfl) (.head _) _⟩
  exact State.rd_inc_self _ (F.CL_PWR_DROOPS cl.die cl.idx) (by simp [F.CL_PWR_DROOPS])

theorem State.rd_add_self (s : State) (f : Fld) (n : Nat) (hhi : f.hi < 64) : (s.add f n).rd f = min (s.rd f + n) (2 ^ f.width - 1) := by
  have hpos : 0 < 2 ^ f.width := Nat.two_pow_pos _
  refine (State.rd_wr_self _ _ _ hhi).trans ?_
  rw [satTo, Nat.mod_eq_of_lt]
  have := Nat.min_le_right (s.rd f + n) (2 ^ f.width - 1)
  change min (s.rd f + n) (2 ^ f.width - 1) < 2 ^ f.width
  omega

/-- A droop has ended after some cycles. -/
def recovered (s : State) (cl : ClusterId) (n : Nat) : State :=
  ({ s with power := { s.power with droops := s.power.droops.filter (· ≠ clKey cl) } } : State).add (F.CL_PWR_STRETCH cl.die cl.idx) n

theorem execDroopRecovered_ends {cl : ClusterId} {n : Nat} (h : s.power.droops.contains (clKey cl) = true) (hn : 8 ≤ n) :
    ∃ t, execDroopRecovered cl n s = .next t ∧ clKey cl ∉ t.power.droops
      ∧ t.rd (F.CL_PWR_STRETCH cl.die cl.idx) = min (s.rd (F.CL_PWR_STRETCH cl.die cl.idx) + n) (2 ^ 32 - 1)
      ∧ { t with regs := s.regs, power := s.power, slots := s.slots } = s ∧ SameRegs [Reg.CL_PWR cl.die cl.idx] s t := by
  have hgone : clKey cl ∉ (recovered s cl n).power.droops := fun hmem => by
    obtain ⟨-, hne⟩ := List.mem_filter.mp hmem
    simp at hne
  have hcycles : (recovered s cl n).rd (F.CL_PWR_STRETCH cl.die cl.idx) = min (s.rd (F.CL_PWR_STRETCH cl.die cl.idx) + n) (2 ^ 32 - 1) :=
    State.rd_add_self _ (F.CL_PWR_STRETCH cl.die cl.idx) n (by simp [F.CL_PWR_STRETCH])
  have hregs : SameRegs [Reg.CL_PWR cl.die cl.idx] s (recovered s cl n) :=
    .wr (f := F.CL_PWR_STRETCH cl.die cl.idx) (.of_regs (.refl s) rfl) (.head _) _
  unfold execDroopRecovered
  dsimp only
  rw [if_neg (by rw [h]; simpa using hn)]
  split
  · exact ⟨_, rfl, hgone, hcycles, rfl, hregs.of_regs rfl⟩
  · exact ⟨_, rfl, hgone, hcycles, rfl, hregs⟩

/-! Temperatures. -/

theorem takeTemp_rd (n v : Nat) {f : Fld} (h : f.off ≠ Reg.MON_TEMP n) : (s.takeTemp n v).rd f = s.rd f := State.rd_wr_ne _ _ _ _ h

theorem takeTemp_sensorSlots (n v : Nat) : (s.takeTemp n v).sensorSlots n = s.sensorSlots n := by
  have hstate : (s.takeTemp n v).runningSlots = s.runningSlots := by
    unfold State.runningSlots
    refine List.filter_congr fun j hj => ?_
    rw [List.mem_range] at hj
    rw [State.slotState, takeTemp_rd, State.slotState]
    simp only [F.STR_SLOT_STATE, Reg.STR_SLOT, Reg.MON_TEMP]
    omega
  have hdies (j : Nat) (hj : j < 16) : (s.takeTemp n v).diesOf j = s.diesOf j := by
    unfold State.diesOf State.partsOf
    rw [takeTemp_rd]
    simp only [F.STR_SLOT_PARTITIONS, Reg.STR_SLOT, Reg.MON_TEMP]
    omega
  unfold State.sensorSlots
  rw [hstate]
  refine List.filter_congr fun j hj => ?_
  rw [hdies j (List.mem_range.mp (List.mem_filter.mp hj).1)]

/-- A sensor at 100 °C holds the slots that it constrains at g 8. -/
def heldFast (s : State) (n v : Nat) : State :=
  let s1 := s.takeTemp n v
  { s1 with power := { s1.power with
    hot := s1.power.hot ++ [n], cap := 8, capped := s1.power.capped ++ (s1.sensorSlots n).filter (fun j => !s1.power.capped.contains j) } }

theorem execThermalFastHold_holds {n v : Nat} (hrails : s.rails = true) (hn : n < 640) (hv : 1600 ≤ v) (hcold : s.power.hot.contains n = false) :
    execThermalFastHold n v s = .next ((heldFast s n v).showG.emit (thermalThrottle n v true ((s.takeTemp n v).sensorSlots n))) := by
  unfold execThermalFastHold
  dsimp only
  rw [if_neg (by simp [hrails]; omega), if_neg]
  · rfl
  · rw [show (s.takeTemp n v).power.hot = s.power.hot from rfl, hcold]
    decide

theorem heldFast_capped {n v j : Nat} (hj : j ∈ s.sensorSlots n) : j ∈ (heldFast s n v).power.capped := by
  change j ∈ s.power.capped ++ ((s.takeTemp n v).sensorSlots n).filter (fun j => !s.power.capped.contains j)
  rw [takeTemp_sensorSlots, List.mem_append]
  by_cases hin : j ∈ s.power.capped
  · exact .inl hin
  · exact .inr (List.mem_filter.mpr ⟨hj, by simpa using hin⟩)

theorem temp_ne_pce {n : Nat} : Reg.MON_TEMP n ≠ Reg.PCE_STATUS := by
  simp only [Reg.MON_TEMP, Reg.PCE_STATUS]
  omega

theorem heldFast_temp (n v : Nat) : (heldFast s n v).showG.rd (F.MON_TEMP_TEMP n) = v % 4096 :=
  rd_wr_skip ((State.rd_of_regs (s.takeTemp n v) rfl _).trans (State.rd_wr_self _ _ _ (by simp [F.MON_TEMP_TEMP]))) (by decide) (.inl temp_ne_pce)

theorem heldFast_regs (n v : Nat) : SameRegs [Reg.MON_TEMP n, Reg.PCE_STATUS] s (heldFast s n v).showG :=
  .wr (f := F.PCE_STATUS_G) (.of_regs (.wr (f := F.MON_TEMP_TEMP n) (.of_regs (.refl s) rfl) (.head _) _) rfl) (.tail _ (.head _)) _

theorem execThermalHoldRelease_cool (hhot : s.power.hot ≠ []) (hcool : ∀ n ∈ s.power.hot, s.rd (F.MON_TEMP_TEMP n) < 1568) :
    execThermalHoldRelease s = .next { s with power := { s.power with hot := [] } } := by
  unfold execThermalHoldRelease
  have hno : ¬(s.power.hot.isEmpty || s.power.hot.any (fun n => decide (1568 ≤ s.rd (F.MON_TEMP_TEMP n)))) = true := by
    rw [Bool.or_eq_true, List.isEmpty_iff, List.any_eq_true]
    rintro (hnil | ⟨n, hn, hwarm⟩)
    · exact hhot hnil
    · have := hcool n hn
      rw [decide_eq_true_eq] at hwarm
      omega
  rw [if_neg hno]

theorem execThermalTrip_trips {n v : Nat} (hrails : s.rails = true) (hn : n < 640) (hv : 1656 ≤ v) :
    execThermalTrip n v s = .next ((s.takeTemp n v).powerOff 0 n v) := by
  unfold execThermalTrip
  exact if_neg (by simp [hrails]; omega)

end

/-- Settles O32: the monitors show what a sample, a droop or a sensor reads, a trip leaves MON_TRIP and otherwise what reset does, and the limits follow the
converters that have failed. -/
theorem powerAndHeat : Obligations.PowerAndHeat := by
  refine ⟨fun s hrails => ⟨fun r hlo hhi => powerSample_shows hrails hlo hhi, fun r hmv => powerSample_trips hrails hmv,
      fun k hk hok hfew => ⟨busFailed s k, execConverterFault_fails hrails hk hok hfew, busFailed_ok k, busFailed_failed k hfew, busFailed_only k⟩⟩,
    fun s => ⟨fun cl h => execDroopDetect_new h, fun cl n h hn => execDroopRecovered_ends h hn,
      fun n v hrails hn hv hcold => ⟨(heldFast s n v).showG, _, execThermalFastHold_holds hrails hn hv hcold, rfl, rfl, heldFast_temp n v, rfl, rfl,
        fun j hj => heldFast_capped hj, heldFast_regs n v⟩,
      execThermalHoldRelease_cool, fun n v hrails hn hv => ⟨_, execThermalTrip_trips hrails hn hv, powerOff_rails _ _ _ _, powerOff_tripped _ _ _ _,
        ?_, ?_, ?_, ?_⟩⟩⟩
  · exact (powerOff_rd _ _ _ _ rfl (by decide)).trans (tripWord_valid _ _ _ _)
  · exact (powerOff_rd _ _ _ _ rfl (by decide)).trans (tripWord_cause _ _ _ _)
  · exact (powerOff_rd _ _ _ _ rfl (by decide)).trans ((tripWord_sensor _ _ _ _).trans (Nat.mod_eq_of_lt (by omega)))
  · exact (powerOff_rd _ _ _ _ rfl (by decide)).trans (tripWord_reading _ _ _ _)

end Sys2Proof.Machine
end

section

/-! SUPPORT and PROOFS. Pace marks and pace changes (O33). -/
namespace Sys2Proof.Machine
open Sys2Proof

/-! What sending a message over the fabric keeps. -/

namespace LowKept
variable {offs : List Nat} {s t : State}

theorem launch {p cls : Nat} {q : QFlit} (h : LowKept offs s t) : LowKept offs s (t.launch p q cls) := by
  unfold State.launch
  extract_lets v x vc y s1
  have h1 : LowKept offs s s1 := h.upd rfl rfl rfl
  split
  · exact h1.upd rfl rfl rfl
  · exact h1

theorem launchAll {n p : Nat} (h : LowKept offs s t) : LowKept offs s (State.launchAll n t p) := by
  induction n generalizing t with
  | zero => exact h
  | succ n ih =>
    unfold State.launchAll
    split
    · exact h
    · split
      · exact h
      · exact ih h.launch

theorem enqueue {p : Nat} {qs : List QFlit} (h : LowKept offs s t) : LowKept offs s (t.enqueue p qs) := launchAll (h.upd rfl rfl rfl)

theorem noteOnce {c u n : Nat} {e : Nat → Ev} (h : LowKept offs s t) : LowKept offs s (t.noteOnce c u n e) :=
  .ite (h.upd rfl rfl rfl) (.emit (h.upd rfl rfl rfl))

theorem routeDrop {dest vc n : Nat} (h : LowKept offs s t) : LowKept offs s (t.routeDrop dest vc n) :=
  .noteOnce (.wr (f := F.ACM_ROUTE_CNT_DROP) h (by decide))

theorem sendOn {ws : List (Option (Nat × Bool))} {vc d r : Nat} {b : List Byte} (h : LowKept offs s t) : LowKept offs s (t.sendOn ws vc d r b) := by
  unfold State.sendOn
  extract_lets fs chosen
  refine .upd (.foldl (fun u w hu => ?_) h) rfl rfl rfl
  split
  · exact hu.routeDrop
  · exact .enqueue (.ite (.wr (f := F.ACM_ROUTE_CNT_DETOUR) hu (by decide)) hu)

theorem sendMember {j vc d r : Nat} {b : List Byte} (h : LowKept offs s t) : LowKept offs s (t.sendMember j vc d r b) := by
  unfold State.sendMember
  split
  · exact h.sendOn
  · exact h

theorem sendVote {v : VoteSpec} {d : Nat} {m : Msg} (h : LowKept offs s t) : LowKept offs s (t.sendVote v d m) := h.sendMember

end LowKept

/-! Pace marks (R635, R640). -/

/-- The count of laps, and the mark whose vote each slot is in, stand. -/
structure PaceKept (s t : State) : Prop where
  now : t.now = s.now
  at_ : ∀ i, (t.slot i).paceAt = (s.slot i).paceAt

theorem LowKept.now {offs : List Nat} {s t : State} (h : LowKept offs s t) (ho : Reg.LAP_COUNT ∉ offs) : t.now = s.now :=
  h.rd _ (lowFld_of (by decide) (by decide) (by decide)) ho

theorem paceAt_of_slotRest {v w : SlotSt} (h : slotRest v = slotRest w) : v.paceAt = w.paceAt := by
  have := congrArg SlotSt.paceAt h
  exact this

namespace PaceKept
variable {s t u : State}

protected theorem refl : PaceKept s s := ⟨rfl, fun _ => rfl⟩

theorem trans (h : PaceKept s t) (h' : PaceKept t u) : PaceKept s u := ⟨h'.now.trans h.now, fun i => (h'.at_ i).trans (h.at_ i)⟩

theorem upd (h : PaceKept s t) (hregs : u.regs = t.regs) (hslots : u.slots = t.slots) : PaceKept s u :=
  ⟨(State.rd_of_regs t hregs _).trans h.now, fun i => (congrArg (fun l => SlotSt.paceAt (sget _ l i)) hslots).trans (h.at_ i)⟩

theorem low {offs : List Nat} (h : PaceKept s t) (hl : LowKept offs t u) (ho : Reg.LAP_COUNT ∉ offs) : PaceKept s u :=
  ⟨(hl.now ho).trans h.now, fun i => (paceAt_of_slotRest (hl.slots i)).trans (h.at_ i)⟩

theorem emit {e : Ev} (h : PaceKept s t) : PaceKept s (t.emit e) := h.low (offs := []) LowKept.refl.emit List.not_mem_nil

theorem wr {f : Fld} {v : Nat} (h : PaceKept s t) (hf : Reg.LAP_COUNT ≠ f.off) : PaceKept s (t.wr f v) :=
  ⟨(State.rd_wr_ne _ _ _ _ hf).trans h.now, h.at_⟩

theorem tick (h : PaceKept s t) : PaceKept s t.tick := ⟨h.now, h.at_⟩

theorem setSlot {j : Nat} {v : SlotSt} (h : PaceKept s t) (hv : v.paceAt = (t.slot j).paceAt) : PaceKept s (t.setSlot j v) := by
  refine ⟨h.now, fun i => Eq.trans ?_ (h.at_ i)⟩
  by_cases hij : i = j
  · rw [hij, State.setSlot_slot_self, hv]
  · rw [State.setSlot_slot, if_neg hij]

theorem ite {p : Prop} [Decidable p] (h : PaceKept s t) (h' : PaceKept s u) : PaceKept s (if p then t else u) := by
  split
  · exact h
  · exact h'

theorem foldl {α : Type} {f : State → α → State} {l : List α} (hf : ∀ t a, PaceKept s t → PaceKept s (f t a)) (h : PaceKept s t) :
    PaceKept s (l.foldl f t) := foldl_induct hf l h

theorem sendVote {v : VoteSpec} {d : Nat} {m : Msg} (h : PaceKept s t) : PaceKept s (t.sendVote v d m) :=
  h.low (offs := []) LowKept.refl.sendVote List.not_mem_nil

theorem voteTake {v : VoteSpec} {k : Nat} {m : Msg} (h : PaceKept s t) : PaceKept s (t.voteTake v k m) :=
  .ite h (.ite h (h.upd rfl rfl))

/-- More than one member: the message goes to the collectors, here too. -/
theorem voteSend {v : VoteSpec} {m : Msg} (h : PaceKept s t) (hmany : ¬ t.members v.slot ≤ 1) : PaceKept s (t.voteSend v m) := by
  unfold State.voteSend
  dsimp only
  rw [if_neg hmany]
  exact .foldl (fun _ _ h' => .ite h'.voteTake h'.sendVote) h

theorem armJob {kind who lap j : Nat} (h : PaceKept s t) (hj : j < 16) : PaceKept s (t.armJob kind who lap j) := by
  unfold State.armJob
  split
  · exact h.upd rfl rfl
  · refine .low (offs := [Reg.STR_SLOT j]) ?_ (LowKept.refl.failJob (.head _)) ?_
    · exact .wr (.wr (.wr (.wr (.wr h (by decide)) (by decide)) (by decide)) (by decide)) (by decide)
    · simp only [Reg.LAP_COUNT, Reg.STR_SLOT, List.mem_singleton]
      omega

theorem paceHold {j mark : Nat} {m : Msg} (h : PaceKept s t) (hj : j < 16) : PaceKept s (t.paceHold j mark m) := by
  have hreg : Reg.LAP_COUNT ≠ Reg.PCE_VOTE j := by
    simp only [Reg.LAP_COUNT, Reg.PCE_VOTE]
    omega
  unfold State.paceHold
  refine .ite h ?_
  extract_lets src s1 arr s2
  have h1 : PaceKept s s1 := h.setSlot rfl
  have h2 : PaceKept s s2 := .wr (.wr (.wr (.wr (.wr h1 hreg) hreg) hreg) hreg) hreg
  exact h2.tick.armJob hj

theorem propose_eq (s : State) (j : Nat) : ∃ idx cause ppm budget w, s.propose j = ((((s.wr (F.PCE_SLOT_PROPOSED j) idx).wr (F.PCE_SLOT_CAUSE j) cause).wr
    (F.PCE_SLOT_LOCAL_PPM j) ppm).wr (F.PCE_SLOT_BUDGET_W j) budget).wr (F.PCE_SLOT_SLOT_W j) w := ⟨_, _, _, _, _, rfl⟩

theorem propose {j : Nat} (h : PaceKept s t) : PaceKept s (t.propose j) := by
  have hreg : Reg.LAP_COUNT ≠ Reg.PCE_SLOT j := by
    simp only [Reg.LAP_COUNT, Reg.PCE_SLOT]
    omega
  obtain ⟨idx, cause, ppm, budget, w, heq⟩ := propose_eq t j
  rw [heq]
  exact .wr (.wr (.wr (.wr (.wr h hreg) hreg) hreg) hreg) hreg

theorem askDelay {p : Nat} (h : PaceKept s t) : PaceKept s (t.askDelay p) := h.upd rfl rfl

theorem thermalRecords (h : PaceKept s t) : PaceKept s t.thermalRecords := .foldl (fun _ _ h' => .ite h'.emit h') h

theorem droopRecord {j : Nat} (h : PaceKept s t) : PaceKept s (t.droopRecord j) := by
  unfold State.droopRecord
  dsimp only
  split
  · split
    · exact .setSlot h.emit (by rw [State.emit_slot])
    · exact h.setSlot rfl
  · exact h.setSlot rfl

theorem coreFreq {k : Nat} (h : PaceKept s t) : PaceKept s (t.coreFreq k) := by
  have hreg (c : Nat) : Reg.LAP_COUNT ≠ Reg.PCE_CORE c := by
    simp only [Reg.LAP_COUNT, Reg.PCE_CORE]
    omega
  exact .foldl (fun _ _ h' => .wr (.wr h' (hreg _)) (hreg _)) h

theorem endInterval (h : PaceKept s t) : PaceKept s t.endInterval := by
  have htemp (n : Nat) : Reg.LAP_COUNT ≠ Reg.MON_TEMP n := by
    simp only [Reg.LAP_COUNT, Reg.MON_TEMP]
    omega
  have hvolt (n : Nat) : Reg.LAP_COUNT ≠ Reg.MON_VMON n := by
    simp only [Reg.LAP_COUNT, Reg.MON_VMON]
    omega
  unfold State.endInterval
  extract_lets pw mean s1 s2 s3 s4 s5
  have h1 : PaceKept s s1 := .wr (.wr (.wr h (by decide)) (by decide)) (by decide)
  have h2 : PaceKept s s2 := .foldl (fun _ _ h' => .wr h' (htemp _)) h1
  have h3 : PaceKept s s3 := .foldl (fun _ _ h' => .ite (.wr h' (hvolt _)) h') h2
  have h4 : PaceKept s s4 := .wr (.wr h3 (by decide)) (by decide)
  have h5 : PaceKept s s5 := .wr (.wr h4 (by decide)) (by decide)
  exact h5.upd rfl rfl

end PaceKept

theorem propose_members (s : State) (j : Nat) : (s.propose j).members j = s.members j := by
  have hne : (F.HRD_ROLE_MEMBERS j).off ≠ Reg.PCE_SLOT j := by
    simp only [F.HRD_ROLE_MEMBERS, Reg.HRD_ROLE, Reg.PCE_SLOT]
    omega
  obtain ⟨idx, cause, ppm, budget, w, heq⟩ := PaceKept.propose_eq s j
  rw [heq]
  exact rd_wr_skip (rd_wr_skip (rd_wr_skip (rd_wr_skip (rd_wr_skip rfl (by simp [F.PCE_SLOT_PROPOSED]) (.inl hne)) (by simp [F.PCE_SLOT_CAUSE]) (.inl hne))
    (by simp [F.PCE_SLOT_LOCAL_PPM]) (.inl hne)) (by simp [F.PCE_SLOT_BUDGET_W]) (.inl hne)) (by simp [F.PCE_SLOT_SLOT_W]) (.inl hne)

/-- A slot takes the mark that its vote belongs to; the votes of earlier marks go. -/
def marked (s t : State) (j : Nat) : State :=
  ((t.setSlot j { t.slot j with paceAt := some s.now }).dropVotes 1 (s.rd (F.STR_SLOT_JOB_ID j)) (fun t => decide (t < s.now))).dropVotes 7
    (s.rd (F.STR_SLOT_JOB_ID j)) (fun t => decide (t < s.now))

theorem pace_eq (s : State) (j : Nat) : ∃ m m', s.pace j = if s.members j ≤ 1 then (marked s (s.propose j) j).paceHold j s.now m
    else (marked s (s.propose j) j).voteSend ((marked s (s.propose j) j).paceVote j s.now) m' := ⟨_, _, rfl⟩

theorem marked_kept (s t : State) (j : Nat) : PaceKept (t.setSlot j { t.slot j with paceAt := some s.now }) (marked s t j) := .upd .refl rfl rfl

theorem marked_members (s t : State) (j : Nat) : (marked s t j).members j = t.members j := State.rd_of_regs t rfl _

/-- A slot enters the vote of this mark. -/
theorem pace_enters {s : State} {j : Nat} (hj : j < 16) :
    (s.pace j).now = s.now ∧ ∀ i, ((s.pace j).slot i).paceAt = if i = j then some s.now else (s.slot i).paceAt := by
  have hprop : PaceKept s (s.propose j) := PaceKept.refl.propose
  have hmark := marked_kept s (s.propose j) j
  have hrest : PaceKept ((s.propose j).setSlot j { (s.propose j).slot j with paceAt := some s.now }) (s.pace j) := by
    obtain ⟨m, m', heq⟩ := pace_eq s j
    rw [heq]
    split
    · exact hmark.paceHold hj
    · next hmany => exact hmark.voteSend (by rw [← propose_members, ← marked_members s] at hmany; exact hmany)
  have hslot : ((s.propose j).setSlot j { (s.propose j).slot j with paceAt := some s.now }).now = (s.propose j).now := State.setSlot_rd _ _ _ _
  refine ⟨hrest.now.trans (hslot.trans hprop.now), fun i => (hrest.at_ i).trans ?_⟩
  rw [State.setSlot_slot]
  split
  · rfl
  · exact hprop.at_ i

section
variable {s : State}

theorem thermalRecords_low : LowKept [] s s.thermalRecords := .foldl (fun _ _ h => .ite h.emit h) .refl

/-- Every slot listed enters the vote of this mark. -/
theorem foldl_pace {l : List Nat} (hl : ∀ j ∈ l, j < 16) :
    (l.foldl (fun (s : State) j => s.pace j) s).now = s.now
      ∧ ∀ i, ((l.foldl (fun (s : State) j => s.pace j) s).slot i).paceAt = if i ∈ l then some s.now else (s.slot i).paceAt := by
  induction l generalizing s with
  | nil => exact ⟨rfl, fun i => by simp⟩
  | cons j l ih =>
    obtain ⟨hnow, hat⟩ := pace_enters (s := s) (hl j (.head _))
    obtain ⟨hnow', hat'⟩ := ih (s := s.pace j) (fun i hi => hl i (.tail _ hi))
    refine ⟨hnow'.trans hnow, fun i => (hat' i).trans ?_⟩
    by_cases hin : i ∈ l
    · simp [hin, hnow]
    · simp [hin, hat]

/-- What a module asks its neighbours at a pace mark. -/
def askPorts (s : State) : State := (List.range 52).foldl (fun (s : State) p => if s.portUp p then s.askDelay p else s) s

/-- That changes the ports, the lap clock and what is sent. -/
theorem askPorts_kept : PaceKept s (askPorts s) ∧ (askPorts s).power = s.power ∧ (askPorts s).told = s.told :=
  foldl_induct (P := fun t : State => PaceKept s t ∧ t.power = s.power ∧ t.told = s.told) (fun t p ⟨hpace, hpower, htold⟩ => by
    split
    · exact ⟨hpace.askDelay, hpower, htold⟩
    · exact ⟨hpace, hpower, htold⟩) _ ⟨.refl, rfl, rfl⟩

theorem endInterval_fresh : s.endInterval.power.mark = some s.now ∧ s.endInterval.power.count = 0 ∧ s.endInterval.told = [] ∧ PaceKept s s.endInterval := by
  have hshape : ∃ (u : State) (pw : PowerSt), s.endInterval = { u with told := [], power := pw } ∧ pw.mark = some s.now ∧ pw.count = 0 :=
    ⟨_, _, rfl, rfl, rfl⟩
  obtain ⟨u, pw, heq, hmark, hcount⟩ := hshape
  have hpower : s.endInterval.power = pw := by rw [heq]
  have htold : s.endInterval.told = [] := by rw [heq]
  rw [hpower]
  exact ⟨hmark, hcount, htold, .endInterval .refl⟩

/-- The slots at the end of an interval: every RUNNING one has entered its vote. -/
def paceEntered (s : State) : State :=
  (List.range 16).foldl (fun (s : State) j => if s.slotState j == 2 then s.droopRecord j else s.setSlot j { s.slot j with droop := 0, throttled := 0 })
    (s.runningSlots.foldl (fun (s : State) j => s.pace j) s.thermalRecords)

theorem paceEntered_at : (paceEntered s).now = s.now ∧ ∀ j, j < 16 → s.slotState j = 2 → ((paceEntered s).slot j).paceAt = some s.now := by
  have hnow : s.thermalRecords.now = s.now := thermalRecords_low.now List.not_mem_nil
  have hfold := foldl_pace (s := s.thermalRecords) (l := s.runningSlots)
    (fun j hj => List.mem_range.mp (List.mem_filter.mp hj).1)
  have hrest : PaceKept (s.runningSlots.foldl (fun (s : State) j => s.pace j) s.thermalRecords) (paceEntered s) :=
    .foldl (fun _ _ h => .ite h.droopRecord (h.setSlot rfl)) .refl
  rw [hnow] at hfold
  refine ⟨hrest.now.trans hfold.1, fun j hj hrun => (hrest.at_ j).trans ((hfold.2 j).trans (if_pos ?_))⟩
  rw [State.runningSlots, List.mem_filter, List.mem_range, beq_iff_eq]
  exact ⟨hj, hrun⟩

theorem execPaceMark_marks (hmark : s.now % 4096 = 0) (hnew : s.power.mark ≠ some s.now) (hruns : s.stopped = false) (hturn : s.turn 4 = true) :
    execPaceMark s = .next (askPorts (((paceEntered s).coreFreq 0).coreFreq 1).endInterval).tick.latch := by
  unfold execPaceMark askPorts paceEntered
  dsimp only
  rw [if_neg (by simp [hmark, hnew]), if_neg (by simp [hruns]), if_neg (by simp [hturn])]

theorem paceMark_marks (hmark : s.now % 4096 = 0) (hnew : s.power.mark ≠ some s.now) (hruns : s.stopped = false) (hturn : s.turn 4 = true) :
    ∃ t, execPaceMark s = .next t ∧ t.power.mark = some s.now ∧ t.power.count = 0 ∧ t.told = [] ∧ t.latched = t.regs
      ∧ ∀ j, j < 16 → s.slotState j = 2 → (t.slot j).paceAt = some s.now := by
  obtain ⟨hnow, hat⟩ := paceEntered_at (s := s)
  have hcores : PaceKept (paceEntered s) (((paceEntered s).coreFreq 0).coreFreq 1) := PaceKept.refl.coreFreq.coreFreq
  refine ⟨_, execPaceMark_marks hmark hnew hruns hturn, ?_⟩
  generalize ((paceEntered s).coreFreq 0).coreFreq 1 = u at hcores
  obtain ⟨hmarked, hcount, htold, hend⟩ := endInterval_fresh (s := u)
  generalize u.endInterval = v at *
  obtain ⟨hasked, hpower, htold'⟩ := askPorts_kept (s := v)
  generalize askPorts v = w at *
  refine ⟨?_, (congrArg PowerSt.count hpower).trans hcount, htold'.trans htold, rfl, fun j hj hrun => ?_⟩
  · refine (congrArg PowerSt.mark hpower).trans (hmarked.trans ?_)
    rw [hcores.now, hnow]
  · exact (hasked.at_ j).trans ((hend.at_ j).trans ((hcores.at_ j).trans (hat j hj hrun)))

end

/-! A pace change (R641, R644). -/

section
variable {s : State} {j : Nat} {m : Msg}

/-- Partitions take a pace. -/
def pacedParts (s : State) (l : List Nat) (new : Nat) : State := l.foldl (fun (s : State) p => s.wr (F.CD_PART_PACE (p / 4) (p % 4)) new) s

theorem pacedParts_low (s : State) (l : List Nat) (new : Nat) : LowKept [] s (pacedParts s l new) :=
  .foldl (fun _ _ h => .wr h (by simp only [F.CD_PART_PACE, Reg.CD_PART]; omega)) .refl

theorem pacedParts_rest (s : State) (l : List Nat) (new : Nat) : (pacedParts s l new).mem = s.mem ∧ (pacedParts s l new).clusters = s.clusters :=
  foldl_induct (P := fun t : State => t.mem = s.mem ∧ t.clusters = s.clusters) (f := fun (s : State) p => s.wr (F.CD_PART_PACE (p / 4) (p % 4)) new)
    (fun _ _ h => h) l ⟨rfl, rfl⟩

/-- Two partitions' pace fields are the same field or of different registers. -/
theorem partPace_wr (t : State) (p q new : Nat) : (t.wr (F.CD_PART_PACE (p / 4) (p % 4)) new).rd (F.CD_PART_PACE (q / 4) (q % 4))
    = if Reg.CD_PART (q / 4) (q % 4) = Reg.CD_PART (p / 4) (p % 4) then new % 16 else t.rd (F.CD_PART_PACE (q / 4) (q % 4)) := by
  split
  · next h =>
    rw [show F.CD_PART_PACE (q / 4) (q % 4) = F.CD_PART_PACE (p / 4) (p % 4) from congrArg (Fld.mk · 47 44) h]
    exact State.rd_wr_self _ _ _ (by simp [F.CD_PART_PACE])
  · next h => exact State.rd_wr_ne _ _ _ _ h

theorem pacedParts_pace {l : List Nat} {new p : Nat} (h : p ∈ l ∨ s.rd (F.CD_PART_PACE (p / 4) (p % 4)) = new % 16) :
    (pacedParts s l new).rd (F.CD_PART_PACE (p / 4) (p % 4)) = new % 16 := by
  induction l generalizing s with
  | nil => exact h.resolve_left List.not_mem_nil
  | cons q l ih =>
    refine ih (s := s.wr (F.CD_PART_PACE (q / 4) (q % 4)) new) ?_
    rw [partPace_wr]
    rcases h with hmem | hrd
    · rcases List.mem_cons.mp hmem with rfl | hin
      · exact .inr (if_pos rfl)
      · exact .inl hin
    · refine .inr ?_
      split
      · rfl
      · exact hrd

/-- The job's partitions run at the decided pace. -/
def paced (s : State) (j new : Nat) : State :=
  (pacedParts (((s.dropArms 1 j).wr (F.PCE_SLOT_LIVE j) new).wr (F.STR_SLOT_PACE j) new) (s.partsOf j) new).inc F.PCE_CNT_CHANGES

/-- What PACE_CHANGE carries. -/
def paceRecord (old new : Nat) (m : Msg) : Nat :=
  place 3 0 old ||| place 7 4 new ||| place 20 8 (m.le 0x10 2) ||| place 22 21 (bits (m.byte 0xE) 5 4) ||| place 23 23 (bits (m.byte 0xE) 6 6)

theorem paceRecord_old (old new : Nat) (m : Msg) : bits (paceRecord old new m) 3 0 = old % 16 := by
  simp only [paceRecord, bits_or]
  rw [bits_place_self, bits_place_above _ _ _ _ _ (by decide), bits_place_above _ _ _ _ _ (by decide), bits_place_above _ _ _ _ _ (by decide),
    bits_place_above _ _ _ _ _ (by decide)]
  simp

theorem paceRecord_new (old new : Nat) (m : Msg) : bits (paceRecord old new m) 7 4 = new % 16 := by
  simp only [paceRecord, bits_or]
  rw [bits_place_below _ _ _ _ _ (by decide), bits_place_self, bits_place_above _ _ _ _ _ (by decide), bits_place_above _ _ _ _ _ (by decide),
    bits_place_above _ _ _ _ _ (by decide)]
  simp

theorem execPaceChange_changes (hdue : (s.due 1 j).isSome = true) (hmsg : (s.slot j).paceMsg = some m) (hrun : s.slotState j = 2)
    (hkey : voteKey 1 m + 4096 = s.now) (hpace : m.byte 0xE % 16 ≤ 8) (hnew : m.byte 0xE % 16 ≠ s.rd (F.PCE_SLOT_LIVE j)) (hstop : s.stopped = false)
    (hturn : s.turn 3 = true) : execPaceChange j s = .next ((paced s j (m.byte 0xE % 16)).emit
      ⟨0, 0x0301, srcModule 0, s.jobOf j, paceRecord (s.rd (F.PCE_SLOT_LIVE j)) (m.byte 0xE % 16) m⟩).latch := by
  obtain ⟨a, ha⟩ := Option.isSome_iff_exists.mp hdue
  unfold execPaceChange
  rw [ha, hmsg]
  dsimp only
  rw [if_neg (by simp [hturn]), Nat.min_eq_left hpace, if_neg (by simp [hrun, hkey, hnew, hstop])]
  rfl

theorem paced_low {f : Fld} {new v : Nat} (hf : LowFld f) (hcnt : f.off ≠ Reg.PCE_CNT)
    (h : (((s.dropArms 1 j).wr (F.PCE_SLOT_LIVE j) new).wr (F.STR_SLOT_PACE j) new).rd f = v) : (paced s j new).rd f = v :=
  State.rd_inc_skip (((pacedParts_low _ _ _).rd f hf List.not_mem_nil).trans h) (by decide) (.inl hcnt)

theorem slotRegs_low (hj : j < 16) (hi lo : Nat) (hhi : hi < 64) : LowFld ⟨Reg.PCE_SLOT j, hi, lo⟩ ∧ LowFld ⟨Reg.STR_SLOT j, hi, lo⟩
    ∧ LowFld ⟨Reg.PCE_VOTE j, hi, lo⟩ ∧ Reg.PCE_SLOT j ≠ Reg.STR_SLOT j ∧ Reg.PCE_SLOT j ≠ Reg.PCE_CNT ∧ Reg.STR_SLOT j ≠ Reg.PCE_CNT
    ∧ Reg.PCE_VOTE j ≠ Reg.PCE_CNT := by
  simp only [LowFld, Reg.PCE_SLOT, Reg.STR_SLOT, Reg.PCE_VOTE, Reg.PCE_CNT, Reg.STR_RING_CNT, Reg.STR_PINS, Reg.STR_HOST]
  omega

theorem paced_live (hj : j < 16) (new : Nat) : (paced s j new).rd (F.PCE_SLOT_LIVE j) = new % 16 := by
  obtain ⟨hlow, -, -, hne, hcnt, -, -⟩ := slotRegs_low hj 55 52 (by decide)
  exact paced_low hlow hcnt (rd_wr_skip (State.rd_wr_self _ _ _ (by simp [F.PCE_SLOT_LIVE])) (by simp [F.STR_SLOT_PACE]) (.inl hne))

theorem paced_pace (hj : j < 16) (new : Nat) : (paced s j new).rd (F.STR_SLOT_PACE j) = new % 16 := by
  obtain ⟨-, hlow, -, -, -, hcnt, -⟩ := slotRegs_low hj 43 40 (by decide)
  exact paced_low hlow hcnt (State.rd_wr_self _ _ _ (by simp [F.STR_SLOT_PACE]))

theorem paced_parts (new : Nat) {p : Nat} (hp : p ∈ s.partsOf j) : (paced s j new).rd (F.CD_PART_PACE (p / 4) (p % 4)) = new % 16 := by
  refine State.rd_inc_skip (pacedParts_pace (.inl hp)) (by decide) (.inl ?_)
  simp only [F.CD_PART_PACE, F.PCE_CNT_CHANGES, Reg.CD_PART, Reg.PCE_CNT]
  omega

theorem paced_changes (hj : j < 16) (new : Nat) : (paced s j new).rd F.PCE_CNT_CHANGES = min (s.rd F.PCE_CNT_CHANGES + 1) 65535 := by
  obtain ⟨-, -, -, -, hcnt, hcnt', -⟩ := slotRegs_low hj 0 0 (by decide)
  refine (State.rd_inc_self _ _ (by decide)).trans (congrArg (fun n => min (n + 1) 65535) ?_)
  refine ((pacedParts_low _ _ _).rd _ (lowFld_of (by decide) (by decide) (by decide)) List.not_mem_nil).trans ?_
  exact (State.rd_wr_ne _ _ _ _ hcnt'.symm).trans (State.rd_wr_ne _ _ _ _ hcnt.symm)

theorem paced_rest (new : Nat) : (paced s j new).mem = s.mem ∧ (paced s j new).clusters = s.clusters := pacedParts_rest _ _ _

/-! A member without a decision (R642, R78, R81). -/

/-- The index that such a member takes. -/
def ownIndex (s : State) (j : Nat) : Nat := max (s.rd (F.PCE_SLOT_LIVE j)) (s.rd (F.PCE_SLOT_PROPOSED j))

/-- The decision as it would send it. -/
def ownWord (s : State) (j mark : Nat) : Msg :=
  s.paceWord j 0x72 0 mark (place 3 0 (ownIndex s j) ||| place 5 4 (s.rd (F.PCE_SLOT_CAUSE j))) (s.modIdx j) 1

/-- It holds its own index as the decision. -/
def ownDecided (s : State) (j mark : Nat) : State :=
  ((s.setSlot j { s.slot j with paceMsg := some (ownWord s j mark) }).wr (F.PCE_VOTE_LATE j) 1).inc
    F.PCE_CNT_VOTE_LATE

/-- What PACE_VOTE_LATE carries. -/
def lateRecord (s : State) (j mark : Nat) : Ev := ⟨2, 0x0305, srcModule 0, s.jobOf j, place 3 0 (ownIndex s j) ||| place 67 4 mark⟩

theorem execPaceVoteLate_own {mark : Nat} (hat : (s.slot j).paceAt = some mark) (hrun : s.slotState j = 2) (hnone : (s.slot j).paceMsg = none)
    (hlo : 4080 + mark ≤ s.now) (hhi : s.now ≤ 4096 + mark) :
    execPaceVoteLate j s = .next (((ownDecided s j mark).emit (lateRecord s j mark)).armJob 1 j (4096 + mark) j) := by
  have hheld : s.paceHeld j mark = false := by rw [State.paceHeld, hnone]
  unfold execPaceVoteLate
  rw [hat]
  dsimp only
  rw [if_pos (by simp [hrun, hheld, hlo, hhi])]
  rfl

theorem ownDecided_rd {f : Fld} {mark : Nat} (hvote : f.off ≠ Reg.PCE_VOTE j) (hcnt : f.off ≠ Reg.PCE_CNT) : (ownDecided s j mark).rd f = s.rd f :=
  State.rd_inc_skip (rd_wr_skip (State.setSlot_rd _ _ _ _) (by simp [F.PCE_VOTE_LATE]) (.inl hvote)) (by decide) (.inl hcnt)

theorem ownDecided_late (hj : j < 16) (mark : Nat) : (ownDecided s j mark).rd (F.PCE_VOTE_LATE j) = 1 := by
  obtain ⟨-, -, -, -, -, -, hcnt⟩ := slotRegs_low hj 0 0 (by decide)
  exact State.rd_inc_skip (State.rd_wr_self _ _ _ (by simp [F.PCE_VOTE_LATE])) (by decide) (.inl hcnt)

theorem ownDecided_count (hj : j < 16) (mark : Nat) : (ownDecided s j mark).rd F.PCE_CNT_VOTE_LATE = min (s.rd F.PCE_CNT_VOTE_LATE + 1) 65535 := by
  obtain ⟨-, -, -, -, -, -, hcnt⟩ := slotRegs_low hj 0 0 (by decide)
  refine (State.rd_inc_self _ _ (by decide)).trans (congrArg (fun n => min (n + 1) 65535) ?_)
  exact (State.rd_wr_ne _ _ _ _ hcnt.symm).trans (State.setSlot_rd _ _ _ _)

theorem ownDecided_msg (mark : Nat) : ((ownDecided s j mark).slot j).paceMsg = some (ownWord s j mark) :=
  congrArg SlotSt.paceMsg (State.setSlot_slot_self s j _)

/-- The CRC stands above the bytes that it covers. -/
theorem withCrc_le (x : Msg) {at_ i n : Nat} (hn : 0 < n) (hin : i + n ≤ at_) : (x.withCrc at_).le i n = x.le i n := by
  have hcrc (c : Nat) : bits (c <<< (8 * at_)) (8 * (i + n) - 1) (8 * i) = 0 := by
    apply Nat.eq_of_testBit_eq
    intro k
    by_cases hk : k < 8 * (i + n) - 1 + 1 - 8 * i
    · have hlt : ¬ (8 * at_ ≤ 8 * i + k) := by omega
      simp [testBit_bits, hlt]
    · simp [testBit_bits, hk]
  unfold Msg.withCrc Msg.le
  rw [bits_or, hcrc, Nat.or_zero]

/-- A message of a pace vote names its mark. -/
theorem voteKey_paceWord (type level mark index first covered : Nat) :
    voteKey 1 (s.paceWord j type level mark index first covered) = mark % 2 ^ 64 := by
  have hfld (i n v : Nat) (hn : 0 < n) : (v % 2 ^ (8 * n)) <<< (8 * i) = place (8 * (i + n) - 1) (8 * i) v := by
    rw [place, show 8 * (i + n) - 1 + 1 - 8 * i = 8 * n by omega]
  refine (withCrc_le _ (i := 4) (n := 8) (by decide) (by decide)).trans ?_
  unfold msgOf Msg.le
  simp only [List.foldl_cons, List.foldl_nil]
  rw [hfld _ _ _ (by decide), hfld _ _ _ (by decide), hfld _ _ _ (by decide), hfld _ _ _ (by decide), hfld _ _ _ (by decide), hfld _ _ _ (by decide),
    hfld _ _ _ (by decide), hfld _ _ _ (by decide)]
  simp only [bits_or]
  rw [bits_place_self, bits_place_below _ _ _ _ _ (by decide), bits_place_below _ _ _ _ _ (by decide), bits_place_below _ _ _ _ _ (by decide),
    bits_place_above _ _ _ _ _ (by decide), bits_place_above _ _ _ _ _ (by decide), bits_place_above _ _ _ _ _ (by decide),
    bits_place_above _ _ _ _ _ (by decide)]
  simp [bits]

theorem ownDecided_armReason (hj : j < 16) (mark lap : Nat) :
    ((ownDecided s j mark).emit (lateRecord s j mark)).armReason lap true = s.armReason lap true := by
  have hkept (f : Fld) (hf : EvKept f) (hvote : f.off < 0x300000) : ((ownDecided s j mark).emit (lateRecord s j mark)).rd f = s.rd f :=
    (State.emit_rd _ _ hf).trans (ownDecided_rd (by rw [Reg.PCE_VOTE]; omega) (by rw [Reg.PCE_CNT]; omega))
  exact armReason_congr (hkept _ (evKept_low (by decide) (by decide) (by decide)) (by decide))
    (hkept _ (evKept_low (by decide) (by decide) (by decide)) (by decide)) (State.emit_arms _ _) lap

/-- An arm of a job that is refused stops the job, and LAP_REJECT says why. -/
theorem armJob_refused {u : State} {kind who lap r : Nat} (hj : j < 16) (hr : u.armReason lap true = some r) (hr5 : r < 16) (hheld : u.slotState j ≠ 0) :
    (u.armJob kind who lap j).slotState j = 4 ∧ (u.armJob kind who lap j).rd F.LAP_REJECT_REASON = r
      ∧ (u.armJob kind who lap j).rd F.LAP_REJECT_KIND = kind % 16 := by
  have hne : Reg.STR_SLOT j ≠ Reg.LAP_REJECT ∧ Reg.STR_SLOT j ≠ Reg.LAP_CNT ∧ Reg.LAP_REJECT ∉ [Reg.STR_SLOT j] := by
    simp only [Reg.STR_SLOT, Reg.LAP_REJECT, Reg.LAP_CNT, List.mem_singleton]
    omega
  obtain ⟨hrej, hcnt, hnot⟩ := hne
  unfold State.armJob
  rw [hr]
  have hkept : LowKept [Reg.STR_SLOT j] (u.latchReject r kind lap (u.rd (F.STR_SLOT_JOB_ID j)))
      ((u.latchReject r kind lap (u.rd (F.STR_SLOT_JOB_ID j))).failJob j (armRejected 3 r kind lap (u.jobOf j))) := LowKept.refl.failJob (.head _)
  refine ⟨failJob_slotState _ hj ?_, (hkept.rd _ (lowFld_of (by decide) (by decide) (by decide)) hnot).trans ?_,
    (hkept.rd _ (lowFld_of (by decide) (by decide) (by decide)) hnot).trans ?_⟩
  · rw [show (u.latchReject r kind lap (u.rd (F.STR_SLOT_JOB_ID j))).slotState j = u.slotState j from
      State.rd_inc_skip (rd_wr_skip (rd_wr_skip (rd_wr_skip (rd_wr_skip rfl (by decide) (.inl hrej)) (by decide) (.inl hrej)) (by decide) (.inl hrej))
        (by decide) (.inl hrej)) (by decide) (.inl hcnt)]
    exact hheld
  · exact State.rd_inc_skip (rd_wr_skip (rd_wr_skip (rd_wr_skip ((State.rd_wr_self _ _ _ (by decide)).trans (Nat.mod_eq_of_lt hr5)) (by decide)
      (.inr (.inr (by decide)))) (by decide) (.inr (.inr (by decide)))) (by decide) (.inr (.inr (by decide)))) (by decide) (.inl (by decide))
  · exact State.rd_inc_skip (rd_wr_skip (rd_wr_skip (State.rd_wr_self _ _ _ (by decide)) (by decide) (.inr (.inr (by decide)))) (by decide)
      (.inr (.inr (by decide)))) (by decide) (.inl (by decide))

theorem armReason_lt {u : State} {lap r : Nat} {aligned : Bool} (h : u.armReason lap aligned = some r) : r < 16 := by
  unfold State.armReason at h
  dsimp only at h
  split at h
  · simp at h; omega
  · split at h
    · simp at h; omega
    · split at h
      · simp at h; omega
      · split at h
        · simp at h; omega
        · split at h
          · simp at h; omega
          · split at h
            · simp at h; omega
            · simp at h

end

/-- Settles O33: a pace mark enters every RUNNING slot's vote before the interval ends, a change writes the job's own registers and its partitions, and
a late member's arm is accepted or stops the job. -/
theorem paceMarks : Obligations.PaceMarks := by
  intro s
  refine ⟨paceMark_marks, fun j m hj hdue hmsg hrun hkey hpace hnew hstop hturn => ?_, fun j mark hj hat hrun hnone hlo hhi => ?_⟩
  · obtain ⟨hmem, hclusters⟩ := paced_rest (s := s) (j := j) (m.byte 0xE % 16)
    have hmod : m.byte 0xE % 16 % 16 = m.byte 0xE % 16 := Nat.mod_mod _ _
    refine ⟨_, _, execPaceChange_changes hdue hmsg hrun hkey hpace hnew hstop hturn, rfl, rfl, ?_, (paceRecord_new _ _ _).trans hmod,
      (paced_live hj _).trans hmod, (paced_pace hj _).trans hmod, fun p hp => (paced_parts _ hp).trans hmod, paced_changes hj _, hmem, hclusters⟩
    exact (paceRecord_old _ _ _).trans (Nat.mod_eq_of_lt (bits_lt _ _ _))
  · have hexec := execPaceVoteLate_own hat hrun hnone hlo hhi
    refine ⟨fun hnor => ⟨ownDecided s j mark, ?_, ownDecided_late hj mark, fun x hx => ?_, ownDecided_count hj mark, rfl, rfl⟩, fun r hr => ?_⟩
    · exact hexec.trans (congrArg Host.Outcome.next (armJob_accepted ((ownDecided_armReason hj mark _).trans hnor)))
    · rw [ownDecided_msg, Option.some.injEq] at hx
      rw [← hx]
      exact voteKey_paceWord _ _ _ _ _ _
    · obtain ⟨hslot, hreason, hkind⟩ := armJob_refused (kind := 1) (who := j) hj ((ownDecided_armReason hj mark _).trans hr) (armReason_lt hr) (by
        obtain ⟨-, hlow, hv, -, -, hcnt, -⟩ := slotRegs_low hj 62 60 (by decide)
        rw [show ((ownDecided s j mark).emit (lateRecord s j mark)).slotState j = s.slotState j from
          (State.emit_rd _ _ hlow.evKept).trans (ownDecided_rd (by simp only [Reg.STR_SLOT, Reg.PCE_VOTE]; omega) hcnt), hrun]
        decide)
      exact ⟨_, hexec, hslot, hreason, hkind⟩

end Sys2Proof.Machine
end

section

/-! SUPPORT and PROOFS. Weight epochs (O35), self-test windows (O57), submission queues (O38). -/
namespace Sys2Proof.Machine
open Sys2Proof

/-! Weight epochs (R313 to R315). -/

section
variable {s : State} {n j h : Nat}

/-- From `s` to `t` a shard's register reads as before but for the reference count, and so does every field below it; the slots, memory and the
shard's hidden state stand. -/
structure ShardKept (n j h : Nat) (s t : State) : Prop where
  epoch : ∀ hi lo, hi < 64 → (49 < lo ∨ hi < 40) → t.rd ⟨Reg.CD_EPOCH n j h, hi, lo⟩ = s.rd ⟨Reg.CD_EPOCH n j h, hi, lo⟩
  shard : t.shards = s.shards
  slots : t.slots = s.slots
  mem : t.mem = s.mem

namespace ShardKept
variable {t u : State}

protected theorem refl : ShardKept n j h s s := ⟨fun _ _ _ _ => rfl, rfl, rfl, rfl⟩

theorem addRefs {k : Nat} (hk : ShardKept n j h s t) : ShardKept n j h s (t.add (F.CD_EPOCH_REFS n j h) k) := by
  refine ⟨fun hi lo hhi hd => Eq.trans (rd_wr_skip rfl ?_ (.inr ?_)) (hk.epoch hi lo hhi hd), hk.shard, hk.slots, hk.mem⟩
  · simp [F.CD_EPOCH_REFS]
  · simp only [F.CD_EPOCH_REFS]
    omega

theorem upd (hk : ShardKept n j h s t) (hregs : u.regs = t.regs) (hshards : u.shards = t.shards) (hslots : u.slots = t.slots) (hmem : u.mem = t.mem) :
    ShardKept n j h s u :=
  ⟨fun hi lo hhi hd => (State.rd_of_regs t hregs _).trans (hk.epoch hi lo hhi hd), hshards.trans hk.shard, hslots.trans hk.slots, hmem.trans hk.mem⟩

theorem setCluster {cl : ClusterId} {c : ClusterSt} (hk : ShardKept n j h s t) : ShardKept n j h s (t.setCluster cl c) := hk.upd rfl rfl rfl rfl

theorem wakeDqs {v : Nat} {write : Bool} (hk : ShardKept n j h s t) : ShardKept n j h s (t.wakeDqs j n h v write) := by
  unfold State.wakeDqs
  refine foldl_induct (P := ShardKept n j h s) (fun u cl hu => ?_) _ hk
  exact hu.setCluster.addRefs

theorem wakeSnaps (hk : ShardKept n j h s t) : ShardKept n j h s (t.wakeSnaps j n h) := by
  unfold State.wakeSnaps
  split
  · exact hk
  · exact .addRefs (hk.upd rfl rfl rfl rfl)

theorem verState (hk : ShardKept n j h s t) (v : Nat) : t.verState n j h v = s.verState n j h v := by
  unfold State.verState
  rw [show t.rd (F.CD_EPOCH_STATE0 n j h) = s.rd (F.CD_EPOCH_STATE0 n j h) from hk.epoch _ _ (by decide) (.inl (by decide)),
    show t.rd (F.CD_EPOCH_STATE1 n j h) = s.rd (F.CD_EPOCH_STATE1 n j h) from hk.epoch _ _ (by decide) (.inl (by decide))]

theorem epochNo (hk : ShardKept n j h s t) : t.rd (F.CD_EPOCH_EPOCH n j h) = s.rd (F.CD_EPOCH_EPOCH n j h) :=
  hk.epoch 31 0 (by decide) (.inr (by decide))

theorem shardOf (hk : ShardKept n j h s t) : t.shard n j h = s.shard n j h := congrArg (fun l => sget (fun _ => shardInit) l (shardKey n j h)) hk.shard

end ShardKept

/-- A version's state is written, and no other field of the shard. -/
theorem setVer_self (v st : Nat) : (s.setVer n j h v st).verState n j h v = st % 4 := by
  unfold State.setVer State.verState
  split
  · exact State.rd_wr_self _ _ _ (by simp [F.CD_EPOCH_STATE0])
  · exact State.rd_wr_self _ _ _ (by simp [F.CD_EPOCH_STATE1])

theorem setVer_other {v w st : Nat} (hvw : v = 0 ↔ w ≠ 0) : (s.setVer n j h v st).verState n j h w = s.verState n j h w := by
  unfold State.setVer State.verState
  by_cases hv : v = 0
  · rw [if_pos hv, if_neg (hvw.mp hv), if_neg (hvw.mp hv)]
    exact rd_wr_skip rfl (by simp [F.CD_EPOCH_STATE0]) (.inr (by simp [F.CD_EPOCH_STATE0, F.CD_EPOCH_STATE1]))
  · have hw : w = 0 := by_contra fun hw => hv (hvw.mpr hw)
    rw [if_neg hv, if_pos hw, if_pos hw]
    exact rd_wr_skip rfl (by simp [F.CD_EPOCH_STATE1]) (.inr (by simp [F.CD_EPOCH_STATE0, F.CD_EPOCH_STATE1]))

theorem setVer_below {v st : Nat} {f : Fld} (hhi : f.hi < 60) : (s.setVer n j h v st).rd f = s.rd f := by
  unfold State.setVer
  split
  · exact rd_wr_skip rfl (by simp [F.CD_EPOCH_STATE0]) (.inr (by simp only [F.CD_EPOCH_STATE0]; omega))
  · exact rd_wr_skip rfl (by simp [F.CD_EPOCH_STATE1]) (.inr (by simp only [F.CD_EPOCH_STATE1]; omega))

theorem setVer_rest (v st : Nat) : (s.setVer n j h v st).mem = s.mem ∧ (s.setVer n j h v st).shards = s.shards ∧ (s.setVer n j h v st).slots = s.slots := by
  unfold State.setVer
  split <;> exact ⟨rfl, rfl, rfl⟩

/-- A field below the version states is written. -/
theorem verState_wr {t : State} {f : Fld} {v : Nat} (hf : f.hi < 60) (w : Nat) : (t.wr f v).verState n j h w = t.verState n j h w := by
  unfold State.verState
  rw [rd_wr_skip (s := t) (f := F.CD_EPOCH_STATE0 n j h) rfl (by omega) (.inr (.inr (by simp only [F.CD_EPOCH_STATE0]; omega))),
    rd_wr_skip (s := t) (f := F.CD_EPOCH_STATE1 n j h) rfl (by omega) (.inr (.inr (by simp only [F.CD_EPOCH_STATE1]; omega)))]

/-- The version that was FILLING is LIVE with the next epoch, and the other RETIRED. -/
def Flipped (s t : State) (n j h v : Nat) : Prop :=
  t.verState n j h v = 2 ∧ t.verState n j h (1 - v) = 3 ∧ t.rd (F.CD_EPOCH_EPOCH n j h) = (s.rd (F.CD_EPOCH_EPOCH n j h) + 1) % 2 ^ 32

/-- The registers of a shard that flips. -/
def turned (s : State) (n j h v : Nat) : State :=
  ((s.setVer n j h (1 - v) 3).setVer n j h v 2).wr (F.CD_EPOCH_EPOCH n j h) (s.rd (F.CD_EPOCH_EPOCH n j h) + 1)

/-- With its hidden state: no mark has passed the RETIRED version yet, and no flip is late. -/
def turnedShard (s : State) (n j h v : Nat) : State :=
  (turned s n j h v).setShard n j h { (turned s n j h v).shard n j h with markSince := false, stalled := false, late := none }

theorem setShard_verState (t : State) (x : ShardSt) (w : Nat) : (t.setShard n j h x).verState n j h w = t.verState n j h w :=
  verState_wr (t := { t with shards := sset (fun _ => shardInit) t.shards (shardKey n j h) x }) (f := F.CD_EPOCH_HOLDERS n j h) (by simp [F.CD_EPOCH_HOLDERS]) w

theorem setShard_shard (t : State) (x : ShardSt) : (t.setShard n j h x).shard n j h = x := sget_sset_self _ _ _ _

theorem setShard_below (t : State) (x : ShardSt) {f : Fld} (hf : f.hi < 50) : (t.setShard n j h x).rd f = t.rd f := by
  refine (rd_wr_skip (State.rd_of_regs t rfl f) (by simp [F.CD_EPOCH_HOLDERS]) (.inr (.inl ?_)))
  simp only [F.CD_EPOCH_HOLDERS]
  omega

theorem setShard_mem (t : State) (x : ShardSt) : (t.setShard n j h x).mem = t.mem := rfl

theorem setShard_slots (t : State) (x : ShardSt) : (t.setShard n j h x).slots = t.slots := rfl

theorem turned_rest (v : Nat) : (turned s n j h v).mem = s.mem ∧ (turned s n j h v).slots = s.slots := by
  obtain ⟨hmem, -, hslots⟩ := setVer_rest (s := s) (n := n) (j := j) (h := h) (1 - v) 3
  obtain ⟨hmem', -, hslots'⟩ := setVer_rest (s := s.setVer n j h (1 - v) 3) (n := n) (j := j) (h := h) v 2
  exact ⟨hmem'.trans hmem, hslots'.trans hslots⟩

theorem turnedShard_flipped (v : Nat) : Flipped s (turnedShard s n j h v) n j h v := by
  have hside : v = 0 ↔ 1 - v ≠ 0 := by omega
  refine ⟨?_, ?_, ?_⟩
  · exact (setShard_verState _ _ _).trans ((verState_wr (by simp [F.CD_EPOCH_EPOCH]) _).trans (setVer_self _ _))
  · exact (setShard_verState _ _ _).trans ((verState_wr (by simp [F.CD_EPOCH_EPOCH]) _).trans ((setVer_other hside).trans (setVer_self _ _)))
  · exact (setShard_below _ _ (by simp [F.CD_EPOCH_EPOCH])).trans (State.rd_wr_self _ _ _ (by simp [F.CD_EPOCH_EPOCH]))

theorem flipShard_kept {v : Nat} (hv : s.verIn n j h 1 = some v) : ShardKept n j h (turnedShard s n j h v) (s.flipShard j n h) := by
  unfold State.flipShard
  rw [hv]
  exact .wakeSnaps (.wakeDqs .refl)

theorem Flipped.kept {t u : State} {v : Nat} (hf : Flipped s t n j h v) (hk : ShardKept n j h t u) : Flipped s u n j h v := by
  obtain ⟨hlive, hret, hno⟩ := hf
  exact ⟨(hk.verState _).trans hlive, (hk.verState _).trans hret, hk.epochNo.trans hno⟩

/-- What a flip leaves. -/
theorem flipShard_flips {v : Nat} (hv : s.verIn n j h 1 = some v) : Flipped s (s.flipShard j n h) n j h v
    ∧ ((s.flipShard j n h).shard n j h).late = none ∧ (s.flipShard j n h).mem = s.mem ∧ (s.flipShard j n h).slots = s.slots := by
  have hk := flipShard_kept hv
  obtain ⟨hmem, hslots⟩ := turned_rest (s := s) (n := n) (j := j) (h := h) v
  refine ⟨(turnedShard_flipped v).kept hk, ?_, hk.mem.trans ((setShard_mem _ _).trans hmem),
    hk.slots.trans ((setShard_slots _ _).trans hslots)⟩
  rw [hk.shardOf, turnedShard, setShard_shard]

end

section
variable {s : State} {n j h v f : Nat}

/-- The slot's flip is done with. -/
def flipDue (s : State) (j : Nat) : State := s.setSlot j { s.slot j with flipDone := true }

theorem execEpochFlip_due (hlap : (s.slot j).flipLap = some f) (hdone : (s.slot j).flipDone = false) (hrun : s.slotState j = 2) (hturn : s.turn 4 = true)
    (hf : f ≤ s.now) (hused : s.usedShards j = [(n, h)]) : execEpochFlip j s = .next ((flipDue s j).flipOne j f (s.now == f) (n, h)).latch := by
  unfold execEpochFlip
  rw [hlap]
  dsimp only
  rw [if_neg (by simp [hdone, hrun, hturn]; omega), hused]
  rfl

theorem flipDue_done : ((flipDue s j).slot j).flipDone = true := congrArg SlotSt.flipDone (State.setSlot_slot_self s j _)

/-- The slot's flip changes no shard. -/
theorem flipDue_canFlip : (flipDue s j).canFlip j n h = s.canFlip j n h := by
  have hprog : ((flipDue s j).slot j).prog = (s.slot j).prog := by
    rw [flipDue, State.setSlot_slot_self]
  have hdesc (k : Nat) : (flipDue s j).descOf j k = s.descOf j k := by
    unfold State.descOf
    rw [hprog]
  have hdqs : (flipDue s j).dqsOf j = s.dqsOf j := by
    unfold State.dqsOf
    simp only [hdesc]
    rfl
  unfold State.canFlip
  rw [hdqs]
  rfl

theorem slot_of_slots {t : State} (ht : t.slots = s.slots) : t.slot j = s.slot j := congrArg (fun l => sget _ l j) ht

theorem epochFlip_flips (hv : s.verIn n j h 1 = some v) (hlate : (s.shard n j h).late = none) (hcan : s.canFlip j n h = true) :
    ∃ t, (flipDue s j).flipOne j f true (n, h) = t ∧ Flipped s t n j h v ∧ (t.slot j).flipDone = true ∧ t.mem = s.mem := by
  obtain ⟨hflip, -, hmem, hslots⟩ := flipShard_flips (s := flipDue s j) hv
  refine ⟨(flipDue s j).flipShard j n h, ?_, hflip, ?_, hmem⟩
  · unfold State.flipOne
    dsimp only
    rw [if_pos (by rw [flipDue_canFlip, hcan]; rfl), show (flipDue s j).shard n j h = s.shard n j h from rfl, hlate]
  · rw [slot_of_slots hslots]
    exact flipDue_done

theorem epochFlip_late {onTime : Bool} (hv : s.verIn n j h 1 = some v) (hlate : (s.shard n j h).late = none) (hnot : (onTime && s.canFlip j n h) = false) :
    ∃ t, (flipDue s j).flipOne j f onTime (n, h) = t ∧ (t.shard n j h).late = some f ∧ (t.slot j).flipDone = true
      ∧ (∀ w, t.verState n j h w = s.verState n j h w) ∧ t.mem = s.mem := by
  refine ⟨(flipDue s j).setShard n j h { s.shard n j h with late := some f }, ?_, ?_, ?_, fun w => ?_, rfl⟩
  · unfold State.flipOne
    dsimp only
    rw [if_neg (by rw [flipDue_canFlip, hnot]; decide), if_pos, show (flipDue s j).shard n j h = s.shard n j h from rfl, hlate]
    · rfl
    · rw [show (flipDue s j).verIn n j h 1 = s.verIn n j h 1 from rfl, hv]
      rfl
  · rw [setShard_shard]
  · exact flipDue_done
  · exact setShard_verState _ _ _

theorem bits_lateRecord (no late : Nat) (hh : h < 256) :
    bits (place 7 0 h ||| place 39 8 no ||| place 71 40 late) 7 0 = h
      ∧ bits (place 7 0 h ||| place 39 8 no ||| place 71 40 late) 71 40 = late % 2 ^ 32 := by
  simp only [bits_or]
  rw [bits_place_self, bits_place_above _ _ _ _ _ (by decide), bits_place_above _ _ _ _ _ (by decide), bits_place_below _ _ _ _ _ (by decide),
    bits_place_below _ _ _ _ _ (by decide), bits_place_self]
  exact ⟨by simpa using Nat.mod_eq_of_lt hh, by simp⟩

theorem execEpochFlipLate_flips (hcan : s.canFlip j n h = true) (hlate : (s.shard n j h).late = some f) (hf : f < s.now) (hturn : s.turn 4 = true) :
    execEpochFlipLate j n h s = .next (State.emit (s.flipShard j n h) ⟨1, 0x0C08, srcOf n j, s.jobOf j,
      place 7 0 h ||| place 39 8 ((s.flipShard j n h).rd (F.CD_EPOCH_EPOCH n j h)) ||| place 71 40 (s.now - f)⟩).latch := by
  unfold execEpochFlipLate
  rw [hlate]
  dsimp only
  rw [if_pos (by simp [hcan, hf, hturn])]
  rfl

theorem execEpochRelease_frees (hv : s.verIn n j h 3 = some v) (hmark : (s.shard n j h).markSince = true) (hhold : (s.shard n j h).holders = [])
    (hrefs : s.refsTo n j h v = 0) : ∃ t, execEpochRelease j n h s = .next t ∧ t.verState n j h v = s.rd (F.CD_EPOCH_WAIT n j h)
      ∧ t.verState n j h (1 - v) = s.verState n j h (1 - v) ∧ t.rd (F.CD_EPOCH_WAIT n j h) = 0 ∧ t.mem = s.mem := by
  have hside : v = 0 ↔ 1 - v ≠ 0 := by omega
  have hbit : s.rd (F.CD_EPOCH_WAIT n j h) < 2 := bits_lt _ _ _
  unfold execEpochRelease
  rw [hv]
  dsimp only
  rw [if_neg (by simp [hmark, hhold, hrefs])]
  by_cases hwait : s.rd (F.CD_EPOCH_WAIT n j h) = 1
  · rw [if_pos hwait]
    have hk : ShardKept n j h ((s.setVer n j h v 1).wr (F.CD_EPOCH_WAIT n j h) 0) (((s.setVer n j h v 1).wr (F.CD_EPOCH_WAIT n j h) 0).wakeDqs j n h v true) :=
      .wakeDqs .refl
    refine ⟨_, rfl, (hk.verState _).trans ?_, (hk.verState _).trans ?_, (hk.epoch 59 59 (by decide) (.inl (by decide))).trans ?_,
      hk.mem.trans (setVer_rest v 1).1⟩
    · exact (verState_wr (by simp [F.CD_EPOCH_WAIT]) _).trans ((setVer_self _ _).trans hwait.symm)
    · exact (verState_wr (by simp [F.CD_EPOCH_WAIT]) _).trans (setVer_other hside)
    · exact State.rd_wr_self _ (F.CD_EPOCH_WAIT n j h) _ (by simp [F.CD_EPOCH_WAIT])
  · rw [if_neg hwait]
    have hzero : s.rd (F.CD_EPOCH_WAIT n j h) = 0 := by omega
    exact ⟨_, rfl, (setVer_self _ _).trans hzero.symm, setVer_other hside, (setVer_below (by simp [F.CD_EPOCH_WAIT])).trans hzero, (setVer_rest v 0).1⟩

end

/-- Settles O35: a flip writes the two version states and the epoch number, and what it wakes changes no more of the shard's register than the reference
count. -/
theorem epochFlips : Obligations.EpochFlips := by
  intro s j n h v hj hn hh hv
  refine ⟨fun f hver hused hlate hlap hdone hrun hturn => ⟨fun hcan hf => ?_, fun hcase => ?_⟩, fun f hver hcan hlate hf hturn => ?_,
    fun hver hmark hhold hrefs => execEpochRelease_frees hver hmark hhold hrefs⟩
  · obtain ⟨t, ht, hflip, hdone', hmem⟩ := epochFlip_flips (f := f) hver hlate hcan
    have hexec := execEpochFlip_due hlap hdone hrun hturn (by omega) hused
    rw [show (s.now == f) = true by simp [hf], ht] at hexec
    exact ⟨t.latch, hexec, hflip, hdone', hmem, rfl⟩
  · obtain ⟨t, ht, hlate', hdone', hver', hmem⟩ := epochFlip_late (f := f) (onTime := s.now == f) hver hlate (by
      rcases hcase with hpast | ⟨-, hnot⟩
      · simp; omega
      · simp [hnot])
    have hexec := execEpochFlip_due hlap hdone hrun hturn (by omega) hused
    rw [ht] at hexec
    exact ⟨t.latch, hexec, hlate', hdone', hver', hmem⟩
  · obtain ⟨hflip, hnone, hmem, -⟩ := flipShard_flips hver
    obtain ⟨hshard, hlaps⟩ := bits_lateRecord ((s.flipShard j n h).rd (F.CD_EPOCH_EPOCH n j h)) (s.now - f) hh
    exact ⟨_, _, execEpochFlipLate_flips hcan hlate hf hturn, hflip, rfl, rfl, hshard, hlaps, hnone, hmem⟩

/-! Self-test windows (R730 to R735). -/

/-- The registers of a die's partitions and its enable map. -/
def partReg (o : Nat) : Prop := 0x1000000 ≤ o ∧ (o - 0x1000000) % 0x100000 < 0x1000

/-- Only registers of `P` differ. -/
structure RegsIn (P : Nat → Prop) (s t : State) : Prop where
  rest : { t with regs := s.regs } = s
  rd : ∀ f : Fld, ¬ P f.off → t.rd f = s.rd f

namespace RegsIn
variable {P : Nat → Prop} {s t : State}

protected theorem refl : RegsIn P s s := ⟨rfl, fun _ _ => rfl⟩

theorem wr {f : Fld} {v : Nat} (h : RegsIn P s t) (hf : P f.off) : RegsIn P s (t.wr f v) :=
  ⟨h.rest, fun g hg => (State.rd_wr_ne _ _ _ _ (by rintro he; exact hg (he ▸ hf))).trans (h.rd g hg)⟩

theorem foldl {α : Type} {f : State → α → State} {l : List α} (hf : ∀ t, ∀ a ∈ l, RegsIn P s t → RegsIn P s (f t a)) (h : RegsIn P s t) :
    RegsIn P s (l.foldl f t) := by
  induction l generalizing t with
  | nil => exact h
  | cons a l ih => exact ih (fun u b hb => hf u b (.tail _ hb)) (hf t a (.head _) h)

theorem tests (h : RegsIn P s t) : t.tests = s.tests := by
  have := congrArg State.tests h.rest
  exact this

theorem arms (h : RegsIn P s t) : t.arms = s.arms := by
  have := congrArg State.arms h.rest
  exact this

theorem mem (h : RegsIn P s t) : t.mem = s.mem := by
  have := congrArg State.mem h.rest
  exact this

theorem clusters (h : RegsIn P s t) : t.clusters = s.clusters := by
  have := congrArg State.clusters h.rest
  exact this

end RegsIn

/-- Showing a partition writes its own registers and its die's enable map. -/
theorem showPart_regs (s : State) (p : Nat) : RegsIn partReg s (s.showPart p) := by
  have hpart : partReg (Reg.CD_PART (p / 4) (p % 4)) := by
    simp only [partReg, Reg.CD_PART]
    omega
  have hmap (w : Nat) (hw : w < 8) : partReg (Reg.CD_ENABLE (p / 4) w) := by
    simp only [partReg, Reg.CD_ENABLE]
    omega
  refine .foldl (fun t c hc ht => ht.wr (hmap _ ?_)) (.wr (.wr (.wr .refl hpart) hpart) hpart)
  obtain ⟨i, hi, rfl⟩ := List.mem_map.mp hc
  rw [List.mem_range] at hi
  change (72 * (p % 4) + i) / 64 < 8
  omega

/-- A cluster's status is none of them. -/
theorem clStatus_not_part {cl : ClusterId} (hwf : cl.wf = true) : ¬ partReg (Reg.CL_STATUS cl.die cl.idx) := by
  rw [ClusterId.wf, Bool.and_eq_true, decide_eq_true_eq, decide_eq_true_eq] at hwf
  obtain ⟨hdie, hidx⟩ := hwf
  simp only [partReg, Reg.CL_STATUS]
  omega

theorem low_not_part {o : Nat} (h : o < 0x1000000) : ¬ partReg o := fun hp => by
  have := hp.1
  omega

section
variable {s : State} {cl : ClusterId}

theorem due_none {kind who : Nat} (h : ∀ a ∈ s.arms, a.kind ≠ kind) : s.due kind who = none := by
  unfold State.due
  rw [List.find?_eq_none]
  intro a ha
  simp [h a ha]

theorem testable_reserve (hwf : cl.wf = true) (htests : s.tests = []) (hrole : s.role cl = 1) : s.testable 1 cl.die cl.idx = true := by
  rw [ClusterId.wf, Bool.and_eq_true, decide_eq_true_eq, decide_eq_true_eq] at hwf
  unfold State.testable
  rw [htests]
  dsimp only
  simp [hwf, hrole]

theorem testable_port {d u : Nat} (hd : d < 4) (hu : u < 13) (htests : s.tests = []) (hport : s.portState (13 * d + u) = 10) :
    s.testable 2 (10 + d) u = true := by
  unfold State.testable
  rw [htests]
  simp [show 10 + d < 14 by omega, hu, hport]

theorem armTest_accepted {kind who lap : Nat} (h : s.armReason lap true = none) : s.armTest kind who lap = (s.addArm ⟨kind, who, lap, false⟩, true) := by
  unfold State.armTest
  rw [h]

theorem execSelftestWindowOpen_arms {kind die unit : Nat} (hstop : s.stopped = false) (hnone : ∀ a ∈ s.arms, a.kind ≠ 5)
    (hable : s.testable kind die unit = true) (harm : s.armReason (s.now + 16) true = none) :
    execSelftestWindowOpen kind die unit s = .next (s.addArm ⟨5, testWho kind die unit, s.now + 16, false⟩) := by
  unfold execSelftestWindowOpen
  dsimp only
  rw [if_neg (by simp [hstop]), due_none hnone]
  dsimp only
  rw [if_neg, armTest_accepted harm]
  · rw [Bool.or_eq_true, List.any_eq_true]
    rintro (⟨a, ha, hkind⟩ | hnot)
    · simp [hnone a ha] at hkind
    · simp [hable] at hnot

/-- The window's opening has been applied, and its end is armed. -/
def windowArmed (s : State) (kind die unit : Nat) : State :=
  (s.dropArms 5 (testWho kind die unit)).addArm ⟨6, testWho kind die unit, s.now + testLaps kind, false⟩

theorem execSelftestWindowOpen_opens {kind die unit laps : Nat} (hstop : s.stopped = false) (hdue : (s.due 5 (testWho kind die unit)).isSome = true)
    (hturn : s.turn 7 = true) (hable : s.testable kind die unit = true)
    (hlaps : testLaps kind = laps) (harm : (s.dropArms 5 (testWho kind die unit)).armReason (s.now + laps) true = none) :
    execSelftestWindowOpen kind die unit s = .next ((windowArmed s kind die unit).openTest kind die unit).latch := by
  obtain ⟨a, ha⟩ := Option.isSome_iff_exists.mp hdue
  rw [← hlaps] at harm
  unfold execSelftestWindowOpen
  dsimp only
  rw [if_neg (by simp [hstop]), ha]
  dsimp only
  rw [if_neg (by simp [hturn]), if_neg (by simp [hable]), armTest_accepted harm]
  rfl

theorem windowArmed_arm {kind laps : Nat} (die unit : Nat) (hlaps : testLaps kind = laps) :
    ⟨6, testWho kind die unit, s.now + laps, false⟩ ∈ (windowArmed s kind die unit).arms := by
  rw [← hlaps]
  exact List.mem_append_right _ (List.mem_singleton_self _)

/-- A reserve cluster under test. -/
def underTest (s : State) (cl : ClusterId) : State :=
  ({ windowArmed s 1 cl.die cl.idx with tests := s.tests ++ [⟨1, cl.die, cl.idx, s.role cl⟩] } : State).wr (F.CL_STATUS_ROLE cl.die cl.idx) 2

theorem openTest_cluster : (windowArmed s 1 cl.die cl.idx).openTest 1 cl.die cl.idx = (underTest s cl).showPart (clPart cl) := rfl

theorem underTest_tests (htests : s.tests = []) (hrole : s.role cl = 1) : (underTest s cl).tests = [⟨1, cl.die, cl.idx, 1⟩] := by
  change s.tests ++ [⟨1, cl.die, cl.idx, s.role cl⟩] = _
  rw [htests, hrole]
  rfl

theorem underTest_role : (underTest s cl).role cl = 2 := State.rd_wr_self _ (F.CL_STATUS_ROLE cl.die cl.idx) _ (by simp [F.CL_STATUS_ROLE])

theorem underTest_arm : ⟨6, testWho 1 cl.die cl.idx, s.now + 1024, false⟩ ∈ (underTest s cl).arms := windowArmed_arm cl.die cl.idx rfl

theorem underTest_mem : (underTest s cl).mem = s.mem := rfl

/-- Showing the partition changes nothing of that. -/
theorem showPart_underTest (hwf : cl.wf = true) (htests : s.tests = []) (hrole : s.role cl = 1) :
    ∃ v : State, (underTest s cl).showPart (clPart cl) = v ∧ v.tests = [⟨1, cl.die, cl.idx, 1⟩] ∧ v.role cl = 2
      ∧ ⟨6, testWho 1 cl.die cl.idx, s.now + 1024, false⟩ ∈ v.arms ∧ v.mem = s.mem := by
  have hshown := showPart_regs (underTest s cl) (clPart cl)
  refine ⟨_, rfl, hshown.tests.trans (underTest_tests htests hrole), (hshown.rd _ (clStatus_not_part hwf)).trans underTest_role, ?_,
    hshown.mem.trans underTest_mem⟩
  rw [hshown.arms]
  exact underTest_arm

theorem clusterWindow_opens (hwf : cl.wf = true) (hstop : s.stopped = false) (htests : s.tests = []) (hrole : s.role cl = 1)
    (hdue : (s.due 5 (testWho 1 cl.die cl.idx)).isSome = true) (hturn : s.turn 7 = true)
    (harm : (s.dropArms 5 (testWho 1 cl.die cl.idx)).armReason (s.now + 1024) true = none) :
    ∃ t, execSelftestWindowOpen 1 cl.die cl.idx s = .next t ∧ t.tests = [⟨1, cl.die, cl.idx, 1⟩] ∧ t.role cl = 2
      ∧ ⟨6, testWho 1 cl.die cl.idx, s.now + 1024, false⟩ ∈ t.arms ∧ t.latched = t.regs ∧ t.mem = s.mem := by
  obtain ⟨v, hv, htests', hrole', harm', hmem'⟩ := showPart_underTest hwf htests hrole
  have hexec := execSelftestWindowOpen_opens hstop hdue hturn (testable_reserve hwf htests hrole) (laps := 1024) rfl harm
  rw [openTest_cluster, hv] at hexec
  exact ⟨v.latch, hexec, htests', hrole', harm', rfl, hmem'⟩

/-! Reserve ports. -/

/-- A port that was not UP turns to a state other than UP. -/
theorem setPortState_idle {p new : Nat} (hold : s.portState p ≠ 7) (hnew : new ≠ 7) :
    s.setPortState p new = (s.wr (F.ACM_PORT_STAT_STATE p) new).showPorts := by
  unfold State.setPortState
  dsimp only
  rw [if_neg (by simp [hold]), if_neg hnew]

theorem showPorts_portState (p : Nat) : s.showPorts.portState p = s.portState p := by
  have hne : (F.ACM_PORT_STAT_STATE p).off ≠ Reg.ACM_ID := by
    simp only [F.ACM_PORT_STAT_STATE, Reg.ACM_PORT_STAT, Reg.ACM_ID]
    omega
  exact rd_wr_skip (rd_wr_skip rfl (by decide) (.inl hne)) (by decide) (.inl hne)

/-- A reserve port under test. -/
def portUnderTest (s : State) (die unit : Nat) : State := { windowArmed s 2 die unit with tests := s.tests ++ [⟨2, die, unit, 10⟩] }

theorem portUnderTest_state (die unit p : Nat) : (portUnderTest s die unit).portState p = s.portState p := rfl

/-- The port under test turns to TESTING. -/
def portTurned (s : State) (d u : Nat) : State := ((portUnderTest s (10 + d) u).wr (F.ACM_PORT_STAT_STATE (13 * d + u)) 11).showPorts

theorem openTest_port {d u : Nat} (hport : s.portState (13 * d + u) = 10) : (windowArmed s 2 (10 + d) u).openTest 2 (10 + d) u = portTurned s d u := by
  have hold : (portUnderTest s (10 + d) u).portState (13 * d + u) ≠ 7 := by
    rw [portUnderTest_state, hport]
    decide
  have hunit : 13 * (10 + d - 10) + u = 13 * d + u := by omega
  refine Eq.trans ?_ (setPortState_idle hold (by decide))
  rw [← hunit]
  rfl

theorem portTurned_state (d u : Nat) : (portTurned s d u).portState (13 * d + u) = 11 :=
  (showPorts_portState _).trans (State.rd_wr_self _ _ _ (by simp [F.ACM_PORT_STAT_STATE]))

theorem portTurned_tests (d u : Nat) (htests : s.tests = []) : (portTurned s d u).tests = [⟨2, 10 + d, u, 10⟩] := by
  change s.tests ++ [⟨2, 10 + d, u, 10⟩] = _
  rw [htests]
  rfl

theorem portTurned_arm (d u : Nat) : ⟨6, testWho 2 (10 + d) u, s.now + 2048, false⟩ ∈ (portTurned s d u).arms := windowArmed_arm (10 + d) u rfl

theorem portWindow_opens {d u : Nat} (hstop : s.stopped = false) (htests : s.tests = []) (hd : d < 4) (hu : u < 13)
    (hport : s.portState (13 * d + u) = 10) (hdue : (s.due 5 (testWho 2 (10 + d) u)).isSome = true) (hturn : s.turn 7 = true)
    (harm : (s.dropArms 5 (testWho 2 (10 + d) u)).armReason (s.now + 2048) true = none) :
    ∃ t, execSelftestWindowOpen 2 (10 + d) u s = .next t ∧ t.tests = [⟨2, 10 + d, u, 10⟩] ∧ t.portState (13 * d + u) = 11
      ∧ ⟨6, testWho 2 (10 + d) u, s.now + 2048, false⟩ ∈ t.arms := by
  have hexec := execSelftestWindowOpen_opens hstop hdue hturn (testable_port hd hu htests hport) (laps := 2048) rfl harm
  obtain ⟨v, hv, htests', hstate, harm'⟩ : ∃ v : State, portTurned s d u = v ∧ v.tests = [⟨2, 10 + d, u, 10⟩] ∧ v.portState (13 * d + u) = 11
      ∧ ⟨6, testWho 2 (10 + d) u, s.now + 2048, false⟩ ∈ v.arms :=
    ⟨_, rfl, portTurned_tests d u htests, portTurned_state d u, portTurned_arm d u⟩
  rw [openTest_port hport, hv] at hexec
  exact ⟨v.latch, hexec, htests', hstate, harm'⟩

/-! The end of a cluster's window. -/

/-- The window's end has been applied, and the window is gone. -/
def windowEnded (s : State) (cl : ClusterId) : State := { s.dropArms 6 (testWho 1 cl.die cl.idx) with tests := [] }

theorem execSelftestWindowClose_ends {r : TestResult} (hstop : s.stopped = false) (htests : s.tests = [⟨1, cl.die, cl.idx, 1⟩])
    (hdue : (s.due 6 (testWho 1 cl.die cl.idx)).isSome = true) (hturn : s.turn 7 = true) :
    execSelftestWindowClose 1 cl.die cl.idx r s = .next ((windowEnded s cl).testResult ⟨1, cl.die, cl.idx, 1⟩ r).latch := by
  obtain ⟨a, ha⟩ := Option.isSome_iff_exists.mp hdue
  have hfind : s.tests.find? (fun x => x.kind == 1 && x.die == cl.die && x.unit == cl.idx) = some ⟨1, cl.die, cl.idx, 1⟩ := by
    rw [htests]
    simp
  have hgone : s.tests.filter (fun y => y ≠ ⟨1, cl.die, cl.idx, 1⟩) = [] := by
    rw [htests]
    simp
  unfold execSelftestWindowClose
  dsimp only
  rw [ha]
  dsimp only
  rw [if_neg (by simp [hstop, hturn]), hfind]
  dsimp only
  rw [show (s.dropArms 6 (testWho 1 cl.die cl.idx)).tests = s.tests from rfl, hgone]
  rfl

/-- A result is counted and the cluster has its role of before the window. -/
def backInRole (s : State) (cl : ClusterId) (f : Fld) : State := (s.inc f).wr (F.CL_STATUS_ROLE cl.die cl.idx) 1

/-- The lap and the outcome of the cluster's last test. -/
def lastTested (s : State) (cl : ClusterId) (lap : Nat) (passed : Bool) : State :=
  { s.setCluster cl { s.cluster cl with tested := passed, lastTest := lap } with deferred := s.deferred.filter (· ≠ clKey cl) }

theorem backInRole_role (f : Fld) : (backInRole s cl f).role cl = 1 :=
  State.rd_wr_self _ (F.CL_STATUS_ROLE cl.die cl.idx) _ (by simp [F.CL_STATUS_ROLE])

theorem lastTested_rd (lap : Nat) (passed : Bool) (f : Fld) : (lastTested s cl lap passed).rd f = s.rd f := rfl

theorem lastTested_tested (lap : Nat) (passed : Bool) : ((lastTested s cl lap passed).cluster cl).tested = passed :=
  congrArg ClusterSt.tested (sget_sset_self (fun _ => ClusterSt.init) s.clusters (clKey cl) _)

theorem lastTested_tests (lap : Nat) (passed : Bool) : (lastTested s cl lap passed).tests = s.tests := rfl

theorem resTestCnt_ne (cl : ClusterId) : Reg.RES_TEST_CNT ≠ Reg.CL_STATUS cl.die cl.idx := by
  simp only [Reg.RES_TEST_CNT, Reg.CL_STATUS]
  omega

theorem backInRole_count {f : Fld} (hf : f.off = Reg.RES_TEST_CNT) (hhi : f.hi < 64) : (backInRole s cl f).rd f = min (s.rd f + 1) (2 ^ f.width - 1) :=
  (State.rd_wr_ne _ _ _ _ (by rw [hf]; exact resTestCnt_ne cl)).trans (State.rd_inc_self _ _ hhi)

/-- A cluster's fault by its test is recorded. -/
def faultShown (s : State) (cl : ClusterId) : State :=
  ((s.wr (F.CL_FAULT_CODE cl.die cl.idx) 0x0C20).wr (F.CL_FAULT_CAUSE cl.die cl.idx) 5).inc (F.CD_ECC_FAULTS cl.die)

/-- CLUSTER_FAULT as such a fault is recorded. -/
def faultEv (s : State) (cl : ClusterId) : Ev := ⟨1, 0x0C20, srcOf cl.die cl.idx, none, place 7 0 5 ||| place 35 29 (s.logical cl)⟩

/-- A cluster that was in service keeps the index that it loses. -/
def lostIndex (s : State) (cl : ClusterId) : State := if s.inService cl then s.setCluster cl { s.cluster cl with lostIdx := s.logical cl } else s

/-- The cluster is FAILED and has no logical index. -/
def outOfUse (s : State) (cl : ClusterId) : State := (s.wr (F.CL_STATUS_ROLE cl.die cl.idx) 3).wr (F.CL_STATUS_LOGICAL cl.die cl.idx) 127

/-- What the cluster's result does with the role that it has now. -/
def resultTaken (s : State) (cl : ClusterId) (passed : Bool) : State :=
  if passed || s.role cl = 3 then s.showPart (clPart cl)
  else (outOfUse (lostIndex ((faultShown s cl).emit (faultEv (faultShown s cl) cl)) cl) cl).partCheck (clPart cl)

theorem testResult_cluster (r : TestResult) : s.testResult ⟨1, cl.die, cl.idx, 1⟩ r =
    (resultTaken (lastTested (if (s.inc (if r.passed then F.RES_TEST_CNT_PASSED else F.RES_TEST_CNT_FAILED)).role cl = 2
      then backInRole s cl (if r.passed then F.RES_TEST_CNT_PASSED else F.RES_TEST_CNT_FAILED)
      else s.inc (if r.passed then F.RES_TEST_CNT_PASSED else F.RES_TEST_CNT_FAILED)) cl s.now r.passed) cl r.passed).emit
      (testRecord 1 cl.die cl.idx (!r.passed) r.pattern) := rfl

theorem testResult_under {r : TestResult} (hrole : s.role cl = 2) : s.testResult ⟨1, cl.die, cl.idx, 1⟩ r =
    (resultTaken (lastTested (backInRole s cl (if r.passed then F.RES_TEST_CNT_PASSED else F.RES_TEST_CNT_FAILED)) cl s.now r.passed) cl r.passed).emit
      (testRecord 1 cl.die cl.idx (!r.passed) r.pattern) := by
  have hrole' : (s.inc (if r.passed then F.RES_TEST_CNT_PASSED else F.RES_TEST_CNT_FAILED)).role cl = 2 := by
    split
    · exact State.rd_inc_skip hrole (by decide) (.inl (resTestCnt_ne cl).symm)
    · exact State.rd_inc_skip hrole (by decide) (.inl (resTestCnt_ne cl).symm)
  rw [testResult_cluster, if_pos hrole']

/-- The status of a cluster above its PC, and the counters of tests above their low half. -/
theorem evKept_status (cl : ClusterId) {hi lo : Nat} (hhi : hi < 64) (hlo : 32 ≤ lo) : EvKept ⟨Reg.CL_STATUS cl.die cl.idx, hi, lo⟩ := by
  refine ⟨hhi, .inr ⟨?_, hlo⟩⟩
  simp only [Reg.CL_STATUS]
  omega

theorem Records.tests_eq {s t : State} (h : Records s t) : t.tests = s.tests := by
  have := congrArg State.tests h.same
  exact this

theorem partCheck_rd (p : Nat) {f : Fld} (hf : EvKept f) (hp : ¬ partReg f.off) : (s.partCheck p).rd f = s.rd f := by
  unfold State.partCheck
  dsimp only
  split
  · exact (State.emit_rd _ _ hf).trans ((showPart_regs s p).rd f hp)
  · exact (showPart_regs s p).rd f hp

theorem partCheck_tests (p : Nat) : (s.partCheck p).tests = s.tests := by
  unfold State.partCheck
  dsimp only
  split
  · exact (Records.refl.emit).tests_eq.trans (showPart_regs s p).tests
  · exact (showPart_regs s p).tests

theorem outOfUse_role : (outOfUse s cl).role cl = 3 :=
  rd_wr_skip (State.rd_wr_self _ (F.CL_STATUS_ROLE cl.die cl.idx) _ (by simp [F.CL_STATUS_ROLE])) (by simp [F.CL_STATUS_LOGICAL])
    (.inr (.inr (by simp [F.CL_STATUS_LOGICAL, F.CL_STATUS_ROLE])))

theorem outOfUse_logical : (outOfUse s cl).logical cl = 127 :=
  State.rd_wr_self _ (F.CL_STATUS_LOGICAL cl.die cl.idx) _ (by simp [F.CL_STATUS_LOGICAL])

theorem lostIndex_rd (f : Fld) : (lostIndex s cl).rd f = s.rd f := by
  unfold lostIndex
  split <;> rfl

theorem lostIndex_tests : (lostIndex s cl).tests = s.tests := by
  unfold lostIndex
  split <;> rfl

/-- A counter of tests keeps its value while the fault is recorded. -/
theorem faultShown_count {f : Fld} (hf : f.off = Reg.RES_TEST_CNT) : (faultShown s cl).rd f = s.rd f := by
  have hfault : f.off ≠ Reg.CL_FAULT cl.die cl.idx := by
    rw [hf]
    simp only [Reg.RES_TEST_CNT, Reg.CL_FAULT]
    omega
  have hecc : f.off ≠ Reg.CD_ECC cl.die := by
    rw [hf]
    simp only [Reg.RES_TEST_CNT, Reg.CD_ECC]
    omega
  exact State.rd_inc_skip (rd_wr_skip (rd_wr_skip rfl (by simp [F.CL_FAULT_CODE]) (.inl hfault)) (by simp [F.CL_FAULT_CAUSE]) (.inl hfault))
    (by simp [F.CD_ECC_FAULTS]) (.inl hecc)

/-- What a result leaves once it is taken. -/
theorem resultTaken_passed (hwf : cl.wf = true) (lap : Nat) :
    ∃ u : State, resultTaken (lastTested (backInRole s cl F.RES_TEST_CNT_PASSED) cl lap true) cl true = u ∧ u.role cl = 1 ∧ u.tests = s.tests
      ∧ (u.cluster cl).tested = true ∧ u.rd F.RES_TEST_CNT_PASSED = min (s.rd F.RES_TEST_CNT_PASSED + 1) 65535 := by
  have hshown := showPart_regs (lastTested (backInRole s cl F.RES_TEST_CNT_PASSED) cl lap true) (clPart cl)
  refine ⟨_, rfl, ?_, ?_, ?_, ?_⟩
  · exact (hshown.rd _ (clStatus_not_part hwf)).trans ((lastTested_rd _ _ _).trans (backInRole_role _))
  · exact hshown.tests.trans (lastTested_tests _ _)
  · exact (congrArg (fun l => (sget (fun _ => ClusterSt.init) l (clKey cl)).tested) hshown.clusters).trans (lastTested_tested _ _)
  · exact (hshown.rd _ (low_not_part (by decide))).trans ((lastTested_rd _ _ _).trans (backInRole_count rfl (by decide)))

theorem resultTaken_failed (hwf : cl.wf = true) (lap : Nat) :
    ∃ u : State, resultTaken (lastTested (backInRole s cl F.RES_TEST_CNT_FAILED) cl lap false) cl false = u ∧ u.role cl = 3 ∧ u.logical cl = 127
      ∧ u.tests = s.tests ∧ u.rd F.RES_TEST_CNT_FAILED = min (s.rd F.RES_TEST_CNT_FAILED + 1) 65535 := by
  have hrole : (lastTested (backInRole s cl F.RES_TEST_CNT_FAILED) cl lap false).role cl = 1 := (lastTested_rd _ _ _).trans (backInRole_role _)
  have hcount : (lastTested (backInRole s cl F.RES_TEST_CNT_FAILED) cl lap false).rd F.RES_TEST_CNT_FAILED = min (s.rd F.RES_TEST_CNT_FAILED + 1) 65535 :=
    (lastTested_rd _ _ _).trans (backInRole_count rfl (by decide))
  have htests : (lastTested (backInRole s cl F.RES_TEST_CNT_FAILED) cl lap false).tests = s.tests := lastTested_tests _ _
  generalize lastTested (backInRole s cl F.RES_TEST_CNT_FAILED) cl lap false = b at *
  refine ⟨_, rfl, ?_⟩
  unfold resultTaken
  rw [if_neg (by simp [hrole])]
  refine ⟨?_, ?_, ?_, ?_⟩
  · exact (partCheck_rd _ (evKept_status cl (by decide) (by decide)) (clStatus_not_part hwf)).trans outOfUse_role
  · exact (partCheck_rd _ (evKept_status cl (by decide) (by decide)) (clStatus_not_part hwf)).trans outOfUse_logical
  · exact (partCheck_tests _).trans (lostIndex_tests.trans ((Records.refl.emit).tests_eq.trans htests))
  · have hkept : EvKept F.RES_TEST_CNT_FAILED := ⟨by decide, .inr ⟨by decide, by decide⟩⟩
    refine (partCheck_rd _ hkept (low_not_part (by decide))).trans ?_
    refine rd_wr_skip (rd_wr_skip ((lostIndex_rd _).trans ((State.emit_rd _ _ hkept).trans ((faultShown_count rfl).trans hcount)))
      (by simp [F.CL_STATUS_ROLE]) (.inl (resTestCnt_ne cl))) (by simp [F.CL_STATUS_LOGICAL]) (.inl (resTestCnt_ne cl))

theorem windowEnded_role (hrole : s.role cl = 2) : (windowEnded s cl).role cl = 2 := hrole

theorem selftestWindowClose_passed {r : TestResult} (hwf : cl.wf = true) (hstop : s.stopped = false) (htests : s.tests = [⟨1, cl.die, cl.idx, 1⟩])
    (hrole : s.role cl = 2) (hdue : (s.due 6 (testWho 1 cl.die cl.idx)).isSome = true) (hturn : s.turn 7 = true) (hpass : r.passed = true) :
    ∃ u e, execSelftestWindowClose 1 cl.die cl.idx r s = .next ((State.emit u e).latch) ∧ e.sev = 0 ∧ e.code = 0x0B08
      ∧ u.role cl = 1 ∧ u.tests = [] ∧ (u.cluster cl).tested = true ∧ u.rd F.RES_TEST_CNT_PASSED = min (s.rd F.RES_TEST_CNT_PASSED + 1) 65535 := by
  have hexec := execSelftestWindowClose_ends (r := r) hstop htests hdue hturn
  rw [testResult_under (windowEnded_role hrole), hpass, if_pos rfl] at hexec
  obtain ⟨u, hu, hrole', htests', htested, hcount⟩ := resultTaken_passed (s := windowEnded s cl) hwf (windowEnded s cl).now
  rw [hu] at hexec
  exact ⟨u, _, hexec, rfl, rfl, hrole', htests', htested, hcount⟩

theorem selftestWindowClose_failed {r : TestResult} (hwf : cl.wf = true) (hstop : s.stopped = false) (htests : s.tests = [⟨1, cl.die, cl.idx, 1⟩])
    (hrole : s.role cl = 2) (hdue : (s.due 6 (testWho 1 cl.die cl.idx)).isSome = true) (hturn : s.turn 7 = true) (hfail : r.passed = false) :
    ∃ u e, execSelftestWindowClose 1 cl.die cl.idx r s = .next ((State.emit u e).latch) ∧ e.sev = 1 ∧ e.code = 0x0B08
      ∧ u.role cl = 3 ∧ u.logical cl = 127 ∧ u.tests = [] ∧ u.rd F.RES_TEST_CNT_FAILED = min (s.rd F.RES_TEST_CNT_FAILED + 1) 65535 := by
  have hexec := execSelftestWindowClose_ends (r := r) hstop htests hdue hturn
  rw [testResult_under (windowEnded_role hrole), hfail, if_neg (by decide)] at hexec
  obtain ⟨u, hu, hrole', hlogical, htests', hcount⟩ := resultTaken_failed (s := windowEnded s cl) hwf (windowEnded s cl).now
  rw [hu] at hexec
  exact ⟨u, _, hexec, rfl, rfl, hrole', hlogical, htests', hcount⟩

/-! Clusters that have gone untested. -/

/-- A cluster is counted as deferred. -/
def testDeferred (s : State) (cl : ClusterId) : State := ({ s with deferred := s.deferred ++ [clKey cl] } : State).inc F.RES_TEST_CNT_DEFERRED

theorem execSelftestDeferred_defers (hrole : s.role cl = 0) (hheld : (s.slotOfCl cl).isSome = true) (hnew : s.deferred.contains (clKey cl) = false)
    (hdue : (s.cluster cl).lastTest + 4096 * (16 * s.rd F.RES_CFG_TEST_PERIOD) ≤ s.now) : execSelftestDeferred cl s = .next ((testDeferred s cl).emit
      ⟨1, 0x0B04, srcOf cl.die cl.idx, none, place 3 0 5 ||| place 8 4 (clPart cl) ||| place 17 9 cl.idx⟩) := by
  unfold execSelftestDeferred
  dsimp only
  exact if_pos (by simp [hrole, hheld, hdue]; simpa using hnew)

theorem testDeferred_regs : OnlyRegs [Reg.RES_TEST_CNT] { s with deferred := s.deferred ++ [clKey cl] } (testDeferred s cl) :=
  ⟨rfl, .wr (f := F.RES_TEST_CNT_DEFERRED) (.refl _) (by decide) _⟩

end

/-- Settles O57: a window's opening and its end are arms of the Resilience block; what a result does to the cluster is written before the record of the
test, and a partition that loses its cluster changes its own registers. -/
theorem selfTests : Obligations.SelfTests := by
  intro s cl hwf
  refine ⟨fun hstop htests => ⟨fun hrole hnone harm => ?_, fun hrole hopens harm => ?_, fun d u hd hu hport hopens harm => ?_⟩,
    fun r hstop htests hrole hdue hturn => ⟨fun hpass => ?_, fun hfail => ?_⟩, fun hrole hheld hnew hdue => ?_⟩
  · exact execSelftestWindowOpen_arms hstop hnone (testable_reserve hwf htests hrole) harm
  · exact clusterWindow_opens hwf hstop htests hrole hopens.1 hopens.2 harm
  · exact portWindow_opens hstop htests hd hu hport hopens.1 hopens.2 harm
  · exact selftestWindowClose_passed hwf hstop htests hrole hdue hturn hpass
  · exact selftestWindowClose_failed hwf hstop htests hrole hdue hturn hfail
  · exact ⟨testDeferred s cl, _, execSelftestDeferred_defers hrole hheld hnew hdue, rfl, rfl, rfl, State.rd_inc_self _ _ (by decide), testDeferred_regs⟩

/-! Submission queues (R517, R521, R526, R529). -/

section
variable {s : State} {q : Nat}

theorem setQueue_queue (v : QueueSt) (k : Nat) : (s.setQueue q v).queue k = if k = q then v else s.queue k := by
  have := sget_sset (fun _ => QueueSt.init) s.queues q k v
  exact this

theorem setQueue_self (v : QueueSt) : (s.setQueue q v).queue q = v := by rw [setQueue_queue, if_pos rfl]

theorem setQueue_others (v : QueueSt) : SameQueues q s (s.setQueue q v) := fun k hk => by rw [setQueue_queue, if_neg hk]

theorem setQueue_only (v : QueueSt) : { s.setQueue q v with regs := s.regs, queues := s.queues } = s := rfl

theorem setQueue_regs (v : QueueSt) : SameRegs [Reg.SQ_STAT q] s (s.setQueue q v) := by
  unfold State.setQueue
  exact .wr (f := F.SQ_STAT_INFLIGHT q) (.wr (f := F.SQ_STAT_STATE q) (.of_regs (.refl s) rfl) (.head _) _) (.head _) _

/-- Of SQ_STAT a queue's setting writes the state and the count in flight. -/
theorem setQueue_rd (v : QueueSt) {f : Fld} (hf : f.off ≠ Reg.SQ_STAT q ∨ f.hi < 32 ∨ (44 < f.lo ∧ f.hi < 61)) : (s.setQueue q v).rd f = s.rd f := by
  unfold State.setQueue
  refine rd_wr_skip (rd_wr_skip (State.rd_of_regs s rfl f) (by simp [F.SQ_STAT_STATE]) ?_) (by simp [F.SQ_STAT_INFLIGHT]) ?_
  · rcases hf with hoff | hlow | ⟨-, hhi⟩
    · exact .inl hoff
    · exact .inr (.inl (by simp only [F.SQ_STAT_STATE]; omega))
    · exact .inr (.inl hhi)
  · rcases hf with hoff | hlow | ⟨hlo, -⟩
    · exact .inl hoff
    · exact .inr (.inl hlow)
    · exact .inr (.inr hlo)

theorem qState_of_regs {t : State} (v : QueueSt) (ht : t.regs = s.regs) (hen : s.rd (F.CPE_QRING_EN q) = 1) (hhalt : v.halted = true) : t.qState q v = 3 := by
  unfold State.qState
  rw [State.rd_of_regs s ht, if_neg (by rw [hen]; decide), if_pos hhalt]

/-! Doorbells. -/

theorem ringDoorbell_inside {val : Nat} (hen : s.rd (F.CPE_QRING_EN q) = 1) (hin : val % 65536 < s.qSize q) :
    s.ringDoorbell q val = s.setQueue q { s.queue q with tail := val % 65536 } := if_neg (by simp [hen]; omega)

theorem ringDoorbell_outside {val : Nat} (h : s.qSize q ≤ val % 65536 ∨ s.rd (F.CPE_QRING_EN q) = 0) :
    s.ringDoorbell q val = s.inc (F.SQ_CNT_DB_IGNORED q) := if_pos (by simpa using h.symm)

theorem execSqDoorbell_runs (hstop : s.stopped = false) (val : Word) : execSqDoorbell q val s = .next (s.ringDoorbell q val.toNat) :=
  if_neg (by simp [hstop])

theorem execSqOrderedDoorbell_free {core : Nat} {val : Word} (hstop : s.stopped = false) (hnone : s.odbs.any (fun x => x.core == core) = false)
    (hfree : s.odbWaits ⟨core, q, val.toNat, s.wrNo⟩ = false) : execSqOrderedDoorbell core q val s = .next (s.ringDoorbell q val.toNat) :=
  (if_neg (by simp [hstop])).trans (congrArg Host.Outcome.next (if_neg (by rw [hfree, hnone]; decide)))

theorem execSqOrderedDoorbell_held {core : Nat} {val : Word} (hstop : s.stopped = false) (hwait : s.odbWaits ⟨core, q, val.toNat, s.wrNo⟩ = true) :
    execSqOrderedDoorbell core q val s = .next { s with odbs := s.odbs ++ [⟨core, q, val.toNat, s.wrNo⟩] } :=
  (if_neg (by simp [hstop])).trans (congrArg Host.Outcome.next (if_pos (by rw [hwait]; rfl)))

/-! HALT and RESUME. -/

/-- A queue that has halted, before its record. -/
def queueHalted (s : State) (q reason : Nat) : State := (s.wr (F.SQ_STAT_REASON q) reason).setQueue q { s.queue q with halted := true }

theorem haltQueue_records (reason : Nat) : Records (queueHalted s q reason) (s.haltQueue q reason) := by
  unfold State.haltQueue State.queueIrq
  exact .ite (Records.refl.emit).irq Records.refl.emit

theorem Records.queues_eq {s t : State} (h : Records s t) : t.queues = s.queues := by
  have := congrArg State.queues h.same
  exact this

theorem evKept_sqStat {hi lo : Nat} (hhi : hi < 64) (hlo : 32 ≤ lo) : EvKept ⟨Reg.SQ_STAT q, hi, lo⟩ :=
  ⟨hhi, .inr ⟨by simp only [Reg.SQ_STAT]; omega, hlo⟩⟩

theorem queueHalted_reason {reason : Nat} (hr : reason < 16) : (queueHalted s q reason).rd (F.SQ_STAT_REASON q) = reason :=
  (setQueue_rd _ (.inr (.inr (by simp [F.SQ_STAT_REASON])))).trans
    ((State.rd_wr_self _ _ _ (by simp [F.SQ_STAT_REASON])).trans (Nat.mod_eq_of_lt hr))

theorem queueHalted_state {reason : Nat} (hen : s.rd (F.CPE_QRING_EN q) = 1) : (queueHalted s q reason).rd (F.SQ_STAT_STATE q) = 3 := by
  have hne : (F.CPE_QRING_EN q).off ≠ Reg.SQ_STAT q := by
    simp only [F.CPE_QRING_EN, Reg.CPE_QRING, Reg.SQ_STAT]
    omega
  have hen' : (s.wr (F.SQ_STAT_REASON q) reason).rd (F.CPE_QRING_EN q) = 1 := (State.rd_wr_ne _ _ _ _ hne).trans hen
  unfold queueHalted State.setQueue
  refine rd_wr_skip ((State.rd_wr_self _ _ _ (by simp [F.SQ_STAT_STATE])).trans ?_) (by simp [F.SQ_STAT_INFLIGHT])
    (.inr (.inr (by simp [F.SQ_STAT_INFLIGHT, F.SQ_STAT_STATE])))
  exact (congrArg (fun n => n % 8) (qState_of_regs { s.queue q with halted := true } rfl hen' rfl)).trans rfl

theorem sqHalt_halts (hen : s.rd (F.CPE_QRING_EN q) = 1) (hrun : (s.queue q).halted = false) : ∃ t, execSqHalt q s = .next t
    ∧ t.queue q = { s.queue q with halted := true } ∧ t.rd (F.SQ_STAT_REASON q) = 3 ∧ t.rd (F.SQ_STAT_STATE q) = 3 := by
  have hrec := haltQueue_records (s := s) (q := q) 3
  refine ⟨s.haltQueue q 3, if_pos (by simp [hen, hrun]), ?_, ?_, ?_⟩
  · exact (congrArg (fun l => sget (fun _ => QueueSt.init) l q) hrec.queues_eq).trans (setQueue_self _)
  · exact (hrec.rd _ (evKept_sqStat (by decide) (by decide))).trans (queueHalted_reason (by decide))
  · exact (hrec.rd _ (evKept_sqStat (by decide) (by decide))).trans (queueHalted_state hen)

/-- A queue that fetches again. -/
def queueResumed (s : State) (q : Nat) : State :=
  (s.wr (F.SQ_STAT_REASON q) 0).setQueue q { s.queue q with halted := false, rereads := 0, stale := false }

theorem execSqResume_resumes (hen : s.rd (F.CPE_QRING_EN q) = 1) (hhalt : (s.queue q).halted = true) : execSqResume q s = .next (queueResumed s q) :=
  if_pos (by simp [hen, hhalt])

theorem queueResumed_regs : SameRegs [Reg.SQ_STAT q] s (queueResumed s q) := fun o ho =>
  (setQueue_regs _ o ho).trans (State.wr_reg_ne _ (F.SQ_STAT_REASON q) _ (by simpa [F.SQ_STAT_REASON] using ho))

theorem queueResumed_reason : (queueResumed s q).rd (F.SQ_STAT_REASON q) = 0 :=
  (setQueue_rd _ (.inr (.inr (by simp [F.SQ_STAT_REASON])))).trans (State.rd_wr_self _ _ _ (by simp [F.SQ_STAT_REASON]))

/-! A queue whose EN is cleared. -/

/-- EN is a field that software writes. -/
theorem accMask_rw_qring (hq : q < 256) : (accMask .rw (Reg.CPE_QRING q)).getLsbD 63 = true := by
  have hall : ∀ k < 256, (accMask .rw (Reg.CPE_QRING k)).getLsbD 63 = true := by decide +kernel
  exact hall q hq

theorem mergeMask_bit (mask w v : Word) {i : Nat} (hmask : mask.getLsbD i = true) : (mergeMask mask w v).getLsbD i = v.getLsbD i := by
  simp [mergeMask, hmask]

/-- The queue starts its ring again, with the commands that engines have. -/
def queueReset (s : State) (q : Nat) (val : Word) : State :=
  (((((({ s with walks := s.walks.filter (fun w => !(w.q == q && !(((s.queue q).cmds.filter (fun c => decide (2 ≤ c.stage))).any
      (fun c => c.entry == w.entry)))) } : State).setReg (Reg.CPE_QRING q) (mergeMask (accMask .rw (Reg.CPE_QRING q)) (s.reg (Reg.CPE_QRING q)) val)).wr
    (F.SQ_STAT_HEAD q) 0).wr (F.SQ_STAT_SPHASE q) 1).wr (F.SQ_STAT_CPHASE q) 1).wr (F.SQ_STAT_REASON q) 0).setQueue q
    { QueueSt.init with cmds := (s.queue q).cmds.filter (fun c => decide (2 ≤ c.stage)), done := (s.queue q).done, gen := (s.queue q).gen + 1 }

theorem execQueueDisable_resets {val : Word} (hclear : bit val.toNat 63 = false) (hidle : s.qState q (s.queue q) = 1 ∨ s.qState q (s.queue q) = 3) :
    execQueueDisable q val s = .next (queueReset s q val) := by
  unfold execQueueDisable
  dsimp only
  rw [if_neg]
  · rfl
  · rw [hclear]
    rcases hidle with h | h <;> simp [h]

theorem queueReset_en {val : Word} (hq : q < 256) (hclear : bit val.toNat 63 = false) : (queueReset s q val).rd (F.CPE_QRING_EN q) = 0 := by
  have hne : (F.CPE_QRING_EN q).off ≠ Reg.SQ_STAT q := by
    simp only [F.CPE_QRING_EN, Reg.CPE_QRING, Reg.SQ_STAT]
    omega
  refine (setQueue_rd _ (.inl hne)).trans (rd_wr_skip (rd_wr_skip (rd_wr_skip (rd_wr_skip ?_ (by simp [F.SQ_STAT_HEAD]) (.inl hne))
    (by simp [F.SQ_STAT_SPHASE]) (.inl hne)) (by simp [F.SQ_STAT_CPHASE]) (.inl hne)) (by simp [F.SQ_STAT_REASON]) (.inl hne))
  rw [State.rd, show (F.CPE_QRING_EN q).off = Reg.CPE_QRING q from rfl, State.setReg_reg_self]
  have hbit : (mergeMask (accMask .rw (Reg.CPE_QRING q)) (s.reg (Reg.CPE_QRING q)) val).getLsbD 63 = false :=
    (mergeMask_bit _ _ _ (accMask_rw_qring hq)).trans hclear
  apply Nat.eq_of_testBit_eq
  intro i
  rw [testBit_bits, Nat.zero_testBit]
  by_cases hi : i = 0
  · subst hi
    rw [BitVec.getLsbD] at hbit
    simp [F.CPE_QRING_EN, hbit]
  · simp [F.CPE_QRING_EN, hi]

theorem queueReset_head (val : Word) : (queueReset s q val).rd (F.SQ_STAT_HEAD q) = 0 :=
  (setQueue_rd _ (.inr (.inl (by simp [F.SQ_STAT_HEAD])))).trans
    (rd_wr_skip (rd_wr_skip (rd_wr_skip (State.rd_wr_self _ _ _ (by simp [F.SQ_STAT_HEAD])) (by simp [F.SQ_STAT_SPHASE])
      (.inr (.inl (by simp [F.SQ_STAT_HEAD, F.SQ_STAT_SPHASE])))) (by simp [F.SQ_STAT_CPHASE]) (.inr (.inl (by simp [F.SQ_STAT_HEAD, F.SQ_STAT_CPHASE]))))
      (by simp [F.SQ_STAT_REASON]) (.inr (.inl (by simp [F.SQ_STAT_HEAD, F.SQ_STAT_REASON]))))

theorem queueReset_sphase (val : Word) : (queueReset s q val).rd (F.SQ_STAT_SPHASE q) = 1 :=
  (setQueue_rd _ (.inr (.inr (by simp [F.SQ_STAT_SPHASE])))).trans
    (rd_wr_skip (rd_wr_skip (State.rd_wr_self _ _ _ (by simp [F.SQ_STAT_SPHASE])) (by simp [F.SQ_STAT_CPHASE])
      (.inr (.inr (by simp [F.SQ_STAT_SPHASE, F.SQ_STAT_CPHASE])))) (by simp [F.SQ_STAT_REASON]) (.inr (.inl (by simp [F.SQ_STAT_SPHASE, F.SQ_STAT_REASON]))))

theorem queueReset_cphase (val : Word) : (queueReset s q val).rd (F.SQ_STAT_CPHASE q) = 1 :=
  (setQueue_rd _ (.inr (.inr (by simp [F.SQ_STAT_CPHASE])))).trans
    (rd_wr_skip (State.rd_wr_self _ _ _ (by simp [F.SQ_STAT_CPHASE])) (by simp [F.SQ_STAT_REASON])
      (.inr (.inl (by simp [F.SQ_STAT_CPHASE, F.SQ_STAT_REASON]))))

/-! The completion head. -/

/-- A new completion head, and the entries that it gives back. -/
def headMoved (s : State) (q h : Nat) : State :=
  (s.wr (F.SQ_CQH_HEAD q) h).setQueue q { s.queue q with ccount := ((s.queue q).ctail + s.qSize q - h % s.qSize q) % s.qSize q }

theorem headMoved_head {h : Nat} (hh : h < 65536) : (headMoved s q h).rd (F.SQ_CQH_HEAD q) = h := by
  refine (setQueue_rd _ (.inl ?_)).trans ((State.rd_wr_self _ _ _ (by simp [F.SQ_CQH_HEAD])).trans (Nat.mod_eq_of_lt hh))
  simp only [F.SQ_CQH_HEAD, Reg.SQ_CQH, Reg.SQ_STAT]
  omega

/-- The entries between the head and the tail, around the ring. -/
theorem ring_count {h tail size : Nat} (hh : h < size) (ht : tail < size) : ((tail + size - h % size) % size + h) % size = tail := by
  rw [Nat.mod_eq_of_lt hh, Nat.mod_add_mod, show tail + size - h + h = tail + size by omega, Nat.add_mod_right, Nat.mod_eq_of_lt ht]

theorem setQueue_wr_others (f : Fld) (n : Nat) (v : QueueSt) : SameQueues q s ((s.wr f n).setQueue q v) := fun k hk =>
  setQueue_others (s := s.wr f n) v k hk

theorem setQueue_wr_only (f : Fld) (n : Nat) (v : QueueSt) : { (s.wr f n).setQueue q v with regs := s.regs, queues := s.queues } = s := rfl

end

/-- Settles O38: each command's one change of the queue, and of SQ_STAT what shows it; a queue that halts also writes its record, which leaves the high half of
SQ_STAT alone. -/
theorem queueControl : Obligations.QueueControl := by
  intro s q val hq
  refine ⟨fun hstop core hnone hfree => ⟨fun hen hin => ?_, fun hout => ?_⟩, fun hstop core hwait => execSqOrderedDoorbell_held hstop hwait,
    fun hen => ⟨sqHalt_halts hen, fun hhalt => ?_⟩, fun hclear hidle => ?_, ?_⟩
  · refine ⟨s.setQueue q { s.queue q with tail := val.toNat % 65536 }, ?_, ?_, ⟨setQueue_only _, setQueue_others _⟩, setQueue_regs _, setQueue_self _⟩
    · exact (execSqDoorbell_runs hstop val).trans (congrArg Host.Outcome.next (ringDoorbell_inside hen hin))
    · exact (execSqOrderedDoorbell_free hstop hnone hfree).trans (congrArg Host.Outcome.next (ringDoorbell_inside hen hin))
  · exact ⟨(execSqDoorbell_runs hstop val).trans (congrArg Host.Outcome.next (ringDoorbell_outside hout)),
      (execSqOrderedDoorbell_free hstop hnone hfree).trans (congrArg Host.Outcome.next (ringDoorbell_outside hout))⟩
  · exact ⟨queueResumed s q, execSqResume_resumes hen hhalt, ⟨setQueue_wr_only _ _ _, setQueue_wr_others _ _ _⟩, queueResumed_regs, setQueue_self _, queueResumed_reason⟩
  · refine ⟨queueReset s q val, execQueueDisable_resets hclear hidle, queueReset_en hq hclear, queueReset_head val, queueReset_sphase val,
      queueReset_cphase val, ?_⟩
    unfold queueReset
    rw [setQueue_self]
    exact ⟨rfl, rfl, rfl, rfl⟩
  · refine ⟨headMoved s q (val.toNat % 65536), rfl, ⟨setQueue_wr_only _ _ _, setQueue_wr_others _ _ _⟩, headMoved_head (Nat.mod_lt _ (by decide)), fun hh ht => ?_⟩
    unfold headMoved
    rw [setQueue_self]
    exact ring_count hh ht

end Sys2Proof.Machine
end

section

/-! SUPPORT and PROOFS. Crimon: homes (O46), snoops (O47), accesses of host cores (O48), and what returns to the agents (O49). -/
namespace Sys2Proof.Machine
open Sys2Proof

/-! Bytes of memory itself. -/

section
variable {s t : State}

@[simp] theorem rawByte_rawSet (a k : Nat) (v : Byte) : (s.rawSet a v).rawByte k = if k = a then v else s.rawByte k := by
  unfold State.rawByte
  simp only [State.rawSet_free, show (s.rawSet a v).mem = cellSet s.mem a v from rfl, cellGet_cellSet]
  by_cases hk : k = a
  · rw [if_pos hk, if_pos hk]
  · rw [if_neg hk, if_neg hk]

theorem rawBytes_mem (a : Nat) (bs : List Byte) : ∃ mm, s.rawBytes a bs = { s with mem := mm } := by
  induction bs generalizing s a with
  | nil => exact ⟨s.mem, rfl⟩
  | cons b bs ih =>
    obtain ⟨mm, h⟩ := ih (s := s.rawSet a b) (a + 1)
    exact ⟨mm, h⟩

/-- The bytes written stand where they were written, and every other byte as before. -/
theorem rawByte_rawBytes (a : Nat) (bs : List Byte) (k : Nat) :
    (s.rawBytes a bs).rawByte k = if a ≤ k ∧ k < a + bs.length then bs.getD (k - a) 0 else s.rawByte k := by
  induction bs generalizing s a with
  | nil => exact (if_neg (by rw [List.length_nil]; omega)).symm
  | cons b bs ih =>
    rw [State.rawBytes, ih, rawByte_rawSet, List.length_cons]
    by_cases hk : k = a
    · subst hk
      rw [if_neg (by omega), if_pos rfl, if_pos ⟨le_rfl, by omega⟩, Nat.sub_self]
      rfl
    · by_cases hin : a + 1 ≤ k ∧ k < a + 1 + bs.length
      · rw [if_pos hin, if_pos (by omega), show k - a = (k - (a + 1)) + 1 by omega]
        rfl
      · rw [if_neg hin, if_neg hk, if_neg (by omega)]

theorem ofLe_append_single (l : List Byte) (b : Byte) : ofLe (l ++ [b]) = ofLe l + 256 ^ l.length * b.toNat := by
  induction l with
  | nil => simp [ofLe]
  | cons c l ih =>
    rw [List.cons_append, ofLe, ih, ofLe, List.length_cons, pow_succ]
    ring

/-- The first `n` bytes of a line make its low `8 * n` bits. -/
theorem ofLe_lineByte (d : Line) (n : Nat) : ofLe ((List.range n).map (lineByte d)) = d.toNat % 2 ^ (8 * n) := by
  induction n with
  | zero => simp [ofLe, Nat.mod_one]
  | succ n ih =>
    have hpow : (256 : Nat) ^ n = 2 ^ (8 * n) := (pow_mul 2 8 n).symm
    have hbyte : (lineByte d n).toNat = d.toNat / 2 ^ (8 * n) % 2 ^ 8 := by simp [lineByte, Nat.shiftRight_eq_div_pow]
    rw [List.range_succ, List.map_append, List.map_singleton, ofLe_append_single, ih, List.length_map, List.length_range, hpow, hbyte,
      show 8 * (n + 1) = 8 * n + 8 by ring, pow_add, Nat.mod_mul]

theorem lineBytes_length (d : Line) : (lineBytes d).length = 64 := by simp [lineBytes]

theorem lineBytes_getD (d : Line) {i : Nat} (hi : i < 64) : (lineBytes d).getD i 0 = lineByte d i := by
  simp [lineBytes, List.getD_eq_getElem?_getD, hi]

/-- A line written to memory itself stands there. -/
theorem rawLine_setRawLine (line : Nat) (d : Line) : (s.setRawLine line d).rawLine line = d := by
  have hbytes : (List.range 64).map (fun i => (s.setRawLine line d).rawByte (64 * line + i)) = (List.range 64).map (lineByte d) := by
    refine List.map_congr_left fun i hi => ?_
    have hi' : i < 64 := List.mem_range.1 hi
    rw [State.setRawLine, rawByte_rawBytes, lineBytes_length, if_pos (by omega), Nat.add_sub_cancel_left, lineBytes_getD d hi']
  rw [State.rawLine, hbytes, ofLe_lineByte]
  exact BitVec.eq_of_toNat_eq (by rw [BitVec.toNat_ofNat, Nat.mod_mod, Nat.mod_eq_of_lt d.isLt])

theorem setRawLine_mem (line : Nat) (d : Line) : ∃ mm, s.setRawLine line d = { s with mem := mm } := rawBytes_mem _ _

theorem rawBytes_congr (h : t.mem = s.mem) (a : Nat) (bs : List Byte) : (t.rawBytes a bs).mem = (s.rawBytes a bs).mem := by
  induction bs generalizing s t a with
  | nil => exact h
  | cons b bs ih => exact ih (congrArg (fun mm => cellSet mm a b) h) _

theorem rawLine_congr (hmem : t.mem = s.mem) (hfree : t.free = s.free) (line : Nat) : t.rawLine line = s.rawLine line := by
  unfold State.rawLine State.rawByte
  rw [hmem, hfree]

/-- A line that has been written stands in every state with that memory: no byte of it is unspecified. -/
theorem rawLine_written {line : Nat} {d : Line} (h : t.mem = (s.setRawLine line d).mem) : t.rawLine line = d := by
  obtain ⟨mm, hmm⟩ := setRawLine_mem (s := { s with free := t.free }) line d
  have hfree : ({ s with free := t.free } : State).free = (({ s with free := t.free } : State).setRawLine line d).free := by rw [hmm]
  have hmem : t.mem = (({ s with free := t.free } : State).setRawLine line d).mem := h.trans (rawBytes_congr (t := s) (s := { s with free := t.free }) rfl _ _)
  exact (rawLine_congr hmem hfree line).trans (rawLine_setRawLine line d)

end

/-! Fields of a Crimon message that is put together (R429). -/

section
variable (op src dst txn reqr st : Nat) (host spec fwd : Bool) (addr : Nat) (data : Line)

theorem crMsg_src : (crMsg op src dst txn reqr st host spec fwd addr data).src = src % 2 ^ 16 := by
  rw [CrMsg.src, crMsg, bits_ofNat _ _ _ _ (by omega)]
  simp [bits_or, bits_place_self, bits_place_below, bits_place_above]

theorem crMsg_reqr : (crMsg op src dst txn reqr st host spec fwd addr data).reqr = reqr % 2 ^ 16 := by
  rw [CrMsg.reqr, crMsg, bits_ofNat _ _ _ _ (by omega)]
  simp [bits_or, bits_place_self, bits_place_below, bits_place_above]

theorem crMsg_state : (crMsg op src dst txn reqr st host spec fwd addr data).state = st % 2 ^ 2 := by
  rw [CrMsg.state, crMsg, bits_ofNat _ _ _ _ (by omega)]
  simp [bits_or, bits_place_self, bits_place_below, bits_place_above]

theorem crMsg_fwd : (crMsg op src dst txn reqr st host spec fwd addr data).fwd = fwd := by
  rw [CrMsg.fwd, crMsg, bit, BitVec.testBit_toNat, BitVec.getLsbD_ofNat]
  cases fwd <;> simp [testBit_place, b2n]

end

theorem crMsg_addr_lt (m : CrMsg) : m.addr < 2 ^ 40 := bits_lt _ _ _
theorem crMsg_src_lt (m : CrMsg) : m.src < 2 ^ 16 := bits_lt _ _ _
theorem crMsg_dst_lt (m : CrMsg) : m.dst < 2 ^ 16 := bits_lt _ _ _
theorem crMsg_reqr_lt (m : CrMsg) : m.reqr < 2 ^ 16 := bits_lt _ _ _
theorem crMsg_txn_lt (m : CrMsg) : m.txn < 2 ^ 12 := bits_lt _ _ _

theorem agentOf_eq_some {src a : Nat} (h : agentOf src = some a) : a < 2 ∧ src = agentSrc a := by
  unfold agentOf at h
  split at h
  · next h0 => exact (Option.some.inj h) ▸ ⟨by decide, h0⟩
  · split at h
    · next h1 => exact (Option.some.inj h) ▸ ⟨by decide, h1⟩
    · cases h

theorem agentOf_agentSrc {a : Nat} (ha : a < 2) : agentOf (agentSrc a) = some a := by
  interval_cases a <;> rfl

theorem agentSrc_lt {a : Nat} (ha : a < 2) : agentSrc a < 2 ^ 16 := by interval_cases a <;> decide

/-! Where nothing waits, nothing goes on. -/

section
variable {s : State}

theorem settle_noneWaits (h : NoneWaits s) : s.settle = s := by
  obtain ⟨-, hw, hp, ho, -⟩ := h
  have hretry : s.retryHost = s := by
    unfold State.retryHost
    rw [hw]
    exact (congrArg (fun l => { s with hostWaits := l }) hw.symm).trans rfl
  have hserve : s.servePcie = s := by
    unfold State.servePcie
    rw [hp]
    exact (congrArg (fun l => { s with pcieHeld := l }) hp.symm).trans rfl
  have hpass : s.passOdbs = s := by
    unfold State.passOdbs
    rw [ho]
    exact (congrArg (fun l => { s with odbs := l }) ho.symm).trans rfl
  rw [State.settle, hretry, hserve, hpass, ite_self]

theorem drainMem_nil (h : s.memQ = []) : s.drainMem = s := by
  unfold State.drainMem
  rw [h]
  exact (congrArg (fun l => { s with memQ := l }) h.symm).trans rfl

theorem startAll_nil (hq : s.memQ = []) (ht : s.txns = []) : s.startAll = s := by
  rw [State.startAll, hq]
  show s.drainMem.startPass = s
  rw [drainMem_nil hq, State.startPass, ht]
  rfl

theorem withdrawOn_stays (a : Nat) (h : s.leaving = []) : s.withdrawOn a = s := by
  rw [State.withdrawOn, h]
  simp

/-- The one open transaction is served where it has not been. -/
theorem startAll_single {t : Txn} (hrun : s.stopped = false) (hq : s.memQ = []) (ht : s.txns = [t]) (hst : t.st = 0) : s.startAll = s.serve t := by
  rw [State.startAll, hq]
  show s.drainMem.startPass = s.serve t
  rw [drainMem_nil hq, State.startPass, ht]
  simp [hrun, ht, startable, hq, hst]

/-- The one open transaction that waits is left. -/
theorem startAll_waits {t : Txn} (hq : s.memQ = []) (ht : s.txns = [t]) (hst : t.st ≠ 0) : s.startAll = s := by
  rw [State.startAll, hq]
  show s.drainMem.startPass = s
  rw [drainMem_nil hq, State.startPass, ht]
  simp [ht, startable, hq, hst]

theorem eccReads_clean (h line : Nat) (he : s.eccErrs = []) : s.eccReads h line = s := by
  have hread (k : Nat) : s.eccRead h line k = s := by rw [State.eccRead, he]; rfl
  rw [State.eccReads]
  simp [hread]

end

/-! What a home sends (R435): the message, and the mark on the request that it grants. -/

section
variable {s : State}

theorem grant_reqs (src txn : Nat) (line : Bool) : ∃ rs, s.grant src txn line = { s with reqs := rs } := by
  unfold State.grant
  split
  · exact ⟨s.reqs, rfl⟩
  · exact ⟨_, rfl⟩

/-- The message that answers a transaction. -/
abbrev homeMsg (t : Txn) (op st : Nat) (v : Line) : CrMsg := crMsg op (homeSrc t.home) t.src t.txn t.src st t.host t.spec false t.line v

theorem sendData_sends (t : Txn) (st : Nat) :
    ∃ rs, s.sendData t st = { s with out := s.out ++ [.crimon (homeMsg t 0x30 st (s.rawLine t.line))], reqs := rs } := by
  unfold State.sendData
  dsimp only
  split
  · obtain ⟨rs, hrs⟩ := grant_reqs (s := s.send (.crimon (homeMsg t 0x30 st (s.rawLine t.line)))) t.src t.txn true
    exact ⟨rs, hrs⟩
  · exact ⟨s.reqs, rfl⟩

theorem sendCmp_sends (t : Txn) (st : Nat) :
    ∃ rs, s.sendCmp t st = { s with out := s.out ++ [.crimon (homeMsg t 0x28 st 0)], reqs := rs } := by
  unfold State.sendCmp
  dsimp only
  split
  · obtain ⟨rs, hrs⟩ := grant_reqs (s := s.send (.crimon (homeMsg t 0x28 st 0))) t.src t.txn false
    exact ⟨rs, hrs⟩
  · exact ⟨s.reqs, rfl⟩

theorem closeTxn_only {t t' : Txn} (ht : s.txns = [t']) (hk : t'.home = t.home ∧ t'.src = t.src ∧ t'.txn = t.txn) : (s.closeTxn t).txns = [] := by
  obtain ⟨hhome, hsrc, htxn⟩ := hk
  simp [State.closeTxn, ht, hhome, hsrc, htxn]

theorem putTxn_only {t t' : Txn} (ht : s.txns = [t']) (hk : t'.home = t.home ∧ t'.src = t.src ∧ t'.txn = t.txn) : s.putTxn t = { s with txns := [t] } := by
  obtain ⟨hhome, hsrc, htxn⟩ := hk
  simp [State.putTxn, ht, hhome, hsrc, htxn]

@[simp] theorem setDir_dir (line : Nat) (e : DirSt) : (s.setDir line e).dir line = e := by
  exact sget_sset_self _ _ _ _

/-! A request of host origin to a SHARED page, by the line's directory (R435). -/

theorem serve_shared {t : Txn} (hrun : s.stopped = false) (he : s.eccErrs = []) (hb : s.lineBias t.line = 0) : s.serve t = s.serveDir t := by
  rw [State.serve]
  simp [hb, eccReads_clean _ _ he, hrun]

theorem serve_device {t : Txn} (hrun : s.stopped = false) (he : s.eccErrs = []) (hb : s.lineBias t.line = 1) (hhost : t.host = true) (hspec : t.spec = false) :
    s.serve t = s.putTxn { t with st := 1 } := by
  rw [State.serve]
  simp [hb, eccReads_clean _ _ he, hrun, hhost, hspec]

section
variable {t : Txn} {a b : Nat}

theorem serveDir_shr_uncached (hme : t.agent = some a) (hop : t.op = 1) (hd : s.dir t.line = ⟨none, []⟩) :
    s.serveDir t = ((s.setDir t.line ⟨some a, []⟩).sendData t 2).closeTxn t := by
  simp [State.serveDir, hme, hop, hd]

theorem serveDir_shr_shared (hme : t.agent = some a) (hgone : s.gone = []) (hab : b ≠ a) (hop : t.op = 1) (hd : s.dir t.line = ⟨none, [b]⟩) :
    s.serveDir t = ((s.setDir t.line ⟨none, [b, a]⟩).sendData t 1).closeTxn t := by
  simp [State.serveDir, hme, hop, hd, hab, State.isGone, hgone]

theorem serveDir_shr_owned (hme : t.agent = some a) (hgone : s.gone = []) (hab : b ≠ a) (hop : t.op = 1) (hd : s.dir t.line = ⟨some b, []⟩) : s.serveDir t = s.snoop t 0x10 false [b] := by
  simp [State.serveDir, hme, hop, hd, hab, State.isGone, hgone]

theorem serveDir_own_uncached (hme : t.agent = some a) (hop : t.op = 2) (hd : s.dir t.line = ⟨none, []⟩) :
    s.serveDir t = ((s.setDir t.line ⟨some a, []⟩).sendData t 2).closeTxn t := by
  simp [State.serveDir, hme, hop, hd]

theorem serveDir_own_shared (hme : t.agent = some a) (hgone : s.gone = []) (hab : b ≠ a) (hop : t.op = 2) (hd : s.dir t.line = ⟨none, [b]⟩) : s.serveDir t = s.snoop t 0x11 false [b] := by
  simp [State.serveDir, hme, hop, hd, hab, State.isGone, hgone]

theorem serveDir_own_owned (hme : t.agent = some a) (hgone : s.gone = []) (hab : b ≠ a) (hop : t.op = 2) (hd : s.dir t.line = ⟨some b, []⟩) : s.serveDir t = s.snoop t 0x11 true [b] := by
  simp [State.serveDir, hme, hop, hd, hab, State.isGone, hgone]

theorem serveDir_upgr_sharer (hme : t.agent = some a) (hop : t.op = 3) (hd : s.dir t.line = ⟨none, [a]⟩) :
    s.serveDir t = ((s.setDir t.line ⟨some a, []⟩).sendCmp t 2).closeTxn t := by
  simp [State.serveDir, hme, hop, hd]

/-- An Upgr of an agent that shares the line no more is served as a RdOwn (R436). -/
theorem serveDir_upgr_uncached (hme : t.agent = some a) (hop : t.op = 3) (hd : s.dir t.line = ⟨none, []⟩) :
    s.serveDir t = ((s.setDir t.line ⟨some a, []⟩).sendData t 2).closeTxn t := by
  simp [State.serveDir, hme, hop, hd]

theorem serveDir_na_unowned (hop : t.op = 4) (hd : (s.dir t.line).owner = none) : s.serveDir t = (s.sendData t 0).closeTxn t := by
  simp [State.serveDir, hop, hd]

theorem serveDir_na_owned (hme : t.agent = some a) (hgone : s.gone = []) (hab : b ≠ a) (hop : t.op = 4) (hd : s.dir t.line = ⟨some b, []⟩) : s.serveDir t = s.snoop t 0x12 false [b] := by
  simp [State.serveDir, hme, hop, hd, hab, State.isGone, hgone]

theorem serveDir_write_uncached (hop : t.op = 0x33) (hd : s.dir t.line = ⟨none, []⟩) :
    s.serveDir t = (((s.setRawLine t.line t.data).setDir t.line ⟨none, []⟩).sendCmp t 0).closeTxn t := by
  simp [State.serveDir, hop, hd]

end

/-! A request that arrives where no other is open. -/

/-- The transaction that a request opens at its home. -/
abbrev openTxn (h : Nat) (m : CrMsg) : Txn := ⟨h, m.addr, m.op, m.src, m.txn, m.host, m.spec, m.data, 0, []⟩

/-- The home has taken the request, and has not served it. -/
abbrev opened (s : State) (h : Nat) (m : CrMsg) : State := { s with txns := [openTxn h m] }

/-- A request of host origin comes to its home, and nothing else is there. -/
structure Alone (s : State) (m : CrMsg) (h a : Nat) : Prop where
  run : s.stopped = false
  home : homeOf (64 * m.addr) = some h
  agent : agentOf m.src = some a
  host : m.host = true
  spec : m.spec = false
  txns : s.txns = []
  gone : s.gone = []
  ecc : s.eccErrs = []
  away : s.hdAway.contains h = false
  waits : NoneWaits s

variable {m : CrMsg} {h a b : Nat}

theorem Alone.me (ha : Alone s m h a) : (openTxn h m).agent = some a := by
  rw [Txn.agent, if_pos ha.host]
  exact ha.agent

theorem Alone.arrives (ha : Alone s m h a) : s.arrive m = .next ((opened s h m).serve (openTxn h m)).settle.tick := by
  have hserve : (opened s h m).startAll = (opened s h m).serve (openTxn h m) := startAll_single ha.run ha.waits.1 rfl rfl
  have hme : (openTxn h m).agent.isSome = true := by rw [ha.me]; rfl
  have haway : ¬ (m.host && s.hdAway.contains h) = true := by rw [ha.away, Bool.and_false]; exact Bool.false_ne_true
  unfold State.arrive
  simp only [ha.home]
  rw [if_neg (by simp [ha.txns]), if_neg haway, if_pos hme, if_pos ha.host, ← hserve, ha.txns]
  rfl

theorem Alone.receives (ha : Alone s m h a) {op : Nat} (hop : m.op = op) (hcls : opClass op = some m.cls) :
    s.receive m op (s.arrive m) = .next ((opened s h m).serve (openTxn h m)).settle.tick :=
  (State.receive_own s m op _ ha.run hop hcls).trans ha.arrives

/-- The home answers the requester, and is done with it. -/
def HomeAnswers (s : State) (m : CrMsg) (t : State) (code st : Nat) (v : Line) (e : DirSt) : Prop :=
  t.txns = [] ∧ t.dir m.addr = e ∧ ∃ r : CrMsg, t.out = s.out ++ [.crimon r] ∧ (r.op = code ∧ r.dst = m.src ∧ r.txn = m.txn ∧ r.addr = m.addr) ∧ r.state = st ∧ r.data = v

/-- The home snoops agent b, and waits for it. -/
def HomeSnoops (s : State) (m : CrMsg) (h b : Nat) (t : State) (code : Nat) (fwd : Bool) : Prop :=
  t.txns = [⟨h, m.addr, m.op, m.src, m.txn, true, false, m.data, 2, [b]⟩] ∧ t.dir m.addr = s.dir m.addr
    ∧ ∃ r : CrMsg, t.out = s.out ++ [.crimon r] ∧ (r.op = code ∧ r.dst = agentSrc b ∧ r.txn = m.txn ∧ r.addr = m.addr) ∧ r.fwd = fwd ∧ r.reqr = m.src

theorem homeMsg_answers {op st : Nat} (hop : op < 64) (hst : st < 4) (v : Line) :
    let r := homeMsg (openTxn h m) op st v
    (r.op = op ∧ r.dst = m.src ∧ r.txn = m.txn ∧ r.addr = m.addr) ∧ r.state = st ∧ r.data = v := by
  refine ⟨⟨?_, ?_, ?_, ?_⟩, ?_, rfl⟩
  · exact (crMsg_op ..).trans (Nat.mod_eq_of_lt hop)
  · exact (crMsg_dst ..).trans (Nat.mod_eq_of_lt (crMsg_src_lt m))
  · exact (crMsg_txn ..).trans (Nat.mod_eq_of_lt (crMsg_txn_lt m))
  · exact (crMsg_addr ..).trans (Nat.mod_eq_of_lt (crMsg_addr_lt m))
  · exact (crMsg_state ..).trans (Nat.mod_eq_of_lt hst)

/-- What is sent from a state that differs in the line's entry and in memory alone closes the request. -/
theorem Alone.closes (ha : Alone s m h a) {u v : State} {rs : List Req} {code st : Nat} {d : Line} (hcode : code < 64) (hst : st < 4)
    (hu : { u with dirs := s.dirs, mem := s.mem } = opened s h m)
    (hv : v = { u with out := u.out ++ [.crimon (homeMsg (openTxn h m) code st d)], reqs := rs }) :
    HomeAnswers s m (v.closeTxn (openTxn h m)).settle.tick code st d (u.dir m.addr) := by
  have htx : u.txns = [openTxn h m] := by have h := congrArg State.txns hu; exact h
  have hout : u.out = s.out := by have h := congrArg State.out hu; exact h
  have hq : NoneWaits (v.closeTxn (openTxn h m)) := by
    have : NoneWaits { u with dirs := s.dirs, mem := s.mem } := hu ▸ ha.waits
    subst hv
    exact this
  rw [settle_noneWaits hq]
  subst hv
  refine ⟨closeTxn_only (t' := openTxn h m) htx ⟨rfl, rfl, rfl⟩, rfl, homeMsg (openTxn h m) code st d, ?_, homeMsg_answers hcode hst d⟩
  exact congrArg (· ++ _) hout

theorem Alone.data (ha : Alone s m h a) {u : State} {st : Nat} (hst : st < 4) (hu : { u with dirs := s.dirs, mem := s.mem } = opened s h m) (hmem : u.mem = s.mem) :
    HomeAnswers s m ((u.sendData (openTxn h m) st).closeTxn (openTxn h m)).settle.tick 0x30 st (s.rawLine m.addr) (u.dir m.addr) := by
  obtain ⟨rs, hrs⟩ := sendData_sends (s := u) (openTxn h m) st
  have hfree : u.free = s.free := by have h := congrArg State.free hu; exact h
  have hline : u.rawLine m.addr = s.rawLine m.addr := rawLine_congr hmem hfree _
  exact hline ▸ ha.closes (by decide) hst hu hrs

theorem Alone.cmp (ha : Alone s m h a) {u : State} {st : Nat} (hst : st < 4) (hu : { u with dirs := s.dirs, mem := s.mem } = opened s h m) :
    HomeAnswers s m ((u.sendCmp (openTxn h m) st).closeTxn (openTxn h m)).settle.tick 0x28 st 0 (u.dir m.addr) := by
  obtain ⟨rs, hrs⟩ := sendCmp_sends (s := u) (openTxn h m) st
  exact ha.closes (by decide) hst hu hrs

theorem Alone.dataEntry (ha : Alone s m h a) (e : DirSt) {st : Nat} (hst : st < 4) :
    HomeAnswers s m ((((opened s h m).setDir m.addr e).sendData (openTxn h m) st).closeTxn (openTxn h m)).settle.tick 0x30 st (s.rawLine m.addr) e := by
  have h := ha.data (u := (opened s h m).setDir m.addr e) hst rfl rfl
  rwa [setDir_dir] at h

theorem Alone.cmpEntry (ha : Alone s m h a) (e : DirSt) {st : Nat} (hst : st < 4) :
    HomeAnswers s m ((((opened s h m).setDir m.addr e).sendCmp (openTxn h m) st).closeTxn (openTxn h m)).settle.tick 0x28 st 0 e := by
  have h := ha.cmp (u := (opened s h m).setDir m.addr e) hst rfl
  rwa [setDir_dir] at h

theorem Alone.snoops (ha : Alone s m h a) (hb : b < 2) {code : Nat} (hcode : code < 64) (fwd : Bool) :
    HomeSnoops s m h b ((opened s h m).snoop (openTxn h m) code fwd [b]).settle.tick code fwd := by
  have hsnoop : (opened s h m).snoop (openTxn h m) code fwd [b] = { s with
      txns := [{ openTxn h m with st := 2, await := [b] }]
      out := s.out ++ [.crimon (crMsg code (homeSrc h) (agentSrc b) m.txn m.src 0 m.host false fwd m.addr 0)] } := by
    rw [State.snoop, putTxn_only (t := { openTxn h m with st := 2, await := [b] }) (t' := openTxn h m) rfl ⟨rfl, rfl, rfl⟩]
    rfl
  have hq : NoneWaits ((opened s h m).snoop (openTxn h m) code fwd [b]) := hsnoop ▸ ha.waits
  rw [settle_noneWaits hq, hsnoop]
  refine ⟨?_, rfl, crMsg code (homeSrc h) (agentSrc b) m.txn m.src 0 m.host false fwd m.addr 0, rfl, ⟨?_, ?_, ?_, ?_⟩, ?_, ?_⟩
  · show [({ openTxn h m with st := 2, await := [b] } : Txn)] = _
    simp only [ha.host, ha.spec]
  · exact (crMsg_op ..).trans (Nat.mod_eq_of_lt hcode)
  · exact (crMsg_dst ..).trans (Nat.mod_eq_of_lt (agentSrc_lt hb))
  · exact (crMsg_txn ..).trans (Nat.mod_eq_of_lt (crMsg_txn_lt m))
  · exact (crMsg_addr ..).trans (Nat.mod_eq_of_lt (crMsg_addr_lt m))
  · exact crMsg_fwd ..
  · exact (crMsg_reqr ..).trans (Nat.mod_eq_of_lt (crMsg_src_lt m))

/-- The request's line stands as the directory says, in a SHARED page. -/
theorem Alone.serves (ha : Alone s m h a) (hbias : s.lineBias m.addr = 0) : (opened s h m).serve (openTxn h m) = (opened s h m).serveDir (openTxn h m) :=
  serve_shared ha.run ha.ecc hbias

end

/-! The answers that a home waits for (R435 to R437). -/

section
variable {s : State} {m : CrMsg} {h a r ns : Nat} {t : Txn}

/-- Agent `a` answers at the home of a line that agent `r` reads; nothing else waits there. -/
structure Answering (s : State) (m : CrMsg) (h a r : Nat) (t : Txn) : Prop where
  run : s.stopped = false
  home : homeOf (64 * m.addr) = some h
  agent : agentOf m.src = some a
  reader : agentOf t.src = some r
  other : r ≠ a
  at_home : t.home = h
  line : t.line = m.addr
  op : t.op = 1
  host : t.host = true
  spec : t.spec = false
  txn : t.txn < 4096
  bias : s.lineBias m.addr = 0
  gone : s.gone = []
  ecc : s.eccErrs = []
  waits : NoneWaits s

/-- The home sends the reader the line in state `st`, and is done with it. -/
def ReadEnds (s : State) (t : Txn) (u : State) (st : Nat) (v : Line) : Prop :=
  u.txns = [] ∧ ∃ d : CrMsg, u.out = s.out ++ [.crimon d] ∧ d.op = 0x30 ∧ d.dst = t.src ∧ d.txn = t.txn ∧ d.state = st ∧ d.data = v

theorem Answering.me (ha : Answering s m h a r t) : t.agent = some r := by
  rw [Txn.agent, if_pos ha.host]
  exact ha.reader

/-- A waiting transaction that is served again. -/
abbrev again (t : Txn) : Txn := { t with st := 0, await := [] }

/-- The one transaction there, to be served again. -/
abbrev reopened (u : State) (t : Txn) : State := { u with txns := [again t] }

/-- What is sent from a state that has the one transaction closes it. -/
theorem Answering.data (ha : Answering s m h a r t) {u : State} {st : Nat} (hst : st < 4) (ht : u.txns = [again t]) (hout : u.out = s.out) (hq : NoneWaits u) :
    ReadEnds s t ((u.sendData (again t) st).closeTxn (again t)).settle st (u.rawLine m.addr)
      ∧ ((u.sendData (again t) st).closeTxn (again t)).settle.dir m.addr = u.dir m.addr
      ∧ NoneWaits ((u.sendData (again t) st).closeTxn (again t)).settle := by
  obtain ⟨rs, hrs⟩ := sendData_sends (s := u) (again t) st
  obtain ⟨hr, hsrc⟩ := agentOf_eq_some ha.reader
  have hq' : NoneWaits ((u.sendData (again t) st).closeTxn (again t)) := by rw [hrs]; exact hq
  rw [settle_noneWaits hq', hrs]
  refine ⟨⟨closeTxn_only (t' := again t) ht ⟨rfl, rfl, rfl⟩, homeMsg (again t) 0x30 st (u.rawLine t.line), congrArg (· ++ _) hout, ?_, ?_, ?_, ?_, ?_⟩, rfl, hq⟩
  · exact (crMsg_op ..).trans rfl
  · exact (crMsg_dst ..).trans (Nat.mod_eq_of_lt (hsrc ▸ agentSrc_lt hr))
  · exact (crMsg_txn ..).trans (Nat.mod_eq_of_lt ha.txn)
  · exact (crMsg_state ..).trans (Nat.mod_eq_of_lt hst)
  · exact congrArg u.rawLine ha.line

/-- All have answered: the read is served by the directory as it now stands. -/
theorem Answering.answered (ha : Answering s m h a r t) {u : State} {t' : Txn} (hagain : again t' = again t) (hawait : t'.await = [a]) (ht : u.txns = [t']) (hrun : u.stopped = false) (hq : NoneWaits u) (he : u.eccErrs = [])
    (hb : u.lineBias m.addr = 0) : u.answered t' a = (reopened u t).serveDir (again t) := by
  have hput : u.putTxn (again t') = reopened u t := by
    have hhome := congrArg Txn.home hagain
    have hsrc := congrArg Txn.src hagain
    have htxn := congrArg Txn.txn hagain
    rw [hagain]
    exact putTxn_only (t' := t') ht ⟨hhome, hsrc, htxn⟩
  have hstart : (reopened u t).startAll = (reopened u t).serve (again t) := startAll_single hrun hq.1 rfl rfl
  have hbias : (reopened u t).lineBias (again t).line = 0 := (congrArg u.lineBias ha.line).trans hb
  unfold State.answered
  simp only [hawait]
  rw [if_pos (by simp), hput, hstart]
  exact serve_shared (s := reopened u t) hrun he hbias

/-- No other agent has the line: the reader takes it in E. -/
theorem Answering.fresh (ha : Answering s m h a r t) {u : State} (ht : u.txns = [again t]) (hout : u.out = s.out) (hq : NoneWaits u) (hd : u.dir m.addr = ⟨none, []⟩) :
    ReadEnds s t (u.serveDir (again t)).settle 2 (u.rawLine m.addr) ∧ (u.serveDir (again t)).settle.dir m.addr = ⟨some r, []⟩
      ∧ NoneWaits (u.serveDir (again t)).settle := by
  have hd' : u.dir (again t).line = ⟨none, []⟩ := (congrArg u.dir ha.line).trans hd
  rw [serveDir_shr_uncached (t := again t) ha.me ha.op hd']
  have hdata := ha.data (u := u.setDir (again t).line ⟨some r, []⟩) (st := 2) (by decide) ht hout hq
  obtain ⟨hread, hdir, hquiet⟩ := hdata
  refine ⟨hread, hdir.trans ?_, hquiet⟩
  rw [show (again t).line = m.addr from ha.line]
  exact setDir_dir _ _

theorem respond_within (hns : ns ≤ 96) (line : Nat) :
    s.respTime a h line ns = s.wr (F.CRM_AGENT_WORST_NS a) (max (s.rd (F.CRM_AGENT_WORST_NS a)) (satTo 12 ns)) := if_pos hns

/-- The state in which the home takes an answer: the agent's longest time is noted. -/
abbrev timed (s : State) (a ns : Nat) : State := s.wr (F.CRM_AGENT_WORST_NS a) (max (s.rd (F.CRM_AGENT_WORST_NS a)) (satTo 12 ns))

/-- The open read waits for the agent. -/
abbrev asking (t : Txn) (a : Nat) : Txn := { t with st := 2, await := [a] }

/-- An answer in its time reaches the transaction that waits for it. -/
theorem Answering.responds (ha : Answering s m h a r t) (hns : ns ≤ 96) (hreqr : m.reqr = t.src) (htxn : m.txn = t.txn) (ht : s.txns = [asking t a])
    {op : Nat} (hop : m.op = op) (hcls : opClass op = some m.cls) (k : Txn → Nat → State → State) :
    s.receive m op (s.respond m ns k) = .next (k (asking t a) a (timed s a ns)).settle.tick := by
  have hwait : s.waiting m.addr a = some (asking t a) := by
    rw [State.waiting, ht]
    simp [ha.line]
  rw [State.receive_own s m op _ ha.run hop hcls]
  unfold State.respond
  simp only [ha.agent, ha.home, hwait]
  rw [respond_within hns, if_pos (by simp [hreqr, htxn]), if_neg]
  exact Bool.eq_false_iff.1 ha.run

theorem dirDrop_owner {line : Nat} (hd : s.dir line = ⟨some a, []⟩) : s.dirDrop line a = s.setDir line ⟨none, []⟩ := by
  simp [State.dirDrop, hd]

/-- The agent keeps no copy: the reader gets the line in E. -/
theorem Answering.drops (ha : Answering s m h a r t) {u : State} {t' : Txn} (hagain : again t' = again t) (hawait : t'.await = [a]) (ht : u.txns = [t']) (hrun : u.stopped = false) (hq : NoneWaits u) (he : u.eccErrs = [])
    (hb : u.lineBias m.addr = 0) (hout : u.out = s.out) (hd : u.dir m.addr = ⟨some a, []⟩) :
    ReadEnds s t ((u.dirDrop m.addr a).answered t' a).settle 2 (u.rawLine m.addr)
      ∧ ((u.dirDrop m.addr a).answered t' a).settle.dir m.addr = ⟨some r, []⟩ ∧ NoneWaits ((u.dirDrop m.addr a).answered t' a).settle := by
  rw [dirDrop_owner hd, ha.answered (u := u.setDir m.addr ⟨none, []⟩) hagain hawait ht hrun hq he hb]
  exact ha.fresh (u := reopened (u.setDir m.addr ⟨none, []⟩) t) rfl hout hq (setDir_dir (s := u) m.addr ⟨none, []⟩)

/-- The agent keeps a shared copy: so does the reader. -/
theorem Answering.shares (ha : Answering s m h a r t) {u : State} (ht : u.txns = [asking t a]) (hrun : u.stopped = false) (hq : NoneWaits u) (he : u.eccErrs = [])
    (hb : u.lineBias m.addr = 0) (hg : u.gone = []) (hout : u.out = s.out) (hd : u.dir m.addr = ⟨none, [a]⟩) :
    ReadEnds s t (u.answered (asking t a) a).settle 1 (u.rawLine m.addr) ∧ (u.answered (asking t a) a).settle.dir m.addr = ⟨none, [a, r]⟩
      ∧ NoneWaits (u.answered (asking t a) a).settle := by
  rw [ha.answered (u := u) (t' := asking t a) rfl rfl ht hrun hq he hb]
  have hd' : (reopened u t).dir (again t).line = ⟨none, [a]⟩ := (congrArg u.dir ha.line).trans hd
  rw [serveDir_shr_shared (s := reopened u t) (t := again t) ha.me hg ha.other.symm ha.op hd']
  have hdata := ha.data (u := (reopened u t).setDir (again t).line ⟨none, [a, r]⟩) (st := 1) (by decide) rfl hout hq
  obtain ⟨hread, hdir, hquiet⟩ := hdata
  refine ⟨hread, hdir.trans ?_, hquiet⟩
  rw [show (again t).line = m.addr from ha.line]
  exact setDir_dir _ _

/-- A line that its owner has forwarded to a reader is shared by both. -/
theorem Answering.forwarded (ha : Answering s m h a r t) {u : State} {t' : Txn} (hop : t'.op = t.op) (hme : t'.agent = t.agent) (hline : t'.line = t.line) :
    u.forwarded t' a = u.setDir m.addr ⟨none, [a, r]⟩ := by
  have hne : a ≠ r := ha.other.symm
  unfold State.forwarded
  rw [hop, hme, hline, ha.op, ha.me, ha.line]
  simp [List.dedup_cons_of_notMem, hne]

end

section
variable {s : State} {m : CrMsg} {h a r ns : Nat} {t : Txn}

/-- Nothing waits for the owner's WbData any more. -/
def wbTaken (s : State) (m : CrMsg) (a : Nat) : State := { s with
    wbs := s.wbs.filter (fun w => !(w.1 == a && w.2.1 == m.addr))
    reqs := s.reqs.filter (fun r => !(r.agent == a && r.line == m.addr && r.op == 2 && r.store == 3))
    wbTxns := s.wbTxns.filter (fun w => !(w.1 == a && w.2.1 == m.addr)) }

/-- A line of the owner stands in memory. -/
def wroteBack (s : State) (m : CrMsg) (a : Nat) : State := (wbTaken s m a).setRawLine m.addr m.data

theorem wroteBack_eq : ∃ ws rs wt mm, wroteBack s m a = { s with wbs := ws, reqs := rs, wbTxns := wt, mem := mm } := by
  obtain ⟨mm, h⟩ := setRawLine_mem (s := wbTaken s m a) m.addr m.data
  exact ⟨_, _, _, mm, h⟩

theorem wroteBack_line : (wroteBack s m a).rawLine m.addr = m.data := rawLine_setRawLine _ _

/-- WbData of the owner, where no transaction waits for it. -/
theorem Answering.writesBack (ha : Answering s m h a r t) (hop : m.op = 0x32) (hcls : m.cls = 3) (hown : (s.dir m.addr).owner = some a) (ht : s.txns = []) :
    execWbdata m s = .next ((wroteBack s m a).setDir m.addr ⟨none, []⟩).tick := by
  have hw : NoneWaits ((wroteBack s m a).setDir m.addr ⟨none, []⟩) ∧ ((wroteBack s m a).setDir m.addr ⟨none, []⟩).txns = [] := by
    obtain ⟨ws, rs, wt, mm, heq⟩ := wroteBack_eq (s := s) (m := m) (a := a)
    rw [heq]
    exact ⟨ha.waits, ht⟩
  obtain ⟨hq, htx⟩ := hw
  have hfind : s.txns.find? (fun t => t.line == m.addr && decide (2 ≤ t.st) && t.await.contains a) = none := by rw [ht]; rfl
  refine (State.receive_own s m 0x32 _ ha.run hop (by rw [hcls]; rfl)).trans ?_
  simp only [ha.agent, ha.home, hfind]
  rw [if_neg (by simp [hown])]
  refine congrArg (fun u : State => Host.Outcome.next u.tick) ?_
  show (((wroteBack s m a).setDir m.addr ⟨none, []⟩).startAll.settle).withdrawOn a = _
  rw [startAll_nil hq.1 htx, settle_noneWaits hq, withdrawOn_stays a hq.2.2.2.2]

/-- A read that waits for the owner's WbData. -/
abbrev awaitsWb (t : Txn) (a : Nat) : Txn := { t with st := 4, await := [a] }

/-- WbData of the owner, for the read that waits for it. -/
theorem Answering.writesBack_waited (ha : Answering s m h a r t) (hop : m.op = 0x32) (hcls : m.cls = 3) (hd : s.dir m.addr = ⟨some a, []⟩)
    (ht : s.txns = [awaitsWb t a]) (hq : NoneWaits (((wroteBack s m a).dirDrop m.addr a).answered (awaitsWb t a) a).settle) :
    execWbdata m s = .next (((wroteBack s m a).dirDrop m.addr a).answered (awaitsWb t a) a).settle.tick := by
  have hfind : s.txns.find? (fun t => t.line == m.addr && decide (2 ≤ t.st) && t.await.contains a) = some (awaitsWb t a) := by
    rw [ht]
    simp [ha.line]
  refine (State.receive_own s m 0x32 _ ha.run hop (by rw [hcls]; rfl)).trans ?_
  simp only [ha.agent, ha.home, hfind]
  rw [if_neg (by simp [hd])]
  exact congrArg (fun u : State => Host.Outcome.next u.tick) (withdrawOn_stays a hq.2.2.2.2)

end

section
variable {s : State} {m : CrMsg} {h a b r ns : Nat} {t : Txn}

/-! A request by the directory, in a SHARED page. -/

theorem Alone.rdshr (ha : Alone s m h a) (hb : b < 2) (hab : b ≠ a) (hbias : s.lineBias m.addr = 0) (hcls : m.cls = 0) (hop : m.op = 1) :
    ∃ t, execRdshr m s = .next t
      ∧ (s.dir m.addr = ⟨none, []⟩ → HomeAnswers s m t 0x30 2 (s.rawLine m.addr) ⟨some a, []⟩)
      ∧ (s.dir m.addr = ⟨none, [b]⟩ → HomeAnswers s m t 0x30 1 (s.rawLine m.addr) ⟨none, [b, a]⟩)
      ∧ (s.dir m.addr = ⟨some b, []⟩ → HomeSnoops s m h b t 0x10 false) := by
  refine ⟨_, ha.receives hop (by rw [hcls]; rfl), fun hd => ?_, fun hd => ?_, fun hd => ?_⟩ <;> rw [ha.serves hbias]
  · rw [serveDir_shr_uncached (s := opened s h m) (t := openTxn h m) ha.me hop hd]
    exact ha.dataEntry ⟨some a, []⟩ (by decide)
  · rw [serveDir_shr_shared (s := opened s h m) (t := openTxn h m) ha.me ha.gone hab hop hd]
    exact ha.dataEntry ⟨none, [b, a]⟩ (by decide)
  · rw [serveDir_shr_owned (s := opened s h m) (t := openTxn h m) ha.me ha.gone hab hop hd]
    exact ha.snoops hb (by decide) false

theorem Alone.rdown (ha : Alone s m h a) (hb : b < 2) (hab : b ≠ a) (hbias : s.lineBias m.addr = 0) (hcls : m.cls = 0) (hop : m.op = 2) :
    ∃ t, execRdown m s = .next t
      ∧ (s.dir m.addr = ⟨none, []⟩ → HomeAnswers s m t 0x30 2 (s.rawLine m.addr) ⟨some a, []⟩)
      ∧ (s.dir m.addr = ⟨none, [b]⟩ → HomeSnoops s m h b t 0x11 false)
      ∧ (s.dir m.addr = ⟨some b, []⟩ → HomeSnoops s m h b t 0x11 true) := by
  refine ⟨_, ha.receives hop (by rw [hcls]; rfl), fun hd => ?_, fun hd => ?_, fun hd => ?_⟩ <;> rw [ha.serves hbias]
  · rw [serveDir_own_uncached (s := opened s h m) (t := openTxn h m) ha.me hop hd]
    exact ha.dataEntry ⟨some a, []⟩ (by decide)
  · rw [serveDir_own_shared (s := opened s h m) (t := openTxn h m) ha.me ha.gone hab hop hd]
    exact ha.snoops hb (by decide) false
  · rw [serveDir_own_owned (s := opened s h m) (t := openTxn h m) ha.me ha.gone hab hop hd]
    exact ha.snoops hb (by decide) true

theorem Alone.upgr (ha : Alone s m h a) (hbias : s.lineBias m.addr = 0) (hcls : m.cls = 0) (hop : m.op = 3) :
    ∃ t, execUpgr m s = .next t
      ∧ (s.dir m.addr = ⟨none, [a]⟩ → HomeAnswers s m t 0x28 2 0 ⟨some a, []⟩)
      ∧ (s.dir m.addr = ⟨none, []⟩ → HomeAnswers s m t 0x30 2 (s.rawLine m.addr) ⟨some a, []⟩) := by
  refine ⟨_, ha.receives hop (by rw [hcls]; rfl), fun hd => ?_, fun hd => ?_⟩ <;> rw [ha.serves hbias]
  · rw [serveDir_upgr_sharer (s := opened s h m) (t := openTxn h m) ha.me hop hd]
    exact ha.cmpEntry ⟨some a, []⟩ (by decide)
  · rw [serveDir_upgr_uncached (s := opened s h m) (t := openTxn h m) ha.me hop hd]
    exact ha.dataEntry ⟨some a, []⟩ (by decide)

theorem Alone.rdna (ha : Alone s m h a) (hb : b < 2) (hab : b ≠ a) (hbias : s.lineBias m.addr = 0) (hcls : m.cls = 0) (hop : m.op = 4) :
    ∃ t, execRdna m s = .next t
      ∧ ((s.dir m.addr).owner = none → HomeAnswers s m t 0x30 0 (s.rawLine m.addr) (s.dir m.addr))
      ∧ (s.dir m.addr = ⟨some b, []⟩ → HomeSnoops s m h b t 0x12 false) := by
  refine ⟨_, ha.receives hop (by rw [hcls]; rfl), fun hd => ?_, fun hd => ?_⟩ <;> rw [ha.serves hbias]
  · rw [serveDir_na_unowned (s := opened s h m) (t := openTxn h m) hop hd]
    exact ha.data (u := opened s h m) (st := 0) (by decide) rfl rfl
  · rw [serveDir_na_owned (s := opened s h m) (t := openTxn h m) ha.me ha.gone hab hop hd]
    exact ha.snoops hb (by decide) false

/-- The home has put the line in memory, and no copy is left. -/
theorem wholeLine_entry (hq : NoneWaits s) : ∃ u, ((opened s h m).setRawLine m.addr m.data).setDir m.addr ⟨none, []⟩ = u
    ∧ { u with dirs := s.dirs, mem := s.mem } = opened s h m ∧ u.dir m.addr = ⟨none, []⟩ ∧ u.mem = (s.setRawLine m.addr m.data).mem ∧ NoneWaits u := by
  obtain ⟨mm, hmm⟩ := setRawLine_mem (s := opened s h m) m.addr m.data
  have hmem : mm = (s.setRawLine m.addr m.data).mem := (congrArg State.mem hmm).symm.trans (rawBytes_congr (t := opened s h m) (s := s) rfl _ _)
  refine ⟨_, rfl, ?_, setDir_dir _ _, ?_, ?_⟩ <;> rw [hmm]
  · rfl
  · exact hmem
  · exact hq

theorem Alone.wrinvfull (ha : Alone s m h a) (hbias : s.lineBias m.addr = 0) (hcls : m.cls = 3) (hop : m.op = 0x33) (hd : s.dir m.addr = ⟨none, []⟩) :
    ∃ t, execWrinvfull m s = .next t ∧ HomeAnswers s m t 0x28 0 0 ⟨none, []⟩ ∧ t.rawLine m.addr = m.data := by
  refine ⟨_, ha.receives hop (by rw [hcls]; rfl), ?_⟩
  rw [ha.serves hbias, serveDir_write_uncached (s := opened s h m) (t := openTxn h m) hop hd]
  obtain ⟨u, hu, hrest, hdir, hmem, hq⟩ := wholeLine_entry (h := h) (m := m) ha.waits
  rw [hu]
  obtain ⟨rs, hrs⟩ := sendCmp_sends (s := u) (openTxn h m) 0
  have hquiet : NoneWaits ((u.sendCmp (openTxn h m) 0).closeTxn (openTxn h m)) := by
    rw [hrs]
    exact hq
  refine ⟨hdir ▸ ha.cmp (st := 0) (by decide) hrest, rawLine_written (s := s) ?_⟩
  rw [settle_noneWaits hquiet, hrs]
  exact hmem

/-- An access of host origin to a DEVICE page is held at its home. -/
theorem Alone.held (ha : Alone s m h a) (hbias : s.lineBias m.addr = 1) (hcls : m.cls = 0) (hop : m.op = 1) :
    ∃ t, execRdshr m s = .next t ∧ t.out = s.out ∧ t.mem = s.mem ∧ t.txns = [⟨h, m.addr, 1, m.src, m.txn, true, false, m.data, 1, []⟩] := by
  have hserve : (opened s h m).serve (openTxn h m) = { s with txns := [{ openTxn h m with st := 1 }] } := by
    rw [serve_device (s := opened s h m) (t := openTxn h m) ha.run ha.ecc hbias ha.host ha.spec]
    exact putTxn_only (s := opened s h m) (t := { openTxn h m with st := 1 }) (t' := openTxn h m) rfl ⟨rfl, rfl, rfl⟩
  refine ⟨_, ha.receives hop (by rw [hcls]; rfl), ?_⟩
  rw [hserve, settle_noneWaits (s := { s with txns := [{ openTxn h m with st := 1 }] }) ha.waits]
  refine ⟨rfl, rfl, ?_⟩
  show [({ openTxn h m with st := 1 } : Txn)] = _
  simp only [ha.host, ha.spec, hop]

/-! The answers of the agents. -/

theorem setDir_tick_dir (u : State) (line : Nat) (e : DirSt) : (u.setDir line e).tick.dir line = e := setDir_dir line e

theorem setDir_tick_mem (u : State) (line : Nat) (e : DirSt) : (u.setDir line e).tick.mem = u.mem := rfl

theorem Answering.rspi (ha : Answering s m h a r t) (hns : ns ≤ 96) (hcls : m.cls = 2) (hreqr : m.reqr = t.src) (htxn : m.txn = t.txn) (ht : s.txns = [asking t a])
    (hd : s.dir m.addr = ⟨some a, []⟩) (hop : m.op = 0x20) :
    ∃ u, execRspi m ns s = .next u ∧ u.dir m.addr = ⟨some r, []⟩ ∧ ReadEnds s t u 2 (s.rawLine m.addr) := by
  have hline : (asking t a).line = m.addr := ha.line
  refine ⟨_, ha.responds hns hreqr htxn ht hop (by rw [hcls]; rfl) _, ?_⟩
  dsimp only
  rw [hline]
  obtain ⟨hread, hdir, -⟩ := ha.drops (u := timed s a ns) (t' := asking t a) rfl rfl ht ha.run ha.waits ha.ecc ha.bias rfl hd
  exact ⟨hdir, hread⟩

theorem Answering.rsps (ha : Answering s m h a r t) (hns : ns ≤ 96) (hcls : m.cls = 2) (hreqr : m.reqr = t.src) (htxn : m.txn = t.txn) (ht : s.txns = [asking t a])
    (hd : s.dir m.addr = ⟨some a, []⟩) (hop : m.op = 0x21) :
    ∃ u, execRsps m ns s = .next u ∧ u.dir m.addr = ⟨none, [a, r]⟩ ∧ ReadEnds s t u 1 (s.rawLine m.addr) := by
  have hline : (asking t a).line = m.addr := ha.line
  have hsharers : (((timed s a ns).dir m.addr).sharers.filter (· ≠ a) ++ [a]) = [a] := by
    rw [show (timed s a ns).dir m.addr = _ from hd]
    rfl
  have hop4 : (asking t a).op ≠ 4 := by rw [show (asking t a).op = 1 from ha.op]; decide
  refine ⟨_, ha.responds hns hreqr htxn ht hop (by rw [hcls]; rfl) _, ?_⟩
  dsimp only [hline]
  rw [if_neg hop4, hline, hsharers]
  obtain ⟨hread, hdir, -⟩ := ha.shares (u := (timed s a ns).setDir m.addr ⟨none, [a]⟩) ht ha.run ha.waits ha.ecc ha.bias ha.gone rfl (setDir_dir _ _)
  exact ⟨hdir, hread⟩

theorem Answering.rspfwd (ha : Answering s m h a r t) (hns : ns ≤ 96) (hcls : m.cls = 2) (hreqr : m.reqr = t.src) (htxn : m.txn = t.txn) (ht : s.txns = [asking t a])
    (hwb : s.wbs = []) (hop : m.op = 0x22) :
    ∃ u, execRspfwd m ns s = .next u ∧ u.dir m.addr = ⟨none, [a, r]⟩ ∧ u.txns = [] ∧ u.out = s.out := by
  have hcomes : (timed s a ns).wbComes a (asking t a).line = false := by
    rw [State.wbComes, show (timed s a ns).wbs = [] from hwb]
    rfl
  refine ⟨_, ha.responds hns hreqr htxn ht hop (by rw [hcls]; rfl) _, ?_⟩
  dsimp only
  rw [if_neg (Bool.eq_false_iff.1 hcomes), ha.forwarded (t' := asking t a) rfl rfl rfl]
  have hclosed : (((timed s a ns).setDir m.addr ⟨none, [a, r]⟩).closeTxn (asking t a)).txns = [] :=
    closeTxn_only (t' := asking t a) ht ⟨rfl, rfl, rfl⟩
  rw [startAll_nil (s := ((timed s a ns).setDir m.addr ⟨none, [a, r]⟩).closeTxn (asking t a)) ha.waits.1 hclosed,
    settle_noneWaits (s := ((timed s a ns).setDir m.addr ⟨none, [a, r]⟩).closeTxn (asking t a)) ha.waits]
  exact ⟨setDir_dir (s := timed s a ns) m.addr ⟨none, [a, r]⟩, hclosed, rfl⟩

theorem Answering.rspwbpend (ha : Answering s m h a r t) (hns : ns ≤ 96) (hcls : m.cls = 2) (hreqr : m.reqr = t.src) (htxn : m.txn = t.txn) (ht : s.txns = [asking t a])
    {v : Line} (hwb : s.wbs = [(a, m.addr, v)]) (hop : m.op = 0x23) :
    ∃ u, execRspwbpend m ns s = .next u ∧ u.txns = [awaitsWb t a] ∧ u.out = s.out ∧ u.mem = s.mem := by
  have hcomes : (timed s a ns).wbComes a (asking t a).line = true := by
    rw [State.wbComes, show (timed s a ns).wbs = _ from hwb]
    simp [ha.line]
  have hput := putTxn_only (s := timed s a ns) (t := awaitsWb t a) (t' := asking t a) ht ⟨rfl, rfl, rfl⟩
  refine ⟨_, ha.responds hns hreqr htxn ht hop (by rw [hcls]; rfl) _, ?_⟩
  dsimp only
  rw [if_pos hcomes, show (timed s a ns).putTxn _ = _ from hput, settle_noneWaits (s := { timed s a ns with txns := [awaitsWb t a] }) ha.waits]
  exact ⟨rfl, rfl, rfl⟩

/-- The WbData has been taken already. -/
theorem Answering.rspwbpend_taken (ha : Answering s m h a r t) (hns : ns ≤ 96) (hcls : m.cls = 2) (hreqr : m.reqr = t.src) (htxn : m.txn = t.txn)
    (ht : s.txns = [asking t a]) (hd : s.dir m.addr = ⟨some a, []⟩) (hwb : s.wbs = []) (hop : m.op = 0x23) :
    ∃ u, execRspwbpend m ns s = .next u ∧ u.dir m.addr = ⟨some r, []⟩ ∧ ReadEnds s t u 2 (s.rawLine m.addr) := by
  have hline : (asking t a).line = m.addr := ha.line
  have hcomes : (timed s a ns).wbComes a m.addr = false := by
    rw [State.wbComes, show (timed s a ns).wbs = [] from hwb]
    rfl
  refine ⟨_, ha.responds hns hreqr htxn ht hop (by rw [hcls]; rfl) _, ?_⟩
  dsimp only [hline]
  rw [hline, if_neg (Bool.eq_false_iff.1 hcomes)]
  obtain ⟨hread, hdir, -⟩ := ha.drops (u := timed s a ns) (t' := asking t a) rfl rfl ht ha.run ha.waits ha.ecc ha.bias rfl hd
  exact ⟨hdir, hread⟩

theorem Answering.wbdata (ha : Answering s m h a r t) (hcls : m.cls = 3) (hop : m.op = 0x32) (hown : (s.dir m.addr).owner = some a) (ht : s.txns = []) :
    ∃ u, execWbdata m s = .next u ∧ u.rawLine m.addr = m.data ∧ u.dir m.addr = ⟨none, []⟩ ∧ u.out = s.out := by
  obtain ⟨ws, rs, wt, mm, heq⟩ := wroteBack_eq (s := s) (m := m) (a := a)
  refine ⟨_, ha.writesBack hop hcls hown ht, rawLine_written (s := wbTaken s m a) (setDir_tick_mem (wroteBack s m a) ..),
    setDir_tick_dir (wroteBack s m a) .., ?_⟩
  rw [heq]
  rfl

theorem Answering.wbdata_waited (ha : Answering s m h a r t) (hcls : m.cls = 3) (hop : m.op = 0x32) (hd : s.dir m.addr = ⟨some a, []⟩) (ht : s.txns = [awaitsWb t a]) :
    ∃ u, execWbdata m s = .next u ∧ u.dir m.addr = ⟨some r, []⟩ ∧ ReadEnds s t u 2 m.data := by
  obtain ⟨ws, rs, wt, mm, heq⟩ := wroteBack_eq (s := s) (m := m) (a := a)
  have hline := wroteBack_line (s := s) (m := m) (a := a)
  have hends := ha.drops (u := wroteBack s m a) (t' := awaitsWb t a) rfl rfl (by rw [heq]; exact ht) (by rw [heq]; exact ha.run) (by rw [heq]; exact ha.waits)
    (by rw [heq]; exact ha.ecc) (by rw [heq]; exact ha.bias) (by rw [heq]) (by rw [heq]; exact hd)
  obtain ⟨hread, hdir, hquiet⟩ := hends
  rw [hline] at hread
  exact ⟨_, ha.writesBack_waited hop hcls hd ht hquiet, hdir, hread⟩

end

/-- Settles O46: a request is served by the directory's entry of its line, and an answer by the transaction that waits for it; where nothing else waits, nothing
goes on after either. -/
theorem homes : Obligations.Homes := by
  refine ⟨?requests, ?answers⟩
  case requests =>
    intro s m h a b hrun hhome hagent hb hab hhost hspec htxns hgone hecc haway hwaits
    have ha : Alone s m h a := ⟨hrun, hhome, hagent, hhost, hspec, htxns, hgone, hecc, haway, hwaits⟩
    exact ⟨fun hbias => ⟨ha.rdshr hb hab hbias, ha.rdown hb hab hbias, ha.upgr hbias, ha.rdna hb hab hbias, ha.wrinvfull hbias⟩, ha.held⟩
  case answers =>
    intro s m h a r ns t hrun hhome hagent hns hreader hother hat hline hop hhost hspec htxn hbias hgone hecc hwaits
    have ha : Answering s m h a r t := ⟨hrun, hhome, hagent, hreader, hother, hat, hline, hop, hhost, hspec, htxn, hbias, hgone, hecc, hwaits⟩
    refine ⟨fun hcls hreqr htx ht hd => ⟨ha.rspi hns hcls hreqr htx ht hd, ha.rsps hns hcls hreqr htx ht hd, fun hop' hwb => ha.rspfwd hns hcls hreqr htx ht hwb hop',
      fun v hop' hwb => ha.rspwbpend hns hcls hreqr htx ht hwb hop', fun hop' hwb => ha.rspwbpend_taken hns hcls hreqr htx ht hd hwb hop'⟩,
      fun hcls hop' hown => ⟨ha.wbdata hcls hop' hown, fun ht hd => ha.wbdata_waited hcls hop' hd ht⟩⟩

/-! The lines of the caching agents. -/

section
variable {s : State} {a line : Nat}

theorem held_spec {c : CacheLine} (h : s.held a line = some c) : c.agent = a ∧ c.line = line := by
  have := List.find?_some h
  simpa using this

theorem setLine_held {st : Nat} (hst : st ≠ 0) (d : Line) : (s.setLine a line st d).held a line = some ⟨a, line, st, d⟩ := by
  have hrest : (s.lines.filter (fun c => !(c.agent == a && c.line == line))).find? (fun c => c.agent == a && c.line == line) = none := by
    rw [List.find?_eq_none]
    intro c hc
    simpa [imp_iff_not_or] using (List.mem_filter.1 hc).2
  unfold State.held State.setLine
  dsimp only
  rw [if_neg hst, List.find?_append, hrest]
  simp

theorem setLine_dropped (d : Line) : (s.setLine a line 0 d).held a line = none := by
  unfold State.held State.setLine
  dsimp only
  rw [if_pos rfl, List.find?_eq_none]
  intro c hc
  simpa [imp_iff_not_or] using (List.mem_filter.1 hc).2

/-- A line changes the caches alone. -/
theorem setLine_rest (st : Nat) (d : Line) : { s.setLine a line st d with lines := s.lines, l2 := s.l2 } = s := rfl

end

/-! What an agent sends for a snoop (R434, R437). -/

section
variable {s : State} {a : Nat} {m : CrMsg}

/-- Its response to the home. -/
abbrev rspMsg (a : Nat) (m : CrMsg) (op st : Nat) : CrMsg := crMsg op (agentSrc a) m.src m.txn m.reqr st m.host false false m.addr 0
/-- The line for the requester. -/
abbrev fwdMsg (a : Nat) (m : CrMsg) (st : Nat) (d : Line) : CrMsg := crMsg 0x31 (agentSrc a) m.reqr m.txn m.reqr st m.host false false m.addr d
/-- The line for the home. -/
abbrev wbMsg (a : Nat) (m : CrMsg) (d : Line) : CrMsg := crMsg 0x32 (agentSrc a) m.src m.txn m.reqr 0 m.host false false m.addr d

/-- A message that answers the snoop, with the line's value where it carries one. -/
def SnoopMsg (m : CrMsg) (d : Line) (r : CrMsg) : Prop :=
  (r.txn = m.txn ∧ r.addr = m.addr ∧ r.dst = (if r.op = 0x31 then m.reqr else m.src)) ∧ (r.op = 0x31 → r.data = d) ∧ (r.op = 0x32 → r.data = d)

theorem snoopMsg_rsp {op : Nat} (st : Nat) (hop : op < 0x30) (d : Line) : SnoopMsg m d (rspMsg a m op st) := by
  have hcode : (rspMsg a m op st).op = op := (crMsg_op ..).trans (Nat.mod_eq_of_lt (by omega))
  refine ⟨⟨(crMsg_txn ..).trans (Nat.mod_eq_of_lt (crMsg_txn_lt m)), (crMsg_addr ..).trans (Nat.mod_eq_of_lt (crMsg_addr_lt m)), ?_⟩, fun h => ?_, fun h => ?_⟩
  · rw [hcode, if_neg (by omega)]
    exact (crMsg_dst ..).trans (Nat.mod_eq_of_lt (crMsg_src_lt m))
  all_goals omega

theorem snoopMsg_fwd (st : Nat) (d : Line) : SnoopMsg m d (fwdMsg a m st d) := by
  have hcode : (fwdMsg a m st d).op = 0x31 := crMsg_op ..
  refine ⟨⟨(crMsg_txn ..).trans (Nat.mod_eq_of_lt (crMsg_txn_lt m)), (crMsg_addr ..).trans (Nat.mod_eq_of_lt (crMsg_addr_lt m)), ?_⟩, fun _ => rfl, fun _ => rfl⟩
  rw [hcode, if_pos rfl]
  exact (crMsg_dst ..).trans (Nat.mod_eq_of_lt (crMsg_reqr_lt m))

theorem snoopMsg_wb (d : Line) : SnoopMsg m d (wbMsg a m d) := by
  have hcode : (wbMsg a m d).op = 0x32 := crMsg_op ..
  refine ⟨⟨(crMsg_txn ..).trans (Nat.mod_eq_of_lt (crMsg_txn_lt m)), (crMsg_addr ..).trans (Nat.mod_eq_of_lt (crMsg_addr_lt m)), ?_⟩, fun _ => rfl, fun _ => rfl⟩
  rw [hcode, if_neg (by decide)]
  exact (crMsg_dst ..).trans (Nat.mod_eq_of_lt (crMsg_src_lt m))

/-- From `s` to `t` the agent sends messages with these codes, that answer the snoop. -/
def AgentSends (s : State) (m : CrMsg) (t : State) (ops : List Nat) (d : Line) : Prop := ∃ rs : List CrMsg, t.out = s.out ++ rs.map Out.crimon ∧ rs.map CrMsg.op = ops
  ∧ (∀ r ∈ rs, r.txn = m.txn ∧ r.addr = m.addr ∧ r.dst = (if r.op = 0x31 then m.reqr else m.src)) ∧ (∀ r ∈ rs, r.op = 0x31 → r.data = d) ∧ (∀ r ∈ rs, r.op = 0x32 → r.data = d)

theorem AgentSends.of {t : State} {ops : List Nat} {d : Line} (rs : List CrMsg) (hout : t.out = s.out ++ rs.map Out.crimon) (hops : rs.map CrMsg.op = ops)
    (hrs : ∀ r ∈ rs, SnoopMsg m d r) : AgentSends s m t ops d :=
  ⟨rs, hout, hops, fun r hr => (hrs r hr).1, fun r hr => (hrs r hr).2.1, fun r hr => (hrs r hr).2.2⟩

theorem agentSends_rsp {t : State} {op : Nat} (st : Nat) (hop : op < 0x30) (d : Line) (hout : t.out = s.out ++ [.crimon (rspMsg a m op st)]) : AgentSends s m t [op] d :=
  .of [rspMsg a m op st] hout (congrArg (fun n => [n]) ((crMsg_op ..).trans (Nat.mod_eq_of_lt (by omega)))) (by
    rintro r (_ | ⟨_, ⟨⟩⟩)
    exact snoopMsg_rsp st hop d)

theorem agentSends_fwd {t : State} {op : Nat} (st st' : Nat) (hop : op < 0x30) {d : Line} (hout : t.out = s.out ++ [.crimon (fwdMsg a m st' d), .crimon (rspMsg a m op st)]) :
    AgentSends s m t [0x31, op] d :=
  .of [fwdMsg a m st' d, rspMsg a m op st] hout (congrArg₂ (fun n k => [n, k]) (crMsg_op ..) ((crMsg_op ..).trans (Nat.mod_eq_of_lt (by omega)))) (by
    rintro r (_ | ⟨_, _ | ⟨_, ⟨⟩⟩⟩)
    · exact snoopMsg_fwd st' d
    · exact snoopMsg_rsp st hop d)

theorem agentSends_wb {t : State} {op : Nat} (st : Nat) (hop : op < 0x30) {d : Line} (hout : t.out = s.out ++ [.crimon (wbMsg a m d), .crimon (rspMsg a m op st)]) :
    AgentSends s m t [0x32, op] d :=
  .of [wbMsg a m d, rspMsg a m op st] hout (congrArg₂ (fun n k => [n, k]) (crMsg_op ..) ((crMsg_op ..).trans (Nat.mod_eq_of_lt (by omega)))) (by
    rintro r (_ | ⟨_, _ | ⟨_, ⟨⟩⟩⟩)
    · exact snoopMsg_wb d
    · exact snoopMsg_rsp st hop d)

theorem agentSends_fwdWb {t : State} {op : Nat} (st st' : Nat) (hop : op < 0x30) {d : Line}
    (hout : t.out = s.out ++ [.crimon (fwdMsg a m st' d), .crimon (wbMsg a m d), .crimon (rspMsg a m op st)]) : AgentSends s m t [0x31, 0x32, op] d :=
  .of [fwdMsg a m st' d, wbMsg a m d, rspMsg a m op st] hout
    (by simp only [List.map_cons, List.map_nil]; rw [crMsg_op, crMsg_op, crMsg_op, Nat.mod_eq_of_lt (show op < 2 ^ 6 by omega)]; rfl) (by
    rintro r (_ | ⟨_, _ | ⟨_, _ | ⟨_, ⟨⟩⟩⟩⟩)
    · exact snoopMsg_fwd st' d
    · exact snoopMsg_wb d
    · exact snoopMsg_rsp st hop d)

end

section
variable {s : State} {a : Nat} {m : CrMsg} {c : CacheLine}

/-! How an agent answers, by its line (R434, R437). -/

/-- The line has gone to the requester, whose request is granted. -/
def fwdSent (s : State) (a : Nat) (m : CrMsg) (st : Nat) (d : Line) : State :=
  let s0 := s.send (.crimon (fwdMsg a m st d))
  let s1 := if m.host then s0.grant m.reqr m.txn true else s0
  if st = 3 then { s1 with reqs := s1.reqs.map (fun r => if some r.agent = agentOf m.reqr && r.txn = m.txn then { r with flight := some d } else r) } else s1

theorem fwdSent_eq (st : Nat) (d : Line) : ∃ rs, fwdSent s a m st d = { s with out := s.out ++ [.crimon (fwdMsg a m st d)], reqs := rs } := by
  obtain ⟨rs, hrs⟩ := grant_reqs (s := s.send (.crimon (fwdMsg a m st d))) m.reqr m.txn true
  unfold fwdSent
  dsimp only
  rw [hrs]
  split <;> split <;> exact ⟨_, rfl⟩

/-- A granted Upgr of the line is void. -/
def keptShared (s : State) (a : Nat) (m : CrMsg) : State := { s with reqs := s.reqs.map (fun (r : Req) =>
    if r.agent = a && r.line = m.addr && r.op = 3 && r.granted then { r with stale := true } else r) }

/-- The line is on its way home. -/
def wbSent (s : State) (a : Nat) (m : CrMsg) (d : Line) : State := { s with wbs := s.wbs ++ [(a, m.addr, d)] }.send (.crimon (wbMsg a m d))

/-- The agent has counted the snoop. -/
abbrev counted (s : State) (a : Nat) : State := s.inc (F.CRM_AGENT_SNOOPS a)

/-- The response, last of what the agent sends. -/
abbrev answered (s : State) (a : Nat) (m : CrMsg) (op st : Nat) : State := s.send (.crimon (rspMsg a m op st))

theorem answerSnoop_none (hw : s.wbs = []) (hl : s.held a m.addr = none) : s.answerSnoop a m = answered (counted s a) a m 0x20 0 := by
  unfold State.answerSnoop
  have hcomes : (counted s a).wbComes a m.addr = false := by rw [State.wbComes, show (counted s a).wbs = [] from hw]; rfl
  have hheld : (counted s a).held a m.addr = none := hl
  simp only [hcomes, hheld]
  rfl

/-- The answer by the snoop's OP and the line's state, where the agent holds the line and no WbData of it is under way. -/
def answerHolding (s : State) (a : Nat) (m : CrMsg) (c : CacheLine) : State :=
  match m.op with
  | 0x10 =>
    if c.st = 1 then answered (keptShared s a m) a m 0x21 1
    else
      let s1 := fwdSent s a m 1 c.data
      answered ((if c.st = 3 then wbSent s1 a m c.data else s1).setLine a m.addr 1 c.data) a m 0x22 1
  | 0x11 => if m.fwd && 2 ≤ c.st then answered (fwdSent (s.setLine a m.addr 0 0) a m c.st c.data) a m 0x22 0 else answered (s.setLine a m.addr 0 0) a m 0x20 0
  | 0x12 => if c.st = 1 then answered (keptShared s a m) a m 0x21 1 else answered (fwdSent s a m 0 c.data) a m 0x22 c.st
  | _ => answered (if c.st = 3 then wbSent (s.setLine a m.addr 0 0) a m c.data else s.setLine a m.addr 0 0) a m 0x20 0

theorem answerSnoop_holding (hw : s.wbs = []) (hl : s.held a m.addr = some c) : s.answerSnoop a m = answerHolding (counted s a) a m c := by
  unfold State.answerSnoop answerHolding
  have hcomes : (counted s a).wbComes a m.addr = false := by rw [State.wbComes, show (counted s a).wbs = [] from hw]; rfl
  have hheld : (counted s a).held a m.addr = some c := hl
  simp only [hcomes, hheld]
  rfl

theorem fwdSent_leaving (st : Nat) (d : Line) : (fwdSent s a m st d).leaving = s.leaving := by
  obtain ⟨rs, hrs⟩ := fwdSent_eq (s := s) (a := a) (m := m) st d
  rw [hrs]

theorem answerHolding_leaving : (answerHolding s a m c).leaving = s.leaving := by
  have hkeep (u : State) (op st : Nat) (h : u.leaving = s.leaving) : (answered u a m op st).leaving = s.leaving := h
  unfold answerHolding
  split
  · split
    · exact hkeep _ _ _ rfl
    · refine hkeep _ _ _ (Eq.trans ?_ (fwdSent_leaving (s := s) (a := a) (m := m) 1 c.data))
      split <;> rfl
  · split
    · exact hkeep _ _ _ (fwdSent_leaving (s := s.setLine a m.addr 0 0) c.st c.data)
    · exact hkeep _ _ _ rfl
  · split
    · exact hkeep _ _ _ rfl
    · exact hkeep _ _ _ (fwdSent_leaving (s := s) 0 c.data)
  · refine hkeep _ _ _ ?_
    split <;> rfl

theorem answerShr_shared (hop : m.op = 0x10) (hst : c.st = 1) : answerHolding s a m c = answered (keptShared s a m) a m 0x21 1 := by
  unfold answerHolding
  simp only [hop, hst]
  rfl

theorem answerShr_exclusive (hop : m.op = 0x10) (hst : c.st = 2) :
    answerHolding s a m c = answered ((fwdSent s a m 1 c.data).setLine a m.addr 1 c.data) a m 0x22 1 := by
  unfold answerHolding
  simp only [hop, hst]
  rfl

theorem answerShr_modified (hop : m.op = 0x10) (hst : c.st = 3) :
    answerHolding s a m c = answered ((wbSent (fwdSent s a m 1 c.data) a m c.data).setLine a m.addr 1 c.data) a m 0x22 1 := by
  unfold answerHolding
  simp only [hop, hst]
  rfl

theorem answerInv (hop : m.op = 0x11) : answerHolding s a m c = if m.fwd && 2 ≤ c.st then answered (fwdSent (s.setLine a m.addr 0 0) a m c.st c.data) a m 0x22 0
    else answered (s.setLine a m.addr 0 0) a m 0x20 0 := by
  unfold answerHolding
  simp only [hop]

theorem answerCur (hop : m.op = 0x12) : answerHolding s a m c = if c.st = 1 then answered (keptShared s a m) a m 0x21 1
    else answered (fwdSent s a m 0 c.data) a m 0x22 c.st := by
  unfold answerHolding
  simp only [hop]

theorem answerFlush (hop : m.op = 0x13) : answerHolding s a m c = answered (if c.st = 3 then wbSent (s.setLine a m.addr 0 0) a m c.data else s.setLine a m.addr 0 0) a m 0x20 0 := by
  unfold answerHolding
  simp only [hop]

/-! A snoop that arrives where nothing is open. -/

/-- A snoop comes to an agent, and nothing of the agents is open. -/
structure Snooped (s : State) (m : CrMsg) (a : Nat) : Prop where
  run : s.stopped = false
  agent : agentOf m.dst = some a
  cls : m.cls = 1
  wbs : s.wbs = []
  reqs : s.reqs = []
  waits : NoneWaits s

theorem Snooped.answers (h : Snooped s m a) (hten : s.tenures = []) {op : Nat} (hop : m.op = op) (hcls : opClass op = some 1) :
    s.receive m op (s.snoopArrives m) = .next (s.answerSnoop a m) := by
  have hleave : (s.answerSnoop a m).leaving = [] := by
    cases hl : s.held a m.addr with
    | none => rw [answerSnoop_none h.wbs hl]; exact h.waits.2.2.2.2
    | some c =>
      rw [answerSnoop_holding h.wbs hl, answerHolding_leaving]
      exact h.waits.2.2.2.2
  rw [State.receive_own s m op _ h.run hop (by rw [h.cls, hcls])]
  unfold State.snoopArrives
  simp only [h.agent, hten, h.reqs]
  exact congrArg Host.Outcome.next (withdrawOn_stays a hleave)

theorem Snooped.answers_none (h : Snooped s m a) (hten : s.tenures = []) {op : Nat} (hop : m.op = op) (hcls : opClass op = some 1) (hl : s.held a m.addr = none) :
    ∃ t, s.receive m op (s.snoopArrives m) = .next t ∧ AgentSends s m t [0x20] 0 ∧ t.lines = s.lines ∧ t.mem = s.mem := by
  refine ⟨_, h.answers hten hop hcls, ?_⟩
  rw [answerSnoop_none h.wbs hl]
  exact ⟨agentSends_rsp (a := a) 0 (by decide) 0 rfl, rfl, rfl⟩

theorem Snooped.answers_holding (h : Snooped s m a) (hten : s.tenures = []) {op : Nat} (hop : m.op = op) (hcls : opClass op = some 1) (hl : s.held a m.addr = some c) :
    s.receive m op (s.snoopArrives m) = .next (answerHolding (counted s a) a m c) := by
  rw [h.answers hten hop hcls, answerSnoop_holding h.wbs hl]

theorem answered_held (u : State) (op st b line : Nat) : (answered u a m op st).held b line = u.held b line := rfl

/-- The agent keeps the line in S, and the home's copy is up to date or on its way. -/
def LeftShared (s : State) (m : CrMsg) (a : Nat) (c : CacheLine) (t : State) (ops : List Nat) (wbs : List (Nat × Nat × Line)) : Prop :=
  AgentSends s m t ops c.data ∧ t.held a m.addr = some { c with st := 1 } ∧ t.wbs = wbs

theorem setLine_shared (hl : s.held a m.addr = some c) (u : State) : (u.setLine a m.addr 1 c.data).held a m.addr = some { c with st := 1 } := by
  obtain ⟨rfl, hline⟩ := held_spec hl
  rw [setLine_held (by decide), ← hline]

theorem leftShared_shared (hw : s.wbs = []) (hl : s.held a m.addr = some c) (hop : m.op = 0x10) (hst : c.st = 1) :
    LeftShared s m a c (answerHolding (counted s a) a m c) [0x21] [] := by
  have hsame : { c with st := 1 } = c := by rw [← hst]
  rw [answerShr_shared hop hst]
  exact ⟨agentSends_rsp (a := a) 1 (by decide) _ rfl, hsame ▸ hl, hw⟩

theorem leftShared_exclusive (hw : s.wbs = []) (hl : s.held a m.addr = some c) (hop : m.op = 0x10) (hst : c.st = 2) :
    LeftShared s m a c (answerHolding (counted s a) a m c) [0x31, 0x22] [] := by
  obtain ⟨rs, hrs⟩ := fwdSent_eq (s := counted s a) (a := a) (m := m) 1 c.data
  rw [answerShr_exclusive hop hst, hrs]
  exact ⟨agentSends_fwd (a := a) 1 1 (by decide) (List.append_assoc ..), (answered_held _ ..).trans (setLine_shared hl _), hw⟩

theorem leftShared_modified (hw : s.wbs = []) (hl : s.held a m.addr = some c) (hop : m.op = 0x10) (hst : c.st = 3) :
    LeftShared s m a c (answerHolding (counted s a) a m c) [0x31, 0x32, 0x22] [(a, m.addr, c.data)] := by
  obtain ⟨rs, hrs⟩ := fwdSent_eq (s := counted s a) (a := a) (m := m) 1 c.data
  rw [answerShr_modified hop hst, hrs]
  refine ⟨agentSends_fwdWb (a := a) 1 1 (by decide) ?_, (answered_held _ ..).trans (setLine_shared hl _), congrArg (· ++ [(a, m.addr, c.data)]) hw⟩
  exact (List.append_assoc ..).trans (List.append_assoc ..)

/-- SnpShr leaves the line in S, a dirty one on its way home too. -/
theorem Snooped.shr (h : Snooped s m a) (hten : s.tenures = []) (hl : s.held a m.addr = some c) (hlo : 1 ≤ c.st) (hhi : c.st ≤ 3) (hop : m.op = 0x10) :
    ∃ t, execSnpshr m s = .next t ∧ LeftShared s m a c t (if c.st = 1 then [0x21] else if c.st = 2 then [0x31, 0x22] else [0x31, 0x32, 0x22])
      (if c.st = 3 then [(a, m.addr, c.data)] else []) := by
  refine ⟨_, h.answers_holding hten hop rfl hl, ?_⟩
  have hst : c.st = 1 ∨ c.st = 2 ∨ c.st = 3 := by omega
  rcases hst with hst | hst | hst
  · rw [if_pos hst, if_neg (by omega)]
    exact leftShared_shared h.wbs hl hop hst
  · rw [if_neg (by omega), if_pos hst, if_neg (by omega)]
    exact leftShared_exclusive h.wbs hl hop hst
  · rw [if_neg (by omega), if_neg (by omega), if_pos hst]
    exact leftShared_modified h.wbs hl hop hst

theorem Snooped.inv (h : Snooped s m a) (hten : s.tenures = []) (hl : s.held a m.addr = some c) (hop : m.op = 0x11) :
    ∃ t, execSnpinv m s = .next t ∧ AgentSends s m t (if m.fwd = true ∧ 2 ≤ c.st then [0x31, 0x22] else [0x20]) c.data ∧ t.held a m.addr = none ∧ t.wbs = [] := by
  obtain ⟨rs, hrs⟩ := fwdSent_eq (s := (counted s a).setLine a m.addr 0 0) (a := a) (m := m) c.st c.data
  refine ⟨_, h.answers_holding hten hop rfl hl, ?_⟩
  rw [answerInv hop]
  by_cases hf : m.fwd = true ∧ 2 ≤ c.st
  · rw [if_pos (by simpa using hf), if_pos hf, hrs]
    exact ⟨agentSends_fwd (a := a) 0 c.st (by decide) (List.append_assoc ..), setLine_dropped (s := counted s a) 0, h.wbs⟩
  · rw [if_neg (by simpa using hf), if_neg hf]
    exact ⟨agentSends_rsp (a := a) 0 (by decide) _ rfl, setLine_dropped (s := counted s a) 0, h.wbs⟩

theorem Snooped.cur (h : Snooped s m a) (hten : s.tenures = []) (hl : s.held a m.addr = some c) (hop : m.op = 0x12) :
    ∃ t, execSnpcur m s = .next t ∧ AgentSends s m t (if c.st = 1 then [0x21] else [0x31, 0x22]) c.data ∧ t.lines = s.lines := by
  obtain ⟨rs, hrs⟩ := fwdSent_eq (s := counted s a) (a := a) (m := m) 0 c.data
  refine ⟨_, h.answers_holding hten hop rfl hl, ?_⟩
  rw [answerCur hop]
  by_cases hst : c.st = 1
  · rw [if_pos hst, if_pos hst]
    exact ⟨agentSends_rsp (a := a) 1 (by decide) _ rfl, rfl⟩
  · rw [if_neg hst, if_neg hst, hrs]
    exact ⟨agentSends_fwd (a := a) c.st 0 (by decide) (List.append_assoc ..), rfl⟩

theorem Snooped.flush (h : Snooped s m a) (hten : s.tenures = []) (hl : s.held a m.addr = some c) (hop : m.op = 0x13) :
    ∃ t, execSnpflush m s = .next t ∧ AgentSends s m t (if c.st = 3 then [0x32, 0x20] else [0x20]) c.data ∧ t.held a m.addr = none
      ∧ t.wbs = (if c.st = 3 then [(a, m.addr, c.data)] else []) := by
  refine ⟨_, h.answers_holding hten hop rfl hl, ?_⟩
  rw [answerFlush hop]
  by_cases hst : c.st = 3
  · rw [if_pos hst, if_pos hst, if_pos hst]
    exact ⟨agentSends_wb (a := a) 0 (by decide) (List.append_assoc ..), setLine_dropped (s := counted s a) 0, congrArg (· ++ [(a, m.addr, c.data)]) h.wbs⟩
  · rw [if_neg hst, if_neg hst, if_neg hst]
    exact ⟨agentSends_rsp (a := a) 0 (by decide) _ rfl, setLine_dropped (s := counted s a) 0, h.wbs⟩

/-- A snoop within the line's tenure is held. -/
theorem Snooped.holds (h : Snooped s m a) (hten : s.tenures = [(a, m.addr)]) (hop : m.op = 0x11) :
    execSnpinv m s = .next { s with heldSnps := s.heldSnps ++ [(a, m)] } := by
  refine (State.receive_own s m 0x11 _ h.run hop (by rw [h.cls]; rfl)).trans ?_
  unfold State.snoopArrives
  simp only [h.agent]
  rw [if_pos (by simp [hten])]

theorem answerHeld_one (hheld : s.heldSnps = [(a, m)]) : s.answerHeld a m.addr = ({ s with heldSnps := [] } : State).answerSnoop a m := by
  unfold State.answerHeld
  rw [hheld]
  simp

/-- At the end of the tenure the held snoop is answered. -/
theorem Snooped.tenure (h : Snooped s m a) (hten : s.tenures = [(a, m.addr)]) (hheld : s.heldSnps = [(a, m)]) (hl : s.held a m.addr = none) (htxns : s.txns = []) :
    ∃ t, execTenureEnd a m.addr s = .next t ∧ t.tenures = [] ∧ t.heldSnps = [] ∧ AgentSends s m t [0x20] 0 := by
  have hends : ({ s with tenures := s.tenures.filter (fun t => t ≠ (a, m.addr)) } : State).answerHeld a m.addr
      = answered (counted { s with tenures := [], heldSnps := [] } a) a m 0x20 0 := by
    rw [answerHeld_one (s := { s with tenures := s.tenures.filter (fun t => t ≠ (a, m.addr)) }) hheld, answerSnoop_none (s := { s with
      tenures := s.tenures.filter (fun t => t ≠ (a, m.addr)), heldSnps := [] }) h.wbs hl, hten]
    simp
  obtain ⟨v, hv, hquiet, htx, hv'⟩ : ∃ v, answered (counted { s with tenures := [], heldSnps := [] } a) a m 0x20 0 = v ∧ NoneWaits v ∧ v.txns = []
      ∧ v.tenures = [] ∧ v.heldSnps = [] ∧ AgentSends s m v [0x20] 0 :=
    ⟨_, rfl, h.waits, htxns, rfl, rfl, agentSends_rsp (a := a) 0 (by decide) 0 rfl⟩
  refine ⟨v.tick, ?_, hv'⟩
  unfold execTenureEnd
  rw [if_neg (by simp [h.run, hten])]
  dsimp only
  rw [hends, hv, withdrawOn_stays a hquiet.2.2.2.2, startAll_nil hquiet.1 htx, settle_noneWaits hquiet]

end

/-- Settles O47: by the snoop's OP and the line's state, what the agent sends and what it keeps. -/
theorem agentSnoops : Obligations.AgentSnoops := by
  intro s m a hrun hagent hcls hwbs hreqs hwaits
  have h : Snooped s m a := ⟨hrun, hagent, hcls, hwbs, hreqs, hwaits⟩
  refine ⟨fun hten => ⟨fun i hi hop hl => ?_, fun c hl hlo hhi => ⟨h.shr hten hl hlo hhi, h.inv hten hl, h.cur hten hl, h.flush hten hl⟩⟩,
    fun hten => ⟨h.holds hten, h.tenure hten⟩⟩
  rcases List.mem_cons.1 hi with rfl | hi
  · exact h.answers_none hten hop rfl hl
  rcases List.mem_cons.1 hi with rfl | hi
  · exact h.answers_none hten hop rfl hl
  rcases List.mem_cons.1 hi with rfl | hi
  · exact h.answers_none hten hop rfl hl
  · obtain rfl := List.mem_singleton.1 hi
    exact h.answers_none hten hop rfl hl

theorem homeOf_bounds {addr h : Nat} (hh : homeOf addr = some h) : h < 10 ∧ addr / 64 < 2 ^ 40 := by
  unfold homeOf at hh
  split at hh
  · split at hh
    · obtain rfl := Option.some.inj hh
      omega
    · cases hh
  split at hh
  · split at hh
    · obtain rfl := Option.some.inj hh
      omega
    · cases hh
  split at hh
  · split at hh
    · obtain rfl := Option.some.inj hh
      omega
    · cases hh
  · cases hh

theorem homeSrc_lt {h : Nat} (hh : h < 10) : homeSrc h < 2 ^ 16 := by interval_cases h <;> decide

section
variable {s : State} {no core addr width n : Nat} {i : Instr} {kind : HostAccess} {data : Line}

theorem freeTxn_lt {a : Nat} (h : s.freeTxn a = some n) : n < 4096 := by
  obtain ⟨k, -, rfl⟩ := List.mem_map.1 (List.mem_of_find?_eq_some h)
  exact Nat.mod_lt _ (by decide)

theorem State.coreRuns_spec (h : s.coreRuns core = true) : core / 72 < 2 ∧ s.stopped = false := by
  simp only [State.coreRuns, Bool.and_eq_true, decide_eq_true_eq, Bool.not_eq_true'] at h
  obtain ⟨⟨⟨⟨hcore, hstop⟩, -⟩, -⟩, -⟩ := h
  exact ⟨by omega, hstop⟩

theorem hostBars_unpopulated (h : homeOf addr = none) : s.hostBars addr = some false := by rw [State.hostBars, h]

theorem hostBars_none {h : Nat} (hh : homeOf addr = some h) (hb : inBiasTable addr = false) (haway : s.hdAway.contains h = false) : s.hostBars addr = none := by
  simp only [State.hostBars, hh, hb, haway]
  rfl

/-! Accesses to memory, outside the control window. -/

/-- The address is not one of the control window (R29). -/
abbrev Outside (addr : Nat) : Prop := addr < windowBase ∨ windowBase + 2 ^ 28 ≤ addr

theorem outside_iff : Outside addr → ¬ (windowBase ≤ addr && addr < windowBase + 2 ^ 28) = true := by
  intro h
  simp only [Bool.and_eq_true, decide_eq_true_eq]
  omega

theorem hostLoad_barred {away : Bool} (ho : Outside addr) (hb : s.hostBars addr = some away) (ty : HostMemType) :
    s.hostLoad no core addr width .load ty = s.accessFault core 5 addr away := by
  rw [State.hostLoad.eq_def, if_neg (outside_iff ho)]
  simp [hb]

theorem hostLoad_uncached (ho : Outside addr) (hb : s.hostBars addr = none) :
    s.hostLoad no core addr width .load .uncached = s.request no (.hostLoad core addr width .load .uncached) 4 core addr width .load 0 0 := by
  rw [State.hostLoad, if_neg (outside_iff ho)]
  simp [hb]

theorem hostLoad_hit {c : CacheLine} (ho : Outside addr) (hb : s.hostBars addr = none) (hl : s.held (core / 72) (addr / 64) = some c) :
    s.hostLoad no core addr width .load .cached = (s.useL2 core (addr / 64) false).send (.coreData core c.data) := by
  rw [State.hostLoad, if_neg (outside_iff ho)]
  simp [hb, hl]

theorem hostLoad_miss (ho : Outside addr) (hb : s.hostBars addr = none) (hl : s.held (core / 72) (addr / 64) = none) :
    s.hostLoad no core addr width .load .cached = s.request no (.hostLoad core addr width .load .cached) 1 core addr width .load 0 0 := by
  rw [State.hostLoad, if_neg (outside_iff ho)]
  simp [hb, hl]

theorem hostStore_barred {away : Bool} (ho : Outside addr) (hb : s.hostBars addr = some away) (ty : HostMemType) :
    s.hostStore no core addr width data ty false = s.accessFault core 7 addr away := by
  rw [State.hostStore, if_neg (outside_iff ho)]
  simp [hb]

theorem hostStore_uncached (ho : Outside addr) (hb : s.hostBars addr = none) :
    s.hostStore no core addr width data .uncached false
      = s.request no (.hostStore core addr width data .uncached false) (if addr % 64 = 0 ∧ width = 64 then 0x33 else 2) core addr width .load 2 data := by
  rw [State.hostStore, if_neg (outside_iff ho)]
  by_cases hwhole : addr % 64 = 0 ∧ width = 64 <;> simp [hb, hwhole]

theorem hostStore_hit {c : CacheLine} (ho : Outside addr) (hb : s.hostBars addr = none) (hl : s.held (core / 72) (addr / 64) = some c)
    (hst : 2 ≤ c.st) (hw : s.lineWaits (core / 72) (addr / 64) = false) :
    s.hostStore no core addr width data .cached false
      = (s.setLine (core / 72) (addr / 64) 3 (mergeLine c.data data (addr % 64) width)).useL2 core (addr / 64) true := by
  rw [State.hostStore, if_neg (outside_iff ho)]
  simp [hb, hl, hst, hw]

theorem hostStore_shared {c : CacheLine} (ho : Outside addr) (hb : s.hostBars addr = none) (hl : s.held (core / 72) (addr / 64) = some c) (hst : c.st = 1) :
    s.hostStore no core addr width data .cached false = s.request no (.hostStore core addr width data .cached false) 3 core addr width .load 1 data := by
  rw [State.hostStore, if_neg (outside_iff ho)]
  simp [hb, hl, hst]

theorem hostStore_miss (ho : Outside addr) (hb : s.hostBars addr = none) (hl : s.held (core / 72) (addr / 64) = none) :
    s.hostStore no core addr width data .cached false = s.request no (.hostStore core addr width data .cached false) 2 core addr width .load 1 data := by
  rw [State.hostStore, if_neg (outside_iff ho)]
  simp [hb, hl]

/-! A request of an agent (R434). -/

theorem request_waits {op store : Nat} (hw : s.lineWaits (core / 72) (addr / 64) = true) : s.request no i op core addr width kind store data = s.accessWaits no i := by
  rw [State.request]
  simp [hw]

theorem request_posts {op store : Nat} (hw : s.lineWaits (core / 72) (addr / 64) = false) (hp : s.placeFree (core / 72) = true) (hn : s.freeTxn (core / 72) = some n) :
    s.request no i op core addr width kind store data = ({ s with reqNo := (n + 1) % 4096 } : State).post n op core addr width kind store data no := by
  have hgoes : ¬ (s.lineWaits (core / 72) (addr / 64) || ((op = 1 || (op = 2 && store = 1)) && !s.placeFree (core / 72))) = true := by simp [hw, hp]
  unfold State.request
  dsimp only
  rw [if_neg hgoes]
  unfold State.withTxn
  simp only [hn]

/-- From `s` to `t` the agent of the core asks the home of the line, and holds the request open. -/
def AgentAsks (s t : State) (core addr op h store : Nat) : Prop := ∃ (r : CrMsg) (q : Req), t.out = s.out ++ [.crimon r] ∧ r.op = op ∧ r.src = agentSrc (core / 72)
  ∧ r.dst = homeSrc h ∧ r.addr = addr / 64 ∧ s.freeTxn (core / 72) = some r.txn ∧ q.txn = r.txn ∧ t.reqs = s.reqs ++ [q] ∧ q.op = op ∧ q.core = core
  ∧ q.line = addr / 64 ∧ q.store = store ∧ t.lines = s.lines ∧ t.mem = s.mem

theorem request_asks {op store h : Nat} (hop : op < 64) (hh : homeOf addr = some h) (ha : core / 72 < 2) (hw : s.lineWaits (core / 72) (addr / 64) = false)
    (hp : s.placeFree (core / 72) = true) (hn : s.freeTxn (core / 72) = some n) :
    AgentAsks s (s.request no i op core addr width kind store data) core addr op h store := by
  obtain ⟨hhome, hline⟩ := homeOf_bounds hh
  have hdst : homeSrcOf addr = homeSrc h := by rw [homeSrcOf, hh]
  rw [request_posts hw hp hn]
  refine ⟨crMsg op (agentSrc (core / 72)) (homeSrcOf addr) n (agentSrc (core / 72)) 0 true (kind == HostAccess.spec) false (addr / 64) data,
    ⟨core / 72, addr / 64, op, n, core, addr, width, kind, store, data, false, none, false, no⟩, rfl, ?_, ?_, ?_, ?_, ?_, ?_, rfl, rfl, rfl, rfl, rfl, rfl, rfl⟩
  · exact (crMsg_op ..).trans (Nat.mod_eq_of_lt hop)
  · exact (crMsg_src ..).trans (Nat.mod_eq_of_lt (agentSrc_lt ha))
  · rw [hdst]
    exact (crMsg_dst ..).trans (Nat.mod_eq_of_lt (homeSrc_lt hhome))
  · exact (crMsg_addr ..).trans (Nat.mod_eq_of_lt hline)
  · rw [hn, crMsg_txn, Nat.mod_eq_of_lt (show n < 2 ^ 12 from freeTxn_lt hn)]
  · exact ((crMsg_txn ..).trans (Nat.mod_eq_of_lt (show n < 2 ^ 12 from freeTxn_lt hn))).symm

theorem useL2_rest (line : Nat) (store : Bool) : { s.useL2 core line store with l2 := s.l2 } = s := rfl

/-! A line leaves a cache (R434). -/

theorem writeBack_sends {a line : Nat} {d : Line} (hn : s.freeTxn a = some n) :
    s.writeBack a line d = ({ s.setLine a line 0 0 with wbTxns := s.wbTxns ++ [(a, line, n)], reqNo := (n + 1) % 4096 } : State).sendWb a line n d := by
  unfold State.writeBack
  simp only [hn]

/-- The line has left the agent's cache, dirty or clean. -/
def LineLeft (s : State) (a line : Nat) (c : CacheLine) (t : State) : Prop := t.held a line = none ∧ t.mem = s.mem
  ∧ (c.st = 3 → t.wbs = s.wbs ++ [(a, line, c.data)] ∧ ∃ r : CrMsg, t.out = s.out ++ [.crimon r] ∧ r.op = 0x32 ∧ r.addr = line % 2 ^ 40 ∧ r.data = c.data)
  ∧ (c.st ≠ 3 → t.wbs = s.wbs ∧ t.out = s.out)

theorem execHostEvict_leaves {a line : Nat} {c : CacheLine} (hrun : s.stopped = false) (hl : s.held a line = some c) (hn : s.freeTxn a = some n)
    (hten : (a, line) ∉ s.tenures) (hq : NoneWaits s) : ∃ t, execHostEvict a line s = .next t ∧ LineLeft s a line c t := by
  have hruns : ¬ (s.stopped || s.tenures.contains (a, line)) = true := by simp [hrun, hten]
  have hexec : execHostEvict a line s = .next (if c.st = 3 then s.writeBack a line c.data else s.setLine a line 0 0).settle := by
    unfold execHostEvict
    rw [if_neg hruns]
    simp only [hl]
  refine ⟨_, hexec, ?_⟩
  by_cases hst : c.st = 3
  · rw [if_pos hst, writeBack_sends hn]
    obtain ⟨v, hv, hquiet, hleft⟩ : ∃ v, ({ s.setLine a line 0 0 with wbTxns := s.wbTxns ++ [(a, line, n)], reqNo := (n + 1) % 4096 } : State).sendWb a line n c.data = v
        ∧ NoneWaits v ∧ v.held a line = none ∧ v.mem = s.mem ∧ v.wbs = s.wbs ++ [(a, line, c.data)]
        ∧ v.out = s.out ++ [.crimon (crMsg 0x32 (agentSrc a) (homeSrcOf (64 * line)) n (agentSrc a) 0 true false false line c.data)] :=
      ⟨_, rfl, hq, setLine_dropped (s := s) 0, rfl, rfl, rfl⟩
    obtain ⟨hheld, hmem, hwbs, hout⟩ := hleft
    rw [hv, settle_noneWaits hquiet]
    exact ⟨hheld, hmem, fun _ => ⟨hwbs, _, hout, crMsg_op .., crMsg_addr .., rfl⟩, fun hne => absurd hst hne⟩
  · rw [if_neg hst, settle_noneWaits (s := s.setLine a line 0 0) hq]
    exact ⟨setLine_dropped 0, rfl, fun h => absurd h hst, fun _ => ⟨rfl, rfl⟩⟩

end

/-- Settles O48: an access is served from the cache, or becomes the request that its kind and the line's state name. -/
theorem hostAccesses : Obligations.HostAccesses := by
  intro s core addr width data hruns ho
  obtain ⟨ha, hstop⟩ := State.coreRuns_spec hruns
  have hload (ty : HostMemType) : exec (.hostLoad core addr width .load ty) s = .next (s.hostLoad s.wrNo core addr width .load ty) := if_pos hruns
  have hstore (ty : HostMemType) : exec (.hostStore core addr width data ty false) s
      = .next (({ s with wrNo := s.wrNo + 1 } : State).hostStore s.wrNo core addr width data ty false) := if_pos hruns
  refine ⟨fun hw hb => ⟨?_, ?_⟩, fun h n hh hbias haway hw hn hp => ⟨fun c hl => ⟨?_, fun hst => ?_, fun hst => ?_⟩, fun hl => ⟨?_, ?_⟩, ?_, ?_⟩,
    fun hh => ⟨?_, ?_⟩, fun c n hl hn hten hq => execHostEvict_leaves hstop hl hn hten hq⟩
  · rw [hload, hostLoad_uncached ho hb, request_waits hw]
    rfl
  · rw [hstore, hostStore_uncached (s := { s with wrNo := s.wrNo + 1 }) ho hb, request_waits (s := { s with wrNo := s.wrNo + 1 }) hw]
    rfl
  · rw [hload, hostLoad_hit ho (hostBars_none hh hbias haway) hl]
    rfl
  · refine ⟨_, (hstore .cached).trans (congrArg Host.Outcome.next
      (hostStore_hit (s := { s with wrNo := s.wrNo + 1 }) ho (hostBars_none hh hbias haway) hl hst hw)), ?_, rfl⟩
    exact setLine_held (s := { s with wrNo := s.wrNo + 1 }) (st := 3) (by decide) _
  · exact ⟨_, (hstore .cached).trans (congrArg Host.Outcome.next (hostStore_shared (s := { s with wrNo := s.wrNo + 1 }) ho (hostBars_none hh hbias haway) hl hst)),
      request_asks (s := { s with wrNo := s.wrNo + 1 }) (by decide) hh ha hw hp hn⟩
  · exact ⟨_, (hload .cached).trans (congrArg Host.Outcome.next (hostLoad_miss ho (hostBars_none hh hbias haway) hl)), request_asks (by decide) hh ha hw hp hn⟩
  · exact ⟨_, (hstore .cached).trans (congrArg Host.Outcome.next (hostStore_miss (s := { s with wrNo := s.wrNo + 1 }) ho (hostBars_none hh hbias haway) hl)),
      request_asks (s := { s with wrNo := s.wrNo + 1 }) (by decide) hh ha hw hp hn⟩
  · exact ⟨_, (hload .uncached).trans (congrArg Host.Outcome.next (hostLoad_uncached ho (hostBars_none hh hbias haway))), request_asks (by decide) hh ha hw hp hn⟩
  · exact ⟨_, (hstore .uncached).trans (congrArg Host.Outcome.next (hostStore_uncached (s := { s with wrNo := s.wrNo + 1 }) ho (hostBars_none hh hbias haway))),
      request_asks (s := { s with wrNo := s.wrNo + 1 }) (by split <;> decide) hh ha hw hp hn⟩
  · rw [hload, hostLoad_barred ho (hostBars_unpopulated hh)]
    rfl
  · rw [hstore, hostStore_barred (s := { s with wrNo := s.wrNo + 1 }) ho (hostBars_unpopulated hh)]
    rfl

section
variable {s : State} {m : CrMsg} {a : Nat} {q : Req}

/-! What answers the one open request of an agent (R432, R434). -/

/-- A message comes for the agent's one open request; nothing else is open or waits. -/
structure Asked (s : State) (m : CrMsg) (a : Nat) (q : Req) : Prop where
  run : s.stopped = false
  agent : agentOf m.dst = some a
  host : m.host = true
  on : s.coresOff a = false
  txns : s.txns = []
  waits : NoneWaits s
  reqs : s.reqs = [q]
  mine : q.agent = a
  txn : q.txn = m.txn
  line : q.line = m.addr

theorem Asked.forAgent_eq (h : Asked s m a q) : forAgent m = some a := by
  rw [forAgent, if_pos h.host]
  exact h.agent

/-- Nothing goes on after the answer. -/
theorem rests (a : Nat) {v : State} (hq : NoneWaits v) (ht : v.txns = []) : (v.withdrawOn a).startAll.settle = v := by
  rw [withdrawOn_stays a hq.2.2.2.2, startAll_nil hq.1 ht, settle_noneWaits hq]

theorem closeReq_one (h : s.reqs = [q]) : s.closeReq q = { s with reqs := [] } := by
  unfold State.closeReq
  rw [h]
  simp

/-! A fill. -/

theorem Asked.dataArrives (h : Asked s m a q) (hop : q.op ≠ 5) (hstore : q.store ≠ 3) :
    s.dataArrives m = .next ((s.fill q m.state m.data).withdrawOn a).startAll.settle.tick := by
  have hfind : s.reqs.find? (fun r => r.agent == a && r.txn == m.txn && r.line == m.addr && r.op != 5 && r.store != 3) = some q := by
    rw [h.reqs]
    simp [h.mine, h.txn, h.line, hop, hstore]
  unfold State.dataArrives
  simp only [h.forAgent_eq, hfind]

/-- The line enters the cache within its tenure. -/
def tenured (s : State) (a line : Nat) : State :=
  { s with reqs := [], tenures := s.tenures.filter (fun t => t ≠ (a, line)) ++ [(a, line)] }

theorem Asked.fill_load (h : Asked s m a q) (hop : q.op = 1) (hstore : q.store = 0) (hkind : q.kind = .load) (st : Nat) (d : Line) :
    s.fill q st d = (((tenured s a m.addr).setLine a m.addr st d).useL2 q.core m.addr false).send (.coreData q.core d) := by
  unfold State.fill
  simp only [closeReq_one h.reqs, hop, hstore, hkind, h.on, h.mine, h.line]
  rfl

theorem Asked.fill_store (h : Asked s m a q) (hop : q.op = 2) (hstore : q.store = 1) (st : Nat) (d : Line) :
    s.fill q st d = ((tenured s a m.addr).setLine a m.addr 3 (mergeLine d q.data (q.addr % 64) q.width)).useL2 q.core m.addr true := by
  unfold State.fill
  simp only [closeReq_one h.reqs, hop, hstore, h.on, h.mine, h.line]
  rfl

theorem tenured_mem (a line : Nat) : (a, line) ∈ (tenured s a line).tenures := List.mem_append_right _ (List.mem_singleton.2 rfl)

/-- The load retires with the line. -/
theorem Asked.loads (h : Asked s m a q) (hst : m.state ≠ 0) (hop : q.op = 1) (hstore : q.store = 0) (hkind : q.kind = .load) :
    ∃ t, s.dataArrives m = .next t ∧ t.held a m.addr = some ⟨a, m.addr, m.state, m.data⟩ ∧ t.reqs = [] ∧ (a, m.addr) ∈ t.tenures
      ∧ t.out = s.out ++ [.coreData q.core m.data] ∧ t.mem = s.mem := by
  obtain ⟨v, hv, hquiet, htx, hfacts⟩ : ∃ v, (((tenured s a m.addr).setLine a m.addr m.state m.data).useL2 q.core m.addr false).send (.coreData q.core m.data) = v
      ∧ NoneWaits v ∧ v.txns = [] ∧ v.held a m.addr = some ⟨a, m.addr, m.state, m.data⟩ ∧ v.reqs = [] ∧ (a, m.addr) ∈ v.tenures
      ∧ v.out = s.out ++ [.coreData q.core m.data] ∧ v.mem = s.mem :=
    ⟨_, rfl, h.waits, h.txns, setLine_held (s := tenured s a m.addr) hst _, rfl, tenured_mem a m.addr, rfl, rfl⟩
  refine ⟨v.tick, ?_, hfacts⟩
  rw [h.dataArrives (by omega) (by omega), h.fill_load hop hstore hkind, hv, rests a hquiet htx]

/-- The store retires in the line. -/
theorem Asked.stores (h : Asked s m a q) (hop : q.op = 2) (hstore : q.store = 1) :
    ∃ t, s.dataArrives m = .next t ∧ t.held a m.addr = some ⟨a, m.addr, 3, mergeLine m.data q.data (q.addr % 64) q.width⟩ ∧ t.reqs = [] ∧ (a, m.addr) ∈ t.tenures
      ∧ t.out = s.out ∧ t.mem = s.mem := by
  obtain ⟨v, hv, hquiet, htx, hfacts⟩ : ∃ v, ((tenured s a m.addr).setLine a m.addr 3 (mergeLine m.data q.data (q.addr % 64) q.width)).useL2 q.core m.addr true = v
      ∧ NoneWaits v ∧ v.txns = [] ∧ v.held a m.addr = some ⟨a, m.addr, 3, mergeLine m.data q.data (q.addr % 64) q.width⟩ ∧ v.reqs = []
      ∧ (a, m.addr) ∈ v.tenures ∧ v.out = s.out ∧ v.mem = s.mem :=
    ⟨_, rfl, h.waits, h.txns, setLine_held (s := tenured s a m.addr) (st := 3) (by decide) _, rfl, tenured_mem a m.addr, rfl, rfl⟩
  refine ⟨v.tick, ?_, hfacts⟩
  rw [h.dataArrives (by omega) (by omega), h.fill_store hop hstore, hv, rests a hquiet htx]

/-! Cmp, CmpFault and RegData. -/

theorem Asked.cmp_arrives {c : CacheLine} (h : Asked s m a q) (hm : m.op = 0x28) (hcls : m.cls = 2) (hop : q.op = 3) (hl : s.held a m.addr = some c) :
    execCmp m s = .next (((if q.stale then ({ s with reqs := [] } : State).post q.txn 3 q.core q.addr q.width q.kind q.store q.data q.no
      else (({ s with reqs := [] } : State).setLine a m.addr 3 (mergeLine c.data q.data (q.addr % 64) q.width)).useL2 q.core m.addr true).withdrawOn a).startAll.settle).tick := by
  have hfind : s.reqs.find? (fun r => r.agent == a && r.txn == m.txn && r.line == m.addr && (r.op == 3 || r.op == 0x33)) = some q := by
    rw [h.reqs]
    simp [h.mine, h.txn, h.line, hop]
  have hnone : ¬ (decide (q.op = 0x33) || s.coresOff a) = true := by simp [hop, h.on]
  refine (State.receive_own s m 0x28 _ h.run hm (by rw [hcls]; rfl)).trans ?_
  simp only [h.forAgent_eq, hfind, closeReq_one h.reqs]
  rw [if_neg hnone]
  simp only [h.line]
  rw [show State.held _ a m.addr = some c from hl]

/-- The Upgr gains E, and its store retires. -/
theorem Asked.upgrades {c : CacheLine} (h : Asked s m a q) (hm : m.op = 0x28) (hcls : m.cls = 2) (hop : q.op = 3) (hl : s.held a m.addr = some c) (hstale : q.stale = false) :
    ∃ t, execCmp m s = .next t ∧ t.reqs = [] ∧ t.held a m.addr = some ⟨a, m.addr, 3, mergeLine c.data q.data (q.addr % 64) q.width⟩ ∧ t.mem = s.mem := by
  obtain ⟨v, hv, hquiet, htx, hfacts⟩ : ∃ v, (({ s with reqs := [] } : State).setLine a m.addr 3 (mergeLine c.data q.data (q.addr % 64) q.width)).useL2 q.core m.addr true = v
      ∧ NoneWaits v ∧ v.txns = [] ∧ v.reqs = [] ∧ v.held a m.addr = some ⟨a, m.addr, 3, mergeLine c.data q.data (q.addr % 64) q.width⟩ ∧ v.mem = s.mem :=
    ⟨_, rfl, h.waits, h.txns, rfl, setLine_held (s := { s with reqs := [] }) (st := 3) (by decide) _, rfl⟩
  refine ⟨v.tick, ?_, hfacts⟩
  rw [h.cmp_arrives hm hcls hop hl, if_neg (by simp [hstale]), hv, rests a hquiet htx]

/-- A snoop has had the S copy answered for: the store asks again. -/
theorem Asked.asks_again {c : CacheLine} (h : Asked s m a q) (hm : m.op = 0x28) (hcls : m.cls = 2) (hop : q.op = 3) (hl : s.held a m.addr = some c) (hstale : q.stale = true) :
    ∃ t r, execCmp m s = .next t ∧ t.out = s.out ++ [.crimon r] ∧ r.op = 3 ∧ r.txn = q.txn ∧ t.held a m.addr = some c ∧ t.mem = s.mem := by
  have htxn : q.txn < 2 ^ 12 := h.txn ▸ crMsg_txn_lt m
  obtain ⟨v, hv, hquiet, htx, hout, hheld, hmem⟩ : ∃ v, ({ s with reqs := [] } : State).post q.txn 3 q.core q.addr q.width q.kind q.store q.data q.no = v
      ∧ NoneWaits v ∧ v.txns = [] ∧ v.out = s.out ++ [.crimon (crMsg 3 (agentSrc (q.core / 72)) (homeSrcOf q.addr) q.txn (agentSrc (q.core / 72)) 0 true
        (q.kind == HostAccess.spec) false (q.addr / 64) q.data)] ∧ v.held a m.addr = some c ∧ v.mem = s.mem := ⟨_, rfl, h.waits, h.txns, rfl, hl, rfl⟩
  refine ⟨v.tick, _, ?_, hout, crMsg_op .., (crMsg_txn ..).trans (Nat.mod_eq_of_lt htxn), hheld, hmem⟩
  rw [h.cmp_arrives hm hcls hop hl, if_pos hstale, hv, rests a hquiet htx]

theorem Asked.faults (h : Asked s m a q) (hm : m.op = 0x29) (hcls : m.cls = 2) (hstore : q.store ≠ 3) : execCmpfault m s = .next { s with
    reqs := []
    out := s.out ++ [.coreFault q.core (if q.store ≠ 0 then 7 else if q.kind = .fetch then 1 else 5)] } := by
  have hfind : s.reqs.find? (fun r => r.agent == a && r.txn == m.txn && r.store != 3) = some q := by
    rw [h.reqs]
    simp [h.mine, h.txn, hstore]
  refine (State.receive_own s m 0x29 _ h.run hm (by rw [hcls]; rfl)).trans ?_
  simp only [h.forAgent_eq, hfind, closeReq_one h.reqs]
  rw [if_neg (by simp [h.on])]
  obtain ⟨v, hv, hquiet⟩ : ∃ v, ({ s with reqs := [] } : State).send (.coreFault q.core (if q.store ≠ 0 then 7 else if q.kind = .fetch then 1 else 5)) = v ∧ NoneWaits v :=
    ⟨_, rfl, h.waits⟩
  rw [hv, withdrawOn_stays a hquiet.2.2.2.2, settle_noneWaits hquiet, ← hv]
  rfl

theorem Asked.reads (h : Asked s m a q) (hm : m.op = 0x2A) (hcls : m.cls = 2) (hop : q.op = 5) : execRegdata m s = .next { s with
    reqs := []
    out := s.out ++ [.coreData q.core m.data] } := by
  have hfind : s.reqs.find? (fun r => r.agent == a && r.txn == m.txn && r.op == 5) = some q := by
    rw [h.reqs]
    simp [h.mine, h.txn, hop]
  refine (State.receive_own s m 0x2A _ h.run hm (by rw [hcls]; rfl)).trans ?_
  simp only [h.agent, hfind, closeReq_one h.reqs]
  rw [if_neg (by simp [h.on])]
  obtain ⟨v, hv, hquiet⟩ : ∃ v, ({ s with reqs := [] } : State).send (.coreData q.core m.data) = v ∧ NoneWaits v := ⟨_, rfl, h.waits⟩
  rw [hv, withdrawOn_stays a hquiet.2.2.2.2, settle_noneWaits hquiet, ← hv]
  rfl

/-! Credits, doorbells and Withdraw. -/

theorem execCredit_takes (hrun : s.stopped = false) (hm : m.op = 0x2B) (hcls : m.cls = 2)
    (hn : sget (fun _ => 0) s.credits (65536 * m.src + m.dst) + 1 ≤ s.sentTo m.dst m.src) : execCredit m s = .next { s with
      credits := sset (fun _ => 0) s.credits (65536 * m.src + m.dst) (sget (fun _ => 0) s.credits (65536 * m.src + m.dst) + 1) } := by
  refine (State.receive_own s m 0x2B _ hrun hm (by rw [hcls]; rfl)).trans ?_
  dsimp only
  rw [if_neg (by simp; omega)]

theorem execCredit_overflows (hrun : s.stopped = false) (hm : m.op = 0x2B) (hcls : m.cls = 2) (hagent : agentOf m.dst = some a)
    (hn : s.sentTo m.dst m.src < sget (fun _ => 0) s.credits (65536 * m.src + m.dst) + 1) : execCredit m s = .next (s.stopDetect 3 6 m.src 0) := by
  refine (State.receive_own s m 0x2B _ hrun hm (by rw [hcls]; rfl)).trans ?_
  dsimp only
  rw [if_pos (by simp [hagent]; omega)]

theorem execDoorbell_rings (hrun : s.stopped = false) (hm : m.op = 7) (hcls : m.cls = 0) (hq : m.addr < 256) :
    execDoorbell m s = .next (s.ringDoorbell m.addr m.word.toNat) :=
  (State.receive_own s m 7 _ hrun hm (by rw [hcls]; rfl)).trans (if_pos hq)

/-- The home `h` names the agent no more. -/
def forgotten (s : State) (h a : Nat) : State :=
  let s1 := { s with
    gone := s.gone.filter (fun g => g ≠ (h, a)) ++ [(h, a)]
    flushes := s.flushes.filter (fun f => !(f.1 == a && homeOf (64 * f.2) == some h)) }
  (s1.dirs.filter (fun p => homeOf (64 * p.1) == some h)).foldl (fun (s : State) p => s.dirDrop p.1 a) s1

theorem dirDrops_dirs (l : List (Nat × DirSt)) (t : State) : ∃ ds, l.foldl (fun (s : State) p => s.dirDrop p.1 a) t = { t with dirs := ds } := by
  induction l generalizing t with
  | nil => exact ⟨t.dirs, rfl⟩
  | cons p l ih => exact ih (t.dirDrop p.1 a)

theorem forgotten_eq (h : Nat) : ∃ ds fl, forgotten s h a = { s with gone := s.gone.filter (fun g => g ≠ (h, a)) ++ [(h, a)], dirs := ds, flushes := fl } := by
  obtain ⟨ds, hds⟩ := dirDrops_dirs (a := a) (s.dirs.filter (fun p => homeOf (64 * p.1) == some h)) { s with
    gone := s.gone.filter (fun g => g ≠ (h, a)) ++ [(h, a)]
    flushes := s.flushes.filter (fun f => !(f.1 == a && homeOf (64 * f.2) == some h)) }
  exact ⟨ds, _, hds⟩

/-- The agent has withdrawn once every home names it no more. -/
abbrev withdrawn (s : State) (a : Nat) : State := if (List.range 10).all (fun h => s.gone.contains (h, a)) then s.wr (F.CRM_AGENT_STATE a) 2 else s

theorem execWithdraw_forgets (hrun : s.stopped = false) (hm : m.op = 8) (hcls : m.cls = 0) (hagent : agentOf m.src = some a) (htxns : s.txns = [])
    (hst : s.rd (F.CRM_AGENT_STATE a) ≠ 0) : execWithdraw m s = .next (withdrawn (forgotten s (m.dst / 2048) a) a).settle.tick := by
  have htx : (forgotten s (m.dst / 2048) a).txns = [] := by
    obtain ⟨ds, fl, h⟩ := forgotten_eq (s := s) (a := a) (m.dst / 2048)
    rw [h]
    exact htxns
  refine (State.receive_own s m 8 _ hrun hm (by rw [hcls]; rfl)).trans ?_
  simp only [hagent]
  rw [if_neg hst]
  change Host.Outcome.next (withdrawn (((forgotten s (m.dst / 2048) a).txns.filter (fun t => t.home == m.dst / 2048 && t.await.contains a)).foldl (fun (s : State) t =>
    if t.st = 3 then ((s.forwarded t a).closeTxn t).startAll else s.answered t a) (forgotten s (m.dst / 2048) a)) a).settle.tick = _
  rw [htx]
  rfl

theorem withdraw_gone (hq : NoneWaits s) (h : Nat) : ∃ v, (withdrawn (forgotten s h a) a).settle = v ∧ (h, a) ∈ v.gone
    ∧ ((∀ k, k < 10 → k ≠ h → (k, a) ∈ s.gone) → v.rd (F.CRM_AGENT_STATE a) = 2) ∧ v.mem = s.mem ∧ v.out = s.out := by
  obtain ⟨ds, fl, heq⟩ := forgotten_eq (s := s) (a := a) h
  have hself : (h, a) ∈ (forgotten s h a).gone := by rw [heq]; exact List.mem_append_right _ (List.mem_singleton.2 rfl)
  have hquiet : NoneWaits (withdrawn (forgotten s h a) a) := by
    rw [heq]
    unfold withdrawn
    split <;> exact hq
  refine ⟨withdrawn (forgotten s h a) a, settle_noneWaits hquiet, ?_, fun hall => ?_, ?_, ?_⟩
  · unfold withdrawn
    split <;> exact hself
  · have hgone : (List.range 10).all (fun k => (forgotten s h a).gone.contains (k, a)) = true := by
      rw [List.all_eq_true]
      intro k hk
      rw [List.contains_iff_mem]
      by_cases hkh : k = h
      · exact hkh ▸ hself
      · rw [heq]
        exact List.mem_append_left _ (List.mem_filter.2 ⟨hall k (List.mem_range.1 hk) hkh, by simp [hkh]⟩)
    rw [withdrawn, if_pos hgone]
    exact State.rd_wr_self _ _ _ (by simp [F.CRM_AGENT_STATE])
  · rw [heq]
    unfold withdrawn
    split <;> rfl
  · rw [heq]
    unfold withdrawn
    split <;> rfl

end

/-- Settles O49: what comes for the one open request closes it and does what its kind of access says. -/
theorem agentFills : Obligations.AgentFills := by
  intro s m a q hrun
  refine ⟨fun hagent hhost hon htxns hwaits hreqs hmine htxn hline => ?fills, fun hm hcls => ⟨fun hn => ?_, fun hagent hn => execCredit_overflows hrun hm hcls hagent hn⟩,
    fun hm hcls hq hen hin => ?doorbell, fun hm hcls hagent htxns hwaits hst => ?withdraw⟩
  case fills =>
    have h : Asked s m a q := ⟨hrun, hagent, hhost, hon, htxns, hwaits, hreqs, hmine, htxn, hline⟩
    have hdata (hm : m.op = 0x30) (hcls : m.cls = 3) : exec (.data m) s = s.dataArrives m := State.receive_own s m 0x30 _ hrun hm (by rw [hcls]; rfl)
    have hfwd (hm : m.op = 0x31) (hcls : m.cls = 3) : exec (.fwddata m) s = s.dataArrives m := State.receive_own s m 0x31 _ hrun hm (by rw [hcls]; rfl)
    refine ⟨fun hm hcls hst => ?_, fun hm hcls hst => ?_, fun c hm hcls hop hl => ⟨h.upgrades hm hcls hop hl, h.asks_again hm hcls hop hl⟩, h.faults, h.reads⟩
    · rw [hdata hm hcls]
      exact ⟨h.loads hst, h.stores⟩
    · rw [hfwd hm hcls]
      exact ⟨h.loads hst, h.stores⟩
  case doorbell =>
    refine ⟨s.setQueue m.addr { s.queue m.addr with tail := m.word.toNat % 65536 }, ?_, setQueue_self _, rfl, rfl⟩
    exact (execDoorbell_rings hrun hm hcls hq).trans (congrArg Host.Outcome.next (ringDoorbell_inside hen hin))
  case withdraw =>
    obtain ⟨v, hv, hfacts⟩ := withdraw_gone (a := a) hwaits (m.dst / 2048)
    exact ⟨v.tick, (execWithdraw_forgets hrun hm hcls hagent htxns hst).trans (hv ▸ rfl), hfacts⟩
  · exact ⟨_, execCredit_takes hrun hm hcls hn, rfl, sget_sset_self (fun _ => 0) s.credits (65536 * m.src + m.dst) (sget (fun _ => 0) s.credits (65536 * m.src + m.dst) + 1)⟩

end Sys2Proof.Machine
end

section

/-! SUPPORT and PROOFS. Relay pushes leave for their adder (O36), program loads (O41, refuted). -/
namespace Sys2Proof.Machine
open Sys2Proof

/-! Accesses of the units of the module where memory is sound: what they read and snoop for themselves (R27, R453). -/

section
variable {s : State}

/-- From `s` to `t` engines have snooped: registers count it, and directories name holders no more. -/
def OnlySnoops (s t : State) : Prop := ∃ regs ds, t = { s with regs := regs, dirs := ds }

theorem OnlySnoops.refl : OnlySnoops s s := ⟨s.regs, s.dirs, rfl⟩

theorem OnlySnoops.trans {t u : State} (h : OnlySnoops s t) (h' : OnlySnoops t u) : OnlySnoops s u := by
  obtain ⟨r, d, rfl⟩ := h
  obtain ⟨r', d', rfl⟩ := h'
  exact ⟨r', d', rfl⟩

theorem OnlySnoops.foldl {α : Type} {f : State → α → State} (hf : ∀ t a, OnlySnoops t (f t a)) (l : List α) : OnlySnoops s (l.foldl f s) := by
  induction l generalizing s with
  | nil => exact .refl
  | cons a l ih => exact (hf s a).trans ih

theorem OnlySnoops.engineSnoops (write : Bool) (line : Nat) : OnlySnoops s (s.engineSnoops write line) := by
  unfold State.engineSnoops
  extract_lets d who s1 kept
  split
  · exact .refl
  · have h1 : OnlySnoops s s1 := .foldl (fun t a => ⟨_, t.dirs, rfl⟩) who
    exact h1.trans ⟨s1.regs, _, rfl⟩

theorem eccReads_foldl (ls : List Nat) (h : s.eccErrs = []) :
    ls.foldl (fun (s : State) l => if s.stopped then s else s.eccReads ((homeOf (64 * l)).getD 31) l) s = s := by
  induction ls with
  | nil => rfl
  | cons l ls ih => rw [List.foldl_cons, eccReads_clean _ _ h, ite_self, ih]

/-- An access meets no bad bias code and no error. -/
theorem OnlySnoops.accessNow (h : MemSound s) (rs ws : List Nat) : OnlySnoops s (s.accessNow rs ws) := by
  have hbias : (rs ++ ws).find? (fun l => s.biasOf l == 3) = none := List.find?_eq_none.2 fun l _ => by simp [h.2 l]
  unfold State.accessNow
  simp only [hbias]
  rw [eccReads_foldl _ h.1]
  exact (OnlySnoops.foldl (fun t l => .engineSnoops false l) rs.dedup).trans (.foldl (fun t l => .engineSnoops true l) ws.dedup)

theorem OnlySnoops.reads (h : MemSound s) (a n : Nat) : OnlySnoops s (s.reads a n) := by
  unfold State.reads
  split
  · exact .refl
  · exact .accessNow h _ _

theorem OnlySnoops.sound {t : State} (h : OnlySnoops s t) (hs : MemSound s) : MemSound t := by
  obtain ⟨r, d, rfl⟩ := h
  exact hs

end

/-! What sending a block keeps of the clusters, the Relay and its tags. -/

/-- From `s` to `t` the clusters stand, the next Relay tag, and the Relay of slot j. -/
structure RelayKept (j : Nat) (s t : State) : Prop where
  clusters : t.clusters = s.clusters
  tag : t.relayTag = s.relayTag
  relay : t.relay j = s.relay j

namespace RelayKept
variable {j : Nat} {s t u : State}

protected theorem refl : RelayKept j s s := ⟨rfl, rfl, rfl⟩

theorem upd (h : RelayKept j s t) (hc : u.clusters = t.clusters) (ht : u.relayTag = t.relayTag) (hs : u.slots = t.slots) : RelayKept j s u :=
  ⟨hc.trans h.clusters, ht.trans h.tag, (congrArg (fun l => (sget (fun _ => SlotSt.init) l j).relay) hs).trans h.relay⟩

theorem trans (h : RelayKept j s t) (h' : RelayKept j t u) : RelayKept j s u := ⟨h'.clusters.trans h.clusters, h'.tag.trans h.tag, h'.relay.trans h.relay⟩

theorem ite {p : Prop} [Decidable p] (h : RelayKept j s t) (h' : RelayKept j s u) : RelayKept j s (if p then t else u) := by
  split
  · exact h
  · exact h'

theorem foldl {α : Type} {f : State → α → State} {l : List α} (hf : ∀ t a, RelayKept j s t → RelayKept j s (f t a)) (h : RelayKept j s t) :
    RelayKept j s (l.foldl f t) := foldl_induct hf l h

theorem wr {f : Fld} {v : Nat} (h : RelayKept j s t) : RelayKept j s (t.wr f v) := h.upd rfl rfl rfl

theorem records (h : RelayKept j s t) (hr : Records t u) : RelayKept j s u := by
  have hc := congrArg State.clusters hr.same
  have ht := congrArg State.relayTag hr.same
  have hs := congrArg State.slots hr.same
  exact h.upd hc ht hs

theorem emit {e : Ev} (h : RelayKept j s t) : RelayKept j s (t.emit e) := h.records Records.refl.emit

theorem setSlot {k : Nat} {v : SlotSt} (h : RelayKept j s t) (hv : v.relay = (t.slot k).relay) : RelayKept j s (t.setSlot k v) := by
  refine ⟨h.clusters, h.tag, Eq.trans ?_ h.relay⟩
  show (sget (fun _ => SlotSt.init) (sset (fun _ => SlotSt.init) t.slots k v) j).relay = _
  rw [sget_sset]
  split
  · next hk => exact hk ▸ hv
  · rfl

theorem launch {p cls : Nat} {q : QFlit} (h : RelayKept j s t) : RelayKept j s (t.launch p q cls) := by
  unfold State.launch
  extract_lets v x vc y s1
  have h1 : RelayKept j s s1 := h.upd rfl rfl rfl
  split
  · exact h1.upd rfl rfl rfl
  · exact h1

theorem launchAll {n p : Nat} (h : RelayKept j s t) : RelayKept j s (State.launchAll n t p) := by
  induction n generalizing t with
  | zero => exact h
  | succ n ih =>
    unfold State.launchAll
    split
    · exact h
    · split
      · exact h
      · exact ih h.launch

theorem enqueue {p : Nat} {qs : List QFlit} (h : RelayKept j s t) : RelayKept j s (t.enqueue p qs) := launchAll (h.upd rfl rfl rfl)

theorem noteOnce {c u n : Nat} {e : Nat → Ev} (h : RelayKept j s t) : RelayKept j s (t.noteOnce c u n e) :=
  .ite (h.upd rfl rfl rfl) (.emit (h.upd rfl rfl rfl))

theorem sendMember {k vc d r : Nat} {b : List Byte} (h : RelayKept j s t) : RelayKept j s (t.sendMember k vc d r b) := by
  unfold State.sendMember State.sendMsg State.sendOn
  split
  · extract_lets fs chosen
    refine .upd (.foldl (fun u w hu => ?_) h) rfl rfl rfl
    split
    · exact .noteOnce hu.wr
    · exact .enqueue (.ite hu.wr hu)
  · exact h

theorem showRelay (h : RelayKept j s t) : RelayKept j s t.showRelay := .foldl (fun _ _ h' => h'.wr.wr.wr) h

theorem relayClip {k tensor tile level first clips : Nat} (h : RelayKept j s t) : RelayKept j s (t.relayClip k tensor tile level first clips) := by
  unfold State.relayClip
  extract_lets ev sl told s1
  have h1 : RelayKept j s s1 := .wr (.setSlot h.wr (by split <;> rfl))
  exact .ite h (.ite h1 h1.emit)

theorem showFlags {k : Nat} (h : RelayKept j s t) : RelayKept j s (t.showFlags k) := h.wr.wr

theorem darkCount {k pstep idx tensor kind nz total : Nat} (h : RelayKept j s t) : RelayKept j s (t.darkCount k pstep idx tensor kind nz total) :=
  h.records (Records.refl.write.write.write)

end RelayKept

theorem setRelay_relay {s : State} {j : Nat} (r : RelaySt) : (s.setRelay j r).relay j = r := by
  refine (RelayKept.refl (j := j) (s := s.setSlot j { s.slot j with relay := r })).showRelay.relay.trans ?_
  exact congrArg SlotSt.relay (sget_sset_self _ _ _ _)

theorem setRelay_clusters {s : State} {j : Nat} (r : RelaySt) : (s.setRelay j r).clusters = s.clusters :=
  (RelayKept.refl (j := j) (s := s.setSlot j { s.slot j with relay := r })).showRelay.clusters

theorem setRelay_tag {s : State} {j : Nat} (r : RelaySt) : (s.setRelay j r).relayTag = s.relayTag :=
  (RelayKept.refl (j := j) (s := s.setSlot j { s.slot j with relay := r })).showRelay.tag

/-! A block's header (R345). -/

theorem crc32cByte_lt {c : Nat} (b : Byte) (hc : c < 2 ^ 32) : crc32cByte c b < 2 ^ 32 := by
  have hstep (x : Nat) (hx : x < 2 ^ 32) : (if x % 2 = 1 then (x >>> 1) ^^^ 0x82F63B78 else x >>> 1) < 2 ^ 32 := by
    have hshift : x >>> 1 < 2 ^ 32 := lt_of_le_of_lt (Nat.shiftRight_le x 1) hx
    split
    · exact Nat.xor_lt_two_pow hshift (by decide)
    · exact hshift
  have hfirst : c ^^^ b.toNat < 2 ^ 32 := Nat.xor_lt_two_pow hc (lt_trans b.isLt (by decide))
  exact hstep _ (hstep _ (hstep _ (hstep _ (hstep _ (hstep _ (hstep _ (hstep _ hfirst)))))))

theorem crc32c_lt (bs : List Byte) : crc32c bs < 2 ^ 32 := by
  have hfold (l : List Byte) : ∀ c < 2 ^ 32, l.foldl crc32cByte c < 2 ^ 32 := by
    induction l with
    | nil => exact fun c hc => hc
    | cons b l ih => exact fun c hc => ih _ (crc32cByte_lt b hc)
  exact Nat.xor_lt_two_pow (hfold bs _ (by decide)) (by decide)

theorem bits_of_lt {n hi lo : Nat} (h : n < 2 ^ lo) : bits n hi lo = 0 := by
  rw [bits, Nat.shiftRight_eq_div_pow, Nat.div_eq_of_lt h, Nat.zero_mod]

section
variable (s : State) (type job tensor tile step count hop : Nat) (xa maxexp : Int) (clips sender : Nat) (payload : List Byte)

/-- Above the check, a field of a block's header is the field placed there. -/
theorem relayBlock_bits (hi lo : Nat) (hlo : 32 ≤ lo) (hhi : hi < 256) :
    bits (s.relayBlock type job tensor tile step count hop xa maxexp clips sender payload).hdr.toNat hi lo
      = bits (place 255 248 type ||| place 247 236 job ||| place 235 216 tensor ||| place 215 184 tile ||| place 183 168 step
        ||| place 167 154 count ||| place 153 152 hop ||| place 151 144 (unsignedOf 8 xa) ||| place 143 136 (unsignedOf 8 maxexp)
        ||| place 135 120 clips ||| place 119 107 sender) hi lo := by
  have hcrc (n : Nat) : bits (if s.relayChecks then relayCrc n payload else 0) hi lo = 0 := by
    split
    · exact bits_of_lt (lt_of_lt_of_le (crc32c_lt _) (Nat.pow_le_pow_right (by decide) hlo))
    · exact bits_of_lt (Nat.two_pow_pos _)
  unfold State.relayBlock
  dsimp only
  rw [bits_ofNat _ _ _ _ hhi, bits_or, hcrc, Nat.or_zero]

theorem relayBlock_tile : (s.relayBlock type job tensor tile step count hop xa maxexp clips sender payload).tile = tile % 2 ^ 32 := by
  rw [RelayBlock.tile, relayBlock_bits _ _ _ _ _ _ _ _ _ _ _ _ _ _ _ (by decide) (by decide)]
  simp [bits_or, bits_place_self, bits_place_below, bits_place_above]

theorem relayBlock_count : (s.relayBlock type job tensor tile step count hop xa maxexp clips sender payload).count = count % 2 ^ 14 := by
  rw [RelayBlock.count, relayBlock_bits _ _ _ _ _ _ _ _ _ _ _ _ _ _ _ (by decide) (by decide)]
  simp [bits_or, bits_place_self, bits_place_below, bits_place_above]

theorem relayBlock_hop : (s.relayBlock type job tensor tile step count hop xa maxexp clips sender payload).hop = hop % 2 ^ 2 := by
  rw [RelayBlock.hop, relayBlock_bits _ _ _ _ _ _ _ _ _ _ _ _ _ _ _ (by decide) (by decide)]
  simp [bits_or, bits_place_self, bits_place_below, bits_place_above]

end

/-! A push leaves for its adder (R330 to R335, R347, R352). -/

section
variable {s : State} {cl : ClusterId} {j pos : Nat} {e : PushEnt} {es : List PushEnt} {p : PlanTile}

/-- A push of the step in progress stands at the head of a cluster's push buffer, the plan names its tile, and the tile has not been pushed in this step. -/
structure PushStands (s : State) (cl : ClusterId) (j pos : Nat) (e : PushEnt) (es : List PushEnt) (p : PlanTile) : Prop where
  slot : s.slotOfCl cl = some j
  push : (s.cluster cl).push = e :: es
  running : s.slotState j = 2
  run : s.stopped = false
  step : e.pstep = s.step j
  engine : s.engineGone j e.tile = false
  fresh : ∀ x ∈ (s.relay j).pushed, x % 2 ^ 32 ≠ e.tile
  plan : s.planOf j e.tile = some p
  pos : p.pos (s.modIdx j) = some pos
  tile : e.tile < 2 ^ 32

theorem PushStands.guard (h : PushStands s cl j pos e es p) :
    ¬ ((s.slotState j ≠ 2 && s.slotState j ≠ 5) || e.pstep ≠ s.step j || s.engineGone j e.tile || s.stopped) = true := by
  simp [h.running, h.step, h.engine, h.run]

theorem PushStands.notPushed (h : PushStands s cl j pos e es p) : ¬ (s.relay j).pushed.any (fun x => x % 2 ^ 32 == e.tile) = true := by
  simp only [List.any_eq_true, beq_iff_eq]
  rintro ⟨x, hx, heq⟩
  exact h.fresh x hx heq

/-- Its node is here and has no credit: the push waits. -/
theorem PushStands.waits (h : PushStands s cl j pos e es p) (hup : p.adder e.tile 1 (pos / 32) = s.modIdx j)
    (hcredit : s.credit j e.tile 1 (s.asks.takeWhile (fun a => decide (a.cl ≠ some cl))) = false) : execRelayPushTake cl s = .next (s.pushAsks cl j e.tile) := by
  unfold execRelayPushTake
  simp only [h.push, h.slot]
  rw [if_neg h.guard, if_neg h.notPushed]
  simp only [h.plan, h.pos]
  rw [if_pos (by simpa [hup] using hcredit)]

/-- The push buffer without its head, and the requests for a context without this one's. -/
abbrev pushTaken (s : State) (cl : ClusterId) (es : List PushEnt) : State :=
  ({ s with asks := s.asks.filter (fun a => a.cl ≠ some cl) } : State).setCluster cl { s.cluster cl with push := es }

/-- The Relay has read what the plan and the scale table say of the tile. -/
def pushRead (s : State) (cl : ClusterId) (j : Nat) (es : List PushEnt) (tile : Nat) : State :=
  ((pushTaken s cl es).readPlan j tile).reads ((pushTaken s cl es).scaleAddr j ((pushTaken s cl es).step j % 2) tile) 1

theorem OnlySnoops.foldl_sound {α : Type} {f : State → α → State} (hf : ∀ t a, MemSound t → OnlySnoops t (f t a)) (l : List α) :
    ∀ t, MemSound t → OnlySnoops t (l.foldl f t) := by
  induction l with
  | nil => exact fun t _ => .refl
  | cons a l ih => exact fun t ht => (hf t a ht).trans (ih _ ((hf t a ht).sound ht))

theorem OnlySnoops.readPlan {s : State} (hs : MemSound s) (j tile : Nat) : OnlySnoops s (s.readPlan j tile) := by
  unfold State.readPlan
  split
  · exact .refl
  · next a ha =>
    have hfirst : OnlySnoops s (s.reads a 32) := .reads hs a 32
    exact hfirst.trans (.foldl_sound (fun t n ht => .reads ht _ _) _ _ (hfirst.sound hs))

theorem pushRead_snoops (hs : MemSound s) (tile : Nat) : OnlySnoops (pushTaken s cl es) (pushRead s cl j es tile) := by
  have hplan : OnlySnoops (pushTaken s cl es) ((pushTaken s cl es).readPlan j tile) := .readPlan (s := pushTaken s cl es) hs j tile
  exact hplan.trans (.reads (hplan.sound hs) _ _)

/-- The tile counts as pushed in this step. -/
abbrev pushNoted (s u : State) (j : Nat) (e : PushEnt) : State := u.setRelay j { s.relay j with
  pushed := (s.relay j).pushed ++ [2 ^ 32 * e.tensor + e.tile], expect := (s.relay j).expect ++ [2 ^ 32 * e.tensor + e.tile] }

/-- Its clips, a value that is not finite, and its dark values are counted. -/
def pushCounted (s u : State) (j : Nat) (e : PushEnt) (enc : List Byte × Nat × Nat × Int × Nat × Bool) : State :=
  let s3 := (pushNoted s u j e).relayClip j e.tensor e.tile 0 enc.2.2.1 enc.2.1
  let s4 := if enc.2.2.2.2.2 then
      let sl := s3.slot j
      (s3.setSlot j (if s.step j % 2 = 0 then { sl with nfEven := true } else { sl with nfOdd := true })).showFlags j
    else s3
  match s.wgDark j e.tensor with | some d => s4.darkCount j e.pstep d e.tensor 1 enc.2.2.2.2.1 8192 | none => s4

theorem apply_ite_relay {r : RelaySt} (p : Prop) [Decidable p] (v w : SlotSt) (hv : v.relay = r) (hw : w.relay = r) : (if p then v else w).relay = r := by
  split
  · exact hv
  · exact hw

theorem pushCounted_kept (u : State) (enc : List Byte × Nat × Nat × Int × Nat × Bool) : RelayKept j (pushNoted s u j e) (pushCounted s u j e enc) := by
  unfold pushCounted
  extract_lets s3 sl s4
  have h3 : RelayKept j (pushNoted s u j e) s3 := RelayKept.refl.relayClip
  have h4 : RelayKept j (pushNoted s u j e) s4 := .ite (.showFlags (.setSlot h3 (apply_ite_relay _ _ _ rfl rfl))) h3
  split
  · exact h4.darkCount
  · exact h4

/-- The tile's encoded values. -/
abbrev pushEnc (s : State) (j : Nat) (e : PushEnt) : List Byte × Nat × Nat × Int × Nat × Bool :=
  encodeTile e.vals (s.rd (F.NUM_SCALE_PCM_WG j)) (s.agreed j e.tile 1)

/-- The block that leaves. -/
def pushBlock (s u : State) (j : Nat) (e : PushEnt) (enc : List Byte × Nat × Nat × Int × Nat × Bool) : RelayBlock :=
  u.relayBlock 0x5A (s.rd (F.STR_SLOT_JOB_ID j)) e.tensor e.tile (s.step j % 65536) 1 0 (s.agreed j e.tile 1) enc.2.2.2.1 (satTo 16 enc.2.1) (s.modIdx j) enc.1

theorem PushStands.sends (h : PushStands s cl j pos e es p) (hup : p.adder e.tile 1 (pos / 32) ≠ s.modIdx j) (hs : MemSound s)
    {enc : List Byte × Nat × Nat × Int × Nat × Bool} (henc : pushEnc s j e = enc) :
    let u := pushCounted s (pushRead s cl j es e.tile) j e enc
    execRelayPushTake cl s = .next (u.relaySend j (p.adder e.tile 1 (pos / 32)) 0 e.tile 0 (pushBlock s u j e enc)).tick := by
  have hstop : ¬ (pushRead s cl j es e.tile).stopped = true := by
    obtain ⟨r, d, heq⟩ := pushRead_snoops (cl := cl) (j := j) (es := es) hs e.tile
    rw [heq]
    exact Bool.eq_false_iff.1 h.run
  have haway : ¬ (decide (p.adder e.tile 1 (pos / 32) = s.modIdx j) && !s.credit j e.tile 1 (s.asks.takeWhile (fun a => decide (a.cl ≠ some cl)))) = true := by simp [hup]
  unfold execRelayPushTake
  extract_lets u c ahead
  have hpush : c.push = e :: es := h.push
  simp -zeta only [hpush, h.slot]
  rw [if_neg h.guard]
  extract_lets +onlyGivenNames s1 r me key s1' xa
  rw [show encodeTile e.vals (s.rd (F.NUM_SCALE_PCM_WG j)) xa = enc from henc]
  extract_lets s2 s3 sl s4 s5 b
  rw [if_neg h.notPushed]
  simp -zeta only [h.plan]
  have hpos : p.pos me = some pos := h.pos
  simp -zeta only [hpos]
  extract_lets up
  rw [if_neg haway]
  have hstop' : ¬ s1'.stopped = true := hstop
  have hup' : ¬ up = me := hup
  rw [if_neg hstop', if_neg hup']
  rfl

theorem relaySend_kept (u : State) (dest tile : Nat) (b : RelayBlock) :
    RelayKept j (({ u with relayTag := u.relayTag + 1 } : State).setRelay j { u.relay j with sent := (u.relay j).sent ++ [⟨u.relayTag, dest, 0, tile, 0, b⟩] })
      (u.relaySend j dest 0 tile 0 b).tick := (RelayKept.refl.sendMember).upd rfl rfl rfl

end

/-- Settles O36: a push waits for its credit, or leaves in a block; what it counts on the way leaves the Relay's lists, the tags and the push buffers alone. -/
theorem relayPushes : Obligations.RelayPushes := by
  intro s cl j pos e es p hslot hpush hrunning hrun hstep hengine hfresh hplan hpos htile
  have h : PushStands s cl j pos e es p := ⟨hslot, hpush, hrunning, hrun, hstep, hengine, hfresh, hplan, hpos, htile⟩
  refine ⟨h.waits, fun hup hs => ?_⟩
  obtain ⟨enc, henc⟩ : ∃ enc, pushEnc s j e = enc := ⟨_, rfl⟩
  obtain ⟨u, hu⟩ : ∃ u, pushCounted s (pushRead s cl j es e.tile) j e enc = u := ⟨_, rfl⟩
  have hsends := h.sends hup hs henc
  have hcounted : RelayKept j (pushNoted s (pushRead s cl j es e.tile) j e) u := hu ▸ pushCounted_kept _ _
  obtain ⟨regs, ds, hread⟩ := pushRead_snoops (cl := cl) (j := j) (es := es) hs e.tile
  rw [hu] at hsends
  have hrelay : u.relay j = { s.relay j with
      pushed := (s.relay j).pushed ++ [2 ^ 32 * e.tensor + e.tile], expect := (s.relay j).expect ++ [2 ^ 32 * e.tensor + e.tile] } :=
    hcounted.relay.trans (setRelay_relay _)
  have htag : u.relayTag = s.relayTag := hcounted.tag.trans ((setRelay_tag _).trans (by rw [hread]; rfl))
  have hclusters : u.clusters = (pushTaken s cl es).clusters := hcounted.clusters.trans ((setRelay_clusters _).trans (by rw [hread]))
  have hsent := relaySend_kept (j := j) u (p.adder e.tile 1 (pos / 32)) e.tile (pushBlock s u j e enc)
  refine ⟨u, _, pushBlock s u j e enc, hsends, rfl, ?_, ?_, ?_, ?_, ?_, ?_, ?_, ?_⟩
  · have hcl := (hsent.clusters.trans (setRelay_clusters _)).trans hclusters
    have heq : State.cluster _ cl = (pushTaken s cl es).cluster cl := congrArg (fun l => sget (fun _ => ClusterSt.init) l (clKey cl)) hcl
    rw [heq, State.setCluster_cluster_self]
  · rw [hsent.relay, setRelay_relay, hrelay, htag]
  · rw [hsent.tag, setRelay_tag, htag]
  · exact (relayBlock_tile ..).trans (Nat.mod_eq_of_lt htile)
  · exact (relayBlock_count ..).trans (by decide)
  · exact (relayBlock_hop ..).trans (by decide)
  · exact (congrArg Prod.fst henc).symm
  · rw [hsent.relay, setRelay_relay, hrelay]
    exact List.mem_append_right _ (List.mem_singleton.2 rfl)

/-- The load of slot 0 is done (`Tests.wLoaded`), and queue 3 holds another command, a NOP, with the entry number of its LOAD before it. -/
def loadedOnSharedEntry : State :=
  Tests.wLoaded.setQueue 3 { Tests.wLoaded.queue 3 with cmds := Tests.cmd 0 2 :: (Tests.wLoaded.queue 3).cmds }

/-- PROGRAM_LOADED ends the first command with that entry number: the NOP. -/
theorem loadedOnSharedEntry_ends : (match exec (.programLoaded 0 0) loadedOnSharedEntry with
    | .next t => (t.queue 3).done.any (fun d => d.op == 0x10)
    | _ => true) = false := by decide +kernel

/-- Refutes O41: PROGRAM_LOADED is asked to complete the LOAD of its slot in every state. The model ends a command by its entry number, and nothing asks
that a queue's commands differ in theirs: in `loadedOnSharedEntry` the NOP before the LOAD completes in its place. -/
theorem not_programLoads : ¬ Obligations.ProgramLoads := by
  intro h
  obtain ⟨-, hloaded, -⟩ := h loadedOnSharedEntry 3 0 (by decide +kernel) (by decide)
  obtain ⟨t, ht, -, -, d, hd, hop, -⟩ := hloaded (Tests.prog 1) (by decide +kernel) (by decide +kernel) (by decide +kernel) (by decide +kernel) (Tests.sound rfl rfl)
    (by decide +kernel) 0
  have hnone := loadedOnSharedEntry_ends
  simp only [ht, List.any_eq_false, beq_iff_eq] at hnone
  exact hnone d hd hop

end Sys2Proof.Machine
end

section

/-! SUPPORT and PROOFS. Memory behind the caches, and checkpoint copies and verification (O56). -/
namespace Sys2Proof.Machine
open Sys2Proof

/-! Accesses of the units of the module, where a home serves the lines (R27, R453). -/

section
variable {s t u : State}

/-- From `s` to `t` homes have corrected errors: registers count them, and no entry has more than before. -/
def Corrects (s t : State) : Prop :=
  ∃ regs es, t = { s with regs := regs, eccErrs := es } ∧ ∀ key, sget (fun _ => 0) es key ≤ sget (fun _ => 0) s.eccErrs key

theorem Corrects.refl : Corrects s s := ⟨s.regs, s.eccErrs, rfl, fun _ => le_rfl⟩

theorem Corrects.trans (h : Corrects s t) (h' : Corrects t u) : Corrects s u := by
  obtain ⟨r, es, rfl, hle⟩ := h
  obtain ⟨r', es', rfl, hle'⟩ := h'
  exact ⟨r', es', rfl, fun key => (hle' key).trans (hle key)⟩

theorem Corrects.le (h : Corrects s t) (key : Nat) : sget (fun _ => 0) t.eccErrs key ≤ sget (fun _ => 0) s.eccErrs key := by
  obtain ⟨r, es, rfl, hle⟩ := h
  exact hle key

theorem Corrects.stopped (h : Corrects s t) : t.stopped = s.stopped := by
  obtain ⟨r, es, rfl, -⟩ := h
  rfl

theorem eccRead_corrects (hd line k : Nat) (h : sget (fun _ => 0) s.eccErrs (3 * (if k = 2 then line / 64 else line) + k) ≤ 1) :
    Corrects s (s.eccRead hd line k) := by
  unfold State.eccRead
  extract_lets key
  change sget (fun _ => 0) s.eccErrs key ≤ 1 at h
  split
  · exact .refl
  · refine ⟨_, _, rfl, fun j => ?_⟩
    rw [sget_sset]
    split
    · exact Nat.zero_le _
    · exact le_rfl
  · next h0 h1 => exact absurd (Nat.le_one_iff_eq_zero_or_eq_one.1 h) (by rintro (h' | h'); exacts [h0 h', h1 h'])

/-- The directory and bias entries of a line have at most one error each. -/
def Correctable (s : State) (l : Nat) : Prop :=
  sget (fun _ => 0) s.eccErrs (3 * l) ≤ 1 ∧ sget (fun _ => 0) s.eccErrs (3 * l + 1) ≤ 1 ∧ sget (fun _ => 0) s.eccErrs (3 * (l / 64) + 2) ≤ 1

theorem Corrects.correctable (h : Corrects s t) {l : Nat} (hl : Correctable s l) : Correctable t l :=
  ⟨(h.le _).trans hl.1, (h.le _).trans hl.2.1, (h.le _).trans hl.2.2⟩

theorem eccReads_corrects (hd : Nat) {l : Nat} (h : Correctable s l) : Corrects s (s.eccReads hd l) := by
  obtain ⟨s1, hs1⟩ : ∃ s1, s.eccRead hd l 2 = s1 := ⟨_, rfl⟩
  obtain ⟨s2, hs2⟩ : ∃ s2, s1.eccRead hd l 1 = s2 := ⟨_, rfl⟩
  have h1 : Corrects s s1 := hs1 ▸ eccRead_corrects hd l 2 h.2.2
  have h2 : Corrects s s2 := h1.trans (hs2 ▸ eccRead_corrects hd l 1 (h1.correctable h).2.1)
  simp only [State.eccReads, hs1, hs2]
  split
  · exact h1
  · split
    · exact h2
    · exact h2.trans (eccRead_corrects hd l 0 (h2.correctable h).1)

theorem eccReads_foldl_corrects (ls : List Nat) (h : ∀ l ∈ ls, Correctable s l) :
    Corrects s (ls.foldl (fun (s : State) l => if s.stopped then s else s.eccReads ((homeOf (64 * l)).getD 31) l) s) := by
  induction ls generalizing s with
  | nil => exact .refl
  | cons l ls ih =>
    rw [List.foldl_cons]
    have h1 : Corrects s (if s.stopped then s else s.eccReads ((homeOf (64 * l)).getD 31) l) := by
      split
      · exact .refl
      · exact eccReads_corrects _ (h l (.head _))
    exact h1.trans (ih fun k hk => h1.correctable (h k (.tail _ hk)))

/-- From `s` to `t` the module has accessed lines: registers count snoops and corrected errors, and the directories name the holders that are left. -/
def Accessed (s t : State) : Prop := ∃ regs ds es, t = { s with regs := regs, dirs := ds, eccErrs := es }

theorem Accessed.refl : Accessed s s := ⟨s.regs, s.dirs, s.eccErrs, rfl⟩

theorem Accessed.trans (h : Accessed s t) (h' : Accessed t u) : Accessed s u := by
  obtain ⟨r, d, es, rfl⟩ := h
  obtain ⟨r', d', es', rfl⟩ := h'
  exact ⟨r', d', es', rfl⟩

theorem Corrects.accessed (h : Corrects s t) : Accessed s t := by
  obtain ⟨r, es, rfl, -⟩ := h
  exact ⟨r, s.dirs, es, rfl⟩

theorem OnlySnoops.accessed (h : OnlySnoops s t) : Accessed s t := by
  obtain ⟨r, d, rfl⟩ := h
  exact ⟨r, d, s.eccErrs, rfl⟩

/-- Where the homes serve its lines, an access meets no bad bias code and corrects the errors that it finds. -/
theorem Accessed.accessNow {rs ws : List Nat} (h : HomeServes s (rs ++ ws)) : Accessed s (s.accessNow rs ws) := by
  have hbias : (rs ++ ws).find? (fun l => s.biasOf l == 3) = none :=
    List.find?_eq_none.2 fun l hl => by simp [(h l hl).2.1]
  have hecc : ∀ l ∈ (rs ++ ws).dedup, Correctable s l := fun l hl => (h l (List.mem_dedup.1 hl)).2.2
  unfold State.accessNow
  simp only [hbias]
  have h1 := (eccReads_foldl_corrects _ hecc).accessed
  exact h1.trans ((OnlySnoops.foldl (fun t l => .engineSnoops false l) rs.dedup).trans (.foldl (fun t l => .engineSnoops true l) ws.dedup)).accessed

theorem Accessed.stopped (h : Accessed s t) : t.stopped = s.stopped := by
  obtain ⟨r, d, es, rfl⟩ := h
  rfl

theorem HomeServes.notBusy {ls : List Nat} (h : HomeServes s ls) : ls.any s.lineBusy = false := by
  rw [List.any_eq_false]
  exact fun l hl => by simp [(h l hl).1]

end

/-! The bytes of memory behind the caches (R427): what a write of the module leaves in them. -/

section
variable {s t u : State}

/-- No copy of the line is under way: none is being filled, and none is being written back. -/
def State.Rests (s : State) (line : Nat) : Prop := (∀ w ∈ s.wbs, w.2.1 ≠ line) ∧ ∀ r ∈ s.reqs, r.filling line = false

theorem rests_of_notBusy {line : Nat} (h : s.lineBusy line = false) : s.Rests line := by
  simp only [State.lineBusy, State.lineMoving, Bool.or_eq_false_iff, List.any_eq_false] at h
  obtain ⟨-, ⟨hreqs, -⟩, hwbs⟩ := h
  exact ⟨fun w hw he => hwbs w hw (by simp [he]), fun r hr => by
    have := hreqs r hr
    simp only [Bool.or_eq_true, not_or, Bool.not_eq_true] at this
    exact this.1⟩

theorem dirty_of_rests {line : Nat} (h : s.Rests line) (hl : ∀ c ∈ s.lines, c.line ≠ line) : s.dirty line = none := by
  have h1 : s.lines.find? (fun c => c.line == line && c.st == 3) = none := List.find?_eq_none.2 fun c hc => by simp [hl c hc]
  have h2 : s.wbs.find? (fun w => w.2.1 == line) = none := List.find?_eq_none.2 fun w hw => by simp [h.1 w hw]
  have h3 : s.reqs.findSome? (fun r => if r.filling line then r.flight else none) = none :=
    List.findSome?_eq_none_iff.2 fun r hr => by simp [h.2 r hr]
  simp only [State.dirty, h1, h2, h3]

theorem dirty_congr {line : Nat} (hl : t.lines.filter (fun c => c.line == line) = s.lines.filter (fun c => c.line == line)) (hw : t.wbs = s.wbs)
    (hr : t.reqs = s.reqs) : t.dirty line = s.dirty line := by
  have hfind (l : List CacheLine) : l.find? (fun c => c.line == line && c.st == 3) = (l.filter (fun c => c.line == line)).find? (fun c => c.st == 3) := by
    rw [List.find?_filter]
    refine congrArg (fun p => l.find? p) (funext fun c => ?_)
    rw [Bool.eq_iff_iff]
    simp
  simp only [State.dirty, hfind, hl, hw, hr]

theorem uncache_memByte {line : Nat} (h : s.Rests line) (b : Nat) : (s.uncache line).memByte b = s.memByte b := by
  unfold State.uncache
  split
  · next hany =>
    extract_lets s1
    have hs1 : ∃ mm, s1 = { s with mem := mm } := by
      cases hd : s.dirty line with
      | none => exact ⟨s.mem, by simp only [s1, hd]⟩
      | some d => simpa only [s1, hd] using rawBytes_mem (s := s) (64 * line) (lineBytes d)
    have hraw : s1.rawByte b = (match s.dirty line with
        | some d => if 64 * line ≤ b ∧ b < 64 * line + 64 then lineByte d (b - 64 * line) else s.rawByte b
        | none => s.rawByte b) := by
      cases hd : s.dirty line with
      | none => simp only [s1, hd]
      | some d =>
        simp only [s1, hd]
        rw [rawByte_rawBytes, lineBytes_length]
        split
        · next hin => exact lineBytes_getD d (by omega)
        · rfl
    obtain ⟨mm, hmm⟩ := hs1
    rw [hmm] at hraw ⊢
    unfold State.memByte
    by_cases hb : b / 64 = line
    · rw [hb, dirty_of_rests (s := { ({ s with mem := mm } : State) with lines := _, l2 := _, dirs := _ }) h fun c hc he => ?_]
      · change ({ s with mem := mm } : State).rawByte b = _
        rw [hraw]
        cases s.dirty line with
        | none => rfl
        | some d =>
          have hin : 64 * line ≤ b ∧ b < 64 * line + 64 := by omega
          exact (if_pos hin).trans (congrArg (lineByte d) (by omega))
      · exact absurd he (by simpa using (List.mem_filter.1 hc).2)
    · have hsame : State.dirty { ({ s with mem := mm } : State) with
          lines := s.lines.filter (fun c => c.line ≠ line), l2 := s.l2.filter (fun p => p.2 ≠ line),
          dirs := sset (fun _ => (⟨none, []⟩ : DirSt)) s.dirs line ⟨none, []⟩ } (b / 64) = s.dirty (b / 64) := by
        refine dirty_congr ?_ rfl rfl
        rw [List.filter_filter]
        refine List.filter_congr fun c _ => ?_
        by_cases hc : c.line = b / 64 <;> simp [hc, hb]
      rw [hsame]
      cases hd : s.dirty (b / 64) with
      | some d => rfl
      | none =>
        change ({ s with mem := mm } : State).rawByte b = _
        rw [hraw]
        cases s.dirty line with
        | none => rfl
        | some d => exact if_neg (by omega)
  · rfl

theorem uncache_rests {line : Nat} (l : Nat) (h : s.Rests l) : (s.uncache line).Rests l := by
  have hk : (s.uncache line).wbs = s.wbs ∧ (s.uncache line).reqs = s.reqs := by
    unfold State.uncache
    split
    · cases s.dirty line with
      | none => exact ⟨rfl, rfl⟩
      | some d =>
        obtain ⟨mm, hmm⟩ := rawBytes_mem (s := s) (64 * line) (lineBytes d)
        simp only [hmm, and_self]
    · exact ⟨rfl, rfl⟩
  unfold State.Rests
  rw [hk.1, hk.2]
  exact h

theorem uncache_lines (line : Nat) : ∀ c ∈ (s.uncache line).lines, c.line ≠ line := by
  intro c hc he
  unfold State.uncache at hc
  split at hc
  · exact absurd he (by simpa using (List.mem_filter.1 hc).2)
  · next hany => exact hany (List.any_eq_true.2 ⟨c, hc, by simp [he]⟩)

/-- A byte that a unit of the module writes stands in memory; no other byte changes. -/
theorem memByte_setByte {a : Nat} (h : s.Rests (a / 64)) (v : Byte) (b : Nat) : (s.setByte a v).memByte b = if b = a then v else s.memByte b := by
  have hd : (s.setByte a v).dirty = (s.uncache (a / 64)).dirty := rfl
  by_cases hb : b = a
  · subst hb
    have hnone : (s.uncache (b / 64)).dirty (b / 64) = none := dirty_of_rests (uncache_rests _ h) (uncache_lines _)
    unfold State.memByte
    rw [hd, hnone, if_pos rfl]
    exact (rawByte_rawSet b b v).trans (if_pos rfl)
  · rw [if_neg hb, ← uncache_memByte h b]
    unfold State.memByte
    rw [hd]
    cases (s.uncache (a / 64)).dirty (b / 64) with
    | some d => rfl
    | none => exact (rawByte_rawSet a b v).trans (if_neg hb)

theorem setByte_rests {a : Nat} {v : Byte} (l : Nat) (h : s.Rests l) : (s.setByte a v).Rests l := uncache_rests l h

/-- The bytes that a unit of the module writes stand in memory; no other byte changes. -/
theorem memByte_setBytes {a : Nat} (bs : List Byte) (h : ∀ i < bs.length, s.Rests ((a + i) / 64)) (b : Nat) :
    (s.setBytes a bs).memByte b = if a ≤ b ∧ b < a + bs.length then bs.getD (b - a) 0 else s.memByte b := by
  induction bs generalizing s a with
  | nil => exact (if_neg (by rw [List.length_nil]; omega)).symm
  | cons v bs ih =>
    rw [List.length_cons] at h ⊢
    rw [State.setBytes, ih fun i hi => setByte_rests _ (by have := h (i + 1) (by omega); rwa [show a + (i + 1) = a + 1 + i by omega] at this),
      memByte_setByte (by have := h 0 (by omega); rwa [Nat.add_zero] at this)]
    by_cases hb : b = a
    · subst hb
      rw [if_neg (by omega), if_pos rfl, if_pos ⟨le_rfl, by omega⟩, Nat.sub_self]
      rfl
    · by_cases hin : a + 1 ≤ b ∧ b < a + 1 + bs.length
      · rw [if_pos hin, if_pos (by omega), show b - a = (b - (a + 1)) + 1 by omega]
        rfl
      · rw [if_neg hin, if_neg hb, if_neg (by omega)]

/-- What `setBytes` leaves alone: all but memory, the cached copies and the directories. -/
theorem setBytes_only (a : Nat) (bs : List Byte) : ∃ mm ls l2 ds, s.setBytes a bs = { s with mem := mm, lines := ls, l2 := l2, dirs := ds } := by
  induction bs generalizing s a with
  | nil => exact ⟨s.mem, s.lines, s.l2, s.dirs, rfl⟩
  | cons v bs ih =>
    have h1 : ∃ mm ls l2 ds, s.setByte a v = { s with mem := mm, lines := ls, l2 := l2, dirs := ds } := by
      unfold State.setByte State.uncache State.rawSet
      split
      · cases s.dirty (a / 64) with
        | none => exact ⟨_, _, _, _, rfl⟩
        | some d =>
          obtain ⟨mm, hmm⟩ := rawBytes_mem (s := s) (64 * (a / 64)) (lineBytes d)
          simp only [hmm]
          exact ⟨_, _, _, _, rfl⟩
      · exact ⟨_, s.lines, s.l2, s.dirs, rfl⟩
    obtain ⟨mm, ls, l2, ds, h1⟩ := h1
    obtain ⟨mm', ls', l2', ds', h2⟩ := ih (s := s.setByte a v) (a + 1)
    rw [State.setBytes, h2, h1]
    exact ⟨_, _, _, _, rfl⟩

theorem linesOf_mem {a n i : Nat} (hi : i < n) : (a + i) / 64 ∈ linesOf a n := by
  unfold linesOf
  exact List.mem_map.2 ⟨(a + i) / 64 - a / 64, List.mem_range.2 (by omega), by omega⟩

/-- A write where the homes serve its lines: the access, then the bytes. -/
theorem write_served {a : Nat} {data : List Byte} (hrun : s.stopped = false) (hne : data ≠ []) (h : HomeServes s (linesOf a data.length)) :
    ∃ u, Accessed s u ∧ s.write a data = u.setBytes a data := by
  have hacc : Accessed s (s.accessNow [] (linesOf a data.length)) := .accessNow h
  refine ⟨_, hacc, ?_⟩
  unfold State.write
  extract_lets ls s1
  rw [if_neg (by simp [hrun, hne]), if_neg (by rw [h.notBusy]; simp), if_neg (by rw [hacc.stopped, hrun]; simp)]

theorem Accessed.memByte (h : Accessed s t) (b : Nat) : t.memByte b = s.memByte b := by
  obtain ⟨r, d, es, rfl⟩ := h
  rfl

theorem Accessed.rests (h : Accessed s t) {l : Nat} (hl : s.Rests l) : t.Rests l := by
  obtain ⟨r, d, es, rfl⟩ := h
  exact hl

/-- The bytes of a write whose lines the homes serve stand in memory at once; no other byte changes. -/
theorem memByte_write {a : Nat} {data : List Byte} (hrun : s.stopped = false) (h : HomeServes s (linesOf a data.length)) (b : Nat) :
    (s.write a data).memByte b = if a ≤ b ∧ b < a + data.length then data.getD (b - a) 0 else s.memByte b := by
  by_cases hne : data = []
  · subst hne
    rw [if_neg (by rw [List.length_nil]; omega)]
    simp [State.write]
  · obtain ⟨u, hu, he⟩ := write_served hrun hne h
    rw [he, memByte_setBytes data fun i hi => hu.rests (rests_of_notBusy (h _ (linesOf_mem hi)).1), hu.memByte]

theorem memBytes_write {a : Nat} {data : List Byte} (hrun : s.stopped = false) (h : HomeServes s (linesOf a data.length)) :
    (s.write a data).memBytes a data.length = data := by
  unfold State.memBytes
  refine List.ext_getElem (by simp) fun i hi hi' => ?_
  rw [List.getElem_map, List.getElem_range, memByte_write hrun h, if_pos (by omega), Nat.add_sub_cancel_left,
    List.getD_eq_getElem _ _ hi']

/-- What a served write leaves alone. -/
theorem write_only {a : Nat} {data : List Byte} (hrun : s.stopped = false) (h : HomeServes s (linesOf a data.length)) :
    ∃ rs mm ls l2 ds es, s.write a data = { s with regs := rs, mem := mm, lines := ls, l2 := l2, dirs := ds, eccErrs := es } := by
  by_cases hne : data = []
  · subst hne
    exact ⟨s.regs, s.mem, s.lines, s.l2, s.dirs, s.eccErrs, by simp [State.write]⟩
  · obtain ⟨u, ⟨r, d, es, rfl⟩, he⟩ := write_served hrun hne h
    obtain ⟨mm, ls, l2, ds, h2⟩ := setBytes_only (s := { s with regs := r, dirs := d, eccErrs := es }) a data
    rw [he, h2]
    exact ⟨_, _, _, _, _, _, rfl⟩

end

/-! Directories that name the two caching agents alone: a snoop counts in CRM_AGENT_0 or CRM_AGENT_1. -/

section
variable {s t u : State}

/-- A directory entry that names agents 0 and 1 alone. -/
def NamesTwo (d : DirSt) : Prop := ∀ a ∈ d.owner.toList ++ d.sharers, a < 2

/-- From `s`, whose directories name the two agents alone, `t` differs in no other register than theirs, and its directories name them alone. -/
structure Tame (s t : State) : Prop where
  names : ∀ p ∈ t.dirs, NamesTwo p.2
  reg : ∀ off, off ≠ Reg.CRM_AGENT 0 → off ≠ Reg.CRM_AGENT 1 → t.reg off = s.reg off

theorem Tame.refl (h : ∀ p ∈ s.dirs, NamesTwo p.2) : Tame s s := ⟨h, fun _ _ _ => rfl⟩

theorem Tame.trans (h : Tame s t) (h' : Tame t u) : Tame s u :=
  ⟨h'.names, fun off h0 h1 => (h'.reg off h0 h1).trans (h.reg off h0 h1)⟩

theorem Tame.rd (h : Tame s t) {f : Fld} (h0 : f.off ≠ Reg.CRM_AGENT 0) (h1 : f.off ≠ Reg.CRM_AGENT 1) : t.rd f = s.rd f := by
  rw [State.rd, State.rd, h.reg _ h0 h1]

theorem namesTwo_sget {ds : Sparse DirSt} (h : ∀ p ∈ ds, NamesTwo p.2) (l : Nat) : NamesTwo (sget (fun _ => (⟨none, []⟩ : DirSt)) ds l) := by
  induction ds with
  | nil => exact fun a ha => absurd ha List.not_mem_nil
  | cons p ds ih =>
    rw [sget]
    split
    · exact h p (.head _)
    · exact ih fun q hq => h q (.tail _ hq)

theorem namesTwo_sset {ds : Sparse DirSt} (h : ∀ p ∈ ds, NamesTwo p.2) (l : Nat) {d : DirSt} (hd : NamesTwo d) :
    ∀ p ∈ sset (fun _ => (⟨none, []⟩ : DirSt)) ds l d, NamesTwo p.2 := by
  have herase : ∀ p ∈ serase ds l, NamesTwo p.2 := fun p hp => h p (List.mem_filter.1 hp).1
  unfold sset
  split
  · exact herase
  · intro p hp
    rcases mem_sinsert _ l d p hp with rfl | hp
    · exact hd
    · exact herase p hp

/-- An update that leaves the registers and the directories alone. -/
theorem Tame.same (h : Tame s t) (hr : u.regs = t.regs) (hd : u.dirs = t.dirs) : Tame s u :=
  ⟨hd ▸ h.names, fun off h0 h1 => (congrArg (fun l => sget resetWord l off) hr).trans (h.reg off h0 h1)⟩

theorem tame_inc_snoops (h : Tame s t) {a : Nat} (ha : a < 2) : Tame s (t.inc (F.CRM_AGENT_SNOOPS a)) := by
  refine ⟨h.names, fun off h0 h1 => (?_ : _ = t.reg off).trans (h.reg off h0 h1)⟩
  have hne : off ≠ (F.CRM_AGENT_SNOOPS a).off := by
    interval_cases a
    · exact h0
    · exact h1
  exact State.wr_reg_ne _ _ _ hne

theorem tame_engineSnoops (h : ∀ p ∈ s.dirs, NamesTwo p.2) (write : Bool) (line : Nat) : Tame s (s.engineSnoops write line) := by
  unfold State.engineSnoops
  extract_lets d who s1 kept
  have hd : NamesTwo d := namesTwo_sget h line
  have hwho : ∀ a ∈ who, a < 2 := by
    intro a ha
    rcases List.mem_append.1 ha with ha | ha
    · exact hd a (List.mem_append_left _ ha)
    · cases write with
      | false => exact absurd ha List.not_mem_nil
      | true => exact hd a (List.mem_append_right _ ha)
  split
  · exact .refl h
  · have h1 : Tame s s1 := by
      have hfold : ∀ (l : List Nat) t, (∀ a ∈ l, a < 2) → Tame s t → Tame s (l.foldl (fun (s : State) a => s.inc (F.CRM_AGENT_SNOOPS a)) t) := by
        intro l
        induction l with
        | nil => exact fun t _ ht => ht
        | cons a l ih => exact fun t hl ht => ih _ (fun b hb => hl b (.tail _ hb)) (tame_inc_snoops ht (hl a (.head _)))
      exact hfold who s hwho (.refl h)
    have hkept : NamesTwo kept := by
      have hshare : NamesTwo ⟨none, d.sharers⟩ := fun a ha => hd a (List.mem_append_right _ ha)
      simp only [kept]
      split
      · exact fun a ha => absurd ha List.not_mem_nil
      · split
        · exact hd
        · exact hshare
    exact ⟨namesTwo_sset h1.names line hkept, h1.reg⟩

theorem tame_accessNow (hs : MemSound s) (h : ∀ p ∈ s.dirs, NamesTwo p.2) (rs ws : List Nat) : Tame s (s.accessNow rs ws) := by
  have hbias : (rs ++ ws).find? (fun l => s.biasOf l == 3) = none := List.find?_eq_none.2 fun l _ => by simp [hs.2 l]
  have hfold (write : Bool) (l : List Nat) : ∀ t, Tame s t → Tame s (l.foldl (fun (s : State) l => s.engineSnoops write l) t) := by
    induction l with
    | nil => exact fun t ht => ht
    | cons a l ih => exact fun t ht => ih _ (ht.trans (tame_engineSnoops ht.names write a))
  unfold State.accessNow
  simp only [hbias]
  rw [eccReads_foldl _ hs.1]
  exact hfold true _ _ (hfold false _ _ (.refl h))

theorem tame_reads (hs : MemSound s) (h : ∀ p ∈ s.dirs, NamesTwo p.2) (a n : Nat) : Tame s (s.reads a n) := by
  unfold State.reads
  split
  · exact .refl h
  · exact tame_accessNow hs h _ _

end

/-! A copy of a checkpoint at its holder (R716, R719). -/

section
variable {s : State} {j : Nat}

/-- Into an area that has begun, a chunk inside it is written. -/
theorem placeChunk_begun {src seg chunk : Nat} {two : Bool} {data : List Byte}
    (hb : (if two then (s.ck j).area2 else (s.ck j).area1).begun = true) (h0 : data.length ≠ 0)
    (hin : (if seg = 16383 then 65536 * chunk else 2 ^ 19 + seg * segBytes + 65536 * chunk) + data.length ≤ (s.copyArea j two).2) :
    s.placeChunk j src two seg chunk data
      = (s.write ((s.copyArea j two).1 + (if seg = 16383 then 65536 * chunk else 2 ^ 19 + seg * segBytes + 65536 * chunk)) data, true) := by
  simp only [State.placeChunk, hb, if_true]
  refine if_neg ?_
  simp only [Bool.or_eq_true, decide_eq_true_eq]
  omega

theorem placeChunk_outside {src seg chunk : Nat} {two : Bool} {data : List Byte}
    (hout : (s.copyArea j two).2 < (if seg = 16383 then 65536 * chunk else 2 ^ 19 + seg * segBytes + 65536 * chunk) + data.length) :
    s.placeChunk j src two seg chunk data = (s, false) := by
  exact if_pos (by simp only [Bool.or_eq_true, decide_eq_true_eq]; exact .inl hout)

end

/-! A chunk's header. -/

theorem bit_eq_bits (w i : Nat) : bit w i = decide (bits w i i = 1) := by
  rw [bit, Nat.testBit_eq_decide_div_mod_eq, bits, Nat.shiftRight_eq_div_pow, Nat.add_sub_cancel_left, Nat.pow_one]

section
variable (job src seg chunk len tag : Nat) (two : Bool)

theorem ckHdr_bits {hi : Nat} (lo : Nat) (h : hi < 128) : bits (ckHdr job src two seg chunk len tag).toNat hi lo
    = bits (place 127 120 0x4B ||| place 119 108 job ||| place 107 95 src ||| place 94 94 (b2n two) ||| place 93 80 seg ||| place 79 70 chunk
      ||| place 69 53 len ||| place 31 0 tag) hi lo := bits_ofNat _ _ _ _ h

theorem ckHdr_kind : bits (ckHdr job src two seg chunk len tag).toNat 127 120 = 0x4B := by
  simp [ckHdr_bits, bits_or, bits_place_self, bits_place_below]

theorem ckHdr_job : bits (ckHdr job src two seg chunk len tag).toNat 119 108 = job % 2 ^ 12 := by
  simp [ckHdr_bits, bits_or, bits_place_self, bits_place_below, bits_place_above]

theorem ckHdr_src : bits (ckHdr job src two seg chunk len tag).toNat 107 95 = src % 2 ^ 13 := by
  simp [ckHdr_bits, bits_or, bits_place_self, bits_place_below, bits_place_above]

theorem ckHdr_two : bit (ckHdr job src two seg chunk len tag).toNat 94 = two := by
  rw [bit_eq_bits]
  cases two <;> simp [ckHdr_bits, bits_or, bits_place_self, bits_place_below, bits_place_above, b2n]

theorem ckHdr_seg : bits (ckHdr job src two seg chunk len tag).toNat 93 80 = seg % 2 ^ 14 := by
  simp [ckHdr_bits, bits_or, bits_place_self, bits_place_below, bits_place_above]

theorem ckHdr_chunk : bits (ckHdr job src two seg chunk len tag).toNat 79 70 = chunk % 2 ^ 10 := by
  simp [ckHdr_bits, bits_or, bits_place_self, bits_place_below, bits_place_above]

theorem ckHdr_len : bits (ckHdr job src two seg chunk len tag).toNat 69 53 = len % 2 ^ 17 := by
  simp [ckHdr_bits, bits_or, bits_place_self, bits_place_below, bits_place_above]

theorem ckHdr_tag : bits (ckHdr job src two seg chunk len tag).toNat 31 0 = tag % 2 ^ 32 := by
  simp [ckHdr_bits, bits_or, bits_place_self, bits_place_above]

end

theorem jobId_lt (s : State) (j : Nat) : s.rd (F.STR_SLOT_JOB_ID j) < 2 ^ 12 := bits_lt _ _ _

section
variable {s : State} {j : Nat}

/-- A chunk for a job of this module goes to its copy area. -/
theorem ckptMessageReceive_placed {srcFi src seg chunk len tag : Nat} {two : Bool} {data : List Byte} (hrun : s.stopped = false)
    (hjob : s.slotOfJob (s.rd (F.STR_SLOT_JOB_ID j)) = some j) (hsrc : src < 2 ^ 13) (hseg : seg < 2 ^ 14) (hchunk : chunk < 2 ^ 10) (h0 : 0 < len)
    (hlen : len ≤ 65536) (htag : tag < 2 ^ 32) (hdata : data.length = len) :
    exec (.ckptMessageReceive srcFi (ckHdr (s.rd (F.STR_SLOT_JOB_ID j)) src two seg chunk len tag) data) s
      = .next (((s.placeChunk j src two seg chunk data).1.sendAck srcFi tag (s.placeChunk j src two seg chunk data).2).tick) := by
  have hl : len % 2 ^ 17 = len := Nat.mod_eq_of_lt (by omega)
  change execCkptMessageReceive _ _ _ _ = _
  simp only [execCkptMessageReceive, ckHdr_kind, ckHdr_job, ckHdr_src, ckHdr_two, ckHdr_seg, ckHdr_chunk, ckHdr_len, ckHdr_tag, hl,
    Nat.mod_eq_of_lt hsrc, Nat.mod_eq_of_lt hseg, Nat.mod_eq_of_lt hchunk, Nat.mod_eq_of_lt htag, Nat.mod_eq_of_lt (jobId_lt s j), hjob, hdata, hrun]
  exact if_neg (by simp; omega)

/-- A chunk inside an area that has begun stands there, and is acknowledged. -/
theorem ckptMessageReceive_stands {srcFi src seg chunk len tag : Nat} {two : Bool} {data : List Byte} {a : Nat} (hrun : s.stopped = false)
    (hexec : exec (.ckptMessageReceive srcFi (ckHdr (s.rd (F.STR_SLOT_JOB_ID j)) src two seg chunk len tag) data) s
      = .next ((s.write a data).sendAck srcFi tag true).tick) (hdata : data.length = len) (hs : HomeServes s (linesOf a len)) :
    ∃ u : State, exec (.ckptMessageReceive srcFi (ckHdr (s.rd (F.STR_SLOT_JOB_ID j)) src two seg chunk len tag) data) s = .next (u.sendAck srcFi tag true).tick
      ∧ u.memBytes a len = data ∧ u.out = s.out ∧ u.slots = s.slots ∧ ∀ b, b < a ∨ a + len ≤ b → u.memByte b = s.memByte b := by
  subst hdata
  obtain ⟨rs, mm, ls, l2, ds, es, hw⟩ := write_only hrun hs
  refine ⟨_, hexec, memBytes_write hrun hs, by rw [hw], by rw [hw], fun b hb => ?_⟩
  rw [memByte_write hrun hs, if_neg (by omega)]

/-- The state in which the end of a forward is recorded. -/
def forwardEnded (s : State) (j : Nat) (ab : Bool) : State :=
  let s1 := (s.setCk j { s.ck j with area1 := { (s.ck j).area1 with forwarding := false } }).wr (F.RES_CKPT_STAT_STATE j) (if (s.ck j).complete then 2 else 3)
  if ab then s1 else s1.inc (F.RES_CNT_FORWARDED j)

theorem forwardEnded_slots (ab : Bool) :
    (forwardEnded s j ab).slots = (s.setCk j { s.ck j with area1 := { (s.ck j).area1 with forwarding := false } }).slots := by
  cases ab <;> rfl

theorem forwardEnded_counts : (forwardEnded s j false).rd (F.RES_CNT_FORWARDED j) = min (s.rd (F.RES_CNT_FORWARDED j) + 1) 65535 := by
  refine (State.rd_inc_self _ _ (by simp [F.RES_CNT_FORWARDED])).trans ?_
  rw [State.rd_wr_ne _ _ _ _ (by simp [F.RES_CNT_FORWARDED, F.RES_CKPT_STAT_STATE, Reg.RES_CNT, Reg.RES_CKPT_STAT])]
  rfl

/-- The record of a forward that ends. -/
def forwardRecord (s : State) (j ms : Nat) (ab : Bool) : Ev :=
  (forwardEnded s j ab).ckEv 0 0x0B09 j (place 12 0 ((s.ck j).area1.src.getD 0) ||| place 25 13 (s.memNat ((s.copyArea j false).1 + 0x16) 2)
    ||| place 26 26 (b2n ab) ||| place 58 27 ms)

theorem endForward_emits {ms : Nat} {ab : Bool} (hf : (s.ck j).area1.forwarding = true) :
    s.endForward j ab ms = (forwardEnded s j ab).emit (forwardRecord s j ms ab) := by
  unfold State.endForward
  exact if_neg (by simp [hf])

theorem ckptForwardEnd_records {src ms : Nat} {ab : Bool} (hf : (s.ck j).area1.forwarding = true) (hsrc : (s.ck j).area1.src = some src) :
    exec (.ckptForwardEnd j src ab ms) s = .next ((forwardEnded s j ab).emit (forwardRecord s j ms ab)) := by
  rw [← endForward_emits hf]
  exact if_pos (by simp [hf, hsrc])

theorem forwardRecord_abandoned {ms : Nat} {ab : Bool} : bit (forwardRecord s j ms ab).payload 26 = ab := by
  obtain ⟨n, hn⟩ : ∃ n, s.memNat ((s.copyArea j false).1 + 0x16) 2 = n := ⟨_, rfl⟩
  rw [forwardRecord, hn]
  change bit (_ ||| _ ||| _ ||| _) 26 = ab
  rw [bit_eq_bits]
  cases ab <;> simp [bits_or, bits_place_self, bits_place_below, bits_place_above, b2n]

end

/-! Verification of what a module holds (R723 to R725). -/

section
variable {s t : State} {j : Nat}

/-- A verify that may start runs: its operation is kept and STATE is 1. -/
theorem startVerify_begins {op : Nat} (hstate : s.rd (F.RES_VERIFY_STATE j) ≠ 1) (hop : op = 1 ∨ op = 2) :
    s.startVerify j op = (s.setCk j { s.ck j with vop := op }).wr (F.RES_VERIFY_STATE j) 1 :=
  if_neg (by rcases hop with rfl | rfl <;> simp [hstate])

theorem setCk_ck_self (v : CkptSt) : (s.setCk j v).ck j = v := by rw [State.ck, State.setCk, State.setSlot_slot_self]

theorem setCk_rd (v : CkptSt) (f : Fld) : (s.setCk j v).rd f = s.rd f := rfl

/-- The registers of a verify that ends. -/
def verifyRegs (s : State) (j result bad firstBad : Nat) : State :=
  (((s.wr (F.RES_VERIFY_STATE j) (if result = 0 then 2 else 3)).wr (F.RES_VERIFY_CAUSE j) result).wr (F.RES_VERIFY_BAD j) bad).wr
    (F.RES_VERIFY_FIRST_BAD j) firstBad

/-- The registers and the slot's record of a verify that ends. -/
def verifyShown (s : State) (j a result bad firstBad : Nat) : State :=
  let pend := s.memNat (a + 0x2B) 1
  if result = 0 then
    ((verifyRegs s j result bad firstBad).wr (F.RES_VERIFY_RESTORE j) 1).setCk j
      { (verifyRegs s j result bad firstBad).ck j with vop := 0, kept := some (s.memNat (a + 0x2C) 2, pend % 2, pend / 2 % 2) }
  else (verifyRegs s j result bad firstBad).setCk j { (verifyRegs s j result bad firstBad).ck j with vop := 0 }

/-- The verify that ends, with its record. -/
def verifyEnds (s : State) (j a ms result bad firstBad done : Nat) : State :=
  ((verifyShown s j a result bad firstBad).emit ((verifyShown s j a result bad firstBad).ckEv (if result = 0 then 0 else 1) 0x0B0A j
    (place 1 0 result ||| place 15 2 bad ||| place 29 16 done ||| place 61 30 ms))).tick

theorem evKept_verify {hi lo : Nat} (hhi : hi < 64) (hlo : 32 ≤ lo) : EvKept ⟨Reg.RES_VERIFY j, hi, lo⟩ :=
  ⟨hhi, .inr ⟨by simp only [Reg.RES_VERIFY]; omega, hlo⟩⟩

theorem verifyEnds_rd {a ms result bad firstBad done : Nat} {f : Fld} (hf : EvKept f) :
    (verifyEnds s j a ms result bad firstBad done).rd f = (verifyShown s j a result bad firstBad).rd f := State.emit_rd _ _ hf

theorem verifyEnds_ck {a ms result bad firstBad done : Nat} :
    (verifyEnds s j a ms result bad firstBad done).ck j = (verifyShown s j a result bad firstBad).ck j :=
  congrArg SlotSt.ck (State.emit_slot (verifyShown s j a result bad firstBad) _ j)

theorem verifyShown_vop {a result bad firstBad : Nat} : ((verifyShown s j a result bad firstBad).ck j).vop = 0 := by
  unfold verifyShown
  extract_lets pend
  split <;> rw [setCk_ck_self]

theorem verifyShown_rd {a result bad firstBad : Nat} {f : Fld} (hf : f.hi < 57 ∨ 57 < f.lo) :
    (verifyShown s j a result bad firstBad).rd f = (verifyRegs s j result bad firstBad).rd f := by
  unfold verifyShown
  extract_lets pend
  split
  · rw [setCk_rd, State.rd_wr_disj _ _ _ _ (by simp [F.RES_VERIFY_RESTORE]) hf]
  · rw [setCk_rd]

theorem verifyRegs_state {result bad firstBad : Nat} : (verifyRegs s j result bad firstBad).rd (F.RES_VERIFY_STATE j) = if result = 0 then 2 else 3 := by
  unfold verifyRegs
  split <;> simp [State.rd_wr_self, State.rd_wr_disj, F.RES_VERIFY_STATE, F.RES_VERIFY_CAUSE, F.RES_VERIFY_BAD, F.RES_VERIFY_FIRST_BAD]

theorem verifyRegs_cause {result bad firstBad : Nat} : (verifyRegs s j result bad firstBad).rd (F.RES_VERIFY_CAUSE j) = result % 4 := by
  unfold verifyRegs
  simp [State.rd_wr_self, State.rd_wr_disj, F.RES_VERIFY_CAUSE, F.RES_VERIFY_BAD, F.RES_VERIFY_FIRST_BAD]

theorem verifyRegs_bad {result bad firstBad : Nat} : (verifyRegs s j result bad firstBad).rd (F.RES_VERIFY_BAD j) = bad % 2 ^ 14 := by
  unfold verifyRegs
  simp [State.rd_wr_self, State.rd_wr_disj, F.RES_VERIFY_BAD, F.RES_VERIFY_FIRST_BAD]

theorem verifyShown_restore {a bad firstBad : Nat} : (verifyShown s j a 0 bad firstBad).rd (F.RES_VERIFY_RESTORE j) = 1 := by
  unfold verifyShown
  extract_lets pend
  rw [if_pos rfl, setCk_rd, State.rd_wr_self _ _ _ (by simp [F.RES_VERIFY_RESTORE])]
  simp [F.RES_VERIFY_RESTORE]

section
variable {a ms result bad firstBad done : Nat}

theorem verifyEnds_state : (verifyEnds s j a ms result bad firstBad done).rd (F.RES_VERIFY_STATE j) = if result = 0 then 2 else 3 := by
  have hf : EvKept (F.RES_VERIFY_STATE j) := evKept_verify (by decide) (by decide)
  rw [verifyEnds_rd hf, verifyShown_rd (.inr (by simp [F.RES_VERIFY_STATE])), verifyRegs_state]

theorem verifyEnds_cause : (verifyEnds s j a ms result bad firstBad done).rd (F.RES_VERIFY_CAUSE j) = result % 4 := by
  have hf : EvKept (F.RES_VERIFY_CAUSE j) := evKept_verify (by decide) (by decide)
  rw [verifyEnds_rd hf, verifyShown_rd (.inr (by simp [F.RES_VERIFY_CAUSE])), verifyRegs_cause]

theorem verifyEnds_bad : (verifyEnds s j a ms result bad firstBad done).rd (F.RES_VERIFY_BAD j) = bad % 2 ^ 14 := by
  have hf : EvKept (F.RES_VERIFY_BAD j) := evKept_verify (by decide) (by decide)
  rw [verifyEnds_rd hf, verifyShown_rd (.inl (by simp [F.RES_VERIFY_BAD])), verifyRegs_bad]

theorem verifyEnds_restore : (verifyEnds s j a ms 0 bad firstBad done).rd (F.RES_VERIFY_RESTORE j) = 1 := by
  have hf : EvKept (F.RES_VERIFY_RESTORE j) := evKept_verify (by decide) (by decide)
  rw [verifyEnds_rd hf, verifyShown_restore]

theorem verifyEnds_vop : ((verifyEnds s j a ms result bad firstBad done).ck j).vop = 0 := by rw [verifyEnds_ck, verifyShown_vop]

end

theorem verifyHeader_invalid {a : Nat} (h : s.manifestValid a = false) : s.verifyHeader j a = 1 := by
  simp [State.verifyHeader, h]

/-- The segments that a verify compares, as the module stands once it has read the manifest. -/
def verifyTodo (s : State) (j a : Nat) : List ((Nat × Nat) × Nat) :=
  (segsOf (s.regTable j)).zipIdx.filter (fun x => (s.ck j).vop = 1 || bit (s.memNat (0x7F800 + a + x.2 / 8) 1) (x.2 % 8))

/-- Those that do not have their digest. -/
def verifyBad (s : State) (j a : Nat) : List Nat :=
  ((verifyTodo s j a).filter (fun x => ofLe (sha256 (s.memBytes x.1.1 x.1.2)) ≠ s.memNat (a + 0x100 + 32 * s.memNat (a + 0x10) 2 + 32 * x.2) 32)).map (·.2)

theorem verifyDone_fails {ms n : Nat} (hj : j < 16) (hstate : s.rd (F.RES_VERIFY_STATE j) = 1) (hrun : s.stopped = false)
    (ht : s.reads (4096 * s.rd (F.RES_VBASE_BASE j)) (s.manifestLen (4096 * s.rd (F.RES_VBASE_BASE j))) = t)
    (hvop : (t.ck j).vop = 1) (hn : t.verifyHeader j (4096 * s.rd (F.RES_VBASE_BASE j)) = n) (h0 : n ≠ 0) :
    exec (.verifyDone j ms) s = .next (verifyEnds (t.mismatches j (4096 * s.rd (F.RES_VBASE_BASE j)) [(0, n)]) j (4096 * s.rd (F.RES_VBASE_BASE j)) ms n 0 0 0) := by
  change execVerifyDone j ms s = _
  unfold execVerifyDone
  rw [if_neg (by simp [hj, hstate, hrun])]
  simp only [ht, hvop, hn, if_true]
  exact if_pos h0

theorem verifyDone_passes {ms : Nat} (hj : j < 16) (hstate : s.rd (F.RES_VERIFY_STATE j) = 1) (hrun : s.stopped = false)
    (ht : s.reads (4096 * s.rd (F.RES_VBASE_BASE j)) (s.manifestLen (4096 * s.rd (F.RES_VBASE_BASE j))) = t)
    (hvop : (t.ck j).vop = 2) (hbad : verifyBad t j (4096 * s.rd (F.RES_VBASE_BASE j)) = []) :
    ∃ u n, exec (.verifyDone j ms) s = .next (verifyEnds u j (4096 * s.rd (F.RES_VBASE_BASE j)) ms 0 0 0 n) := by
  change ∃ u n, execVerifyDone j ms s = _
  unfold verifyBad verifyTodo at hbad
  unfold execVerifyDone
  rw [if_neg (by simp [hj, hstate, hrun])]
  simp only [ht, hvop, OfNat.ofNat_ne_one, if_false, ne_eq, not_true_eq_false] at hbad ⊢
  simp only [hbad]
  exact ⟨_, _, rfl⟩

theorem resReg_ne_agent : ∀ a < 2, Reg.RES_REG j ≠ Reg.CRM_AGENT a := by
  intro a ha
  simp only [Reg.RES_REG, Reg.CRM_AGENT]
  omega

/-- The registered regions stand in memory, and in registers that reading lines leaves alone. -/
theorem regTable_reads (ho : OnlySnoops s t) (ht : Tame s t) : t.regTable j = s.regTable j := by
  have hrd (f : Fld) (hf : f.off = Reg.RES_REG j) : t.rd f = s.rd f :=
    ht.rd (hf ▸ resReg_ne_agent 0 (by decide)) (hf ▸ resReg_ne_agent 1 (by decide))
  have hn : t.rd (F.RES_REG_ENTRIES j) = s.rd (F.RES_REG_ENTRIES j) := hrd _ rfl
  have hb : t.rd (F.RES_REG_BASE j) = s.rd (F.RES_REG_BASE j) := hrd _ rfl
  obtain ⟨rs, ds, rfl⟩ := ho
  unfold State.regTable
  rw [hn, hb]
  rfl

/-- A verify of the marked segments finds none without its digest. -/
theorem verifyBad_nil {a : Nat} (ho : OnlySnoops s t) (ht : Tame s t) (hvop : (s.ck j).vop = 2)
    (h : ∀ x ∈ (segsOf (s.regTable j)).zipIdx, bit (s.memNat (0x7F800 + a + x.2 / 8) 1) (x.2 % 8) = true →
      ofLe (sha256 (s.memBytes x.1.1 x.1.2)) = s.memNat (a + 0x100 + 32 * s.memNat (a + 0x10) 2 + 32 * x.2) 32) : verifyBad t j a = [] := by
  have htable := regTable_reads (j := j) ho ht
  unfold verifyBad verifyTodo
  rw [htable]
  obtain ⟨rs, ds, rfl⟩ := ho
  rw [List.map_eq_nil_iff, List.filter_eq_nil_iff]
  intro x hx
  obtain ⟨hmem, hsel⟩ := List.mem_filter.1 hx
  have hvop' : (({ s with regs := rs, dirs := ds } : State).ck j).vop = 2 := hvop
  rw [hvop', show decide (2 = 1) = false from rfl, Bool.false_or] at hsel
  have heq := h x hmem hsel
  simp only [ne_eq, decide_not, Bool.not_eq_true', decide_eq_false_iff_not, not_not]
  exact heq

end

/-- Settles O56: a chunk's bytes are written where its area puts them; a forward that ends is recorded after it is counted; and the registers of a
verify are written last, apart from those that its accesses count in. -/
theorem copiesAndVerifies : Obligations.CopiesAndVerifies := by
  intro s j hj
  refine ⟨?_, ?_, ?_, ?_⟩
  · intro srcFi src seg chunk len tag two data hrun hjob hsrc hseg hchunk h0 hlen htag hdata hdr area off
    have hexec := ckptMessageReceive_placed (srcFi := srcFi) (two := two) hrun hjob hsrc hseg hchunk h0 hlen htag hdata
    subst hdata
    refine ⟨fun hbegun hin hs => ?_, fun hout => ?_⟩
    · rw [placeChunk_begun hbegun (by omega) hin] at hexec
      exact ckptMessageReceive_stands hrun hexec rfl hs
    · rw [placeChunk_outside hout] at hexec
      exact hexec
  · intro src ab ms hf hsrc
    refine ⟨_, _, ckptForwardEnd_records hf hsrc, rfl, rfl, forwardRecord_abandoned, ?_, ?_⟩
    · rw [State.ck, State.slot, forwardEnded_slots, ← State.slot, ← State.ck, setCk_ck_self]
    · rintro rfl
      exact forwardEnded_counts
  · intro hstate begins
    have hbegins (op : Nat) : begins ((s.setCk j { s.ck j with vop := op }).wr (F.RES_VERIFY_STATE j) 1) op :=
      ⟨setCk_ck_self _, (State.rd_wr_self _ _ _ (by simp [F.RES_VERIFY_STATE])).trans (by simp [F.RES_VERIFY_STATE]), rfl,
        fun off hoff => State.wr_reg_ne _ _ _ fun h => hoff (List.mem_singleton.2 h)⟩
    have hall : exec (.verifyAll j) s = .next (s.startVerify j 1) := congrArg ok (if_pos hj)
    have hmarked : exec (.verifyMarked j) s = .next (s.startVerify j 2) := congrArg ok (if_pos hj)
    rw [startVerify_begins hstate (.inl rfl)] at hall
    rw [startVerify_begins hstate (.inr rfl)] at hmarked
    exact ⟨⟨_, hall, hbegins 1⟩, _, hmarked, hbegins 2⟩
  · intro ms hrun hstate hsound hdirs a
    obtain ⟨t, ht⟩ : ∃ t, s.reads a (s.manifestLen a) = t := ⟨_, rfl⟩
    have ho : OnlySnoops s t := ht ▸ .reads hsound _ _
    have htame : Tame s t := ht ▸ tame_reads hsound hdirs _ _
    have hvop : (t.ck j).vop = (s.ck j).vop := by
      obtain ⟨rs, ds, rfl⟩ := ho
      rfl
    refine ⟨fun h2 hgood => ?_, fun h1 hbad => ?_⟩
    · obtain ⟨u, n, hexec⟩ := verifyDone_passes (ms := ms) hj hstate hrun ht (hvop.trans h2) (verifyBad_nil ho htame h2 hgood)
      exact ⟨_, hexec, verifyEnds_state, verifyEnds_restore, verifyEnds_bad, verifyEnds_vop⟩
    · have hhead : t.verifyHeader j a = 1 := by
        obtain ⟨rs, ds, rfl⟩ := ho
        exact verifyHeader_invalid hbad
      exact ⟨_, verifyDone_fails (ms := ms) hj hstate hrun ht (hvop.trans h1) hhead (by decide), verifyEnds_state, verifyEnds_cause, verifyEnds_vop⟩

end Sys2Proof.Machine
end

section

/-! SUPPORT and PROOFS. Event records, and the ring as software drives it (O6). -/
namespace Sys2Proof.Machine
open Sys2Proof

/-! An event record as its 32 bytes (R11). -/

section
variable (r : Rec) (ph : Bool)

theorem recWord_eq : r.toNat ph = place 63 0 r.lap ||| (place 127 127 (b2n ph) ||| place 126 126 (b2n r.jv) ||| place 125 125 (b2n r.lk)
    ||| place 124 112 r.seq ||| place 111 108 r.sev ||| place 107 96 r.job ||| place 95 80 r.src ||| place 79 64 r.code) ||| place 255 128 r.payload := by
  simp [Rec.toNat, place, Nat.shiftLeft_or_distrib, ← Nat.shiftLeft_add]

theorem recWord_lt : r.toNat ph < 2 ^ 256 := by
  rw [recWord_eq]
  have h {hi lo v : Nat} (hh : hi < 256) : place hi lo v < 2 ^ 256 := place_lt hi lo v 256 hh
  exact Nat.or_lt_two_pow (Nat.or_lt_two_pow (h (by decide)) (Nat.or_lt_two_pow (Nat.or_lt_two_pow (Nat.or_lt_two_pow (Nat.or_lt_two_pow
    (Nat.or_lt_two_pow (Nat.or_lt_two_pow (Nat.or_lt_two_pow (h (by decide)) (h (by decide))) (h (by decide))) (h (by decide))) (h (by decide)))
    (h (by decide))) (h (by decide))) (h (by decide)))) (h (by decide))

theorem recWord_lap : bits (r.toNat ph) 63 0 = r.lap % 2 ^ 64 := by
  simp [recWord_eq, bits_or, bits_place_self, bits_place_above]

theorem recWord_phase : bit (r.toNat ph) 127 = ph := by
  rw [bit_eq_bits]
  cases ph <;> simp [recWord_eq, bits_or, bits_place_self, bits_place_below, bits_place_above, b2n]

theorem recWord_jv : bit (r.toNat ph) 126 = r.jv := by
  rw [bit_eq_bits]
  cases h : r.jv <;> simp [recWord_eq, bits_or, bits_place_self, bits_place_below, bits_place_above, b2n, h]

theorem recWord_lk : bit (r.toNat ph) 125 = r.lk := by
  rw [bit_eq_bits]
  cases h : r.lk <;> simp [recWord_eq, bits_or, bits_place_self, bits_place_below, bits_place_above, b2n, h]

theorem recWord_seq : bits (r.toNat ph) 124 112 = r.seq % 2 ^ 13 := by
  simp [recWord_eq, bits_or, bits_place_self, bits_place_below, bits_place_above]

theorem recWord_sev : bits (r.toNat ph) 111 108 = r.sev % 2 ^ 4 := by
  simp [recWord_eq, bits_or, bits_place_self, bits_place_below, bits_place_above]

theorem recWord_job : bits (r.toNat ph) 107 96 = r.job % 2 ^ 12 := by
  simp [recWord_eq, bits_or, bits_place_self, bits_place_below, bits_place_above]

theorem recWord_src : bits (r.toNat ph) 95 80 = r.src % 2 ^ 16 := by
  simp [recWord_eq, bits_or, bits_place_self, bits_place_below, bits_place_above]

theorem recWord_code : bits (r.toNat ph) 79 64 = r.code % 2 ^ 16 := by
  simp [recWord_eq, bits_or, bits_place_self, bits_place_below, bits_place_above]

theorem recWord_payload : bits (r.toNat ph) 255 128 = r.payload % 2 ^ 128 := by
  simp [recWord_eq, bits_or, bits_place_self, bits_place_below]

end

@[simp] theorem leBytes_length (n v : Nat) : (leBytes n v).length = n := by
  induction n generalizing v with
  | zero => rfl
  | succ n ih => rw [leBytes, List.length_cons, ih]

theorem ofLe_leBytes {n v : Nat} (h : v < 256 ^ n) : ofLe (leBytes n v) = v := by
  induction n generalizing v with
  | zero => simp at h; simp [leBytes, ofLe, h]
  | succ n ih =>
    rw [leBytes, ofLe, ih (by rw [Nat.pow_succ] at h; omega), BitVec.toNat_ofNat]
    omega

/-! The ring's entry as its record is stored (R14, R472). -/

section
variable {s t u : State}

/-- No register below those of the caching agents differs. -/
def LowRegs (s t : State) : Prop := ∀ off < 0x400200, t.reg off = s.reg off

theorem LowRegs.refl : LowRegs s s := fun _ _ => rfl

theorem LowRegs.trans (h : LowRegs s t) (h' : LowRegs t u) : LowRegs s u := fun off ho => (h' off ho).trans (h off ho)

theorem LowRegs.foldl {α : Type} {f : State → α → State} (hf : ∀ t a, LowRegs t (f t a)) (l : List α) : LowRegs s (l.foldl f s) := by
  induction l generalizing s with
  | nil => exact .refl
  | cons a l ih => exact (hf s a).trans ih

theorem LowRegs.rd (h : LowRegs s t) {f : Fld} (hf : f.off < 0x400200) : t.rd f = s.rd f := by rw [State.rd, State.rd, h _ hf]

theorem LowRegs.inc {f : Fld} (hf : 0x400200 ≤ f.off) : LowRegs s (s.inc f) := fun _ ho => State.wr_reg_ne _ _ _ (by omega)

theorem eccRead_low {hd line k : Nat} (h : sget (fun _ => 0) s.eccErrs (3 * (if k = 2 then line / 64 else line) + k) ≤ 1) :
    LowRegs s (s.eccRead hd line k) := by
  unfold State.eccRead
  extract_lets key
  change sget (fun _ => 0) s.eccErrs key ≤ 1 at h
  split
  · exact .refl
  · have hoff : 0x400200 ≤ (if k = 2 then F.CRM_HOME_BIAS_CE hd else F.CRM_HOME_DIR_CE hd).off := by
      split <;> simp only [F.CRM_HOME_BIAS_CE, F.CRM_HOME_DIR_CE, Reg.CRM_HOME] <;> omega
    exact fun off ho => (LowRegs.inc hoff off ho).trans rfl
  · next h0 h1 => exact absurd (Nat.le_one_iff_eq_zero_or_eq_one.1 h) (by rintro (h' | h'); exacts [h0 h', h1 h'])

theorem eccReads_low (hd : Nat) {l : Nat} (h : Correctable s l) : LowRegs s (s.eccReads hd l) := by
  obtain ⟨s1, hs1⟩ : ∃ s1, s.eccRead hd l 2 = s1 := ⟨_, rfl⟩
  obtain ⟨s2, hs2⟩ : ∃ s2, s1.eccRead hd l 1 = s2 := ⟨_, rfl⟩
  have h1 : Correctable s1 l := hs1 ▸ (eccRead_corrects hd l 2 h.2.2).correctable h
  have h2 : Correctable s2 l := hs2 ▸ (eccRead_corrects hd l 1 h1.2.1).correctable h1
  have r1 : LowRegs s s1 := hs1 ▸ eccRead_low h.2.2
  have r2 : LowRegs s s2 := r1.trans (hs2 ▸ eccRead_low h1.2.1)
  simp only [State.eccReads, hs1, hs2]
  split
  · exact r1
  · split
    · exact r2
    · exact r2.trans (eccRead_low h2.1)

theorem engineSnoops_low (write : Bool) (line : Nat) : LowRegs s (s.engineSnoops write line) := by
  unfold State.engineSnoops
  extract_lets d who s1 kept
  split
  · exact .refl
  · exact LowRegs.foldl (s := s) (fun t a => .inc (by simp only [F.CRM_AGENT_SNOOPS, Reg.CRM_AGENT]; omega)) who

/-- An access whose lines the homes serve counts in no register below those of the agents. -/
theorem accessNow_low {rs ws : List Nat} (h : HomeServes s (rs ++ ws)) : LowRegs s (s.accessNow rs ws) := by
  have hbias : (rs ++ ws).find? (fun l => s.biasOf l == 3) = none := List.find?_eq_none.2 fun l hl => by simp [(h l hl).2.1]
  have hecc : ∀ (ls : List Nat) (t : State), (∀ l ∈ ls, Correctable t l) →
      LowRegs t (ls.foldl (fun (s : State) l => if s.stopped then s else s.eccReads ((homeOf (64 * l)).getD 31) l) t) := by
    intro ls
    induction ls with
    | nil => exact fun t _ => .refl
    | cons l ls ih =>
      intro t ht
      rw [List.foldl_cons]
      split
      · exact ih t fun k hk => ht k (.tail _ hk)
      · have hc := eccReads_corrects ((homeOf (64 * l)).getD 31) (ht l (.head _))
        exact (eccReads_low _ (ht l (.head _))).trans (ih _ fun k hk => hc.correctable (ht k (.tail _ hk)))
  unfold State.accessNow
  simp only [hbias]
  exact (hecc _ s fun l hl => (h l (List.mem_dedup.1 hl)).2.2).trans
    ((LowRegs.foldl (fun t l => engineSnoops_low false l) rs.dedup).trans (LowRegs.foldl (fun t l => engineSnoops_low true l) ws.dedup))

theorem write_low {a : Nat} {data : List Byte} (h : HomeServes s (linesOf a data.length)) : LowRegs s (s.write a data) := by
  unfold State.write
  extract_lets ls s1
  have hacc : LowRegs s s1 := accessNow_low h
  split
  · exact .refl
  · rw [if_neg (by rw [h.notBusy]; simp)]
    split
    · exact hacc
    · obtain ⟨mm, ls', l2, ds, h2⟩ := setBytes_only (s := s1) a data
      rw [h2]
      exact hacc

/-- `n` as 32 bytes stands at `a`, in memory itself once the domain has stopped, and nothing that records read differs. -/
structure Stored (s u : State) (a n : Nat) : Prop where
  ring : u.ring = s.ring
  low : LowRegs s u
  outside : ∀ b, b < a ∨ a + 32 ≤ b → u.memByte b = s.memByte b
  word : (if s.stopped then ofLe ((List.range 32).map (fun i => u.rawByte (a + i))) else u.memNat a 32) = n

theorem stored_raw {a n : Nat} (hstop : s.stopped = true) (hn : n < 2 ^ 256) : Stored s (s.rawBytes a (leBytes 32 n)) a n := by
  obtain ⟨mm, hmm⟩ := rawBytes_mem (s := s) a (leBytes 32 n)
  refine ⟨by rw [hmm], by rw [hmm]; exact .refl, fun b hb => ?_, ?_⟩
  · have hd : (s.rawBytes a (leBytes 32 n)).dirty = s.dirty := by rw [hmm]; rfl
    unfold State.memByte
    rw [hd, rawByte_rawBytes, if_neg (by rw [leBytes_length]; omega)]
  · rw [if_pos hstop]
    refine Eq.trans (congrArg ofLe ?_) (ofLe_leBytes (n := 32) (lt_of_lt_of_eq hn (by norm_num)))
    refine List.ext_getElem (by simp) fun i hi hi' => ?_
    rw [leBytes_length] at hi'
    rw [List.getElem_map, List.getElem_range, rawByte_rawBytes, if_pos (by rw [leBytes_length]; omega), Nat.add_sub_cancel_left,
      List.getD_eq_getElem]

theorem stored_write {a n : Nat} (hrun : s.stopped = false) (h : HomeServes s (linesOf a 32)) (hn : n < 2 ^ 256) :
    Stored s (s.write a (leBytes 32 n)) a n := by
  have hs : HomeServes s (linesOf a (leBytes 32 n).length) := by rwa [leBytes_length]
  obtain ⟨rs, mm, ls, l2, ds, es, hw⟩ := write_only hrun hs
  refine ⟨by rw [hw], write_low hs, fun b hb => ?_, ?_⟩
  · rw [memByte_write hrun hs, if_neg (by rw [leBytes_length]; omega)]
  · have hbytes := memBytes_write hrun hs
    rw [leBytes_length] at hbytes
    rw [hrun, if_neg (by decide), State.memNat, hbytes, ofLe_leBytes (n := 32) (lt_of_lt_of_eq hn (by norm_num))]

/-- The state in which the record's bytes stand. -/
def ringStored (s : State) (r : Rec) : State :=
  let s0 := s.write (4096 * s.rd F.STR_RING_BASE + 32 * s.ring.tail) (leBytes 32 (r.toNat s.ring.phase))
  if s0.stop.isSome then s0.rawBytes (4096 * s.rd F.STR_RING_BASE + 32 * s.ring.tail) (leBytes 32 (r.toNat s.ring.phase)) else s0

theorem ringStored_stored {r : Rec} (h : s.stopped = false → HomeServes s (linesOf (4096 * s.rd F.STR_RING_BASE + 32 * s.ring.tail) 32)) :
    Stored s (ringStored s r) (4096 * s.rd F.STR_RING_BASE + 32 * s.ring.tail) (r.toNat s.ring.phase) := by
  unfold ringStored
  extract_lets s0
  cases hst : s.stopped with
  | true =>
    have h0 : s0 = s := by simp [s0, State.write, hst]
    rw [h0, if_pos (show s.stop.isSome = true from hst)]
    exact stored_raw hst (recWord_lt _ _)
  | false =>
    have hs : HomeServes s (linesOf (4096 * s.rd F.STR_RING_BASE + 32 * s.ring.tail) (leBytes 32 (r.toNat s.ring.phase)).length) := by
      rw [leBytes_length]
      exact h hst
    obtain ⟨rs, mm, ls, l2, ds, es, hw⟩ := write_only hst hs
    have h0 : ¬ s0.stop.isSome = true := by
      have : s0.stop = s.stop := by
        have hstop := congrArg State.stop hw
        exact hstop
      rw [this]
      exact Bool.eq_false_iff.1 hst
    rw [if_neg h0]
    exact stored_write hst (h hst) (recWord_lt _ _)

/-- The ring once its next entry is used. -/
def ringNext (s : State) : RingSt :=
  { s.ring with
    tail := if s.ring.tail + 1 = s.ringSize then 0 else s.ring.tail + 1
    phase := if s.ring.tail + 1 = s.ringSize then !s.ring.phase else s.ring.phase
    count := s.ring.count + 1 }

theorem irq_shows (hart file eiid : Nat) : ∃ rs im o, s.irq hart file eiid = { s with regs := rs, imsic := im, out := o }
    ∧ ∀ off, off ≠ Reg.STR_HOST 0 → off ≠ Reg.STR_HOST 1 → sget resetWord rs off = s.reg off := by
  unfold State.irq
  extract_lets h st k there
  split
  · next hc =>
    rw [Bool.and_eq_true, decide_eq_true_eq] at hc
    have hh : h = 0 ∨ h = 1 := by omega
    refine ⟨_, s.imsic, s.out, rfl, fun off h0 h1 => State.wr_reg_ne _ _ _ ?_⟩
    rcases hh with hh | hh <;> rw [hh]
    · exact h0
    · exact h1
  · exact ⟨s.regs, _, _, rfl, fun _ _ _ => rfl⟩

/-- A record that is written: its bytes stand, the ring has moved on, and it is counted; an interrupt may follow. -/
theorem ringWrite_stored {r : Rec} (h : s.stopped = false → HomeServes s (linesOf (4096 * s.rd F.STR_RING_BASE + 32 * s.ring.tail) 32)) :
    ∃ rs im o, s.ringWrite r = { ringStored s r with ring := ringNext s, regs := rs, imsic := im, out := o }
      ∧ (s.ringWrite r).reg Reg.STR_RING_CNT = (s.inc F.STR_RING_CNT_WRITTEN).reg Reg.STR_RING_CNT := by
  have hst := ringStored_stored (r := r) h
  obtain ⟨u, hu⟩ : ∃ u, ringStored s r = u := ⟨_, rfl⟩
  rw [hu] at hst
  have hring : ({ u.ring with
      tail := if decide (s.ring.tail + 1 = s.ringSize) then 0 else s.ring.tail + 1
      phase := if decide (s.ring.tail + 1 = s.ringSize) then !s.ring.phase else s.ring.phase
      count := s.ring.count + 1 } : RingSt) = ringNext s := by
    rw [hst.ring]
    simp [ringNext]
  have hinc : (({ u with ring := ringNext s } : State).inc F.STR_RING_CNT_WRITTEN).reg Reg.STR_RING_CNT = (s.inc F.STR_RING_CNT_WRITTEN).reg Reg.STR_RING_CNT := by
    have hreg : ({ u with ring := ringNext s } : State).reg Reg.STR_RING_CNT = s.reg Reg.STR_RING_CNT := hst.low _ (by decide)
    simp only [State.inc, State.add, State.rd, show F.STR_RING_CNT_WRITTEN.off = Reg.STR_RING_CNT from rfl, hreg]
    rw [show Reg.STR_RING_CNT = F.STR_RING_CNT_WRITTEN.off from rfl, State.wr_reg_self, State.wr_reg_self]
    exact congrArg (fun w => putBits w _ _ _) hreg
  unfold ringStored at hu
  unfold State.ringWrite ringStored
  simp only [hu, hring]
  split
  · obtain ⟨rs, im, o, he, hrs⟩ := irq_shows (s := ({ u with ring := ringNext s } : State).inc F.STR_RING_CNT_WRITTEN)
      (s.rd F.STR_RING_IRQ_HART) (s.rd F.STR_RING_IRQ_FILE) (s.rd F.STR_RING_IRQ_EIID)
    refine ⟨rs, im, o, he, ?_⟩
    rw [he]
    exact (hrs _ (by decide) (by decide)).trans hinc
  · exact ⟨_, _, _, rfl, hinc⟩

end

/-! Records that the ring takes, and those that it cannot take (R16 to R18). -/

section
variable {s : State} {r : Rec}

/-- What stands once a record is written. -/
structure Written (s t : State) (r : Rec) (a : Nat) : Prop where
  ring : t.ring = ringNext s
  word : (if s.stopped then ofLe ((List.range 32).map (fun i => t.rawByte (a + i))) else t.memNat a 32) = r.toNat s.ring.phase
  outside : ∀ b, b < a ∨ a + 32 ≤ b → t.memByte b = s.memByte b
  written : t.rd F.STR_RING_CNT_WRITTEN = min (s.rd F.STR_RING_CNT_WRITTEN + 1) (2 ^ 32 - 1)
  held : t.rd F.STR_RING_CNT_HELD = s.rd F.STR_RING_CNT_HELD

theorem ringWrite_written (h : s.stopped = false → HomeServes s (linesOf (4096 * s.rd F.STR_RING_BASE + 32 * s.ring.tail) 32)) :
    Written s (s.ringWrite r) r (4096 * s.rd F.STR_RING_BASE + 32 * s.ring.tail) := by
  obtain ⟨rs, im, o, he, hcnt⟩ := ringWrite_stored (r := r) h
  obtain ⟨-, -, houtside, hword⟩ := ringStored_stored (r := r) h
  have hrd {f : Fld} (hf : f.off = Reg.STR_RING_CNT) : (s.ringWrite r).rd f = (s.inc F.STR_RING_CNT_WRITTEN).rd f := by rw [State.rd, State.rd, hf, hcnt]
  refine ⟨by rw [he], ?_, fun b hb => ?_, (hrd rfl).trans (State.rd_inc_self _ _ (by decide)), (hrd rfl).trans (State.rd_inc_disj _ _ _ (by decide) (.inl (by decide)))⟩
  · rw [he]
    exact hword
  · rw [he]
    exact houtside b hb

theorem ringPut_writes (hen : s.rd F.STR_RING_EN = 1) (haway : s.ringAway = false)
    (hfree : (3 ≤ r.sev ∧ 0 < s.ringFree) ∨ (¬ 3 ≤ r.sev ∧ s.ring.lost = 0 ∧ 16 < s.ringFree)) : s.ringPut r = s.ringWrite r := by
  unfold State.ringPut
  rw [if_neg (by simp [hen, haway])]
  rcases hfree with ⟨hsev, hfree⟩ | ⟨hsev, hlost, hfree⟩
  · rw [if_pos hsev, if_pos hfree]
  · rw [if_neg hsev, if_neg (by omega), if_pos hfree]

theorem ringPut_holds (h : s.rd F.STR_RING_EN = 0 ∨ (3 ≤ r.sev ∧ s.ringFree = 0)) : s.ringPut r = s.ringHold r := by
  unfold State.ringPut
  by_cases hen : s.rd F.STR_RING_EN = 0
  · rw [if_pos (by simp [hen])]
  · obtain ⟨hsev, hfree⟩ := h.resolve_left hen
    split
    · rfl
    · rw [if_neg (show ¬ 0 < s.ringFree by omega)]

theorem ringPut_drops (hen : s.rd F.STR_RING_EN = 1) (haway : s.ringAway = false) (hsev : ¬ 3 ≤ r.sev) (hfree : s.ringFree ≤ 16) : s.ringPut r = s.ringDrop r := by
  unfold State.ringPut
  rw [if_neg (by simp [hen, haway]), if_neg hsev, if_neg (show ¬ 16 < s.ringFree by omega), ite_self]

theorem ringDrop_ring : (s.ringDrop r).ring = { s.ring with lost := s.ring.lost + 1, lostLap := if s.ring.lost = 0 then r.lap else s.ring.lostLap } := by
  unfold State.ringDrop
  dsimp only
  split <;> rfl

theorem ringDrop_mem : (s.ringDrop r).mem = s.mem := by
  unfold State.ringDrop
  dsimp only
  split <;> rfl

theorem ringDrop_counts (hsev : ¬ 3 ≤ r.sev) : (s.ringDrop r).rd F.STR_RING_CNT_DROPPED = min (s.rd F.STR_RING_CNT_DROPPED + 1) 65535 := by
  unfold State.ringDrop
  rw [if_neg hsev]
  exact State.rd_inc_self _ _ (by decide)

theorem ringHold_room (h : s.ring.held.length < 64) :
    s.ringHold r = ({ s with ring := { s.ring with held := s.ring.held ++ [r] } } : State).wr F.STR_RING_CNT_HELD (s.ring.held.length + 1) := if_pos h

/-- However a record is taken, the next SEQ stays. -/
theorem ringPut_seq (h : s.stopped = false → HomeServes s (linesOf (4096 * s.rd F.STR_RING_BASE + 32 * s.ring.tail) 32)) :
    (s.ringPut r).ring.seq = s.ring.seq := by
  have hwrite : (s.ringWrite r).ring.seq = s.ring.seq := by rw [(ringWrite_written h).ring]; rfl
  have hdrop : (s.ringDrop r).ring.seq = s.ring.seq := by rw [ringDrop_ring]
  have hhold : (s.ringHold r).ring.seq = s.ring.seq := by
    unfold State.ringHold
    split
    · rfl
    · exact hdrop
  unfold State.ringPut
  split
  · exact hhold
  · split
    · split
      · exact hwrite
      · exact hhold
    · split
      · exact hdrop
      · split
        · exact hwrite
        · exact hdrop

variable {e : Ev}

/-- The record of a condition. -/
def recOf (s : State) (e : Ev) : Rec := ⟨s.recLap, e.job.isSome, s.locked, s.ring.seq, e.sev, e.job.getD 0, e.src, e.code, e.payload⟩

/-- The state once a condition has its SEQ. -/
def sequenced (s : State) (e : Ev) : State :=
  { s with ring := { s.ring with seq := (s.ring.seq + 1) % 8192 }, degr := if e.sev = 2 then 0xFFFF else s.degr }

theorem emit_puts : ∃ o, s.emit e = { (sequenced s e).ringPut (recOf s e) with out := o } := by
  unfold State.emit
  dsimp only
  split
  · exact ⟨_, rfl⟩
  · exact ⟨((sequenced s e).ringPut (recOf s e)).out, rfl⟩

end

section
variable {s : State}

theorem ringSize_pos : 0 < s.ringSize := Nat.two_pow_pos _

theorem ringDrain_idle (hheld : s.ring.held = []) (hlost : s.ring.lost = 0) (n : Nat) : s.ringDrain n = s := by
  cases n with
  | zero => rfl
  | succ n =>
    unfold State.ringDrain
    simp [State.overflowReady, State.heldReady, hheld, hlost]

theorem headDistance (v old : Nat) {size : Nat} (hsize : 0 < size) : (old + (v % size + size - old % size) % size) % size = v % size := by
  have hold : old % size < size := Nat.mod_lt _ hsize
  have hv : v % size < size := Nat.mod_lt _ hsize
  rw [Nat.add_mod_mod, ← Nat.mod_add_mod, show old % size + (v % size + size - old % size) = v % size + size by omega, Nat.add_mod_right, Nat.mod_mod]

theorem head_lt (v : Nat) {size : Nat} : v % 65536 % size < 2 ^ 16 := lt_of_le_of_lt (Nat.mod_le _ _) (Nat.mod_lt _ (by decide))

end

section
variable {s : State} {e : Ev}

/-- The fields of a condition's record, and what it leaves of the ring and of memory. -/
theorem emit_written (hsev : e.sev < 16) (hcode : e.code < 2 ^ 16) (hsrc : e.src < 2 ^ 16) (hjob : ∀ x ∈ e.job, x < 2 ^ 12) {t : State} {w : Nat}
    (hw : w = (recOf s e).toNat s.ring.phase) (hring : t.ring = ringNext (sequenced s e)) :
    bits w 63 0 = s.recLap % 2 ^ 64 ∧ bit w 127 = s.ring.phase ∧ bit w 126 = e.job.isSome ∧ bit w 125 = s.locked ∧ bits w 124 112 = s.ring.seq % 8192
      ∧ bits w 111 108 = e.sev ∧ bits w 107 96 = e.job.getD 0 ∧ bits w 95 80 = e.src ∧ bits w 79 64 = e.code
      ∧ bits w 255 128 = e.payload % 2 ^ 128 ∧ t.ring.count = s.ring.count + 1 ∧ t.ring.held = s.ring.held := by
  have hjob' : e.job.getD 0 < 2 ^ 12 := by
    cases hj : e.job with
    | none => exact Nat.two_pow_pos _
    | some x => exact hjob x hj
  subst hw
  refine ⟨recWord_lap _ _, recWord_phase _ _, recWord_jv _ _, recWord_lk _ _, recWord_seq _ _, ?_, ?_, ?_, ?_, recWord_payload _ _, ?_, ?_⟩
  · exact (recWord_sev _ _).trans (Nat.mod_eq_of_lt hsev)
  · exact (recWord_job _ _).trans (Nat.mod_eq_of_lt hjob')
  · exact (recWord_src _ _).trans (Nat.mod_eq_of_lt hsrc)
  · exact (recWord_code _ _).trans (Nat.mod_eq_of_lt hcode)
  · rw [hring]; rfl
  · rw [hring]; rfl

/-- Where the ring's next entry is, and its PHASE. -/
theorem ringNext_tail {r : RingSt} {size : Nat} (hr : r = ringNext s) (hsize : s.ringSize = size) :
    (s.ring.tail + 1 ≠ size → r.tail = s.ring.tail + 1 ∧ r.phase = s.ring.phase) ∧ (s.ring.tail + 1 = size → r.tail = 0 ∧ r.phase = !s.ring.phase) := by
  subst hr hsize
  exact ⟨fun h => ⟨if_neg h, if_neg h⟩, fun h => ⟨if_pos h, if_pos h⟩⟩

end

/-! The ring as software drives it (R16, R18, R19, R670). -/

section
variable {s : State} {v : Nat}

/-- A HEAD within what is there frees its entries. -/
theorem writeRingHead_frees (hheld : s.ring.held = []) (hlost : s.ring.lost = 0)
    (hd : (v % s.ringSize + s.ringSize - s.rd F.STR_RING_HEAD_HEAD % s.ringSize) % s.ringSize ≤ s.ring.count) :
    s.writeRingHead v = ({ s with ring := { s.ring with
        count := s.ring.count - (v % s.ringSize + s.ringSize - s.rd F.STR_RING_HEAD_HEAD % s.ringSize) % s.ringSize } } : State).wr
      F.STR_RING_HEAD_HEAD (v % s.ringSize) := by
  unfold State.writeRingHead
  extract_lets size old d
  have hdist : (old + d) % size = v % size := headDistance v old ringSize_pos
  rw [if_neg (show ¬ s.ring.count < d from Nat.not_lt.2 hd), hdist]
  refine ringDrain_idle ?_ ?_ _
  · exact hheld
  · exact hlost

theorem writeRingHead_beyond (hd : s.ring.count < (v % s.ringSize + s.ringSize - s.rd F.STR_RING_HEAD_HEAD % s.ringSize) % s.ringSize) :
    s.writeRingHead v = s := if_pos hd

/-- The ring's registers as a write enables it. -/
def ringEnabled (s : State) (val : Word) : State :=
  ({ s.setReg Reg.STR_RING (mergeMask (accMask .rw Reg.STR_RING) (s.reg Reg.STR_RING) val) with
    ring := { s.ring with tail := 0, phase := true, count := 0 } } : State).wr F.STR_RING_HEAD_HEAD 0

theorem writeRing_enables {val : Word} (hheld : s.ring.held = []) (hlost : s.ring.lost = 0) (hen : s.rd F.STR_RING_EN = 0) (hbit : bit val.toNat 63 = true) :
    s.writeRing val = ringEnabled s val := by
  unfold State.writeRing
  rw [if_neg (by omega)]
  dsimp only
  rw [if_pos hbit]
  refine ringDrain_idle ?_ ?_ _
  · exact hheld
  · exact hlost

/-- LOG2, BASE and EN are fields that software writes. -/
theorem ringMask_log2 : ∀ i, F.STR_RING_LOG2.lo ≤ i → i ≤ F.STR_RING_LOG2.hi → (accMask .rw Reg.STR_RING).getLsbD i = true := by
  intro i hlo hhi
  have hall : ∀ k < 63, 58 ≤ k → (accMask .rw Reg.STR_RING).getLsbD k = true := by decide +kernel
  exact hall i (Nat.lt_succ_of_le hhi) hlo

theorem ringMask_base : ∀ i, F.STR_RING_BASE.lo ≤ i → i ≤ F.STR_RING_BASE.hi → (accMask .rw Reg.STR_RING).getLsbD i = true := by
  intro i hlo hhi
  have hall : ∀ k < 46, 12 ≤ k → (accMask .rw Reg.STR_RING).getLsbD k = true := by decide +kernel
  exact hall i (Nat.lt_succ_of_le hhi) hlo

theorem ringMask_en : ∀ i, F.STR_RING_EN.lo ≤ i → i ≤ F.STR_RING_EN.hi → (accMask .rw Reg.STR_RING).getLsbD i = true := by
  intro i hlo hhi
  rw [show i = 63 from Nat.le_antisymm hhi hlo]
  decide +kernel

theorem ringEnabled_rd {val : Word} {f : Fld} (hf : f.off = Reg.STR_RING) 
    (hmask : ∀ i, f.lo ≤ i → i ≤ f.hi → (accMask .rw Reg.STR_RING).getLsbD i = true) : (ringEnabled s val).rd f = bits val.toNat f.hi f.lo := by
  refine (State.rd_wr_ne _ _ _ _ (by rw [hf]; decide)).trans ?_
  have hreg : ({ s.setReg Reg.STR_RING (mergeMask (accMask .rw Reg.STR_RING) (s.reg Reg.STR_RING) val) with
      ring := { s.ring with tail := 0, phase := true, count := 0 } } : State).reg Reg.STR_RING = mergeMask (accMask .rw Reg.STR_RING) (s.reg Reg.STR_RING) val :=
    State.setReg_reg_self _ _ _
  rw [State.rd, hf, hreg]
  apply Nat.eq_of_testBit_eq
  intro i
  rw [testBit_bits, testBit_bits]
  by_cases hi : i < f.hi + 1 - f.lo
  · exact congrArg (decide _ && ·) (mergeMask_bit _ _ _ (hmask _ (by omega) (by omega)))
  · rw [decide_eq_false hi, Bool.false_and, Bool.false_and]

end

section
variable {s : State}

theorem ringOpen_of (hen : s.rd F.STR_RING_EN = 1) (haway : s.ringAway = false) : s.ringOpen = true := by simp [State.ringOpen, hen, haway]

/-- The first of the held records goes to the ring's next entry. -/
theorem heldRecordWrite_writes (hrun : s.stopped = false) (hen : s.rd F.STR_RING_EN = 1) (haway : s.ringAway = false)
    (hserve : HomeServes s (linesOf (4096 * s.rd F.STR_RING_BASE + 32 * s.ring.tail) 32)) {r : Rec} {rs : List Rec} (hheld : s.ring.held = r :: rs)
    (hlost : s.ring.lost = 0) (hfree : (3 ≤ r.sev ∧ 0 < s.ringFree) ∨ 16 < s.ringFree) :
    ∃ t, exec .heldRecordWrite s = .next t ∧ t.ring.held = rs
      ∧ t.memNat (4096 * s.rd F.STR_RING_BASE + 32 * s.ring.tail) 32 = r.toNat s.ring.phase ∧ t.ring.count = s.ring.count + 1
      ∧ t.ring.seq = s.ring.seq ∧ t.rd F.STR_RING_CNT_HELD = rs.length % 256 := by
  obtain ⟨q, hq⟩ : ∃ q, ({ s with ring := { s.ring with held := rs } } : State).wr F.STR_RING_CNT_HELD rs.length = q := ⟨_, rfl⟩
  have hready : s.heldReady = some (0, r) := by
    have hfirst : (if 3 ≤ r.sev then decide (0 < s.ringFree) else decide (16 < s.ringFree)) = true := by
      split
      · rcases hfree with h | h <;> simp <;> omega
      · exact decide_eq_true (hfree.resolve_left fun h => absurd h.1 ‹_›)
    simp [State.heldReady, hheld, List.findIdx?_cons, hfirst]
  have hexec : exec .heldRecordWrite s = .next (q.ringWrite r) := by
    change execHeldRecordWrite s = _
    unfold execHeldRecordWrite
    rw [if_pos (by simp [ringOpen_of hen haway, State.overflowReady, hlost, hrun]), hready]
    simp only [State.ringUnhold, hheld, List.eraseIdx_cons_zero, hq]
  have hbase : q.rd F.STR_RING_BASE = s.rd F.STR_RING_BASE := hq ▸ State.rd_wr_ne _ _ _ _ (by decide)
  have hring : q.ring = { s.ring with held := rs } := hq ▸ rfl
  have hstop : q.stopped = false := hq ▸ hrun
  have hserve' : HomeServes q (linesOf (4096 * s.rd F.STR_RING_BASE + 32 * s.ring.tail) 32) := hq ▸ hserve
  have hw := ringWrite_written (s := q) (r := r) fun _ => by rw [hbase, hring]; exact hserve'
  rw [hbase, hring] at hw
  refine ⟨_, hexec, ?_, ?_, ?_, ?_, ?_⟩
  · rw [hw.ring, ringNext, hring]
  · have hword := hw.word
    rw [hstop, hring] at hword
    exact hword
  · rw [hw.ring, ringNext, hring]
  · rw [hw.ring, ringNext, hring]
  · rw [hw.held, ← hq]
    exact State.rd_wr_self _ _ _ (by decide)

/-- The overflow record carries the number of the records lost, and the lap of the first. -/
theorem eventRingOverflow_writes (hrun : s.stopped = false) (hen : s.rd F.STR_RING_EN = 1) (haway : s.ringAway = false)
    (hserve : HomeServes s (linesOf (4096 * s.rd F.STR_RING_BASE + 32 * s.ring.tail) 32)) (hlost : 0 < s.ring.lost) (hfree : 16 < s.ringFree) :
    ∃ t, exec .eventRingOverflow s = .next t ∧ t.ring.lost = 0 ∧ t.ring.held = s.ring.held ∧ t.ring.seq = (s.ring.seq + 1) % 8192
      ∧ bits (t.memNat (4096 * s.rd F.STR_RING_BASE + 32 * s.ring.tail) 32) 79 64 = 0x0120
      ∧ bits (t.memNat (4096 * s.rd F.STR_RING_BASE + 32 * s.ring.tail) 32) 111 108 = 1
      ∧ bits (t.memNat (4096 * s.rd F.STR_RING_BASE + 32 * s.ring.tail) 32) 95 80 = 0xF800
      ∧ bits (t.memNat (4096 * s.rd F.STR_RING_BASE + 32 * s.ring.tail) 32) 159 128 = s.ring.lost % 2 ^ 32
      ∧ bits (t.memNat (4096 * s.rd F.STR_RING_BASE + 32 * s.ring.tail) 32) 223 160 = s.ring.lostLap % 2 ^ 64 := by
  obtain ⟨r, hr⟩ : ∃ r : Rec, r = ⟨s.recLap, false, s.locked, s.ring.seq, 1, 0, srcModule 0, 0x0120, place 31 0 s.ring.lost ||| place 95 32 s.ring.lostLap⟩ := ⟨_, rfl⟩
  obtain ⟨q, hq⟩ : ∃ q : State, { s with ring := { s.ring with seq := (s.ring.seq + 1) % 8192, lost := 0, lostLap := 0 } } = q := ⟨_, rfl⟩
  have hexec : exec .eventRingOverflow s = .next (q.ringWrite r) := by
    change execEventRingOverflow s = _
    unfold execEventRingOverflow
    rw [if_pos (by simp [ringOpen_of hen haway, State.overflowReady, hlost, hfree, hrun]), hr, ← hq]
    rfl
  have hring : q.ring = { s.ring with seq := (s.ring.seq + 1) % 8192, lost := 0, lostLap := 0 } := hq ▸ rfl
  have hbase : q.rd F.STR_RING_BASE = s.rd F.STR_RING_BASE := hq ▸ rfl
  have hstop : q.stopped = false := hq ▸ hrun
  have hserve' : HomeServes q (linesOf (4096 * s.rd F.STR_RING_BASE + 32 * s.ring.tail) 32) := hq ▸ hserve
  have hw := ringWrite_written (s := q) (r := r) fun _ => by rw [hbase, hring]; exact hserve'
  rw [hbase, hring] at hw
  have hword : (q.ringWrite r).memNat (4096 * s.rd F.STR_RING_BASE + 32 * s.ring.tail) 32 = r.toNat s.ring.phase := by
    have hword := hw.word
    rw [hstop, hring] at hword
    exact hword
  have hpayload {hi lo : Nat} (hhi : hi < 128) : bits (r.toNat s.ring.phase) (hi + 128) (lo + 128) = bits r.payload hi lo := by
    apply Nat.eq_of_testBit_eq
    intro i
    rw [testBit_bits, testBit_bits]
    by_cases hi' : i < hi + 1 - lo
    · have h := congrArg (fun n => n.testBit (lo + i)) (recWord_payload r s.ring.phase)
      simp only [testBit_bits, Nat.testBit_mod_two_pow, show lo + i < 128 by omega, decide_true, Bool.true_and] at h
      rw [show hi + 128 + 1 - (lo + 128) = hi + 1 - lo by omega, show lo + 128 + i = 128 + (lo + i) by omega, h]
    · rw [decide_eq_false hi', decide_eq_false (by omega), Bool.false_and, Bool.false_and]
  refine ⟨_, hexec, ?_, ?_, ?_, ?_, ?_, ?_, ?_, ?_⟩
  · rw [hw.ring, ringNext, hring]
  · rw [hw.ring, ringNext, hring]
  · rw [hw.ring, ringNext, hring]
  · rw [hword, recWord_code, hr]; rfl
  · rw [hword, recWord_sev, hr]; rfl
  · rw [hword, recWord_src, hr]; rfl
  · rw [hword, hpayload (hi := 31) (lo := 0) (by decide), hr]
    simp [bits_or, bits_place_self, bits_place_above]
  · rw [hword, hpayload (hi := 95) (lo := 32) (by decide), hr]
    simp [bits_or, bits_place_self, bits_place_below]

end

/-- Settles O6: the record's bytes are written where no copy of their line is under way; what is held or dropped changes no memory. -/
theorem eventRing : Obligations.EventRing := by
  refine ⟨?_, ?_⟩
  · intro s e hsev hcode hsrc hjob haway a hserve t fatal
    obtain ⟨o, ho⟩ := emit_puts (s := s) (e := e)
    have ht : t = { (sequenced s e).ringPut (recOf s e) with out := o } := ho
    clear_value t
    subst ht
    have hserve' : (sequenced s e).stopped = false → HomeServes (sequenced s e) (linesOf (4096 * (sequenced s e).rd F.STR_RING_BASE + 32 * (sequenced s e).ring.tail) 32) := hserve
    refine ⟨ringPut_seq hserve', fun hen hfree => ?_, fun hhold hroom => ?_, fun hen hlow hfree => ?_⟩
    · have hput : (sequenced s e).ringPut (recOf s e) = (sequenced s e).ringWrite (recOf s e) :=
        ringPut_writes hen haway (hfree.imp (fun h => ⟨of_decide_eq_true h.1, h.2⟩) (fun h => ⟨of_decide_eq_false h.1, h.2⟩))
      obtain ⟨hring, hword, houtside, hwritten, -⟩ := ringWrite_written (r := recOf s e) hserve'
      rw [hput]
      intro w
      obtain ⟨hlap, hphase, hjv, hlk, hseq, hsv, hjb, hsr, hcd, hpl, hcount, hheld⟩ := emit_written hsev hcode hsrc hjob (w := w) hword hring
      obtain ⟨hnext, hwrap⟩ := ringNext_tail (s := sequenced s e) hring rfl
      exact ⟨hlap, hphase, hjv, hlk, hseq, hsv, hjb, hsr, hcd, hpl, hcount, hheld, houtside, hnext, hwrap, hwritten⟩
    · have hput : (sequenced s e).ringPut (recOf s e) = (sequenced s e).ringHold (recOf s e) :=
        ringPut_holds (hhold.imp id (fun h => ⟨of_decide_eq_true h.1, h.2⟩))
      rw [hput, ringHold_room (s := sequenced s e) hroom]
      exact ⟨rfl, rfl, recOf s e, rfl, rfl, rfl, rfl, rfl, rfl, rfl⟩
    · have hsev' : ¬ 3 ≤ e.sev := of_decide_eq_false hlow
      have hput : (sequenced s e).ringPut (recOf s e) = (sequenced s e).ringDrop (recOf s e) := ringPut_drops hen haway hsev' hfree
      rw [hput]
      have hring := ringDrop_ring (s := sequenced s e) (r := recOf s e)
      refine ⟨ringDrop_mem (s := sequenced s e), (congrArg RingSt.count hring).trans rfl, (congrArg RingSt.held hring).trans rfl, (congrArg RingSt.lost hring).trans rfl, ?_⟩
      exact ringDrop_counts (s := sequenced s e) hsev'
  · intro s val hrun size d a
    refine ⟨fun hheld hlost => ⟨fun hd => ?_, fun hd => ?_, fun hen hbit => ?_⟩, fun hen hbit => ?_, fun hen haway hserve => ⟨fun r rs hheld hlost hfree => ?_, fun hlost hfree => ?_⟩⟩
    · have hexec : exec (.ringHeadWrite val) s = .next (s.writeRingHead (val.toNat % 65536)) := if_neg (by rw [hrun]; decide)
      rw [writeRingHead_frees hheld hlost hd] at hexec
      refine ⟨_, hexec, rfl, (State.rd_wr_self _ _ _ (by decide)).trans (Nat.mod_eq_of_lt (head_lt _)), rfl,
        fun off hoff => State.wr_reg_ne _ _ _ fun h => hoff (List.mem_singleton.2 h)⟩
    · have hexec : exec (.ringHeadWrite val) s = .next (s.writeRingHead (val.toNat % 65536)) := if_neg (by rw [hrun]; decide)
      rwa [writeRingHead_beyond hd] at hexec
    · have hexec : exec (.eventRingEnable val) s = .next (s.writeRing val) := if_neg (by rw [hrun]; decide)
      rw [writeRing_enables hheld hlost hen hbit] at hexec
      refine ⟨_, hexec, rfl, ?_, ringEnabled_rd rfl ringMask_log2, ringEnabled_rd rfl ringMask_base, State.rd_wr_self _ _ _ (by decide), rfl, fun off hoff => ?_⟩
      · rw [ringEnabled_rd rfl ringMask_en]
        exact of_decide_eq_true ((bit_eq_bits _ _).symm.trans hbit)
      · simp only [List.mem_cons, List.not_mem_nil, or_false, not_or] at hoff
        exact (State.wr_reg_ne _ _ _ hoff.2).trans (State.setReg_reg_ne _ _ hoff.1)
    · have hexec : exec (.eventRingDisable val) s = .next (s.writeRing val) := if_neg (by rw [hrun]; decide)
      rw [State.writeRing, if_pos hen, hbit] at hexec
      refine ⟨_, hexec, State.rd_wr_self _ _ _ (by decide), State.rd_wr_disj _ _ _ _ (by decide) (.inl (by decide)),
        State.rd_wr_disj _ _ _ _ (by decide) (.inl (by decide)), rfl, fun off hoff => State.wr_reg_ne _ _ _ fun h => hoff (List.mem_singleton.2 h)⟩
    · exact heldRecordWrite_writes hrun hen haway hserve hheld hlost hfree
    · exact eventRingOverflow_writes hrun hen haway hserve hlost hfree

end Sys2Proof.Machine
end

section

/-! SUPPORT and PROOFS. What ending work leaves of the clusters; DMA (O24). -/
namespace Sys2Proof.Machine
open Sys2Proof

/-! What the end of a job leaves of the clusters (R233, R472): their tile stores stand, their outstanding DQs may go, and one that runs is HALTED. -/

/-- The contexts and the engines at work are ones that there are. -/
def Keyed (s : State) : Prop := (∀ p ∈ s.ctxs, p.1 < 1024) ∧ ∀ p ∈ s.engs, p.1 < 40 ∧ p.2.q < 256

/-- A field that no cluster's RUN shares a bit with. -/
def NotRun (f : Fld) : Prop := f.hi < 64 ∧ ∀ cl : ClusterId, cl.wf = true → f.off ≠ Reg.CL_STATUS cl.die cl.idx ∨ 53 < f.lo ∨ f.hi < 51

theorem NotRun.of_ne {f : Fld} (hhi : f.hi < 64) (h : ∀ n k, f.off ≠ Reg.CL_STATUS n k) : NotRun f := ⟨hhi, fun _ _ => .inl (h _ _)⟩

/-- From `s` to `t` jobs and engines have ended. -/
structure Halts (s t : State) : Prop where
  tile : ∀ cl, (t.cluster cl).tile = (s.cluster cl).tile
  dqs : ∀ cl, ∀ y ∈ (t.cluster cl).dqs, y ∈ (s.cluster cl).dqs
  stop : s.stopped = true → t.stop = s.stop
  keys : Keyed s → Keyed t
  run : s.stopped = true → Keyed s → ∀ cl, cl.wf = true → t.run cl = s.run cl ∨ (t.run cl = 5 ∧ s.run cl ≠ 6)

/-- A record is written to memory itself after a stop, and the stop stands. -/
theorem emit_stop {s : State} (hs : s.stopped = true) (e : Ev) : (s.emit e).stop = s.stop := by
  have hirq (t : State) (a b c : Nat) : (t.irq a b c).stop = t.stop := by
    obtain ⟨rs, im, o, he, -⟩ := irq_shows (s := t) a b c
    rw [he]
  have hdrop (t : State) (r : Rec) : (t.ringDrop r).stop = t.stop := by
    unfold State.ringDrop
    dsimp only
    split <;> rfl
  have hhold (t : State) (r : Rec) : (t.ringHold r).stop = t.stop := by
    unfold State.ringHold
    split
    · rfl
    · exact hdrop t r
  have hwrite (t : State) (ht : t.stopped = true) (r : Rec) : (t.ringWrite r).stop = t.stop := by
    have hstored : (ringStored t r).stop = t.stop := by
      have h0 : t.write (4096 * t.rd F.STR_RING_BASE + 32 * t.ring.tail) (leBytes 32 (r.toNat t.ring.phase)) = t := by simp [State.write, ht]
      obtain ⟨mm, hmm⟩ := rawBytes_mem (s := t) (4096 * t.rd F.STR_RING_BASE + 32 * t.ring.tail) (leBytes 32 (r.toNat t.ring.phase))
      unfold ringStored
      simp only [h0, hmm]
      split <;> rfl
    obtain ⟨rs, im, o, he, -⟩ := ringWrite_stored (r := r) (s := t) fun h => by rw [ht] at h; cases h
    rw [he]
    exact hstored
  have hput (t : State) (ht : t.stopped = true) (r : Rec) : (t.ringPut r).stop = t.stop := by
    unfold State.ringPut
    split
    · exact hhold t r
    · split
      · split
        · exact hwrite t ht r
        · exact hhold t r
      · split
        · exact hdrop t r
        · split
          · exact hwrite t ht r
          · exact hdrop t r
  obtain ⟨o, ho⟩ := emit_puts (s := s) (e := e)
  rw [ho]
  exact hput (sequenced s e) hs _

namespace Halts
variable {s t u : State}

protected theorem refl : Halts s s := ⟨fun _ => rfl, fun _ _ h => h, fun _ => rfl, id, fun _ _ _ _ => .inl rfl⟩

theorem stopped (h : Halts s t) (hs : s.stopped = true) : t.stopped = true := by rw [State.stopped, h.stop hs]; exact hs

theorem trans (h : Halts s t) (h' : Halts t u) : Halts s u := by
  refine ⟨fun cl => (h'.tile cl).trans (h.tile cl), fun cl y hy => h.dqs cl y (h'.dqs cl y hy), fun hs => (h'.stop (h.stopped hs)).trans (h.stop hs),
    fun hk => h'.keys (h.keys hk), fun hs hk cl hwf => ?_⟩
  rcases h'.run (h.stopped hs) (h.keys hk) cl hwf with h2 | ⟨h2, hne⟩
  · rw [h2]
    exact h.run hs hk cl hwf
  · rcases h.run hs hk cl hwf with h1 | ⟨-, h1⟩
    · exact .inr ⟨h2, h1 ▸ hne⟩
    · exact .inr ⟨h2, h1⟩

/-- An update that leaves the clusters, the stop and the registers alone. -/
theorem upd (h : Halts s t) (hc : u.clusters = t.clusters) (hst : u.stop = t.stop) (hr : u.regs = t.regs) (hk : Keyed t → Keyed u) : Halts s u := by
  have hcl (cl : ClusterId) : u.cluster cl = t.cluster cl := congrArg (fun l => sget (fun _ => ClusterSt.init) l (clKey cl)) hc
  refine h.trans ⟨fun cl => by rw [hcl], fun cl y hy => by rwa [hcl] at hy, fun _ => hst, hk, fun _ _ cl _ => .inl (State.rd_of_regs t hr _)⟩

theorem ite {p : Prop} [Decidable p] (h : Halts s t) (h' : Halts s u) : Halts s (if p then t else u) := by
  split
  · exact h
  · exact h'

theorem foldl {α : Type} {f : State → α → State} {l : List α} (hf : ∀ t a, Halts s t → Halts s (f t a)) (h : Halts s t) :
    Halts s (l.foldl f t) := foldl_induct hf l h

theorem foldl_mem {α : Type} {f : State → α → State} {l : List α} (hf : ∀ t, ∀ a ∈ l, Halts s t → Halts s (f t a)) (h : Halts s t) :
    Halts s (l.foldl f t) := by
  induction l generalizing t with
  | nil => exact h
  | cons a l ih => exact ih (fun t b hb => hf t b (.tail _ hb)) (hf t a (.head _) h)

/-- A field that is no cluster's RUN. -/
theorem wr (h : Halts s t) {f : Fld} {v : Nat} (hf : s.stopped = true → Keyed s → NotRun f) : Halts s (t.wr f v) := by
  refine ⟨h.tile, h.dqs, h.stop, h.keys, fun hs hk cl hwf => ?_⟩
  have hrun : (t.wr f v).run cl = t.run cl := by
    obtain ⟨hhi, hne⟩ := hf hs hk
    rcases hne cl hwf with hne | hne
    · exact State.rd_wr_ne _ _ _ _ (Ne.symm hne)
    · exact State.rd_wr_disj _ _ _ _ hhi hne
  rw [hrun]
  exact h.run hs hk cl hwf

theorem setReg (h : Halts s t) {off : Nat} {v : Word} (hf : s.stopped = true → Keyed s → ∀ n k, off ≠ Reg.CL_STATUS n k) : Halts s (t.setReg off v) := by
  refine ⟨h.tile, h.dqs, h.stop, h.keys, fun hs hk cl hwf => ?_⟩
  have hrun : (t.setReg off v).run cl = t.run cl := State.setReg_rd_ne _ _ _ (Ne.symm (hf hs hk _ _))
  rw [hrun]
  exact h.run hs hk cl hwf

/-- A cluster that is not in FAULT is HALTED. -/
theorem setRun (h : Halts s t) {cl : ClusterId} (hne : t.run cl ≠ 6) : Halts s (t.setRun cl 5) := by
  refine h.trans ⟨fun _ => rfl, fun _ _ hy => hy, fun _ => rfl, id, fun _ _ cl' _ => ?_⟩
  by_cases hoff : Reg.CL_STATUS cl'.die cl'.idx = Reg.CL_STATUS cl.die cl.idx
  · have hsame (u : State) : u.run cl' = u.run cl := by
      simp only [State.run, State.rd, F.CL_STATUS_RUN, hoff]
    rw [hsame, hsame, State.setRun_run _ _ (by decide)]
    exact .inr ⟨rfl, hne⟩
  · exact .inl (State.setRun_rd_ne _ _ _ _ hoff)

theorem evKept_run (cl : ClusterId) : EvKept (F.CL_STATUS_RUN cl.die cl.idx) :=
  ⟨by simp only [F.CL_STATUS_RUN]; omega, .inr ⟨by simp only [F.CL_STATUS_RUN, Reg.CL_STATUS]; omega, by simp only [F.CL_STATUS_RUN]; omega⟩⟩

theorem emit (h : Halts s t) {e : Ev} : Halts s (t.emit e) := by
  have hr : Records t (t.emit e) := Records.refl.emit
  have hctxs : (t.emit e).ctxs = t.ctxs := by
    have := congrArg State.ctxs hr.same
    exact this
  have hengs : (t.emit e).engs = t.engs := by
    have := congrArg State.engs hr.same
    exact this
  refine h.trans ⟨fun cl => by rw [State.emit_cluster], fun cl y hy => by rwa [State.emit_cluster] at hy, fun hs => emit_stop hs e,
    fun hk => by unfold Keyed; rw [hctxs, hengs]; exact hk, fun _ _ cl _ => .inl (hr.rd _ (evKept_run cl))⟩

theorem irq (h : Halts s t) {a b c : Nat} : Halts s (t.irq a b c) := by
  have hr : Records t (t.irq a b c) := Records.refl.irq
  obtain ⟨rs, im, o, he, -⟩ := irq_shows (s := t) a b c
  have hrun (cl : ClusterId) : (t.irq a b c).run cl = t.run cl := hr.rd _ (evKept_run cl)
  rw [he] at hrun ⊢
  exact h.trans ⟨fun _ => rfl, fun _ _ hy => hy, fun _ => rfl, id, fun _ _ cl _ => .inl (hrun cl)⟩

theorem queueIrq (h : Halts s t) {q : Nat} : Halts s (t.queueIrq q) := .ite h.irq h

theorem notRun_sqStat {q : Nat} {f : Fld} (hf : f.off = Reg.SQ_STAT q) (hhi : f.hi < 64) : NotRun f :=
  .of_ne hhi fun n k => by rw [hf]; simp only [Reg.SQ_STAT, Reg.CL_STATUS]; omega

theorem setQueue (h : Halts s t) {q : Nat} {v : QueueSt} : Halts s (t.setQueue q v) := by
  have h1 : Halts s ({ t with queues := sset (fun _ => QueueSt.init) t.queues q v } : State) := .upd h rfl rfl rfl fun hk => hk
  refine .wr (.wr h1 ?_) ?_
  · exact fun _ _ => notRun_sqStat (q := q) rfl (by simp [F.SQ_STAT_STATE])
  · exact fun _ _ => notRun_sqStat (q := q) rfl (by simp [F.SQ_STAT_INFLIGHT])

theorem endCmd (h : Halts s t) {q entry status detail : Nat} : Halts s (t.endCmd q entry status detail) := by
  unfold State.endCmd
  dsimp only
  split
  · exact h
  · exact h
  · have h1 : Halts s ({ t with walks := t.walks.filter (fun w => !(w.q == q && w.entry == entry)) } : State) := .upd h rfl rfl rfl fun hk => hk
    exact h1.setQueue

theorem freeEng (h : Halts s t) {e : Nat} (he : s.stopped = true → Keyed s → e < 40) : Halts s (t.freeEng e) := by
  have hcpe {f : Fld} (hf : f.off = Reg.CPE_ENG e) (hhi : f.hi < 64) (hlt : e < 24) : NotRun f :=
    .of_ne hhi fun n k => by rw [hf]; simp only [Reg.CPE_ENG, Reg.CL_STATUS]; omega
  have h1 : Halts s ({ t with engs := t.engs.filter (fun p => p.1 ≠ e) } : State) :=
    h.upd rfl rfl rfl fun hk => ⟨hk.1, fun p hp => hk.2 p (List.mem_filter.1 hp).1⟩
  unfold State.freeEng
  dsimp only
  split
  · next hlt =>
    refine .wr (.wr (.wr h1 ?_) ?_) ?_
    · exact fun _ _ => hcpe rfl (by simp [F.CPE_ENG_STATE]) hlt
    · exact fun _ _ => hcpe rfl (by simp [F.CPE_ENG_QUEUE]) hlt
    · exact fun _ _ => hcpe rfl (by simp [F.CPE_ENG_ENTRY]) hlt
  · refine .wr h1 fun hs hk => .of_ne (by simp [F.PRM_ENG_STAT_STATE]) fun n k => ?_
    have := he hs hk
    simp only [F.PRM_ENG_STAT_STATE, Reg.PRM_ENG_STAT, Reg.CL_STATUS]
    omega

/-- No engine's command ends once the domain has stopped. -/
theorem finish (h : Halts s t) {e : Nat} {x : EngSt} {status detail : Nat} : Halts s (t.finish e x status detail) := by
  cases hs : s.stopped with
  | true => rw [show t.finish e x status detail = t from if_pos (h.stopped hs)]; exact h
  | false =>
    have hvac {p : Prop} (ht : s.stopped = true) : p := by rw [hs] at ht; cases ht
    have h0 : Halts s ({ t with engHeld := t.engHeld.filter (fun p => p.1 ≠ e) } : State) := .upd h rfl rfl rfl fun hk => hk
    unfold State.finish
    dsimp only
    refine .ite h (.freeEng (.endCmd ?_) fun ht => hvac ht)
    split
    · exact .wr h0 fun ht => hvac ht
    · exact h0

theorem endWaiting (h : Halts s t) {j new : Nat} : Halts s (t.endWaiting j new) := .foldl (fun _ _ h' => .ite h'.finish h') h

theorem haltQueue (h : Halts s t) {q reason : Nat} : Halts s (t.haltQueue q reason) := by
  have h1 : Halts s (t.wr (F.SQ_STAT_REASON q) reason) := .wr h fun _ _ => notRun_sqStat (q := q) rfl (by simp [F.SQ_STAT_REASON])
  exact .queueIrq (.emit (.setQueue h1))

theorem keyed_sset {ctxs : Sparse (Option CtxSt)} (h : ∀ p ∈ ctxs, p.1 < 1024) {x : Nat} : ∀ p ∈ sset (fun _ => none) ctxs x none, p.1 < 1024 := by
  unfold sset
  rw [if_pos rfl]
  exact fun p hp => h p (List.mem_filter.1 hp).1

theorem closeCtx (h : Halts s t) {x : Nat} (hx : s.stopped = true → Keyed s → x < 1024) : Halts s (t.closeCtx x) := by
  have h1 : Halts s ({ t with ctxs := sset (fun _ => none) t.ctxs x none } : State) := .upd h rfl rfl rfl fun hk => ⟨keyed_sset hk.1, hk.2⟩
  refine .wr (.setReg h1 fun hs hk n k => ?_) fun hs hk => .of_ne (by simp [F.PRM_ENG_STAT_OPEN]) fun n k => ?_
  · have := hx hs hk
    simp only [Reg.PRM_CTX, Reg.CL_STATUS]
    omega
  · have := hx hs hk
    simp only [F.PRM_ENG_STAT_OPEN, Reg.PRM_ENG_STAT, Reg.CL_STATUS]
    omega

theorem closePrism (h : Halts s t) {tctx eng : Nat → Bool} : Halts s (t.closePrism tctx eng) := by
  unfold State.closePrism
  extract_lets s1 s2
  have h1 : Halts s s1 := by
    refine foldl_mem (fun u p hp hu => ?_) h
    split
    · exact ite (closeCtx hu fun hs hk => (h.keys hk).1 p hp) hu
    · exact hu
  have h2 : Halts s s2 := upd h1 rfl rfl rfl fun hk => hk
  clear_value s2
  refine foldl (fun v q hv => ite ?_ hv) h2
  extract_lets w v1
  have h3 : Halts s v1 :=
    foldl_mem (fun w p hp hw => freeEng hw fun hs hk => ((hv.keys hk).2 p (List.mem_filter.1 hp).1).1) hv
  clear_value v1
  have h4 (ws : List WalkSt) : Halts s ({ v1 with walks := ws } : State) := upd h3 rfl rfl rfl fun hk => hk
  exact setQueue (h4 _)

theorem stopEngines (h : Halts s t) {j : Nat} : Halts s (t.stopEngines j) := by
  unfold State.stopEngines
  extract_lets s1
  have h1 : Halts s s1 := foldl (fun _ _ h' => ite h' h'.haltQueue) h
  clear_value s1
  exact h1.closePrism

/-- A cluster's own work is abandoned. -/
theorem abandonCl (h : Halts s t) {cl : ClusterId} : Halts s (t.abandonCl cl) := by
  have hbase (cl' : ClusterId) : (((t.dropRefs cl).dropSlots cl).dropHolder cl).cluster cl' = t.cluster cl' := by
    rw [(State.abandoning_frame t cl).cluster]
  have hcl (cl' : ClusterId) : (t.abandonCl cl).cluster cl' = if clKey cl' = clKey cl then (t.cluster cl).abandoned else t.cluster cl' := by
    rw [State.abandonCl_eq]
    refine (State.setCluster_cluster _ cl cl' _).trans ?_
    rw [hbase]
  have hkey {cl' : ClusterId} (hk : clKey cl' = clKey cl) : t.cluster cl' = t.cluster cl := by rw [State.cluster, hk, ← State.cluster]
  refine h.trans ⟨fun cl' => ?_, fun cl' y hy => ?_, fun _ => ?_, fun hk => ?_, fun _ _ cl' hwf => .inl ?_⟩
  · rw [hcl]
    split
    · next hk => rw [hkey hk]; rfl
    · rfl
  · rw [hcl] at hy
    split at hy
    · exact absurd hy List.not_mem_nil
    · exact hy
  · have := congrArg State.stop (State.abandoning_frame t cl)
    exact this
  · have hc := congrArg State.ctxs (State.abandoning_frame t cl)
    have he := congrArg State.engs (State.abandoning_frame t cl)
    have hc' : (t.abandonCl cl).ctxs = t.ctxs := hc
    have he' : (t.abandonCl cl).engs = t.engs := he
    unfold Keyed
    rw [hc', he']
    exact hk
  · refine State.abandonCl_rd _ cl _ (.of_clRegs hwf ⟨0, by decide, rfl⟩) ?_ ?_ ?_ fun _ => .inr ?_
    all_goals simp only [F.CL_STATUS_RUN, Reg.CL_STATUS, Reg.CL_SLOTS, Reg.CL_WGQ, Reg.CL_VSTATUS]; omega

theorem haltClusters (h : Halts s t) {j : Nat} : Halts s (t.haltClusters j) := by
  refine .foldl (fun u cl hu => ?_) h
  split
  · exact hu
  · next hrun =>
    have hne : u.run cl ≠ 6 := fun h6 => hrun (by simp [h6])
    exact (hu.setRun hne).abandonCl

theorem rotDecline (h : Halts s t) {p : Nat} {r : RotSt} {reason : Nat} : Halts s (t.rotDecline p r reason) := by
  have hrole {v : Nat} : Halts s (t.wr (F.CL_STATUS_ROLE (p / 4) r.out) v) :=
    .wr h fun _ _ => ⟨by simp [F.CL_STATUS_ROLE], fun _ _ => .inr (.inl (by simp [F.CL_STATUS_ROLE]))⟩
  unfold State.rotDecline
  extract_lets s1
  have h1 : Halts s s1 := ite hrole h
  clear_value s1
  have h2 : Halts s (s1.setRot p none) := upd h1 rfl rfl rfl fun hk => hk
  unfold State.rotRecord
  exact h2.emit

theorem dropRots (h : Halts s t) {j : Nat} : Halts s (t.dropRots j) := by
  refine .foldl (fun u p hu => ?_) h
  split
  · refine .ite hu (.rotDecline ?_)
    exact upd hu rfl rfl rfl fun hk => hk
  · exact hu

theorem setSlot (h : Halts s t) {j : Nat} {v : SlotSt} : Halts s (t.setSlot j v) := upd h rfl rfl rfl fun hk => hk

theorem dropLoad (h : Halts s t) {j : Nat} : Halts s (t.dropLoad j) := by
  unfold State.dropLoad
  split
  · exact h
  · split
    · exact h.setSlot.endCmd
    · exact h.setSlot

theorem setSlotState (h : Halts s t) {j new : Nat} (hj : j < 16) : Halts s (t.setSlotState j new) := by
  have h1 : Halts s (t.wr (F.STR_SLOT_STATE j) new) :=
    .wr h fun _ _ => .of_ne (by simp [F.STR_SLOT_STATE]) fun n k => by simp only [F.STR_SLOT_STATE, Reg.STR_SLOT, Reg.CL_STATUS]; omega
  exact .ite h (.emit (.ite h1.endWaiting h1))

theorem stopJob (h : Halts s t) {j : Nat} {owes : Bool} (hj : j < 16) : Halts s (t.stopJob j owes) :=
  .ite h (.stopEngines (.dropLoad (.setSlot (.dropRots (.setSlotState h.haltClusters hj)))))

theorem failJob (h : Halts s t) {j : Nat} {e : Ev} (hj : j < 16) : Halts s (t.failJob j e) := .stopJob h.emit hj

end Halts

/-! A DQ as it is issued (R204, R205, R213). -/

section
variable {s : State} {cl : ClusterId} {j : Nat}

/-- A DQ that completes: the lines that it needs are walked already. -/
theorem dqWalk_framed (x : DmaDesc) (d : DqEnt) (hx : s.descOf j d.desc = some x) (va : Nat) (ks : List Nat)
    (h : ∀ k ∈ ks, ∃ fr, (dqFrames x d.e)[k]? = some (some fr)) : s.dqWalk j d va ks = (s, none) := by
  induction ks with
  | nil => rfl
  | cons k ks ih =>
    obtain ⟨fr, hfr⟩ := h k (.head _)
    have hk : (s.descOf j d.desc).bind (fun x => (dqFrames x d.e)[k]?.getD none) = some fr := by
      simp only [hx, Option.bind_some, hfr, Option.getD_some]
    rw [State.dqWalk, hk]
    exact ih fun i hi => h i (.tail _ hi)

/-! What a touch of the tracker leaves alone (R503, R504). -/

theorem RelayKept.notify {s t : State} {x : TrkEnt} (h : RelayKept j s t) : RelayKept j s (t.notify x) :=
  .ite (.noteOnce h.wr) ((h.records (Records.refl.write.write)).upd rfl rfl rfl)

theorem RelayKept.touch {s t : State} {a n : Nat} (h : RelayKept j s t) : RelayKept j s (t.touch a n) := by
  unfold State.touch
  extract_lets f
  split
  · exact h
  · exact .ite (.notify (h.upd rfl rfl rfl)) (h.upd rfl rfl rfl)

theorem dqTouch_clusters (n : Nat) (x : DmaDesc) (d : DqEnt) : (s.dqTouch n j x d).clusters = s.clusters := by
  refine RelayKept.clusters (j := j) (RelayKept.foldl (fun t o h => ?_) .refl)
  split
  · exact h.touch
  · exact h

theorem dqStore_clusters (x : DmaDesc) (d : DqEnt) : (s.dqStore cl j x d).clusters = s.clusters := by
  refine RelayKept.clusters (j := j) (RelayKept.foldl (fun t o h => ?_) .refl)
  split
  · exact h.records Records.refl.setBytes
  · exact h

/-- An exception leaves the tile store as it is, and no DQ that was not outstanding. -/
theorem raise_cluster (word cause addr : Nat) :
    ((s.raise cl word cause addr).cluster cl).tile = (s.cluster cl).tile ∧ ((s.raise cl word cause addr).cluster cl).dqs = [] := by
  have hraise : s.raise cl word cause addr = (match (s.excFault cl word cause addr).slotOfCl cl with
    | some j => (s.excFault cl word cause addr).failJob j ((s.excFault cl word cause addr).excEvent cl (s.pc cl) word cause addr)
    | none => (s.excFault cl word cause addr).emit ((s.excFault cl word cause addr).excEvent cl (s.pc cl) word cause addr)) := rfl
  have hfault : (s.excFault cl word cause addr).cluster cl = (s.cluster cl).abandoned := State.abandonCl_cluster _ cl
  have hends {t : State} (h : Halts (s.excFault cl word cause addr) t) : (t.cluster cl).tile = (s.cluster cl).tile ∧ (t.cluster cl).dqs = [] := by
    have ht := h.tile cl
    have hd := h.dqs cl
    rw [hfault] at ht hd
    exact ⟨ht, List.eq_nil_iff_forall_not_mem.2 fun y hy => absurd (hd y hy) List.not_mem_nil⟩
  rw [hraise]
  split
  · next j hj => exact hends (Halts.refl.failJob (State.slotOfCl_lt _ hj))
  · exact hends Halts.refl.emit

/-- The instruction that ends leaves the tile store as it is; its DQs stay outstanding, or, where the next one raises FETCH, none is. -/
theorem retire_cluster (target : Nat) : ((s.retire cl target).cluster cl).tile = (s.cluster cl).tile
    ∧ ∀ y ∈ ((s.retire cl target).cluster cl).dqs, y ∈ (s.cluster cl).dqs := by
  have hbase : (s.endQueueWait cl).cluster cl = s.cluster cl := by
    unfold State.endQueueWait
    split <;> rfl
  unfold State.retire
  extract_lets s1 s2 c s3
  have hc : c = s.cluster cl := hbase
  clear_value c
  have hcl : s3.cluster cl = { c with icount := c.icount + 1 } := State.setCluster_cluster_self s2 cl _
  clear_value s3
  subst hc
  split
  · rw [hcl]
    exact ⟨rfl, fun y hy => hy⟩
  · have hfetch : ∃ w, s3.raiseFetch cl target = s3.tick.raise cl w excFetch target := ⟨_, rfl⟩
    obtain ⟨w, hw⟩ := hfetch
    have hr := raise_cluster (s := s3.tick) (cl := cl) w excFetch target
    rw [← hw] at hr
    obtain ⟨x, hx⟩ : ∃ x, s3.raiseFetch cl target = x := ⟨_, rfl⟩
    rw [hx] at hr ⊢
    obtain ⟨htile, hdqs⟩ := hr
    have htick : (s3.tick.cluster cl).tile = (s3.cluster cl).tile := by rw [State.tick_cluster]
    have hkept : (s3.cluster cl).tile = (s.cluster cl).tile := by rw [hcl]
    refine ⟨htile.trans (htick.trans hkept), fun y hy => ?_⟩
    rw [hdqs] at hy
    exact absurd hy List.not_mem_nil

/-- A wait that ends, if one does, leaves the tile store and the outstanding DQs. -/
theorem wakeDwait_cluster : ((s.wakeDwait cl).cluster cl).tile = (s.cluster cl).tile
    ∧ ∀ y ∈ ((s.wakeDwait cl).cluster cl).dqs, y ∈ (s.cluster cl).dqs := by
  unfold State.wakeDwait
  split
  · split
    · obtain ⟨htile, hdqs⟩ := retire_cluster (s := ((s.setCluster cl { s.cluster cl with wait := .none }).showWait cl 0 0 0).setRun cl 1) (cl := cl) (s.pc cl + 4)
      have hcl : (((s.setCluster cl { s.cluster cl with wait := .none }).showWait cl 0 0 0).setRun cl 1).cluster cl = { s.cluster cl with wait := .none } :=
        State.setCluster_cluster_self _ cl _
      rw [hcl] at htile hdqs
      exact ⟨htile, hdqs⟩
    · exact ⟨rfl, fun y hy => hy⟩
  · exact ⟨rfl, fun y hy => hy⟩

/-- The end of a DQ takes its entries away and leaves the tile store alone. -/
theorem endDq_cluster (d : DqEnt) : (∀ y ∈ ((s.endDq cl j d).cluster cl).dqs, y.seq ≠ d.seq) ∧ ((s.endDq cl j d).cluster cl).tile = (s.cluster cl).tile := by
  obtain ⟨v, hv⟩ : ∃ v, (s.dropRef j d).setCluster cl { s.cluster cl with dqs := (s.cluster cl).dqs.filter (fun x => x.seq ≠ d.seq) } = v := ⟨_, rfl⟩
  have hcl : v.cluster cl = { s.cluster cl with dqs := (s.cluster cl).dqs.filter (fun x => x.seq ≠ d.seq) } := hv ▸ State.setCluster_cluster_self _ cl _
  have hend : s.endDq cl j d = v.wakeDwait cl := hv ▸ rfl
  obtain ⟨htile, hdqs⟩ := wakeDwait_cluster (s := v) (cl := cl)
  rw [hcl] at htile hdqs
  rw [hend]
  refine ⟨fun y hy => ?_, htile⟩
  have := (List.mem_filter.1 (hdqs y hy)).2
  simpa using this

end

/-! DMA: a DQ as it is issued, and as it completes (R204 to R206, R213, R214). -/

section
variable {s : State} {cl : ClusterId} {j : Nat}

theorem access_served {rs ws : List Nat} {k : State → Res} (hrun : s.stopped = false) (h : HomeServes s (rs ++ ws)) :
    s.access rs ws k = k (s.accessNow rs ws) := by
  unfold State.access
  dsimp only
  rw [if_neg (by rw [h.notBusy]; decide), if_neg (by rw [(Accessed.accessNow h).stopped, hrun]; decide)]

/-- A DQ of a plain region that completes: its lines are accessed, then its bytes are moved, then it ends. -/
theorem dqComplete_moves {d : DqEnt} {x : DmaDesc} (hj : s.slotOfCl cl = some j) (hfind : (s.cluster cl).dqs.find? (fun y => y.seq == d.seq) = some d)
    (hx : s.descOf j d.desc = some x) (hrun : s.stopped = false) (hwait : d.waitsEpoch = false) (hheld : d.held = none) (hmc : d.mc = 0)
    (hstash : x.stash = none) (hframes : ∀ k ∈ dqPages x d, ∃ fr, (dqFrames x d.e)[k]? = some (some fr)) (hs : HomeServes s (s.dqLines cl.die j x d)) :
    exec (.dqComplete cl d.seq) s = .next ((if d.write then
        ((s.accessNow [] (s.dqLines cl.die j x d)).dqTouch cl.die j x d).dqStore cl j x d
      else ((s.accessNow (s.dqLines cl.die j x d) []).dqTouch cl.die j x d).deliver cl d.ts
        (((s.accessNow (s.dqLines cl.die j x d) []).dqTouch cl.die j x d).dqBytes cl.die j x d)).endDq cl j d) := by
  have hgroup : s.dqGroup cl j d = some [(cl, d)] := if_pos hmc
  have hwalk := dqWalk_framed x d hx (dqVa x d.e) (dqPages x d) hframes
  change execDqComplete cl d.seq s = _
  unfold execDqComplete
  simp only [hfind, hj, hx, hrun, hwait, hheld, State.heldOff, hgroup, hstash, hwalk, Option.isSome_none, Bool.or_false, Bool.false_eq_true, if_false,
    List.foldl_cons, List.foldl_nil]
  cases hw : d.write with
  | true =>
    simp only [if_true]
    exact access_served (rs := []) hrun hs
  | false =>
    simp only [Bool.false_eq_true, if_false]
    exact access_served (ws := []) hrun (by rwa [List.append_nil])

theorem accessNow_clusters {rs ws : List Nat} (h : HomeServes s (rs ++ ws)) : (s.accessNow rs ws).clusters = s.clusters := by
  obtain ⟨regs, ds, es, he⟩ := Accessed.accessNow h
  rw [he]

theorem cluster_congr {t : State} (h : t.clusters = s.clusters) (cl : ClusterId) : t.cluster cl = s.cluster cl :=
  congrArg (fun l => sget (fun _ => ClusterSt.init) l (clKey cl)) h

end

/-- Settles O24: a DQ enters the cluster's contents alone, and its end leaves the tile store as its move left it. -/
theorem dmaMoves : Obligations.DmaMoves := by
  intro s cl j hj c
  refine ⟨?_, ?_⟩
  · intro f x hf r1 r2 r3 wr two len rows stride d hx hfl he hmc h3 h1 h2 hep hstash hdir hfit hstride hts hlen hlen0 hoff htile hroom
    have hexec : exec (.dq cl f) s = execDq cl f s := rfl
    unfold execDq at hexec
    refine exec_steps hexec rfl hf ?_ (ClusterSt.setS_code _ _ _)
    · have hbars : execDq.epochBars s cl j x d = false := by simp [execDq.epochBars, hep]
      extract_lets fl q1 q2 q3 two' mc j' d' last
      have he' : bit fl 1 = false := he
      have hmc' : mc = 0 := hmc
      have hj' : j' = j := by simp only [j', hj, Option.getD_some]
      have hd : d' = d := by
        simp only [d', he', hmc']
        rfl
      have hlast : last ≤ x.length := by
        simp only [last, hd]
        exact hfit
      have hfirst : (decide (8 ≤ fl) || decide (bits q1 47 21 ≠ 0) || decide (bits q2 41 21 ≠ 0) || decide (bits q3 31 21 ≠ 0)) = false := by
        simp only [Bool.or_eq_false_iff, decide_eq_false_iff_not, not_not]
        exact ⟨⟨⟨Nat.not_le.2 hfl, h1⟩, h2⟩, h3⟩
      have hplain : (if d.write then !bit x.flags 1 else !bit x.flags 0) = false := by
        change (if wr then !bit x.flags 1 else !bit x.flags 0) = false
        cases hwr : wr <;> rw [hwr] at hdir <;> simpa using hdir
      clear_value d' last mc j'
      have hx' : s.descOf j d.desc = some x := hx
      have hts' : ¬ d.ts % 64 ≠ 0 := not_not.2 hts
      have hlen' : (decide (d.len % 64 ≠ 0) || decide (d.len = 0)) = false := by
        simp only [Bool.or_eq_false_iff, decide_eq_false_iff_not, not_not]
        exact ⟨hlen, hlen0⟩
      have hoff' : ¬ d.off % 64 ≠ 0 := not_not.2 hoff
      have hstride' : ¬ d.stride % 64 ≠ 0 := not_not.2 hstride
      have htile' : ¬ tileSize < d.ts + d.rows * d.len := Nat.not_lt.2 htile
      have hroom' : ¬ 16 ≤ (s.cluster cl).dqs.length := Nat.not_le.2 hroom
      have hchecks : (decide (x.length < last) || (if d.write then !bit x.flags 1 else !bit x.flags 0) || d.e && !x.epoched || decide ((0 : Nat) = 3)
          || decide ((0 : Nat) ≠ 0) && d.write || false) = false := by
        rw [hplain, decide_eq_false (Nat.not_lt.2 hlast)]
        rfl
      simp only [hfirst, hd, hj', hmc', hx', hstash, hchecks, hbars, Bool.false_eq_true, if_false, if_true, if_neg hts', hlen', if_neg hoff', if_neg hstride',
        if_neg htile', if_neg hroom']
      simp only [State.startDq, hep, hstash, Bool.false_eq_true, if_false]
      rfl
  · intro d x hfind hx hrun hwait hheld hmc hstash hframes ls hs
    refine ⟨_, dqComplete_moves hj hfind hx hrun hwait hheld hmc hstash hframes hs, (endDq_cluster d).1, fun hw => ?_, fun hw => ?_⟩
    · rw [(endDq_cluster d).2, hw, if_neg (by decide)]
      obtain ⟨t, ht⟩ : ∃ t, (s.accessNow ls []).dqTouch cl.die j x d = t := ⟨_, rfl⟩
      have hcl : t.cluster cl = c := by
        have h1 := dqTouch_clusters (s := s.accessNow ls []) (j := j) cl.die x d
        rw [ht] at h1
        exact cluster_congr (h1.trans (accessNow_clusters (by rwa [List.append_nil]))) cl
      rw [ht, State.deliver, State.setCluster_cluster_self, hcl]
    · rw [(endDq_cluster d).2, hw, if_pos rfl]
      exact congrArg ClusterSt.tile (cluster_congr (((dqStore_clusters x d).trans (dqTouch_clusters cl.die x d)).trans (accessNow_clusters hs)) cl)

end Sys2Proof.Machine
end

section

/-! PROOFS. The coherence domain stops (O51). -/
namespace Sys2Proof.Machine
open Sys2Proof

/-! What stops the coherence domain (R443, R466, R468, R469, R748). -/

section
variable {s : State}

theorem assertStop_shows : ∃ rs o, s.assertStop = { s with regs := rs, out := o } ∧ sget resetWord rs Reg.STR_PINS = s.assertStop.reg Reg.STR_PINS
    ∧ s.assertStop.rd F.STR_PINS_STOP = 1 ∧ ∀ off ≠ Reg.STR_PINS, sget resetWord rs off = s.reg off := by
  unfold State.assertStop State.pin
  split
  · next h => exact ⟨s.regs, _, rfl, rfl, beq_iff_eq.1 h, fun _ _ => rfl⟩
  · exact ⟨_, _, rfl, rfl, State.rd_wrB_self _ _ _ (by decide) (by decide), fun off hoff => State.wr_reg_ne _ _ _ hoff⟩

/-- What a stop leaves: its cause, with STOP_N asserted; of registers the pins' alone may differ. -/
theorem stopDetect_stops (hrun : s.stopped = false) (cause detail agent line : Nat) :
    (s.stopDetect cause detail agent line).stop = some ⟨cause, detail, agent, line, s.now, false, false⟩
      ∧ (s.stopDetect cause detail agent line).mem = s.mem ∧ (s.stopDetect cause detail agent line).rd F.STR_PINS_STOP = 1
      ∧ ∀ off ≠ Reg.STR_PINS, (s.stopDetect cause detail agent line).reg off = s.reg off := by
  obtain ⟨rs, o, he, -, hpin, hreg⟩ := assertStop_shows (s := { s with stop := some ⟨cause, detail, agent, line, s.now, false, false⟩ })
  have hd : s.stopDetect cause detail agent line = ({ s with stop := some ⟨cause, detail, agent, line, s.now, false, false⟩ } : State).assertStop :=
    if_neg (by rw [hrun]; decide)
  rw [hd]
  refine ⟨by rw [he], by rw [he], hpin, fun off hoff => ?_⟩
  rw [he]
  exact hreg off hoff

theorem receive_unknown {m : CrMsg} {op : Nat} {k : Res} (hrun : s.stopped = false) (h : opClass m.op = none) :
    s.receive m op k = .next (s.stopDetect 3 1 m.src m.addr) := by
  unfold State.receive
  rw [if_neg (by rw [hrun]; decide), h]

theorem receive_misplaced {m : CrMsg} {op c : Nat} {k : Res} (hrun : s.stopped = false) (h : opClass m.op = some c) (hc : c ≠ m.cls) :
    s.receive m op k = .next (s.stopDetect 3 2 m.src m.addr) := by
  unfold State.receive
  rw [if_neg (by rw [hrun]; decide), h]
  exact if_pos hc

/-- The state in which a failed die link stops the domain. -/
def linkFailed (s : State) (l : Nat) : State := (s.wr (F.CRM_LINK_STATE l) 2).showRetrain

theorem linkFailed_now (l : Nat) : (linkFailed s l).now = s.now := by
  have hlink : F.LAP_COUNT_COUNT.off ≠ (F.CRM_LINK_STATE l).off := by
    simp only [F.LAP_COUNT_COUNT, F.CRM_LINK_STATE, Reg.LAP_COUNT, Reg.CRM_LINK]
    omega
  exact (State.rd_wr_ne _ _ _ _ (by decide)).trans (State.rd_wr_ne _ _ _ _ hlink)

theorem linkFailed_state (l : Nat) : (linkFailed s l).rd (F.CRM_LINK_STATE l) = 2 := by
  have hne : (F.CRM_LINK_STATE l).off ≠ F.CRM_STATUS_RETRAINING.off := by
    simp only [F.CRM_LINK_STATE, F.CRM_STATUS_RETRAINING, Reg.CRM_LINK, Reg.CRM_STATUS]
    omega
  refine (State.rd_wr_ne _ _ _ _ hne).trans ((State.rd_wr_self _ _ _ (by simp [F.CRM_LINK_STATE])).trans ?_)
  simp [F.CRM_LINK_STATE]

end

/-! The stop as it is completed (R472, R473). -/

section
variable {s t : State}

/-- What waited to be written of the ring is written to memory itself. -/
theorem ringFlush_mem : ∃ mm q, s.ringFlush = { s with mem := mm, memQ := q } := by
  have hfold (l : List MemWrite) : ∀ t : State, ∃ mm, l.foldl (fun (s : State) w => s.rawBytes w.addr w.data) t = { t with mem := mm } := by
    induction l with
    | nil => exact fun t => ⟨t.mem, rfl⟩
    | cons w l ih =>
      intro t
      obtain ⟨mm, hmm⟩ := rawBytes_mem (s := t) w.addr w.data
      obtain ⟨mm', hmm'⟩ := ih (t.rawBytes w.addr w.data)
      rw [List.foldl_cons, hmm', hmm]
      exact ⟨mm', rfl⟩
  unfold State.ringFlush
  extract_lets base
  obtain ⟨mm, hmm⟩ := hfold (s.memQ.partition (fun w => decide (base ≤ w.addr) && decide (w.addr < base + 32 * s.ringSize))).1
    { s with memQ := (s.memQ.partition (fun w => decide (base ≤ w.addr) && decide (w.addr < base + 32 * s.ringSize))).2 }
  exact ⟨mm, _, hmm⟩

/-- The registers of a stop. -/
def stopShown (s : State) (x : StopSt) : State :=
  (((((((s.wr F.CRM_STATUS_DOMAIN 1).wr F.CRM_STOP_VALID 1).wr F.CRM_STOP_CAUSE x.cause).wr F.CRM_STOP_DETAIL x.detail).wr F.CRM_STOP_AGENT x.agent).wr
    F.CRM_STOP_LAP_LAP x.lap).wr F.CRM_STOP_ADDR_LINE x.line)

theorem stopShown_rd (x : StopSt) : (stopShown s x).rd F.CRM_STATUS_DOMAIN = 1 ∧ (stopShown s x).rd F.CRM_STOP_VALID = 1
    ∧ (stopShown s x).rd F.CRM_STOP_CAUSE = x.cause % 16 ∧ (stopShown s x).rd F.CRM_STOP_DETAIL = x.detail % 256
    ∧ (stopShown s x).rd F.CRM_STOP_LAP_LAP = x.lap % 2 ^ 64 ∧ (stopShown s x).rd F.CRM_STOP_ADDR_LINE = x.line % 2 ^ 40 := by
  have hself {u : State} {f : Fld} {v w : Nat} (hhi : f.hi < 64) (hw : v % 2 ^ (f.hi + 1 - f.lo) = w) : (u.wr f v).rd f = w := (State.rd_wr_self _ _ _ hhi).trans hw
  unfold stopShown
  refine ⟨?_, ?_, ?_, ?_, ?_, ?_⟩
  · refine rd_wr_skip (rd_wr_skip (rd_wr_skip (rd_wr_skip (rd_wr_skip (rd_wr_skip (hself ?_ rfl) ?_ ?_) ?_ ?_) ?_ ?_) ?_ ?_) ?_ ?_) ?_ ?_ <;> decide
  · refine rd_wr_skip (rd_wr_skip (rd_wr_skip (rd_wr_skip (rd_wr_skip (hself ?_ rfl) ?_ ?_) ?_ ?_) ?_ ?_) ?_ ?_) ?_ ?_ <;> decide
  · refine rd_wr_skip (rd_wr_skip (rd_wr_skip (rd_wr_skip (hself ?_ rfl) ?_ ?_) ?_ ?_) ?_ ?_) ?_ ?_ <;> decide
  · refine rd_wr_skip (rd_wr_skip (rd_wr_skip (hself ?_ rfl) ?_ ?_) ?_ ?_) ?_ ?_ <;> decide
  · refine rd_wr_skip (hself ?_ rfl) ?_ ?_ <;> decide
  · exact hself (by decide) rfl

/-- They lie below the agents' registers, and are none of a slot's. -/
theorem stopFields_low : ∀ f ∈ [F.CRM_STATUS_DOMAIN, F.CRM_STOP_VALID, F.CRM_STOP_CAUSE, F.CRM_STOP_DETAIL, F.CRM_STOP_LAP_LAP, F.CRM_STOP_ADDR_LINE],
    LowFld f ∧ f.off ∉ (List.range 16).map Reg.STR_SLOT := by
  unfold LowFld
  decide

theorem stopShown_low (x : StopSt) {f : Fld} (hf : f.off ∉ [Reg.CRM_STATUS, Reg.CRM_STOP, Reg.CRM_STOP_LAP, Reg.CRM_STOP_ADDR]) : (stopShown s x).rd f = s.rd f := by
  simp only [List.mem_cons, List.not_mem_nil, or_false, not_or] at hf
  obtain ⟨h1, h2, h3, h4⟩ := hf
  unfold stopShown
  rw [State.rd_wr_ne _ _ _ _ h4, State.rd_wr_ne _ _ _ _ h3, State.rd_wr_ne _ _ _ _ h2, State.rd_wr_ne _ _ _ _ h2, State.rd_wr_ne _ _ _ _ h2,
    State.rd_wr_ne _ _ _ _ h2, State.rd_wr_ne _ _ _ _ h1]

theorem stopShown_keyed (x : StopSt) (hk : Keyed s) : Keyed (stopShown s x) := hk

theorem keyed_records (h : Records s t) (hk : Keyed s) : Keyed t := by
  have hc := congrArg State.ctxs h.same
  have he := congrArg State.engs h.same
  have hc' : t.ctxs = s.ctxs := hc
  have he' : t.engs = s.engs := he
  unfold Keyed
  rw [hc', he']
  exact hk

/-- One cluster that is still at work is HALTED, and its work abandoned. -/
def haltOne (s : State) (c : ClusterId) : State := if s.run c = 6 || s.run c = 5 then s else (s.setRun c 5).abandonCl c

theorem haltOne_halts (c : ClusterId) : Halts s (haltOne s c) := by
  unfold haltOne
  split
  · exact .refl
  · next hrun =>
    have hne : s.run c ≠ 6 := fun h6 => hrun (by simp [h6])
    exact (Halts.refl.setRun hne).abandonCl

theorem haltOne_run (hs : s.stopped = true) (hk : Keyed s) {c : ClusterId} (hwf : c.wf = true) : (haltOne s c).run c = 5 ∨ (haltOne s c).run c = 6 := by
  unfold haltOne
  split
  · next hrun => simpa [or_comm] using hrun
  · have h5 : (s.setRun c 5).run c = 5 := State.setRun_run _ _ (by decide)
    rcases (Halts.refl.abandonCl (s := s.setRun c 5) (cl := c)).run hs hk c hwf with h | ⟨h, -⟩
    · exact .inl (h.trans h5)
    · exact .inl h

theorem haltAll_halts (l : List ClusterId) : Halts s (l.foldl haltOne s) := Halts.foldl (fun _ c h => h.trans (haltOne_halts c)) .refl

/-- Once every cluster listed has been seen to, each is HALTED or in FAULT. -/
theorem haltAll_run (l : List ClusterId) (hs : s.stopped = true) (hk : Keyed s) {c : ClusterId} (hwf : c.wf = true) (hc : c ∈ l) :
    (l.foldl haltOne s).run c = 5 ∨ (l.foldl haltOne s).run c = 6 := by
  induction l generalizing s with
  | nil => exact absurd hc List.not_mem_nil
  | cons a l ih =>
    have ha := haltOne_halts (s := s) a
    rw [List.foldl_cons]
    rcases List.mem_cons.1 hc with rfl | hc
    · rcases (haltAll_halts l (s := haltOne s c)).run (ha.stopped hs) (ha.keys hk) c hwf with h | ⟨h, -⟩
      · rw [h]
        exact haltOne_run hs hk hwf
      · exact .inl h
    · exact ih (ha.stopped hs) (ha.keys hk) hc

theorem mem_allClusters {c : ClusterId} (hwf : c.wf = true) : c ∈ allClusters := by
  simp only [ClusterId.wf, Bool.and_eq_true, decide_eq_true_eq] at hwf
  exact List.mem_flatMap.2 ⟨c.die, List.mem_range.2 hwf.1, List.mem_map.2 ⟨c.idx, List.mem_range.2 hwf.2, rfl⟩⟩

/-- One slot is FAULTED. -/
def faultOne (s : State) (j : Nat) : State := if s.slotState j = 0 then (s.setSlotState j 4).stopEngines j else s.stopJob j true

theorem faultOne_halts {j : Nat} (hj : j < 16) : Halts s (faultOne s j) := .ite (.stopEngines (.setSlotState .refl hj)) (.stopJob .refl hj)

theorem faultOne_low (j : Nat) : LowKept [Reg.STR_SLOT j] s (faultOne s j) :=
  .ite (.stopEngines (.setSlotState .refl (.head _))) (.stopJob .refl (.head _))

theorem faultOne_slotState {j : Nat} (hj : j < 16) : (faultOne s j).slotState j = 4 := by
  unfold faultOne
  split
  · refine Eq.trans (LowKept.rd (offs := []) (s := s.setSlotState j 4) (.stopEngines .refl) _ (slotState_low hj) List.not_mem_nil) ?_
    exact setSlotState_slotState _ hj (by decide)
  · next h => exact stopJob_slotState _ hj h

theorem faultOne_keeps {i j : Nat} (hj : j < 16) (h : s.slotState j = 4) : (faultOne s i).slotState j = 4 := by
  by_cases hij : j = i
  · subst hij
    exact faultOne_slotState hj
  · exact ((faultOne_low i).rd _ (slotState_low hj) (slot_off_ne hij)).trans h

theorem faultAll_slotState (l : List Nat) {j : Nat} (hj : j < 16) (h : j ∈ l ∨ s.slotState j = 4) : (l.foldl faultOne s).slotState j = 4 := by
  induction l generalizing s with
  | nil => exact h.resolve_left List.not_mem_nil
  | cons i l ih =>
    refine ih ?_
    rcases h with h | h
    · rcases List.mem_cons.1 h with rfl | h
      · exact .inr (faultOne_slotState hj)
      · exact .inl h
    · exact .inr (faultOne_keeps hj h)

/-- The jobs that ran owe a vote. -/
def oweVotes (s : State) (l : List Nat) : State := l.foldl (fun (s : State) j => s.setSlot j { s.slot j with owesVote := true }) s

theorem oweVotes_only (l : List Nat) : ∃ sl, oweVotes s l = { s with slots := sl } := by
  unfold oweVotes
  induction l generalizing s with
  | nil => exact ⟨s.slots, rfl⟩
  | cons i l ih =>
    obtain ⟨sl, h⟩ := ih (s := s.setSlot i { s.slot i with owesVote := true })
    exact ⟨sl, h⟩

theorem oweVotes_owes (l : List Nat) {j : Nat} (h : j ∈ l ∨ (s.slot j).owesVote = true) : ((oweVotes s l).slot j).owesVote = true := by
  unfold oweVotes
  induction l generalizing s with
  | nil => exact h.resolve_left List.not_mem_nil
  | cons i l ih =>
    refine ih ?_
    rcases h with h | h
    · rcases List.mem_cons.1 h with rfl | h
      · exact .inr (by rw [State.setSlot_slot_self])
      · exact .inl h
    · refine .inr ?_
      by_cases hij : j = i
      · rw [hij, State.setSlot_slot_self]
      · rw [State.setSlot_slot, if_neg hij]
        exact h

/-- The state in which a stop's registers are written. -/
def stopBase (s : State) (x : StopSt) : State :=
  { (if s.ringCut x then s else s.ringFlush) with stop := some { x with latched := true, cut := s.ringCut x } }

theorem stopBase_only (x : StopSt) : ∃ mm q st, stopBase s x = { s with mem := mm, memQ := q, stop := st } := by
  unfold stopBase
  obtain ⟨mm, q, h⟩ := ringFlush_mem (s := s)
  split
  · exact ⟨_, _, _, rfl⟩
  · rw [h]
    exact ⟨_, _, _, rfl⟩

theorem stopBase_keyed (x : StopSt) (hk : Keyed s) : Keyed (stopBase s x) := by
  obtain ⟨mm, q, st, hbase⟩ := stopBase_only (s := s) x
  rw [hbase]
  exact hk

theorem stopBase_stop (x : StopSt) : (stopBase s x).stop = some { x with latched := true, cut := s.ringCut x } := rfl

/-- The state at which the units end: the registers of the stop shown, and its record written. -/
def stopRecorded (s : State) (x : StopSt) (e : Ev) : State := (stopShown (stopBase s x) x).emit e

/-- Every cluster and every slot has ended. -/
def allEnded (s : State) : State := (List.range 16).foldl faultOne (allClusters.foldl haltOne s)

theorem domainStop_ends {x : StopSt} (hx : s.stop = some x) (hl : x.latched = false) :
    ∃ e, exec .domainStop s = .next (oweVotes (allEnded (stopRecorded s x e)) ((List.range 16).filter (fun j => s.slotState j == 2))).tick := by
  change ∃ e, execDomainStop s = _
  unfold execDomainStop
  simp only [hx, hl, Bool.false_eq_true, if_false]
  exact ⟨_, rfl⟩

theorem stopRecorded_stop (x : StopSt) (e : Ev) : (stopRecorded s x e).stop = some { x with latched := true, cut := s.ringCut x } :=
  emit_stop (s := stopShown (stopBase s x) x) rfl e

theorem allEnded_halts : Halts s (allEnded s) :=
  .trans (haltAll_halts _) (.foldl_mem (fun _ _ hj h => h.trans (faultOne_halts (List.mem_range.1 hj))) .refl)

theorem allEnded_low : LowKept ((List.range 16).map Reg.STR_SLOT) s (allEnded s) := by
  have hwiden {offs : List Nat} {u v : State} {j : Nat} (hj : Reg.STR_SLOT j ∈ offs) (h : LowKept [Reg.STR_SLOT j] u v) : LowKept offs u v :=
    ⟨fun f hf ho => h.rd f hf fun hm => ho (List.mem_singleton.1 hm ▸ hj), h.lap, h.slots⟩
  have hhalt : LowKept ((List.range 16).map Reg.STR_SLOT) s (allClusters.foldl haltOne s) :=
    .foldl (fun _ _ h => .ite h h.setRun.abandonCl) .refl
  have hfault (l : List Nat) (hl : ∀ j ∈ l, j < 16) (u : State) : LowKept ((List.range 16).map Reg.STR_SLOT) u (l.foldl faultOne u) := by
    induction l generalizing u with
    | nil => exact .refl
    | cons i l ih =>
      have hi : Reg.STR_SLOT i ∈ (List.range 16).map Reg.STR_SLOT := List.mem_map.2 ⟨i, List.mem_range.2 (hl i (.head _)), rfl⟩
      exact (hwiden hi (faultOne_low i)).trans (ih (fun j hj => hl j (.tail _ hj)) _)
  exact hhalt.trans (hfault _ (fun j hj => List.mem_range.1 hj) _)

theorem allEnded_run (hs : s.stopped = true) (hk : Keyed s) {c : ClusterId} (hwf : c.wf = true) : (allEnded s).run c = if s.run c = 6 then 6 else 5 := by
  have hmid : Halts s (allClusters.foldl haltOne s) := haltAll_halts _
  have hended : Halts (allClusters.foldl haltOne s) (allEnded s) := .foldl_mem (fun _ _ hj h => h.trans (faultOne_halts (List.mem_range.1 hj))) .refl
  have hall := haltAll_run allClusters hs hk hwf (mem_allClusters hwf)
  have h1 := hmid.run hs hk c hwf
  have h2 := hended.run (hmid.stopped hs) (hmid.keys hk) c hwf
  split <;> omega

end

/-- Settles O51: each of the five detects its stop before it does anything else; when the stop is complete every cluster is seen to, then every slot, and
neither a record nor the end of an engine's work starts a cluster again. -/
theorem domainStops : Obligations.DomainStops := by
  intro s stops
  refine ⟨fun hrun => ⟨fun m hm => ?_, fun m c hm hc => ?_, fun t line a ht => ?_, fun l hl hstate => ?_, fun a ha => ?_⟩, fun x hx hl => ?_⟩
  · obtain ⟨h1, h2, h3, -⟩ := stopDetect_stops hrun 3 1 m.src m.addr
    exact ⟨_, receive_unknown hrun hm, h1, h2, h3⟩
  · obtain ⟨h1, h2, h3, -⟩ := stopDetect_stops hrun 3 2 m.src m.addr
    exact ⟨_, receive_misplaced hrun hm hc, h1, h2, h3⟩
  · obtain ⟨h1, h2, h3, -⟩ := stopDetect_stops hrun 2 0 (agentSrc a) line
    exact ⟨_, if_pos (by simp [ht]), h1, h2, h3⟩
  · obtain ⟨h1, h2, h3, h4⟩ := stopDetect_stops (s := linkFailed s l) hrun 5 l (srcOf 31 l) 0
    have hexec : exec (.dieLinkFail l) s = .next ((linkFailed s l).stopDetect 5 l (srcOf 31 l) 0) := if_neg (by simp [hl, hstate])
    rw [linkFailed_now] at h1
    refine ⟨_, hexec, ⟨h1, h2, h3⟩, ?_⟩
    rw [State.rd, h4 _ (by simp only [F.CRM_LINK_STATE, Reg.CRM_LINK, Reg.STR_PINS]; omega), ← State.rd]
    exact linkFailed_state l
  · obtain ⟨h1, h2, h3, -⟩ := stopDetect_stops hrun 6 0 (agentSrc a) 0
    exact ⟨_, if_pos ha, h1, h2, h3⟩
  · obtain ⟨e, hexec⟩ := domainStop_ends hx hl
    obtain ⟨u, hu⟩ : ∃ u, stopRecorded s x e = u := ⟨_, rfl⟩
    have hstop : u.stop = some { x with latched := true, cut := s.ringCut x } := hu ▸ stopRecorded_stop x e
    have hstopped : u.stopped = true := by rw [State.stopped, hstop]; rfl
    have hrec : Records (stopShown (stopBase s x) x) u := hu ▸ Records.refl.emit
    rw [hu] at hexec
    obtain ⟨v, hv⟩ : ∃ v, allEnded u = v := ⟨_, rfl⟩
    have hvstop : v.stop = u.stop := hv ▸ allEnded_halts.stop hstopped
    have hvlow : LowKept ((List.range 16).map Reg.STR_SLOT) u v := hv ▸ allEnded_low
    have hvstate {j : Nat} (hj : j < 16) : v.slotState j = 4 := hv ▸ faultAll_slotState _ hj (.inl (List.mem_range.2 hj))
    have hvrun (hk : Keyed u) {cl : ClusterId} (hwf : cl.wf = true) : v.run cl = if u.run cl = 6 then 6 else 5 := hv ▸ allEnded_run hstopped hk hwf
    rw [hv] at hexec
    obtain ⟨sl, howes⟩ := oweVotes_only (s := v) ((List.range 16).filter (fun j => s.slotState j == 2))
    have hlow (f : Fld) (hf : f ∈ [F.CRM_STATUS_DOMAIN, F.CRM_STOP_VALID, F.CRM_STOP_CAUSE, F.CRM_STOP_DETAIL, F.CRM_STOP_LAP_LAP, F.CRM_STOP_ADDR_LINE]) :
        (oweVotes v ((List.range 16).filter (fun j => s.slotState j == 2))).tick.rd f = (stopShown (stopBase s x) x).rd f := by
      obtain ⟨hlo, ho⟩ := stopFields_low f hf
      rw [howes]
      exact (hvlow.rd f hlo ho).trans (hrec.rd f hlo.evKept)
    obtain ⟨hdomain, hvalid, hcause, hdetail, hlap, hline⟩ := stopShown_rd (s := stopBase s x) x
    refine ⟨_, hexec, ⟨s.ringCut x, ?_, fun h5 h7 => by simp [State.ringCut, h5, h7]⟩, (hlow _ (by decide)).trans hdomain, (hlow _ (by decide)).trans hvalid,
      (hlow _ (by decide)).trans hcause, (hlow _ (by decide)).trans hdetail, (hlow _ (by decide)).trans hlap, (hlow _ (by decide)).trans hline,
      fun j hj => ⟨?_, fun h2 => oweVotes_owes _ (.inl (List.mem_filter.2 ⟨List.mem_range.2 hj, by simp [h2]⟩))⟩, fun hctxs hengs cl hwf => ?_⟩
    · rw [howes]
      exact hvstop.trans hstop
    · rw [howes]
      exact hvstate hj
    · obtain ⟨mm, q, st, hbase⟩ := stopBase_only (s := s) x
      have hkeyed : Keyed u := keyed_records hrec (stopShown_keyed x (stopBase_keyed x ⟨hctxs, hengs⟩))
      have hrun : u.run cl = s.run cl := by
        refine (hrec.rd _ (Halts.evKept_run cl)).trans ((stopShown_low x ?_).trans (by rw [hbase]; rfl))
        simp only [F.CL_STATUS_RUN, Reg.CL_STATUS, Reg.CRM_STATUS, Reg.CRM_STOP, Reg.CRM_STOP_LAP, Reg.CRM_STOP_ADDR, List.mem_cons, List.not_mem_nil, or_false]
        omega
      rw [howes]
      exact (hvrun hkeyed hwf).trans (by rw [hrun])

end Sys2Proof.Machine
end
